-- ==== Sys2Proof/Word.lean ====
section
/-! DEFINITION. The word type, the byte and tag types, and sparse maps. -/
namespace Sys2Proof

/-- A 64-bit word, the size of a register (00 R9) and of a memory word (00 R15). -/
abbrev Word := BitVec 64

/-- One byte of memory. -/
abbrev Byte := BitVec 8

/-- The 4-bit tag of a word, 00 R15. -/
abbrev Tag := BitVec 4

/-- A word with its tag. -/
structure TWord where
  tag : Tag
  val : Word
  deriving DecidableEq, Repr

/-- A map from numbers to values that lists only the keys whose value differs from that of an unlisted key. -/
abbrev Sparse (α : Type) := List (Nat × α)

/-- A physical engine, 00 R1: 208 of them. -/
abbrev EngId := Fin 208

/-- A register number of the G or the F file, 07 R246. -/
abbrev RegNo := BitVec 5

end Sys2Proof
end

