-- ==== Sys2Proof/Syntax.lean ====
section
/-! DEFINITION. The commands of the block: one constructor of Instr per row of spec/opcode_table.json, and the operand types they use. -/
namespace Sys2Proof

/-- Who makes a register or memory request: an engine at its running level and bank, the Steward, a PCIe function, or another crossbar master by MID (11 R387). -/
inductive Requester where
  | engine (e : EngId)
  | steward
  | pf
  | vf (n : Fin 2049)
  | master (mid : Fin 43)
  deriving DecidableEq, Repr

/-- What the checks of a read find: nothing, a corrected error, an uncorrectable one (06 R212, R235), both copies of the line's remap entry uncorrectable (06 R231), or a beat of the request itself that failed parity (11 R417). -/
inductive Ecc where
  | clean
  | corrected
  | uncorrectable
  | remapLost
  | parity
  deriving DecidableEq, Repr

/-- What the engine port does with the same word in the same ECLK, 06 R236. -/
inductive PortUse where
  | idle
  | reads (stream : Fin 3)
  | writes
  deriving DecidableEq, Repr

/-- Outcome of a march test of an LVS region, 06 R241. -/
inductive March where
  | pass
  | failOnce
  | failTwice
  deriving DecidableEq, Repr

/-- A crossbar transaction's identity, 11 R389: master, engine position, ID and KEYID. -/
structure Xact where
  mid : Fin 43
  pos : Fin 13
  id : BitVec 9
  key : BitVec 13
  deriving DecidableEq, Repr

/-- A line of the physical address space, PA[47:6]. -/
abbrev LineNo := Fin (2 ^ 42)

/-- The eight words of a line. -/
abbrev Line := Vector TWord 8

/-- What the check of a directory entry finds, 11 R414; `differing`: uncorrectable, and the holders return two differing dirty copies. -/
inductive DirEcc where
  | clean
  | corrected
  | uncorrectable
  | differing
  deriving DecidableEq, Repr

/-- What a scrub of one line finds, 06 R224; `overtaken`: a corrected line to which a foreground write arrived before the write-back. -/
inductive ScrubFind where
  | clean
  | corrected
  | overtaken
  | uncorrectable
  deriving DecidableEq, Repr

/-- The register ALU group, 07 R257. -/
inductive AluOp where
  | add | sub | and | or | xor | andn | sll | srl | sra | ror | slt | sltu | min | max | minu | maxu
  | mov | neg | clz | ctz | popc | tcmp | tagget
  deriving DecidableEq, Repr

/-- The immediate group, 07 R258, but for MOVI and MOVK. -/
inductive ImmOp where
  | addi | andi | ori | xori | slti | sltiu | shi | tagset
  deriving DecidableEq, Repr

/-- The instruction after a REP prefix, 07 R283; `other` is any that may not be repeated. -/
inductive RepBody where
  | alu (op : AluOp) (rd rs1 rs2 : RegNo)
  | imm (op : ImmOp) (rd rs1 : RegNo) (imm : BitVec 16)
  | addc (rd rs1 rs2 : RegNo)
  | subb (rd rs1 rs2 : RegNo)
  | dadj (rd rs1 : RegNo)
  | ldp (rd rs1 : RegNo) (imm : BitVec 16)
  | stp (rs rs1 : RegNo) (imm : BitVec 16)
  | fldp (fd rs1 : RegNo) (imm : BitVec 16)
  | fsdp (fs rs1 : RegNo) (imm : BitVec 16)
  | other
  deriving DecidableEq, Repr

/-- Width of a register access, 00 R9: 64 bits, or the lower or upper 32. -/
inductive AccSz where
  | w64
  | lo32
  | hi32
  deriving DecidableEq, Repr

/-- One ALLOC of a tenant's queue window, with the master and engine position that reads it, 13 R448. -/
structure AllocReq where
  mid : Fin 43
  pos : Fin 13
  t : BitVec 13
  j : Fin 1024
  deriving DecidableEq, Repr

/-- A received flit, 14 R471: link header, the 248 body bytes, and its CRC field. -/
structure Flit where
  hdr : BitVec 32
  body : List Byte
  crc : BitVec 32
  deriving DecidableEq, Repr

/-- What a DISC flit carries, 14 R482 and 16 R531; `good`: its CRC holds, `ack`: a valid ACK. -/
structure DiscFlit where
  good : Bool
  ack : Option (BitVec 10)
  did : BitVec 18
  port : BitVec 3
  part : BitVec 16
  ver : BitVec 16
  deriving DecidableEq, Repr

/-- What a PTP flit carries, 14 R490: the partner's egress TAI of its PTP flit before, and its ingress TAI of our last one. -/
structure PtpFlit where
  good : Bool
  ack : Option (BitVec 10)
  egress : BitVec 64
  ingress : BitVec 64
  deriving DecidableEq, Repr

/-- What the fuses hold, as Snowdrop senses them (17 R536, R541, R554, 15 R503, R504, 18 R561, 19 R581). -/
structure Fuses where
  dbgEn : Bool
  serial : BitVec 64
  mac : BitVec 48
  /-- SHA-384 digests of the owner keys, and the revoke bits. -/
  owner : Vector (BitVec 384) 4
  revoked : BitVec 4
  /-- The device key, its public key as ID_DEVKEY shows it, and the device-class secret. -/
  devKey : BitVec 384
  devPub : Vector Word 12
  classKey : BitVec 384
  /-- Fused minimums and the fuse rows used of each kind. -/
  fwMin : BitVec 16
  patchMin : BitVec 16
  seqMin : BitVec 64
  rows : Vector (Fin 17) 3
  /-- Time-zero delay of the ageing sensors, ps. -/
  base : List (Fin 1152 × BitVec 16)
  deriving DecidableEq, Repr

/-- What the part meets at the release of PORST_N: its fuses, the DBGREQ strap, bytes that a board programmer wrote to the boot flash (17 R537),
the bytes of the decrypted Drailo version, and the engines whose comparator test fails (10 R370). -/
structure Board where
  fuses : Fuses
  dbgreq : Bool
  flash : List (BitVec 32 × Byte)
  failing : List EngId
  deriving DecidableEq, Repr

/-- Submission to the event recorder, 18 R571. -/
structure SubReq where
  code : BitVec 16
  sev : Fin 7
  unit : BitVec 16
  p0 : BitVec 32
  p1 : BitVec 32
  tenant : BitVec 13
  deriving DecidableEq, Repr

/-- A host request through a BAR, 19 R584: function 0 is the PF. -/
structure PciReq where
  fn : Fin 2049
  bar : Fin 6
  off : BitVec 64
  write : Bool
  /-- Bytes read, or the data written. -/
  len : Nat
  data : List Byte
  deriving DecidableEq, Repr

/-- A configuration request of the host, 19 R587. -/
inductive CfgReq where
  | read (fn : Fin 2049) (reg : BitVec 10)
  | write (fn : Fin 2049) (reg : BitVec 10) (d : BitVec 32)
  /-- A write of SR-IOV NumVFs. -/
  | numVfs (n : Fin 2049)
  deriving DecidableEq, Repr

/-- A reset of the PCIe core, 19 R586. -/
inductive PciReset where
  | flr (fn : Fin 2049)
  | hot
  | linkDown
  | perst
  deriving DecidableEq, Repr

/-- The commands of the block, one constructor per row of spec/opcode_table.json, in the order of the table. -/
inductive Instr where
  | powerOnReset (b : Board)
  | registerWrite (r : Requester) (off : BitVec 26) (sz : AccSz) (d : Word)
  | slotStart (e : EngId) (n : Fin 64)
  | usablePartEnd (e : EngId)
  | slotEnd (e : EngId)
  | angleWrap
  | voteMismatch
  | phrefEdge (p : Fin 3) (rising own : Bool)
  | ptpReferenceInstant
  | referenceLoss (sv : Bool)
  | referenceRevert (own : Bool)
  | holdoverLimitExpiry
  | forceHold (b : Bool)
  | gavTaiCtrl (d : Word) (v : Option (BitVec 64))
  | taiSet (d : Word)
  | ppsInEdge
  | taiLockTimeout
  | ppsOutRise
  | ppsOutFall
  | gavTrigaWrite (r : Requester) (n : Fin 8192) (d : Word)
  | gavTrigbWrite (r : Requester) (n : Fin 8192) (d : Word)
  | triggerFire (n : Fin 8192) (late : List EngId)
  | matchDelayedFire (n : Fin 8192) (late : List EngId)
  | timerExpiry (t : Fin 64)
  | edgeAccept (e : Fin 32) (rising own : Bool)
  | pop (e : Fin 32)
  | pinLevelChange (n : Fin 36) (b : Bool)
  | pinGpioOut (d : Word)
  | vadd (e : EngId) (md : BitVec 6) (rsv : BitVec 8) (p1 : BitVec 32)
  | vsub (e : EngId) (md : BitVec 6) (rsv : BitVec 8) (p1 : BitVec 32)
  | vneg (e : EngId) (md : BitVec 6) (rsv : BitVec 8) (p1 : BitVec 32)
  | vabs (e : EngId) (md : BitVec 6) (rsv : BitVec 8) (p1 : BitVec 32)
  | vmin (e : EngId) (md : BitVec 6) (rsv : BitVec 8) (p1 : BitVec 32)
  | vmax (e : EngId) (md : BitVec 6) (rsv : BitVec 8) (p1 : BitVec 32)
  | vcmp (e : EngId) (md : BitVec 6) (rsv : BitVec 8) (p1 : BitVec 32)
  | vsel (e : EngId) (md : BitVec 6) (rsv : BitVec 8) (p1 : BitVec 32)
  | vand (e : EngId) (md : BitVec 6) (rsv : BitVec 8) (p1 : BitVec 32)
  | vor (e : EngId) (md : BitVec 6) (rsv : BitVec 8) (p1 : BitVec 32)
  | vxor (e : EngId) (md : BitVec 6) (rsv : BitVec 8) (p1 : BitVec 32)
  | vandn (e : EngId) (md : BitVec 6) (rsv : BitVec 8) (p1 : BitVec 32)
  | vshl (e : EngId) (md : BitVec 6) (rsv : BitVec 8) (p1 : BitVec 32)
  | vshr (e : EngId) (md : BitVec 6) (rsv : BitVec 8) (p1 : BitVec 32)
  | vdchk (e : EngId) (md : BitVec 6) (rsv : BitVec 8) (p1 : BitVec 32)
  | vdshl (e : EngId) (md : BitVec 6) (rsv : BitVec 8) (p1 : BitVec 32)
  | vdshr (e : EngId) (md : BitVec 6) (rsv : BitVec 8) (p1 : BitVec 32)
  | vmul (e : EngId) (md : BitVec 6) (rsv : BitVec 8) (p1 : BitVec 32)
  | vmulh (e : EngId) (md : BitVec 6) (rsv : BitVec 8) (p1 : BitVec 32)
  | vmulw (e : EngId) (md : BitVec 6) (rsv : BitVec 8) (p1 : BitVec 32)
  | vdot (e : EngId) (md : BitVec 6) (rsv : BitVec 8) (p1 : BitVec 32)
  | vfma (e : EngId) (md : BitVec 6) (rsv : BitVec 8) (p1 : BitVec 32)
  | vdiv (e : EngId) (md : BitVec 6) (rsv : BitVec 8) (p1 : BitVec 32)
  | vsqrt (e : EngId) (md : BitVec 6) (rsv : BitVec 8) (p1 : BitVec 32)
  | vrsum (e : EngId) (md : BitVec 6) (rsv : BitVec 8) (p1 : BitVec 32)
  | vrmin (e : EngId) (md : BitVec 6) (rsv : BitVec 8) (p1 : BitVec 32)
  | vrmax (e : EngId) (md : BitVec 6) (rsv : BitVec 8) (p1 : BitVec 32)
  | vscan (e : EngId) (md : BitVec 6) (rsv : BitVec 8) (p1 : BitVec 32)
  | vzip (e : EngId) (md : BitVec 6) (rsv : BitVec 8) (p1 : BitVec 32)
  | vunzip (e : EngId) (md : BitVec 6) (rsv : BitVec 8) (p1 : BitVec 32)
  | vbfly (e : EngId) (md : BitVec 6) (rsv : BitVec 8) (p1 : BitVec 32)
  | vcvt (e : EngId) (md : BitVec 6) (rsv : BitVec 8) (p1 : BitVec 32)
  | copy (e : EngId) (rsv : BitVec 22) (p1 : BitVec 32)
  | fill (e : EngId) (rsv : BitVec 22) (p1 : BitVec 32)
  | chain (e : EngId) (body : BitVec 24) (p1 : BitVec 32)
  | lvBlockCommit (e : EngId) (q : Fin 6)
  | residueRewind (e : EngId) (q : Option (Fin 6))
  | lvComplete (e : EngId) (b : Fin 8) (q : Fin 6)
  | lvDeferredWriteError (e : EngId) (b : Fin 8) (q : Fin 6) (blk : BitVec 18) (resp : BitVec 3)
  | clear (e : EngId)
  | ringBeatReceive (e : EngId) (bad : Bool)
  | endMarker (e : EngId)
  | blockDecide (e : EngId)
  | commitSignal (e : EngId)
  | rewindMarker (e : EngId)
  | pauseMarker (e : EngId)
  | creditReturn (e : EngId)
  | freezeSignal (e : EngId) (up : Bool)
  | freezeComplete (e : EngId)
  | lineRead (x : Xact) (l : LineNo) (ecc : Ecc)
  | fullLineWrite (x : Xact) (l : LineNo) (ws : Line)
  | partialLineWrite (x : Xact) (l : LineNo) (data : List (Fin 64 × Byte)) (tags : List (Fin 8 × Tag)) (ecc : Ecc)
  | scrubSlot (p : Fin 256) (f : ScrubFind)
  | sanitise (sl : Fin 32) (region : Fin 256)
  | sanitiseDone (sl : Fin 32)
  | pcTrainingLoss (p : Fin 256)
  | pcRetire (r : Requester) (p : Fin 256)
  | pcTest (r : Requester) (p : Fin 256)
  | pcReinstate (r : Requester) (p : Fin 256)
  | pcTestDone (p : Fin 256) (good : Bool)
  | migrationDone (sl : Fin 32) (lost : List LineNo)
  | lvsClusterAccess (x : Xact) (e : EngId) (line : Fin 16384) (write : Bool) (data : List (Fin 64 × Byte)) (tags : List (Fin 8 × Tag)) (port : PortUse) (w : Fin 8) (ecc : Ecc)
  | foxSave (e : EngId)
  | foxMarch (e : EngId) (m : March)
  | foxRestore (e : EngId)
  | foxWaitEnd (e : EngId)
  | add (e : EngId) (rd rs1 rs2 : RegNo)
  | sub (e : EngId) (rd rs1 rs2 : RegNo)
  | and (e : EngId) (rd rs1 rs2 : RegNo)
  | or (e : EngId) (rd rs1 rs2 : RegNo)
  | xor (e : EngId) (rd rs1 rs2 : RegNo)
  | andn (e : EngId) (rd rs1 rs2 : RegNo)
  | sll (e : EngId) (rd rs1 rs2 : RegNo)
  | srl (e : EngId) (rd rs1 rs2 : RegNo)
  | sra (e : EngId) (rd rs1 rs2 : RegNo)
  | ror (e : EngId) (rd rs1 rs2 : RegNo)
  | slt (e : EngId) (rd rs1 rs2 : RegNo)
  | sltu (e : EngId) (rd rs1 rs2 : RegNo)
  | min (e : EngId) (rd rs1 rs2 : RegNo)
  | max (e : EngId) (rd rs1 rs2 : RegNo)
  | minu (e : EngId) (rd rs1 rs2 : RegNo)
  | maxu (e : EngId) (rd rs1 rs2 : RegNo)
  | mov (e : EngId) (rd rs1 : RegNo)
  | neg (e : EngId) (rd rs1 : RegNo)
  | clz (e : EngId) (rd rs1 : RegNo)
  | ctz (e : EngId) (rd rs1 : RegNo)
  | popc (e : EngId) (rd rs1 : RegNo)
  | tcmp (e : EngId) (rd rs1 rs2 : RegNo)
  | tagget (e : EngId) (rd rs1 : RegNo)
  | addi (e : EngId) (rd rs1 : RegNo) (i : BitVec 16)
  | andi (e : EngId) (rd rs1 : RegNo) (i : BitVec 16)
  | ori (e : EngId) (rd rs1 : RegNo) (i : BitVec 16)
  | xori (e : EngId) (rd rs1 : RegNo) (i : BitVec 16)
  | slti (e : EngId) (rd rs1 : RegNo) (i : BitVec 16)
  | sltiu (e : EngId) (rd rs1 : RegNo) (i : BitVec 16)
  | shi (e : EngId) (rd rs1 : RegNo) (i : BitVec 16)
  | movi (e : EngId) (rd : RegNo) (i : BitVec 16)
  | movk (e : EngId) (rd : RegNo) (h : Fin 4) (i : BitVec 16)
  | tagset (e : EngId) (rd rs1 : RegNo) (i : BitVec 16)
  | mul (e : EngId) (rd rs1 rs2 : RegNo)
  | mulh (e : EngId) (rd rs1 rs2 : RegNo)
  | mulhu (e : EngId) (rd rs1 rs2 : RegNo)
  | mulw (e : EngId) (rd rs1 rs2 : RegNo)
  | mulwu (e : EngId) (rd rs1 rs2 : RegNo)
  | div (e : EngId) (rd rs1 rs2 : RegNo)
  | divu (e : EngId) (rd rs1 rs2 : RegNo)
  | rem (e : EngId) (rd rs1 rs2 : RegNo)
  | remu (e : EngId) (rd rs1 rs2 : RegNo)
  | addc (e : EngId) (rd rs1 rs2 : RegNo)
  | addcz (e : EngId) (rd rs1 rs2 : RegNo)
  | subb (e : EngId) (rd rs1 rs2 : RegNo)
  | subbz (e : EngId) (rd rs1 rs2 : RegNo)
  | dadj (e : EngId) (rd rs1 : RegNo)
  | dadd (e : EngId) (rd rs1 rs2 : RegNo)
  | dsub (e : EngId) (rd rs1 rs2 : RegNo)
  | dcmp (e : EngId) (rd rs1 rs2 : RegNo)
  | cvbd (e : EngId) (rd rs1 : RegNo)
  | cvdb (e : EngId) (rd rs1 : RegNo)
  | dshl (e : EngId) (rd rs1 : RegNo) (k : BitVec 4)
  | dshr (e : EngId) (rd rs1 : RegNo) (k : BitVec 4)
  | ld (e : EngId) (rd rs1 : RegNo) (imm : BitVec 16)
  | ldw (e : EngId) (rd rs1 : RegNo) (imm : BitVec 16)
  | ldwu (e : EngId) (rd rs1 : RegNo) (imm : BitVec 16)
  | ldh (e : EngId) (rd rs1 : RegNo) (imm : BitVec 16)
  | ldhu (e : EngId) (rd rs1 : RegNo) (imm : BitVec 16)
  | ldb (e : EngId) (rd rs1 : RegNo) (imm : BitVec 16)
  | ldbu (e : EngId) (rd rs1 : RegNo) (imm : BitVec 16)
  | ldX (e : EngId) (rd rs1 : RegNo) (imm : BitVec 16)
  | ldp (e : EngId) (rd rs1 : RegNo) (imm : BitVec 16)
  | fld (e : EngId) (fd rs1 : RegNo) (imm : BitVec 16)
  | fldp (e : EngId) (fd rs1 : RegNo) (imm : BitVec 16)
  | flw (e : EngId) (fd rs1 : RegNo) (imm : BitVec 16)
  | vld (e : EngId) (vd : BitVec 3) (et : BitVec 4) (rs1 : RegNo) (imm : BitVec 14)
  | st (e : EngId) (rs rs1 : RegNo) (imm : BitVec 16)
  | stw (e : EngId) (rs rs1 : RegNo) (imm : BitVec 16)
  | sth (e : EngId) (rs rs1 : RegNo) (imm : BitVec 16)
  | stb (e : EngId) (rs rs1 : RegNo) (imm : BitVec 16)
  | stp (e : EngId) (rs rs1 : RegNo) (imm : BitVec 16)
  | fsd (e : EngId) (fs rs1 : RegNo) (imm : BitVec 16)
  | fsdp (e : EngId) (fs rs1 : RegNo) (imm : BitVec 16)
  | fsw (e : EngId) (fs rs1 : RegNo) (imm : BitVec 16)
  | vst (e : EngId) (vs : BitVec 3) (et : BitVec 4) (rs1 : RegNo) (imm : BitVec 14)
  | storeDeferredError (e : EngId)
  | cacheLineFill (e : EngId) (line : LineNo) (data : Bool)
  | lkld (e : EngId) (rd rs1 : RegNo)
  | lkst (e : EngId) (rd rs1 rs2 : RegNo)
  | lkrel (e : EngId) (rs1 : RegNo)
  | lockBreak (sl : Fin 32)
  | brcEq (e : EngId) (rs1 rs2 : RegNo) (off : BitVec 13)
  | brcNe (e : EngId) (rs1 rs2 : RegNo) (off : BitVec 13)
  | brcLt (e : EngId) (rs1 rs2 : RegNo) (off : BitVec 13)
  | brcGe (e : EngId) (rs1 rs2 : RegNo) (off : BitVec 13)
  | brcLo (e : EngId) (rs1 rs2 : RegNo) (off : BitVec 13)
  | brcHs (e : EngId) (rs1 rs2 : RegNo) (off : BitVec 13)
  | brcTeq (e : EngId) (rs1 : RegNo) (code : BitVec 5) (off : BitVec 13)
  | brcTne (e : EngId) (rs1 : RegNo) (code : BitVec 5) (off : BitVec 13)
  | go (e : EngId) (off : BitVec 26)
  | call (e : EngId) (rl : RegNo) (off : BitVec 21)
  | gor (e : EngId) (rd rs1 : RegNo) (i : BitVec 16)
  | syscall (e : EngId) (code : BitVec 16)
  | break (e : EngId)
  | retx (e : EngId)
  | fence (e : EngId)
  | fenceI (e : EngId)
  | vwait (e : EngId) (mask : BitVec 16)
  | slotyield (e : EngId)
  | rdtime (e : EngId) (rd : RegNo)
  | rdtimes (e : EngId) (rd : RegNo)
  | rdtai (e : EngId) (rd : RegNo)
  | banksave (e : EngId) (rs : RegNo) (imm : BitVec 16)
  | bankload (e : EngId) (rs : RegNo) (imm : BitVec 16)
  | nop (e : EngId)
  | crr (e : EngId) (rd : RegNo) (crn : BitVec 12)
  | crw (e : EngId) (rd rs1 : RegNo) (crn : BitVec 12)
  | crs (e : EngId) (rd rs1 : RegNo) (crn : BitVec 12)
  | crc (e : EngId) (rd rs1 : RegNo) (crn : BitVec 12)
  | repI (e : EngId) (gc : RegNo) (body : RepBody) (iters : Nat)
  | repN (e : EngId) (gc : RegNo) (body : RepBody) (iters : Nat)
  | fadd (e : EngId) (fd fa fb : RegNo) (fmt : BitVec 2) (rm : BitVec 3)
  | fsub (e : EngId) (fd fa fb : RegNo) (fmt : BitVec 2) (rm : BitVec 3)
  | fmul (e : EngId) (fd fa fb : RegNo) (fmt : BitVec 2) (rm : BitVec 3)
  | fma (e : EngId) (fd fa fb : RegNo) (fmt : BitVec 2) (rm : BitVec 3)
  | fdiv (e : EngId) (fd fa fb : RegNo) (fmt : BitVec 2) (rm : BitVec 3)
  | fsqrt (e : EngId) (fd fa : RegNo) (fmt : BitVec 2) (rm : BitVec 3)
  | fmin (e : EngId) (fd fa fb : RegNo) (fmt : BitVec 2) (num : Bool)
  | fmax (e : EngId) (fd fa fb : RegNo) (fmt : BitVec 2) (num : Bool)
  | fcmp (e : EngId) (gd fa fb : RegNo) (fmt : BitVec 2) (cond : BitVec 3) (sig : Bool)
  | fcvtFf (e : EngId) (fd fa : RegNo) (src fmt : BitVec 2) (rm : BitVec 3)
  | fcvtFi (e : EngId) (fd ga : RegNo) (uns : Bool) (fmt : BitVec 2) (rm : BitVec 3)
  | fcvtIf (e : EngId) (gd fa : RegNo) (uns : Bool) (fmt : BitVec 2) (rm : BitVec 3)
  | fmvGf (e : EngId) (fd ga : RegNo)
  | fmvFg (e : EngId) (gd fa : RegNo) (fmt : BitVec 2)
  | fneg (e : EngId) (fd fa : RegNo) (fmt : BitVec 2)
  | fabs (e : EngId) (fd fa : RegNo) (fmt : BitVec 2)
  | shortVadd (e : EngId) (vd va vb : BitVec 3) (et : BitVec 4) (md : BitVec 3)
  | shortVsub (e : EngId) (vd va vb : BitVec 3) (et : BitVec 4) (md : BitVec 3)
  | shortVneg (e : EngId) (vd va : BitVec 3) (et : BitVec 4) (md : BitVec 3)
  | shortVabs (e : EngId) (vd va : BitVec 3) (et : BitVec 4) (md : BitVec 3)
  | shortVmin (e : EngId) (vd va vb : BitVec 3) (et : BitVec 4) (md : BitVec 3)
  | shortVmax (e : EngId) (vd va vb : BitVec 3) (et : BitVec 4) (md : BitVec 3)
  | shortVand (e : EngId) (vd va vb : BitVec 3) (et : BitVec 4) (md : BitVec 3)
  | shortVor (e : EngId) (vd va vb : BitVec 3) (et : BitVec 4) (md : BitVec 3)
  | shortVxor (e : EngId) (vd va vb : BitVec 3) (et : BitVec 4) (md : BitVec 3)
  | shortVandn (e : EngId) (vd va vb : BitVec 3) (et : BitVec 4) (md : BitVec 3)
  | shortVshl (e : EngId) (vd va vb : BitVec 3) (et : BitVec 4) (md : BitVec 3)
  | shortVshr (e : EngId) (vd va vb : BitVec 3) (et : BitVec 4) (md : BitVec 3)
  | shortVdchk (e : EngId) (vd va : BitVec 3) (et : BitVec 4) (md : BitVec 3)
  | shortVmul (e : EngId) (vd va vb : BitVec 3) (et : BitVec 4) (md : BitVec 3)
  | shortVmulh (e : EngId) (vd va vb : BitVec 3) (et : BitVec 4) (md : BitVec 3)
  | shortVfma (e : EngId) (vd va vb : BitVec 3) (et : BitVec 4) (md : BitVec 3)
  | shortVdiv (e : EngId) (vd va vb : BitVec 3) (et : BitVec 4) (md : BitVec 3)
  | shortVsqrt (e : EngId) (vd va : BitVec 3) (et : BitVec 4) (md : BitVec 3)
  | shortVcvt (e : EngId) (vd va : BitVec 3) (et dt : BitVec 4) (md : BitVec 3)
  | customerInstruction (e : EngId) (rd rs1 rs2 : RegNo) (x : BitVec 7) (sub : Fin 16)
  | exceptionEntry (e : EngId)
  | fehTimeout (e : EngId)
  | interruptEntry (e : EngId)
  | promptEntry (e : EngId) (late : Bool)
  | heldDelivery (e : EngId)
  | niTimeout (e : EngId)
  | evecM (e : EngId) (v : Word)
  | promptCopyDone (e : EngId)
  | resume (e : EngId)
  | vacate (e : EngId)
  | checkpointComplete (e : EngId)
  | lockstepRecovery (e : Option EngId) (kind : Fin 5) (grp : Fin 24) (ma : BitVec 15) (bad : List LineNo) (lost : Bool)
  | recoveryEnd (e : Option EngId) (late : Bool)
  | takeoverSwap (c : Fin 16)
  | handover (r : Requester) (c : Fin 16) (i : Fin 16) (timeout : BitVec 16)
  | retire (r : Requester) (c : Fin 16) (i : Fin 16) (timeout : BitVec 16)
  | test (r : Requester) (c : Fin 16) (p : Fin 16)
  | reinstate (r : Requester) (c : Fin 16) (p : Fin 16)
  | abort (r : Requester) (c : Fin 16)
  | precopyDone (c : Fin 16) (flags : BitVec 24)
  | handoverSwap (c : Fin 16)
  | handoverTimeout (c : Fin 16)
  | engineTestDone (c : Fin 16) (flags : BitVec 24) (good : Bool)
  | defaultTargetAccess (x : Xact) (addr : BitVec 48)
  | rdS (c : Fin 17) (pos : Fin 13) (key : BitVec 13) (l : LineNo) (d : DirEcc)
  | rdU (c : Fin 17) (pos : Fin 13) (key : BitVec 13) (l : LineNo) (d : DirEcc)
  | upg (c : Fin 17) (pos : Fin 13) (key : BitVec 13) (l : LineNo) (d : DirEcc)
  | wb (c : Fin 17) (l : LineNo) (ws : Line)
  | evc (c : Fin 17) (l : LineNo)
  | snpSh (c : Fin 17) (l : LineNo) (crossing : Bool)
  | snpInv (c : Fin 17) (l : LineNo) (crossing : Bool)
  | snpRd (c : Fin 17) (l : LineNo) (crossing : Bool)
  | snpDrop (c : Fin 17) (l : LineNo) (crossing : Bool)
  | sourceAssert (i : Fin 1024)
  | msixUnmask (v : Fin 2048)
  | claim (c : Fin 3586)
  | complete (c : Fin 3586) (i : BitVec 10)
  | holdoffExpiry (g : Fin 64)
  | icSgi (r : Requester) (i : BitVec 10)
  | tpDoorbell (t : BitVec 13) (i : BitVec 10)
  | icSrcCfg (r : Requester) (i : Fin 1024) (d : Word)
  | eventFire (ch : Fin 128)
  | evrFire (r : Requester) (hi : Bool) (d : Word)
  | evoutPulseEnd (n : Fin 32)
  | deq (t : BitVec 13) (j : Fin 1024) (bad : Nat)
  | enq (t : BitVec 13) (j : Fin 1024) (d : Word)
  | alloc (reqs : List AllocReq)
  | free (t : BitVec 13) (j : Fin 1024) (d : Word)
  | ingressAdmit (p : Fin 6) (full : Bool)
  | ingressRetry (p : Fin 6) (lane : Fin 16)
  | ingressPost (p : Fin 6)
  | tokenRefill
  | shedEntry (q : BitVec 17)
  | descRamUe (q : BitVec 17)
  | dropRecordSecond
  | flitReceive (p : Fin 6) (f : Flit)
  | ctrlFlit (p : Fin 6) (f : Flit)
  | ackTimer (p : Fin 6)
  | discSend (p : Fin 6)
  | discFlit (p : Fin 6) (f : DiscFlit)
  | neighbourLost (p : Fin 6)
  | ptpFlitSend (p : Fin 6)
  | ptpFlit (p : Fin 6) (f : PtpFlit)
  | messageReceive (p : Fin 6) (vc : Fin 8)
  | transitStuckDrop (p : Fin 6) (vc : Fin 8)
  | ethFrameReceive (p : Fin 6) (l : Fin 8) (frame : List Byte)
  | ptpFrameReceive (p : Fin 6) (frame : List Byte) (st : Option (Fin 6))
  | portTransmit (p : Fin 6) (ch : Fin 16384) (bad : Nat)
  | laneFailure (p : Fin 6) (k : Fin 8)
  | laneRejoin (p : Fin 6)
  | linkDown (p : Fin 6) (l : Fin 8)
  | linkRetrainDone (p : Fin 6) (l : Fin 8) (ok : Bool)
  | release (r : Requester) (p : Fin 6)
  | stage (r : Requester) (b : Fin 4)
  | discard (r : Requester) (b : Fin 4)
  | stageCheckDone
  | fillDone
  | svcInfo (seq : BitVec 16)
  | svcOpen (seq : BitVec 16) (kind : Byte) (len : BitVec 32)
  | svcData (seq : BitVec 16) (off : BitVec 32) (data : List Byte)
  | svcClose (seq : BitVec 16)
  | svcStatus (seq : BitVec 16)
  | verify (r : Requester)
  | ecdh (r : Requester) (ksel : Bool)
  | sha384 (r : Requester)
  | gcmDecrypt (r : Requester) (kslot : Fin 4)
  | gcmEncrypt (r : Requester) (kslot : Fin 4)
  | xts (r : Requester) (kslot : Fin 4) (dir : Bool)
  | derive (r : Requester) (kslot : Fin 4)
  | keygen (r : Requester)
  | random (r : Requester)
  | keDone
  | prepare (r : Requester) (v : BitVec 16)
  | prepareDone
  | start (r : Requester)
  | stop (r : Requester)
  | raiseMin (r : Requester)
  | revoke (r : Requester) (k : Fin 4)
  | spareLoadDone (flags : BitVec 24)
  | stewardFirmwareSwitch
  | surveyStart
  | now (r : Requester)
  | planDecide (c : Fin 16) (raw : Vector (BitVec 16) 64)
  | eclkStep (c : Fin 16) (nak : Bool)
  | marigoldSubmit (subs : List SubReq)
  | tjAlert
  | tjThrottle
  | tjCool
  | thermtrip
  | pcieInboundRequest (q : PciReq)
  | pcieConfigRequest (q : CfgReq)
  | pcieReset (k : PciReset)
  | outboundAccess (r : Requester) (a : BitVec 48) (write : Bool) (data : List Byte) (host : Option Word)
  | mbxDoor (r : Requester) (d : Word)
  | mailboxReply (rep : List (Fin 512 × Word))
  | smbusHottestTj (tj : BitVec 16)
  | smbusPackagePower (w : BitVec 16)
  | smbusUpdBoot
  | smbusGavState
  | smbusUpdatePhase
  | smbusCriticalCount
  | smbusLowestLife
  | bypass
  | idcode
  | samplePreload (bits : List Bool)
  | extest
  | extestPulse
  | extestTrain
  | clamp
  | highz
  | debug (e : EngId) (halt : Bool)
  | engVsuCntclr (e : EngId)
  | engChnCntclr (e : EngId)
  | slcCntclr (sl : Fin 32)
  | lvsCntclr (e : EngId)
  | engExcCntclr (e : EngId)
  | engTngCntclr (e : EngId)
  | slcXcntclr (sl : Fin 32)
  | cluCcCntclr (c : Fin 16)
  | qmCntclr (r : Requester)
  | octCntclr (r : Requester) (p : Fin 6)
  | linkUp (p : Fin 6) (l : Fin 8) (sizes : Vector (BitVec 11) 8)
  | pcieLinkUp (speed width : Nat) (flit : Bool)
  | svcLinkChange (up : Bool)
  | porstNAssert
  | accessResponse (e : EngId) (host : Option (Vector Word 4))
  | platformTimeCutoff (e : EngId)
  | surveyComplete (raw : Vector (BitVec 16) 128)
  | revokeDone
  | ptpMessageSend (p : Fin 6)
  deriving DecidableEq, Repr

end Sys2Proof
end

