-- ==== Sys2Proof/Config.lean ====
section
/-! DEFINITION. What the spec leaves open: free values as constants with no body. A statement about them holds for every value. -/
namespace Sys2Proof.Config

/-- A free 64-bit value, taken anew at each use by the counter of State (log entry 7). -/
opaque freeWord : Nat → BitVec 64

/-- Frequency error in 10^-9, as a signed number, of the 25 MHz system reference (0) and of the 10 MHz input (1) at an instant of the monotonic tick: no rule gives it (02 R47 and R58, log entry 7). -/
opaque clockError : Nat → Nat → BitVec 16

/-- The share of the full correction that the tracking loop applies in one cycle, by its bandwidth in mHz, the size of the measured error in ns and the free-value counter: 02 R53 gives the bandwidth and no loop (log entry 7). -/
opaque loopGain : Nat → Nat → Nat → BitVec 64

/-- The angle of the fundamental at an instant of TAI, fitted to the samples of one cycle given by time and value: 02 R50 gives no fitting method (log entry 7). -/
opaque svPhase : List (Nat × Int) → Nat → BitVec 32

/-- The remap-table entry that holds a line of a pseudo-channel: 06 R231 names entries and no rule says which lines one holds (log entry 10). -/
opaque remapEntry : Nat → Nat

/-- The slot that a slice reserves first for the k-th reserved slot of a SLICE region: pseudo-channel, region, k (06 R209, log entry 10). -/
opaque resSlot : Nat → Nat → Nat → BitVec 8

/-- Digest of the Narsol key that the ROM holds for an image KIND, 17 R541 (log entry 60). -/
opaque narsolKey : Nat → BitVec 384

/-- The fixed device key and device-class secret of OPEN_DEBUG, 17 R535 (log entry 60). -/
opaque debugDevKey : BitVec 384
opaque debugClassKey : BitVec 384

/-- The image key that the key engine derives from the device-class secret for a KIND, 08 R303 (log entry 60). -/
opaque imageKey : BitVec 384 → Nat → BitVec 256

/-- Patch RAM words by micro-address, and trap entries (number, ROM address, patch address), in the payload of a vendor patch image, whose layout the spec does not give (log entry 61). -/
opaque patchWords : List (BitVec 8) → List (Nat × BitVec 144)
opaque patchTraps : List (BitVec 8) → List (Nat × Nat × Nat)

/-- Bytes of Drailo by offset in the machine firmware area, in the payload of a firmware image for a version, whose layout the spec does not give (log entry 61). -/
opaque drailo : List (BitVec 8) → Nat → List (Nat × BitVec 8)

/-- Microwords of the ROM by micro-address, which the spec does not list (08 R286, log entry 23). -/
opaque romWord : Nat → BitVec 144

/-- A sensor reading converted to Tj 105 °C and a candidate voltage in mV, in ps (18 R561): sensor number, raw reading, voltage (log entry 70). -/
opaque sensorDelay : Nat → BitVec 16 → Nat → Nat

/-- Words of the PCIe configuration space that the host has not written, by 1,024 times the function plus the register: the spec gives none (log entry 13). -/
opaque pciConfig : Nat → BitVec 32

/-- Whether a sensor outside the clusters with this converted delay is below its guard at the present clock, 18 R576 (log entry 70). -/
opaque belowGuard : Nat → Nat → Bool

end Sys2Proof.Config
end

