-- ==== Sys2Proof/Machine/Sparse.lean ====
section
/-! DEFINITION. Reading and writing sparse maps, and small helpers over numbers and bits. -/
namespace Sys2Proof.Machine

/-- Value of key `k`, where `d k` is what an unlisted key holds. -/
def sget {α : Type} (d : Nat → α) (m : Sparse α) (k : Nat) : α :=
  match m with
  | [] => d k
  | (a, v) :: r => if a = k then v else sget d r k

/-- The map without key `k`. -/
def sdel {α : Type} (m : Sparse α) (k : Nat) : Sparse α :=
  m.filter fun p => p.1 != k

/-- Insert before the first greater key. -/
def sins {α : Type} (m : Sparse α) (k : Nat) (v : α) : Sparse α :=
  match m with
  | [] => [(k, v)]
  | (a, w) :: r => if k < a then (k, v) :: (a, w) :: r else (a, w) :: sins r k v

/-- Give key `k` the value `v`; a value equal to the unlisted one is not listed. -/
def sset {α : Type} [DecidableEq α] (d : Nat → α) (m : Sparse α) (k : Nat) (v : α) : Sparse α :=
  if v = d k then sdel m k else sins (sdel m k) k v

/-- The keys of a map rise strictly and none holds its unlisted value. -/
def swf {α : Type} [DecidableEq α] (d : Nat → α) (m : Sparse α) : Bool :=
  decide (m.Pairwise fun p q => p.1 < q.1) && m.all fun p => decide (p.2 ≠ d p.1)

/-- Bits `[lo + w - 1 : lo]` of `x`. -/
def bits (x lo w : Nat) : Nat := (x >>> lo) % 2 ^ w

/-- `x` with bits `[lo + w - 1 : lo]` replaced by `v`. -/
def setBits (x lo w v : Nat) : Nat :=
  x - (bits x lo w <<< lo) + ((v % 2 ^ w) <<< lo)

/-- 1 for true, 0 for false. -/
def b2n (b : Bool) : Nat := if b then 1 else 0

/-- Add with saturation at `2 ^ w - 1`. -/
def satAdd (w x n : Nat) : Nat := min (x + n) (2 ^ w - 1)

/-- The number a `w`-bit two's-complement pattern stands for. -/
def toSigned (w x : Nat) : Int := if x % 2 ^ w < 2 ^ (w - 1) then ((x % 2 ^ w : Nat) : Int) else ((x % 2 ^ w : Nat) : Int) - 2 ^ w

/-- The `w`-bit two's-complement pattern of a number. -/
def ofSigned (w : Nat) (x : Int) : Nat := (x % (2 ^ w : Int)).toNat

/-- Difference of two TIME words as a signed number, 00 R14: positive when `b` is later than `a`. -/
def timeDiff (a b : Nat) : Int := toSigned 64 (b + 2 ^ 64 - a % 2 ^ 64)

/-- Apply `f` to each element of a list in turn, threading a state. -/
def eachDo {σ β : Type} (xs : List β) (f : β → σ → σ) (s : σ) : σ := xs.foldl (fun t x => f x t) s

/-- Change the first element that satisfies `p`. -/
def firstDo {β : Type} (p : β → Bool) (f : β → β) : List β → List β
  | [] => []
  | x :: xs => if p x then f x :: xs else x :: firstDo p f xs

end Sys2Proof.Machine
end

