-- ==== Sys2Proof/Machine/RegTable.lean ====
section
/-! DEFINITION. The register table of the platform view: one entry per register of the register tables of spec/, with its
offset, its fields, their access codes (00 R4) and their reset values (00 R8). -/
namespace Sys2Proof.Machine

/-- Access code of a register field, 00 R4. -/
inductive Acc | ro | rw | w1c | wo | rwl | rsv
  deriving DecidableEq, Repr

/-- One field: lowest bit, width, access code and reset value. -/
structure Fld where
  lo : Nat
  w : Nat
  acc : Acc
  rst : Nat
  deriving DecidableEq, Repr

/-- One register or array of registers: offset in the platform view, two index strides with their counts, and fields. -/
structure RegDef where
  base : Nat
  s1 : Nat
  n1 : Nat
  s2 : Nat
  n2 : Nat
  flds : List Fld
  deriving DecidableEq, Repr

namespace Reg

/-! Registers of spec/01_tenants_partitions_and_angle_dispatch.md. -/
/-- Offset of ENG_SLOTA, R28. -/
def ENG_SLOTA (e n : Nat) : Nat := 0x101000 + 0x4000 * e + 0x10 * n
def ENG_SLOTA_ANGLE : Fld := ⟨0, 32, .ro, 0⟩
def ENG_SLOTA_BANK : Fld := ⟨32, 3, .ro, 0⟩
def ENG_SLOTA_MODE : Fld := ⟨36, 2, .ro, 0⟩
def ENG_SLOTA_XNOTE : Fld := ⟨38, 1, .ro, 0⟩
/-- Offset of ENG_SLOTB, R28. -/
def ENG_SLOTB (e n : Nat) : Nat := 0x101008 + 0x4000 * e + 0x10 * n
def ENG_SLOTB_BUDGET : Fld := ⟨0, 24, .ro, 0⟩
def ENG_SLOTB_TENANT : Fld := ⟨32, 13, .ro, 0⟩
def ENG_SLOTB_PARTITION : Fld := ⟨48, 8, .ro, 0⟩
/-- Offset of ENG_SLOT_STAT, R28. -/
def ENG_SLOT_STAT (e : Nat) : Nat := 0x101400 + 0x4000 * e
def ENG_SLOT_STAT_CUR : Fld := ⟨0, 6, .ro, 0⟩
def ENG_SLOT_STAT_PHASE : Fld := ⟨6, 2, .ro, 0⟩
def ENG_SLOT_STAT_REMAIN : Fld := ⟨8, 24, .ro, 0⟩
/-- Offset of ENG_SLOT_OVR, R28. -/
def ENG_SLOT_OVR (e : Nat) : Nat := 0x101408 + 0x4000 * e
def ENG_SLOT_OVR_COUNT : Fld := ⟨0, 32, .ro, 0⟩
/-- Offset of ENG_SLOT_SKIP, R28. -/
def ENG_SLOT_SKIP (e : Nat) : Nat := 0x101410 + 0x4000 * e
def ENG_SLOT_SKIP_COUNT : Fld := ⟨0, 32, .ro, 0⟩
/-- Offset of ENG_SLOT_PREEMPT, R28. -/
def ENG_SLOT_PREEMPT (e : Nat) : Nat := 0x101418 + 0x4000 * e
def ENG_SLOT_PREEMPT_COUNT : Fld := ⟨0, 32, .ro, 0⟩
/-- Offset of ENG_BANK_TENANT, R28. -/
def ENG_BANK_TENANT (e : Nat) : Nat := 0x101420 + 0x4000 * e
def ENG_BANK_TENANT_T0 : Fld := ⟨0, 13, .ro, 0⟩
def ENG_BANK_TENANT_T1 : Fld := ⟨16, 13, .ro, 0⟩
def ENG_BANK_TENANT_T2 : Fld := ⟨32, 13, .ro, 0⟩
def ENG_BANK_TENANT_T3 : Fld := ⟨48, 13, .ro, 0⟩
/-- Offset of ENG_BANK_TENANT2, R28. -/
def ENG_BANK_TENANT2 (e : Nat) : Nat := 0x101428 + 0x4000 * e
def ENG_BANK_TENANT2_T4 : Fld := ⟨0, 13, .ro, 0⟩
def ENG_BANK_TENANT2_T5 : Fld := ⟨16, 13, .ro, 0⟩

def regs01 : List RegDef :=
  [⟨ENG_SLOTA 0 0, 0x4000, 208, 0x10, 64, [ENG_SLOTA_ANGLE, ENG_SLOTA_BANK, ENG_SLOTA_MODE, ENG_SLOTA_XNOTE]⟩,
   ⟨ENG_SLOTB 0 0, 0x4000, 208, 0x10, 64, [ENG_SLOTB_BUDGET, ENG_SLOTB_TENANT, ENG_SLOTB_PARTITION]⟩,
   ⟨ENG_SLOT_STAT 0, 0x4000, 208, 0x0, 1, [ENG_SLOT_STAT_CUR, ENG_SLOT_STAT_PHASE, ENG_SLOT_STAT_REMAIN]⟩,
   ⟨ENG_SLOT_OVR 0, 0x4000, 208, 0x0, 1, [ENG_SLOT_OVR_COUNT]⟩,
   ⟨ENG_SLOT_SKIP 0, 0x4000, 208, 0x0, 1, [ENG_SLOT_SKIP_COUNT]⟩,
   ⟨ENG_SLOT_PREEMPT 0, 0x4000, 208, 0x0, 1, [ENG_SLOT_PREEMPT_COUNT]⟩,
   ⟨ENG_BANK_TENANT 0, 0x4000, 208, 0x0, 1, [ENG_BANK_TENANT_T0, ENG_BANK_TENANT_T1, ENG_BANK_TENANT_T2, ENG_BANK_TENANT_T3]⟩,
   ⟨ENG_BANK_TENANT2 0, 0x4000, 208, 0x0, 1, [ENG_BANK_TENANT2_T4, ENG_BANK_TENANT2_T5]⟩]

/-! Registers of spec/02_gavotte_mains_angle_timebase.md. -/
/-- Offset of GAV_CTRL, R79. -/
def GAV_CTRL : Nat := 0x500000
def GAV_CTRL_FORCE_HOLD : Fld := ⟨0, 1, .rw, 0⟩
def GAV_CTRL_REVERT : Fld := ⟨1, 1, .ro, 0⟩
def GAV_CTRL_ROT : Fld := ⟨2, 1, .ro, 0⟩
/-- Offset of GAV_STAT, R79. -/
def GAV_STAT : Nat := 0x500008
def GAV_STAT_STATE : Fld := ⟨0, 2, .ro, 2⟩
def GAV_STAT_ACQ : Fld := ⟨2, 1, .ro, 0⟩
def GAV_STAT_REF : Fld := ⟨3, 2, .ro, 0⟩
def GAV_STAT_QUAL : Fld := ⟨5, 3, .ro, 0⟩
def GAV_STAT_PHASES : Fld := ⟨8, 3, .ro, 0⟩
def GAV_STAT_TAI_LOCK : Fld := ⟨11, 1, .ro, 0⟩
def GAV_STAT_HOLD_MIN : Fld := ⟨16, 16, .ro, 0⟩
/-- Offset of GAV_REFSEL, R79. -/
def GAV_REFSEL : Nat := 0x500010
def GAV_REFSEL_PRI0 : Fld := ⟨0, 2, .ro, 0⟩
def GAV_REFSEL_PRI1 : Fld := ⟨2, 2, .ro, 0⟩
def GAV_REFSEL_PRI2 : Fld := ⟨4, 2, .ro, 0⟩
def GAV_REFSEL_SV_PORT : Fld := ⟨8, 3, .ro, 0⟩
def GAV_REFSEL_SV_APPID : Fld := ⟨16, 16, .ro, 0⟩
def GAV_REFSEL_SV_CHAN : Fld := ⟨32, 8, .ro, 0⟩
/-- Offset of GAV_TRACK, R79. -/
def GAV_TRACK : Nat := 0x500018
def GAV_TRACK_FMIN : Fld := ⟨0, 13, .ro, 4000⟩
def GAV_TRACK_FMAX : Fld := ⟨16, 13, .ro, 7000⟩
def GAV_TRACK_BW : Fld := ⟨32, 3, .ro, 3⟩
def GAV_TRACK_HOLD_LIMIT : Fld := ⟨36, 12, .ro, 60⟩
/-- Offset of GAV_FNOM, R79. -/
def GAV_FNOM : Nat := 0x500020
def GAV_FNOM_FNOM : Fld := ⟨0, 13, .ro, 5000⟩
/-- Offset of GAV_OFFSET, R79. -/
def GAV_OFFSET : Nat := 0x500028
def GAV_OFFSET_OFFSET : Fld := ⟨0, 32, .ro, 0⟩
/-- Offset of GAV_NOW, R79. -/
def GAV_NOW : Nat := 0x500030
def GAV_NOW_TIME : Fld := ⟨0, 64, .ro, 0⟩
/-- Offset of GAV_FREQ, R79. -/
def GAV_FREQ : Nat := 0x500038
def GAV_FREQ_FREQ : Fld := ⟨0, 32, .ro, 50000000⟩
/-- Offset of GAV_PHERR, R79. -/
def GAV_PHERR : Nat := 0x500040
def GAV_PHERR_ERR : Fld := ⟨0, 32, .ro, 0⟩
def GAV_PHERR_VALID : Fld := ⟨32, 1, .ro, 0⟩
/-- Offset of GAV_TRIG_SPLIT, R79. -/
def GAV_TRIG_SPLIT : Nat := 0x500048
def GAV_TRIG_SPLIT_SPLIT : Fld := ⟨0, 14, .ro, 0⟩
/-- Offset of GAV_CYCSET_AT, R79. -/
def GAV_CYCSET_AT : Nat := 0x500050
def GAV_CYCSET_AT_AT : Fld := ⟨0, 64, .rw, 0⟩
/-- Offset of GAV_CYCSET_VAL, R79. -/
def GAV_CYCSET_VAL : Nat := 0x500058
def GAV_CYCSET_VAL_VAL : Fld := ⟨0, 32, .rw, 0⟩
def GAV_CYCSET_VAL_ARM : Fld := ⟨32, 1, .rw, 0⟩
/-- Offset of GAV_TAI, R79. -/
def GAV_TAI : Nat := 0x500060
def GAV_TAI_TAI : Fld := ⟨0, 64, .ro, 0⟩
/-- Offset of GAV_TAI_CTRL, R79. -/
def GAV_TAI_CTRL : Nat := 0x500068
def GAV_TAI_CTRL_SRC : Fld := ⟨0, 2, .rw, 0⟩
def GAV_TAI_CTRL_PORT : Fld := ⟨2, 3, .rw, 0⟩
def GAV_TAI_CTRL_TEN_MHZ : Fld := ⟨5, 1, .rw, 0⟩
def GAV_TAI_CTRL_PPS_WIDTH : Fld := ⟨12, 20, .rw, 100000⟩
def GAV_TAI_CTRL_PPS_EN : Fld := ⟨32, 1, .rw, 0⟩
/-- Offset of GAV_TAI_SET, R79. -/
def GAV_TAI_SET : Nat := 0x500070
def GAV_TAI_SET_SET : Fld := ⟨0, 64, .wo, 0⟩
/-- Offset of GAV_ERR, R79. -/
def GAV_ERR : Nat := 0x500078
def GAV_ERR_LATE : Fld := ⟨0, 1, .w1c, 0⟩
def GAV_ERR_COMMIT_REFUSED : Fld := ⟨1, 1, .w1c, 0⟩
def GAV_ERR_EDGE_OVF : Fld := ⟨2, 1, .w1c, 0⟩
def GAV_ERR_MATCH_DELAY : Fld := ⟨3, 1, .w1c, 0⟩
def GAV_ERR_REF_SWITCH : Fld := ⟨4, 1, .w1c, 0⟩
def GAV_ERR_VOTE : Fld := ⟨5, 1, .w1c, 0⟩
def GAV_ERR_DISP_OFF : Fld := ⟨6, 1, .w1c, 0⟩
def GAV_ERR_TAI_STEP : Fld := ⟨7, 1, .w1c, 0⟩
/-- Offset of GAV_MATCH_DELAY, R79. -/
def GAV_MATCH_DELAY : Nat := 0x500080
def GAV_MATCH_DELAY_COUNT : Fld := ⟨0, 32, .ro, 0⟩
/-- Offset of GAV_TRIGA, R79. -/
def GAV_TRIGA (n : Nat) : Nat := 0x510000 + 0x10 * n
def GAV_TRIGA_ANGLE : Fld := ⟨0, 32, .rw, 0⟩
def GAV_TRIGA_PERIOD : Fld := ⟨32, 16, .rw, 0⟩
def GAV_TRIGA_PHASE : Fld := ⟨48, 16, .rw, 0⟩
/-- Offset of GAV_TRIGB, R79. -/
def GAV_TRIGB (n : Nat) : Nat := 0x510008 + 0x10 * n
def GAV_TRIGB_ACTION : Fld := ⟨0, 3, .rw, 0⟩
def GAV_TRIGB_ABS : Fld := ⟨3, 1, .rw, 0⟩
def GAV_TRIGB_PROMPT : Fld := ⟨4, 1, .rw, 0⟩
def GAV_TRIGB_LOCKREQ : Fld := ⟨5, 1, .rw, 0⟩
def GAV_TRIGB_TARGET : Fld := ⟨8, 14, .rw, 0⟩
def GAV_TRIGB_AT_CYCLE : Fld := ⟨32, 32, .rw, 0⟩
/-- Offset of GAV_TMR_CTRL, R79. -/
def GAV_TMR_CTRL (t : Nat) : Nat := 0x540000 + 0x20 * t
def GAV_TMR_CTRL_UNIT : Fld := ⟨0, 2, .rw, 0⟩
def GAV_TMR_CTRL_PERIODIC : Fld := ⟨2, 1, .rw, 0⟩
def GAV_TMR_CTRL_RUN : Fld := ⟨3, 1, .rw, 0⟩
def GAV_TMR_CTRL_IRQ : Fld := ⟨4, 1, .rw, 0⟩
def GAV_TMR_CTRL_EVT : Fld := ⟨5, 1, .rw, 0⟩
def GAV_TMR_CTRL_CHAN : Fld := ⟨6, 7, .rw, 0⟩
/-- Offset of GAV_TMR_LOAD, R79. -/
def GAV_TMR_LOAD (t : Nat) : Nat := 0x540008 + 0x20 * t
def GAV_TMR_LOAD_LOAD : Fld := ⟨0, 32, .rw, 0⟩
/-- Offset of GAV_TMR_CNT, R79. -/
def GAV_TMR_CNT (t : Nat) : Nat := 0x540010 + 0x20 * t
def GAV_TMR_CNT_COUNT : Fld := ⟨0, 32, .ro, 0⟩
/-- Offset of GAV_EDGE_CTRL, R79. -/
def GAV_EDGE_CTRL (e : Nat) : Nat := 0x550000 + 0x40 * e
def GAV_EDGE_CTRL_SRC : Fld := ⟨0, 6, .rw, 0⟩
def GAV_EDGE_CTRL_POL : Fld := ⟨6, 2, .rw, 0⟩
def GAV_EDGE_CTRL_FILT : Fld := ⟨8, 4, .rw, 0⟩
def GAV_EDGE_CTRL_IRQ : Fld := ⟨12, 1, .rw, 0⟩
def GAV_EDGE_CTRL_EVT : Fld := ⟨13, 1, .rw, 0⟩
def GAV_EDGE_CTRL_CHAN : Fld := ⟨14, 7, .rw, 0⟩
/-- Offset of GAV_EDGE_TIME, R79. -/
def GAV_EDGE_TIME (e : Nat) : Nat := 0x550008 + 0x40 * e
def GAV_EDGE_TIME_TIME : Fld := ⟨0, 64, .ro, 0⟩
/-- Offset of GAV_EDGE_TAI, R79. -/
def GAV_EDGE_TAI (e : Nat) : Nat := 0x550010 + 0x40 * e
def GAV_EDGE_TAI_TAI : Fld := ⟨0, 64, .ro, 0⟩
/-- Offset of GAV_EDGE_STAT, R79. -/
def GAV_EDGE_STAT (e : Nat) : Nat := 0x550018 + 0x40 * e
def GAV_EDGE_STAT_COUNT : Fld := ⟨0, 3, .ro, 0⟩
def GAV_EDGE_STAT_LEVEL : Fld := ⟨3, 1, .ro, 0⟩
def GAV_EDGE_STAT_OVF : Fld := ⟨8, 1, .w1c, 0⟩
def GAV_EDGE_STAT_EDGES : Fld := ⟨32, 32, .ro, 0⟩
/-- Offset of GAV_EDGE_POP, R79. -/
def GAV_EDGE_POP (e : Nat) : Nat := 0x550020 + 0x40 * e
def GAV_EDGE_POP_POP : Fld := ⟨0, 1, .wo, 0⟩

def regs02 : List RegDef :=
  [⟨GAV_CTRL, 0x0, 1, 0x0, 1, [GAV_CTRL_FORCE_HOLD, GAV_CTRL_REVERT, GAV_CTRL_ROT]⟩,
   ⟨GAV_STAT, 0x0, 1, 0x0, 1, [GAV_STAT_STATE, GAV_STAT_ACQ, GAV_STAT_REF, GAV_STAT_QUAL, GAV_STAT_PHASES, GAV_STAT_TAI_LOCK, GAV_STAT_HOLD_MIN]⟩,
   ⟨GAV_REFSEL, 0x0, 1, 0x0, 1, [GAV_REFSEL_PRI0, GAV_REFSEL_PRI1, GAV_REFSEL_PRI2, GAV_REFSEL_SV_PORT, GAV_REFSEL_SV_APPID, GAV_REFSEL_SV_CHAN]⟩,
   ⟨GAV_TRACK, 0x0, 1, 0x0, 1, [GAV_TRACK_FMIN, GAV_TRACK_FMAX, GAV_TRACK_BW, GAV_TRACK_HOLD_LIMIT]⟩,
   ⟨GAV_FNOM, 0x0, 1, 0x0, 1, [GAV_FNOM_FNOM]⟩,
   ⟨GAV_OFFSET, 0x0, 1, 0x0, 1, [GAV_OFFSET_OFFSET]⟩,
   ⟨GAV_NOW, 0x0, 1, 0x0, 1, [GAV_NOW_TIME]⟩,
   ⟨GAV_FREQ, 0x0, 1, 0x0, 1, [GAV_FREQ_FREQ]⟩,
   ⟨GAV_PHERR, 0x0, 1, 0x0, 1, [GAV_PHERR_ERR, GAV_PHERR_VALID]⟩,
   ⟨GAV_TRIG_SPLIT, 0x0, 1, 0x0, 1, [GAV_TRIG_SPLIT_SPLIT]⟩,
   ⟨GAV_CYCSET_AT, 0x0, 1, 0x0, 1, [GAV_CYCSET_AT_AT]⟩,
   ⟨GAV_CYCSET_VAL, 0x0, 1, 0x0, 1, [GAV_CYCSET_VAL_VAL, GAV_CYCSET_VAL_ARM]⟩,
   ⟨GAV_TAI, 0x0, 1, 0x0, 1, [GAV_TAI_TAI]⟩,
   ⟨GAV_TAI_CTRL, 0x0, 1, 0x0, 1, [GAV_TAI_CTRL_SRC, GAV_TAI_CTRL_PORT, GAV_TAI_CTRL_TEN_MHZ, GAV_TAI_CTRL_PPS_WIDTH, GAV_TAI_CTRL_PPS_EN]⟩,
   ⟨GAV_TAI_SET, 0x0, 1, 0x0, 1, [GAV_TAI_SET_SET]⟩,
   ⟨GAV_ERR, 0x0, 1, 0x0, 1, [GAV_ERR_LATE, GAV_ERR_COMMIT_REFUSED, GAV_ERR_EDGE_OVF, GAV_ERR_MATCH_DELAY, GAV_ERR_REF_SWITCH, GAV_ERR_VOTE, GAV_ERR_DISP_OFF, GAV_ERR_TAI_STEP]⟩,
   ⟨GAV_MATCH_DELAY, 0x0, 1, 0x0, 1, [GAV_MATCH_DELAY_COUNT]⟩,
   ⟨GAV_TRIGA 0, 0x10, 8192, 0x0, 1, [GAV_TRIGA_ANGLE, GAV_TRIGA_PERIOD, GAV_TRIGA_PHASE]⟩,
   ⟨GAV_TRIGB 0, 0x10, 8192, 0x0, 1, [GAV_TRIGB_ACTION, GAV_TRIGB_ABS, GAV_TRIGB_PROMPT, GAV_TRIGB_LOCKREQ, GAV_TRIGB_TARGET, GAV_TRIGB_AT_CYCLE]⟩,
   ⟨GAV_TMR_CTRL 0, 0x20, 64, 0x0, 1, [GAV_TMR_CTRL_UNIT, GAV_TMR_CTRL_PERIODIC, GAV_TMR_CTRL_RUN, GAV_TMR_CTRL_IRQ, GAV_TMR_CTRL_EVT, GAV_TMR_CTRL_CHAN]⟩,
   ⟨GAV_TMR_LOAD 0, 0x20, 64, 0x0, 1, [GAV_TMR_LOAD_LOAD]⟩,
   ⟨GAV_TMR_CNT 0, 0x20, 64, 0x0, 1, [GAV_TMR_CNT_COUNT]⟩,
   ⟨GAV_EDGE_CTRL 0, 0x40, 32, 0x0, 1, [GAV_EDGE_CTRL_SRC, GAV_EDGE_CTRL_POL, GAV_EDGE_CTRL_FILT, GAV_EDGE_CTRL_IRQ, GAV_EDGE_CTRL_EVT, GAV_EDGE_CTRL_CHAN]⟩,
   ⟨GAV_EDGE_TIME 0, 0x40, 32, 0x0, 1, [GAV_EDGE_TIME_TIME]⟩,
   ⟨GAV_EDGE_TAI 0, 0x40, 32, 0x0, 1, [GAV_EDGE_TAI_TAI]⟩,
   ⟨GAV_EDGE_STAT 0, 0x40, 32, 0x0, 1, [GAV_EDGE_STAT_COUNT, GAV_EDGE_STAT_LEVEL, GAV_EDGE_STAT_OVF, GAV_EDGE_STAT_EDGES]⟩,
   ⟨GAV_EDGE_POP 0, 0x40, 32, 0x0, 1, [GAV_EDGE_POP_POP]⟩]

/-! Registers of spec/03_long_vector_streams.md. -/
/-- Offset of ENG_VSU_STAT, R130. -/
def ENG_VSU_STAT (e : Nat) : Nat := 0x102000 + 0x4000 * e
def ENG_VSU_STAT_BANK : Fld := ⟨0, 3, .ro, 0⟩
def ENG_VSU_STAT_ACTIVE : Fld := ⟨3, 1, .ro, 0⟩
def ENG_VSU_STAT_FROZEN : Fld := ⟨4, 1, .ro, 0⟩
def ENG_VSU_STAT_QCOUNT : Fld := ⟨5, 3, .ro, 0⟩
def ENG_VSU_STAT_MCOUNT : Fld := ⟨8, 2, .ro, 0⟩
/-- Offset of ENG_VSU_BLOCKS, R130. -/
def ENG_VSU_BLOCKS (e : Nat) : Nat := 0x102008 + 0x4000 * e
def ENG_VSU_BLOCKS_COUNT : Fld := ⟨0, 64, .ro, 0⟩
/-- Offset of ENG_VSU_REWIND, R130. -/
def ENG_VSU_REWIND (e : Nat) : Nat := 0x102010 + 0x4000 * e
def ENG_VSU_REWIND_COUNT : Fld := ⟨0, 32, .ro, 0⟩
/-- Offset of ENG_VSU_TAGFLT, R130. -/
def ENG_VSU_TAGFLT (e : Nat) : Nat := 0x102018 + 0x4000 * e
def ENG_VSU_TAGFLT_COUNT : Fld := ⟨0, 32, .ro, 0⟩
/-- Offset of ENG_VSU_HAZSTALL, R130. -/
def ENG_VSU_HAZSTALL (e : Nat) : Nat := 0x102020 + 0x4000 * e
def ENG_VSU_HAZSTALL_COUNT : Fld := ⟨0, 32, .ro, 0⟩
/-- Offset of ENG_VSU_DEFER, R130. -/
def ENG_VSU_DEFER (e : Nat) : Nat := 0x102028 + 0x4000 * e
def ENG_VSU_DEFER_COUNT : Fld := ⟨0, 32, .ro, 0⟩
/-- Offset of ENG_VSU_OUTST, R130. -/
def ENG_VSU_OUTST (e : Nat) : Nat := 0x102030 + 0x4000 * e
def ENG_VSU_OUTST_READS : Fld := ⟨0, 9, .ro, 0⟩
def ENG_VSU_OUTST_WRITES : Fld := ⟨16, 8, .ro, 0⟩
/-- Offset of ENG_VSU_CNTCLR, R130. -/
def ENG_VSU_CNTCLR (e : Nat) : Nat := 0x102038 + 0x4000 * e
def ENG_VSU_CNTCLR_CLR : Fld := ⟨0, 1, .wo, 0⟩

def regs03 : List RegDef :=
  [⟨ENG_VSU_STAT 0, 0x4000, 208, 0x0, 1, [ENG_VSU_STAT_BANK, ENG_VSU_STAT_ACTIVE, ENG_VSU_STAT_FROZEN, ENG_VSU_STAT_QCOUNT, ENG_VSU_STAT_MCOUNT]⟩,
   ⟨ENG_VSU_BLOCKS 0, 0x4000, 208, 0x0, 1, [ENG_VSU_BLOCKS_COUNT]⟩,
   ⟨ENG_VSU_REWIND 0, 0x4000, 208, 0x0, 1, [ENG_VSU_REWIND_COUNT]⟩,
   ⟨ENG_VSU_TAGFLT 0, 0x4000, 208, 0x0, 1, [ENG_VSU_TAGFLT_COUNT]⟩,
   ⟨ENG_VSU_HAZSTALL 0, 0x4000, 208, 0x0, 1, [ENG_VSU_HAZSTALL_COUNT]⟩,
   ⟨ENG_VSU_DEFER 0, 0x4000, 208, 0x0, 1, [ENG_VSU_DEFER_COUNT]⟩,
   ⟨ENG_VSU_OUTST 0, 0x4000, 208, 0x0, 1, [ENG_VSU_OUTST_READS, ENG_VSU_OUTST_WRITES]⟩,
   ⟨ENG_VSU_CNTCLR 0, 0x4000, 208, 0x0, 1, [ENG_VSU_CNTCLR_CLR]⟩]

/-! Registers of spec/05_conga_chains.md. -/
/-- Offset of ENG_CHN_CFG, R199. -/
def ENG_CHN_CFG (e : Nat) : Nat := 0x103000 + 0x4000 * e
def ENG_CHN_CFG_CIN : Fld := ⟨0, 1, .ro, 0⟩
def ENG_CHN_CFG_COUT : Fld := ⟨1, 1, .ro, 0⟩
def ENG_CHN_CFG_POS : Fld := ⟨2, 4, .ro, 0⟩
def ENG_CHN_CFG_MEMBERS : Fld := ⟨6, 4, .ro, 0⟩
def ENG_CHN_CFG_TENANT : Fld := ⟨16, 13, .ro, 0⟩
/-- Offset of ENG_CHN_STAT, R199. -/
def ENG_CHN_STAT (e : Nat) : Nat := 0x103008 + 0x4000 * e
def ENG_CHN_STAT_STATE : Fld := ⟨0, 2, .ro, 0⟩
def ENG_CHN_STAT_CREDIT : Fld := ⟨2, 7, .ro, 0⟩
def ENG_CHN_STAT_CINQ : Fld := ⟨9, 7, .ro, 0⟩
def ENG_CHN_STAT_HELD : Fld := ⟨16, 9, .ro, 0⟩
def ENG_CHN_STAT_UNDEC : Fld := ⟨32, 16, .ro, 0⟩
/-- Offset of ENG_CHN_WAITIN, R199. -/
def ENG_CHN_WAITIN (e : Nat) : Nat := 0x103010 + 0x4000 * e
def ENG_CHN_WAITIN_COUNT : Fld := ⟨0, 32, .ro, 0⟩
/-- Offset of ENG_CHN_WAITOUT, R199. -/
def ENG_CHN_WAITOUT (e : Nat) : Nat := 0x103018 + 0x4000 * e
def ENG_CHN_WAITOUT_COUNT : Fld := ⟨0, 32, .ro, 0⟩
/-- Offset of ENG_CHN_FREEZE, R199. -/
def ENG_CHN_FREEZE (e : Nat) : Nat := 0x103020 + 0x4000 * e
def ENG_CHN_FREEZE_COUNT : Fld := ⟨0, 32, .ro, 0⟩
/-- Offset of ENG_CHN_LINKERR, R199. -/
def ENG_CHN_LINKERR (e : Nat) : Nat := 0x103028 + 0x4000 * e
def ENG_CHN_LINKERR_COUNT : Fld := ⟨0, 32, .ro, 0⟩
/-- Offset of ENG_CHN_CNTCLR, R199. -/
def ENG_CHN_CNTCLR (e : Nat) : Nat := 0x103030 + 0x4000 * e
def ENG_CHN_CNTCLR_CLR : Fld := ⟨0, 1, .wo, 0⟩

def regs05 : List RegDef :=
  [⟨ENG_CHN_CFG 0, 0x4000, 208, 0x0, 1, [ENG_CHN_CFG_CIN, ENG_CHN_CFG_COUT, ENG_CHN_CFG_POS, ENG_CHN_CFG_MEMBERS, ENG_CHN_CFG_TENANT]⟩,
   ⟨ENG_CHN_STAT 0, 0x4000, 208, 0x0, 1, [ENG_CHN_STAT_STATE, ENG_CHN_STAT_CREDIT, ENG_CHN_STAT_CINQ, ENG_CHN_STAT_HELD, ENG_CHN_STAT_UNDEC]⟩,
   ⟨ENG_CHN_WAITIN 0, 0x4000, 208, 0x0, 1, [ENG_CHN_WAITIN_COUNT]⟩,
   ⟨ENG_CHN_WAITOUT 0, 0x4000, 208, 0x0, 1, [ENG_CHN_WAITOUT_COUNT]⟩,
   ⟨ENG_CHN_FREEZE 0, 0x4000, 208, 0x0, 1, [ENG_CHN_FREEZE_COUNT]⟩,
   ⟨ENG_CHN_LINKERR 0, 0x4000, 208, 0x0, 1, [ENG_CHN_LINKERR_COUNT]⟩,
   ⟨ENG_CHN_CNTCLR 0, 0x4000, 208, 0x0, 1, [ENG_CHN_CNTCLR_CLR]⟩]

/-! Registers of spec/06_stacked_memory_and_local_vector_stores.md. -/
/-- Offset of SLC_ID, R232. -/
def SLC_ID (s : Nat) : Nat := 0x800000 + 0x10000 * s
def SLC_ID_SLICE : Fld := ⟨0, 5, .ro, 0⟩
def SLC_ID_STACK : Fld := ⟨5, 3, .ro, 0⟩
/-- Offset of SLC_STAT, R232. -/
def SLC_STAT (s : Nat) : Nat := 0x800008 + 0x10000 * s
def SLC_STAT_RETIRED : Fld := ⟨0, 8, .ro, 0⟩
def SLC_STAT_MIG_PC : Fld := ⟨16, 3, .ro, 0⟩
def SLC_STAT_MIG_ACTIVE : Fld := ⟨19, 1, .ro, 0⟩
def SLC_STAT_MIG_DIR : Fld := ⟨20, 1, .ro, 0⟩
def SLC_STAT_SANIT_BUSY : Fld := ⟨21, 1, .ro, 0⟩
def SLC_STAT_INIT_DONE : Fld := ⟨22, 1, .ro, 0⟩
/-- Offset of SLC_ERR, R232. -/
def SLC_ERR (s : Nat) : Nat := 0x800010 + 0x10000 * s
def SLC_ERR_UE : Fld := ⟨0, 1, .w1c, 0⟩
def SLC_ERR_INTEG : Fld := ⟨1, 1, .w1c, 0⟩
def SLC_ERR_PWPOISON : Fld := ⟨2, 1, .w1c, 0⟩
def SLC_ERR_RETIRE : Fld := ⟨3, 1, .w1c, 0⟩
def SLC_ERR_RETIRE_REFUSED : Fld := ⟨4, 1, .w1c, 0⟩
def SLC_ERR_MIG_DONE : Fld := ⟨5, 1, .w1c, 0⟩
def SLC_ERR_REMAP_ECC : Fld := ⟨6, 1, .w1c, 0⟩
def SLC_ERR_SANIT_DONE : Fld := ⟨7, 1, .w1c, 0⟩
/-- Offset of SLC_ERRLOG, R232. -/
def SLC_ERRLOG (s : Nat) : Nat := 0x800018 + 0x10000 * s
def SLC_ERRLOG_KIND : Fld := ⟨0, 3, .ro, 0⟩
def SLC_ERRLOG_LINE : Fld := ⟨6, 42, .ro, 0⟩
def SLC_ERRLOG_TENANT : Fld := ⟨48, 13, .ro, 0⟩
/-- Offset of SLC_CE, R232. -/
def SLC_CE (s : Nat) : Nat := 0x800020 + 0x10000 * s
def SLC_CE_COUNT : Fld := ⟨0, 32, .ro, 0⟩
/-- Offset of SLC_UE, R232. -/
def SLC_UE (s : Nat) : Nat := 0x800028 + 0x10000 * s
def SLC_UE_COUNT : Fld := ⟨0, 32, .ro, 0⟩
/-- Offset of SLC_INTEG, R232. -/
def SLC_INTEG (s : Nat) : Nat := 0x800030 + 0x10000 * s
def SLC_INTEG_COUNT : Fld := ⟨0, 32, .ro, 0⟩
/-- Offset of SLC_PWPOISON, R232. -/
def SLC_PWPOISON (s : Nat) : Nat := 0x800038 + 0x10000 * s
def SLC_PWPOISON_COUNT : Fld := ⟨0, 32, .ro, 0⟩
/-- Offset of SLC_SCRUB, R232. -/
def SLC_SCRUB (s : Nat) : Nat := 0x800040 + 0x10000 * s
def SLC_SCRUB_PASSES : Fld := ⟨0, 32, .ro, 0⟩
/-- Offset of SLC_MIGPOS, R232. -/
def SLC_MIGPOS (s : Nat) : Nat := 0x800048 + 0x10000 * s
def SLC_MIGPOS_LINE : Fld := ⟨0, 24, .ro, 0⟩
/-- Offset of SLC_PCCMD, R232. -/
def SLC_PCCMD (s : Nat) : Nat := 0x800050 + 0x10000 * s
def SLC_PCCMD_PC : Fld := ⟨0, 3, .wo, 0⟩
def SLC_PCCMD_OP : Fld := ⟨4, 2, .wo, 0⟩
/-- Offset of SLC_RETPOL, R232. -/
def SLC_RETPOL (s : Nat) : Nat := 0x800058 + 0x10000 * s
def SLC_RETPOL_UE_LIMIT : Fld := ⟨0, 16, .rw, 16⟩
def SLC_RETPOL_CE_LIMIT : Fld := ⟨16, 16, .rw, 4096⟩
/-- Offset of SLC_SANIT, R232. -/
def SLC_SANIT (s : Nat) : Nat := 0x800060 + 0x10000 * s
def SLC_SANIT_REGION : Fld := ⟨0, 8, .rw, 0⟩
def SLC_SANIT_GO : Fld := ⟨8, 1, .wo, 0⟩
/-- Offset of SLC_CNTCLR, R232. -/
def SLC_CNTCLR (s : Nat) : Nat := 0x800068 + 0x10000 * s
def SLC_CNTCLR_CLR : Fld := ⟨0, 1, .wo, 0⟩
/-- Offset of SLC_PC, R232. -/
def SLC_PC (s n : Nat) : Nat := 0x800100 + 0x10000 * s + 0x10 * n
def SLC_PC_STATE : Fld := ⟨0, 3, .ro, 0⟩
def SLC_PC_RES : Fld := ⟨8, 8, .ro, 0⟩
def SLC_PC_REMAP : Fld := ⟨16, 1, .ro, 0⟩
def SLC_PC_CE : Fld := ⟨32, 32, .ro, 0⟩
/-- Offset of SLC_PCUE, R232. -/
def SLC_PCUE (s n : Nat) : Nat := 0x800108 + 0x10000 * s + 0x10 * n
def SLC_PCUE_UE : Fld := ⟨0, 32, .ro, 0⟩
/-- Offset of LVS_CONFLICT, R244. -/
def LVS_CONFLICT (e k : Nat) : Nat := 0x103800 + 0x4000 * e + 0x8 * k
def LVS_CONFLICT_COUNT : Fld := ⟨0, 32, .ro, 0⟩
/-- Offset of LVS_BUSY, R244. -/
def LVS_BUSY (e : Nat) : Nat := 0x103828 + 0x4000 * e
def LVS_BUSY_ENG : Fld := ⟨0, 32, .ro, 0⟩
def LVS_BUSY_CLU : Fld := ⟨32, 32, .ro, 0⟩
/-- Offset of LVS_CE, R244. -/
def LVS_CE (e : Nat) : Nat := 0x103830 + 0x4000 * e
def LVS_CE_COUNT : Fld := ⟨0, 32, .ro, 0⟩
/-- Offset of LVS_UE, R244. -/
def LVS_UE (e : Nat) : Nat := 0x103838 + 0x4000 * e
def LVS_UE_COUNT : Fld := ⟨0, 32, .ro, 0⟩
/-- Offset of LVS_UELAST, R244. -/
def LVS_UELAST (e : Nat) : Nat := 0x103840 + 0x4000 * e
def LVS_UELAST_WORD : Fld := ⟨3, 17, .ro, 0⟩
def LVS_UELAST_AREA : Fld := ⟨20, 2, .ro, 0⟩
/-- Offset of LVS_CNTCLR, R244. -/
def LVS_CNTCLR (e : Nat) : Nat := 0x103848 + 0x4000 * e
def LVS_CNTCLR_CLR : Fld := ⟨0, 1, .wo, 0⟩
/-- Offset of FOX_CTRL, R244. -/
def FOX_CTRL (e : Nat) : Nat := 0x103900 + 0x4000 * e
def FOX_CTRL_EN : Fld := ⟨0, 1, .rw, 1⟩
def FOX_CTRL_PACE : Fld := ⟨16, 16, .rw, 2400⟩
/-- Offset of FOX_STAT, R244. -/
def FOX_STAT (e : Nat) : Nat := 0x103908 + 0x4000 * e
def FOX_STAT_REGION : Fld := ⟨0, 13, .ro, 0⟩
def FOX_STAT_PHASE : Fld := ⟨13, 3, .ro, 0⟩
def FOX_STAT_SPARES : Fld := ⟨16, 5, .ro, 0⟩
def FOX_STAT_EXHAUSTED : Fld := ⟨21, 1, .ro, 0⟩
def FOX_STAT_PASSES : Fld := ⟨32, 32, .ro, 0⟩
/-- Offset of FOX_FAILS, R244. -/
def FOX_FAILS (e : Nat) : Nat := 0x103910 + 0x4000 * e
def FOX_FAILS_COUNT : Fld := ⟨0, 32, .ro, 0⟩
/-- Offset of FOX_MAP, R244. -/
def FOX_MAP (e k : Nat) : Nat := 0x103980 + 0x4000 * e + 0x8 * k
def FOX_MAP_VALID : Fld := ⟨0, 1, .ro, 0⟩
def FOX_MAP_REGION : Fld := ⟨1, 13, .ro, 0⟩
def FOX_MAP_BAD : Fld := ⟨14, 1, .ro, 0⟩

def regs06 : List RegDef :=
  [⟨SLC_ID 0, 0x10000, 32, 0x0, 1, [SLC_ID_SLICE, SLC_ID_STACK]⟩,
   ⟨SLC_STAT 0, 0x10000, 32, 0x0, 1, [SLC_STAT_RETIRED, SLC_STAT_MIG_PC, SLC_STAT_MIG_ACTIVE, SLC_STAT_MIG_DIR, SLC_STAT_SANIT_BUSY, SLC_STAT_INIT_DONE]⟩,
   ⟨SLC_ERR 0, 0x10000, 32, 0x0, 1, [SLC_ERR_UE, SLC_ERR_INTEG, SLC_ERR_PWPOISON, SLC_ERR_RETIRE, SLC_ERR_RETIRE_REFUSED, SLC_ERR_MIG_DONE, SLC_ERR_REMAP_ECC, SLC_ERR_SANIT_DONE]⟩,
   ⟨SLC_ERRLOG 0, 0x10000, 32, 0x0, 1, [SLC_ERRLOG_KIND, SLC_ERRLOG_LINE, SLC_ERRLOG_TENANT]⟩,
   ⟨SLC_CE 0, 0x10000, 32, 0x0, 1, [SLC_CE_COUNT]⟩,
   ⟨SLC_UE 0, 0x10000, 32, 0x0, 1, [SLC_UE_COUNT]⟩,
   ⟨SLC_INTEG 0, 0x10000, 32, 0x0, 1, [SLC_INTEG_COUNT]⟩,
   ⟨SLC_PWPOISON 0, 0x10000, 32, 0x0, 1, [SLC_PWPOISON_COUNT]⟩,
   ⟨SLC_SCRUB 0, 0x10000, 32, 0x0, 1, [SLC_SCRUB_PASSES]⟩,
   ⟨SLC_MIGPOS 0, 0x10000, 32, 0x0, 1, [SLC_MIGPOS_LINE]⟩,
   ⟨SLC_PCCMD 0, 0x10000, 32, 0x0, 1, [SLC_PCCMD_PC, SLC_PCCMD_OP]⟩,
   ⟨SLC_RETPOL 0, 0x10000, 32, 0x0, 1, [SLC_RETPOL_UE_LIMIT, SLC_RETPOL_CE_LIMIT]⟩,
   ⟨SLC_SANIT 0, 0x10000, 32, 0x0, 1, [SLC_SANIT_REGION, SLC_SANIT_GO]⟩,
   ⟨SLC_CNTCLR 0, 0x10000, 32, 0x0, 1, [SLC_CNTCLR_CLR]⟩,
   ⟨SLC_PC 0 0, 0x10000, 32, 0x10, 8, [SLC_PC_STATE, SLC_PC_RES, SLC_PC_REMAP, SLC_PC_CE]⟩,
   ⟨SLC_PCUE 0 0, 0x10000, 32, 0x10, 8, [SLC_PCUE_UE]⟩,
   ⟨LVS_CONFLICT 0 0, 0x4000, 208, 0x8, 5, [LVS_CONFLICT_COUNT]⟩,
   ⟨LVS_BUSY 0, 0x4000, 208, 0x0, 1, [LVS_BUSY_ENG, LVS_BUSY_CLU]⟩,
   ⟨LVS_CE 0, 0x4000, 208, 0x0, 1, [LVS_CE_COUNT]⟩,
   ⟨LVS_UE 0, 0x4000, 208, 0x0, 1, [LVS_UE_COUNT]⟩,
   ⟨LVS_UELAST 0, 0x4000, 208, 0x0, 1, [LVS_UELAST_WORD, LVS_UELAST_AREA]⟩,
   ⟨LVS_CNTCLR 0, 0x4000, 208, 0x0, 1, [LVS_CNTCLR_CLR]⟩,
   ⟨FOX_CTRL 0, 0x4000, 208, 0x0, 1, [FOX_CTRL_EN, FOX_CTRL_PACE]⟩,
   ⟨FOX_STAT 0, 0x4000, 208, 0x0, 1, [FOX_STAT_REGION, FOX_STAT_PHASE, FOX_STAT_SPARES, FOX_STAT_EXHAUSTED, FOX_STAT_PASSES]⟩,
   ⟨FOX_FAILS 0, 0x4000, 208, 0x0, 1, [FOX_FAILS_COUNT]⟩,
   ⟨FOX_MAP 0 0, 0x4000, 208, 0x8, 16, [FOX_MAP_VALID, FOX_MAP_REGION, FOX_MAP_BAD]⟩]

/-! Registers of spec/08_control_stores_and_customer_instructions.md. -/
/-- Offset of ENG_UC_STAT, R306. -/
def ENG_UC_STAT (e : Nat) : Nat := 0x100c00 + 0x4000 * e
def ENG_UC_STAT_PATCH_LEVEL : Fld := ⟨0, 16, .ro, 0⟩
def ENG_UC_STAT_PATCHED : Fld := ⟨16, 1, .ro, 0⟩
def ENG_UC_STAT_CUST : Fld := ⟨17, 1, .ro, 0⟩
def ENG_UC_STAT_TRAPS : Fld := ⟨24, 7, .ro, 0⟩
/-- Offset of ENG_UC_CE, R306. -/
def ENG_UC_CE (e : Nat) : Nat := 0x100c08 + 0x4000 * e
def ENG_UC_CE_COUNT : Fld := ⟨0, 32, .ro, 0⟩
/-- Offset of ENG_UC_UE, R306. -/
def ENG_UC_UE (e : Nat) : Nat := 0x100c10 + 0x4000 * e
def ENG_UC_UE_COUNT : Fld := ⟨0, 32, .ro, 0⟩
def ENG_UC_UE_LASTMA : Fld := ⟨32, 15, .ro, 0⟩
/-- Offset of ENG_UC_CVER, R306. -/
def ENG_UC_CVER (e : Nat) : Nat := 0x100c18 + 0x4000 * e
def ENG_UC_CVER_VERSION : Fld := ⟨0, 32, .ro, 0⟩
/-- Offset of ENG_UDEC, R306. -/
def ENG_UDEC (e n : Nat) : Nat := 0x100c40 + 0x4000 * e + 0x8 * n
def ENG_UDEC_VALID : Fld := ⟨0, 1, .ro, 0⟩
def ENG_UDEC_ENTRY : Fld := ⟨1, 12, .ro, 0⟩
def ENG_UDEC_MINLEV : Fld := ⟨13, 2, .ro, 0⟩
def ENG_UDEC_CMIN : Fld := ⟨16, 16, .ro, 0⟩
def ENG_UDEC_CMAX : Fld := ⟨32, 16, .ro, 0⟩

def regs08 : List RegDef :=
  [⟨ENG_UC_STAT 0, 0x4000, 208, 0x0, 1, [ENG_UC_STAT_PATCH_LEVEL, ENG_UC_STAT_PATCHED, ENG_UC_STAT_CUST, ENG_UC_STAT_TRAPS]⟩,
   ⟨ENG_UC_CE 0, 0x4000, 208, 0x0, 1, [ENG_UC_CE_COUNT]⟩,
   ⟨ENG_UC_UE 0, 0x4000, 208, 0x0, 1, [ENG_UC_UE_COUNT, ENG_UC_UE_LASTMA]⟩,
   ⟨ENG_UC_CVER 0, 0x4000, 208, 0x0, 1, [ENG_UC_CVER_VERSION]⟩,
   ⟨ENG_UDEC 0 0, 0x4000, 208, 0x8, 16, [ENG_UDEC_VALID, ENG_UDEC_ENTRY, ENG_UDEC_MINLEV, ENG_UDEC_CMIN, ENG_UDEC_CMAX]⟩]

/-! Registers of spec/09_privilege_exceptions_and_register_banks.md. -/
/-- Offset of ENG_EXC_STAT, R344. -/
def ENG_EXC_STAT (e : Nat) : Nat := 0x100e00 + 0x4000 * e
def ENG_EXC_STAT_BANK : Fld := ⟨0, 3, .ro, 7⟩
def ENG_EXC_STAT_LEVEL : Fld := ⟨3, 2, .ro, 3⟩
def ENG_EXC_STAT_FEH : Fld := ⟨5, 1, .ro, 0⟩
def ENG_EXC_STAT_HELD : Fld := ⟨8, 6, .ro, 0⟩
/-- Offset of ENG_EXC_HELDCNT, R344. -/
def ENG_EXC_HELDCNT (e : Nat) : Nat := 0x100e08 + 0x4000 * e
def ENG_EXC_HELDCNT_COUNT : Fld := ⟨0, 32, .ro, 0⟩
/-- Offset of ENG_EXC_NIOVR, R344. -/
def ENG_EXC_NIOVR (e : Nat) : Nat := 0x100e10 + 0x4000 * e
def ENG_EXC_NIOVR_COUNT : Fld := ⟨0, 32, .ro, 0⟩
/-- Offset of ENG_EXC_FEH, R344. -/
def ENG_EXC_FEH (e : Nat) : Nat := 0x100e18 + 0x4000 * e
def ENG_EXC_FEH_COUNT : Fld := ⟨0, 32, .ro, 0⟩
/-- Offset of ENG_EXC_PROMPTHOLD, R344. -/
def ENG_EXC_PROMPTHOLD (e : Nat) : Nat := 0x100e20 + 0x4000 * e
def ENG_EXC_PROMPTHOLD_COUNT : Fld := ⟨0, 32, .ro, 0⟩
/-- Offset of ENG_EXC_CNTCLR, R344. -/
def ENG_EXC_CNTCLR (e : Nat) : Nat := 0x100e28 + 0x4000 * e
def ENG_EXC_CNTCLR_CLR : Fld := ⟨0, 1, .wo, 0⟩

def regs09 : List RegDef :=
  [⟨ENG_EXC_STAT 0, 0x4000, 208, 0x0, 1, [ENG_EXC_STAT_BANK, ENG_EXC_STAT_LEVEL, ENG_EXC_STAT_FEH, ENG_EXC_STAT_HELD]⟩,
   ⟨ENG_EXC_HELDCNT 0, 0x4000, 208, 0x0, 1, [ENG_EXC_HELDCNT_COUNT]⟩,
   ⟨ENG_EXC_NIOVR 0, 0x4000, 208, 0x0, 1, [ENG_EXC_NIOVR_COUNT]⟩,
   ⟨ENG_EXC_FEH 0, 0x4000, 208, 0x0, 1, [ENG_EXC_FEH_COUNT]⟩,
   ⟨ENG_EXC_PROMPTHOLD 0, 0x4000, 208, 0x0, 1, [ENG_EXC_PROMPTHOLD_COUNT]⟩,
   ⟨ENG_EXC_CNTCLR 0, 0x4000, 208, 0x0, 1, [ENG_EXC_CNTCLR_CLR]⟩]

/-! Registers of spec/10_tango_pairs_and_recovery.md. -/
/-- Offset of ENG_TNG_STAT, R384. -/
def ENG_TNG_STAT (e : Nat) : Nat := 0x100800 + 0x4000 * e
def ENG_TNG_STAT_ROLE : Fld := ⟨0, 3, .ro, 0⟩
def ENG_TNG_STAT_RECOV : Fld := ⟨3, 1, .ro, 0⟩
def ENG_TNG_STAT_WIN : Fld := ⟨4, 2, .ro, 0⟩
def ENG_TNG_STAT_STBUF : Fld := ⟨6, 7, .ro, 0⟩
def ENG_TNG_STAT_RETCNT : Fld := ⟨16, 2, .ro, 0⟩
/-- Offset of ENG_TNG_MISM, R384. -/
def ENG_TNG_MISM (e : Nat) : Nat := 0x100808 + 0x4000 * e
def ENG_TNG_MISM_COUNT : Fld := ⟨0, 32, .ro, 0⟩
def ENG_TNG_MISM_LASTGRP : Fld := ⟨32, 5, .ro, 0⟩
def ENG_TNG_MISM_LASTKIND : Fld := ⟨37, 3, .ro, 0⟩
/-- Offset of ENG_TNG_LASTTAI, R384. -/
def ENG_TNG_LASTTAI (e : Nat) : Nat := 0x100810 + 0x4000 * e
def ENG_TNG_LASTTAI_TAI : Fld := ⟨0, 64, .ro, 0⟩
/-- Offset of ENG_TNG_CKPT, R384. -/
def ENG_TNG_CKPT (e : Nat) : Nat := 0x100818 + 0x4000 * e
def ENG_TNG_CKPT_COUNT : Fld := ⟨0, 64, .ro, 0⟩
/-- Offset of ENG_TNG_SVRETRY, R384. -/
def ENG_TNG_SVRETRY (e : Nat) : Nat := 0x100820 + 0x4000 * e
def ENG_TNG_SVRETRY_COUNT : Fld := ⟨0, 32, .ro, 0⟩
/-- Offset of ENG_TNG_SELFTEST, R384. -/
def ENG_TNG_SELFTEST (e : Nat) : Nat := 0x100828 + 0x4000 * e
def ENG_TNG_SELFTEST_FLAGGED : Fld := ⟨0, 24, .ro, 0⟩
def ENG_TNG_SELFTEST_RESULT : Fld := ⟨24, 2, .ro, 0⟩
/-- Offset of ENG_TNG_CNTCLR, R384. -/
def ENG_TNG_CNTCLR (e : Nat) : Nat := 0x100830 + 0x4000 * e
def ENG_TNG_CNTCLR_CLR : Fld := ⟨0, 1, .wo, 0⟩
/-- Offset of CLU_RED, R385. -/
def CLU_RED (c : Nat) : Nat := 0x440000 + 0x1000 * c
def CLU_RED_MODE : Fld := ⟨0, 2, .ro, 0⟩
def CLU_RED_LOST : Fld := ⟨2, 4, .ro, 0⟩
def CLU_RED_SPAREPOS : Fld := ⟨8, 4, .ro, 12⟩
def CLU_RED_LOSTMASK : Fld := ⟨16, 12, .ro, 0⟩
/-- Offset of CLU_SPMAP, R385. -/
def CLU_SPMAP (c : Nat) : Nat := 0x440008 + 0x1000 * c
def CLU_SPMAP_POS0 : Fld := ⟨0, 4, .ro, 0⟩
def CLU_SPMAP_POS1 : Fld := ⟨4, 4, .ro, 1⟩
def CLU_SPMAP_POS2 : Fld := ⟨8, 4, .ro, 2⟩
def CLU_SPMAP_POS3 : Fld := ⟨12, 4, .ro, 3⟩
def CLU_SPMAP_POS4 : Fld := ⟨16, 4, .ro, 4⟩
def CLU_SPMAP_POS5 : Fld := ⟨20, 4, .ro, 5⟩
def CLU_SPMAP_POS6 : Fld := ⟨24, 4, .ro, 6⟩
def CLU_SPMAP_POS7 : Fld := ⟨28, 4, .ro, 7⟩
def CLU_SPMAP_POS8 : Fld := ⟨32, 4, .ro, 8⟩
def CLU_SPMAP_POS9 : Fld := ⟨36, 4, .ro, 9⟩
def CLU_SPMAP_POS10 : Fld := ⟨40, 4, .ro, 10⟩
def CLU_SPMAP_POS11 : Fld := ⟨44, 4, .ro, 11⟩
/-- Offset of CLU_HOCMD, R385. -/
def CLU_HOCMD (c : Nat) : Nat := 0x440010 + 0x1000 * c
def CLU_HOCMD_OP : Fld := ⟨0, 3, .wo, 0⟩
def CLU_HOCMD_ARG : Fld := ⟨8, 4, .wo, 0⟩
def CLU_HOCMD_TIMEOUT : Fld := ⟨16, 16, .wo, 0⟩
/-- Offset of CLU_HOSTAT, R385. -/
def CLU_HOSTAT (c : Nat) : Nat := 0x440018 + 0x1000 * c
def CLU_HOSTAT_PHASE : Fld := ⟨0, 3, .ro, 0⟩
def CLU_HOSTAT_SRC : Fld := ⟨8, 4, .ro, 0⟩
def CLU_HOSTAT_DST : Fld := ⟨12, 4, .ro, 0⟩
def CLU_HOSTAT_DIRTY : Fld := ⟨16, 13, .ro, 0⟩
def CLU_HOSTAT_NEED : Fld := ⟨32, 32, .ro, 0⟩
/-- Offset of CLU_HOCNT, R385. -/
def CLU_HOCNT (c : Nat) : Nat := 0x440020 + 0x1000 * c
def CLU_HOCNT_HANDOVERS : Fld := ⟨0, 16, .ro, 0⟩
def CLU_HOCNT_TAKEOVERS : Fld := ⟨16, 16, .ro, 0⟩
def CLU_HOCNT_SKIPPED : Fld := ⟨32, 32, .ro, 0⟩

def regs10 : List RegDef :=
  [⟨ENG_TNG_STAT 0, 0x4000, 208, 0x0, 1, [ENG_TNG_STAT_ROLE, ENG_TNG_STAT_RECOV, ENG_TNG_STAT_WIN, ENG_TNG_STAT_STBUF, ENG_TNG_STAT_RETCNT]⟩,
   ⟨ENG_TNG_MISM 0, 0x4000, 208, 0x0, 1, [ENG_TNG_MISM_COUNT, ENG_TNG_MISM_LASTGRP, ENG_TNG_MISM_LASTKIND]⟩,
   ⟨ENG_TNG_LASTTAI 0, 0x4000, 208, 0x0, 1, [ENG_TNG_LASTTAI_TAI]⟩,
   ⟨ENG_TNG_CKPT 0, 0x4000, 208, 0x0, 1, [ENG_TNG_CKPT_COUNT]⟩,
   ⟨ENG_TNG_SVRETRY 0, 0x4000, 208, 0x0, 1, [ENG_TNG_SVRETRY_COUNT]⟩,
   ⟨ENG_TNG_SELFTEST 0, 0x4000, 208, 0x0, 1, [ENG_TNG_SELFTEST_FLAGGED, ENG_TNG_SELFTEST_RESULT]⟩,
   ⟨ENG_TNG_CNTCLR 0, 0x4000, 208, 0x0, 1, [ENG_TNG_CNTCLR_CLR]⟩,
   ⟨CLU_RED 0, 0x1000, 16, 0x0, 1, [CLU_RED_MODE, CLU_RED_LOST, CLU_RED_SPAREPOS, CLU_RED_LOSTMASK]⟩,
   ⟨CLU_SPMAP 0, 0x1000, 16, 0x0, 1, [CLU_SPMAP_POS0, CLU_SPMAP_POS1, CLU_SPMAP_POS2, CLU_SPMAP_POS3, CLU_SPMAP_POS4, CLU_SPMAP_POS5, CLU_SPMAP_POS6, CLU_SPMAP_POS7, CLU_SPMAP_POS8, CLU_SPMAP_POS9, CLU_SPMAP_POS10, CLU_SPMAP_POS11]⟩,
   ⟨CLU_HOCMD 0, 0x1000, 16, 0x0, 1, [CLU_HOCMD_OP, CLU_HOCMD_ARG, CLU_HOCMD_TIMEOUT]⟩,
   ⟨CLU_HOSTAT 0, 0x1000, 16, 0x0, 1, [CLU_HOSTAT_PHASE, CLU_HOSTAT_SRC, CLU_HOSTAT_DST, CLU_HOSTAT_DIRTY, CLU_HOSTAT_NEED]⟩,
   ⟨CLU_HOCNT 0, 0x1000, 16, 0x0, 1, [CLU_HOCNT_HANDOVERS, CLU_HOCNT_TAKEOVERS, CLU_HOCNT_SKIPPED]⟩]

/-! Registers of spec/11_crossbar_locks_and_coherence.md. -/
/-- Offset of SLC_LOCK_STAT, R415. -/
def SLC_LOCK_STAT (s : Nat) : Nat := 0x800200 + 0x10000 * s
def SLC_LOCK_STAT_HELD : Fld := ⟨0, 1, .ro, 0⟩
def SLC_LOCK_STAT_MID : Fld := ⟨1, 6, .ro, 0⟩
def SLC_LOCK_STAT_POS : Fld := ⟨8, 4, .ro, 0⟩
def SLC_LOCK_STAT_WAITING : Fld := ⟨16, 16, .ro, 0⟩
/-- Offset of SLC_LOCK_GRANT, R415. -/
def SLC_LOCK_GRANT (s : Nat) : Nat := 0x800208 + 0x10000 * s
def SLC_LOCK_GRANT_COUNT : Fld := ⟨0, 32, .ro, 0⟩
/-- Offset of SLC_LOCK_BRK, R415. -/
def SLC_LOCK_BRK (s : Nat) : Nat := 0x800210 + 0x10000 * s
def SLC_LOCK_BRK_COUNT : Fld := ⟨0, 32, .ro, 0⟩
/-- Offset of SLC_LOCK_REFUSED, R415. -/
def SLC_LOCK_REFUSED (s : Nat) : Nat := 0x800218 + 0x10000 * s
def SLC_LOCK_REFUSED_COUNT : Fld := ⟨0, 32, .ro, 0⟩
/-- Offset of SLC_DIR_USED, R415. -/
def SLC_DIR_USED (s : Nat) : Nat := 0x800220 + 0x10000 * s
def SLC_DIR_USED_COUNT : Fld := ⟨0, 17, .ro, 0⟩
/-- Offset of SLC_DIR_BACKINV, R415. -/
def SLC_DIR_BACKINV (s : Nat) : Nat := 0x800228 + 0x10000 * s
def SLC_DIR_BACKINV_COUNT : Fld := ⟨0, 32, .ro, 0⟩
/-- Offset of SLC_DIR_CE, R415. -/
def SLC_DIR_CE (s : Nat) : Nat := 0x800230 + 0x10000 * s
def SLC_DIR_CE_COUNT : Fld := ⟨0, 32, .ro, 0⟩
/-- Offset of SLC_DIR_UE, R415. -/
def SLC_DIR_UE (s : Nat) : Nat := 0x800238 + 0x10000 * s
def SLC_DIR_UE_COUNT : Fld := ⟨0, 32, .ro, 0⟩
/-- Offset of SLC_DIR_EVX, R415. -/
def SLC_DIR_EVX (s : Nat) : Nat := 0x800240 + 0x10000 * s
def SLC_DIR_EVX_COUNT : Fld := ⟨0, 32, .ro, 0⟩
/-- Offset of SLC_DIR_KEYERR, R415. -/
def SLC_DIR_KEYERR (s : Nat) : Nat := 0x800248 + 0x10000 * s
def SLC_DIR_KEYERR_COUNT : Fld := ⟨0, 32, .ro, 0⟩
/-- Offset of SLC_XCNTCLR, R415. -/
def SLC_XCNTCLR (s : Nat) : Nat := 0x800250 + 0x10000 * s
def SLC_XCNTCLR_CLR : Fld := ⟨0, 1, .wo, 0⟩
/-- Offset of CLU_CC_HIT, R416. -/
def CLU_CC_HIT (c : Nat) : Nat := 0x440100 + 0x1000 * c
def CLU_CC_HIT_COUNT : Fld := ⟨0, 32, .ro, 0⟩
/-- Offset of CLU_CC_MISS, R416. -/
def CLU_CC_MISS (c : Nat) : Nat := 0x440108 + 0x1000 * c
def CLU_CC_MISS_COUNT : Fld := ⟨0, 32, .ro, 0⟩
/-- Offset of CLU_CC_CE, R416. -/
def CLU_CC_CE (c : Nat) : Nat := 0x440110 + 0x1000 * c
def CLU_CC_CE_COUNT : Fld := ⟨0, 32, .ro, 0⟩
/-- Offset of CLU_CC_UE, R416. -/
def CLU_CC_UE (c : Nat) : Nat := 0x440118 + 0x1000 * c
def CLU_CC_UE_COUNT : Fld := ⟨0, 32, .ro, 0⟩
/-- Offset of CLU_CC_CNTCLR, R416. -/
def CLU_CC_CNTCLR (c : Nat) : Nat := 0x440120 + 0x1000 * c
def CLU_CC_CNTCLR_CLR : Fld := ⟨0, 1, .wo, 0⟩
/-- Offset of XB_DEFLOG, R417. -/
def XB_DEFLOG : Nat := 0x460000
def XB_DEFLOG_ADDR : Fld := ⟨0, 48, .ro, 0⟩
def XB_DEFLOG_MID : Fld := ⟨48, 6, .ro, 0⟩
def XB_DEFLOG_POS : Fld := ⟨54, 4, .ro, 0⟩
/-- Offset of XB_DEFCNT, R417. -/
def XB_DEFCNT : Nat := 0x460008
def XB_DEFCNT_COUNT : Fld := ⟨0, 32, .ro, 0⟩
/-- Offset of XB_ERR, R417. -/
def XB_ERR : Nat := 0x460010
def XB_ERR_DECODE : Fld := ⟨0, 1, .w1c, 0⟩
def XB_ERR_PARITY : Fld := ⟨1, 1, .w1c, 0⟩
/-- Offset of XB_OUTST, R417. -/
def XB_OUTST (m : Nat) : Nat := 0x460100 + 0x8 * m
def XB_OUTST_COUNT : Fld := ⟨0, 16, .ro, 0⟩

def regs11 : List RegDef :=
  [⟨SLC_LOCK_STAT 0, 0x10000, 32, 0x0, 1, [SLC_LOCK_STAT_HELD, SLC_LOCK_STAT_MID, SLC_LOCK_STAT_POS, SLC_LOCK_STAT_WAITING]⟩,
   ⟨SLC_LOCK_GRANT 0, 0x10000, 32, 0x0, 1, [SLC_LOCK_GRANT_COUNT]⟩,
   ⟨SLC_LOCK_BRK 0, 0x10000, 32, 0x0, 1, [SLC_LOCK_BRK_COUNT]⟩,
   ⟨SLC_LOCK_REFUSED 0, 0x10000, 32, 0x0, 1, [SLC_LOCK_REFUSED_COUNT]⟩,
   ⟨SLC_DIR_USED 0, 0x10000, 32, 0x0, 1, [SLC_DIR_USED_COUNT]⟩,
   ⟨SLC_DIR_BACKINV 0, 0x10000, 32, 0x0, 1, [SLC_DIR_BACKINV_COUNT]⟩,
   ⟨SLC_DIR_CE 0, 0x10000, 32, 0x0, 1, [SLC_DIR_CE_COUNT]⟩,
   ⟨SLC_DIR_UE 0, 0x10000, 32, 0x0, 1, [SLC_DIR_UE_COUNT]⟩,
   ⟨SLC_DIR_EVX 0, 0x10000, 32, 0x0, 1, [SLC_DIR_EVX_COUNT]⟩,
   ⟨SLC_DIR_KEYERR 0, 0x10000, 32, 0x0, 1, [SLC_DIR_KEYERR_COUNT]⟩,
   ⟨SLC_XCNTCLR 0, 0x10000, 32, 0x0, 1, [SLC_XCNTCLR_CLR]⟩,
   ⟨CLU_CC_HIT 0, 0x1000, 16, 0x0, 1, [CLU_CC_HIT_COUNT]⟩,
   ⟨CLU_CC_MISS 0, 0x1000, 16, 0x0, 1, [CLU_CC_MISS_COUNT]⟩,
   ⟨CLU_CC_CE 0, 0x1000, 16, 0x0, 1, [CLU_CC_CE_COUNT]⟩,
   ⟨CLU_CC_UE 0, 0x1000, 16, 0x0, 1, [CLU_CC_UE_COUNT]⟩,
   ⟨CLU_CC_CNTCLR 0, 0x1000, 16, 0x0, 1, [CLU_CC_CNTCLR_CLR]⟩,
   ⟨XB_DEFLOG, 0x0, 1, 0x0, 1, [XB_DEFLOG_ADDR, XB_DEFLOG_MID, XB_DEFLOG_POS]⟩,
   ⟨XB_DEFCNT, 0x0, 1, 0x0, 1, [XB_DEFCNT_COUNT]⟩,
   ⟨XB_ERR, 0x0, 1, 0x0, 1, [XB_ERR_DECODE, XB_ERR_PARITY]⟩,
   ⟨XB_OUTST 0, 0x8, 43, 0x0, 1, [XB_OUTST_COUNT]⟩]

/-! Registers of spec/12_interrupt_controller_and_event_router.md. -/
/-- Offset of IC_CTRL, R436. -/
def IC_CTRL : Nat := 0x600000
def IC_CTRL_SCHEME : Fld := ⟨0, 1, .ro, 0⟩
def IC_CTRL_SPLIT : Fld := ⟨1, 3, .ro, 0⟩
/-- Offset of IC_ERR, R436. -/
def IC_ERR : Nat := 0x600008
def IC_ERR_BADCOMPLETE : Fld := ⟨0, 1, .w1c, 0⟩
def IC_ERR_BADSGI : Fld := ⟨1, 1, .w1c, 0⟩
def IC_ERR_OVF : Fld := ⟨2, 1, .w1c, 0⟩
/-- Offset of IC_SGI, R436. -/
def IC_SGI : Nat := 0x600010
def IC_SGI_ID : Fld := ⟨0, 10, .wo, 0⟩
/-- Offset of IC_BADCPL, R436. -/
def IC_BADCPL : Nat := 0x600018
def IC_BADCPL_COUNT : Fld := ⟨0, 32, .ro, 0⟩
/-- Offset of IC_SELF_CLAIM, R436. -/
def IC_SELF_CLAIM : Nat := 0x600100
def IC_SELF_CLAIM_ALL : Fld := ⟨0, 64, .ro, 0⟩
/-- Offset of IC_SELF_COMPLETE, R436. -/
def IC_SELF_COMPLETE : Nat := 0x600108
def IC_SELF_COMPLETE_ID : Fld := ⟨0, 10, .wo, 0⟩
/-- Offset of IC_SELF_THR, R436. -/
def IC_SELF_THR : Nat := 0x600110
def IC_SELF_THR_THR : Fld := ⟨0, 6, .rw, 0⟩
/-- Offset of IC_SRC_CFG, R436. -/
def IC_SRC_CFG (i : Nat) : Nat := 0x610000 + 0x40 * i
def IC_SRC_CFG_EN : Fld := ⟨0, 1, .rw, 0⟩
def IC_SRC_CFG_PRIO : Fld := ⟨1, 6, .rw, 0⟩
def IC_SRC_CFG_LEV : Fld := ⟨7, 2, .rw, 0⟩
def IC_SRC_CFG_TENANT : Fld := ⟨9, 13, .rw, 0⟩
def IC_SRC_CFG_VEC : Fld := ⟨32, 11, .rw, 0⟩
def IC_SRC_CFG_OWNER : Fld := ⟨48, 13, .rw, 0⟩
/-- Offset of IC_SRC_STAT, R436. -/
def IC_SRC_STAT (i : Nat) : Nat := 0x610008 + 0x40 * i
def IC_SRC_STAT_COUNT : Fld := ⟨0, 4, .ro, 0⟩
def IC_SRC_STAT_ACTIVE : Fld := ⟨4, 1, .ro, 0⟩
def IC_SRC_STAT_PREEMPT : Fld := ⟨5, 1, .ro, 0⟩
def IC_SRC_STAT_CLAIMCTX : Fld := ⟨6, 12, .ro, 0⟩
def IC_SRC_STAT_OVF : Fld := ⟨18, 1, .w1c, 0⟩
def IC_SRC_STAT_TYPE : Fld := ⟨19, 1, .ro, 0⟩
/-- Offset of IC_SRC_TGT, R436. -/
def IC_SRC_TGT (i w : Nat) : Nat := 0x610010 + 0x40 * i + 0x8 * w
def IC_SRC_TGT_ENG : Fld := ⟨0, 64, .rw, 0⟩
/-- Offset of IC_SRC_TGT3, R436. -/
def IC_SRC_TGT3 (i : Nat) : Nat := 0x610028 + 0x40 * i
def IC_SRC_TGT3_STEWARD : Fld := ⟨0, 1, .rw, 0⟩
def IC_SRC_TGT3_HOST : Fld := ⟨1, 1, .rw, 0⟩
/-- Offset of IC_GRP, R436. -/
def IC_GRP (g : Nat) : Nat := 0x620000 + 0x8 * g
def IC_GRP_HOLDOFF : Fld := ⟨0, 16, .rw, 0⟩
def IC_GRP_REMAIN : Fld := ⟨16, 16, .ro, 0⟩
/-- Offset of IC_CTX, R436. -/
def IC_CTX (c : Nat) : Nat := 0x630000 + 0x20 * c
def IC_CTX_THR : Fld := ⟨0, 6, .rw, 0⟩
def IC_CTX_RUNNING : Fld := ⟨8, 6, .ro, 0⟩
def IC_CTX_RUNV : Fld := ⟨14, 1, .ro, 0⟩
def IC_CTX_CAND : Fld := ⟨16, 10, .ro, 1023⟩
/-- Offset of IC_CLAIM, R436. -/
def IC_CLAIM (c : Nat) : Nat := 0x630008 + 0x20 * c
def IC_CLAIM_ALL : Fld := ⟨0, 64, .ro, 0⟩
/-- Offset of IC_COMPLETE, R436. -/
def IC_COMPLETE (c : Nat) : Nat := 0x630010 + 0x20 * c
def IC_COMPLETE_ID : Fld := ⟨0, 10, .wo, 0⟩
/-- Offset of EVR_FIRE0, R441. -/
def EVR_FIRE0 : Nat := 0x700000
def EVR_FIRE0_FIRE : Fld := ⟨0, 64, .wo, 0⟩
/-- Offset of EVR_FIRE1, R441. -/
def EVR_FIRE1 : Nat := 0x700008
def EVR_FIRE1_FIRE : Fld := ⟨0, 64, .wo, 0⟩
/-- Offset of EVR_SWGATE, R441. -/
def EVR_SWGATE : Nat := 0x700010
def EVR_SWGATE_GATE : Fld := ⟨0, 16, .rw, 0⟩
/-- Offset of EVR_OUTW, R441. -/
def EVR_OUTW : Nat := 0x700018
def EVR_OUTW_WIDTH : Fld := ⟨0, 8, .rw, 10⟩
/-- Offset of EVR_CH_CFG, R441. -/
def EVR_CH_CFG (c : Nat) : Nat := 0x701000 + 0x10 * c
def EVR_CH_CFG_PIN : Fld := ⟨0, 1, .ro, 0⟩
def EVR_CH_CFG_QUEUE : Fld := ⟨1, 1, .ro, 0⟩
def EVR_CH_CFG_PORT : Fld := ⟨2, 1, .ro, 0⟩
def EVR_CH_CFG_FIRE : Fld := ⟨3, 1, .ro, 0⟩
def EVR_CH_CFG_OUT : Fld := ⟨8, 1, .ro, 0⟩
def EVR_CH_CFG_GATE : Fld := ⟨16, 6, .ro, 0⟩
/-- Offset of EVR_CH_CNT, R441. -/
def EVR_CH_CNT (c : Nat) : Nat := 0x701008 + 0x10 * c
def EVR_CH_CNT_FIRED : Fld := ⟨0, 32, .ro, 0⟩
def EVR_CH_CNT_BLOCKED : Fld := ⟨32, 32, .ro, 0⟩

def regs12 : List RegDef :=
  [⟨IC_CTRL, 0x0, 1, 0x0, 1, [IC_CTRL_SCHEME, IC_CTRL_SPLIT]⟩,
   ⟨IC_ERR, 0x0, 1, 0x0, 1, [IC_ERR_BADCOMPLETE, IC_ERR_BADSGI, IC_ERR_OVF]⟩,
   ⟨IC_SGI, 0x0, 1, 0x0, 1, [IC_SGI_ID]⟩,
   ⟨IC_BADCPL, 0x0, 1, 0x0, 1, [IC_BADCPL_COUNT]⟩,
   ⟨IC_SELF_CLAIM, 0x0, 1, 0x0, 1, [IC_SELF_CLAIM_ALL]⟩,
   ⟨IC_SELF_COMPLETE, 0x0, 1, 0x0, 1, [IC_SELF_COMPLETE_ID]⟩,
   ⟨IC_SELF_THR, 0x0, 1, 0x0, 1, [IC_SELF_THR_THR]⟩,
   ⟨IC_SRC_CFG 0, 0x40, 1024, 0x0, 1, [IC_SRC_CFG_EN, IC_SRC_CFG_PRIO, IC_SRC_CFG_LEV, IC_SRC_CFG_TENANT, IC_SRC_CFG_VEC, IC_SRC_CFG_OWNER]⟩,
   ⟨IC_SRC_STAT 0, 0x40, 1024, 0x0, 1, [IC_SRC_STAT_COUNT, IC_SRC_STAT_ACTIVE, IC_SRC_STAT_PREEMPT, IC_SRC_STAT_CLAIMCTX, IC_SRC_STAT_OVF, IC_SRC_STAT_TYPE]⟩,
   ⟨IC_SRC_TGT 0 0, 0x40, 1024, 0x8, 3, [IC_SRC_TGT_ENG]⟩,
   ⟨IC_SRC_TGT3 0, 0x40, 1024, 0x0, 1, [IC_SRC_TGT3_STEWARD, IC_SRC_TGT3_HOST]⟩,
   ⟨IC_GRP 0, 0x8, 64, 0x0, 1, [IC_GRP_HOLDOFF, IC_GRP_REMAIN]⟩,
   ⟨IC_CTX 0, 0x20, 3586, 0x0, 1, [IC_CTX_THR, IC_CTX_RUNNING, IC_CTX_RUNV, IC_CTX_CAND]⟩,
   ⟨IC_CLAIM 0, 0x20, 3586, 0x0, 1, [IC_CLAIM_ALL]⟩,
   ⟨IC_COMPLETE 0, 0x20, 3586, 0x0, 1, [IC_COMPLETE_ID]⟩,
   ⟨EVR_FIRE0, 0x0, 1, 0x0, 1, [EVR_FIRE0_FIRE]⟩,
   ⟨EVR_FIRE1, 0x0, 1, 0x0, 1, [EVR_FIRE1_FIRE]⟩,
   ⟨EVR_SWGATE, 0x0, 1, 0x0, 1, [EVR_SWGATE_GATE]⟩,
   ⟨EVR_OUTW, 0x0, 1, 0x0, 1, [EVR_OUTW_WIDTH]⟩,
   ⟨EVR_CH_CFG 0, 0x10, 128, 0x0, 1, [EVR_CH_CFG_PIN, EVR_CH_CFG_QUEUE, EVR_CH_CFG_PORT, EVR_CH_CFG_FIRE, EVR_CH_CFG_OUT, EVR_CH_CFG_GATE]⟩,
   ⟨EVR_CH_CNT 0, 0x10, 128, 0x0, 1, [EVR_CH_CNT_FIRED, EVR_CH_CNT_BLOCKED]⟩]

/-! Registers of spec/13_queues_buffers_and_overload.md. -/
/-- Offset of QM_ERR, R467. -/
def QM_ERR : Nat := 0xa00000
def QM_ERR_FREE_DOUBLE : Fld := ⟨0, 1, .w1c, 0⟩
def QM_ERR_FREE_OWNER : Fld := ⟨1, 1, .w1c, 0⟩
def QM_ERR_ENQ_OWNER : Fld := ⟨2, 1, .w1c, 0⟩
def QM_ERR_DESC_UE : Fld := ⟨3, 1, .w1c, 0⟩
def QM_ERR_RING_ERR : Fld := ⟨4, 1, .w1c, 0⟩
def QM_ERR_SHED : Fld := ⟨5, 1, .w1c, 0⟩
/-- Offset of QM_ERRLOG, R467. -/
def QM_ERRLOG : Nat := 0xa00008
def QM_ERRLOG_HANDLE : Fld := ⟨0, 24, .ro, 0⟩
def QM_ERRLOG_QUEUE : Fld := ⟨24, 17, .ro, 0⟩
def QM_ERRLOG_TENANT : Fld := ⟨41, 13, .ro, 0⟩
def QM_ERRLOG_KIND : Fld := ⟨54, 4, .ro, 0⟩
/-- Offset of QM_QSEL, R467. -/
def QM_QSEL : Nat := 0xa00010
def QM_QSEL_QUEUE : Fld := ⟨0, 17, .rw, 0⟩
/-- Offset of QM_QCFG, R467. -/
def QM_QCFG : Nat := 0xa00018
def QM_QCFG_VALID : Fld := ⟨0, 1, .ro, 0⟩
def QM_QCFG_TENANT : Fld := ⟨1, 13, .ro, 0⟩
def QM_QCFG_POOL : Fld := ⟨14, 4, .ro, 0⟩
def QM_QCFG_SIZE : Fld := ⟨18, 4, .ro, 0⟩
def QM_QCFG_CLASS : Fld := ⟨22, 2, .ro, 0⟩
def QM_QCFG_HEAD : Fld := ⟨24, 1, .ro, 0⟩
def QM_QCFG_HIWM : Fld := ⟨32, 16, .ro, 0⟩
def QM_QCFG_LOWM : Fld := ⟨48, 16, .ro, 0⟩
/-- Offset of QM_QCFG2, R467. -/
def QM_QCFG2 : Nat := 0xa00020
def QM_QCFG2_NGRP : Fld := ⟨0, 8, .ro, 0⟩
def QM_QCFG2_NEN : Fld := ⟨8, 1, .ro, 0⟩
def QM_QCFG2_NTHR : Fld := ⟨9, 16, .ro, 1⟩
def QM_QCFG2_EVOUT : Fld := ⟨25, 5, .ro, 0⟩
def QM_QCFG2_EVEN : Fld := ⟨30, 1, .ro, 0⟩
def QM_QCFG2_LLTIME : Fld := ⟨32, 16, .ro, 0⟩
/-- Offset of QM_QSTAT, R467. -/
def QM_QSTAT : Nat := 0xa00028
def QM_QSTAT_DEPTH : Fld := ⟨0, 17, .ro, 0⟩
def QM_QSTAT_DROPPING : Fld := ⟨17, 1, .ro, 0⟩
def QM_QSTAT_BACKPRESS : Fld := ⟨18, 1, .ro, 0⟩
def QM_QSTAT_SHED : Fld := ⟨19, 1, .ro, 0⟩
def QM_QSTAT_FAULT : Fld := ⟨20, 1, .ro, 0⟩
/-- Offset of QM_QDROP0, R467. -/
def QM_QDROP0 : Nat := 0xa00030
def QM_QDROP0_TOKEN : Fld := ⟨0, 32, .ro, 0⟩
def QM_QDROP0_WMARK : Fld := ⟨32, 32, .ro, 0⟩
/-- Offset of QM_QDROP1, R467. -/
def QM_QDROP1 : Nat := 0xa00038
def QM_QDROP1_NOBUF : Fld := ⟨0, 32, .ro, 0⟩
def QM_QDROP1_TOOLONG : Fld := ⟨32, 32, .ro, 0⟩
/-- Offset of QM_QDROP2, R467. -/
def QM_QDROP2 : Nat := 0xa00040
def QM_QDROP2_STALL : Fld := ⟨0, 32, .ro, 0⟩
def QM_QDROP2_SWFULL : Fld := ⟨32, 32, .ro, 0⟩
/-- Offset of QM_QCNT, R467. -/
def QM_QCNT : Nat := 0xa00048
def QM_QCNT_ENQUEUED : Fld := ⟨0, 64, .ro, 0⟩
/-- Offset of QM_TSEL, R467. -/
def QM_TSEL : Nat := 0xa00050
def QM_TSEL_TENANT : Fld := ⟨0, 13, .rw, 0⟩
/-- Offset of QM_TB, R467. -/
def QM_TB : Nat := 0xa00058
def QM_TB_RATE : Fld := ⟨0, 32, .ro, 0⟩
def QM_TB_BURST : Fld := ⟨32, 24, .ro, 0⟩
def QM_TB_EN : Fld := ⟨56, 1, .ro, 0⟩
/-- Offset of QM_TBSTAT, R467. -/
def QM_TBSTAT : Nat := 0xa00060
def QM_TBSTAT_TOKENS : Fld := ⟨0, 25, .ro, 0⟩
def QM_TBSTAT_DROPS : Fld := ⟨32, 32, .ro, 0⟩
/-- Offset of QM_NOQ, R467. -/
def QM_NOQ : Nat := 0xa00068
def QM_NOQ_COUNT : Fld := ⟨0, 32, .ro, 0⟩
/-- Offset of QM_CNTCLR, R467. -/
def QM_CNTCLR : Nat := 0xa00070
def QM_CNTCLR_CLR : Fld := ⟨0, 1, .wo, 0⟩
/-- Offset of QM_SHSEL, R467. -/
def QM_SHSEL : Nat := 0xa00080
def QM_SHSEL_SHARE : Fld := ⟨0, 14, .rw, 0⟩
/-- Offset of QM_SHA, R467. -/
def QM_SHA : Nat := 0xa00088
def QM_SHA_SHBASE : Fld := ⟨0, 24, .ro, 0⟩
def QM_SHA_SHCOUNT : Fld := ⟨24, 25, .ro, 0⟩
def QM_SHA_POOL : Fld := ⟨49, 4, .ro, 0⟩
/-- Offset of QM_SHB, R467. -/
def QM_SHB : Nat := 0xa00090
def QM_SHB_TENANT : Fld := ⟨0, 13, .ro, 0⟩
def QM_SHB_WIN : Fld := ⟨16, 6, .ro, 0⟩
def QM_SHB_WOFF : Fld := ⟨24, 28, .ro, 0⟩
/-- Offset of QM_SHS, R467. -/
def QM_SHS : Nat := 0xa00098
def QM_SHS_FREE : Fld := ⟨0, 25, .ro, 0⟩
def QM_SHS_EMPTY : Fld := ⟨32, 32, .ro, 0⟩
/-- Offset of QM_POOLA, R467. -/
def QM_POOLA (p : Nat) : Nat := 0xa01000 + 0x20 * p
def QM_POOLA_HBASE : Fld := ⟨0, 24, .ro, 0⟩
def QM_POOLA_COUNT : Fld := ⟨24, 25, .ro, 0⟩
def QM_POOLA_BUFSZ : Fld := ⟨49, 4, .ro, 0⟩
/-- Offset of QM_POOLB, R467. -/
def QM_POOLB (p : Nat) : Nat := 0xa01008 + 0x20 * p
def QM_POOLB_BASE : Fld := ⟨12, 36, .ro, 0⟩
/-- Offset of QM_POOLS, R467. -/
def QM_POOLS (p : Nat) : Nat := 0xa01010 + 0x20 * p
def QM_POOLS_FREE : Fld := ⟨0, 25, .ro, 0⟩
def QM_POOLS_EMPTY : Fld := ⟨32, 32, .ro, 0⟩

def regs13 : List RegDef :=
  [⟨QM_ERR, 0x0, 1, 0x0, 1, [QM_ERR_FREE_DOUBLE, QM_ERR_FREE_OWNER, QM_ERR_ENQ_OWNER, QM_ERR_DESC_UE, QM_ERR_RING_ERR, QM_ERR_SHED]⟩,
   ⟨QM_ERRLOG, 0x0, 1, 0x0, 1, [QM_ERRLOG_HANDLE, QM_ERRLOG_QUEUE, QM_ERRLOG_TENANT, QM_ERRLOG_KIND]⟩,
   ⟨QM_QSEL, 0x0, 1, 0x0, 1, [QM_QSEL_QUEUE]⟩,
   ⟨QM_QCFG, 0x0, 1, 0x0, 1, [QM_QCFG_VALID, QM_QCFG_TENANT, QM_QCFG_POOL, QM_QCFG_SIZE, QM_QCFG_CLASS, QM_QCFG_HEAD, QM_QCFG_HIWM, QM_QCFG_LOWM]⟩,
   ⟨QM_QCFG2, 0x0, 1, 0x0, 1, [QM_QCFG2_NGRP, QM_QCFG2_NEN, QM_QCFG2_NTHR, QM_QCFG2_EVOUT, QM_QCFG2_EVEN, QM_QCFG2_LLTIME]⟩,
   ⟨QM_QSTAT, 0x0, 1, 0x0, 1, [QM_QSTAT_DEPTH, QM_QSTAT_DROPPING, QM_QSTAT_BACKPRESS, QM_QSTAT_SHED, QM_QSTAT_FAULT]⟩,
   ⟨QM_QDROP0, 0x0, 1, 0x0, 1, [QM_QDROP0_TOKEN, QM_QDROP0_WMARK]⟩,
   ⟨QM_QDROP1, 0x0, 1, 0x0, 1, [QM_QDROP1_NOBUF, QM_QDROP1_TOOLONG]⟩,
   ⟨QM_QDROP2, 0x0, 1, 0x0, 1, [QM_QDROP2_STALL, QM_QDROP2_SWFULL]⟩,
   ⟨QM_QCNT, 0x0, 1, 0x0, 1, [QM_QCNT_ENQUEUED]⟩,
   ⟨QM_TSEL, 0x0, 1, 0x0, 1, [QM_TSEL_TENANT]⟩,
   ⟨QM_TB, 0x0, 1, 0x0, 1, [QM_TB_RATE, QM_TB_BURST, QM_TB_EN]⟩,
   ⟨QM_TBSTAT, 0x0, 1, 0x0, 1, [QM_TBSTAT_TOKENS, QM_TBSTAT_DROPS]⟩,
   ⟨QM_NOQ, 0x0, 1, 0x0, 1, [QM_NOQ_COUNT]⟩,
   ⟨QM_CNTCLR, 0x0, 1, 0x0, 1, [QM_CNTCLR_CLR]⟩,
   ⟨QM_SHSEL, 0x0, 1, 0x0, 1, [QM_SHSEL_SHARE]⟩,
   ⟨QM_SHA, 0x0, 1, 0x0, 1, [QM_SHA_SHBASE, QM_SHA_SHCOUNT, QM_SHA_POOL]⟩,
   ⟨QM_SHB, 0x0, 1, 0x0, 1, [QM_SHB_TENANT, QM_SHB_WIN, QM_SHB_WOFF]⟩,
   ⟨QM_SHS, 0x0, 1, 0x0, 1, [QM_SHS_FREE, QM_SHS_EMPTY]⟩,
   ⟨QM_POOLA 0, 0x20, 16, 0x0, 1, [QM_POOLA_HBASE, QM_POOLA_COUNT, QM_POOLA_BUFSZ]⟩,
   ⟨QM_POOLB 0, 0x20, 16, 0x0, 1, [QM_POOLB_BASE]⟩,
   ⟨QM_POOLS 0, 0x20, 16, 0x0, 1, [QM_POOLS_FREE, QM_POOLS_EMPTY]⟩]

/-! Registers of spec/14_octotte_ports_and_system_assembly.md. -/
/-- Offset of OCT_CTRL, R497. -/
def OCT_CTRL (p : Nat) : Nat := 0xc00000 + 0x10000 * p
def OCT_CTRL_MODE : Fld := ⟨0, 3, .ro, 0⟩
def OCT_CTRL_RELEASE : Fld := ⟨3, 1, .rw, 0⟩
def OCT_CTRL_MACEN : Fld := ⟨4, 1, .ro, 0⟩
def OCT_CTRL_RETRYTHR : Fld := ⟨16, 16, .rw, 1000⟩
/-- Offset of OCT_STAT, R497. -/
def OCT_STAT (p : Nat) : Nat := 0xc00008 + 0x10000 * p
def OCT_STAT_LINKUP : Fld := ⟨0, 8, .ro, 0⟩
def OCT_STAT_LANES : Fld := ⟨8, 4, .ro, 0⟩
def OCT_STAT_DEGRADED : Fld := ⟨12, 1, .ro, 0⟩
def OCT_STAT_DLANE : Fld := ⟨13, 3, .ro, 0⟩
def OCT_STAT_NSTATE : Fld := ⟨16, 2, .ro, 0⟩
/-- Offset of OCT_ERR, R497. -/
def OCT_ERR (p : Nat) : Nat := 0xc00010 + 0x10000 * p
def OCT_ERR_LINKDOWN : Fld := ⟨0, 1, .w1c, 0⟩
def OCT_ERR_LANE : Fld := ⟨1, 1, .w1c, 0⟩
def OCT_ERR_VERSION : Fld := ⟨2, 1, .w1c, 0⟩
def OCT_ERR_STUCK : Fld := ⟨3, 1, .w1c, 0⟩
def OCT_ERR_HOPS : Fld := ⟨4, 1, .w1c, 0⟩
def OCT_ERR_DISCDROP : Fld := ⟨5, 1, .w1c, 0⟩
/-- Offset of OCT_NBR, R497. -/
def OCT_NBR (p : Nat) : Nat := 0xc00018 + 0x10000 * p
def OCT_NBR_DID : Fld := ⟨0, 18, .ro, 0⟩
def OCT_NBR_PORT : Fld := ⟨18, 3, .ro, 0⟩
def OCT_NBR_VERSION : Fld := ⟨32, 16, .ro, 0⟩
/-- Offset of OCT_DISC, R497. -/
def OCT_DISC (p : Nat) : Nat := 0xc00020 + 0x10000 * p
def OCT_DISC_RATE : Fld := ⟨0, 16, .rw, 10000⟩
def OCT_DISC_DROPS : Fld := ⟨32, 32, .ro, 0⟩
/-- Offset of OCT_VCBUF0, R497. -/
def OCT_VCBUF0 (p : Nat) : Nat := 0xc00028 + 0x10000 * p
def OCT_VCBUF0_VC0 : Fld := ⟨0, 11, .ro, 128⟩
def OCT_VCBUF0_VC1 : Fld := ⟨16, 11, .ro, 128⟩
def OCT_VCBUF0_VC2 : Fld := ⟨32, 11, .ro, 128⟩
def OCT_VCBUF0_VC3 : Fld := ⟨48, 11, .ro, 128⟩
/-- Offset of OCT_VCBUF1, R497. -/
def OCT_VCBUF1 (p : Nat) : Nat := 0xc00030 + 0x10000 * p
def OCT_VCBUF1_VC4 : Fld := ⟨0, 11, .ro, 128⟩
def OCT_VCBUF1_VC5 : Fld := ⟨16, 11, .ro, 128⟩
def OCT_VCBUF1_VC6 : Fld := ⟨32, 11, .ro, 128⟩
def OCT_VCBUF1_VC7 : Fld := ⟨48, 11, .ro, 128⟩
/-- Offset of OCT_RETRY, R497. -/
def OCT_RETRY (p : Nat) : Nat := 0xc00038 + 0x10000 * p
def OCT_RETRY_REPLAYS : Fld := ⟨0, 32, .ro, 0⟩
def OCT_RETRY_CRCERR : Fld := ⟨32, 32, .ro, 0⟩
/-- Offset of OCT_RXCNT, R497. -/
def OCT_RXCNT (p : Nat) : Nat := 0xc00040 + 0x10000 * p
def OCT_RXCNT_NOCLASS : Fld := ⟨0, 32, .ro, 0⟩
def OCT_RXCNT_SVBAD : Fld := ⟨32, 32, .ro, 0⟩
/-- Offset of OCT_RXCNT2, R497. -/
def OCT_RXCNT2 (p : Nat) : Nat := 0xc00048 + 0x10000 * p
def OCT_RXCNT2_RXOFF : Fld := ⟨0, 32, .ro, 0⟩
def OCT_RXCNT2_PFCOVF : Fld := ⟨32, 32, .ro, 0⟩
/-- Offset of OCT_TXCNT, R497. -/
def OCT_TXCNT (p : Nat) : Nat := 0xc00050 + 0x10000 * p
def OCT_TXCNT_TXREFUSE : Fld := ⟨0, 32, .ro, 0⟩
def OCT_TXCNT_STUCK : Fld := ⟨32, 32, .ro, 0⟩
/-- Offset of OCT_FWDCNT, R497. -/
def OCT_FWDCNT (p : Nat) : Nat := 0xc00058 + 0x10000 * p
def OCT_FWDCNT_HOPDROP : Fld := ⟨0, 32, .ro, 0⟩
def OCT_FWDCNT_NOROUTE : Fld := ⟨32, 32, .ro, 0⟩
/-- Offset of OCT_PTP, R497. -/
def OCT_PTP (p : Nat) : Nat := 0xc00060 + 0x10000 * p
def OCT_PTP_DOMAIN : Fld := ⟨0, 8, .rw, 0⟩
def OCT_PTP_STATE : Fld := ⟨8, 3, .ro, 0⟩
def OCT_PTP_ASYM : Fld := ⟨32, 32, .rw, 0⟩
/-- Offset of OCT_CNTCLR, R497. -/
def OCT_CNTCLR (p : Nat) : Nat := 0xc00068 + 0x10000 * p
def OCT_CNTCLR_CLR : Fld := ⟨0, 1, .wo, 0⟩
/-- Offset of OCT_LANE, R497. -/
def OCT_LANE (p k : Nat) : Nat := 0xc00100 + 0x10000 * p + 0x8 * k
def OCT_LANE_LOCK : Fld := ⟨0, 1, .ro, 0⟩
def OCT_LANE_ACTIVE : Fld := ⟨1, 1, .ro, 0⟩
def OCT_LANE_EYE : Fld := ⟨8, 8, .ro, 0⟩
def OCT_LANE_SER : Fld := ⟨16, 8, .ro, 0⟩
/-- Offset of OCT_MAC, R497. -/
def OCT_MAC (p l : Nat) : Nat := 0xc00200 + 0x10000 * p + 0x8 * l
def OCT_MAC_MAC : Fld := ⟨0, 48, .ro, 0⟩
/-- Offset of OCT_MACCNT, R497. -/
def OCT_MACCNT (p l : Nat) : Nat := 0xc00300 + 0x10000 * p + 0x8 * l
def OCT_MACCNT_RXBAD : Fld := ⟨0, 32, .ro, 0⟩
def OCT_MACCNT_PAUSE : Fld := ⟨32, 32, .ro, 0⟩
/-- Offset of OCT_CLSA, R497. -/
def OCT_CLSA (p n : Nat) : Nat := 0xc01000 + 0x10000 * p + 0x10 * n
def OCT_CLSA_VALID : Fld := ⟨0, 1, .ro, 0⟩
def OCT_CLSA_MATCH : Fld := ⟨1, 3, .ro, 0⟩
def OCT_CLSA_LINK : Fld := ⟨4, 3, .ro, 0⟩
def OCT_CLSA_VLANEN : Fld := ⟨7, 1, .ro, 0⟩
def OCT_CLSA_VLAN : Fld := ⟨8, 12, .ro, 0⟩
def OCT_CLSA_KEY : Fld := ⟨32, 16, .ro, 0⟩
/-- Offset of OCT_CLSB, R497. -/
def OCT_CLSB (p n : Nat) : Nat := 0xc01008 + 0x10000 * p + 0x10 * n
def OCT_CLSB_QUEUE : Fld := ⟨0, 17, .ro, 0⟩
def OCT_CLSB_QHI : Fld := ⟨32, 17, .ro, 0⟩
/-- Offset of OCT_DID, R498. -/
def OCT_DID : Nat := 0xc80000
def OCT_DID_DID : Fld := ⟨0, 18, .rw, 0⟩
/-- Offset of OCT_CHSEL, R498. -/
def OCT_CHSEL : Nat := 0xc80010
def OCT_CHSEL_CHANNEL : Fld := ⟨0, 14, .rw, 0⟩
/-- Offset of OCT_CHA, R498. -/
def OCT_CHA : Nat := 0xc80018
def OCT_CHA_VALID : Fld := ⟨0, 1, .ro, 0⟩
def OCT_CHA_TENANT : Fld := ⟨1, 13, .ro, 0⟩
def OCT_CHA_TXQ : Fld := ⟨14, 17, .ro, 0⟩
def OCT_CHA_PORT : Fld := ⟨31, 3, .ro, 0⟩
def OCT_CHA_LINK : Fld := ⟨34, 3, .ro, 0⟩
def OCT_CHA_VC : Fld := ⟨37, 3, .ro, 0⟩
/-- Offset of OCT_CHB, R498. -/
def OCT_CHB : Nat := 0xc80020
def OCT_CHB_DST : Fld := ⟨0, 18, .ro, 0⟩
def OCT_CHB_DQUEUE : Fld := ⟨18, 17, .ro, 0⟩
def OCT_CHB_VLAN : Fld := ⟨0, 12, .ro, 0⟩
def OCT_CHB_VLANEN : Fld := ⟨12, 1, .ro, 0⟩
def OCT_CHB_ETYPE : Fld := ⟨16, 16, .ro, 0⟩
/-- Offset of OCT_RGN, R498. -/
def OCT_RGN (r : Nat) : Nat := 0xc81000 + 0x8 * r
def OCT_RGN_PORTMASK : Fld := ⟨0, 6, .rw, 0⟩
/-- Offset of OCT_LOC, R498. -/
def OCT_LOC (i : Nat) : Nat := 0xca0000 + 0x8 * i
def OCT_LOC_PORTMASK : Fld := ⟨0, 6, .rw, 0⟩

def regs14 : List RegDef :=
  [⟨OCT_CTRL 0, 0x10000, 6, 0x0, 1, [OCT_CTRL_MODE, OCT_CTRL_RELEASE, OCT_CTRL_MACEN, OCT_CTRL_RETRYTHR]⟩,
   ⟨OCT_STAT 0, 0x10000, 6, 0x0, 1, [OCT_STAT_LINKUP, OCT_STAT_LANES, OCT_STAT_DEGRADED, OCT_STAT_DLANE, OCT_STAT_NSTATE]⟩,
   ⟨OCT_ERR 0, 0x10000, 6, 0x0, 1, [OCT_ERR_LINKDOWN, OCT_ERR_LANE, OCT_ERR_VERSION, OCT_ERR_STUCK, OCT_ERR_HOPS, OCT_ERR_DISCDROP]⟩,
   ⟨OCT_NBR 0, 0x10000, 6, 0x0, 1, [OCT_NBR_DID, OCT_NBR_PORT, OCT_NBR_VERSION]⟩,
   ⟨OCT_DISC 0, 0x10000, 6, 0x0, 1, [OCT_DISC_RATE, OCT_DISC_DROPS]⟩,
   ⟨OCT_VCBUF0 0, 0x10000, 6, 0x0, 1, [OCT_VCBUF0_VC0, OCT_VCBUF0_VC1, OCT_VCBUF0_VC2, OCT_VCBUF0_VC3]⟩,
   ⟨OCT_VCBUF1 0, 0x10000, 6, 0x0, 1, [OCT_VCBUF1_VC4, OCT_VCBUF1_VC5, OCT_VCBUF1_VC6, OCT_VCBUF1_VC7]⟩,
   ⟨OCT_RETRY 0, 0x10000, 6, 0x0, 1, [OCT_RETRY_REPLAYS, OCT_RETRY_CRCERR]⟩,
   ⟨OCT_RXCNT 0, 0x10000, 6, 0x0, 1, [OCT_RXCNT_NOCLASS, OCT_RXCNT_SVBAD]⟩,
   ⟨OCT_RXCNT2 0, 0x10000, 6, 0x0, 1, [OCT_RXCNT2_RXOFF, OCT_RXCNT2_PFCOVF]⟩,
   ⟨OCT_TXCNT 0, 0x10000, 6, 0x0, 1, [OCT_TXCNT_TXREFUSE, OCT_TXCNT_STUCK]⟩,
   ⟨OCT_FWDCNT 0, 0x10000, 6, 0x0, 1, [OCT_FWDCNT_HOPDROP, OCT_FWDCNT_NOROUTE]⟩,
   ⟨OCT_PTP 0, 0x10000, 6, 0x0, 1, [OCT_PTP_DOMAIN, OCT_PTP_STATE, OCT_PTP_ASYM]⟩,
   ⟨OCT_CNTCLR 0, 0x10000, 6, 0x0, 1, [OCT_CNTCLR_CLR]⟩,
   ⟨OCT_LANE 0 0, 0x10000, 6, 0x8, 8, [OCT_LANE_LOCK, OCT_LANE_ACTIVE, OCT_LANE_EYE, OCT_LANE_SER]⟩,
   ⟨OCT_MAC 0 0, 0x10000, 6, 0x8, 8, [OCT_MAC_MAC]⟩,
   ⟨OCT_MACCNT 0 0, 0x10000, 6, 0x8, 8, [OCT_MACCNT_RXBAD, OCT_MACCNT_PAUSE]⟩,
   ⟨OCT_CLSA 0 0, 0x10000, 6, 0x10, 32, [OCT_CLSA_VALID, OCT_CLSA_MATCH, OCT_CLSA_LINK, OCT_CLSA_VLANEN, OCT_CLSA_VLAN, OCT_CLSA_KEY]⟩,
   ⟨OCT_CLSB 0 0, 0x10000, 6, 0x10, 32, [OCT_CLSB_QUEUE, OCT_CLSB_QHI]⟩,
   ⟨OCT_DID, 0x0, 1, 0x0, 1, [OCT_DID_DID]⟩,
   ⟨OCT_CHSEL, 0x0, 1, 0x0, 1, [OCT_CHSEL_CHANNEL]⟩,
   ⟨OCT_CHA, 0x0, 1, 0x0, 1, [OCT_CHA_VALID, OCT_CHA_TENANT, OCT_CHA_TXQ, OCT_CHA_PORT, OCT_CHA_LINK, OCT_CHA_VC]⟩,
   ⟨OCT_CHB, 0x0, 1, 0x0, 1, [OCT_CHB_DST, OCT_CHB_DQUEUE, OCT_CHB_VLAN, OCT_CHB_VLANEN, OCT_CHB_ETYPE]⟩,
   ⟨OCT_RGN 0, 0x8, 64, 0x0, 1, [OCT_RGN_PORTMASK]⟩,
   ⟨OCT_LOC 0, 0x8, 4096, 0x0, 1, [OCT_LOC_PORTMASK]⟩]

/-! Registers of spec/15_pyphor_configuration_bitstream.md. -/
/-- Offset of BSL_CMD, R518. -/
def BSL_CMD : Nat := 0x1100000
def BSL_CMD_OP : Fld := ⟨0, 2, .wo, 0⟩
def BSL_CMD_BUF : Fld := ⟨4, 2, .wo, 0⟩
/-- Offset of BSL_STAT, R518. -/
def BSL_STAT : Nat := 0x1100008
def BSL_STAT_CONFIG : Fld := ⟨0, 1, .ro, 0⟩
def BSL_STAT_SHBUF : Fld := ⟨1, 2, .ro, 0⟩
def BSL_STAT_BOOTCODE : Fld := ⟨8, 8, .ro, 0⟩
/-- Offset of BSL_SEQ, R518. -/
def BSL_SEQ : Nat := 0x1100010
def BSL_SEQ_SEQ : Fld := ⟨0, 64, .ro, 0⟩
/-- Offset of BSL_LASTCOMMIT, R518. -/
def BSL_LASTCOMMIT : Nat := 0x1100018
def BSL_LASTCOMMIT_TIME : Fld := ⟨0, 64, .ro, 0⟩
/-- Offset of BSL_ERR, R518. -/
def BSL_ERR : Nat := 0x1100020
def BSL_ERR_REJECT : Fld := ⟨0, 1, .w1c, 0⟩
def BSL_ERR_FILL_LATE : Fld := ⟨1, 1, .w1c, 0⟩
def BSL_ERR_COMMITTED : Fld := ⟨2, 1, .w1c, 0⟩
/-- Offset of BSL_STGBASE, R518. -/
def BSL_STGBASE (n : Nat) : Nat := 0x1100100 + 0x20 * n
def BSL_STGBASE_BASE : Fld := ⟨12, 36, .rw, 0⟩
def BSL_STGBASE_SIZE : Fld := ⟨48, 16, .rw, 0⟩
/-- Offset of BSL_STGSTAT, R518. -/
def BSL_STGSTAT (n : Nat) : Nat := 0x1100108 + 0x20 * n
def BSL_STGSTAT_STATE : Fld := ⟨0, 3, .ro, 0⟩
def BSL_STGSTAT_CODE : Fld := ⟨8, 8, .ro, 0⟩
def BSL_STGSTAT_KECODE : Fld := ⟨16, 8, .ro, 0⟩
def BSL_STGSTAT_FRAME : Fld := ⟨24, 16, .ro, 0⟩
def BSL_STGSTAT_RECORD : Fld := ⟨40, 24, .ro, 0⟩
/-- Offset of BSL_STGSEQ, R518. -/
def BSL_STGSEQ (n : Nat) : Nat := 0x1100110 + 0x20 * n
def BSL_STGSEQ_SEQ : Fld := ⟨0, 64, .ro, 0⟩

def regs15 : List RegDef :=
  [⟨BSL_CMD, 0x0, 1, 0x0, 1, [BSL_CMD_OP, BSL_CMD_BUF]⟩,
   ⟨BSL_STAT, 0x0, 1, 0x0, 1, [BSL_STAT_CONFIG, BSL_STAT_SHBUF, BSL_STAT_BOOTCODE]⟩,
   ⟨BSL_SEQ, 0x0, 1, 0x0, 1, [BSL_SEQ_SEQ]⟩,
   ⟨BSL_LASTCOMMIT, 0x0, 1, 0x0, 1, [BSL_LASTCOMMIT_TIME]⟩,
   ⟨BSL_ERR, 0x0, 1, 0x0, 1, [BSL_ERR_REJECT, BSL_ERR_FILL_LATE, BSL_ERR_COMMITTED]⟩,
   ⟨BSL_STGBASE 0, 0x20, 4, 0x0, 1, [BSL_STGBASE_BASE, BSL_STGBASE_SIZE]⟩,
   ⟨BSL_STGSTAT 0, 0x20, 4, 0x0, 1, [BSL_STGSTAT_STATE, BSL_STGSTAT_CODE, BSL_STGSTAT_KECODE, BSL_STGSTAT_FRAME, BSL_STGSTAT_RECORD]⟩,
   ⟨BSL_STGSEQ 0, 0x20, 4, 0x0, 1, [BSL_STGSEQ_SEQ]⟩]

/-! Registers of spec/17_start_up_keys_and_live_update.md. -/
/-- Offset of UPD_CMD, R557. -/
def UPD_CMD : Nat := 0x1200000
def UPD_CMD_OP : Fld := ⟨0, 3, .wo, 0⟩
def UPD_CMD_SLOT : Fld := ⟨4, 2, .wo, 0⟩
def UPD_CMD_VERSION : Fld := ⟨16, 16, .wo, 0⟩
/-- Offset of UPD_STAT, R557. -/
def UPD_STAT : Nat := 0x1200008
def UPD_STAT_MODE : Fld := ⟨0, 1, .ro, 0⟩
def UPD_STAT_PHASE : Fld := ⟨1, 3, .ro, 0⟩
def UPD_STAT_CLUSTER : Fld := ⟨4, 4, .ro, 0⟩
def UPD_STAT_INDEX : Fld := ⟨8, 4, .ro, 0⟩
def UPD_STAT_RESULT : Fld := ⟨12, 4, .ro, 0⟩
def UPD_STAT_RUNVER : Fld := ⟨16, 16, .ro, 0⟩
def UPD_STAT_NEXTVER : Fld := ⟨32, 16, .ro, 0⟩
def UPD_STAT_SKIPMASK : Fld := ⟨48, 16, .ro, 0⟩
/-- Offset of UPD_BOOT, R557. -/
def UPD_BOOT : Nat := 0x1200010
def UPD_BOOT_STEP : Fld := ⟨0, 3, .ro, 1⟩
def UPD_BOOT_STATE : Fld := ⟨3, 2, .ro, 0⟩
def UPD_BOOT_FWSLOT : Fld := ⟨5, 1, .ro, 0⟩
def UPD_BOOT_PSLOT : Fld := ⟨6, 1, .ro, 0⟩
def UPD_BOOT_BSSLOT : Fld := ⟨7, 1, .ro, 0⟩
def UPD_BOOT_SECMODE : Fld := ⟨8, 1, .ro, 0⟩
/-- Offset of UPD_ERR, R557. -/
def UPD_ERR : Nat := 0x1200018
def UPD_ERR_ABANDON : Fld := ⟨0, 1, .w1c, 0⟩
def UPD_ERR_SKIP : Fld := ⟨1, 1, .w1c, 0⟩
def UPD_ERR_STOPPED : Fld := ⟨2, 1, .w1c, 0⟩
def UPD_ERR_REVOKE : Fld := ⟨3, 1, .w1c, 0⟩
/-- Offset of UPD_MIN, R557. -/
def UPD_MIN : Nat := 0x1200020
def UPD_MIN_FWMIN : Fld := ⟨0, 16, .ro, 0⟩
def UPD_MIN_PATCHMIN : Fld := ⟨16, 16, .ro, 0⟩
def UPD_MIN_ROWS : Fld := ⟨32, 8, .ro, 0⟩
/-- Offset of UPD_SEQMIN, R557. -/
def UPD_SEQMIN : Nat := 0x1200028
def UPD_SEQMIN_SEQ : Fld := ⟨0, 64, .ro, 0⟩
/-- Offset of UPD_REVSRC, R557. -/
def UPD_REVSRC : Nat := 0x1200030
def UPD_REVSRC_PA : Fld := ⟨0, 48, .rw, 0⟩
/-- Offset of UPD_REVSTAT, R557. -/
def UPD_REVSTAT : Nat := 0x1200038
def UPD_REVSTAT_STATE : Fld := ⟨0, 2, .ro, 0⟩
def UPD_REVSTAT_CODE : Fld := ⟨8, 3, .ro, 0⟩
/-- Offset of UPD_ENGVER, R557. -/
def UPD_ENGVER (e : Nat) : Nat := 0x1201000 + 0x8 * e
def UPD_ENGVER_VERSION : Fld := ⟨0, 16, .ro, 0⟩
/-- Offset of KE_CMD, R558. -/
def KE_CMD : Nat := 0xf00000
def KE_CMD_OP : Fld := ⟨0, 4, .wo, 0⟩
def KE_CMD_KSEL : Fld := ⟨4, 1, .wo, 0⟩
def KE_CMD_KSLOT : Fld := ⟨5, 2, .wo, 0⟩
def KE_CMD_DIR : Fld := ⟨7, 1, .wo, 0⟩
/-- Offset of KE_SRC, R558. -/
def KE_SRC : Nat := 0xf00008
def KE_SRC_PA : Fld := ⟨0, 48, .rw, 0⟩
/-- Offset of KE_DST, R558. -/
def KE_DST : Nat := 0xf00010
def KE_DST_PA : Fld := ⟨0, 48, .rw, 0⟩
/-- Offset of KE_LEN, R558. -/
def KE_LEN : Nat := 0xf00018
def KE_LEN_LEN : Fld := ⟨0, 32, .rw, 0⟩
/-- Offset of KE_STAT, R558. -/
def KE_STAT : Nat := 0xf00020
def KE_STAT_BUSY : Fld := ⟨0, 1, .ro, 0⟩
def KE_STAT_DONE : Fld := ⟨1, 1, .w1c, 0⟩
def KE_STAT_CODE : Fld := ⟨4, 4, .ro, 0⟩
/-- Offset of KE_CYCLES, R558. -/
def KE_CYCLES : Nat := 0xf00028
def KE_CYCLES_COUNT : Fld := ⟨0, 32, .ro, 0⟩

def regs17 : List RegDef :=
  [⟨UPD_CMD, 0x0, 1, 0x0, 1, [UPD_CMD_OP, UPD_CMD_SLOT, UPD_CMD_VERSION]⟩,
   ⟨UPD_STAT, 0x0, 1, 0x0, 1, [UPD_STAT_MODE, UPD_STAT_PHASE, UPD_STAT_CLUSTER, UPD_STAT_INDEX, UPD_STAT_RESULT, UPD_STAT_RUNVER, UPD_STAT_NEXTVER, UPD_STAT_SKIPMASK]⟩,
   ⟨UPD_BOOT, 0x0, 1, 0x0, 1, [UPD_BOOT_STEP, UPD_BOOT_STATE, UPD_BOOT_FWSLOT, UPD_BOOT_PSLOT, UPD_BOOT_BSSLOT, UPD_BOOT_SECMODE]⟩,
   ⟨UPD_ERR, 0x0, 1, 0x0, 1, [UPD_ERR_ABANDON, UPD_ERR_SKIP, UPD_ERR_STOPPED, UPD_ERR_REVOKE]⟩,
   ⟨UPD_MIN, 0x0, 1, 0x0, 1, [UPD_MIN_FWMIN, UPD_MIN_PATCHMIN, UPD_MIN_ROWS]⟩,
   ⟨UPD_SEQMIN, 0x0, 1, 0x0, 1, [UPD_SEQMIN_SEQ]⟩,
   ⟨UPD_REVSRC, 0x0, 1, 0x0, 1, [UPD_REVSRC_PA]⟩,
   ⟨UPD_REVSTAT, 0x0, 1, 0x0, 1, [UPD_REVSTAT_STATE, UPD_REVSTAT_CODE]⟩,
   ⟨UPD_ENGVER 0, 0x8, 208, 0x0, 1, [UPD_ENGVER_VERSION]⟩,
   ⟨KE_CMD, 0x0, 1, 0x0, 1, [KE_CMD_OP, KE_CMD_KSEL, KE_CMD_KSLOT, KE_CMD_DIR]⟩,
   ⟨KE_SRC, 0x0, 1, 0x0, 1, [KE_SRC_PA]⟩,
   ⟨KE_DST, 0x0, 1, 0x0, 1, [KE_DST_PA]⟩,
   ⟨KE_LEN, 0x0, 1, 0x0, 1, [KE_LEN_LEN]⟩,
   ⟨KE_STAT, 0x0, 1, 0x0, 1, [KE_STAT_BUSY, KE_STAT_DONE, KE_STAT_CODE]⟩,
   ⟨KE_CYCLES, 0x0, 1, 0x0, 1, [KE_CYCLES_COUNT]⟩]

/-! Registers of spec/18_ageing_margins_and_marigold.md. -/
/-- Offset of MRG_CTRL, R575. -/
def MRG_CTRL : Nat := 0xe00000
def MRG_CTRL_NOW : Fld := ⟨0, 1, .wo, 0⟩
/-- Offset of MRG_STAT, R575. -/
def MRG_STAT : Nat := 0xe00008
def MRG_STAT_BUSY : Fld := ⟨0, 1, .ro, 0⟩
def MRG_STAT_CLUSTER : Fld := ⟨1, 4, .ro, 0⟩
def MRG_STAT_HOURS : Fld := ⟨32, 32, .ro, 0⟩
/-- Offset of MRG_LASTTAI, R575. -/
def MRG_LASTTAI : Nat := 0xe00010
def MRG_LASTTAI_TAI : Fld := ⟨0, 64, .ro, 0⟩
/-- Offset of MRG_CLU, R575. -/
def MRG_CLU (c : Nat) : Nat := 0xe00100 + 0x20 * c
def MRG_CLU_ECLK : Fld := ⟨0, 16, .ro, 1500⟩
def MRG_CLU_VMV : Fld := ⟨16, 10, .ro, 800⟩
def MRG_CLU_TRIM : Fld := ⟨26, 6, .ro, 0⟩
def MRG_CLU_GUARD : Fld := ⟨32, 16, .ro, 0⟩
def MRG_CLU_LIFE : Fld := ⟨48, 16, .ro, 65535⟩
/-- Offset of MRG_CFL, R575. -/
def MRG_CFL (c : Nat) : Nat := 0xe00108 + 0x20 * c
def MRG_CFL_HELD : Fld := ⟨0, 1, .ro, 0⟩
def MRG_CFL_EXHAUSTED : Fld := ⟨1, 1, .ro, 0⟩
def MRG_CFL_NOSPARE : Fld := ⟨2, 1, .ro, 0⟩
def MRG_CFL_MARGINLOW : Fld := ⟨3, 1, .ro, 0⟩
def MRG_CFL_WEAKEST : Fld := ⟨8, 4, .ro, 0⟩
def MRG_CFL_G1400 : Fld := ⟨16, 16, .ro, 0⟩
/-- Offset of MRG_DOM, R575. -/
def MRG_DOM (d : Nat) : Nat := 0xe00400 + 0x8 * d
def MRG_DOM_RAIL : Fld := ⟨0, 10, .ro, 800⟩
/-- Offset of MRG_SENSSEL, R575. -/
def MRG_SENSSEL : Nat := 0xe00500
def MRG_SENSSEL_SENSOR : Fld := ⟨0, 11, .rw, 0⟩
/-- Offset of MRG_SENSVAL, R575. -/
def MRG_SENSVAL : Nat := 0xe00508
def MRG_SENSVAL_DELAY : Fld := ⟨0, 16, .ro, 0⟩
def MRG_SENSVAL_BASE : Fld := ⟨16, 16, .ro, 0⟩
/-- Offset of MGD_STAT, R575. -/
def MGD_STAT : Nat := 0xd00000
def MGD_STAT_HEAD : Fld := ⟨0, 13, .ro, 0⟩
def MGD_STAT_COUNT : Fld := ⟨16, 16, .ro, 0⟩
/-- Offset of MGD_LOST, R575. -/
def MGD_LOST : Nat := 0xd00008
def MGD_LOST_COUNT : Fld := ⟨0, 32, .ro, 0⟩
/-- Offset of MGD_DRAM, R575. -/
def MGD_DRAM : Nat := 0xd00010
def MGD_DRAM_HEAD : Fld := ⟨0, 21, .ro, 0⟩
def MGD_DRAM_WRAPS : Fld := ⟨32, 32, .ro, 0⟩
/-- Offset of MGD_FLASH, R575. -/
def MGD_FLASH : Nat := 0xd00018
def MGD_FLASH_HEAD : Fld := ⟨0, 17, .ro, 0⟩
def MGD_FLASH_BACKLOG : Fld := ⟨32, 16, .ro, 0⟩
/-- Offset of MGD_REC, R575. -/
def MGD_REC (r w : Nat) : Nat := 0xd40000 + 0x20 * r + 0x8 * w
def MGD_REC_ALL : Fld := ⟨0, 64, .ro, 0⟩

def regs18 : List RegDef :=
  [⟨MRG_CTRL, 0x0, 1, 0x0, 1, [MRG_CTRL_NOW]⟩,
   ⟨MRG_STAT, 0x0, 1, 0x0, 1, [MRG_STAT_BUSY, MRG_STAT_CLUSTER, MRG_STAT_HOURS]⟩,
   ⟨MRG_LASTTAI, 0x0, 1, 0x0, 1, [MRG_LASTTAI_TAI]⟩,
   ⟨MRG_CLU 0, 0x20, 16, 0x0, 1, [MRG_CLU_ECLK, MRG_CLU_VMV, MRG_CLU_TRIM, MRG_CLU_GUARD, MRG_CLU_LIFE]⟩,
   ⟨MRG_CFL 0, 0x20, 16, 0x0, 1, [MRG_CFL_HELD, MRG_CFL_EXHAUSTED, MRG_CFL_NOSPARE, MRG_CFL_MARGINLOW, MRG_CFL_WEAKEST, MRG_CFL_G1400]⟩,
   ⟨MRG_DOM 0, 0x8, 4, 0x0, 1, [MRG_DOM_RAIL]⟩,
   ⟨MRG_SENSSEL, 0x0, 1, 0x0, 1, [MRG_SENSSEL_SENSOR]⟩,
   ⟨MRG_SENSVAL, 0x0, 1, 0x0, 1, [MRG_SENSVAL_DELAY, MRG_SENSVAL_BASE]⟩,
   ⟨MGD_STAT, 0x0, 1, 0x0, 1, [MGD_STAT_HEAD, MGD_STAT_COUNT]⟩,
   ⟨MGD_LOST, 0x0, 1, 0x0, 1, [MGD_LOST_COUNT]⟩,
   ⟨MGD_DRAM, 0x0, 1, 0x0, 1, [MGD_DRAM_HEAD, MGD_DRAM_WRAPS]⟩,
   ⟨MGD_FLASH, 0x0, 1, 0x0, 1, [MGD_FLASH_HEAD, MGD_FLASH_BACKLOG]⟩,
   ⟨MGD_REC 0 0, 0x20, 8192, 0x8, 4, [MGD_REC_ALL]⟩]

/-! Registers of spec/19_host_register_views_pins_and_power.md. -/
/-- Offset of ID_PART, R581. -/
def ID_PART : Nat := 0x0
def ID_PART_PART : Fld := ⟨0, 16, .ro, 402⟩
def ID_PART_REV : Fld := ⟨16, 8, .ro, 160⟩
def ID_PART_SECMODE : Fld := ⟨24, 1, .ro, 0⟩
/-- Offset of ID_SERIAL, R581. -/
def ID_SERIAL : Nat := 0x8
def ID_SERIAL_SERIAL : Fld := ⟨0, 64, .ro, 0⟩
/-- Offset of ID_SVCMAC, R581. -/
def ID_SVCMAC : Nat := 0x10
def ID_SVCMAC_MAC : Fld := ⟨0, 48, .ro, 0⟩
/-- Offset of ID_FUSE, R581. -/
def ID_FUSE : Nat := 0x18
def ID_FUSE_REVOKED : Fld := ⟨0, 4, .ro, 0⟩
def ID_FUSE_DBG_EN : Fld := ⟨4, 1, .ro, 0⟩
/-- Offset of ID_DEVKEY, R581. -/
def ID_DEVKEY (k : Nat) : Nat := 0x100 + 0x8 * k
def ID_DEVKEY_ALL : Fld := ⟨0, 64, .ro, 0⟩
/-- Offset of HOST_LINK, R581. -/
def HOST_LINK : Nat := 0x200
def HOST_LINK_SPEED : Fld := ⟨0, 3, .ro, 0⟩
def HOST_LINK_WIDTH : Fld := ⟨3, 5, .ro, 0⟩
def HOST_LINK_FLIT : Fld := ⟨8, 1, .ro, 0⟩
def HOST_LINK_NUMVF : Fld := ⟨16, 12, .ro, 0⟩
/-- Offset of HOST_ERR, R581. -/
def HOST_ERR : Nat := 0x208
def HOST_ERR_FLR : Fld := ⟨0, 1, .w1c, 0⟩
def HOST_ERR_AERC : Fld := ⟨1, 1, .w1c, 0⟩
def HOST_ERR_AERU : Fld := ⟨2, 1, .w1c, 0⟩
/-- Offset of PIN_CFG, R592. -/
def PIN_CFG (n : Nat) : Nat := 0x1000000 + 0x8 * n
def PIN_CFG_FUNC : Fld := ⟨0, 3, .ro, 0⟩
def PIN_CFG_PULL : Fld := ⟨3, 2, .ro, 1⟩
def PIN_CFG_DRIVE : Fld := ⟨5, 2, .ro, 0⟩
/-- Offset of PIN_GPIO_IN, R592. -/
def PIN_GPIO_IN : Nat := 0x1000100
def PIN_GPIO_IN_LEVEL : Fld := ⟨0, 32, .ro, 0⟩
/-- Offset of PIN_GPIO_OUT, R592. -/
def PIN_GPIO_OUT : Nat := 0x1000108
def PIN_GPIO_OUT_LEVEL : Fld := ⟨0, 32, .rw, 0⟩

def regs19 : List RegDef :=
  [⟨ID_PART, 0x0, 1, 0x0, 1, [ID_PART_PART, ID_PART_REV, ID_PART_SECMODE]⟩,
   ⟨ID_SERIAL, 0x0, 1, 0x0, 1, [ID_SERIAL_SERIAL]⟩,
   ⟨ID_SVCMAC, 0x0, 1, 0x0, 1, [ID_SVCMAC_MAC]⟩,
   ⟨ID_FUSE, 0x0, 1, 0x0, 1, [ID_FUSE_REVOKED, ID_FUSE_DBG_EN]⟩,
   ⟨ID_DEVKEY 0, 0x8, 12, 0x0, 1, [ID_DEVKEY_ALL]⟩,
   ⟨HOST_LINK, 0x0, 1, 0x0, 1, [HOST_LINK_SPEED, HOST_LINK_WIDTH, HOST_LINK_FLIT, HOST_LINK_NUMVF]⟩,
   ⟨HOST_ERR, 0x0, 1, 0x0, 1, [HOST_ERR_FLR, HOST_ERR_AERC, HOST_ERR_AERU]⟩,
   ⟨PIN_CFG 0, 0x8, 32, 0x0, 1, [PIN_CFG_FUNC, PIN_CFG_PULL, PIN_CFG_DRIVE]⟩,
   ⟨PIN_GPIO_IN, 0x0, 1, 0x0, 1, [PIN_GPIO_IN_LEVEL]⟩,
   ⟨PIN_GPIO_OUT, 0x0, 1, 0x0, 1, [PIN_GPIO_OUT_LEVEL]⟩]

/-! The Steward mailbox of 19 R582: request area, reply area and doorbell. -/
def MBX_REQ (n : Nat) : Nat := 0x10000 + 0x8 * n
def MBX_REQ_ALL : Fld := ⟨0, 64, .rw, 0⟩
def MBX_REP (n : Nat) : Nat := 0x11000 + 0x8 * n
def MBX_REP_ALL : Fld := ⟨0, 64, .rw, 0⟩
def MBX_DOOR : Nat := 0x12000
def MBX_DOOR_REQ : Fld := ⟨0, 1, .rw, 0⟩
def MBX_DOOR_REPLY : Fld := ⟨1, 1, .rw, 0⟩

/-- Base of the outbound window in host memory, 19 R588. -/
def HOST_OUTBASE : Nat := 0x210
def HOST_OUTBASE_ALL : Fld := ⟨0, 64, .rw, 0⟩

def regsMbx : List RegDef :=
  [⟨MBX_REQ 0, 8, 512, 0, 1, [MBX_REQ_ALL]⟩, ⟨MBX_REP 0, 8, 512, 0, 1, [MBX_REP_ALL]⟩,
   ⟨MBX_DOOR, 0, 1, 0, 1, [MBX_DOOR_REQ, MBX_DOOR_REPLY]⟩,
   ⟨HOST_OUTBASE, 0, 1, 0, 1, [HOST_OUTBASE_ALL]⟩]

end Reg

/-- All registers of the platform view. -/
def regTable : List RegDef :=
  Reg.regs01 ++ Reg.regs02 ++ Reg.regs03 ++ Reg.regs05 ++ Reg.regs06 ++ Reg.regs08 ++ Reg.regs09 ++ Reg.regs10 ++ Reg.regs11 ++ Reg.regs12 ++ Reg.regs13 ++ Reg.regs14 ++ Reg.regs15 ++ Reg.regs17 ++ Reg.regs18 ++ Reg.regs19 ++ Reg.regsMbx

end Sys2Proof.Machine
end

