-- ==== Sys2Proof/Machine/StateIo.lean ====
section
/-! DEFINITION. The state of the queues, ports, loader, key engine, flash, margin planner and host interfaces. -/
namespace Sys2Proof.Machine

/-! Queues and buffers, 13. -/

/-- State of a buffer that is not FREE, 13 R454: tenant and queue. -/
inductive Own where
  | held (t q : Nat)
  | queued (t q : Nat)
  deriving DecidableEq, Repr

/-- One queue, 13 R443, R459 to R467. -/
structure QState where
  /-- Descriptors, oldest first. -/
  ring : List Word
  dropping : Bool
  shed : Bool
  fault : Bool
  /-- Instant since which it holds a port in backpressure without a break. -/
  back : Option Nat
  /-- TOKEN, WMARK, NOBUF, TOOLONG, STALL and SWFULL, by bit of 13 R465. -/
  drops : Sparse Nat
  enqueued : Nat
  /-- Reasons of the drops in the present TAI second. -/
  second : Nat
  deriving DecidableEq, Repr

def QState.reset : QState := ⟨[], false, false, false, none, [], 0, 0⟩

/-- A frame or message classified to a queue, 13 R458 and 14 R485. -/
structure IFrame where
  port : Nat
  entry : Nat
  kind : Nat
  q : Nat
  /-- The bytes of the buffer. -/
  data : List Byte
  /-- Where it waits: an Ethernet class 0 to 2, or 8 plus the virtual channel. -/
  lane : Nat
  /-- Flits whose credits return when it leaves. -/
  flits : Nat
  /-- Ethernet link, and priority of its tag. -/
  link : Nat
  pcp : Nat
  /-- It has been refused at step 3 of 13 R458. -/
  tok : Bool
  deriving DecidableEq, Repr

/-- The queue engines, 13. -/
structure Qm where
  queues : Sparse QState
  /-- The owner table, 13 R454; an unlisted buffer is FREE. -/
  own : Sparse (Option Own)
  /-- Freed buffers of a share, last freed first, 13 R448. -/
  freed : Sparse (List Nat)
  /-- POOL_EMPTY results by share and by pool. -/
  empty : Sparse Nat
  poolEmpty : Sparse Nat
  /-- Round-robin pointer of a pool: one more than the last winner, 13 R448. -/
  rr : Sparse Nat
  /-- What a bucket lacked of BURST, in bytes times 8,000, and in which µs of the monotonic tick, 13 R460. -/
  deficit : Sparse (Nat × Nat)
  /-- QM_TBSTAT.DROPS by tenant. -/
  refused : Sparse Nat
  /-- Frames that await admission, oldest first. -/
  classified : List IFrame
  /-- Frames in backpressure by 16 times the port plus lane, oldest first. -/
  waiting : Sparse (List IFrame)
  /-- Admitted frames whose descriptor is not posted, with their buffers. -/
  admitted : List (IFrame × Nat)
  deriving DecidableEq, Repr

def Qm.reset : Qm := ⟨[], [], [], [], [], [], [], [], [], [], []⟩

/-! Ports, 14. -/

/-- A DATA flit that waits to be sent, and the port and virtual channel whose buffer it still occupies. -/
structure TxFlit where
  /-- Link header without SEQ and ACK. -/
  hdr : Nat
  body : List Byte
  src : Option (Nat × Nat)
  deriving DecidableEq, Repr

/-- A sequenced flit in the retry buffer, 14 R473: link header without ACK, and body. -/
structure RetryFlit where
  seq : Nat
  hdr : Nat
  body : List Byte
  deriving DecidableEq, Repr

/-- The peer-delay and two-step exchange of an Ethernet port's clock, 14 R489. -/
structure PtpClock where
  reqSeq : Nat
  reqAt : Option Nat
  /-- Receipt instant of our request at the peer, and ingress of its response. -/
  respRx : Option Nat
  respIn : Option Nat
  delay : Int
  syncSeq : Nat
  syncIn : Option Nat
  corr : Int
  deriving DecidableEq, Repr

def PtpClock.reset : PtpClock := ⟨0, none, none, none, 0, 0, none, 0⟩

/-- One port, 14. -/
structure OPort where
  /-- Next SEQ expected; a NAK has been sent since the last accepted flit; flits accepted since the last ACK (14 R473). -/
  rxSeq : Nat
  naked : Bool
  unacked : Nat
  txSeq : Nat
  /-- The retry buffer, oldest first. -/
  retry : List RetryFlit
  /-- Credits held for the partner's buffers and credits owed to it, by virtual channel (14 R476). -/
  credit : Sparse Nat
  owed : Sparse Nat
  /-- Flits in the receive buffer: link header and body. -/
  rx : Sparse (List (Nat × List Byte))
  /-- Flits that wait to be sent. -/
  tx : Sparse (List TxFlit)
  /-- Last data virtual channel served, and which of the last 15 flits were of VC1 to VC3 (14 R477). -/
  rr : Nat
  recent : List Bool
  /-- NAK and lane command that the next CTRL flit carries. -/
  nak : Option Nat
  laneCmd : Option (Nat × Nat)
  /-- Good DISC flits in a row with one ID and port, 14 R482. -/
  disc : Nat
  /-- Instant of release on the monotonic tick; messages admitted in the present second (14 R483). -/
  released : Nat
  mgmt : Nat × Nat
  /-- Replays in the present second, 14 R496. -/
  replays : Nat × Nat
  /-- Egress of our last PTP flit and ingress of the partner's last one, 14 R490. -/
  ptpOut : Option Nat
  ptpIn : Option Nat
  clock : PtpClock
  /-- End of the pause of a priority that the partner asked for, by 8 times the link plus priority (14 R486). -/
  paused : Sparse Nat
  /-- Instants on the monotonic tick at which the next ACK, DISC flit and PTP flit fall due (14 R473, R482, R490), and that of the last DISC flit received. -/
  ackDue : Nat
  discDue : Nat
  ptpDue : Nat
  discIn : Nat
  /-- Since when a transit message at the head of a virtual channel waits for an outbound credit, 14 R478. -/
  stuck : Sparse (Option Nat)
  /-- Discovery and management messages sent in the present second, 14 R483. -/
  mgmtOut : Nat × Nat
  /-- The removed lane: whether this end found the failure, the earliest instant of its return, and the instant of the last return (14 R494). -/
  laneOwn : Bool
  laneDue : Nat
  rejoined : Option Nat
  /-- The instant at which each link went down, 14 R495. -/
  downAt : Sparse Nat
  deriving DecidableEq, Repr

def OPort.reset : OPort :=
  { rxSeq := 0, naked := false, unacked := 0, txSeq := 0, retry := [], credit := [], owed := [], rx := [], tx := [], rr := 0, recent := [],
    nak := none, laneCmd := none, disc := 0, released := 0, mgmt := (0, 0), replays := (0, 0), ptpOut := none, ptpIn := none,
    clock := PtpClock.reset, paused := [], ackDue := 0, discDue := 0, ptpDue := 0, discIn := 0, stuck := [], mgmtOut := (0, 0),
    laneOwn := false, laneDue := 0, rejoined := none, downAt := [] }

/-! Loader, key engine, flash and service port, 15 and 17. -/

/-- One record of a bitstream, 15 R502. -/
structure Rec where
  ty : Nat
  kind : Nat
  key : Nat
  remove : Bool
  words : List Word
  deriving DecidableEq, Repr

/-- The bitstream loader beside its registers, 15. -/
structure Bsl where
  /-- Buffers CHECKING, in order of command. -/
  stages : List Nat
  /-- Records and SEQ of the delta in the shadow copies, 15 R511. -/
  shadow : List Rec
  shadowSeq : Nat
  /-- The COMMIT entry that armed the shadow. -/
  entry : Option Nat
  deriving DecidableEq, Repr

def Bsl.reset : Bsl := ⟨[], [], 0, none⟩

/-- The key engine beside its registers, 17 R546. -/
structure KeyEng where
  /-- Key slots 0 to 3 and the secret of the last ECDH. -/
  slots : Sparse (List Byte)
  secret : List Byte
  /-- The operation that runs: the word of KE_CMD. -/
  cmd : Nat
  /-- The XCLK in which that operation began. -/
  began : Nat
  deriving DecidableEq, Repr

def KeyEng.reset : KeyEng := ⟨[], [], 0, 0⟩

/-- What the fuses hold, 17 R536 to R555. -/
structure FuseState where
  owner : List (BitVec 384)
  devKey : BitVec 384
  classKey : BitVec 384
  /-- Fuse rows used of each kind: firmware, patch, bitstream. -/
  rows : List Nat
  /-- Time-zero delays of the ageing sensors. -/
  base : Sparse Nat
  deriving DecidableEq, Repr

def FuseState.reset : FuseState := ⟨[], 0, 0, [0, 0, 0], []⟩

/-- A reply of the service port, 17 R544. -/
structure SvcReply where
  op : Nat
  code : Nat
  seq : Nat
  data : List Byte
  deriving DecidableEq, Repr

/-- Boot flash, the service port and start-up, 17. -/
structure Boot where
  /-- Bytes of the boot flash; an unlisted byte reads 0xFF. -/
  flash : Sparse Byte
  fuses : FuseState
  /-- Open session: KIND and LENGTH; the image buffer; the last 16 replies, newest first. -/
  session : Option (Nat × Nat)
  image : Sparse Byte
  replies : List SvcReply
  /-- End of step 7 on the monotonic tick. -/
  upAt : Option Nat
  /-- PORST_N is low. -/
  inReset : Bool
  /-- Engines whose comparator test will fail at step 5, as the release of PORST_N met them (10 R370). -/
  failing : List Nat
  deriving DecidableEq, Repr

def Boot.reset : Boot := ⟨[], FuseState.reset, none, [], [], none, false, []⟩

/-! Margin planner and thermal, 18 and 19. -/

/-- The margin planner beside its registers, 18. -/
structure Mrg where
  /-- Last converted delay of each sensor, ps. -/
  delay : Sparse Nat
  /-- ECLK of each cluster now, MHz, and the voltage of each cluster, mV. -/
  eclk : Sparse Nat
  volt : Sparse Nat
  /-- A survey fell due while one runs. -/
  due : Bool
  /-- Clusters whose plan is decided again when their swap is done, 18 R567. -/
  again : Sparse Bool
  /-- Tj has reached 110 °C and has not fallen below 100 °C. -/
  hot : Bool
  /-- A rail write of the plan has failed three repeats, 19 R597. -/
  avsFail : Sparse Bool
  /-- A plan decided and held, 18 R566: ECLK and voltage. -/
  held : Sparse (Option (Nat × Nat))
  /-- THERMTRIP_N is low. -/
  trip : Bool
  /-- Start of the last survey on the monotonic tick. -/
  started : Nat
  /-- Clusters whose plan the survey that runs has decided, 18 R562. -/
  read : Nat
  /-- By cluster, the largest delay at 850 mV that the last decision found, ps, 18 R568. -/
  worst : Sparse Nat
  /-- By cluster, when the next step of ECLK is due on the monotonic tick, 18 R565. -/
  stepAt : Sparse Nat
  deriving DecidableEq, Repr

def Mrg.reset : Mrg := ⟨[], [], [], false, [], false, [], [], false, 0, 0, [], []⟩

/-! Host interfaces, 19. -/

/-- A JTAG instruction, 19 R590. -/
inductive JInstr where
  | bypass
  | idcode
  | sample
  | extest
  | extestPulse
  | extestTrain
  | clamp
  | highz
  | debug
  deriving DecidableEq, Repr

/-- How a host request completes, 19 R585: with Successful Completion, Unsupported Request, Completer Abort or Request Retry Status. -/
inductive PciStatus where
  | success
  | unsupported
  | abort
  | retry
  deriving DecidableEq, Repr

/-- PCIe, JTAG and sideband state, 19. -/
structure HostIf where
  /-- Configuration space written by the host, by 1,024 times the function plus register. -/
  config : Sparse (BitVec 32)
  jtag : JInstr
  /-- The boundary-scan register's preloaded bits. -/
  boundary : List Bool
  /-- Address and data words of the MSI-X tables, by 2,048 times the function plus 2 times the entry plus the word. -/
  msix : Sparse Word
  deriving DecidableEq, Repr

/-- The JTAG instruction at reset is IDCODE (log entry 46). -/
def HostIf.reset : HostIf := ⟨[], .idcode, [], []⟩

end Sys2Proof.Machine
end

