-- ==== Sys2Proof/Machine/StateEngine.lean ====
section
/-! DEFINITION. The state of one physical engine: register banks, core, checkpoint, gated stores, vector stream unit, chain ring and control stores. -/
namespace Sys2Proof.Machine

/-- The six save-set registers of a level, 09 R343. -/
structure SaveSet where
  epc : Word
  estat : Word
  ecause : Word
  eaddr : Word
  eprog : Word
  escr : Word
  deriving DecidableEq, Repr

/-- The save set after reset: ESTAT has IML 15 and SAVED 1, 09 R343. -/
def SaveSet.reset : SaveSet := ⟨0, 0x7C00, 0, 0, 0, 0⟩

/-- A held exception, 09 R312: the cause word as the target would receive it and the other registers of the entry. -/
structure HeldRec where
  ecause : Word
  eaddr : Word
  eprog : Word
  escr : Word
  target : Nat
  /-- Delivered to its target level, 09 R313. -/
  sent : Bool
  deriving DecidableEq, Repr

/-- When the reported vector fault of a bank is taken, 03 R110 and R117: at a boundary after its report, after the SLOT_EXPIRED handler returns (with the entries to S that are nested in that handler), or before the next instruction. -/
inductive FaultGate where
  | free
  | behind (nested : Nat)
  | due
  deriving DecidableEq, Repr

/-- One register bank, 07 R246 and 09 R333. -/
structure Bank where
  /-- G0 to G31; an unlisted register holds data 0 with tag EMPTY (07 R247). -/
  g : Sparse TWord
  /-- F0 to F31; an unlisted register holds 0. V0 to V7 overlay them (04 R167). -/
  f : Sparse Word
  astat : Word
  vfcsr : Word
  /-- CHOP0 to CHOP3, 05 R172. -/
  chop : Sparse Word
  save : SaveSet
  evec : Word
  /-- Resume point: address and level, 09 R333. -/
  rpc : Nat
  rlev : Nat
  held : Option HeldRec
  heldpc : Nat
  heldlev : Nat
  /-- Slot number of the preempted slot to report with SLOT_EXPIRED, 01 R36. -/
  slotExp : Option Nat
  /-- Slot number of this bank's last slot when it was preempted while RUNNING, 01 R36. -/
  preempted : Option Nat
  /-- The exception of the bank's reported vector fault has been taken. -/
  faultTaken : Bool
  gate : FaultGate
  /-- Image address recorded by BANKSAVE and BANKLOAD, 09 R334. -/
  img : Option Nat
  /-- The nine dirty bits, 09 R334. -/
  dirty : Nat
  deriving DecidableEq, Repr

/-- Bank `b` after power-on reset: at M the mask fields of ESTAT are RSV (09 R343), and the resume point stands at the bank's level (09 R307). -/
def Bank.reset (b : Nat) : Bank :=
  { g := [], f := [], astat := 0, vfcsr := 0x10000, chop := [], save := { SaveSet.reset with estat := if b = 7 then 0x4000 else 0x7C00 }, evec := 0, rpc := 0, rlev := if b = 7 then 3 else if b = 6 then 2 else 1,
    held := none, heldpc := 0, heldlev := 0, slotExp := none, preempted := none, faultTaken := false, gate := .free, img := none, dirty := 0 }

/-- A prompt entry that waits, 09 R323: `inRec` marks a firing that arrived during a recovery and is delivered when it ends (10 R361), and `late` one that waits for the end of the tenant slot, whose budget counter is below 2,512. -/
structure PromptHold where
  src : Nat
  inRec : Bool
  late : Bool
  deriving DecidableEq, Repr

/-- An error response to a released store (07 R271), or to an access already sent that a main-path entry left (09 R322): the bank, and the cause, EADDR and ESCR of the exception. -/
structure DefErr where
  bank : Nat
  cause : Nat
  ea : Nat
  escr : Nat
  deriving DecidableEq, Repr

/-- The control core's architectural state, which a checkpoint copies: 10 R351. -/
structure Core where
  /-- Banks 0 to 7. -/
  banks : Sparse Bank
  /-- Running bank and level, 09 R307. -/
  run : Nat
  lev : Nat
  pc : Nat
  /-- The core executes nothing: an idle gap, the rest of an idle slot, or a HELD bank. -/
  idle : Bool
  mdeleg : Word
  pdeleg : Word
  nitime : Nat
  fehvec : Word
  banksel : Nat
  /-- The Fixed Escalation Handler runs, and the frames on its stack, 09 R328 to R332. -/
  feh : Bool
  fehDepth : Nat
  /-- FEHVEC has been written since power-on (RWL, 00 R7). -/
  fehLocked : Bool
  /-- A platform-time context that stopped and continues in the next platform time (10 R363): bank, level and address. -/
  plat : Option (Nat × Nat × Nat)
  /-- The prompt entry that waits. -/
  promptHeld : Option PromptHold
  /-- The prompt handler runs, with the number of entries to M that interrupted it and have not returned. -/
  prompting : Option Nat
  /-- Error responses that wait for an instruction boundary of their bank, oldest first. -/
  deferred : List DefErr
  deriving DecidableEq, Repr

/-- The core after power-on reset: bank 7 at M level (07 R280, 09 R344). -/
def Core.reset : Core :=
  { banks := [], run := 7, lev := 3, pc := 0, idle := false, mdeleg := 0, pdeleg := 0, nitime := 0, fehvec := 0,
    banksel := 0, feh := false, fehDepth := 0, fehLocked := false, plat := none, promptHeld := none, prompting := none, deferred := [] }

/-- One gated store, 10 R353: up to 32 bytes with the tags of the words written. -/
structure GStore where
  bank : Nat
  pa : Nat
  /-- The address as software presented it, for a deferred error (07 R271). -/
  ea : Nat
  bytes : List Byte
  /-- Tag given to each word the store touches, in ascending order. -/
  tags : List Tag
  keyid : Nat
  deriving DecidableEq, Repr

/-- A checkpoint commit made and not yet complete, 10 R353. -/
structure Commit where
  core : Core
  /-- Gated stores of the interval, which completion releases. -/
  nstores : Nat
  /-- Bank and entry of the long-vector instruction at whose issue the commit was made, 10 R355. -/
  lv : Option (Nat × Nat)
  deriving DecidableEq, Repr

/-- One operation of an instruction form or of a chain step, 03 R92 and 05 R172. -/
structure PipeOp where
  pipe : Nat
  opc : Nat
  md : Nat
  deriving DecidableEq, Repr

/-- One step of a chain, 05 R171 to R173, with the scalar read at issue. -/
structure ChainStep where
  op : PipeOp
  rtype : Nat
  sely : Nat
  selz : Nat
  scalar : Nat
  deriving DecidableEq, Repr

/-- FORM of a long-vector instruction, 03 R90 and R92. -/
inductive LvForm where
  | op (o : PipeOp)
  | chain (steps : List ChainStep)
  | copy
  | fill
  deriving DecidableEq, Repr

/-- A line range held by a stream, 03 R122, in whole lines, with whether the stream writes. -/
structure LRange where
  lo : Nat
  hi : Nat
  wr : Bool
  deriving DecidableEq, Repr

/-- One unfinished long-vector instruction, 03 R81: the copied operands and the progress. -/
structure LvEntry where
  /-- Entry number: 0 to 3 on the engine port, 4 and 5 on the mover (03 R111). -/
  qe : Nat
  form : LvForm
  /-- Copied descriptors of A, B, C and D, words 0 and 1 (03 R84). -/
  a : Option (Word × Word)
  b : Option (Word × Word)
  c : Option (Word × Word)
  d : Option (Word × Word)
  /-- The scalar operand read at issue (03 R93). -/
  scalar : Option Nat
  vt : Nat
  pc : Nat
  lev : Nat
  /-- VFCSR as sampled at issue (04 R164, R165). -/
  vfcsr : Nat
  /-- First governing element not committed. -/
  elem : Nat
  /-- Rewinds of the block at ELEM in a row, 10 R366. -/
  rewinds : Nat
  /-- Partial results carried across blocks (04 R158, R160). -/
  carry : List Nat
  carryv : Bool
  foff : Nat
  fstr : Nat
  cstep : Nat
  valid : Bool
  deferred : Bool
  ranges : List LRange
  /-- Line writes of committed blocks outside the own LVS that are not yet acknowledged: first governing element of the block, and the response that is coming. -/
  unacked : List (Nat × Nat)
  /-- Governing element at which the header of the ring source was compared, and that of the ring destination sent, since the stream last started (05 R182). -/
  inBase : Option Nat
  outBase : Option Nat
  deriving DecidableEq, Repr

/-- A long-vector fault as it will be reported, 03 R110 to R112. -/
structure VFault where
  cause : Nat
  eaddr : Nat
  eprog : Word
  escr : Nat
  deriving DecidableEq, Repr

/-- The queues of one bank, 03 R81 and R118. -/
structure BankVsu where
  /-- Unfinished instructions of both queues in issue order. -/
  ents : List LvEntry
  /-- Instructions that CLEAR discarded and whose committed writes still drain, 03 R115. -/
  drain : List LvEntry
  frozen : Bool
  fault : Option VFault
  vqsel : Nat
  deriving DecidableEq, Repr

def BankVsu.reset : BankVsu := ⟨[], [], false, none, 0⟩

/-- Writes of one block to one line, which wait for the block's commit, 03 R97 and 05 R187. -/
structure HeldWrite where
  /-- Line address. -/
  pa : Nat
  data : List (Nat × Byte)
  tags : List (Nat × Tag)
  keyid : Nat
  deriving DecidableEq, Repr

/-- A computed block of a ring member that awaits its decision, 05 R186 and R187. -/
structure RingBlock where
  blk : Nat
  /-- First governing element, and the one after the last. -/
  lo : Nat
  next : Nat
  writes : List HeldWrite
  flags : Nat
  carry : List Nat
  carryv : Bool
  good : Bool
  /-- Chain-in beats whose credits the tail returns at commit, 05 R184. -/
  beats : Nat
  bank : Nat
  qe : Nat
  deriving DecidableEq, Repr

/-- Why a chain freezes, 05 R192. -/
structure FreezeInfo where
  blk : Nat
  eng : Nat
  pos : Nat
  cause : Nat
  reason : Nat
  deriving DecidableEq, Repr

/-- What travels downstream on a ring link, 05 R181 to R196. A beat that two blocks share travels as one part for each, the second marked `rest`. -/
inductive LinkItem where
  | header (n start : Nat)
  | beat (tag : Tag) (bytes : List Byte) (rest : Bool)
  | endMarker (good : Bool)
  | rewindMarker
  | pauseMarker
  | freeze (i : FreezeInfo)
  deriving DecidableEq, Repr

/-- What travels upstream on a ring link, 05 R178. -/
inductive UpItem where
  | credit (n : Nat)
  | commit (blk : Nat)
  | freeze (i : FreezeInfo)
  deriving DecidableEq, Repr

/-- The ring side of an engine, 05 R178 to R198. -/
structure Ring where
  /-- Items on the link into this engine, oldest first. -/
  inLink : List LinkItem
  /-- Items coming back from the consumer, oldest first. -/
  upLink : List UpItem
  /-- The chain-in buffer: headers, beats and end markers received and not consumed. -/
  cin : List LinkItem
  /-- Beats are kept: a header has come since the last freeze. -/
  synced : Bool
  credit : Nat
  /-- Blocks computed and undecided, oldest first. -/
  blocks : List RingBlock
  freeze : Option FreezeInfo
  /-- The fault that this engine originated, until its freeze completes. -/
  own : Option VFault
  /-- The bank whose CLEAR originated the freeze, until it completes (05 R190). -/
  cleared : Option Nat
  /-- The chain is lost until it is redefined (05 R198). -/
  lost : Bool
  deriving DecidableEq, Repr

def Ring.reset : Ring := ⟨[], [], [], false, 64, [], none, none, none, false⟩

/-- The writable control stores of an engine, 08 R286 to R288. -/
structure UStore where
  /-- Patch RAM and customer area words by micro-address. -/
  words : Sparse (BitVec 144)
  /-- Patch trap table: ROM address and patch address by enabled entry. -/
  traps : Sparse (Nat × Nat)
  deriving DecidableEq, Repr

/-- What the response of an access already sent does: an LD-shaped load with its size and signedness, LD.X, a load of F, a locked load, a locked store, or an acknowledgement. -/
inductive PendKind where
  | load (size : Nat) (signed : Bool) (anyTag : Bool)
  | fload (size : Nat)
  | vload (etype : Nat)
  | lkld
  | lkst
  | ack
  deriving DecidableEq, Repr

/-- A non-idempotent access whose response is awaited, 10 R354: the bank and register it writes, the address, the address of its instruction and
of the instruction after it, the G registers that it writes beside its result (07 R269 and R284), and whether an entry has left it (09 R322). -/
structure PendAccess where
  bank : Nat
  rd : Nat
  kind : PendKind
  pa : Nat
  ea : Nat
  pc : Nat
  next : Nat
  post : List (Nat × TWord)
  left : Bool
  /-- The response when it has come back: code and words. -/
  result : Option (Nat × List TWord)
  deriving DecidableEq, Repr

/-- An instruction that has begun and that a main-path entry awaits in full: a REP.N, or BANKSAVE or BANKLOAD (09 R322): its bank and address. -/
structure Busy where
  bank : Nat
  pc : Nat
  bankCmd : Bool
  deriving DecidableEq, Repr

/-- One physical engine. -/
structure Engine where
  core : Core
  /-- The checkpoint store, 10 R351. -/
  ckpt : Core
  commit : Option Commit
  stores : List GStore
  /-- Released stores that are not yet visible, oldest first (11 R395), and whether the first one waits at its slice. -/
  out : List GStore
  outSent : Bool
  /-- Instructions completed since the last commit, 10 R352. -/
  icount : Nat
  /-- The bank that opened the lock the engine holds, 07 R272 and 11 R403. -/
  lock : Option Nat
  vsu : Sparse BankVsu
  ring : Ring
  ustore : UStore
  /-- Stopped: unfit or retired, or parked by PORST_N. -/
  stopped : Bool
  /-- Halted by JTAG DEBUG, 16 R532. -/
  halted : Bool
  /-- The core's prompt buffer of 32 words (09 R319), and a copy in progress. -/
  prompt : List TWord
  promptCopy : Option Nat
  /-- Platform time may start nothing before the next delivery, 10 R363. -/
  cutoff : Bool
  /-- The slot whose part runs now: a slot number, and whether the tenant still runs. -/
  inSlot : Option Nat
  /-- Closing waits for the end of a recovery or of a prompt handler (10 R363, 09 R324). -/
  closePending : Bool
  /-- A slot start delivered during a recovery in platform time, 10 R363. -/
  startPending : Option Nat
  /-- Recoveries begun in the reserve of the current slot, 01 R34. -/
  reserveRec : Nat
  /-- Accesses sent and not answered, oldest first. -/
  pend : List PendAccess
  busy : Option Busy
  /-- A FENCE or an access waits with its commit made, 10 R352 and R354. -/
  fenced : Bool
  /-- The instant at which the last closing sequence began, on the monotonic tick. -/
  closeAt : Nat
  /-- Role that the engine takes at the end of its takeover. -/
  retireRole : Nat
  /-- Bank and entry of a long-vector instruction that has just issued, for the commit that follows. -/
  newLv : Option (Nat × Nat)
  /-- Instants of the last recoveries on the monotonic tick, newest first (10 R367). -/
  recHist : List Nat
  /-- GEN[39:0] and epoch by tenant, 09 R338. -/
  gen : Sparse Nat
  deriving DecidableEq, Repr

/-- An engine after power-on reset; it starts in start-up step 7. -/
def Engine.reset : Engine :=
  { core := Core.reset, ckpt := Core.reset, commit := none, stores := [], out := [], outSent := false, icount := 0, lock := none, vsu := [],
    ring := Ring.reset, ustore := ⟨[], []⟩, stopped := true, halted := false, prompt := [],
    promptCopy := none, cutoff := false, inSlot := none, closePending := false, startPending := none,
    reserveRec := 0, pend := [], busy := none, fenced := false, closeAt := 0, retireRole := 2, newLv := none, recHist := [], gen := [] }

end Sys2Proof.Machine
end

