-- ==== Sys2Proof/Machine/StateUnits.lean ====
section
/-! DEFINITION. The state of the units outside the engines: timebase, memory, interrupt controller, event recorder. -/
namespace Sys2Proof.Machine

/-- One PHREF phase, 02 R49. -/
structure Phase where
  /-- Good periods in a row, to 16. -/
  good : Nat
  /-- Edges of those periods that departed by no more than 5.625 degrees, in a row. -/
  near : Nat
  /-- Bad cycles in a row, to 4. -/
  bad : Nat
  /-- Monotonic instant of the last rising edge, and whether there was one. -/
  rise : Option Nat
  /-- Measured period, in ns. -/
  period : Nat
  /-- An edge of the running cycle departed too far. -/
  far : Bool
  deriving DecidableEq, Repr

def Phase.reset : Phase := ⟨0, 0, 0, none, 0, false⟩

/-- A trigger firing delayed by the matcher, with the contents at its due XCLK (02 R67). -/
structure Delayed where
  n : Nat
  triga : Word
  trigb : Word
  /-- A platform write reached the entry since. -/
  written : Bool
  /-- It fell due in an earlier XCLK. -/
  old : Bool
  /-- The unit was LOCKED in the XCLK in which it fell due, 02 R70. -/
  locked : Bool
  deriving DecidableEq, Repr

/-- A new level of an edge detector's input that has not yet held for FILT, 02 R74: the level, the TIME and TAI of its first XCLK, and the number of that XCLK. -/
structure EdgeCand where
  level : Bool
  time : Nat
  tai : Nat
  xclk : Nat
  deriving DecidableEq, Repr

/-- The Gavotte timebase beside its registers, 02. -/
structure Gav where
  /-- The 64-bit angle accumulator, 02 R41. -/
  acc : Nat
  /-- The accumulator before the last XCLK, and the number of XCLK since reset. -/
  prev : Nat
  xclk : Nat
  /-- The cycle count, 02 R44. -/
  cyc : Nat
  /-- TAI in ns, 02 R58, and the monotonic tick in ns, 02 R60. -/
  tai : Nat
  mono : Nat
  /-- Change of the TAI rate while the unit slews, in ppm from -100 to 100, and the fraction of a ns that TAI has gone beyond `tai`, in 10^-9 ns, 02 R60. -/
  slew : Int
  frac : Nat
  /-- Next firing cycle of each armed periodic entry by its own counter, 02 R63. -/
  next : Sparse (Option Nat)
  /-- TARGETs of the DISPATCH entries decided for the current cycle and not yet started, 02 R65. -/
  dispatch : List Nat
  delayed : List Delayed
  /-- Entries fired in this XCLK, 02 R67. -/
  fired : Nat
  /-- A commit was made in this XCLK, 02 R71, and source 257 was asserted in it, 12 R602. -/
  committed : Bool
  faulted : Bool
  /-- Channels that trigger entries, timers and edge detectors have pulsed in this XCLK, 12 R439. -/
  pulsed : List Nat
  /-- Captures of each edge detector, oldest first: TIME and TAI, 02 R75. -/
  edges : Sparse (List (Word × Word))
  /-- What each edge detector has seen and not yet accepted. -/
  cands : Sparse (Option EdgeCand)
  phases : Sparse Phase
  /-- Consecutive measurements within 100 ns, 02 R54. -/
  streak : Nat
  /-- Angle rates of the last 16 LOCKED cycles in µHz, newest first. -/
  rates : List Nat
  /-- Valid SV cycles in a row, 02 R48. -/
  svGood : Nat
  /-- Start of the SV fit cycle in progress, and its samples with their times, oldest first, 02 R50. -/
  svStart : Option Nat
  svSamples : List (Nat × Int)
  /-- The last SmpCnt, and the samples per second that the last wrap of SmpCnt showed, 0 before the first. -/
  svCnt : Option Nat
  svRate : Nat
  /-- Instants on the monotonic tick of the last edge of a qualified phase and of the last valid ASDU, 02 R48. -/
  edgeAt : Nat
  svAt : Nat
  /-- The last error measured against each reference, and the instant since which it has stayed qualified, 02 R52. -/
  refErr : Sparse (Option Int)
  qualAt : Sparse Nat
  /-- Instant at which HOLDOVER began. -/
  holdSince : Option Nat
  /-- GAV_TAI_SET waits for a PPS_IN edge, 02 R58. -/
  taiSet : Option Nat
  /-- Instant of the last time update of the followed source, 16 R524. -/
  taiAt : Nat
  /-- PPS_OUT is high, and the instant at which it falls, 02 R59. -/
  ppsOut : Bool
  ppsFall : Nat
  deriving DecidableEq, Repr

def Gav.reset : Gav :=
  { acc := 0, prev := 0, xclk := 0, cyc := 0, tai := 0, mono := 0, slew := 0, frac := 0, next := [], dispatch := [], delayed := [], fired := 0,
    committed := false, faulted := false, pulsed := [], edges := [], cands := [], phases := [], streak := 0, rates := [], svGood := 0, svStart := none,
    svSamples := [], svCnt := none, svRate := 0, edgeAt := 0, svAt := 0, refErr := [], qualAt := [], holdSince := none, taiSet := none,
    taiAt := 0, ppsOut := false, ppsFall := 0 }

/-- The pins, 19 R592, R593 and R605. -/
structure Pins where
  /-- Level of the inputs 32 to 34, PHREF_A to PHREF_C, and 35, PPS_IN (02 R74). -/
  level : Sparse Bool
  /-- Level the board puts on a GP pin that the part does not drive. -/
  ext : Sparse Bool
  /-- Function in force on a GP pin, and the level that it drives as an output: both change at PCLK edges. -/
  func : Sparse Nat
  drive : Sparse Bool
  /-- The XCLK of edge E0 of a pin function switch: samples from it to E1 are ignored. -/
  blind : Sparse Nat
  /-- The XCLK of the last PCLK edge up to which some GP pin is not settled. -/
  settle : Nat
  deriving DecidableEq, Repr

def Pins.reset : Pins := ⟨[], [], [], [], [], 0⟩

/-- What a line carries beside data and word tags, 06 R212 to R214; the integrity tag stands as the key it was made under. -/
structure LineMeta where
  /-- 0 VALID, 1 CLEAN, 2 or 3 POISON. -/
  st : Nat
  reason : Nat
  keyid : Nat
  /-- Generation of the key under which the line was signed, 06 R216. -/
  gen : Nat
  /-- PA[47:6] under which the line was signed, 06 R214. -/
  pa : Nat
  deriving DecidableEq, Repr

/-- An unlisted line is CLEAN, 06 R222. -/
def LineMeta.clean : LineMeta := ⟨1, 0, 0, 0, 0⟩

/-- A directory entry, 11 R406: 0 I, 1 S, 2 E, 3 M. -/
structure DirEntry where
  st : Nat
  sharers : Nat
  keyid : Nat
  /-- A snoop answered EVICTING waits for the write-back (11 R410): 0 none, 1 SNP_SH, 2 SNP_INV, 3 SNP_RD, 4 SNP_DROP. -/
  evicting : Nat
  /-- Presence vectors of the holding clusters, 11 R405: bit 26c + p says that the data caches of the engine at position p of cluster c hold the line, and bit 26c + 13 + p its instruction caches. -/
  cores : Nat
  deriving DecidableEq, Repr

def DirEntry.none : DirEntry := ⟨0, 0, 0, 0, 0⟩

/-- What a request asks of a slice, 06 R218 to R220 and 11 R397, R407: caching masters are 0 to 15 and 16 the Steward; `rdS` fills the data caches (true) or the instruction caches of the engine, or only its cluster's; `store` is an RD_U or UPG for a released store of an engine, whose bytes follow (11 R395). -/
inductive SliceOp where
  | read (ecc : Ecc)
  | full (ws : List TWord)
  | part (ecc : Ecc) (data : List (Nat × Byte)) (tags : List (Nat × Tag))
  | store (data : List (Nat × Byte)) (tags : List (Nat × Tag))
  | rdS (fill : Option Bool)
  | rdU
  | upg
  | lkld
  deriving DecidableEq, Repr

/-- A request at a slice, 11 R389: master, engine position, ID, KEYID and line. -/
structure SliceReq where
  mid : Nat
  pos : Nat
  id : Nat
  key : Nat
  line : Nat
  op : SliceOp
  deriving DecidableEq, Repr

/-- A slice's lock unit, 11 R397: the holder, the locked line and the requests that wait in arrival order (R398). -/
structure LockUnit where
  held : Bool
  mid : Nat
  pos : Nat
  line : Nat
  /-- XCLK of the LKLD response, from which the lock timer runs (11 R399). -/
  since : Nat
  waiting : List SliceReq
  deriving DecidableEq, Repr

def LockUnit.free : LockUnit := ⟨false, 0, 0, 0, 0, []⟩

/-- What the CTL and VSU lines of a bank image stand for, whose words the spec does not lay out (09 R336): the bank, its queues, and the words written. -/
structure BankImage where
  bank : Bank
  vsu : BankVsu
  ctl : List TWord
  /-- The words of each VSU entry. -/
  ents : List (Nat × List TWord)
  deriving DecidableEq, Repr

/-- DRAM, LVS, their metadata, the directories and the lock units, 06 and 11. -/
structure Mem where
  /-- Bytes of storage; an unlisted byte reads 0. Line P of pseudo-channel p lies at 64 * (2^24 p + P), an LVS at its physical address, and its spare regions, escalation stack and save buffer from 2^48. -/
  bytes : List Host.Cell
  /-- Tag of each word, by address divided by 8; an unlisted word is EMPTY. -/
  tags : Sparse Tag
  /-- Sidebands of DRAM lines by 2^24 p + P. -/
  lines : Sparse LineMeta
  /-- Errors of stored codewords that nothing has repaired yet (06 R218, R235): DRAM lines by 2^24 p + P, LVS words by storage address divided by 8. -/
  flaws : Sparse Ecc
  /-- Key generation by KEYID, 06 R216. -/
  keygen : Sparse Nat
  dir : Sparse DirEntry
  /-- Words of the lines that caches hold, by PA[47:6]; a line held in M is current there alone (11 R406). -/
  copies : Sparse (List TWord)
  locks : Sparse LockUnit
  /-- Consecutive ERR_BUSY of a cluster-port requester on a word, 06 R237. -/
  busy : Sparse Nat
  /-- Scrub position of each pseudo-channel, 06 R224. -/
  scrub : Sparse Nat
  /-- Instants of uncorrectable events within 24 h by pseudo-channel, 06 R225. -/
  ueTimes : Sparse (List Nat)
  /-- Corrected events in the current scrub pass by pseudo-channel. -/
  cePass : Sparse Nat
  /-- Scrub passes of the pseudo-channels of a slice completed since SLC_SCRUB last counted. -/
  passDone : Sparse Nat
  /-- Uncorrectable copies of remap entries by 2^24 p plus the entry, 06 R231: bits 0 and 1 the two copies, bit 2 reported. -/
  remapBad : Sparse Nat
  /-- Command slots taken on a pseudo-channel, 06 R208: the frame and the mask of its slots. -/
  slots : Sparse (Nat × Nat)
  /-- Slots that each slice has reserved on a pseudo-channel, with the SLICE region that owns them, 06 R209. -/
  resSlots : Sparse (List (Nat × Nat))
  /-- The reserved slots that stood before the last commit, and its instant in ns, 16 R526: they act to the end of the command-slot frame in which it fell. -/
  resOld : Sparse (List (Nat × Nat))
  resAt : Nat
  /-- Lines of the region that a slice sanitises that are CLEAN already, by pseudo-channel, 06 R223. -/
  sanitPos : Sparse Nat
  /-- Foxglove: failures of the current region by engine from MARCH to the end of RESTORE, and the region that stays on the save buffer (06 R241, R242). -/
  foxMarch : Sparse (Option Nat)
  /-- Foxglove: the monotonic tick at the start of the last SAVE, by engine (06 R240). -/
  foxSince : Sparse Nat
  foxStuck : Sparse Nat
  /-- The dirty map of a handover, by 4,096 times the cluster plus the region, 10 R377. -/
  hoDirty : Sparse Bool
  /-- Errors that stored microwords hold, by 65,536 times the engine plus the micro-address, with 32,768 more in the trailing copy (08 R288 and R299). -/
  ucFlaws : Sparse Ecc
  /-- Errors that lines of the cluster caches hold, by 2^42 times the cluster plus the line (11 R416). -/
  ccFlaws : Sparse Ecc
  /-- Bank images by PA[47:11]. -/
  images : Sparse (Option BankImage)
  deriving DecidableEq, Repr

def Mem.reset : Mem :=
  { bytes := [], tags := [], lines := [], flaws := [], keygen := [], dir := [], copies := [], locks := [], busy := [], scrub := [],
    ueTimes := [], cePass := [], passDone := [], remapBad := [], slots := [], resSlots := [], resOld := [], resAt := 0, sanitPos := [], foxMarch := [], foxSince := [], foxStuck := [], hoDirty := [], ucFlaws := [], ccFlaws := [], images := [] }

/-- What the update controller and the clusters keep beside their registers, 10 R377 and 17 R548 to R551. -/
structure Upd where
  /-- Next active index of the cluster in progress to hand over, 12 after the last. -/
  next : Nat
  /-- Abandonments of the index in progress, 17 R550. -/
  tries : Nat
  /-- The index in progress waits for a handover elsewhere to end, since at most one runs in the device, 17 R549. -/
  wait : Bool
  /-- Control stores of version NEXTVER, as PREPARE read them from the image set. -/
  store : UStore
  /-- Decode table of that set, ENG_UDEC_0 to 15. -/
  dec : List Word
  /-- PATCH_LEVEL of that set, once PREPARE has read one. -/
  patch : Option Nat
  /-- Whether the bitstream of that set holds frame 0x000C. -/
  cust : Bool
  /-- Version of the customer area of that set, 08 R306. -/
  cver : Nat
  /-- By cluster, the handover in progress: whether it leaves the engine RETIRED, TIMEOUT, and the mains cycle in which WAITGAP began. -/
  ho : Sparse (Bool × Nat × Nat)
  /-- Epoch of each active index by logical engine, 09 R338. -/
  epochs : Sparse Nat
  /-- Instants of the last recoveries of the Steward pair, newest first, 10 R383. -/
  stw : List Nat
  /-- Revocation in progress: the owner key slot, 17 R555. -/
  revoking : Option Nat
  /-- Flash slots of the image set that PREPARE checked: firmware, patch and bitstream. -/
  slots : List Nat
  deriving DecidableEq, Repr

def Upd.reset : Upd :=
  { next := 0, tries := 0, wait := false, store := ⟨[], []⟩, dec := [], patch := none, cust := false, cver := 0, ho := [], epochs := [], stw := [], revoking := none, slots := [] }

/-- One interrupt source, 12 R420 and R426. -/
structure Src where
  count : Nat
  active : Bool
  preempt : Bool
  ctx : Nat
  ovf : Bool
  /-- The condition of a STATE source. -/
  cond : Bool
  deriving DecidableEq, Repr

def Src.reset : Src := ⟨0, false, false, 0, false, false⟩

/-- Who awaits the value of a claim: the sender of CLAIM, the engine whose load it is, the host, with the length of its read, or nobody, after a reset of its function (19 R586). -/
inductive ClaimBy where
  | nobody
  | sender
  | engine (e : Nat)
  | host (n : Nat)
  deriving DecidableEq, Repr

/-- A read of a claim register that waits: the context, who reads, and the bits of the word that the access takes. -/
structure ClaimReq where
  ctx : Nat
  /-- The XCLK in which it reached the controller. -/
  at' : Nat
  dst : ClaimBy
  mask : Nat
  deriving DecidableEq, Repr

/-- The interrupt controller beside its registers, 12. -/
structure Ic where
  src : Sparse Src
  /-- Claims beyond the sixteenth of an XCLK, 12 R427. -/
  waiting : List ClaimReq
  /-- Claims settled in this XCLK. -/
  settled : Nat
  /-- Source whose message was sent and stands presented, by host context (12 R433). -/
  sent : Sparse (Option Nat)
  /-- End of each group's hold-off on the monotonic tick, 12 R428. -/
  holdoff : Sparse (Option Nat)
  /-- MSI-X mask bits by vector, which PCIe sets at reset, and the Pending Bit Array. -/
  unmasked : Sparse Bool
  pba : Sparse Bool
  /-- GP event outputs whose pulse is in progress, by channel 32 to 63, 12 R439. -/
  gpHigh : Sparse Bool
  /-- The XCLK in which the pulse of a GP event output ends, by channel. -/
  gpEnd : Sparse Nat
  deriving DecidableEq, Repr

/-- At reset the links of PCIe and of the service port are down, so the conditions of sources 676 and 679 are true (19 R581 and R600). -/
def Ic.reset : Ic :=
  { src := [(676, { Src.reset with cond := true }), (679, { Src.reset with cond := true })], waiting := [], settled := 0, sent := [],
    holdoff := [], unmasked := [], pba := [], gpHigh := [], gpEnd := [] }

/-- One Marigold record, 18 R570; its CRC is computed when it is read. -/
structure MRec where
  code : Nat
  sev : Nat
  flags : Nat
  unit : Nat
  rep : Nat
  tai : Nat
  angle : Nat
  p0 : Nat
  p1 : Nat
  tenant : Nat
  deriving DecidableEq, Repr

/-- An all-zero slot of the ring. -/
def MRec.zero : MRec := ⟨0, 0, 0, 0, 0, 0, 0, 0, 0, 0⟩

/-- A submission to the recorder, 18 R571. -/
structure MSub where
  code : Nat
  sev : Nat
  unit : Nat
  p0 : Nat
  p1 : Nat
  tenant : Nat
  flags : Nat
  tai : Nat
  /-- The TAI of the submission on the monotonic tick, for the fold window (02 R60). -/
  mono : Nat
  angle : Nat
  deriving DecidableEq, Repr

/-- A fold-table entry, 18 R572. -/
structure MFold where
  slot : Nat
  mono : Nat
  deriving DecidableEq, Repr

/-- The recorder, 18 R570 to R573. -/
structure Marigold where
  ring : Sparse MRec
  /-- The fold table, most recently used first. -/
  fold : List MFold
  buffer : List MSub
  lost : Bool
  dram : Sparse MRec
  flash : Sparse MRec
  /-- CRITICAL and FATAL records since reset, 19 R589. -/
  critical : Nat
  deriving DecidableEq, Repr

def Marigold.reset : Marigold := ⟨[], [], [], false, [], [], 0⟩

end Sys2Proof.Machine
end

