-- ==== Sys2Proof/Machine/State.lean ====
section
/-! DEFINITION. The state of the block, its reset value, and the reasons a step can stop. -/
namespace Sys2Proof.Machine

/-- The answer to the last register or memory request of the outside, 00 R16: the response code and the words read. -/
structure Answer where
  resp : Nat
  data : List TWord
  deriving DecidableEq, Repr

/-- What the block sends to the outside (log entry 8). -/
inductive Emit where
  /-- An MSI-X message of a vector, 12 R433. -/
  | msix (vec : Nat)
  /-- A holder's answer to a snoop, 11 R408: 0 DATA, 1 ACK, 2 MISS, 3 EVICTING. -/
  | snoop (kind : Nat) (data : List TWord)
  /-- A flit of port `p`, 14 R471: link header, body and CRC. -/
  | flit (p : Nat) (hdr : BitVec 32) (body : List Byte) (crc : BitVec 32)
  /-- A DISC flit of port `p`, 14 R482, with the next SEQ expected. -/
  | disc (p ack did part ver : Nat)
  /-- A PTP flit of port `p`, 14 R490. -/
  | ptpFlit (p ack : Nat) (egress ingress : Nat)
  /-- An Ethernet frame on link `l` of port `p`. -/
  | frame (p l : Nat) (bytes : List Byte)
  /-- A PTP message of port `p`, 14 R489: messageType, sequence number and timestamp. -/
  | ptpMsg (p kind seq ts : Nat)
  /-- A PFC pause of a priority, or its end, on a link, 14 R486. -/
  | pfc (p l prio : Nat) (on : Bool)
  /-- A discovery or management message to Steward firmware, 14 R483. -/
  | mgmt (p : Nat) (bytes : List Byte)
  /-- A reply of the service port, 17 R544. -/
  | svc (r : SvcReply)
  /-- A host memory write, 19 R588. -/
  | hostWrite (addr : Nat) (data : List Byte)
  /-- A host memory read. -/
  | hostRead (addr : Nat)
  /-- A PCIe completion: its status, whether its data is poisoned, and the bytes read. -/
  | completion (st : PciStatus) (ep : Bool) (data : List Byte)
  /-- A Device Readiness Status message, 17 R538. -/
  | drs
  deriving DecidableEq, Repr

structure State where
  /-- The commands that wait, first in, first out. -/
  pending : List Instr
  /-- The registers of the platform view by offset; an unlisted one holds its reset value. -/
  regs : Sparse Word
  /-- Configuration elements in force that no register holds, by frame type, kind and key (15 R505). -/
  cfg : Sparse (List Word)
  gav : Gav
  mem : Mem
  /-- The physical engines, 0 to 207. -/
  eng : Sparse Engine
  ic : Ic
  mgd : Marigold
  pins : Pins
  upd : Upd
  qm : Qm
  /-- The ports, 0 to 5. -/
  ports : Sparse OPort
  bsl : Bsl
  ke : KeyEng
  boot : Boot
  mrg : Mrg
  host : HostIf
  /-- The model's own counter of free values taken so far (log entry 7). -/
  free : Nat
  answer : Answer
  outbox : List Emit
  deriving DecidableEq, Repr

/-- Why a step faults: no command of this model does (log entry 2). -/
inductive Fault where
  deriving DecidableEq, Repr

/-- Why a command is refused: no command of this model is. -/
inductive Refusal where
  /-- A command without a meaning, raised by an arm of exec; safe. No arm raises it. -/
  | notModelled (mnemonic : String)
  deriving DecidableEq, Repr

/-- The block after reset (00 R8): every register at its reset value, nothing in memory, the queue empty. -/
def State.reset : State :=
  { pending := [], regs := [], cfg := [], gav := Gav.reset, mem := Mem.reset, eng := [], ic := Ic.reset,
    mgd := Marigold.reset, pins := Pins.reset, upd := Upd.reset, qm := Qm.reset, ports := [], bsl := Bsl.reset,
    ke := KeyEng.reset, boot := Boot.reset, mrg := Mrg.reset, host := HostIf.reset, free := 0, answer := ⟨0, []⟩, outbox := [] }

end Sys2Proof.Machine
end

