-- ==== Sys2Proof/Machine/Ops.lean ====
section
/-! DEFINITION. The named operations every unit uses: registers, engines, configuration elements, free values, answers. -/
namespace Sys2Proof.Machine
open Reg

/-- Whether the register or array holds offset `off`. -/
def RegDef.hit (r : RegDef) (off : Nat) : Bool :=
  if off < r.base then false
  else
    let d := off - r.base
    let i := if r.s1 = 0 then 0 else d / r.s1
    let m := if r.s1 = 0 then d else d % r.s1
    let j := if r.s2 = 0 then 0 else m / r.s2
    let z := if r.s2 = 0 then m else m % r.s2
    z == 0 && i < r.n1 && j < r.n2

/-- The register at an offset of the platform view, if one occupies it (00 R9). -/
def regAt (off : Nat) : Option RegDef := regTable.find? (·.hit off)

/-- Reset value of a register, 00 R8: each field at its reset value, every other bit 0. -/
def RegDef.resetWord (r : RegDef) : Nat := r.flds.foldl (fun x f => x + f.rst <<< f.lo) 0

/-- What an unlisted register offset holds. -/
def regReset (off : Nat) : Word :=
  match regAt off with
  | some r => BitVec.ofNat 64 r.resetWord
  | none => 0

/-- The word of the register at an offset. -/
def State.reg (s : State) (off : Nat) : Word := sget regReset s.regs off

/-- Set the word of the register at an offset. -/
def State.setReg (s : State) (off : Nat) (w : Word) : State := { s with regs := sset regReset s.regs off w }

/-- A field of a register, as a number. -/
def State.rd (s : State) (off : Nat) (f : Fld) : Nat := bits (s.reg off).toNat f.lo f.w

/-- A one-bit field of a register. -/
def State.flag (s : State) (off : Nat) (f : Fld) : Bool := s.rd off f != 0

/-- Hardware sets a field of a register. -/
def State.wr (s : State) (off : Nat) (f : Fld) (v : Nat) : State :=
  s.setReg off (BitVec.ofNat 64 (setBits (s.reg off).toNat f.lo f.w v))

/-- A saturating counter field counts `n`. -/
def State.count (s : State) (off : Nat) (f : Fld) (n : Nat) : State :=
  s.wr off f (satAdd f.w (s.rd off f) n)

/-- The physical engine `e`. -/
def State.engine (s : State) (e : Nat) : Engine := sget (fun _ => Engine.reset) s.eng e

/-- Replace the physical engine `e`. -/
def State.setEngine (s : State) (e : Nat) (x : Engine) : State :=
  { s with eng := sset (fun _ => Engine.reset) s.eng e x }

/-- Change the physical engine `e`. -/
def State.modEngine (s : State) (e : Nat) (f : Engine → Engine) : State := s.setEngine e (f (s.engine e))

/-- Key of a configuration element: frame type, KIND and KEY of 15 R502. -/
def cfgKey (ty kind key : Nat) : Nat := ty * 2 ^ 36 + kind * 2 ^ 32 + key

/-- A configuration element in force; an undefined one is the empty list. -/
def State.elem (s : State) (ty kind key : Nat) : List Word := sget (fun _ => []) s.cfg (cfgKey ty kind key)

/-- Word `i` of a configuration element, 0 where it is undefined. -/
def elemWord (ws : List Word) (i : Nat) : Nat := (ws.getD i 0).toNat

/-- Tenant table element, 15 R505: partition of tenant `t`. Tenant 0 is in partition 0 (01 R20). -/
def State.tenantPartition (s : State) (t : Nat) : Nat := bits (elemWord (s.elem 5 0 t) 0) 0 8

/-- VF bound to tenant `t`, 0 for none. -/
def State.tenantVf (s : State) (t : Nat) : Nat := bits (elemWord (s.elem 5 0 t) 0) 8 12

/-- The tenant is defined by the tenant table. -/
def State.tenantDefined (s : State) (t : Nat) : Bool := s.elem 5 0 t != []

/-- Take a free value. -/
def State.takeFree (s : State) : Word × State := (Config.freeWord s.free, { s with free := s.free + 1 })

/-- Take `n` free words. -/
def State.takeFreeN (s : State) (n : Nat) : List Word × State :=
  ((List.range n).map fun i => Config.freeWord (s.free + i), { s with free := s.free + n })

/-- Set the answer that the requester receives. -/
def State.reply (s : State) (resp : Nat) (data : List TWord) : State := { s with answer := ⟨resp, data⟩ }

/-- Send something to the outside. -/
def State.emit (s : State) (m : Emit) : State := { s with outbox := s.outbox ++ [m] }

/-! Response codes, 00 R16. -/
def respOk : Nat := 0
def errDecode : Nat := 1
def errTarget : Nat := 2
def errInteg : Nat := 3
def errPoison : Nat := 4
def errPerm : Nat := 5
def errBusy : Nat := 6
def errLock : Nat := 7

/-! Word tags, 00 R15. -/
def tagRaw : Tag := 0x0
def tagI64 : Tag := 0x1
def tagU64 : Tag := 0x2
def tagF64 : Tag := 0x3
def tagF32x2 : Tag := 0x4
def tagI32x2 : Tag := 0x5
def tagI16x4 : Tag := 0x6
def tagI8x8 : Tag := 0x7
def tagDec : Tag := 0x8
def tagFix : Tag := 0x9
def tagC32 : Tag := 0xA
def tagPtr : Tag := 0xB
def tagDesc : Tag := 0xC
def tagTime : Tag := 0xD
def tagEmpty : Tag := 0xE
def tagPoison : Tag := 0xF

/-! Cause codes, 00 R17. -/
def cTagMismatch : Nat := 0x01
def cTagPoison : Nat := 0x02
def cTagEmpty : Nat := 0x03
def cWindow : Nat := 0x04
def cPerm : Nat := 0x05
def cAlign : Nat := 0x06
def cIllegal : Nat := 0x07
def cPriv : Nat := 0x08
def cInteg : Nat := 0x09
def cBus : Nat := 0x0A
def cFpTrap : Nat := 0x0C
def cDecInvalid : Nat := 0x0D
def cSlotExpired : Nat := 0x0E
def cChainFault : Nat := 0x0F
def cEscalated : Nat := 0x10
def cSyscall : Nat := 0x12
def cBreak : Nat := 0x13

/-- The empty word that default and poisoned reads answer. -/
def twPoison : TWord := ⟨tagPoison, 0⟩

/-- TIME word of the present instant, 00 R13. -/
def State.time (s : State) : Nat := (s.gav.cyc % 2 ^ 32) * 2 ^ 32 + (s.gav.acc / 2 ^ 32) % 2 ^ 32

/-- Cluster of a physical engine and its position there (00 R1, 10 R368). -/
def clusterOf (e : Nat) : Nat := e / 13
def posOf (e : Nat) : Nat := e % 13

/-- Active index of a position under the spare map (CLU_SPMAP, 10 R385): the logical engine of a physical engine, none for one that serves no index. -/
def State.spmap (s : State) (c i : Nat) : Nat := s.rd (CLU_SPMAP c) ⟨4 * i, 4, .ro, i⟩

/-- Physical engine of logical engine `l`, 01 R26; none when the index is lost. -/
def State.physOf (s : State) (l : Nat) : Option Nat :=
  let p := s.spmap (l / 12) (l % 12)
  if p < 13 then some (l / 12 * 13 + p) else none

/-- Logical engine served by physical engine `e`, 07 R280. -/
def State.logicalOf (s : State) (e : Nat) : Option Nat :=
  ((List.range 12).find? fun i => s.spmap (clusterOf e) i == posOf e).map fun i => clusterOf e * 12 + i

/-- Resident tenant of bank `b` of physical engine `e`, 01 R28 and 09 R308: 0 for banks 6 and 7. -/
def State.bankTenant (s : State) (e b : Nat) : Nat :=
  if b < 4 then s.rd (ENG_BANK_TENANT e) ⟨16 * b, 13, .ro, 0⟩
  else if b < 6 then s.rd (ENG_BANK_TENANT2 e) ⟨16 * (b - 4), 13, .ro, 0⟩
  else 0

/-- Set the resident tenant of bank `b`. -/
def State.setBankTenant (s : State) (e b t : Nat) : State :=
  if b < 4 then s.wr (ENG_BANK_TENANT e) ⟨16 * b, 13, .ro, 0⟩ t
  else if b < 6 then s.wr (ENG_BANK_TENANT2 e) ⟨16 * (b - 4), 13, .ro, 0⟩ t
  else s

end Sys2Proof.Machine
end

