-- ==== Sys2Proof/Machine/Interrupt.lean ====
section
/-! DEFINITION. The interrupt controller (12 R419 to R436): assertion, reach, ranking, presentation, claim and completion. -/
namespace Sys2Proof.Machine
open Reg

/-- TYPE of a source, 12 R602: true for STATE. -/
def srcIsState (i : Nat) : Bool :=
  (640 ≤ i && i < 676 && (i - 640) % 6 == 0) || i == 676 || i == 679 || i == 683 || i == 685 ||
    (920 ≤ i && i < 936) || i == 937

/-- The state of source `i`. -/
def State.src (s : State) (i : Nat) : Src := sget (fun _ => Src.reset) s.ic.src i

/-- Replace the state of source `i`. -/
def State.setSrc (s : State) (i : Nat) (x : Src) : State :=
  { s with ic := { s.ic with src := sset (fun _ => Src.reset) s.ic.src i x } }

/-- Context numbers, 12 R421. -/
def ctxSteward : Nat := 1536
def ctxPf : Nat := 1537

/-- The host context that source `i` reaches, 12 R422. -/
def State.hostCtx (s : State) (i : Nat) : Option Nat :=
  if s.flag (IC_SRC_TGT3 i) IC_SRC_TGT3_HOST then
    if s.rd (IC_SRC_CFG i) IC_SRC_CFG_LEV = 0 then
      let vf := s.tenantVf (s.rd (IC_SRC_CFG i) IC_SRC_CFG_TENANT)
      if s.rd (IC_SRC_CFG i) IC_SRC_CFG_TENANT ≠ 0 ∧ vf ≠ 0 then some (ctxPf + vf) else none
    else some ctxPf
  else none

/-- Whether source `i` reaches context `c`, 12 R422 and R435. -/
def State.reaches (s : State) (i c : Nat) : Bool :=
  if c < ctxSteward then
    let l := c / 8
    let b := c % 8
    let lev := s.rd (IC_SRC_CFG i) IC_SRC_CFG_LEV
    let t := s.rd (IC_SRC_CFG i) IC_SRC_CFG_TENANT
    bits (s.reg (IC_SRC_TGT i (l / 64))).toNat (l % 64) 1 == 1 &&
      (match s.physOf l with
       | none => false
       | some e =>
         if b < 6 then lev == 0 && t != 0 && s.bankTenant e b == t
         else if b = 6 then lev == 1 else lev == 2)
  else if c = ctxSteward then s.flag (IC_SRC_TGT3 i) IC_SRC_TGT3_STEWARD
  else s.hostCtx i == some c

/-- Priority of source `i`. -/
def State.prio (s : State) (i : Nat) : Nat := s.rd (IC_SRC_CFG i) IC_SRC_CFG_PRIO

/-- Preemption value of a priority, 12 R424. -/
def State.pv (s : State) (p : Nat) : Nat :=
  if s.rd IC_CTRL IC_CTRL_SCHEME = 0 then p else p >>> (6 - s.rd IC_CTRL IC_CTRL_SPLIT)

/-- Running value of a context, 12 R424: the largest preemption value of its sources ACTIVE with PREEMPT. -/
def State.running (s : State) (c : Nat) : Option Nat :=
  (s.ic.src.filter fun p => p.2.active && p.2.preempt && p.2.ctx == c).foldl
    (fun m p => match m with
      | none => some (s.pv (s.prio p.1))
      | some v => some (max v (s.pv (s.prio p.1)))) none

/-- Whether the group of source `i` is held off, 12 R428: its timer runs until the monotonic tick reaches the end. -/
def State.heldOff (s : State) (i : Nat) : Bool := (sget (fun _ => none) s.ic.holdoff (i / 16)).any fun t => decide (s.gav.mono < t)

/-- Whether source `i` is pending for context `c`, 12 R420 and R423. -/
def State.pendingFor (s : State) (c i : Nat) : Bool :=
  let x := s.src i
  x.count != 0 && !x.active && s.flag (IC_SRC_CFG i) IC_SRC_CFG_EN && s.reaches i c

/-- The best of a list of sources, 12 R423: highest PRIO, then the lower ID. -/
def State.bestSrc (s : State) (l : List Nat) : Option Nat :=
  l.foldl (fun m i => match m with
    | none => some i
    | some j => if s.prio i > s.prio j ∨ (s.prio i = s.prio j ∧ i < j) then some i else some j) none

/-- The candidate of a context, 12 R423; a claim (12 R426) takes held-off groups too. -/
def State.candidate (s : State) (c : Nat) (claim : Bool) : Option Nat :=
  s.bestSrc ((s.ic.src.map (·.1)).filter fun i => s.pendingFor c i && (claim || !s.heldOff i))

/-- THR of a context. -/
def State.thr (s : State) (c : Nat) : Nat := s.rd (IC_CTX c) IC_CTX_THR

/-- The source presented to a context, 12 R424. -/
def State.presented (s : State) (c : Nat) : Option Nat :=
  match s.candidate c false with
  | none => none
  | some i =>
    let above := match s.running c with
      | none => true
      | some v => decide (s.pv (s.prio i) > v)
    if decide (s.prio i > s.thr c) && above then some i else none

/-- Send the MSI-X message of a vector, or set its pending bit while it is masked, 12 R433. -/
def State.sendMsix (s : State) (vec : Nat) : State :=
  if sget (fun _ => false) s.ic.unmasked vec then s.emit (.msix vec)
  else { s with ic := { s.ic with pba := sset (fun _ => false) s.ic.pba vec true } }

/-- Present to a host context, 12 R433: one message for each presentation. -/
def State.refreshHost (s : State) (c : Nat) : State :=
  let p := s.presented c
  if p = sget (fun _ => none) s.ic.sent c then s
  else
    let s := { s with ic := { s.ic with sent := sset (fun _ => none) s.ic.sent c p } }
    match p with
    | none => s
    | some i => s.sendMsix (s.rd (IC_SRC_CFG i) IC_SRC_CFG_VEC)

/-- Present again to the host context that source `i` reaches. -/
def State.refreshSrc (s : State) (i : Nat) : State :=
  match s.hostCtx i with
  | none => s
  | some c => s.refreshHost c

/-- Present again to every host context that a listed source reaches, or that a source was presented to. -/
def State.refreshAll (s : State) : State :=
  eachDo (s.ic.src.map (·.1)) (fun i t => t.refreshSrc i) (eachDo (s.ic.sent.map (·.1)) (fun c t => t.refreshHost c) s)

/-- Groups whose hold-off has run out are presented again, 12 R428. -/
def State.endHoldoffs (s : State) : State :=
  let run (p : Nat × Option Nat) : Bool := p.2.any fun t => decide (s.gav.mono < t)
  if s.ic.holdoff.all run then s else State.refreshAll { s with ic := { s.ic with holdoff := s.ic.holdoff.filter run } }

/-- Source `i` asserts, 12 R420: COUNT, its saturation and OVF; ignored while EN = 0. -/
def State.assert (s : State) (i : Nat) : State :=
  if s.flag (IC_SRC_CFG i) IC_SRC_CFG_EN then
    let x := s.src i
    if x.count = 15 then (s.setSrc i { x with ovf := true }).wr IC_ERR IC_ERR_OVF 1
    else (s.setSrc i { x with count := x.count + 1 }).refreshSrc i
  else s

/-- The condition of STATE source `i` becomes `b`, 12 R420: a change from false to true asserts. -/
def State.setCond (s : State) (i : Nat) (b : Bool) : State :=
  let x := s.src i
  let t := s.setSrc i { x with cond := b }
  if b && !x.cond then t.assert i else t

/-- Start the hold-off of the group of source `i`, 12 R428. -/
def State.startHoldoff (s : State) (i : Nat) : State :=
  let h := s.rd (IC_GRP (i / 16)) IC_GRP_HOLDOFF
  if h = 0 then s
  else { s with ic := { s.ic with holdoff := sset (fun _ => none) s.ic.holdoff (i / 16) (some (s.gav.mono + h * 1000)) } }

/-- The value of a claim that finds nothing, 12 R426. -/
def claimNone : Word := 0x3FF

/-- Settle one claim of context `c`, 12 R426: the value and the next state. -/
def State.claim1 (s : State) (c : Nat) : Word × State :=
  match s.candidate c true with
  | none => (claimNone, s)
  | some i =>
    let x := s.src i
    let pre := match s.running c with
      | none => true
      | some v => decide (s.pv (s.prio i) > v)
    let w := BitVec.ofNat 64 (i + s.prio i * 2 ^ 10 + x.count * 2 ^ 16)
    let t := (s.setSrc i { x with count := 0, active := true, preempt := pre, ctx := c }).startHoldoff i
    (w, t.refreshAll)

/-- The part of a word that an access reads. -/
def half (w : Word) (m : Nat) : Word := if m = 2 ^ 64 - 2 ^ 32 then BitVec.ofNat 64 (w.toNat / 2 ^ 32) else BitVec.ofNat 64 (w.toNat &&& m)

/-- Settle a claim and give its value to whoever waits for it. -/
def State.settleClaim (s : State) (r : ClaimReq) : State :=
  let x := s.claim1 r.ctx
  let w := half x.1 r.mask
  match r.dst with
  | .sender => x.2.reply respOk [⟨tagU64, x.1⟩]
  | .nobody => x.2
  | .engine e => x.2.modEngine e fun y =>
      { y with pend := firstDo (fun p => p.kind != .lkld && decide (p.pa < 0xF80000000000) && p.result.isNone) (fun p => { p with result := some (respOk, [⟨tagU64, w⟩]) }) y.pend }
  | .host n => x.2.emit (.completion .success false ((List.range n).map fun i => w.extractLsb' (8 * i) 8))

/-- Insert a waiting claim, 12 R427: behind those that arrived before it, and within one XCLK of arrival in ascending context number. -/
def insClaim (r : ClaimReq) : List ClaimReq → List ClaimReq
  | [] => [r]
  | x :: l => if r.at' = x.at' ∧ r.ctx < x.ctx then r :: x :: l else x :: insClaim r l

/-- A claim waits to a later XCLK. -/
def State.waitClaim (s : State) (c : Nat) (dst : ClaimBy) (m : Nat) : State :=
  { s with ic := { s.ic with waiting := insClaim ⟨c, s.gav.xclk, dst, m⟩ s.ic.waiting } }

/-- A claim reaches the controller, 12 R427: it is settled, or waits behind sixteen others of the XCLK. -/
def State.claim (s : State) (c : Nat) (dst : ClaimBy) (m : Nat) : State :=
  if s.ic.waiting = [] ∧ s.ic.settled < 16 then
    let t := s.settleClaim ⟨c, s.gav.xclk, dst, m⟩
    { t with ic := { t.ic with settled := t.ic.settled + 1 } }
  else s.waitClaim c dst m

/-- The claims of the next XCLK, 12 R427. -/
def State.tickClaims (s : State) : State :=
  let now := s.ic.waiting.take 16
  let t := eachDo now (fun r t => t.settleClaim r) s
  { t with ic := { t.ic with waiting := t.ic.waiting.drop now.length, settled := now.length } }

/-- `n` XCLK settle the claims that wait, 12 R427. -/
def State.runClaims : Nat → State → State
  | 0, s => s
  | n + 1, s => if s.ic.waiting = [] then { s with ic := { s.ic with settled := 0 } } else State.runClaims n s.tickClaims

/-- A write of ID `i` to the completion register of context `c`, 12 R429. -/
def State.complete (s : State) (c i : Nat) : State :=
  if i = 1023 then s
  else
    let x := s.src i
    if x.active = false ∨ x.ctx ≠ c then (s.wr IC_ERR IC_ERR_BADCOMPLETE 1).count IC_BADCPL IC_BADCPL_COUNT 1
    else
      let s := s.setSrc i { x with active := false, preempt := false }
      let s := if srcIsState i && x.cond then s.assert i else s
      let s := { s with ic := { s.ic with sent := sset (fun _ => none) s.ic.sent c none } }
      if c > ctxSteward then (s.refreshHost c).refreshAll else s.refreshAll

/-- A write of an ID to IC_SGI, 12 R432. -/
def State.sgi (s : State) (i : Nat) : State :=
  if 960 ≤ i ∧ i ≤ 1019 then s.assert i else s.wr IC_ERR IC_ERR_BADSGI 1

/-- A tenant page doorbell write by tenant `t`, 12 R432. -/
def State.doorbell (s : State) (t i : Nat) : State :=
  if 960 ≤ i ∧ i ≤ 1019 ∧ s.rd (IC_SRC_CFG i) IC_SRC_CFG_OWNER = t then s.assert i else s

/-- A source that is asserted when hardware sets W1C bit `f` of a register, 12 R602. -/
def State.setErr (s : State) (off : Nat) (f : Fld) (src : Nat) : State := (s.wr off f 1).assert src

end Sys2Proof.Machine
end

