-- ==== Sys2Proof/Machine/Recorder.lean ====
section
/-! DEFINITION. The Marigold event recorder (18 R570 to R573, R604) and event channels (12 R437 to R440). -/
namespace Sys2Proof.Machine
open Reg

/-! Severities, 18 R570. -/
def sevInfo : Nat := 1
def sevNotice : Nat := 2
def sevWarning : Nat := 3
def sevError : Nat := 4
def sevCritical : Nat := 5

/-- Source unit field, 18 R570. -/
def unitOf (kind inst : Nat) : Nat := kind * 2 ^ 12 + inst
def unitSteward : Nat := unitOf 0 0
def unitEngine (e : Nat) : Nat := unitOf 1 e
def unitCluster (c : Nat) : Nat := unitOf 2 c
def unitSlice (n : Nat) : Nat := unitOf 3 n
def unitPort (p : Nat) : Nat := unitOf 4 p
def unitGavotte : Nat := unitOf 5 0
def unitQueue : Nat := unitOf 6 0
def unitLoader : Nat := unitOf 8 0
def unitUpdate : Nat := unitOf 9 0
def unitKey : Nat := unitOf 10 0
def unitMargin (c : Nat) : Nat := unitOf 11 c

/-- Class and usual severity of a record whose event asserts source `i`, 18 R604. -/
def srcClassSev (i : Nat) : Nat × Nat :=
  if i = 255 then (5, sevError)
  else if i = 256 then (0, sevNotice)
  else if i = 257 then (0, sevWarning)
  else if 640 ≤ i ∧ i < 676 then
    let k := (i - 640) % 6
    (6, if k = 0 then sevError else if k = 3 ∨ k = 5 then sevNotice else sevWarning)
  else if i = 676 ∨ i = 684 then (11, sevError)
  else if i = 677 ∨ i = 679 ∨ i = 683 then (11, sevWarning)
  else if i = 678 ∨ i = 680 then (11, sevNotice)
  else if i = 685 then (11, sevCritical)
  else if 720 ≤ i ∧ i < 768 then (2, sevError)
  else if 768 ≤ i ∧ i < 800 then (3, sevWarning)
  else if 800 ≤ i ∧ i ≤ 816 then (3, sevError)
  else if (848 ≤ i ∧ i < 864) ∨ (880 ≤ i ∧ i < 896) then (1, sevNotice)
  else if 864 ≤ i ∧ i < 880 then (1, sevError)
  else if i = 896 ∨ i = 897 then (1, sevError)
  else if i = 898 ∨ i = 899 then (1, sevWarning)
  else if i = 912 ∨ i = 913 then (10, sevNotice)
  else if i = 914 then (8, sevNotice)
  else if i = 915 then (8, sevWarning)
  else if i = 916 then (7, sevNotice)
  else if 920 ≤ i ∧ i < 936 then (9, sevCritical)
  else (9, sevError)

/-- CODE of a record whose event asserts source `i`. -/
def srcCode (i : Nat) : Nat := (srcClassSev i).1 * 2 ^ 12 + i

/-- Flags taken at submission, 18 R570: LOCKED and TAI_LOCK. -/
def State.mflags (s : State) : Nat :=
  b2n (s.rd GAV_STAT GAV_STAT_STATE == 0) + 2 * s.rd GAV_STAT GAV_STAT_TAI_LOCK

/-- A submission made now. -/
def State.msub (s : State) (code sev unit p0 p1 tenant : Nat) : MSub :=
  { code := code, sev := sev, unit := unit, p0 := p0 % 2 ^ 32, p1 := p1 % 2 ^ 32, tenant := tenant, flags := s.mflags,
    tai := s.gav.tai, mono := s.gav.mono, angle := (s.gav.acc / 2 ^ 32) % 2 ^ 32 }

/-- A record of this severity or code is also copied to flash, 18 R569 and R573. -/
def toFlash (sev code : Nat) : Bool := 5 ≤ sev || code == 0x9C01

/-- The flash ring with the page after that of record `h` erased, when `h` is the first record of its page of 128, 18 R573. -/
def eraseAhead (h : Nat) (l : Sparse MRec) : Sparse MRec := if h % 128 = 0 then l.filter fun p => p.1 / 128 != (h / 128 + 1) % 1024 else l

/-- Put a record into the flash ring, 18 R573. -/
def State.flashCopy (s : State) (r : MRec) : State :=
  let h := (s.rd MGD_FLASH MGD_FLASH_HEAD + 1) % 2 ^ 17
  { s.wr MGD_FLASH MGD_FLASH_HEAD h with mgd := { s.mgd with flash := sset (fun _ => MRec.zero) (eraseAhead h s.mgd.flash) h r } }

/-- Put a record into the DRAM ring, 18 R573. -/
def State.dramCopy (s : State) (r : MRec) : State :=
  let h := (s.rd MGD_DRAM MGD_DRAM_HEAD + 1) % 2 ^ 21
  let s := { s.wr MGD_DRAM MGD_DRAM_HEAD h with mgd := { s.mgd with dram := sset (fun _ => MRec.zero) s.mgd.dram h r } }
  if h = 0 then s.count MGD_DRAM MGD_DRAM_WRAPS 1 else s

/-- The record in ring slot `i`. -/
def State.mrec (s : State) (i : Nat) : MRec := sget (fun _ => MRec.zero) s.mgd.ring i

/-- Spill the 32 oldest unspilled records while more than 6,144 are unspilled, 18 R573. -/
def State.spill (s : State) : State :=
  let n := s.rd MGD_STAT MGD_STAT_COUNT
  if n > 6144 then
    let h := s.rd MGD_STAT MGD_STAT_HEAD
    let slots := (List.range 32).map fun k => (h + 8192 - n + 1 + k) % 8192
    let s := eachDo slots (fun i t => t.dramCopy (t.mrec i)) s
    { s.wr MGD_STAT MGD_STAT_COUNT (n - 32) with
      mgd := { s.mgd with fold := s.mgd.fold.filter fun f => !slots.contains f.slot } }
  else s

/-- The fold-table entry of a code and source unit, 18 R572. -/
def State.foldOf (s : State) (x : MSub) : Option MFold :=
  s.mgd.fold.find? fun f => (s.mrec f.slot).code == x.code && (s.mrec f.slot).unit == x.unit

/-- The difference of two instants. -/
def absDiff (a b : Nat) : Nat := max a b - min a b

/-- Whether a submission folds into the record of a fold-table entry, 18 R572. -/
def State.folds (s : State) (x : MSub) (f : MFold) : Bool :=
  let r := s.mrec f.slot
  r.p0 == x.p0 && r.p1 == x.p1 && r.tenant == x.tenant && absDiff x.mono f.mono ≤ 1000000000

/-- A number is a power of two. -/
def isPow2 (n : Nat) : Bool := n != 0 && 2 ^ Nat.log2 n == n

/-- Write or fold one submission, 18 R572 and R573. -/
def State.writeRec (s : State) (x : MSub) : State :=
  let rest := s.mgd.fold.filter fun f => !((s.mrec f.slot).code == x.code && (s.mrec f.slot).unit == x.unit)
  let fresh : State :=
    let h := (s.rd MGD_STAT MGD_STAT_HEAD + 1) % 8192
    let fl := x.flags + (if s.mgd.lost then 4 else 0) + (if toFlash x.sev x.code then 8 else 0)
    let r : MRec := { code := x.code, sev := x.sev, flags := fl, unit := x.unit, rep := 1, tai := x.tai, angle := x.angle,
                      p0 := x.p0, p1 := x.p1, tenant := x.tenant }
    let t := (s.wr MGD_STAT MGD_STAT_HEAD h).wr MGD_STAT MGD_STAT_COUNT (s.rd MGD_STAT MGD_STAT_COUNT + 1)
    let t := { t with mgd := { t.mgd with ring := sset (fun _ => MRec.zero) t.mgd.ring h r, lost := false,
                                          fold := (MFold.mk h x.mono :: rest).take 256 } }
    let t := if toFlash x.sev x.code then t.flashCopy r else t
    let t := if 5 ≤ x.sev then { t with mgd := { t.mgd with critical := t.mgd.critical + 1 } }.assert 938 else t
    t.spill
  match s.foldOf x with
  | some f =>
    if s.folds x f then
      let r := s.mrec f.slot
      let r := { r with rep := satAdd 16 r.rep 1 }
      let t := { s with mgd := { s.mgd with ring := sset (fun _ => MRec.zero) s.mgd.ring f.slot r,
                                            fold := MFold.mk f.slot x.mono :: rest } }
      if toFlash r.sev r.code && isPow2 r.rep then t.flashCopy r else t
    else fresh
  | none => fresh

/-- One submission is lost, 18 R571. -/
def State.loseRec (s : State) : State :=
  { s.count MGD_LOST MGD_LOST_COUNT 1 with mgd := { s.mgd with lost := true } }.assert 939

/-- Insert a submission behind those of lower or equal source unit. -/
def insUnit (x : MSub) : List MSub → List MSub
  | [] => [x]
  | y :: r => if x.unit < y.unit then x :: y :: r else y :: insUnit x r

/-- The submissions of one XCLK, 18 R571: up to four are taken, the buffer's first; the rest wait, and beyond 64 are lost. -/
def State.submit (s : State) (arr : List MSub) : State :=
  let arr := arr.foldl (fun l x => insUnit x l) []
  let buf := s.mgd.buffer
  let fromBuf := buf.take 4
  let fromArr := arr.take (4 - fromBuf.length)
  let later := arr.drop (4 - fromBuf.length)
  let kept := buf.drop 4
  let room := 64 - kept.length
  let s := { s with mgd := { s.mgd with buffer := kept ++ later.take room } }
  let s := eachDo (fromBuf ++ fromArr) (fun x t => t.writeRec x) s
  eachDo (later.drop room) (fun _ t => t.loseRec) s

/-- Record an event that asserts source `i`, with the severity of R604. -/
def State.record (s : State) (i unit p0 p1 tenant : Nat) : State :=
  s.submit [s.msub (srcCode i) (srcClassSev i).2 unit p0 p1 tenant]

/-- Record an event that asserts source `i`, with a severity that its rule names. -/
def State.recordSev (s : State) (i sev unit p0 p1 tenant : Nat) : State :=
  s.submit [s.msub (srcCode i) sev unit p0 p1 tenant]

/-- Record an event with a code of its own, 18 R604. -/
def State.recordCode (s : State) (code sev unit p0 p1 tenant : Nat) : State :=
  s.submit [s.msub code sev unit p0 p1 tenant]

/-- CRC-16/CCITT of a list of bytes, 18 R570. -/
def crc16 (bs : List Nat) : Nat :=
  bs.foldl (fun c b => (List.range 8).foldl
    (fun c _ => if c ≥ 0x8000 then ((c * 2) % 2 ^ 16) ^^^ 0x1021 else c * 2) (c ^^^ (b * 256))) 0xFFFF

/-- The bytes of a number, least significant first. -/
def leBytes (n x : Nat) : List Nat := (List.range n).map fun i => (x >>> (8 * i)) % 256

/-- The number of a list of bytes, least significant first. -/
def ofLeBytes (bs : List Nat) : Nat := bs.foldr (fun b x => b + 256 * x) 0

/-- The 32 bytes of a record with its CRC, 18 R570; an empty slot reads 0. -/
def MRec.bytes (r : MRec) : List Nat :=
  if r.rep = 0 then List.replicate 32 0
  else
    let body := leBytes 2 r.code ++ [r.sev + 16 * (r.code / 2 ^ 12), r.flags] ++ leBytes 2 r.unit ++ leBytes 2 r.rep ++
      leBytes 8 r.tai ++ leBytes 4 r.angle ++ leBytes 4 r.p0 ++ leBytes 4 r.p1 ++ leBytes 2 r.tenant
    body ++ leBytes 2 (crc16 body)

/-- Word `w` of a record, 18 R570. -/
def MRec.word (r : MRec) (w : Nat) : Word := BitVec.ofNat 64 (ofLeBytes ((r.bytes.drop (8 * w)).take 8))

/-- Level of an input as it is sampled at PCLK edges: GP0 to GP31 in PIN_GPIO_IN, the others beside it. -/
def State.pinLevel (s : State) (n : Nat) : Bool :=
  if n < 32 then bits (s.reg PIN_GPIO_IN).toNat n 1 == 1 else sget (fun _ => false) s.pins.level n

/-- The gate of a channel passes, 12 R438. -/
def State.gateOpen (s : State) (g : Nat) : Bool :=
  if g = 0 then true
  else if g = 1 then s.rd GAV_STAT GAV_STAT_STATE == 0
  else if g = 2 then s.flag GAV_STAT GAV_STAT_TAI_LOCK
  else if g = 3 then s.rd BSL_STAT BSL_STAT_CONFIG == 0
  else if g < 36 then s.pinLevel (g - 4)
  else if g < 52 then bits (s.reg EVR_SWGATE).toNat (g - 36) 1 == 1
  else false

/-- A pulse on channel `ch` up to its interrupt source, 12 R438 and R439: gate, FIRED or BLOCKED, source 512 + channel. -/
def State.pulse0 (s : State) (ch : Nat) : State :=
  if s.gateOpen (s.rd (EVR_CH_CFG ch) EVR_CH_CFG_GATE) then
    (s.count (EVR_CH_CNT ch) EVR_CH_CNT_FIRED 1).assert (512 + ch)
  else s.count (EVR_CH_CNT ch) EVR_CH_CNT_BLOCKED 1

/-- Edge detector `e` samples level `b` of its input, 02 R74: a level other than the filtered one begins to hold, and the filtered one ends that. -/
def State.edgeSample (s : State) (e : Nat) (b : Bool) : State :=
  let c := sget (fun _ => none) s.gav.cands e
  let c := if s.flag (GAV_EDGE_STAT e) GAV_EDGE_STAT_LEVEL == b then none
    else if c.isSome then c else some ⟨b, s.time, s.gav.tai, s.gav.xclk⟩
  { s with gav := { s.gav with cands := sset (fun _ => none) s.gav.cands e c } }

/-- Edge detector `e` takes a level as its reference, 19 R593. -/
def State.edgeRefer (s : State) (e : Nat) (b : Bool) : State :=
  { s.wr (GAV_EDGE_STAT e) GAV_EDGE_STAT_LEVEL (b2n b) with gav := { s.gav with cands := sset (fun _ => none) s.gav.cands e none } }

/-- The edge detectors that watch input `n`, 02 R74. -/
def State.edgesOn (s : State) (n : Nat) : List Nat := (List.range 32).filter fun e => s.rd (GAV_EDGE_CTRL e) GAV_EDGE_CTRL_SRC == n

/-! GP pins, 19 R592, R593 and R605: outputs and functions change, and PIN_GPIO_IN and the channels sample, at PCLK edges, every 10 XCLK. -/

/-- The XCLK of the next PCLK edge. -/
def State.nextPclk (s : State) : Nat := (s.gav.xclk / 10 + 1) * 10

/-- GP pins are not settled until the PCLK edge at XCLK `x`. -/
def State.unsettled (s : State) (x : Nat) : State := { s with pins := { s.pins with settle := max s.pins.settle x } }

/-- Level of input or GP pin `n`: an input and a released open-drain output have the board's. -/
def State.wire (s : State) (n : Nat) : Bool :=
  let out := sget (fun _ => false) s.pins.drive n
  let ext := sget (fun _ => false) s.pins.ext n
  if 32 ≤ n then sget (fun _ => false) s.pins.level n
  else
    match sget (fun _ => 0) s.pins.func n with
    | 0 => ext
    | 2 => out && ext
    | _ => out

/-- A function switch hides the samples of pin `n` in this XCLK, 19 R593. -/
def State.hidden (s : State) (n : Nat) : Bool :=
  let e0 := sget (fun _ => 0) s.pins.blind n
  e0 != 0 && decide (e0 ≤ s.gav.xclk) && decide (s.gav.xclk ≤ e0 + 10)

/-- The edge detectors on pin `n` sample it, or take its level as their reference. -/
def State.edgesSee (s : State) (n : Nat) : State :=
  eachDo (s.edgesOn n) (fun e t => if s.hidden n then t.edgeRefer e (s.wire n) else t.edgeSample e (s.wire n)) s

/-- The function of pin `n` and what it drives from now on. -/
def State.drivePin (s : State) (n : Nat) : State :=
  let f := s.rd (PIN_CFG n) PIN_CFG_FUNC
  let out := if f = 3 then sget (fun _ => false) s.ic.gpHigh (32 + n) else bits (s.reg PIN_GPIO_OUT).toNat n 1 == 1
  { s with pins := { s.pins with func := sset (fun _ => 0) s.pins.func n f, drive := sset (fun _ => false) s.pins.drive n (f != 0 && out) } }

/-- A pulse on channel `ch`, 12 R437 to R439; a firing of channel 32 to 63 drives its GP event output from the next PCLK edge, once while its pulse is in progress. -/
def State.pulse (s : State) (ch : Nat) : State :=
  let t := s.pulse0 ch
  if s.gateOpen (s.rd (EVR_CH_CFG ch) EVR_CH_CFG_GATE) && 32 ≤ ch && ch < 64 && s.flag (EVR_CH_CFG ch) EVR_CH_CFG_OUT &&
      s.rd (PIN_CFG (ch - 32)) PIN_CFG_FUNC == 3 && !sget (fun _ => false) s.ic.gpHigh ch then
    let last := s.nextPclk + 10 * s.rd EVR_OUTW EVR_OUTW_WIDTH
    { t with ic := { t.ic with gpHigh := sset (fun _ => false) t.ic.gpHigh ch true, gpEnd := sset (fun _ => 0) t.ic.gpEnd ch last } }.unsettled (last + 10)
  else t

/-- A pulse that an enabled connection of the channel carries, 12 R437: QUEUE or PORT. -/
def State.wirePulse (s : State) (ch : Nat) (en : Fld) : State := if s.flag (EVR_CH_CFG ch) en then s.pulse ch else s

/-- A pulse of a trigger entry, a timer or an edge detector: those of one channel in one XCLK are one pulse, 12 R439. -/
def State.gavPulse (s : State) (ch : Nat) : State :=
  if s.gav.pulsed.contains ch then s else { s with gav := { s.gav with pulsed := ch :: s.gav.pulsed } }.pulse ch

/-- A PCLK edge at GP pin `n`: an event output whose pulse ends falls, function and output follow, the edge detectors see the level, and PIN_GPIO_IN samples it, where a rising level
pulses the pin's channel (12 R437). A level that changes at this very edge may be seen at it or at the next, 19 R605: a free value. -/
def State.pinEdge1 (s : State) (n : Nat) : State :=
  let t : State := if sget (fun _ => 0) s.ic.gpEnd (32 + n) ≤ s.gav.xclk then { s with ic := { s.ic with gpHigh := sset (fun _ => false) s.ic.gpHigh (32 + n) false } } else s
  let t := (t.drivePin n).edgesSee n
  let x := if t.wire n = s.wire n then (1, t) else (t.takeFree.1.toNat, t.takeFree.2)
  if x.1 % 2 = 0 then x.2.unsettled (s.gav.xclk + 10)
  else
    let u := x.2.wr PIN_GPIO_IN ⟨n, 1, .ro, 0⟩ (b2n (t.wire n))
    if t.wire n && !s.pinLevel n && !s.hidden n && u.flag (EVR_CH_CFG n) EVR_CH_CFG_PIN then u.gavPulse n else u

/-- A PCLK edge at the GP pins. -/
def State.pinEdge (s : State) : State := eachDo (List.range 32) (fun n t => t.pinEdge1 n) s

/-- Pulses on several channels in one XCLK: a channel pulses once. -/
def State.pulses (s : State) (chs : List Nat) : State := eachDo chs.eraseDups (fun c t => t.pulse c) s

/-- Record an event with the fields of the register that logs it as parameters, 18 R570. -/
def State.recordReg (s : State) (i unit off : Nat) : State :=
  s.record i unit (bits (s.reg off).toNat 0 32) (bits (s.reg off).toNat 32 32) 0

end Sys2Proof.Machine
end

