-- ==== Sys2Proof/Machine/Memory.lean ====
section
/-! DEFINITION. DRAM lines, interleave, tenant windows, LVS storage and the directory: 01 R22 to R26, 06, 11 R404 to R414. -/
namespace Sys2Proof.Machine
open Reg

/-! Bytes and words of storage. -/

/-- One byte of storage. -/
def Mem.byte (m : Mem) (a : Nat) : Byte := sget (fun _ => 0) m.bytes a

/-- Write one byte of storage. -/
def Mem.setByte (m : Mem) (a : Nat) (b : Byte) : Mem := { m with bytes := sset (fun _ => 0) m.bytes a b }

/-- Tag of the word at address `8 * k`. -/
def Mem.tag (m : Mem) (k : Nat) : Tag := sget (fun _ => tagEmpty) m.tags k

/-- Set the tag of a word. -/
def Mem.setTag (m : Mem) (k : Nat) (t : Tag) : Mem := { m with tags := sset (fun _ => tagEmpty) m.tags k t }

/-- `n` bytes from address `a`, ascending. -/
def Mem.bytesAt (m : Mem) (a n : Nat) : List Byte := (List.range n).map fun i => m.byte (a + i)

/-- Write consecutive bytes. -/
def Mem.setBytes (m : Mem) (a : Nat) (bs : List Byte) : Mem :=
  match bs with
  | [] => m
  | b :: r => (m.setByte a b).setBytes (a + 1) r

/-- A word from its bytes, least significant first (00 R3). -/
def wordOf (bs : List Byte) : Word := BitVec.ofNat 64 (ofLeBytes (bs.map (·.toNat)))

/-- The bytes of a word, least significant first. -/
def bytesOf (w : Word) : List Byte := (List.range 8).map fun i => w.extractLsb' (8 * i) 8

/-- The tagged word at a word-aligned address. -/
def Mem.word (m : Mem) (a : Nat) : TWord := ⟨m.tag (a / 8), wordOf (m.bytesAt a 8)⟩

/-- Write a tagged word. -/
def Mem.setWord (m : Mem) (a : Nat) (x : TWord) : Mem := (m.setBytes a (bytesOf x.val)).setTag (a / 8) x.tag

/-- Errors of stored codewords. -/
def Mem.flaw (m : Mem) (k : Nat) : Ecc := sget (fun _ => Ecc.clean) m.flaws k

/-- Note the error of a stored codeword, or its repair. -/
def Mem.setFlaw (m : Mem) (k : Nat) (x : Ecc) : Mem := { m with flaws := sset (fun _ => Ecc.clean) m.flaws k x }

/-- Write a tagged word of an LVS with new check bits. -/
def Mem.putWord (m : Mem) (a : Nat) (x : TWord) : Mem := (m.setWord a x).setFlaw (a / 8) .clean

/-- Write consecutive tagged words. -/
def Mem.setWords (m : Mem) (a : Nat) (xs : List TWord) : Mem :=
  match xs with
  | [] => m
  | x :: r => (m.setWord a x).setWords (a + 8) r

/-! Address map, 06 R200 to R206. -/

/-- What an address reaches, 06 R200. -/
inductive Target where
  | dram
  | firmware
  | lvs (e off : Nat)
  | block
  | outbound
  | nothing
  deriving DecidableEq, Repr

/-- An interleave region, 06 R204. -/
structure Region where
  num : Nat
  base : Nat
  size : Nat
  mode : Nat
  stack : Nat
  slice : Nat
  res : Nat
  partition : Nat
  deriving DecidableEq, Repr

/-- A region from its element, 15 R505. -/
def regionOfElem (num : Nat) (ws : List Word) : Region :=
  { num := num, base := elemWord ws 0, size := elemWord ws 1, mode := bits (elemWord ws 2) 0 2,
    stack := bits (elemWord ws 2) 2 3, slice := bits (elemWord ws 2) 8 5, res := bits (elemWord ws 2) 16 8,
    partition := bits (elemWord ws 2) 32 8 }

/-- The defined regions in ascending number. -/
def regionsIn (cfg : Sparse (List Word)) : List Region :=
  (cfg.filter fun p => cfgKey 4 0 0 ≤ p.1 && p.1 < cfgKey 4 1 0).map fun p => regionOfElem (p.1 - cfgKey 4 0 0) p.2

/-- The region that holds a physical address. -/
def State.regionAt (s : State) (pa : Nat) : Option Region :=
  (regionsIn s.cfg).find? fun r => r.base ≤ pa && pa < r.base + r.size

/-- Number of pseudo-channels a mode uses. -/
def Region.npc (r : Region) : Nat := if r.mode = 0 then 256 else if r.mode = 1 then 32 else 8

/-- Whether a region uses pseudo-channel `p`. -/
def Region.uses (r : Region) (p : Nat) : Bool :=
  if r.mode = 0 then true else if r.mode = 1 then p / 32 == r.stack else p / 8 == r.slice

/-- Lines of a region on each of its pseudo-channels, 06 R206. -/
def Region.share (r : Region) : Nat := r.size / (64 * r.npc)

/-- Pseudo-channel of an address in a region, 06 R205. -/
def Region.pcOf (r : Region) (pa : Nat) : Nat :=
  if r.mode = 0 then bits pa 6 8 ^^^ bits pa 14 8 ^^^ bits pa 22 8
  else if r.mode = 1 then 32 * r.stack + (bits pa 6 5 ^^^ bits pa 11 5 ^^^ bits pa 16 5)
  else 8 * r.slice + (bits pa 6 3 ^^^ bits pa 9 3 ^^^ bits pa 12 3)

/-- Region line index of an offset, 06 R205. -/
def Region.index (r : Region) (o : Nat) : Nat := if r.mode = 0 then o / 2 ^ 14 else if r.mode = 1 then o / 2 ^ 11 else o / 2 ^ 9

/-- First line of a region on a pseudo-channel, 06 R206. -/
def State.pcBase (s : State) (r : Region) (p : Nat) : Nat :=
  (((regionsIn s.cfg).filter fun q => q.num < r.num && q.uses p).map Region.share).sum

/-- The machine firmware area as a GLOBAL region, 06 R201. -/
def firmwareRegion : Region := ⟨256, 0x002D00000000, 0x80000000, 0, 0, 0, 0, 0⟩

/-- Pseudo-channel and line P of a DRAM address, 06 R201 and R205; none in no region. -/
def State.place (s : State) (pa : Nat) : Option (Nat × Nat) :=
  if 0x002D00000000 ≤ pa ∧ pa < 0x002D80000000 then
    some (firmwareRegion.pcOf pa, 11796480 + firmwareRegion.index (pa - firmwareRegion.base))
  else (s.regionAt pa).map fun r => (r.pcOf pa, s.pcBase r (r.pcOf pa) + r.index (pa - r.base))

/-- Slice that serves an address, 06 R202; slice 0 stands for an address in no region, which never reaches a slice. -/
def State.sliceOf (s : State) (pa : Nat) : Nat := match s.place pa with | some (p, _) => p / 8 | none => 0

/-- The physical address of line `P` of pseudo-channel `p`, the inverse of 06 R205; none outside the regions and the firmware area. -/
def State.paOfLine (s : State) (p l : Nat) : Option Nat :=
  let inv (r : Region) (i : Nat) : Nat :=
    if r.mode = 0 then
      let hi := (r.base + i * 2 ^ 14) / 2 ^ 14
      hi * 2 ^ 14 + (p ^^^ bits hi 0 8 ^^^ bits hi 8 8) * 64
    else if r.mode = 1 then
      let hi := (r.base + i * 2 ^ 11) / 2 ^ 11
      hi * 2 ^ 11 + (p % 32 ^^^ bits hi 0 5 ^^^ bits hi 5 5) * 64
    else
      let hi := (r.base + i * 2 ^ 9) / 2 ^ 9
      hi * 2 ^ 9 + (p % 8 ^^^ bits hi 0 3 ^^^ bits hi 3 3) * 64
  if 11796480 ≤ l ∧ l < 11927552 then some (inv firmwareRegion (l - 11796480))
  else
    ((regionsIn s.cfg).find? fun r => r.uses p && s.pcBase r p ≤ l && l < s.pcBase r p + r.share).map
      fun r => inv r (l - s.pcBase r p)

/-! Where lines are stored, 06 R201 and R227 to R230. -/

/-- First line of the sparing area of a pseudo-channel, 06 R201. -/
def spareBase : Nat := 12058624

/-- Storage line of line `l` of pseudo-channel `p`. -/
def cellLine (p l : Nat) : Nat := p * 2 ^ 24 + l

/-- Sparing place of line `l` of pseudo-channel `p`, 06 R227. -/
def sparePlace (p l : Nat) : Nat × Nat :=
  let k := l % 31
  (p / 32 * 32 + (if k < p % 32 then k else k + 1), spareBase + l / 31)

/-- State of pseudo-channel `p`. -/
def State.pcState (s : State) (p : Nat) : Nat := s.rd (SLC_PC (p / 8) (p % 8)) SLC_PC_STATE

/-- Set the state of pseudo-channel `p`. -/
def State.setPcState (s : State) (p v : Nat) : State := s.wr (SLC_PC (p / 8) (p % 8)) SLC_PC_STATE v

/-- The remap table of the slice serves pseudo-channel `p`, 06 R227 to R230. -/
def State.retired (s : State) (p : Nat) : Bool := s.pcState p != 0 && s.pcState p != 7

/-- Line `l` of pseudo-channel `p` is served from the sparing area: below the migration pointer on the way out, from it on on the way back, 06 R228 and R230. -/
def State.spared (s : State) (p l : Nat) : Bool :=
  decide (l < spareBase) && s.retired p &&
    (if s.pcState p = 1 then decide (l < s.rd (SLC_MIGPOS (p / 8)) SLC_MIGPOS_LINE)
     else if s.pcState p = 6 then decide (s.rd (SLC_MIGPOS (p / 8)) SLC_MIGPOS_LINE ≤ l) else true)

/-- The pseudo-channel and line that serve line `l` of pseudo-channel `p`. -/
def State.served (s : State) (p l : Nat) : Nat × Nat := if s.spared p l then sparePlace p l else (p, l)

/-- The line of a pseudo-channel that line `l` of pseudo-channel `p` serves, if it serves one. -/
def State.homeOf (s : State) (p l : Nat) : Option (Nat × Nat) :=
  if l < spareBase then (if s.spared p l then none else some (p, l))
  else (List.range 32).findSome? fun i =>
    let q := p / 32 * 32 + i
    let h := 31 * (l - spareBase) + (if p % 32 < i then p % 32 else p % 32 - 1)
    if i ≠ p % 32 ∧ s.spared q h then some (q, h) else none

/-- The physical address of the line that line `l` of pseudo-channel `p` serves; none where no master can address it. -/
def State.paOfCell (s : State) (p l : Nat) : Option Nat := (s.homeOf p l).bind fun h => s.paOfLine h.1 h.2

/-- Storage line of a physical line; a line in no region has a storage line that nothing else uses, and no request reaches it. -/
def State.cell (s : State) (l : Nat) : Nat :=
  match s.place (l * 64) with
  | some (p, k) => cellLine (s.served p k).1 (s.served p k).2
  | none => 2 ^ 32

/-- What a physical address reaches, 06 R200 and 19 R577. -/
def State.target (s : State) (pa : Nat) : Target :=
  if pa < 0x002D00000000 then (if (s.regionAt pa).isSome then .dram else .nothing)
  else if pa < 0x002D80000000 then .firmware
  else if 0x800000000000 ≤ pa ∧ pa < 0x800000000000 + 208 * 0x100000 then
    .lvs ((pa - 0x800000000000) / 0x100000) ((pa - 0x800000000000) % 0x100000)
  else if 0xF80000000000 ≤ pa ∧ pa < 2 ^ 48 then .outbound
  else if (0xF00000000000 ≤ pa ∧ pa < 0xF00004000000) ∨ (0xF10000000000 ≤ pa ∧ pa < 0xF10020000000) then .block
  else .nothing

/-! Tenant windows, 01 R22 to R26. -/

/-- Kinds of access a window grants, 01 R24. -/
inductive Acc4 where
  | read
  | write
  | exec
  | stream
  deriving DecidableEq, Repr

/-- Bit of PERM of an access kind. -/
def Acc4.bit : Acc4 → Nat
  | .read => 2
  | .write => 3
  | .exec => 4
  | .stream => 5

/-- Result of resolving a tenant address: a physical address, the tenant page at an offset, a fault with its cause, or an LVS window of a lost index. -/
inductive Resolve where
  | ok (pa : Nat)
  | page (off : Nat)
  | bad (cause : Nat)
  | lost
  deriving DecidableEq, Repr

/-- Resolve tenant address `ta` of tenant `t` for access kinds `ks`, at U level when `u`, 01 R25 and R26, 19 R579. -/
def State.resolveTa (s : State) (t : Nat) (u : Bool) (ks : List Acc4) (ta : Nat) : Resolve :=
  if ta ≥ 2 ^ 46 then .bad cWindow
  else if 0x3FFFFFFF0000 ≤ ta then
    if ks.contains .exec || ks.contains .stream then .bad cPerm else .page (ta - 0x3FFFFFFF0000)
  else
    let ws := s.elem 4 1 (t * 64 + ta / 2 ^ 40)
    let e := elemWord ws 0 + elemWord ws 1 * 2 ^ 64
    let off := ta % 2 ^ 40
    if bits e 0 1 = 0 then .bad cWindow
    else if off ≥ (bits e 68 28 + 1) * 4096 then .bad cWindow
    else if ks.any (fun k => bits e k.bit 1 == 0) || (u && bits e 6 1 == 1) then .bad cPerm
    else if bits e 1 1 = 0 then .ok (bits e 32 36 * 4096 + off)
    else
      match s.physOf (bits e 16 8) with
      | none => .lost
      | some pe => .ok (0x800000000000 + pe * 0x100000 + bits e 32 36 * 4096 + off)

/-! Slices: lines, errors and events. -/

/-- Sideband of storage line `c`. -/
def Mem.side (m : Mem) (c : Nat) : LineMeta := sget (fun _ => LineMeta.clean) m.lines c

/-- The eight words of storage line `c`. -/
def Mem.cellWords (m : Mem) (c : Nat) : List TWord := (List.range 8).map fun i => m.word (c * 64 + 8 * i)

/-- Write storage line `c` anew: its words, its sideband and its code. -/
def Mem.putCell (m : Mem) (c : Nat) (ws : List TWord) (x : LineMeta) : Mem :=
  let n := (m.setWords (c * 64) ws).setFlaw c .clean
  { n with lines := sset (fun _ => LineMeta.clean) n.lines c x }

/-- Metadata of line `l` (PA[47:6]). -/
def State.line (s : State) (l : Nat) : LineMeta := s.mem.side (s.cell l)

/-- The eight stored words of a line. -/
def State.lineWords (s : State) (l : Nat) : List TWord := s.mem.cellWords (s.cell l)

/-- The worse of two findings of a check. -/
def worse (a b : Ecc) : Ecc := if a = .uncorrectable ∨ b = .uncorrectable then .uncorrectable else if a = .clean then b else a

/-- What the check of line `l` finds when the environment's part is `ecc` (log entry 3). -/
def State.finds (s : State) (l : Nat) (ecc : Ecc) : Ecc := worse ecc (s.mem.flaw (s.cell l))

/-- A corrected error stays in the stored copy until the scrubber or a write repairs it, 06 R218. -/
def State.stale (s : State) (l : Nat) : State := { s with mem := s.mem.setFlaw (s.cell l) .corrected }

/-- Eight poisoned words. -/
def poisonLine : List TWord := List.replicate 8 twPoison

/-- A CLEAN line's contents. -/
def emptyLine : List TWord := List.replicate 8 ⟨tagEmpty, 0⟩

/-- Current key generation of a KEYID, 06 R216. -/
def State.keyGen (s : State) (k : Nat) : Nat := sget (fun _ => 0) s.mem.keygen k

/-- Write SLC_ERRLOG, 06 R221. -/
def State.slcLog (s : State) (sl kind l key : Nat) : State :=
  s.setReg (SLC_ERRLOG sl) (BitVec.ofNat 64 (kind + (l % 2 ^ 42) * 2 ^ 6 + (key % 2 ^ 13) * 2 ^ 48))

/-- A slice event: its SLC_ERR bit, source 720 + slice and a record carrying the KEYID as tenant, 06 R221 and R245. -/
def State.slcEvent (s : State) (sl : Nat) (f : Fld) (sev key : Nat) : State :=
  (s.setErr (SLC_ERR sl) f (720 + sl)).recordSev (720 + sl) sev (unitSlice sl)
    (bits (s.reg (SLC_ERRLOG sl)).toNat 0 32) (bits (s.reg (SLC_ERRLOG sl)).toNat 32 32) key

/-- Set the REMAP bit of every other pseudo-channel of the stack of `p`, 06 R228. -/
def State.setRemap (s : State) (p : Nat) (b : Bool) : State :=
  eachDo ((List.range 32).map fun i => p / 32 * 32 + i)
    (fun q t => if q = p then t else t.wr (SLC_PC (q / 8) (q % 8)) SLC_PC_REMAP (b2n b)) s

/-- The Steward rewrites the remap table of pseudo-channel `p`, which makes both copies of its entries good, 06 R231. -/
def State.rewriteRemap (s : State) (p : Nat) : State :=
  { s with mem := { s.mem with remapBad := s.mem.remapBad.filter fun x => x.1 / 2 ^ 24 != p } }

/-- Start a migration of pseudo-channel `p`. -/
def State.startMig (s : State) (p dir : Nat) : State :=
  let s := s.rewriteRemap p
  (((s.wr (SLC_STAT (p / 8)) SLC_STAT_MIG_PC (p % 8)).wr (SLC_STAT (p / 8)) SLC_STAT_MIG_ACTIVE 1).wr
    (SLC_STAT (p / 8)) SLC_STAT_MIG_DIR dir).wr (SLC_MIGPOS (p / 8)) SLC_MIGPOS_LINE 0

/-- Another pseudo-channel of the stack of `p` is retired or migrating, 06 R226. -/
def State.stackHolds (s : State) (p : Nat) : Bool := (List.range 32).any fun i => p / 32 * 32 + i != p && s.retired (p / 32 * 32 + i)

/-- Retire pseudo-channel `p`, 06 R225, R226 and R228. -/
def State.retirePc (s : State) (p : Nat) : State :=
  if s.stackHolds p then (s.setPcState p 7).slcEvent (p / 8) SLC_ERR_RETIRE_REFUSED sevCritical 0
  else (((s.setPcState p 1).setRemap p true).startMig p 0).slcEvent (p / 8) SLC_ERR_RETIRE sevWarning 0

/-- Pseudo-channel `p` meets a condition of 06 R225: it retires, or stays FAILED_UNRETIRED while its stack holds another (R226). -/
def State.meetsLimit (s : State) (p : Nat) : State :=
  if s.pcState p = 0 ∨ (s.pcState p = 7 ∧ !s.stackHolds p) then s.retirePc p else s

/-- An uncorrectable event on pseudo-channel `p` counts toward retirement, 06 R225. -/
def State.pcUe (s : State) (p : Nat) : State :=
  let day := 24 * 3600 * 10 ^ 9
  let l : List Nat := s.gav.mono :: (sget (fun _ => []) s.mem.ueTimes p).filter fun t => s.gav.mono < t + day
  let s : State := { s.count (SLC_PCUE (p / 8) (p % 8)) SLC_PCUE_UE 1 with mem := { s.mem with ueTimes := sset (fun _ => []) s.mem.ueTimes p l } }
  if l.length ≥ s.rd (SLC_RETPOL (p / 8)) SLC_RETPOL_UE_LIMIT then s.meetsLimit p else s

/-- A corrected event on pseudo-channel `p`: counters and the limit of a scrub pass, 06 R218 and R225. -/
def State.pcCe (s : State) (p : Nat) : State :=
  let n := sget (fun _ => 0) s.mem.cePass p + 1
  let s := (s.count (SLC_CE (p / 8)) SLC_CE_COUNT 1).count (SLC_PC (p / 8) (p % 8)) SLC_PC_CE 1
  let s : State := { s with mem := { s.mem with cePass := sset (fun _ => 0) s.mem.cePass p n } }
  if n ≥ s.rd (SLC_RETPOL (p / 8)) SLC_RETPOL_CE_LIMIT then s.meetsLimit p else s

/-- Storage line `c` becomes POISON with a reason, data 0 and all tags POISON, 06 R224. -/
def State.poisonCell (s : State) (c reason : Nat) : State :=
  { s with mem := s.mem.putCell c poisonLine { s.mem.side c with st := 2, reason := reason } }

/-- Line `l` becomes POISON with a reason and keeps its words. -/
def State.poisonMeta (s : State) (l reason : Nat) : State :=
  { s with mem := s.mem.putCell (s.cell l) (s.lineWords l) { s.line l with st := 2, reason := reason } }

/-- The pseudo-channel whose cells hold line `l`: the events of a spared line count on the one that spares it. -/
def State.cellPc (s : State) (l : Nat) : Nat := s.cell l / 2 ^ 24

/-- An uncorrectable line of storage, 06 R218, R220, R221 and R224: it becomes POISON, its slice logs the line, and its pseudo-channel counts the event. -/
def State.cellUe (s : State) (sl c l key : Nat) : State :=
  let s := ((s.poisonCell c 0).slcLog sl 1 l key).count (SLC_UE sl) SLC_UE_COUNT 1
  (s.slcEvent sl SLC_ERR_UE sevError key).pcUe (c / 2 ^ 24)

/-- An uncorrectable line found by an access, 06 R218, R220 and R221. -/
def State.lineUe (s : State) (l key : Nat) : State := s.cellUe (s.sliceOf (l * 64)) (s.cell l) l key

/-- A read integrity failure is logged, 06 R218 and R221. -/
def State.integEvent (s : State) (l key : Nat) : State :=
  let sl := s.sliceOf (l * 64)
  ((s.slcLog sl 2 l key).count (SLC_INTEG sl) SLC_INTEG_COUNT 1).slcEvent sl SLC_ERR_INTEG sevError key

/-- The integrity tag of line `l` verifies under `key`: the line was signed at this address with that key's present generation, 06 R214 (log entry 10). -/
def State.itagOk (s : State) (l key : Nat) : Bool :=
  (s.line l).keyid == key && (s.line l).gen == s.keyGen key && (s.line l).pa == l

/-- Account a corrected error of a line that is not POISON, 06 R218. -/
def State.eccCe (s : State) (l : Nat) (ecc : Ecc) : State :=
  if ecc = .corrected then (s.stale l).pcCe (s.cellPc l) else s

/-- Key of the remap entry of line `l` where the slice's remap table serves the line, 06 R227 to R231. -/
def State.remapKey (s : State) (l : Nat) : Option Nat :=
  match s.place (l * 64) with
  | some (p, k) => if s.retired p && decide (k < spareBase) then some (cellLine p (Config.remapEntry k % 2 ^ 24)) else none
  | none => none

/-- Copies of the remap entry of line `l` whose check fails: bits 0 and 1; bit 2 that the slice has reported it. -/
def State.remapCopies (s : State) (l : Nat) : Nat := ((s.remapKey l).map (sget (fun _ => 0) s.mem.remapBad)).getD 0

/-- Both copies of the remap entry of line `l` are uncorrectable, or the environment finds them so: its accesses answer ERR_TARGET, 06 R231. -/
def State.remapLost (s : State) (l : Nat) (ecc : Ecc) : Bool :=
  bits (s.remapCopies l) 0 2 == 3 || (ecc == .remapLost && (s.remapKey l).isSome)

/-- The slice reports that the remap entry of line `l` is lost, once until the table is rewritten, 06 R231. -/
def State.remapEcc (s : State) (l key : Nat) : State :=
  match s.remapKey l with
  | some k =>
    if s.remapCopies l = 7 then s
    else { s with mem := { s.mem with remapBad := sset (fun _ => 0) s.mem.remapBad k 7 } }.slcEvent (s.sliceOf (l * 64)) SLC_ERR_REMAP_ECC sevError key
  | none => s

/-- A line read at its slice, 06 R218: response, words and next state. -/
def State.sliceRead (s : State) (l key : Nat) (ecc : Ecc) : Nat × List TWord × State :=
  if s.remapLost l ecc then (errTarget, poisonLine, s.remapEcc l key)
  else if s.finds l ecc = .uncorrectable then (errPoison, poisonLine, s.lineUe l key)
  else if (s.line l).st ≥ 2 then (errPoison, poisonLine, s.slcLog (s.sliceOf (l * 64)) 4 l key)
  else
    let t := s.eccCe l (s.finds l ecc)
    if (s.line l).st = 1 then (respOk, emptyLine, t)
    else if s.itagOk l key then (respOk, s.lineWords l, t)
    else (errInteg, poisonLine, t.integEvent l key)

/-- Store a line VALID under a key. -/
def State.storeLine (s : State) (l key : Nat) (ws : List TWord) : State :=
  { s with mem := s.mem.putCell (s.cell l) ws ⟨0, 0, key, s.keyGen key, l⟩ }

/-- Merge bytes into a line's words: byte `i` of the line is replaced where `new i` gives one; the words touched take the tags that `tg` gives. -/
def mergeLine (ws : List TWord) (new : Nat → Option Byte) (tg : Nat → Option Tag) : List TWord :=
  (List.range 8).map fun w =>
    let old := ws.getD w ⟨tagEmpty, 0⟩
    let bs := (List.range 8).map fun i => (new (8 * w + i)).getD ((bytesOf old.val).getD i 0)
    ⟨(tg w).getD old.tag, wordOf bs⟩

/-- A partial-line write at its slice, 06 R220: response and next state. -/
def State.slicePartial (s : State) (l key : Nat) (ecc : Ecc) (new : Nat → Option Byte) (tg : Nat → Option Tag) : Nat × State :=
  let sl := s.sliceOf (l * 64)
  if s.remapLost l ecc then (errTarget, s.remapEcc l key)
  else if s.finds l ecc = .uncorrectable then (errPoison, s.lineUe l key)
  else if (s.line l).st ≥ 2 then (errPoison, s.slcLog sl 4 l key)
  else
    let t := s.eccCe l (s.finds l ecc)
    if (s.line l).st = 1 then (respOk, t.storeLine l key (mergeLine emptyLine new tg))
    else if s.itagOk l key then (respOk, t.storeLine l key (mergeLine (s.lineWords l) new tg))
    else
      let t := ((t.poisonMeta l 1).slcLog sl 3 l key).count (SLC_PWPOISON sl) SLC_PWPOISON_COUNT 1
      (errInteg, t.slcEvent sl SLC_ERR_PWPOISON sevError key)

/-! Command slots, 06 R208 to R211 and R229. -/

/-- Slots 31, 95, 159 and 223, which belong to remap traffic, 06 R209. -/
def remapSlot (n : Nat) : Bool := n % 64 == 31

/-- Command slots of 5/3 XCLK that have passed on pseudo-channel `p` at `t` ns, 06 R208; on a retired one the positions of its virtual frame, which advances with each remap slot of the other 31, R229. -/
def State.slotCount (s : State) (t p : Nat) : Nat :=
  let n := t * 3 / 5
  if s.retired p then n / 256 * 124 + 31 * ((n % 256 + 32) / 64) else n

/-- The present frame of pseudo-channel `p`, and the slot in it. -/
def State.frame (s : State) (p : Nat) : Nat := s.slotCount s.gav.mono p / 256
def State.slotNow (s : State) (p : Nat) : Nat := s.slotCount s.gav.mono p % 256

/-- The slots of the present frame that commands have taken on pseudo-channel `p`, as a mask. -/
def State.slotMask (s : State) (p : Nat) : Nat :=
  let x := sget (fun _ => (0, 0)) s.mem.slots p
  if x.1 = s.frame p then x.2 else 0

/-- The slots that SLICE regions own on pseudo-channel `p`; those of a commit act from the first frame that begins after it, 16 R526. -/
def State.resOf (s : State) (p : Nat) : List (Nat × Nat) :=
  sget (fun _ => []) (if s.slotCount s.mem.resAt p / 256 = s.frame p then s.mem.resOld else s.mem.resSlots) p

/-- A slot of pseudo-channel `p` that no owner of 06 R209 holds. -/
def State.unreserved (s : State) (p n : Nat) : Bool :=
  n != 255 && !(remapSlot n && s.flag (SLC_PC (p / 8) (p % 8)) SLC_PC_REMAP) && !((s.resOf p).any fun x => x.1 == n)

/-- The first reserved slot of SLICE region `r` on pseudo-channel `p` that is still to come in the present frame and that no command has taken. -/
def State.resSlot (s : State) (r p : Nat) : Option Nat :=
  ((s.resOf p).find? fun x => x.2 == r && decide (s.slotNow p ≤ x.1) && bits (s.slotMask p) x.1 1 == 0).map (·.1)

/-- The first slot from `n` on that is unreserved and not taken. -/
def State.openSlot (s : State) (p : Nat) : Nat → Nat → Option Nat
  | 0, _ => none
  | f + 1, n => if s.unreserved p n && bits (s.slotMask p) n 1 == 0 then some n else s.openSlot p f (n + 1)

/-- A command of region `r` takes one slot of pseudo-channel `p`: a reserved one of its region, else the next unreserved one; where the frame has none left, it waits for the next (no time passes in the model, log entry 10). -/
def State.takeSlot (s : State) (r p : Nat) : State :=
  match (match s.resSlot r p with | some n => some n | none => s.openSlot p (256 - s.slotNow p) (s.slotNow p)) with
  | some n => { s with mem := { s.mem with slots := sset (fun _ => (0, 0)) s.mem.slots p (s.frame p, s.slotMask p + 2 ^ n) } }
  | none => s

/-- A command of line `l` takes `n` command slots, 06 R208. -/
def State.takeSlots (s : State) (l n : Nat) : State :=
  match s.place (l * 64) with
  | some (p, _) =>
    let r := ((s.regionAt (l * 64)).map Region.num).getD 256
    eachDo (List.range n) (fun _ t => t.takeSlot r p) s
  | none => s

/-- A reserved slot serves a request of line `l` in the present frame, 06 R210 and 11 R398. -/
def State.reserved (s : State) (l : Nat) : Bool :=
  match s.regionAt (l * 64) with
  | some r => r.mode == 2 && (s.resSlot r.num (r.pcOf (l * 64))).isSome
  | none => false

/-- Slots for `k` wanted positions in turn: each takes the first slot from its position on, round the frame, that neither the scrubber nor remap traffic nor an earlier reservation owns. -/
def placeSlots (want : Nat → Nat) (taken : List (Nat × Nat)) (r : Nat) : Nat → List (Nat × Nat)
  | 0 => taken
  | k + 1 =>
    let t := placeSlots want taken r k
    let free := ((List.range 256).map fun i => (want k + i) % 256).find? fun n => n != 255 && !remapSlot n && !(t.any fun x => x.1 == n)
    match free with
    | some n => t ++ [(n, r)]
    | none => t

/-- The slots of region `r` among placed ones lie at most `g` apart, round the frame, 06 R209. -/
def gapsOk (l : List (Nat × Nat)) (r g : Nat) : Bool :=
  let own := (l.filter fun x => x.2 == r).map (·.1)
  own.all fun n => (List.range g).any fun i => own.contains ((n + i + 1) % 256)

/-- The slots that a slice reserves on pseudo-channel `p` for its SLICE regions: any placement at most ⌈256/RES⌉ apart is admitted, and an even one stands where the free one is not so (log entry 10). -/
def placeRes (p : Nat) (rs : List Region) : List (Nat × Nat) :=
  rs.foldl (fun l r =>
    let x := placeSlots (fun k => (Config.resSlot p r.num k).toNat) l r.num r.res
    if gapsOk x r.num ((256 + r.res - 1) / r.res) then x else placeSlots (fun k => k * 256 / r.res) l r.num r.res) []

/-- The slices place the reserved slots of the SLICE regions in force, 06 R209; `commit` tells a delta from the full load, before which no traffic runs. -/
def State.reserveSlots (s : State) (commit : Bool) : State :=
  let rs := (regionsIn s.cfg).filter fun r => r.mode == 2
  let ps := (rs.map fun r => r.slice).eraseDups.flatMap fun sl => (List.range 8).map fun n => 8 * sl + n
  let new := eachDo ps (fun p m => sset (fun _ => []) m p (placeRes p (rs.filter fun r => r.uses p))) []
  let old := if commit then eachDo (List.range 512) (fun p m => sset (fun _ => []) m p (s.resOf p)) [] else new
  { s with mem := { s.mem with resSlots := new, resOld := old, resAt := s.gav.mono } }

/-! The directory, 11 R406 to R414. -/

/-- Directory entry of line `l`. -/
def State.dirEntry (s : State) (l : Nat) : DirEntry := sget (fun _ => DirEntry.none) s.mem.dir l

/-- Set a directory entry; without an entry no cache holds a copy. -/
def State.setDir (s : State) (l : Nat) (d : DirEntry) : State :=
  { s with mem := { s.mem with dir := sset (fun _ => DirEntry.none) s.mem.dir l d,
                               copies := if d.st = 0 then sdel s.mem.copies l else s.mem.copies } }

/-- The words of line `l` as its holders have them. -/
def State.copyOf (s : State) (l : Nat) : List TWord :=
  match s.mem.copies.find? fun p => p.1 == l with
  | some p => p.2
  | none => s.lineWords l

/-- Data held in M, if any. -/
def State.dirtyLine (s : State) (l : Nat) : Option (List TWord) :=
  if (s.dirEntry l).st = 3 then some (s.copyOf l) else none

/-- Set the words that the holders of line `l` have. -/
def State.setCopy (s : State) (l : Nat) (x : List TWord) : State :=
  { s with mem := { s.mem with copies := sset (fun _ => []) s.mem.copies l x } }

/-- A request under a KEYID other than that of the line's entry, 11 R409. -/
def State.keyErr (s : State) (l key : Nat) : Bool := (s.dirEntry l).st != 0 && (s.dirEntry l).keyid != key

/-- Account a KEYID mismatch, 11 R409. -/
def State.keyErrEvent (s : State) (l key : Nat) : State :=
  (s.integEvent l key).count (SLC_DIR_KEYERR (s.sliceOf (l * 64))) SLC_DIR_KEYERR_COUNT 1

/-- Write the data of an M holder back to memory as a full line, 11 R407. -/
def State.collect (s : State) (l : Nat) : State :=
  match s.dirtyLine l with
  | some ws => (s.takeSlots l 1).storeLine l (s.dirEntry l).keyid ws
  | none => s

/-- A coherent line read by a stream or a non-caching master, 11 R407. -/
def State.cohRead (s : State) (l key : Nat) (ecc : Ecc) : Nat × List TWord × State :=
  if s.keyErr l key then (errInteg, poisonLine, s.keyErrEvent l key)
  else
    let s := s.takeSlots l 1
    match s.dirtyLine l with
    | some ws => (respOk, ws, s)
    | none => s.sliceRead l key ecc

/-- A coherent full-line write, 11 R407: copies are discarded; a line without a remap entry answers ERR_TARGET (06 R231). -/
def State.cohFull (s : State) (l key : Nat) (ws : List TWord) : Nat × State :=
  if s.keyErr l key then (errInteg, s.keyErrEvent l key)
  else if s.remapLost l .clean then (errTarget, s.remapEcc l key)
  else (respOk, ((s.takeSlots l 1).setDir l DirEntry.none).storeLine l key ws)

/-- A coherent partial-line write, 11 R407: holders are invalidated, an M holder's data is merged first. -/
def State.cohPartial (s : State) (l key : Nat) (ecc : Ecc) (new : Nat → Option Byte) (tg : Nat → Option Tag) : Nat × State :=
  if s.keyErr l key then (errInteg, s.keyErrEvent l key)
  else (((s.takeSlots l 2).collect l).setDir l DirEntry.none).slicePartial l key ecc new tg

/-- Directory entries of a slice, SLC_DIR_USED. -/
def State.dirUsed (s : State) (sl : Nat) : Nat := (s.mem.dir.filter fun p => s.sliceOf (p.1 * 64) == sl).length

/-- Make room for a new entry when the slice holds 65,536, 11 R406: the victim is free (log entry 7). -/
def State.dirRoom (s : State) (l : Nat) : State :=
  let sl := s.sliceOf (l * 64)
  let mine := s.mem.dir.filter fun p => s.sliceOf (p.1 * 64) == sl
  if mine.length < 65536 then s
  else
    let (w, s) := s.takeFree
    match mine[w.toNat % mine.length]? with
    | none => s
    | some (v, _) => ((s.collect v).setDir v DirEntry.none).count (SLC_DIR_BACKINV sl) SLC_DIR_BACKINV_COUNT 1

/-- Presence bits of the caches of the engine at position `pos` of cluster `c`: data or instruction caches. -/
def coreBit (c pos : Nat) (data : Bool) : Nat := 26 * c + (if data then pos else 13 + pos)

/-- The presence vectors that remain when only the clusters of a mask hold the line, 11 R405. -/
def keepCores (cores sharers : Nat) : Nat :=
  ((List.range 16).map fun c => if bits sharers c 1 = 1 then bits cores (26 * c) 26 * 2 ^ (26 * c) else 0).sum

/-- Remove holder `c` of a line; an entry with no holder is not kept. -/
def State.dropHolder (s : State) (l c : Nat) : State :=
  let d := s.dirEntry l
  let sh := setBits d.sharers c 1 0
  if sh = 0 then s.setDir l DirEntry.none
  else s.setDir l { d with sharers := sh, st := if d.st = 3 then 1 else d.st, cores := keepCores d.cores sh }

/-- Lines of a cluster cache, 11 R405: 4 MiB of 64-byte lines. -/
def clusterLines : Nat := 65536

/-- Lines of an instruction or a data cache, 00 R1: 64 KiB of 64-byte lines. -/
def coreLines : Nat := 1024

/-- A cluster cache that holds 65,536 lines gives up one before it takes another, 11 R405: its dirty data is written back (R407); the victim is free (log entry 7). -/
def State.cacheRoom (s : State) (c : Nat) : State :=
  if 16 ≤ c then s
  else
    let mine := s.mem.dir.filter fun p => bits p.2.sharers c 1 == 1
    if mine.length < clusterLines then s
    else
      let (w, s) := s.takeFree
      match mine[w.toNat % mine.length]? with
      | none => s
      | some (v, _) => (s.collect v).dropHolder v c

/-- The data or instruction caches of the engine at position `pos` of cluster `c` hold line `l`. -/
def State.inCore (s : State) (c pos : Nat) (data : Bool) (l : Nat) : Bool := bits (s.dirEntry l).cores (coreBit c pos data) 1 == 1

/-- A cache of an engine takes a line that its cluster cache holds; one that holds 1,024 lines first gives up a free one (07 R255, log entry 7). -/
def State.fillCore (s : State) (c pos : Nat) (data : Bool) (l : Nat) : State :=
  if 16 ≤ c ∨ s.inCore c pos data l ∨ bits (s.dirEntry l).sharers c 1 = 0 then s
  else
    let k := coreBit c pos data
    let clear (v : Nat) (t : State) : State := t.setDir v { t.dirEntry v with cores := setBits (t.dirEntry v).cores k 1 0 }
    let mine := s.mem.dir.filter fun p => bits p.2.cores k 1 == 1
    let t := if mine.length < coreLines then s
      else
        let (w, t) := s.takeFree
        match mine[w.toNat % mine.length]? with
        | none => t
        | some (v, _) => clear v t
    t.setDir l { t.dirEntry l with cores := setBits (t.dirEntry l).cores k 1 1 }

/-- The caches of engine `e` drop the lines that it may drop: instruction caches all of them, data caches those that are clean, or all when `all` (07 R276, 10 R357, R358 and R377). -/
def State.dropCores (s : State) (e : Nat) (instr : Bool) (data : Bool) (all : Bool) : State :=
  let c := clusterOf e
  eachDo (s.mem.dir.map (·.1)) (fun l t =>
    let d := t.dirEntry l
    let x := if instr then setBits d.cores (coreBit c (posOf e) false) 1 0 else d.cores
    let x := if data ∧ (all ∨ d.st ≠ 3) then setBits x (coreBit c (posOf e) true) 1 0 else x
    t.setDir l { d with cores := x }) s

/-- The data caches of an engine are written back and its caches emptied, 10 R377. -/
def State.flushCores (s : State) (e : Nat) : State := s.dropCores e true true true

/-- Number of holders in a sharer mask. -/
def popMask (m : Nat) : Nat := ((List.range 17).filter fun i => bits m i 1 == 1).length

/-- The error that line `l` of a cluster cache holds, 11 R416. -/
def State.ccFlaw (s : State) (c l : Nat) : Ecc := sget (fun _ => Ecc.clean) s.mem.ccFlaws (c * 2 ^ 42 + l)

/-- Set it. -/
def State.setCcFlaw (s : State) (c l : Nat) (e : Ecc) : State := { s with mem := { s.mem with ccFlaws := sset (fun _ => Ecc.clean) s.mem.ccFlaws (c * 2 ^ 42 + l) e } }

/-- A cluster cache checks a line that it delivers, 11 R416: a corrected error is counted and leaves, an uncorrectable line is counted, and source 800 + cluster and a record follow (R418, 18 R604). -/
def State.ccCheck (s : State) (c l : Nat) : State :=
  match s.ccFlaw c l with
  | .corrected => (s.count (CLU_CC_CE c) CLU_CC_CE_COUNT 1).setCcFlaw c l .clean
  | .uncorrectable => ((s.count (CLU_CC_UE c) CLU_CC_UE_COUNT 1).assert (800 + c)).record (800 + c) (unitCluster c) (l % 2 ^ 32) (l / 2 ^ 32) 0
  | _ => s

/-- RD_S by caching master `c` (0 to 15 a cluster, 16 the Steward), 11 R407. -/
def State.dirRdS (s : State) (c l key : Nat) : Nat × List TWord × State :=
  if s.keyErr l key then (errInteg, poisonLine, s.keyErrEvent l key)
  else
    let d := s.dirEntry l
    if bits d.sharers c 1 = 1 then (respOk, s.copyOf l, s)
    else
      let s := s.takeSlots l 1
      let r := match s.dirtyLine l with
        | some ws => (respOk, ws, s.collect l)
        | none => if d.st = 2 then (respOk, s.copyOf l, s) else s.sliceRead l key .clean
      if r.1 = respOk then
        let t := (if d.st = 0 then r.2.2.dirRoom l else r.2.2).cacheRoom c
        let sh := setBits d.sharers c 1 1
        (respOk, r.2.1, (t.setDir l { d with st := if popMask sh = 1 then 2 else 1, sharers := sh, keyid := key }).setCopy l r.2.1)
      else r

/-- RD_U by caching master `c`, 11 R407: the requester alone holds the line in M, with its data. -/
def State.dirRdU (s : State) (c l key : Nat) : Nat × List TWord × State :=
  if s.keyErr l key then (errInteg, poisonLine, s.keyErrEvent l key)
  else
    let d := s.dirEntry l
    let own := bits d.sharers c 1 == 1
    let r := if own then (respOk, s.copyOf l, s)
      else
        let s := s.takeSlots l 1
        match s.dirtyLine l with
        | some ws => (respOk, ws, s)
        | none => s.sliceRead l key .clean
    if r.1 = respOk then
      let t := if d.st = 0 then r.2.2.dirRoom l else r.2.2
      let t := if own then t else t.cacheRoom c
      (respOk, r.2.1, (t.setDir l ⟨3, setBits 0 c 1 1, key, 0, keepCores d.cores (setBits 0 c 1 1)⟩).setCopy l r.2.1)
    else r

/-! LVS storage, 06 R233 and R240. -/

/-- Storage address of byte 0 of a test region of engine `e`: 0 to 4,095 the LVS, then 16 spare regions, 16 of the escalation stack, and 4,128 the save buffer. -/
def lvsStore (e r : Nat) : Nat :=
  if r < 4096 then 0x800000000000 + e * 0x100000 + r * 256 else 2 ^ 48 + e * 2 ^ 16 + (r - 4096) * 256

/-- Region number of the save buffer. -/
def saveRegion : Nat := 4128

/-- The test region of engine `e` that Foxglove works on, and its phase. -/
def State.foxRegion (s : State) (e : Nat) : Nat := s.rd (FOX_STAT e) FOX_STAT_REGION
def State.foxPhase (s : State) (e : Nat) : Nat := s.rd (FOX_STAT e) FOX_STAT_PHASE

/-- The spare region that replaces test region `r`, if one does. -/
def State.foxSpare (s : State) (e r : Nat) : Option Nat :=
  (List.range 16).find? fun k => s.flag (FOX_MAP e k) FOX_MAP_VALID && s.rd (FOX_MAP e k) FOX_MAP_REGION == r

/-- The storage region in which a test region lies, 06 R241. -/
def State.foxReal (s : State) (e r : Nat) : Nat :=
  match s.foxSpare e r with
  | some k => 4096 + k
  | none => r

/-- The storage region that serves accesses to a storage region: the save buffer from MARCH to the end of RESTORE, and after exhaustion, 06 R240 to R242. -/
def State.foxServe (s : State) (e r : Nat) : Nat :=
  if (s.foxRegion e == r && (s.foxPhase e == 2 || s.foxPhase e == 3)) || sget (fun _ => 0) s.mem.foxStuck e == r + 1 then saveRegion
  else r

/-- Storage address that serves byte offset `o` of the test space of engine `e`. -/
def State.lvsAddr (s : State) (e o : Nat) : Nat := lvsStore e (s.foxServe e (s.foxReal e (o / 256))) + o % 256

/-- A word of an LVS at word-aligned offset `o` (the escalation stack follows at region 4,112). -/
def State.lvsWord (s : State) (e o : Nat) : TWord := s.mem.word (s.lvsAddr e o)

/-- A write to a region of the source LVS in WAITGAP marks it dirty, 10 R377. -/
def State.markDirty (s : State) (e r : Nat) : State :=
  let c := clusterOf e
  if s.rd (CLU_HOSTAT c) CLU_HOSTAT_PHASE = 2 ∧ s.rd (CLU_HOSTAT c) CLU_HOSTAT_SRC = posOf e ∧ r < 4096 ∧
      sget (fun _ => false) s.mem.hoDirty (c * 4096 + r) = false then
    let t : State := { s with mem := { s.mem with hoDirty := sset (fun _ => false) s.mem.hoDirty (c * 4096 + r) true } }
    let n := t.rd (CLU_HOSTAT c) CLU_HOSTAT_DIRTY + 1
    (t.wr (CLU_HOSTAT c) CLU_HOSTAT_DIRTY n).wr (CLU_HOSTAT c) CLU_HOSTAT_NEED (2704 + 4 * n)
  else s

/-- March failures of the current region of engine `e`, from MARCH to the end of RESTORE. -/
def State.foxFails (s : State) (e : Nat) : Nat := (sget (fun _ => none) s.mem.foxMarch e).getD 0

/-- The next free spare region, 06 R241. -/
def State.foxFree (s : State) (e : Nat) : Option Nat :=
  (List.range 16).find? fun k => !s.flag (FOX_MAP e k) FOX_MAP_VALID && !s.flag (FOX_MAP e k) FOX_MAP_BAD

/-- A permanent failure of region `r` needs a spare region: `r` itself, or the region that spare `r` replaces. -/
def State.foxNeeds (s : State) (e r : Nat) : Option Nat :=
  if 4096 ≤ r ∧ r < 4112 then
    if s.flag (FOX_MAP e (r - 4096)) FOX_MAP_VALID then some (s.rd (FOX_MAP e (r - 4096)) FOX_MAP_REGION) else none
  else if (s.foxSpare e r).isSome then none else some r

/-- The storage region to which RESTORE writes the save buffer back, 06 R240 and R241: the region itself, after two failures the next free spare region where one is needed, none for a spare region out of use. -/
def State.foxBack (s : State) (e : Nat) : Option Nat :=
  let r := s.foxRegion e
  if s.foxFails e = 2 then
    match s.foxNeeds e r with
    | some _ => (s.foxFree e).map (4096 + ·)
    | none => if 4096 ≤ r ∧ r < 4112 then none else some r
  else some r

/-- Write a word of an LVS, 06 R240: during SAVE of its region the save buffer is written too, and during RESTORE the region to which the buffer goes back. -/
def State.setLvsWord (s : State) (e o : Nat) (x : TWord) : State :=
  let t : State := { s with mem := s.mem.putWord (s.lvsAddr e o) x }
  let t := t.markDirty e (o / 256)
  if s.foxRegion e = s.foxReal e (o / 256) then
    if s.foxPhase e = 1 then { t with mem := t.mem.putWord (lvsStore e saveRegion + o % 256) x }
    else if s.foxPhase e = 3 then
      match s.foxBack e with
      | some q => { t with mem := t.mem.putWord (lvsStore e q + o % 256) x }
      | none => t
    else t
  else t

/-- Merge bytes into a word. -/
def mergeWord (old : TWord) (new : Nat → Option Byte) (tg : Option Tag) : TWord :=
  ⟨tg.getD old.tag, wordOf ((List.range 8).map fun i => (new i).getD ((bytesOf old.val).getD i 0))⟩

/-- Account an uncorrectable word at offset `o` of storage region `r`, 06 R235: its area, and its place in that area. -/
def State.lvsUe (s : State) (e r o : Nat) : State :=
  let area := if r < 4096 then 0 else if r < 4112 then 1 else if r < 4128 then 2 else 3
  let base := if area = 0 then 0 else if area = 1 then 4096 else if area = 2 then 4112 else 4128
  let w := ((r - base) * 256 + o % 256) / 8
  let s := (s.count (LVS_UE e) LVS_UE_COUNT 1).setReg (LVS_UELAST e) (BitVec.ofNat 64 (w % 2 ^ 17 * 8 + area * 2 ^ 20))
  (s.assert (752 + clusterOf e)).recordReg (752 + clusterOf e) (unitEngine e) (LVS_UELAST e)

end Sys2Proof.Machine
end

