-- ==== Sys2Proof/Machine/Micro.lean ====
section
/-! DEFINITION. The microword of the control cores (08 R286 to R293) and the loader's checks of a customer area (R300). -/
namespace Sys2Proof.Machine
open Reg

/-- A microword as a number, 08 R289. -/
abbrev Mw := Nat

/-! Fields of R289. -/
def mwNext (w : Mw) : Nat := bits w 0 14
def mwSeq (w : Mw) : Nat := bits w 14 4
def mwCond (w : Mw) : Nat := bits w 18 6
def mwCpol (w : Mw) : Nat := bits w 24 1
def mwAsel (w : Mw) : Nat := bits w 25 5
def mwBsel (w : Mw) : Nat := bits w 30 5
def mwAluop (w : Mw) : Nat := bits w 35 6
def mwShop (w : Mw) : Nat := bits w 41 3
def mwShamt (w : Mw) : Nat := bits w 44 6
def mwShb (w : Mw) : Nat := bits w 50 1
def mwRdst (w : Mw) : Nat := bits w 51 3
def mwRsel (w : Mw) : Nat := bits w 54 3
def mwRtm (w : Mw) : Nat := bits w 57 2
def mwRtag (w : Mw) : Nat := bits w 59 4
def mwDop (w : Mw) : Nat := bits w 63 3
def mwDsize (w : Mw) : Nat := bits w 66 3
def mwTckop (w : Mw) : Nat := bits w 69 3
def mwTcls (w : Mw) : Nat := bits w 72 4
def mwVop (w : Mw) : Nat := bits w 76 3
def mwExc (w : Mw) : Nat := bits w 79 6
def mwCkpt (w : Mw) : Nat := bits w 85 1
def mwCnt (w : Mw) : Nat := bits w 86 3
def mwIpt (w : Mw) : Nat := bits w 89 1
def mwPiss (w : Mw) : Nat := bits w 90 3
def mwAstw (w : Mw) : Nat := bits w 93 2
def mwCyc (w : Mw) : Nat := bits w 95 4
def mwLit (w : Mw) : Nat := bits w 99 16

/-- Number of ones of the low `n` bits. -/
def ones (n x : Nat) : Nat := ((List.range n).filter fun i => bits x i 1 == 1).length

/-- CHK is the even parity of each 17 payload bits, R289. -/
def mwChkOk (w : Mw) : Bool := (List.range 8).all fun g => ones 17 (bits w (17 * g) 17) % 2 == bits w (136 + g) 1

/-- A source selection of R291 that is not reserved. -/
def mwSrcOk (x : Nat) : Bool := decide (x ≤ 5) || (decide (8 ≤ x) && decide (x ≤ 0x15))

/-- A nonzero RSV bit or a code that R289 to R293 call reserved. -/
def mwReserved (w : Mw) : Bool :=
  bits w 115 21 != 0 || decide (mwSeq w ≥ 8) || decide (mwCond w ≥ 8) || !mwSrcOk (mwAsel w) || !mwSrcOk (mwBsel w) ||
    decide (mwAluop w > 0x11) || decide (mwShop w ≥ 5) || decide (mwRdst w ≥ 5) || decide (mwRsel w ≥ 5) || mwRtm w == 3 ||
    decide (mwDsize w ≥ 5) || decide (mwTckop w ≥ 5) || (decide (9 ≤ mwTcls w) && decide (mwTcls w ≤ 14)) ||
    decide (mwCnt w ≥ 3) || decide (mwPiss w ≥ 5) || mwAstw w == 3

/-- Micro-address in the customer area. -/
def inCust (a : Nat) : Bool := decide (0x5000 ≤ a) && decide (a < 0x6000)

/-- The micro-address after `ma`, R290: MA[14] stays. -/
def maNext (ma : Nat) : Nat := ma / 0x4000 * 0x4000 + (ma + 1) % 0x4000

/-- {MA[14], NEXT} in the customer area, R290. -/
def mwTarget (w : Mw) : Nat := 0x4000 + mwNext w

/-- The targets of MWAY. -/
def mwWays (w : Mw) : List Nat := (List.range 16).map fun i => 0x4000 + mwNext w / 16 * 16 + i

/-- Where the sequencer fetches for a micro-address, R287: the patch address of the lowest-numbered enabled entry that names a ROM address, or the address itself. -/
def UStore.trapped (u : UStore) (ma : Nat) : Nat :=
  if ma < 0x4000 then ((u.traps.find? fun p => p.2.1 == ma).map fun p => p.2.2).getD ma else ma

/-- The microword stored at a micro-address, R286; none in a reserved range. -/
def UStore.word (u : UStore) (ma : Nat) : Option Mw :=
  if ma < 0x4000 then some (Config.romWord ma).toNat
  else if ma < 0x4800 ∨ inCust ma then some (sget (fun _ => 0) u.words ma).toNat
  else none

/-- The error that a stored microword of engine `e` holds in one copy of the pair, R288. -/
def Mem.ucFlaw (m : Mem) (e ma : Nat) (trailing : Bool) : Ecc := sget (fun _ => Ecc.clean) m.ucFlaws (e * 2 ^ 16 + b2n trailing * 2 ^ 15 + ma)

/-- The error that the fetch of a stored word finds in either copy, R299. -/
def State.ucFinds (s : State) (e ma : Nat) : Ecc := worse (s.mem.ucFlaw e ma false) (s.mem.ucFlaw e ma true)

/-- Errors of the stored microwords that `f` names by their place leave. -/
def State.dropUcFlaws (s : State) (f : Nat → Bool) : State := { s with mem := { s.mem with ucFlaws := s.mem.ucFlaws.filter fun p => !f p.1 } }

/-- The writable stores of an engine are written anew. -/
def State.freshStore (s : State) (e : Nat) : State := s.dropUcFlaws fun k => k / 2 ^ 16 == e && decide (0x4000 ≤ k % 2 ^ 15)

/-- The recovery from a microword error rewrites a word of a writable store from the copy whose word is correct, R299. -/
def State.mendStore (s : State) (e ma : Nat) : State :=
  if 0x4000 ≤ ma ∧ (s.mem.ucFlaw e ma false ≠ .uncorrectable ∨ s.mem.ucFlaw e ma true ≠ .uncorrectable) then
    s.dropUcFlaws fun k => k / 2 ^ 16 == e && k % 2 ^ 15 == ma
  else s

/-- An instruction of engine `e` may fetch a ROM word that holds a single-bit error, which is corrected and counted, R299; which ROM words it fetches the spec does not give, so a free number says (log entry 23). -/
def State.romFetch (s : State) (e : Nat) : State :=
  if s.mem.ucFlaws = [] then s
  else
    let r := s.takeFree
    if s.ucFinds e (r.1.toNat % 2 ^ 14) = .corrected then r.2.count (ENG_UC_CE e) ENG_UC_CE_COUNT 1 else r.2

/-- The microword of a fetch at a micro-address, or the kind of event of R299 as 10 R384 numbers it: 1 uncorrectable, 2 CHK parity, 3 microcode fault, which a reserved range, a reserved SEQ
and every other reserved code is (log entry 23). -/
def State.microFetch (s : State) (e ma : Nat) : Except Nat Mw :=
  match (s.engine e).ustore.word ma with
  | none => .error 3
  | some w => if s.ucFinds e ma = .uncorrectable then .error 1 else if !mwChkOk w then .error 2 else if mwReserved w then .error 3 else .ok w

/-- The rules of R300 on one microword. -/
def mwOk (w : Mw) : Bool :=
  mwChkOk w && !mwReserved w && mwVop w == 0 && mwCkpt w == 0 && (decide (mwDop w ≤ 2) || mwDop w == 7) &&
    (mwRdst w != 4 || decide (bits (mwLit w) 0 12 ≤ 1)) &&
    (decide (mwExc w ≤ 7) || mwExc w == 0x0C || mwExc w == 0x0D) && (mwShb w == 0 || mwShamt w == 0) &&
    (if mwSeq w = 0 ∨ mwSeq w = 1 ∨ mwSeq w = 2 ∨ mwSeq w = 5 then inCust (mwTarget w)
     else if mwSeq w = 6 then inCust (bits (mwLit w) 0 15)
     else if mwSeq w = 7 then mwNext w % 16 == 0 && (mwWays w).all inCust
     else true)

/-- Where a path of the control graph stands: micro-address, micro-stack, ECLK since the entry or the last IPT, and held writes. -/
structure MPath where
  ma : Nat
  stack : List Nat
  cost : Nat
  regs : Nat
  stores : Nat
  deriving DecidableEq, Repr

/-- Continuations of SEQ in the control graph, R290: address and micro-stack; none on a micro-stack that overflows. A path that leaves the area or returns from an empty micro-stack ends there. -/
def mwSucc (w : Mw) (ma : Nat) (stack : List Nat) : Option (List (Nat × List Nat)) :=
  let on (l : List Nat) := some ((l.filter inCust).map fun a => (a, stack))
  let t := mwTarget w
  match mwSeq w with
  | 0 => on [t]
  | 1 => if mwCond w = 0 then on [if mwCpol w = 0 then t else maNext ma] else on [t, maNext ma]
  | 2 => if stack.length ≥ 4 then none else some [(t, maNext ma :: stack)]
  | 3 =>
    match stack with
    | [] => some []
    | a :: r => some (if inCust a then [(a, r)] else [])
  | 5 => on [t, maNext ma]
  | 6 => on [bits (mwLit w) 0 15]
  | 7 => on (mwWays w)
  | _ => some []

/-- Held register writes of a microword, R297. -/
def mwHeldRegs (w : Mw) : Nat := b2n (mwRdst w == 1 || mwRdst w == 2 || mwRdst w == 4) + b2n (mwAstw w != 0)

/-- A cycle of the control graph leads from word `start` back to it through no IPT, R300, or runs past the micro-stack: the points still to visit are micro-addresses with their micro-stacks. -/
def mpCycle (mem : Nat → Mw) : Nat → Nat → List (Nat × List Nat) → List (Nat × List Nat) → Bool
  | 0, _, _, _ => false
  | _ + 1, _, _, [] => false
  | n + 1, start, seen, p :: r =>
    let w := mem p.1
    if seen.contains p ∨ mwIpt w = 1 then mpCycle mem n start seen r
    else
      match mwSucc w p.1 p.2 with
      | none => true
      | some l => l.contains (start, []) || mpCycle mem n start (p :: seen) (l ++ r)

/-- The next points of a path within the limits of R300; none where one is broken, as it is where the path meets a word that is undefined or breaks the rules of a microword. -/
def mpStep (mem : Nat → Mw) (p : MPath) : Option (List MPath) :=
  let w := mem p.ma
  let cost := p.cost + mwCyc w + 1
  let regs := p.regs + mwHeldRegs w
  let stores := p.stores + b2n (mwDop w == 2)
  if !mwOk w ∨ cost > 30 ∨ regs > 4 ∨ stores > 2 then none
  else (mwSucc w p.ma p.stack).map fun l =>
    l.map fun x => ⟨x.1, x.2, if mwIpt w = 1 then 0 else cost, regs, stores⟩

/-- Every path from the listed points keeps the limits of R300. -/
def mpAll (mem : Nat → Mw) : Nat → List MPath → List MPath → Bool
  | 0, _, _ => true
  | _ + 1, _, [] => true
  | n + 1, seen, p :: r =>
    if seen.contains p then mpAll mem n seen r
    else
      match mpStep mem p with
      | none => false
      | some l => mpAll mem n (p :: seen) (l ++ r)

/-- Lengths of the paths from an entry to DISP, R301, up to 65,535 ECLK. -/
def mpLengths (mem : Nat → Mw) : Nat → List MPath → List MPath → List Nat
  | 0, _, _ => []
  | _ + 1, _, [] => []
  | n + 1, seen, p :: r =>
    let w := mem p.ma
    let cost := p.cost + mwCyc w + 1
    if seen.contains p ∨ cost > 65535 then mpLengths mem n seen r
    else if mwSeq w = 4 then cost :: mpLengths mem n (p :: seen) r
    else mpLengths mem n (p :: seen) ((((mwSucc w p.ma p.stack).getD []).map fun x => ⟨x.1, x.2, cost, 0, 0⟩) ++ r)

/-- A bound on the points of paths that the searches visit. -/
def mpFuel : Nat := 2 ^ 40

/-- The microword of a customer element, 15 R505; an undefined one is 0. -/
def mwOfElem (ws : List Word) : Mw := (ws.getD 0 0).toNat + (ws.getD 1 0).toNat * 2 ^ 64 + bits (ws.getD 2 0).toNat 0 16 * 2 ^ 128

/-- CMIN and CMAX of an entry, R300. -/
def mpRange (mem : Nat → Mw) (entry : Nat) : Nat × Nat :=
  let l := mpLengths mem mpFuel [] [⟨0x5000 + entry, [], 0, 0, 0⟩]
  (l.foldl min 65535, l.foldl max 0)

end Sys2Proof.Machine
end

