-- ==== Sys2Proof/Machine/Gavotte.lean ====
section
/-! DEFINITION. The Gavotte timebase, 02: angle, cycle count, phase references, TAI, timers and edge detectors. -/
namespace Sys2Proof.Machine
open Reg

/-- Frequency error of the 25 MHz reference in 10^-9, now. -/
def State.refPpb (s : State) : Int := toSigned 16 (Config.clockError 0 s.gav.mono).toNat

/-- The accumulator's increment for one XCLK at the rate of GAV_FREQ in µHz, 02 R41. The rate is measured in TAI seconds (R47): with TAI_LOCK
the increment is corrected for the error of the reference that clocks the XCLK, and without it the rate carries that error. -/
def State.angleInc (s : State) : Nat :=
  let f := s.rd GAV_FREQ GAV_FREQ_FREQ
  if s.rd GAV_STAT GAV_STAT_TAI_LOCK = 1 then 2 ^ 64 * f * 10 ^ 9 / (10 ^ 15 * (10 ^ 9 + s.refPpb).toNat) else 2 ^ 64 * f / 10 ^ 15

/-- A trigger entry's ACTION. -/
def State.trigAction (s : State) (n : Nat) : Nat := s.rd (GAV_TRIGB n) GAV_TRIGB_ACTION

/-- The trigger entries whose registers are listed, in ascending number: only these can be armed. -/
def State.trigListed (s : State) : List Nat :=
  (s.regs.filter fun p => 0x510008 ≤ p.1 && p.1 < 0x530000 && (p.1 - 0x510008) % 16 == 0).map fun p => (p.1 - 0x510008) / 16

/-- Set a trigger entry OFF. -/
def State.trigOff (s : State) (n : Nat) : State :=
  { s.wr (GAV_TRIGB n) GAV_TRIGB_ACTION 0 with gav := { s.gav with next := sset (fun _ => none) s.gav.next n none } }

/-- Hardware sets a bit of GAV_ERR: source 257 asserts once in each XCLK of a setting (02 R76, 12 R602). -/
def State.gavErr (s : State) (f : Fld) : State :=
  if s.gav.faulted then s.wr GAV_ERR f 1
  else { s.setErr GAV_ERR f 257 with gav := { s.gav with faulted := true } }

/-- An event that is no firing of the matcher stands for an XCLK of its own (log entry 1): source 257 may be asserted again. -/
def State.ownXclk (s : State) : State := { s with gav := { s.gav with faulted := false } }

/-- The XCLK of an event that the command gives (log entry 1): one of its own, or that of the event before it. -/
def State.inXclk (own : Bool) (s : State) : State := if own then s.ownXclk else s

/-- Absolute time of an entry, 02 R64. -/
def State.trigTime (s : State) (n : Nat) : Nat :=
  s.rd (GAV_TRIGB n) GAV_TRIGB_AT_CYCLE * 2 ^ 32 + s.rd (GAV_TRIGA n) GAV_TRIGA_ANGLE

/-- The absolute entry `n`, left behind by a cycle set, goes OFF with LATE, 02 R64. -/
def State.lateCheck (s : State) (n : Nat) : State :=
  if s.trigAction n ≠ 0 ∧ s.rd (GAV_TRIGB n) GAV_TRIGB_ABS = 1 ∧ timeDiff s.time (s.trigTime n) < 0 then
    (s.trigOff n).gavErr GAV_ERR_LATE
  else s

/-- At a wrap, a periodic entry's own counter counts, and a due DISPATCH entry joins the decision of the cycle, 02 R63 and R65. Counter 0 is
the cycle in which the entry is due; one that was due in the cycle that ends keeps its rhythm. -/
def State.wrapEntry (s : State) (n : Nat) : State :=
  if s.trigAction n ≠ 0 ∧ s.rd (GAV_TRIGB n) GAV_TRIGB_ABS = 0 then
    let per := s.rd (GAV_TRIGA n) GAV_TRIGA_PERIOD
    let due := match sget (fun _ => none) s.gav.next n with
      | some k => decide (k = 1)
      | none => s.gav.cyc % per == s.rd (GAV_TRIGA n) GAV_TRIGA_PHASE
    let nx := match sget (fun _ => none) s.gav.next n with
      | some 0 => some (per - 1)
      | some k => some (k - 1)
      | none => none
    if due && s.trigAction n == 1 then
      let d := s.gav.dispatch ++ [s.rd (GAV_TRIGB n) GAV_TRIGB_TARGET]
      { s with gav := { s.gav with next := sset (fun _ => none) s.gav.next n (some per), dispatch := d } }
    else { s with gav := { s.gav with next := sset (fun _ => none) s.gav.next n nx } }
  else s

/-- Timer `t` counts `k` down in its unit; at 0 its TIMER_EXPIRY is due (log entry 1). -/
def State.timerDown (s : State) (t k : Nat) : State :=
  s.wr (GAV_TMR_CNT t) GAV_TMR_CNT_COUNT (s.rd (GAV_TMR_CNT t) GAV_TMR_CNT_COUNT - k)

/-- The running timers of a unit count down. -/
def State.timersDown (s : State) (unit k : Nat) : State :=
  if k = 0 then s
  else eachDo (List.range 64) (fun t x =>
    if x.rd (GAV_TMR_CTRL t) GAV_TMR_CTRL_RUN = 1 ∧ x.rd (GAV_TMR_CTRL t) GAV_TMR_CTRL_UNIT = unit then x.timerDown t k else x) s

/-- The angle wraps through 0, 02 R44, R57 and R65: the cycle count counts or takes the cycle set, and the new cycle's dispatch decisions are made. -/
def State.wrapCycle (s : State) : State :=
  let set := s.flag GAV_CYCSET_VAL GAV_CYCSET_VAL_ARM && decide (s.rd GAV_CYCSET_AT GAV_CYCSET_AT_AT ≤ s.gav.tai)
  let s1 :=
    if set then
      let t := s.wr GAV_CYCSET_VAL GAV_CYCSET_VAL_ARM 0
      let t := { t with gav := { t.gav with cyc := s.rd GAV_CYCSET_VAL GAV_CYCSET_VAL_VAL } }
      eachDo t.trigListed (fun n x => x.lateCheck n) t
    else { s with gav := { s.gav with cyc := (s.gav.cyc + 1) % 2 ^ 32 } }
  let s2 := { s1 with gav := { s1.gav with dispatch := [] } }
  (eachDo s2.trigListed (fun n x => x.wrapEntry n) s2).timersDown 1 1

/-- What TAI gains in one XCLK, in 10^-9 ns: the slew of 02 R60, and with TEN_MHZ and a followed source the frequency of the 10 MHz input in place
of the 25 MHz reference that clocks the XCLK (02 R58). -/
def State.taiRate (s : State) : Int :=
  let ten := s.flag GAV_TAI_CTRL GAV_TAI_CTRL_TEN_MHZ && s.rd GAV_TAI_CTRL GAV_TAI_CTRL_SRC != 0
  1000000000 + s.gav.slew * 1000 + (if ten then toSigned 16 (Config.clockError 1 s.gav.mono).toNat - s.refPpb else 0)

/-- Whole ns that TAI gains in `n` XCLK at its present rate, and the fraction that is left, 02 R60. -/
def State.taiRun (s : State) (n : Nat) : Nat × Nat :=
  let k : Int := n * s.taiRate + s.gav.frac
  ((k / 1000000000).toNat, (k % 1000000000).toNat)

/-- The clocks of `n` XCLK, without what they bring about: angle, TAI and monotonic tick; what counts within one XCLK starts again. -/
def State.clock (s : State) (n : Nat) : State :=
  let a := s.gav.acc + n * s.angleInc
  let d := s.taiRun n
  { s with gav := { s.gav with
      acc := a % 2 ^ 64, prev := (a + 2 ^ 64 - s.angleInc) % 2 ^ 64, xclk := s.gav.xclk + n, tai := (s.gav.tai + d.1) % 2 ^ 64,
      mono := s.gav.mono + d.1, frac := d.2, fired := 0, committed := false, faulted := false, pulsed := [],
      delayed := s.gav.delayed.map fun x => { x with old := true } } }

/-- `n` XCLK pass, at least one, with at most one wrap and no PCLK edge before the last at which a pin is not settled, 02 R41, R58 and R60: angle, TAI, monotonic tick, the timers that count them, and the claims that wait (12 R427). -/
def State.stride (s : State) (n : Nat) : State :=
  let a := s.gav.acc + n * s.angleInc
  let us := (s.gav.mono + (s.taiRun n).1) / 1000 - s.gav.mono / 1000
  let au := a / 2 ^ 48 - s.gav.acc / 2 ^ 48
  let t := ((s.clock n).timersDown 0 us).timersDown 2 au
  let t := State.runClaims n t.endHoldoffs
  if a ≥ 2 ^ 64 then t.wrapCycle else t

/-- `n` XCLK pass, with at most `f` PCLK edges among them at which pins are not settled. -/
def State.strides : Nat → Nat → State → State
  | 0, n, s => if n = 0 then s else s.stride n
  | f + 1, n, s =>
    let k := s.nextPclk - s.gav.xclk
    if k ≤ n ∧ s.nextPclk ≤ s.pins.settle then State.strides f (n - k) (s.stride k).pinEdge
    else if n = 0 then s else s.stride n

/-- `n` XCLK pass with at most one wrap, and the PCLK edges among them. -/
def State.advance (s : State) (n : Nat) : State := State.strides (s.pins.settle / 10 - s.gav.xclk / 10) n s

/-- XCLK until the angle wraps through 0. -/
def State.toWrap (s : State) : Nat :=
  if s.angleInc = 0 then 0 else (2 ^ 64 - s.gav.acc + s.angleInc - 1) / s.angleInc

/-- ANGLE_WRAP: the angle reaches its wrap, 02 R44. -/
def execAngleWrap (s : State) : Host.Outcome State Fault Refusal := .next (s.advance s.toWrap)

/-! Events at an instant: the clock moves on to it (log entry 1). -/

/-- `n` XCLK pass, with every wrap among them. -/
def State.pass : Nat → Nat → State → State
  | 0, _, s => s
  | _, 0, s => s
  | f + 1, n + 1, s =>
    let k := min (n + 1) (max 1 s.toWrap)
    State.pass f (n + 1 - k) (s.advance k)

/-- `n` wraps pass. -/
def State.passWraps : Nat → State → State
  | 0, s => s
  | n + 1, s => State.passWraps n (s.advance s.toWrap)

/-- Time passes until the monotonic tick reaches an instant; none passes when it lies behind. -/
def State.passTo (s : State) (mono : Nat) : State :=
  let need : Int := ((mono : Int) - s.gav.mono) * 1000000000 - s.gav.frac
  let n := ((need + s.taiRate - 1) / s.taiRate).toNat
  s.pass n n

/-- The angle `a` is reached in the present XCLK. -/
def State.angleNow (s : State) (a : Nat) : Bool :=
  let d := (a * 2 ^ 32 + 2 ^ 64 - s.gav.prev) % 2 ^ 64
  decide (0 < d ∧ d ≤ (s.gav.acc + 2 ^ 64 - s.gav.prev) % 2 ^ 64)

/-- XCLK until the angle `a` is reached next, after the present XCLK. -/
def State.toAngle (s : State) (a : Nat) : Nat :=
  let d := (a * 2 ^ 32 + 2 ^ 64 - s.gav.acc) % 2 ^ 64
  ((if d = 0 then 2 ^ 64 else d) + s.angleInc - 1) / s.angleInc

/-- VOTE_MISMATCH: a copy of a voted counter is overwritten from the other two, 02 R46; the outputs do not change. -/
def execVoteMismatch (s : State) : Host.Outcome State Fault Refusal :=
  .next ((s.ownXclk.gavErr GAV_ERR_VOTE).recordReg 257 unitGavotte GAV_ERR)

/-! Phase references. -/

/-- Whether reference `c` of 02 R48 is qualified. -/
def State.refQual (s : State) (c : Nat) : Bool := c != 0 && bits (s.rd GAV_STAT GAV_STAT_QUAL) (c - 1) 1 == 1

/-- Qualify or disqualify reference `c`, and keep the instant since which it has stayed qualified. -/
def State.setQual (s : State) (c : Nat) (b : Bool) : State :=
  let at' := if b && !s.refQual c then s.gav.mono else sget (fun _ => 0) s.gav.qualAt c
  { s.wr GAV_STAT ⟨4 + c, 1, .ro, 0⟩ (b2n b) with gav := { s.gav with qualAt := sset (fun _ => 0) s.gav.qualAt c at' } }

/-- The references of GAV_REFSEL in priority order, 02 R52. -/
def State.refList (s : State) : List Nat :=
  [s.rd GAV_REFSEL GAV_REFSEL_PRI0, s.rd GAV_REFSEL GAV_REFSEL_PRI1, s.rd GAV_REFSEL GAV_REFSEL_PRI2]

/-- The first qualified reference of the list, 0 for none. -/
def State.refBest (s : State) : Nat := (s.refList.find? fun c => s.refQual c).getD 0

/-- STATE and ACQ take new values; any change asserts source 256 once and is recorded, 02 R54 and R76. -/
def State.gavState (s : State) (st : Nat) (acq : Bool) : State :=
  if s.rd GAV_STAT GAV_STAT_STATE = st ∧ s.rd GAV_STAT GAV_STAT_ACQ = b2n acq then s
  else
    let t := (s.wr GAV_STAT GAV_STAT_STATE st).wr GAV_STAT GAV_STAT_ACQ (b2n acq)
    (t.assert 256).recordReg 256 unitGavotte GAV_STAT

/-- The nominal rate in µHz. -/
def State.rateNominal (s : State) : Nat := s.rd GAV_FNOM GAV_FNOM_FNOM * 10000

/-- Clamp of a rate to [FMIN, FMAX], 02 R43. -/
def State.rateClamp (s : State) (f : Nat) : Nat :=
  max (s.rd GAV_TRACK GAV_TRACK_FMIN * 10000) (min (s.rd GAV_TRACK GAV_TRACK_FMAX * 10000) f)

/-- Set the angle rate. -/
def State.setRate (s : State) (f : Nat) : State := s.wr GAV_FREQ GAV_FREQ_FREQ (s.rateClamp f)

/-- Loop bandwidth of GAV_TRACK.BW in mHz, 02 R53; 7 is rejected by the loader. -/
def loopBw (bw : Nat) : Nat := [100, 200, 500, 1000, 2000, 5000, 10000].getD bw 0

/-- Steer toward a reference at measured error `err`, 02 R43 and R53: the rate moves in the direction that takes the error away, the shorter one,
by at most 1 % of the tracked frequency and within the clamp; the loop fixes how far (log entry 7). -/
def State.steer (s : State) (err : Int) (tracked : Nat) : State :=
  let w := Config.loopGain (loopBw (s.rd GAV_TRACK GAV_TRACK_BW)) err.natAbs s.free
  let k := w.toNat % (tracked / 100 + 1)
  ({ s with free := s.free + 1 } : State).setRate (if 0 < err then tracked + k else if err < 0 then tracked - k else tracked)

/-- Mean rate of the last 16 LOCKED cycles, 02 R54. -/
def State.rateMean (s : State) : Nat :=
  if s.gav.rates = [] then s.rateNominal else s.gav.rates.sum / s.gav.rates.length

/-- The reference that the unit uses: the first qualified one, and none under FORCE_HOLD (02 R52 and R56). -/
def State.refWanted (s : State) : Nat := if s.flag GAV_CTRL GAV_CTRL_FORCE_HOLD then 0 else s.refBest

/-- A reference may steer the unit, 02 R54 and R56. -/
def State.mayAcquire (s : State) : Bool := s.refWanted != 0

/-- The reference in use becomes `c`; a switch from one reference to another sets REF_SWITCH, 02 R52. -/
def State.setRef (s : State) (c : Nat) : State :=
  let old := s.rd GAV_STAT GAV_STAT_REF
  let t := s.wr GAV_STAT GAV_STAT_REF c
  if old ≠ 0 ∧ c ≠ 0 ∧ old ≠ c then t.gavErr GAV_ERR_REF_SWITCH else t

/-- The rate of a unit that steers to nothing, 02 R54: FNOM in FREE, the mean of the last 16 LOCKED cycles in HOLDOVER. -/
def State.restRate (s : State) : State :=
  s.setRate (if s.rd GAV_STAT GAV_STAT_STATE = 2 then s.rateNominal else s.rateMean)

/-- Enter HOLDOVER, 02 R54. -/
def State.enterHoldover (s : State) : State :=
  let t := { s with gav := { s.gav with streak := 0, holdSince := some s.gav.mono } }
  let t := (t.setRate s.rateMean).setRef t.refWanted
  t.gavState 1 t.mayAcquire

/-- After a change of qualification outside LOCKED, ACQ and the reference in use follow, and a unit that no longer steers takes its rest rate, 02 R54. -/
def State.reacquire (s : State) : State :=
  if s.rd GAV_STAT GAV_STAT_STATE = 0 then s
  else
    let t := s.setRef s.refWanted
    let t := if t.mayAcquire then t else ({ t with gav := { t.gav with streak := 0 } } : State).restRate
    t.gavState (s.rd GAV_STAT GAV_STAT_STATE) t.mayAcquire

/-- The reference angle that PTP gives now: 0 at every whole multiple of 1/FNOM from TAI 0, 02 R48. -/
def State.ptpAngle (s : State) : Nat :=
  s.gav.tai * s.rd GAV_FNOM GAV_FNOM_FNOM % 10 ^ 11 * 2 ^ 32 / 10 ^ 11

/-- The error of the unit's angle against a reference angle in ns, signed: reference minus own (log entry 9). DESIGN CHOICE: an error between whole
ns is rounded toward minus infinity, since 02 R54 states no rounding. -/
def State.phaseErr (s : State) (ref : Nat) : Int :=
  let d := toSigned 32 (ref + s.rd GAV_OFFSET GAV_OFFSET_OFFSET + 2 ^ 32 - (s.gav.acc / 2 ^ 32) % 2 ^ 32)
  d * 10 ^ 15 / (2 ^ 32 * (s.rd GAV_FREQ GAV_FREQ_FREQ : Int))

/-- An error within 100 ns. -/
def near100 (e : Int) : Bool := decide (-100 ≤ e ∧ e ≤ 100)

/-- Reference `c` agrees with the current angle within 100 ns, 02 R52, by its last measurement (log entry 9). -/
def State.refAgrees (s : State) (c : Nat) : Bool :=
  if c = 3 then near100 (s.phaseErr s.ptpAngle)
  else
    match sget (fun _ => none) s.gav.refErr c with
    | some e => near100 e
    | none => false

/-- The reference in use is no longer to be used while LOCKED, 02 R52: the unit stays LOCKED on the next one when that agrees within 100 ns. -/
def State.switchRef (s : State) : State :=
  if s.refWanted ≠ 0 ∧ s.refAgrees s.refWanted then s.setRef s.refWanted else s.enterHoldover

/-- The reference in use is lost, 02 R52. -/
def State.refLost (s : State) : State := if s.rd GAV_STAT GAV_STAT_STATE = 0 then s.switchRef else s.reacquire

/-- One measurement of the phase error against reference `c`, 02 R54. For the reference in use: GAV_PHERR, the streak to LOCKED, and HOLDOVER on an error beyond 100 ns. -/
def State.measure (s : State) (c : Nat) (err : Int) (tracked : Nat) : State :=
  let s := { s with gav := { s.gav with refErr := sset (fun _ => none) s.gav.refErr c (some err) } }
  if s.rd GAV_STAT GAV_STAT_REF ≠ c ∨ s.flag GAV_CTRL GAV_CTRL_FORCE_HOLD then s
  else
    let s := (s.wr GAV_PHERR GAV_PHERR_ERR (ofSigned 32 err)).wr GAV_PHERR GAV_PHERR_VALID 1
    if s.rd GAV_STAT GAV_STAT_STATE = 0 then
      if near100 err then
        let t := s.steer err tracked
        { t with gav := { t.gav with rates := (t.rd GAV_FREQ GAV_FREQ_FREQ :: t.gav.rates).take 16 } }
      else s.enterHoldover
    else if s.flag GAV_STAT GAV_STAT_ACQ then
      let k := if near100 err then s.gav.streak + 1 else 0
      let t := { s with gav := { s.gav with streak := k } }.steer err tracked
      if k ≥ 16 then ({ t with gav := { t.gav with streak := 0, holdSince := none } }).gavState 0 false else t
    else s

/-- Expected angle of a phase's rising edge, 02 R49. -/
def State.phaseExpected (s : State) (p : Nat) : Nat :=
  if p = 0 then 0
  else if (p = 1) = (s.rd GAV_CTRL GAV_CTRL_ROT = 0) then 0x55555555 else 0xAAAAAAAB

/-- The state of PHREF phase `p`. -/
def State.phase (s : State) (p : Nat) : Phase := sget (fun _ => Phase.reset) s.gav.phases p

/-- Replace the state of a phase. -/
def State.setPhase (s : State) (p : Nat) (x : Phase) : State :=
  { s with gav := { s.gav with phases := sset (fun _ => Phase.reset) s.gav.phases p x } }

/-- Phase `p` is qualified. -/
def State.phaseQual (s : State) (p : Nat) : Bool := bits (s.rd GAV_STAT GAV_STAT_PHASES) p 1 == 1

/-- Qualify or disqualify a phase; PHREF is qualified while a phase is, 02 R48. -/
def State.setPhaseQual (s : State) (p : Nat) (b : Bool) : State :=
  let t := s.wr GAV_STAT ⟨8 + p, 1, .ro, 0⟩ (b2n b)
  t.setQual 1 (t.rd GAV_STAT GAV_STAT_PHASES != 0)

/-- The defining phase, 02 R49. -/
def State.definingPhase (s : State) : Option Nat := [0, 1, 2].find? fun p => s.phaseQual p

/-- The phase against which phase `p` is judged: the defining phase, or the first phase in order that has risen while none is qualified. -/
def State.judgePhase (s : State) (p : Nat) : Option Nat :=
  match s.definingPhase with
  | some d => if d = p then none else some d
  | none => [0, 1, 2].find? fun q => q != p && (s.phase q).rise.isSome

/-- An interval less an expected angle, at a measured period, wrapped to half a turn; 0 before a period has been measured. -/
def departs (dt period : Nat) (expected : Int) : Int :=
  if period = 0 then 0 else toSigned 32 (ofSigned 32 ((dt : Int) * 2 ^ 32 / (period : Int) - expected))

/-- Departure of an edge of phase `p`, 02 R49, in signed angle units; a falling edge of a phase whose own period is not yet measured is taken at that of the defining phase. -/
def State.departure (s : State) (p : Nat) (rising : Bool) : Int :=
  let other := (s.judgePhase p).map fun d => s.phase d
  if rising then
    match other.bind (·.rise) with
    | none => 0
    | some r => departs (s.gav.mono - r) ((other.map (·.period)).getD 0)
        ((s.phaseExpected p : Int) - (((s.judgePhase p).map fun d => s.phaseExpected d).getD 0 : Nat))
  else
    match (s.phase p).rise with
    | none => 0
    | some r => departs (s.gav.mono - r) (if (s.phase p).period = 0 then (other.map (·.period)).getD 0 else (s.phase p).period) (2 ^ 31)

/-- A departure within 5.625 degrees. -/
def depOk (d : Int) : Bool := decide (-0x04000000 ≤ d ∧ d ≤ 0x04000000)

/-- A period within [1/FMAX, 1/FMIN], 02 R49. -/
def State.periodOk (s : State) (ns : Nat) : Bool :=
  decide (10 ^ 11 ≤ ns * s.rd GAV_TRACK GAV_TRACK_FMAX ∧ ns * s.rd GAV_TRACK GAV_TRACK_FMIN ≤ 10 ^ 11)

/-- Phase `p` has completed its 16 periods while none is qualified, and no phase before it in the order A, B, C may still complete them in the same
cycle, 02 R49: one that lacks a single period may, and then `p` waits for it until its own next period ends. -/
def State.firstPhase (s : State) (p : Nat) (fresh : Bool) : Bool :=
  decide ((s.phase p).good ≥ 16) && !(fresh && (List.range p).any fun q => (s.phase q).good == 15)

/-- Phases that completed their 16 periods qualify against the defining phase on the same periods, 02 R49. -/
def State.qualifyOthers (s : State) : State :=
  eachDo [0, 1, 2] (fun q t => if !t.phaseQual q && (t.phase q).good ≥ 16 && (t.phase q).near ≥ 16 then t.setPhaseQual q true else t) s

/-- Judge phase `p` at the end of a cycle: qualification after 16 good periods, disqualification after 4 bad cycles, 02 R49; `fresh` when its 16th good period ends now. -/
def State.judgeCycle (s : State) (p : Nat) (dep : Int) (fresh : Bool) : State :=
  let x := s.phase p
  if s.phaseQual p then
    if x.bad ≥ 4 then
      let t := (s.setPhase p { x with good := 0, near := 0, bad := 0 }).setPhaseQual p false
      let t := t.recordCode 0x0C03 sevWarning unitGavotte p (ofSigned 32 dep) 0
      if t.refQual 1 then t
      else if t.rd GAV_STAT GAV_STAT_REF = 1 then t.refLost else t.reacquire
    else s
  else if s.definingPhase = none then
    if s.firstPhase p fresh then ((s.setPhase p { x with bad := 0 }).setPhaseQual p true).qualifyOthers.reacquire else s
  else if x.good ≥ 16 ∧ x.near ≥ 16 then ((s.setPhase p { x with bad := 0 }).setPhaseQual p true).reacquire
  else s

/-- An edge of a PHREF phase, 02 R49 and R54: qualification, and a measurement at a rising edge of the defining phase. -/
def State.phrefEdge (s : State) (p : Nat) (rising : Bool) : State :=
  let dep := s.departure p rising
  let ok := depOk dep
  let x := s.phase p
  let s := if s.phaseQual p then { s with gav := { s.gav with edgeAt := s.gav.mono } } else s
  if rising then
    let per := match x.rise with
      | none => 0
      | some r => s.gav.mono - r
    let perOk := s.periodOk per && x.rise.isSome
    let far := x.far || !ok
    let badCycle := far || (!perOk && s.definingPhase == some p)
    let y := { x with rise := some s.gav.mono, period := per, far := false,
                      good := if perOk then min 16 (x.good + 1) else 0,
                      near := if perOk && !far then min 16 (x.near + 1) else 0,
                      bad := if badCycle then min 4 (x.bad + 1) else 0 }
    let t := s.setPhase p y
    let t := if t.definingPhase = some p then t.measure 1 (t.phaseErr (t.phaseExpected p)) (if per = 0 then t.rateNominal else 10 ^ 15 / per) else t
    t.judgeCycle p dep (x.good == 15)
  else s.setPhase p { x with far := x.far || !ok }

/-- PHREF_EDGE: an edge on a PHREF input now; edges of several phases may fall in one XCLK. -/
def execPhrefEdge (p : Fin 3) (rising own : Bool) (s : State) : Host.Outcome State Fault Refusal :=
  .next ((s.inXclk own).phrefEdge p rising)

/-- Time passes to the next angle-0 instant of the PTP reference, 02 R48. -/
def State.toPtpZero (s : State) : State :=
  let f := s.rd GAV_FNOM GAV_FNOM_FNOM
  s.passTo (s.gav.mono + (10 ^ 11 - s.gav.tai * f % 10 ^ 11 + f - 1) / f)

/-- PTP_REFERENCE_INSTANT: an angle-0 instant of the PTP reference, 02 R54. -/
def execPtpReferenceInstant (s : State) : Host.Outcome State Fault Refusal :=
  .next (if s.refQual 3 then
      let t := s.toPtpZero
      t.ownXclk.measure 3 (t.phaseErr t.ptpAngle) t.rateNominal
    else s)

/-- Disqualify reference `c`; PHREF loses its phases with it, and SV its run of good cycles. -/
def State.unqualify (s : State) (c : Nat) : State :=
  if c = 1 then
    let t := eachDo [0, 1, 2] (fun p t => if t.phaseQual p then t.setPhase p { t.phase p with good := 0, near := 0, bad := 0 } else t) s
    (t.wr GAV_STAT GAV_STAT_PHASES 0).setQual 1 false
  else if c = 2 then { s with gav := { s.gav with svGood := 0, svStart := none, svSamples := [] } }.setQual 2 false
  else if c = 0 then s else s.setQual c false

/-- Reference `c` is lost, 02 R48 and R52, whether it is in use or not. -/
def State.loseRef (s : State) (c : Nat) : State :=
  let t := s.unqualify c
  if s.rd GAV_STAT GAV_STAT_REF = c then t.refLost else t.reacquire

/-- Two nominal cycles in ns. -/
def State.twoCycles (s : State) : Nat := 2 * 10 ^ 11 / s.rd GAV_FNOM GAV_FNOM_FNOM

/-- REFERENCE_LOSS: PHREF has had no edge of a qualified phase, or SV no valid ASDU, for 2 nominal cycles (02 R48): time passes up to that instant, and
the reference is lost. PTP is lost with TAI_LOCK alone. -/
def execReferenceLoss (sv : Bool) (s : State) : Host.Outcome State Fault Refusal :=
  .next (if sv then
      let t := s.passTo (s.gav.svAt + s.twoCycles)
      if t.refQual 2 then t.ownXclk.loseRef 2 else t.unqualify 2
    else if s.refQual 1 then (s.passTo (s.gav.edgeAt + s.twoCycles)).ownXclk.loseRef 1
    else s)

/-- REFERENCE_REVERT: with REVERT, a higher-priority reference that has stayed qualified for 60 s replaces the one in use under the rule of a loss, 02 R52. -/
def execReferenceRevert (own : Bool) (s : State) : Host.Outcome State Fault Refusal :=
  .next (if s.flag GAV_CTRL GAV_CTRL_REVERT ∧ s.mayAcquire ∧ s.refWanted ≠ s.rd GAV_STAT GAV_STAT_REF ∧ s.rd GAV_STAT GAV_STAT_REF ≠ 0 then
      ((s.passTo (sget (fun _ => 0) s.gav.qualAt s.refWanted + 60000000000)).inXclk own).refLost
    else s)

/-- HOLDOVER_LIMIT_EXPIRY: the limit of HOLDOVER is reached, and it ends in FREE at the nominal rate, 02 R54. -/
def execHoldoverLimitExpiry (s : State) : Host.Outcome State Fault Refusal :=
  .next (match s.gav.holdSince with
    | none => s
    | some h =>
      if s.rd GAV_STAT GAV_STAT_STATE = 1 ∧ s.rd GAV_TRACK GAV_TRACK_HOLD_LIMIT ≠ 0 then
        let t := s.passTo (h + s.rd GAV_TRACK GAV_TRACK_HOLD_LIMIT * 60000000000)
        ({ t with gav := { t.gav with holdSince := none } }.setRate t.rateNominal).gavState 2 t.mayAcquire
      else s)

/-- A write of GAV_CTRL.FORCE_HOLD, 02 R56. -/
def State.forceHold (s : State) (b : Bool) : State :=
  let t := s.wr GAV_CTRL GAV_CTRL_FORCE_HOLD (b2n b)
  if b then
    if t.rd GAV_STAT GAV_STAT_STATE = 0 then t.enterHoldover else t.reacquire
  else t.reacquire

/-- FORCE_HOLD. -/
def execForceHold (b : Bool) (s : State) : Host.Outcome State Fault Refusal := .next ((s.ownXclk.forceHold b).reply respOk [])

/-- TAI_LOCK changes, and with it the PTP reference's qualification, 02 R48 and R58; a clock that follows nothing does not slew (R60). -/
def State.setTaiLock (s : State) (b : Bool) : State :=
  let t := (s.wr GAV_STAT GAV_STAT_TAI_LOCK (b2n b)).setQual 3 b
  let t := if b then t else { t with gav := { t.gav with slew := 0 } }
  if b = (s.rd GAV_STAT GAV_STAT_TAI_LOCK == 1) then t
  else if !b && t.rd GAV_STAT GAV_STAT_REF == 3 then t.refLost else t.reacquire

/-- A signed number saturated to 32 bits. -/
def sat32 (x : Int) : Int := max (-(2 ^ 31)) (min (2 ^ 31 - 1) x)

/-- PPS_OUT rises when the whole TAI second `s.gav.tai` is reached with PPS_EN, and its width is taken, 02 R59. -/
def State.ppsRise (s : State) : State :=
  if s.flag GAV_TAI_CTRL GAV_TAI_CTRL_PPS_EN then
    { s with gav := { s.gav with ppsOut := true, ppsFall := s.gav.mono + s.rd GAV_TAI_CTRL GAV_TAI_CTRL_PPS_WIDTH * 1000 } }
  else s

/-- TAI steps to `v`, 02 R60: TAI_STEP and a record of the step in µs; a step onto a whole second brings its pulse. DESIGN CHOICE: the step in
µs is rounded toward minus infinity, since R60 states no rounding. -/
def State.stepTai (s : State) (v : Nat) : State :=
  let d : Int := ((v : Int) - (s.gav.tai : Int)) / 1000
  let t : State := { s with gav := { s.gav with tai := v % 2 ^ 64, slew := 0, frac := 0 } }
  let t := (t.gavErr GAV_ERR_TAI_STEP).record 257 unitGavotte (ofSigned 32 (sat32 d)) 0 0
  if v % 1000000000 = 0 ∧ v ≠ s.gav.tai then t.ppsRise else t

/-- TAI slews toward a source at `v`, 02 R60: its rate changes by a free amount of at most 100 ppm, up when the source leads and down when it lags. -/
def State.slewTai (s : State) (v : Nat) : State :=
  let x := s.takeFree
  let k : Int := (x.1.toNat % 101 : Nat)
  { x.2 with gav := { x.2.gav with slew := if s.gav.tai < v then k else if v < s.gav.tai then -k else 0 } }

/-- TAI follows its source, which now stands at `v`, 02 R60: it slews within 1 µs and steps beyond. -/
def State.followTai (s : State) (v : Nat) : State :=
  let s := { s with gav := { s.gav with taiAt := s.gav.mono } }
  if absDiff v s.gav.tai ≤ 1000 then (s.slewTai v).setTaiLock true else (s.stepTai v).setTaiLock true

/-- A write of GAV_TAI_CTRL, 02 R59 and R60: a change of SRC steps TAI to the value of the new source, which is `v` where the sender of the write
gives it and a free value otherwise; with SRC 0 TAI runs on from where it stands. -/
def State.taiCtrl (s : State) (d : Word) (v : Option (BitVec 64)) : State :=
  let x := d.toNat
  let w := bits x 12 20
  if w = 0 ∨ w > 999999 ∨ bits x 0 2 = 3 then s.reply errTarget []
  else
    let old := s.rd GAV_TAI_CTRL GAV_TAI_CTRL_SRC
    let t := s.setReg GAV_TAI_CTRL (BitVec.ofNat 64 (x % 2 ^ 6 + w * 2 ^ 12 + bits x 32 1 * 2 ^ 32))
    let t := if bits x 0 2 = old then t
      else if bits x 0 2 = 0 then (t.stepTai s.gav.tai).setTaiLock false
      else
        let y := match v with
          | some y => (y, t)
          | none => t.takeFree
        (({ y.2 with gav := { y.2.gav with taiAt := y.2.gav.mono } } : State).stepTai y.1.toNat).setTaiLock v.isSome
    t.reply respOk []

/-- GAV_TAI_CTRL. -/
def execGavTaiCtrl (d : Word) (v : Option (BitVec 64)) (s : State) : Host.Outcome State Fault Refusal := .next (s.ownXclk.taiCtrl d v)

/-- TAI_SET: a write of GAV_TAI_SET arms the load, 02 R58. -/
def execTaiSet (d : Word) (s : State) : Host.Outcome State Fault Refusal :=
  .next ({ s with gav := { s.gav with taiSet := some d.toNat } }.reply respOk [])

/-- A PPS_IN edge with SRC 2, 02 R58 and R60: the armed load steps TAI; otherwise TAI follows the nearest whole second. DESIGN CHOICE: a load
written while another source is selected stays armed, and the first edge after SRC becomes 2 takes it. -/
def State.ppsIn (s : State) : State :=
  if s.rd GAV_TAI_CTRL GAV_TAI_CTRL_SRC = 2 then
    match s.gav.taiSet with
    | some v => ({ s with gav := { s.gav with taiSet := none, taiAt := s.gav.mono } }.stepTai v).setTaiLock true
    | none => s.followTai ((s.gav.tai + 500000000) / 1000000000 * 1000000000)
  else s

/-- PPS_IN_EDGE. -/
def execPpsInEdge (s : State) : Host.Outcome State Fault Refusal := .next s.ownXclk.ppsIn

/-- TAI_LOCK_TIMEOUT: the followed port has given no update for 3 s (16 R524), so the source is no longer in use within 1 µs and TAI_LOCK clears. A
PPS_IN input without an edge for as long is judged in the same way (log entry 47). -/
def execTaiLockTimeout (s : State) : Host.Outcome State Fault Refusal :=
  .next (if s.rd GAV_TAI_CTRL GAV_TAI_CTRL_SRC = 0 then s else (s.passTo (s.gav.taiAt + 3000000000)).ownXclk.setTaiLock false)

/-- PPS_OUT_RISE: with PPS_EN, time passes to the next whole TAI second and PPS_OUT rises, 02 R59. -/
def execPpsOutRise (s : State) : Host.Outcome State Fault Refusal :=
  .next (if s.flag GAV_TAI_CTRL GAV_TAI_CTRL_PPS_EN then (s.passTo (s.gav.mono + (1000000000 - s.gav.tai % 1000000000))).ppsRise else s)

/-- PPS_OUT_FALL: the width that was taken at the rise ends, and PPS_OUT falls, 02 R59. -/
def execPpsOutFall (s : State) : Host.Outcome State Fault Refusal :=
  .next (if s.gav.ppsOut then
      let t := s.passTo s.gav.ppsFall
      { t with gav := { t.gav with ppsOut := false } }
    else s)

/-! Timers and edge detectors. -/

/-- Load a timer from LOAD and start it, 02 R72: a LOAD of 0 counts as 1. -/
def State.timerStart (s : State) (t : Nat) : State :=
  (s.wr (GAV_TMR_CNT t) GAV_TMR_CNT_COUNT (max 1 (s.rd (GAV_TMR_LOAD t) GAV_TMR_LOAD_LOAD))).wr (GAV_TMR_CTRL t) GAV_TMR_CTRL_RUN 1

/-- A timer's COUNT reaches 0, 02 R72. -/
def State.timerExpiry (s : State) (t : Nat) : State :=
  if s.flag (GAV_TMR_CTRL t) GAV_TMR_CTRL_RUN then
    let x := if s.flag (GAV_TMR_CTRL t) GAV_TMR_CTRL_IRQ then s.assert (448 + t) else s
    let x := if s.flag (GAV_TMR_CTRL t) GAV_TMR_CTRL_EVT then x.gavPulse (s.rd (GAV_TMR_CTRL t) GAV_TMR_CTRL_CHAN) else x
    if s.flag (GAV_TMR_CTRL t) GAV_TMR_CTRL_PERIODIC then x.timerStart t
    else (x.wr (GAV_TMR_CTRL t) GAV_TMR_CTRL_RUN 0).wr (GAV_TMR_CNT t) GAV_TMR_CNT_COUNT 0
  else s

/-- Time passes until the COUNT of timer `t` reaches 0 in its unit, 02 R72. -/
def State.toExpiry (s : State) (t : Nat) : State :=
  let c := s.rd (GAV_TMR_CNT t) GAV_TMR_CNT_COUNT
  if c = 0 then s
  else
    match s.rd (GAV_TMR_CTRL t) GAV_TMR_CTRL_UNIT with
    | 0 => s.passTo ((s.gav.mono / 1000 + c) * 1000)
    | 1 => State.passWraps c s
    | _ =>
      let n := ((s.gav.acc / 2 ^ 48 + c) * 2 ^ 48 - s.gav.acc + s.angleInc - 1) / s.angleInc
      s.pass n n

/-- TIMER_EXPIRY: the COUNT of a running timer reaches 0. -/
def execTimerExpiry (t : Fin 64) (s : State) : Host.Outcome State Fault Refusal :=
  .next (if s.flag (GAV_TMR_CTRL t) GAV_TMR_CTRL_RUN then (s.toExpiry t).timerExpiry t else s)

/-- A platform write of a timer's control register, 02 R72 and R73: UNIT 3 is rejected, RUN = 1 restarts from LOAD. -/
def State.timerCtrl (s : State) (t : Nat) (d : Word) : State :=
  let x := d.toNat
  if bits x 0 2 = 3 then s.reply errTarget []
  else
    let y := s.setReg (GAV_TMR_CTRL t) (BitVec.ofNat 64 (x % 2 ^ 13))
    (if bits x 3 1 = 1 then y.timerStart t else y).reply respOk []

/-- Captures of edge detector `e`, oldest first. -/
def State.captures (s : State) (e : Nat) : List (Word × Word) := sget (fun _ => []) s.gav.edges e

/-- Replace the captures of a detector. -/
def State.setCaptures (s : State) (e : Nat) (l : List (Word × Word)) : State :=
  { s with gav := { s.gav with edges := sset (fun _ => []) s.gav.edges e l } }

/-- Edge detector `e` accepts the new level that it has seen, 02 R74 and R75: it captures the instant of that level's first XCLK. DESIGN CHOICE: an
edge that a full queue drops is accepted all the same, so EDGES counts it, and its source and channel follow IRQ and EVT. -/
def State.edgeAccept (s : State) (e : Nat) (c : EdgeCand) : State :=
  let s : State := { s with gav := { s.gav with cands := sset (fun _ => none) s.gav.cands e none } }
  let s := s.wr (GAV_EDGE_STAT e) GAV_EDGE_STAT_LEVEL (b2n c.level)
  if bits (s.rd (GAV_EDGE_CTRL e) GAV_EDGE_CTRL_POL) (if c.level then 0 else 1) 1 = 1 then
    let t := s.count (GAV_EDGE_STAT e) GAV_EDGE_STAT_EDGES 1
    let t := if (s.captures e).length < 4 then t.setCaptures e (s.captures e ++ [(BitVec.ofNat 64 c.time, BitVec.ofNat 64 c.tai)])
      else ((t.wr (GAV_EDGE_STAT e) GAV_EDGE_STAT_OVF 1).gavErr GAV_ERR_EDGE_OVF).recordReg 257 unitGavotte GAV_ERR
    let t := if s.flag (GAV_EDGE_CTRL e) GAV_EDGE_CTRL_IRQ then t.assert (416 + e) else t
    if s.flag (GAV_EDGE_CTRL e) GAV_EDGE_CTRL_EVT then t.gavPulse (s.rd (GAV_EDGE_CTRL e) GAV_EDGE_CTRL_CHAN) else t
  else s

/-- EDGE_ACCEPT: time passes until the new level of the detector's input has held for FILT PCLK cycles of 10 XCLK, and the edge is accepted, 02 R74.
The command names the edge by its direction: where the detector has seen none of that direction, nothing is accepted. -/
def execEdgeAccept (e : Fin 32) (rising own : Bool) (s : State) : Host.Outcome State Fault Refusal :=
  .next (match sget (fun _ => none) s.gav.cands e with
    | none => s
    | some c =>
      let n := c.xclk + 10 * s.rd (GAV_EDGE_CTRL e) GAV_EDGE_CTRL_FILT - s.gav.xclk
      if c.level = rising then ((s.pass n n).inXclk own).edgeAccept e c else s)

/-- POP: a write of GAV_EDGE_POP with POP = 1 discards the oldest capture, 02 R75. -/
def execPop (e : Fin 32) (s : State) : Host.Outcome State Fault Refusal :=
  .next ((s.setCaptures e ((s.captures e).drop 1)).reply respOk [])

/-- A platform write of an edge detector's control register, 02 R74: SRC above 35 is rejected, and a new input is sampled from now on. -/
def State.edgeCtrl (s : State) (e : Nat) (d : Word) : State :=
  if bits d.toNat 0 6 > 35 then s.reply errTarget []
  else
    let t := s.setReg (GAV_EDGE_CTRL e) (BitVec.ofNat 64 (d.toNat % 2 ^ 21))
    (if bits d.toNat 0 6 = s.rd (GAV_EDGE_CTRL e) GAV_EDGE_CTRL_SRC then t
     else ({ t with gav := { t.gav with cands := sset (fun _ => none) t.gav.cands e none } } : State).edgeSample e (t.wire (bits d.toNat 0 6))).reply respOk []

/-! Pins. -/

/-- PIN_LEVEL_CHANGE: an input changes level; the samples of this XCLK see it, and those of a GP pin at the next PCLK edge, 02 R74 and 19 R605. -/
def execPinLevelChange (n : Fin 36) (b : Bool) (s : State) : Host.Outcome State Fault Refusal :=
  .next (if n.val < 32 then
      (({ s with pins := { s.pins with ext := sset (fun _ => false) s.pins.ext n b } } : State).edgesSee n).unsettled s.nextPclk
    else ({ s with pins := { s.pins with level := sset (fun _ => false) s.pins.level n b } } : State).edgesSee n)

/-- A write of PIN_GPIO_OUT, 19 R592: the GPOUT pins follow at the next PCLK edge. -/
def State.gpioOut (s : State) (d : Word) : State :=
  ((s.wr PIN_GPIO_OUT PIN_GPIO_OUT_LEVEL (d.toNat % 2 ^ 32)).unsettled s.nextPclk).reply respOk []

/-- PIN_GPIO_OUT. -/
def execPinGpioOut (d : Word) (s : State) : Host.Outcome State Fault Refusal := .next (s.gpioOut d)

/-- EVOUT_PULSE_END: time passes to the end of the EVR_OUTW PCLK cycles of an event output, at which it falls, 12 R439. -/
def execEvoutPulseEnd (n : Fin 32) (s : State) : Host.Outcome State Fault Refusal :=
  .next (if sget (fun _ => false) s.ic.gpHigh (32 + n.val) then
      let k := sget (fun _ => 0) s.ic.gpEnd (32 + n.val) - s.gav.xclk
      s.pass k k
    else s)

end Sys2Proof.Machine
end

