-- ==== Sys2Proof/Machine/Slices.lean ====
section
/-! DEFINITION. The memory slices: requests, locks, directory, scrubbing, sanitising and pseudo-channel retirement (06 R217 to R232, 11 R393 to R415). -/
namespace Sys2Proof.Machine
open Reg

/-- A look-up in a short list of numbered values. -/
def assoc {β : Type} (l : List (Nat × β)) (k : Nat) : Option β := (l.find? fun p => p.1 == k).map (·.2)

/-- The default error target, 11 R393. -/
def State.defaultTarget (s : State) (addr mid pos : Nat) : State :=
  ((((s.setReg XB_DEFLOG (BitVec.ofNat 64 (addr % 2 ^ 48 + (mid % 64) * 2 ^ 48 + (pos % 16) * 2 ^ 54))).count
    XB_DEFCNT XB_DEFCNT_COUNT 1).setErr XB_ERR XB_ERR_DECODE 816)).reply errDecode [twPoison]

/-- The lock unit of slice `sl`. -/
def State.lockUnit (s : State) (sl : Nat) : LockUnit := sget (fun _ => LockUnit.free) s.mem.locks sl

/-- Replace the lock unit of a slice. -/
def State.setLock (s : State) (sl : Nat) (u : LockUnit) : State :=
  { s with mem := { s.mem with locks := sset (fun _ => LockUnit.free) s.mem.locks sl u } }

/-- The slice whose lock a master and position hold, 11 R400. -/
def State.heldSlice (s : State) (mid pos : Nat) : Option Nat :=
  (List.range 32).find? fun sl => (s.lockUnit sl).held && (s.lockUnit sl).mid == mid && (s.lockUnit sl).pos == pos

/-- A reserved bypass of an open lock, 11 R398. -/
def State.bypass (s : State) (sl : Nat) (r : SliceReq) : Bool :=
  let u := s.lockUnit sl
  s.reserved r.line && r.line != u.line && !(u.waiting.any fun w => w.mid == r.mid && w.pos == r.pos && w.id == r.id)

/-! Requests. -/

/-- An asynchronous input changes the core; a rollback keeps it, since the input is taken again (10 R348, R362). -/
def State.modAsync (s : State) (e : Nat) (f : Core → Core) : State :=
  s.modEngine e fun x => { x with core := f x.core, ckpt := f x.ckpt, commit := x.commit.map fun c => { c with core := f c.core } }

/-- ESCR of an access fault: 0 read, 1 write, 2 execute, 3 stream, and a response code, 09 R321. -/
def accEscr (k resp : Nat) : Nat := k + resp * 16

/-- Cause of an error response, 07 R270. -/
def respCause (resp : Nat) : Nat :=
  if resp = errPoison then cTagPoison else if resp = errInteg then cInteg else if resp = errPerm then cPerm else cBus

/-- ESCR of an error response: ERR_POISON is a tag fault of a memory word. -/
def respEscr (k resp : Nat) : Nat := if resp = errPoison then 0x3F else accEscr k resp

/-- Note an error that is taken at a later instruction boundary, 07 R271 and 09 R322. -/
def State.deferErr (s : State) (e : Nat) (d : DefErr) : State := s.modAsync e fun c => { c with deferred := c.deferred ++ [d] }

/-- Note the response to a released store. -/
def State.deferStore (s : State) (e resp : Nat) (g : GStore) : State :=
  if resp = respOk then s else s.deferErr e ⟨g.bank, respCause resp, g.ea, respEscr 1 resp⟩

/-- The first released store of engine `e` that was not visible is answered. -/
def State.storeAnswered (s : State) (e resp : Nat) : State :=
  match (s.engine e).out with
  | [] => s
  | g :: r => (s.modEngine e fun x => { x with out := r, outSent := false }).deferStore e resp g

/-- A store into a line that the caching master `c` then holds in M, 11 R407: response and next state. -/
def State.cacheStore (s : State) (c l key : Nat) (data : List (Nat × Byte)) (tags : List (Nat × Tag)) : Nat × State :=
  let r := s.dirRdU c l key
  if r.1 = respOk then (respOk, r.2.2.setCopy l (mergeLine r.2.1 (assoc data) (assoc tags))) else (r.1, r.2.2)

/-- Give a response to whoever waits for it: the answer, and an engine's scalar access that awaits it (07 R272, 10 R354). -/
def State.respond (s : State) (mid pos resp : Nat) (ws : List TWord) : State :=
  let s := s.reply resp ws
  if mid < 16 then
    s.modEngine (mid * 13 + pos) fun x => { x with pend := firstDo (fun p => p.kind == .lkld && p.result.isNone) (fun p => { p with result := some (resp, ws) }) x.pend }
  else s

/-- An LKLD performed at a slice with no open lock, 11 R397: the latest data, no cached copy, and the lock opens unless the read fails. -/
def State.lkldServe (s : State) (r : SliceReq) : State :=
  if s.keyErr r.line r.key then (s.keyErrEvent r.line r.key).respond r.mid r.pos errInteg poisonLine
  else
    let t := ((s.takeSlots r.line 1).collect r.line).setDir r.line DirEntry.none
    let x := t.sliceRead r.line r.key .clean
    let sl := s.sliceOf (r.line * 64)
    if x.1 = respOk then
      ((x.2.2.setLock sl { t.lockUnit sl with held := true, mid := r.mid, pos := r.pos, line := r.line, since := s.gav.xclk }).count
        (SLC_LOCK_GRANT sl) SLC_LOCK_GRANT_COUNT 1).respond r.mid r.pos respOk x.2.1
    else x.2.2.respond r.mid r.pos x.1 x.2.1

/-- Serve one request that the slice does not hold back, 06 R217 to R220 and 11 R407. -/
def State.serve (s : State) (r : SliceReq) : State :=
  match r.op with
  | .read ecc =>
    let x := s.cohRead r.line r.key ecc
    x.2.2.reply x.1 x.2.1
  | .full ws =>
    let x := s.cohFull r.line r.key ws
    x.2.reply x.1 []
  | .part ecc data tags =>
    let x := s.cohPartial r.line r.key ecc (assoc data) (assoc tags)
    x.2.reply x.1 []
  | .store data tags =>
    let x := s.cacheStore r.mid r.line r.key data tags
    (x.2.fillCore r.mid r.pos true r.line).storeAnswered (r.mid * 13 + r.pos) x.1
  | .rdS fill =>
    let x := s.dirRdS r.mid r.line r.key
    let t := match fill with
      | some d => if x.1 = respOk then x.2.2.fillCore r.mid r.pos d r.line else x.2.2
      | none => x.2.2
    t.reply x.1 x.2.1
  | .rdU =>
    let x := s.dirRdU r.mid r.line r.key
    x.2.2.reply x.1 x.2.1
  | .upg =>
    let d := s.dirEntry r.line
    if s.keyErr r.line r.key then (s.keyErrEvent r.line r.key).reply errInteg poisonLine
    else if bits d.sharers r.mid 1 = 1 then
      (s.setDir r.line ⟨3, setBits 0 r.mid 1 1, r.key, 0, keepCores d.cores (setBits 0 r.mid 1 1)⟩).reply respOk []
    else
      let x := s.dirRdU r.mid r.line r.key
      x.2.2.reply x.1 x.2.1
  | .lkld => s.lkldServe r

/-- A request arrives at its slice, 11 R398 to R401: served, or held back behind an open lock. -/
def State.arrive (s : State) (r : SliceReq) : State :=
  if (s.place (r.line * 64)).isNone then
    match r.op with
    | .lkld => s.respond r.mid r.pos errTarget poisonLine
    | .store _ _ => (s.defaultTarget (r.line * 64) r.mid r.pos).storeAnswered (r.mid * 13 + r.pos) errDecode
    | _ => s.defaultTarget (r.line * 64) r.mid r.pos
  else
    let sl := s.sliceOf (r.line * 64)
    let u := s.lockUnit sl
    if r.op = .lkld ∧ (s.heldSlice r.mid r.pos).isSome then
      (s.count (SLC_LOCK_REFUSED sl) SLC_LOCK_REFUSED_COUNT 1).respond r.mid r.pos errLock poisonLine
    else if u.held && !(u.mid == r.mid && u.pos == r.pos) && !(s.bypass sl r) then
      s.setLock sl { u with waiting := u.waiting ++ [r] }
    else s.serve r

/-- The lock of a slice closes, and the waiting requests are served, LKLDs last, 11 R401. -/
def State.closeLock (s : State) (sl : Nat) : State :=
  let w := (s.lockUnit sl).waiting
  let s := s.setLock sl LockUnit.free
  eachDo ((w.filter fun r => r.op != .lkld) ++ w.filter fun r => r.op == .lkld) (fun r t => t.arrive r) s

/-- SLC_LOCK_STAT of a slice, 11 R415. -/
def State.lockStat (s : State) (sl : Nat) : Nat :=
  let u := s.lockUnit sl
  if u.held then 1 + u.mid * 2 + u.pos * 2 ^ 8 + min u.waiting.length 65535 * 2 ^ 16 else 0

/-- The lock timer of slice `sl` has run its 32 XCLK, 11 R399. -/
def State.lockDue (s : State) (sl : Nat) : Bool := (s.lockUnit sl).held && decide ((s.lockUnit sl).since + 32 ≤ s.gav.xclk)

/-- The lock timer of slice `sl` breaks its lock, 11 R399 and R401. -/
def State.breakLock (s : State) (sl : Nat) : State :=
  let t := (s.count (SLC_LOCK_BRK sl) SLC_LOCK_BRK_COUNT 1).assert (768 + sl)
  let t := t.recordSev (768 + sl) sevWarning (unitSlice sl) (s.lockStat sl) 0 0
  t.closeLock sl

/-- An LKST of a holder whose locked line lies in slice `sl`, 11 R399: the response code. -/
def State.lkst (s : State) (sl mid pos line key : Nat) (data : List (Nat × Byte)) (tags : List (Nat × Tag)) : Nat × State :=
  let u := s.lockUnit sl
  if u.held ∧ u.mid = mid ∧ u.pos = pos then
    if s.lockDue sl then (errLock, s.breakLock sl)
    else if u.line = line then
      let x := s.cohPartial line key .clean (assoc data) (assoc tags)
      (x.1, x.2.closeLock sl)
    else (errLock, s.closeLock sl)
  else (errLock, s)

/-- An LKREL, or the release that a recovery, a takeover or a BANKSAVE sends, 11 R399 and R403. -/
def State.lkrel (s : State) (mid pos : Nat) : State :=
  match s.heldSlice mid pos with
  | some sl => s.closeLock sl
  | none => s

/-- LOCK_BREAK: time passes until the lock timer of slice `sl` has run its 32 XCLK, and the lock breaks, 11 R399. -/
def execLockBreak (sl : Fin 32) (s : State) : Host.Outcome State Fault Refusal :=
  .next (if (s.lockUnit sl).held then
      let n := (s.lockUnit sl).since + 32 - s.gav.xclk
      (s.pass n n).breakLock sl
    else s)

/-- The slice request of a transaction; the service port, the key engine and the Foxglove engines carry KEYID 0, 11 R387. -/
def sliceReq (x : Xact) (l : LineNo) (op : SliceOp) : SliceReq :=
  { mid := x.mid, pos := x.pos, id := x.id.toNat, key := if x.mid = 24 ∨ 26 ≤ x.mid.val then 0 else x.key.toNat, line := l, op := op }

/-- A line of the machine firmware area. -/
def firmwareLine (l : Nat) : Bool := decide (0x002D00000000 ≤ l * 64) && decide (l * 64 < 0x002D80000000)

/-- A master that may not reach a DRAM line: a Foxglove engine reaches no DRAM (11 R387), and of the engines only one that runs at M level reaches the
machine firmware area (06 R200); the Steward caches that area (11 R404) and the key engine verifies what lies in it, and no other master reaches it (log entry 10). -/
def State.dramBarred (s : State) (mid pos l : Nat) : Bool :=
  decide (27 ≤ mid) ||
    (firmwareLine l && (if mid < 16 then (s.engine (mid * 13 + pos)).core.lev != 3 else mid != 16 && mid != 26))

/-- A beat of a request fails parity in the crossbar, 11 R417: it is answered ERR_TARGET. -/
def State.parityError (s : State) (ws : List TWord) : State := (s.setErr XB_ERR XB_ERR_PARITY 816).reply errTarget ws

/-- LINE_READ: a line read of a stream or a non-caching master, 06 R218. -/
def execLineRead (x : Xact) (l : LineNo) (ecc : Ecc) (s : State) : Host.Outcome State Fault Refusal :=
  .next (if ecc = .parity then s.parityError poisonLine
    else if s.dramBarred x.mid x.pos l then s.reply errPerm poisonLine else s.arrive (sliceReq x l (.read ecc)))

/-- FULL_LINE_WRITE: a write of all 64 bytes and eight tags, 06 R219. -/
def execFullLineWrite (x : Xact) (l : LineNo) (ws : Line) (s : State) : Host.Outcome State Fault Refusal :=
  .next (if s.dramBarred x.mid x.pos l then s.reply errPerm [] else s.arrive (sliceReq x l (.full ws.toList)))

/-- A write that covers all 64 bytes and all eight tags of a line is a full-line write, 06 R219. -/
def coversLine (data : List (Nat × Byte)) (tags : List (Nat × Tag)) : Bool :=
  ((List.range 64).all fun i => (assoc data i).isSome) && ((List.range 8).all fun i => (assoc tags i).isSome)

/-- PARTIAL_LINE_WRITE: a write of some bytes and tags of a line, 06 R220; one that covers the line is a full-line write (R219). -/
def execPartialLineWrite (x : Xact) (l : LineNo) (data : List (Fin 64 × Byte)) (tags : List (Fin 8 × Tag)) (ecc : Ecc)
    (s : State) : Host.Outcome State Fault Refusal :=
  .next (let d := data.map fun p => (p.1.val, p.2)
    let t := tags.map fun p => (p.1.val, p.2)
    if ecc = .parity then s.parityError []
    else if s.dramBarred x.mid x.pos l then s.reply errPerm []
    else s.arrive (sliceReq x l (if coversLine d t then .full (mergeLine emptyLine (assoc d) (assoc t)) else .part ecc d t)))

/-! Directory rows. -/

/-- An uncorrectable directory entry is rebuilt, 11 R414. -/
def State.dirRebuild (s : State) (l : Nat) (differing : Bool) : State :=
  let sl := s.sliceOf (l * 64)
  let t := if differing then s.storeLine l (s.dirEntry l).keyid poisonLine else s.collect l
  let t := ((t.setDir l DirEntry.none).count (SLC_DIR_UE sl) SLC_DIR_UE_COUNT 1).assert (768 + sl)
  t.recordSev (768 + sl) sevError (unitSlice sl) (l % 2 ^ 32) (l / 2 ^ 32) 0

/-- What the check of the directory entry of a request finds, 11 R414. -/
def State.dirCheck (s : State) (l : Nat) (e : DirEcc) : State :=
  match e with
  | .clean => s
  | .corrected => s.count (SLC_DIR_CE (s.sliceOf (l * 64))) SLC_DIR_CE_COUNT 1
  | .uncorrectable => s.dirRebuild l false
  | .differing => s.dirRebuild l true

/-- Identity of a caching master's request: clusters 0 to 15 and the Steward, 11 R387. -/
def cacheReq (c : Fin 17) (pos : Fin 13) (key : BitVec 13) (l : LineNo) (op : SliceOp) : SliceReq :=
  { mid := c, pos := pos, id := 0, key := key.toNat, line := l, op := op }

/-- A request of a caching master, which the firmware area refuses to engines below M level, 06 R200. -/
def State.cacheArrive (s : State) (c : Fin 17) (pos : Fin 13) (key : BitVec 13) (l : LineNo) (d : DirEcc) (op : SliceOp) : State :=
  if s.dramBarred c pos l then s.reply errPerm poisonLine else (s.dirCheck l d).arrive (cacheReq c pos key l op)

/-- RD_S: a load or fetch of a caching master, 11 R407. -/
def execRdS (c : Fin 17) (pos : Fin 13) (key : BitVec 13) (l : LineNo) (d : DirEcc) (s : State) : Host.Outcome State Fault Refusal :=
  .next (s.cacheArrive c pos key l d (.rdS none))

/-- RD_U: a store miss of a caching master, 11 R407. -/
def execRdU (c : Fin 17) (pos : Fin 13) (key : BitVec 13) (l : LineNo) (d : DirEcc) (s : State) : Host.Outcome State Fault Refusal :=
  .next (s.cacheArrive c pos key l d .rdU)

/-- UPG: a store to an S line; a requester that an SNP_INV has passed is served as an RD_U, 11 R407 and R411. -/
def execUpg (c : Fin 17) (pos : Fin 13) (key : BitVec 13) (l : LineNo) (d : DirEcc) (s : State) : Host.Outcome State Fault Refusal :=
  .next (s.cacheArrive c pos key l d .upg)

/-- WB: a dirty eviction written back with its data, which completes a snoop that was answered EVICTING, 11 R407 and R410. -/
def execWb (c : Fin 17) (l : LineNo) (ws : Line) (s : State) : Host.Outcome State Fault Refusal :=
  .next (let d := s.dirEntry l
    if d.st = 3 ∧ bits d.sharers c 1 = 1 then
      if s.remapLost l .clean then ((s.remapEcc l d.keyid).setDir l DirEntry.none).reply errTarget []
      else
        let t := if d.evicting = 4 then s else (s.takeSlots l 1).storeLine l d.keyid ws.toList
        (t.setDir l DirEntry.none).reply respOk []
    else s)

/-- EVC: a clean eviction notice, 11 R407. -/
def execEvc (c : Fin 17) (l : LineNo) (s : State) : Host.Outcome State Fault Refusal :=
  .next (if (s.dirEntry l).st ≠ 3 then s.dropHolder l c else s)

/-- A snoop of kind `k` that meets a line whose write-back has left the holder, 11 R410. -/
def State.snpEvicting (s : State) (l k : Nat) : State :=
  ((s.setDir l { s.dirEntry l with evicting := k }).count (SLC_DIR_EVX (s.sliceOf (l * 64))) SLC_DIR_EVX_COUNT 1).emit (.snoop 3 [])

/-- Answer a snoop for a holder that no longer holds the line, 11 R412. -/
def State.snpMiss (s : State) (l c : Nat) : State := (s.dropHolder l c).emit (.snoop 2 [])

/-- The holder `c` of line `l` holds it. -/
def State.holds (s : State) (l c : Nat) : Bool := bits (s.dirEntry l).sharers c 1 == 1

/-- SNP_SH: data from the M or E holder, which stays with S, 11 R408; `crossing` says that its write-back has left it. -/
def execSnpSh (c : Fin 17) (l : LineNo) (crossing : Bool) (s : State) : Host.Outcome State Fault Refusal :=
  .next (if crossing then s.snpEvicting l 1
    else if !s.holds l c then s.snpMiss l c
    else
      let d := s.dirEntry l
      if d.st ≥ 2 then ((s.collect l).setDir l { d with st := 1 }).emit (.snoop 0 (s.copyOf l))
      else s.emit (.snoop 1 []))

/-- SNP_INV: the holder is left with I; an M line's data is collected, 11 R408. -/
def execSnpInv (c : Fin 17) (l : LineNo) (crossing : Bool) (s : State) : Host.Outcome State Fault Refusal :=
  .next (if crossing then s.snpEvicting l 2
    else if !s.holds l c then s.snpMiss l c
    else
      match s.dirtyLine l with
      | some ws => ((s.collect l).dropHolder l c).emit (.snoop 0 ws)
      | none => (s.dropHolder l c).emit (.snoop 1 []))

/-- SNP_RD: an M holder's data is forwarded and its state stays, 11 R408. -/
def execSnpRd (c : Fin 17) (l : LineNo) (crossing : Bool) (s : State) : Host.Outcome State Fault Refusal :=
  .next (if crossing then s.snpEvicting l 3
    else if !s.holds l c then s.snpMiss l c
    else
      match s.dirtyLine l with
      | some ws => s.emit (.snoop 0 ws)
      | none => s.emit (.snoop 1 []))

/-- SNP_DROP: the holder's copy is discarded, dirty or not, 11 R407 and R408. -/
def execSnpDrop (c : Fin 17) (l : LineNo) (crossing : Bool) (s : State) : Host.Outcome State Fault Refusal :=
  .next (if crossing then s.snpEvicting l 4
    else if !s.holds l c then s.snpMiss l c
    else (s.dropHolder l c).emit (.snoop 1 []))

/-- DEFAULT_TARGET_ACCESS: a request to an address that no target serves, 11 R393; a Foxglove engine is refused there (R387). -/
def execDefaultTargetAccess (x : Xact) (addr : BitVec 48) (s : State) : Host.Outcome State Fault Refusal :=
  .next (if 27 ≤ x.mid.val then s.reply errPerm [twPoison] else s.defaultTarget addr.toNat x.mid x.pos)

/-! Scrubbing, sanitising and retirement. -/

/-- Lines of a pseudo-channel, 06 R201. -/
def pcLines : Nat := 12582912

/-- The scrub pointer of pseudo-channel `p` moves on; SLC_SCRUB counts the passes that all eight have completed, 06 R224 and R232. -/
def State.scrubStep (s : State) (p : Nat) : State :=
  let l := sget (fun _ => 0) s.mem.scrub p
  if l + 1 < pcLines then { s with mem := { s.mem with scrub := sset (fun _ => 0) s.mem.scrub p (l + 1) } }
  else
    let done := sget (fun _ => 0) s.mem.passDone p + 1
    let t : State := { s with mem := { s.mem with scrub := sset (fun _ => 0) s.mem.scrub p 0,
                                                  cePass := sset (fun _ => 0) s.mem.cePass p 0,
                                                  passDone := sset (fun _ => 0) s.mem.passDone p done } }
    let sl := p / 8
    let m := ((List.range 8).map fun n => sget (fun _ => 0) t.mem.passDone (sl * 8 + n)).foldl min done
    t.wr (SLC_SCRUB sl) SLC_SCRUB_PASSES (min m (2 ^ 32 - 1))

/-- The scrubber checks the stored line `l` of pseudo-channel `p`, whatever it serves, 06 R224: `f` is the environment's part of what it finds. A line that no master can
address is logged with a free LINE, since no PA names it (log entry 7). -/
def State.scrubLine (s : State) (p l : Nat) (f : ScrubFind) : State :=
  let c := cellLine p l
  let old := s.mem.flaw c
  if f = .uncorrectable ∨ old = .uncorrectable then
    match s.paOfCell p l with
    | some a => s.cellUe (p / 8) c (a / 64) (s.mem.side c).keyid
    | none =>
      let (w, t) := s.takeFree
      t.cellUe (p / 8) c (w.toNat % 2 ^ 42) (s.mem.side c).keyid
  else if f = .corrected ∨ f = .overtaken ∨ old = .corrected then
    let t := s.pcCe p
    if f = .overtaken then t else { t with mem := t.mem.setFlaw c .clean }
  else s

/-- SCRUB_SLOT: slot 255 of a pseudo-channel, 06 R224. -/
def execScrubSlot (p : Fin 256) (f : ScrubFind) (s : State) : Host.Outcome State Fault Refusal :=
  .next ((s.scrubLine p (sget (fun _ => 0) s.mem.scrub p) f).scrubStep p)

/-- The region of a number that slice `sl` serves. -/
def State.sliceRegion (s : State) (sl n : Nat) : Option Region :=
  match s.elem 4 0 n with
  | [] => none
  | ws =>
    let r := regionOfElem n ws
    if r.mode = 0 ∨ (r.mode = 1 ∧ r.stack = sl / 4) ∨ (r.mode = 2 ∧ r.slice = sl) then some r else none

/-- A write of SLC_SANIT, 06 R223. -/
def State.sanit (s : State) (sl region : Nat) (go : Bool) : State :=
  if !go then (s.wr (SLC_SANIT sl) SLC_SANIT_REGION region).reply respOk []
  else if (s.sliceRegion sl region).isNone || s.flag (SLC_STAT sl) SLC_STAT_SANIT_BUSY then s.reply errTarget []
  else
    let s := { s with mem := { s.mem with sanitPos := s.mem.sanitPos.filter fun x => x.1 / 8 != sl } }
    ((s.wr (SLC_SANIT sl) SLC_SANIT_REGION region).wr (SLC_STAT sl) SLC_STAT_SANIT_BUSY 1).reply respOk []

/-- SANITISE: a write of SLC_SANIT with GO = 1, 06 R223. -/
def execSanitise (sl : Fin 32) (region : Fin 256) (s : State) : Host.Outcome State Fault Refusal :=
  .next (s.sanit sl region true)

/-- Drop the entries of a sparse map whose key satisfies a test. -/
def sdrop {α : Type} (m : Sparse α) (f : Nat → Bool) : Sparse α := m.filter fun p => !f p.1

/-- Lines `a` to `b - 1` of pseudo-channel `p` become CLEAN with data 0 where they are served, and their copies are discarded, 06 R223 and 11 R407. -/
def State.cleanLines (s : State) (p a b : Nat) : State :=
  let here (c : Nat) : Bool := match s.homeOf (c / 2 ^ 24) (c % 2 ^ 24) with
    | some h => h.1 == p && decide (a ≤ h.2) && decide (h.2 < b)
    | none => false
  let f (c : Nat) : Bool := decide (c < 2 ^ 32) && here c
  let g (l : Nat) : Bool := match s.place (l * 64) with
    | some h => h.1 == p && decide (a ≤ h.2) && decide (h.2 < b)
    | none => false
  { s with mem := { s.mem with bytes := sdrop s.mem.bytes fun x => f (x / 64), tags := sdrop s.mem.tags fun k => f (k / 8),
                               lines := sdrop s.mem.lines f, flaws := sdrop s.mem.flaws f,
                               dir := sdrop s.mem.dir g, copies := sdrop s.mem.copies g } }

/-- Slice `sl` writes `n` more lines of the region it sanitises on pseudo-channel `p`, in ascending P, 06 R223. -/
def State.sanitLines (s : State) (sl p n : Nat) : State :=
  match s.sliceRegion sl (s.rd (SLC_SANIT sl) SLC_SANIT_REGION) with
  | some r =>
    let k := sget (fun _ => 0) s.mem.sanitPos p
    let m := min r.share (k + n)
    let t := s.cleanLines p (s.pcBase r p + k) (s.pcBase r p + m)
    { t with mem := { t.mem with sanitPos := sset (fun _ => 0) t.mem.sanitPos p m } }
  | none => s

/-- SANITISE_DONE: the slice has set the rest of its lines of the region to CLEAN, 06 R223. -/
def execSanitiseDone (sl : Fin 32) (s : State) : Host.Outcome State Fault Refusal :=
  .next (if s.flag (SLC_STAT sl) SLC_STAT_SANIT_BUSY then
      let t := eachDo (List.range 8) (fun n t => t.sanitLines sl (8 * sl.val + n) pcLines) s
      (t.wr (SLC_STAT sl) SLC_STAT_SANIT_BUSY 0).slcEvent sl SLC_ERR_SANIT_DONE sevNotice 0
    else s)

/-- PC_TRAINING_LOSS: pseudo-channel `p` loses training and cannot retrain, 06 R225 and R226. -/
def execPcTrainingLoss (p : Fin 256) (s : State) : Host.Outcome State Fault Refusal :=
  .next (s.meetsLimit p)

/-- A write of SLC_PCCMD, 06 R225 and R230: only the Steward writes it, and a command that does not match the state is refused; one that is carried out rewrites
the remap table of its pseudo-channel (R231, log entry 10). -/
def State.pcCmd (s : State) (r : Requester) (p op : Nat) : State :=
  if r ≠ .steward then s.reply errPerm []
  else if op = 0 then s.reply respOk []
  else if op = 1 ∧ (s.pcState p = 0 ∨ s.pcState p = 7) then (s.retirePc p).reply respOk []
  else if op = 2 ∧ s.pcState p = 2 then ((s.setPcState p 3).rewriteRemap p).reply respOk []
  else if op = 3 ∧ s.pcState p = 4 then ((s.setPcState p 6).startMig p 1).reply respOk []
  else s.reply errTarget []

/-- PC_RETIRE. -/
def execPcRetire (r : Requester) (p : Fin 256) (s : State) : Host.Outcome State Fault Refusal := .next (s.pcCmd r p 1)

/-- PC_TEST. -/
def execPcTest (r : Requester) (p : Fin 256) (s : State) : Host.Outcome State Fault Refusal := .next (s.pcCmd r p 2)

/-- PC_REINSTATE. -/
def execPcReinstate (r : Requester) (p : Fin 256) (s : State) : Host.Outcome State Fault Refusal := .next (s.pcCmd r p 3)

/-- PC_TEST_DONE: the march test of a pseudo-channel ends, 06 R230. -/
def execPcTestDone (p : Fin 256) (good : Bool) (s : State) : Host.Outcome State Fault Refusal :=
  .next (if s.pcState p = 3 then s.setPcState p (if good then 4 else 5) else s)

/-- Copy line `l` of the migrating pseudo-channel `p` between its own place and its sparing place: an old copy that cannot be read becomes POISON with REASON MIGRATION, 06 R228 and R230. -/
def State.copyLine (s : State) (p l : Nat) (lost : Bool) : State :=
  let own := cellLine p l
  let spare := cellLine (sparePlace p l).1 (sparePlace p l).2
  let (src, dst) := if s.pcState p = 1 then (own, spare) else (spare, own)
  let m := s.mem
  { s with mem := if lost || m.flaw src == .uncorrectable then m.putCell dst poisonLine { m.side src with st := 2, reason := 2 }
                  else m.putCell dst (m.cellWords src) (m.side src) }

/-- The lines of pseudo-channel `p` in a range whose own place or sparing place has something listed. -/
def State.migLines (s : State) (p a b : Nat) : List Nat :=
  let home (c : Nat) : Option Nat :=
    let q := c / 2 ^ 24
    let k := c % 2 ^ 24
    if 256 ≤ q ∨ q / 32 ≠ p / 32 then none
    else if q = p then (if k < spareBase then some k else none)
    else if k < spareBase then none
    else some (31 * (k - spareBase) + (if q % 32 < p % 32 then q % 32 else q % 32 - 1))
  let cs := s.mem.bytes.map (·.1 / 64) ++ s.mem.tags.map (·.1 / 8) ++ s.mem.lines.map (·.1) ++ s.mem.flaws.map (·.1)
  ((cs.filterMap home).filter fun l => decide (a ≤ l) && decide (l < b)).eraseDups

/-- The migration pointer of slice `sl` moves on to line `b` as the slice copies lines in ascending P, 06 R228. -/
def State.migrateTo (s : State) (sl b : Nat) : State :=
  let p := sl * 8 + s.rd (SLC_STAT sl) SLC_STAT_MIG_PC
  let a := s.rd (SLC_MIGPOS sl) SLC_MIGPOS_LINE
  let t := eachDo (s.migLines p a b) (fun l t => t.copyLine p l false) s
  t.wr (SLC_MIGPOS sl) SLC_MIGPOS_LINE b

/-- MIGRATION_DONE: slice `sl` has copied the rest of the lines; `lost` lists those whose old copy could not be read, 06 R228 and R230. -/
def execMigrationDone (sl : Fin 32) (lost : List LineNo) (s : State) : Host.Outcome State Fault Refusal :=
  .next (if s.flag (SLC_STAT sl) SLC_STAT_MIG_ACTIVE then
      let n := s.rd (SLC_STAT sl) SLC_STAT_MIG_PC
      let p := sl.val * 8 + n
      let gone := lost.filterMap fun l => match s.place (l.val * 64) with
        | some h => if h.1 = p ∧ s.rd (SLC_MIGPOS sl) SLC_MIGPOS_LINE ≤ h.2 then some h.2 else none
        | none => none
      let t := s.migrateTo sl spareBase
      let t := eachDo gone (fun l t => t.copyLine p l true) t
      let t := t.wr (SLC_STAT sl) SLC_STAT_MIG_ACTIVE 0
      let t := if s.pcState p = 1 then (t.setPcState p 2).wr (SLC_STAT sl) ⟨n, 1, .ro, 0⟩ 1
        else ((t.setPcState p 0).wr (SLC_STAT sl) ⟨n, 1, .ro, 0⟩ 0).setRemap p false
      t.slcEvent sl SLC_ERR_MIG_DONE sevNotice 0
    else s)

/-- One XCLK of the work that slice `sl` does of itself: a migration copies at most one line (06 R229 gives it fewer slots than one per XCLK) and a sanitise writes at most
one line on each pseudo-channel (R208, R223); how soon is free (log entries 1 and 7). -/
def State.sliceTick (s : State) (sl : Nat) : State :=
  let a := s.rd (SLC_MIGPOS sl) SLC_MIGPOS_LINE
  let t := if s.flag (SLC_STAT sl) SLC_STAT_MIG_ACTIVE ∧ a < spareBase then
      let (w, t) := s.takeFree
      if bits w.toNat 0 1 = 1 then t.migrateTo sl (a + 1) else t
    else s
  if t.flag (SLC_STAT sl) SLC_STAT_SANIT_BUSY then
    let (w, t) := t.takeFree
    eachDo ((List.range 8).filter fun n => bits w.toNat n 1 == 1) (fun n u => u.sanitLines sl (8 * sl + n) 1) t
  else t

/-- Clear the counters at listed offsets. -/
def State.clearRegs (s : State) (offs : List Nat) : State := eachDo offs (fun o t => t.setReg o 0) s

/-- SLC_CNTCLR: clears SLC_CE to SLC_PWPOISON, 06 R232. -/
def execSlcCntclr (sl : Fin 32) (s : State) : Host.Outcome State Fault Refusal :=
  .next ((s.clearRegs [SLC_CE sl, SLC_UE sl, SLC_INTEG sl, SLC_PWPOISON sl]).reply respOk [])

/-- SLC_XCNTCLR: clears SLC_LOCK_GRANT to SLC_DIR_KEYERR except SLC_DIR_USED, 11 R415. -/
def execSlcXcntclr (sl : Fin 32) (s : State) : Host.Outcome State Fault Refusal :=
  .next ((s.clearRegs [SLC_LOCK_GRANT sl, SLC_LOCK_BRK sl, SLC_LOCK_REFUSED sl, SLC_DIR_BACKINV sl, SLC_DIR_CE sl,
    SLC_DIR_UE sl, SLC_DIR_EVX sl, SLC_DIR_KEYERR sl]).reply respOk [])

/-- CLU_CC_CNTCLR: clears the four cluster cache counters, 11 R416. -/
def execCluCcCntclr (c : Fin 16) (s : State) : Host.Outcome State Fault Refusal :=
  .next ((s.clearRegs [CLU_CC_HIT c, CLU_CC_MISS c, CLU_CC_CE c, CLU_CC_UE c]).reply respOk [])

end Sys2Proof.Machine
end

