-- ==== Sys2Proof/Machine/Lvs.lean ====
section
/-! DEFINITION. The cluster port of a local vector store and the Foxglove background test, 06 R233 to R244. -/
namespace Sys2Proof.Machine
open Reg

/-- Count a conflict of stream `k` (0 to 3 A to D, 4 the cluster port), 06 R238. -/
def State.lvsConflict (s : State) (e k : Nat) : State := s.count (LVS_CONFLICT e k) LVS_CONFLICT_COUNT 1

/-- Key of a requester's run of ERR_BUSY on a word, 06 R237. -/
def busyKey (mid pos e w : Nat) : Nat := ((mid * 13 + pos) * 208 + e) * 2 ^ 17 + w

/-- Consecutive ERR_BUSY of a requester on a word. -/
def State.busyRun (s : State) (k : Nat) : Nat := sget (fun _ => 0) s.mem.busy k

/-- Set the run of ERR_BUSY. -/
def State.setBusy (s : State) (k n : Nat) : State := { s with mem := { s.mem with busy := sset (fun _ => 0) s.mem.busy k n } }

/-- The error of the word that serves offset `o`. -/
def State.lvsFlaw (s : State) (e o : Nat) : Ecc := s.mem.flaw (s.lvsAddr e o / 8)

/-- The environment's part of what the check of a word finds (log entry 3). -/
def State.lvsFinds (s : State) (e o : Nat) (ecc : Ecc) : State :=
  { s with mem := s.mem.setFlaw (s.lvsAddr e o / 8) (worse ecc (s.lvsFlaw e o)) }

/-- The check of a word that an access reads, 06 R235: a corrected word is counted and rewritten; an uncorrectable one is rewritten with data 0 and tag POISON and recorded. -/
def State.lvsCheck (s : State) (e o : Nat) : State :=
  match s.lvsFlaw e o with
  | .corrected => { s with mem := s.mem.setFlaw (s.lvsAddr e o / 8) .clean }.count (LVS_CE e) LVS_CE_COUNT 1
  | .uncorrectable => (s.setLvsWord e o twPoison).lvsUe e (s.foxServe e (s.foxReal e (o / 256))) o
  | _ => s

/-- Some word of a list at 64-byte line `line` is uncorrectable. -/
def State.lvsBad (s : State) (e line : Nat) (ws : List Nat) : Bool := ws.any fun i => s.lvsFlaw e (line * 64 + 8 * i) == .uncorrectable

/-- The words of a line of an LVS after the check of those that a port reads, and whether none of these is uncorrectable, 06 R235. -/
def State.lvsFetch (s : State) (e line : Nat) (ws : List Nat) : Bool × List TWord × State :=
  let t := eachDo ws (fun i t => t.lvsCheck e (line * 64 + 8 * i)) s
  (!s.lvsBad e line ws, (List.range 8).map fun i => t.lvsWord e (line * 64 + 8 * i), t)

/-- A cluster-port read of 64 bytes, 06 R234 and R235. -/
def State.lvsRead (s : State) (e line : Nat) : Nat × List TWord × State :=
  let r := s.lvsFetch e line (List.range 8)
  (if r.1 then respOk else errPoison, r.2)

/-- Whether a write covers the whole of word `i` of a line. -/
def wholeWord (data : List (Nat × Byte)) (i : Nat) : Bool := (List.range 8).all fun k => (assoc data (8 * i + k)).isSome

/-- Whether a write touches word `i` of a line. -/
def touches (data : List (Nat × Byte)) (tags : List (Nat × Tag)) (i : Nat) : Bool :=
  ((List.range 8).any fun k => (assoc data (8 * i + k)).isSome) || (assoc tags i).isSome

/-- Words of a line that a write merges with what they hold. -/
def mergedWords (data : List (Nat × Byte)) (tags : List (Nat × Tag)) : List Nat :=
  (List.range 8).filter fun i => touches data tags i && !wholeWord data i

/-- Put bytes and tags into a line of an LVS. -/
def State.lvsPut (s : State) (e line : Nat) (data : List (Nat × Byte)) (tags : List (Nat × Tag)) : State :=
  eachDo ((List.range 8).filter fun i => touches data tags i) (fun i x =>
    x.setLvsWord e (line * 64 + 8 * i)
      (mergeWord (x.lvsWord e (line * 64 + 8 * i)) (fun k => assoc data (8 * i + k)) (assoc tags i))) s

/-- An engine-port write: the words that it merges are checked and take what the VSU gives them, 03 R106 and 06 R235. -/
def State.lvsEnginePut (s : State) (e line : Nat) (data : List (Nat × Byte)) (tags : List (Nat × Tag)) : State :=
  (eachDo (mergedWords data tags) (fun i t => t.lvsCheck e (line * 64 + 8 * i)) s).lvsPut e line data tags

/-- A cluster-port write, 06 R235: a merge that meets an uncorrectable or poisoned word is not performed. -/
def State.lvsWrite (s : State) (e line : Nat) (data : List (Nat × Byte)) (tags : List (Nat × Tag)) : Nat × State :=
  let merged := mergedWords data tags
  let t := eachDo merged (fun i t => t.lvsCheck e (line * 64 + 8 * i)) s
  if merged.any fun i => (t.lvsWord e (line * 64 + 8 * i)).tag == tagPoison then (errPoison, t)
  else (respOk, t.lvsPut e line data tags)

/-- A cluster-port request, 06 R234 to R238. -/
def State.lvsAccess (s : State) (mid pos e line : Nat) (write : Bool) (data : List (Nat × Byte)) (tags : List (Nat × Tag))
    (port : PortUse) (w : Nat) (ecc : Ecc) : State :=
  let k := busyKey mid pos e (line * 8 + w)
  let doIt (s : State) : State :=
    let s := s.setBusy k 0
    if write then
      let s := if (mergedWords data tags).contains w then s.lvsFinds e (line * 64 + 8 * w) ecc else s
      let r := s.lvsWrite e line data tags
      r.2.reply r.1 []
    else
      let r := (s.lvsFinds e (line * 64 + 8 * w) ecc).lvsRead e line
      r.2.2.reply r.1 r.2.1
  match port with
  | .idle => doIt s
  | .reads st =>
    if write then ((doIt s).count (LVS_BUSY e) LVS_BUSY_ENG 1).lvsConflict e st else doIt s
  | .writes =>
    if s.busyRun k ≥ 8 then (doIt s).lvsConflict e 3
    else
      let t := ((s.setBusy k (s.busyRun k + 1)).count (LVS_BUSY e) LVS_BUSY_CLU 1).lvsConflict e 4
      if write then t.reply errBusy []
      else
        let (ws, t) := t.takeFreeN 8
        t.reply errBusy (ws.map fun x => ⟨x.extractLsb' 0 4, x⟩)

/-- LVS_CLUSTER_ACCESS: a 64-byte request at line `line` of an LVS; `port` is what the engine port does with word `w` in the same ECLK, and `ecc` what the check of word `w` finds. -/
def execLvsClusterAccess (x : Xact) (e : EngId) (line : Fin 16384) (write : Bool) (data : List (Fin 64 × Byte))
    (tags : List (Fin 8 × Tag)) (port : PortUse) (w : Fin 8) (ecc : Ecc) (s : State) : Host.Outcome State Fault Refusal :=
  .next (if ecc = .parity then s.parityError []
    else if 27 ≤ x.mid.val ∧ x.mid.val - 27 ≠ clusterOf e then s.reply errPerm []
    else s.lvsAccess x.mid x.pos e line write (data.map fun p => (p.1.val, p.2)) (tags.map fun p => (p.1.val, p.2)) port w ecc)

/-! Foxglove, 06 R240 to R243. -/

/-- Copy one word of a storage region of engine `e` to another, with the check of 06 R235. -/
def State.foxWord (s : State) (e r q o : Nat) : State :=
  let a := lvsStore e r + o
  let put (t : State) (x : TWord) : State := { t with mem := t.mem.putWord (lvsStore e q + o) x }
  match s.mem.flaw (a / 8) with
  | .uncorrectable => put (({ s with mem := s.mem.putWord a twPoison } : State).lvsUe e r o) twPoison
  | .corrected => put ({ s with mem := s.mem.setFlaw (a / 8) .clean }.count (LVS_CE e) LVS_CE_COUNT 1) (s.mem.word a)
  | _ => put s (s.mem.word a)

/-- Copy one storage region of engine `e` to another. -/
def State.foxCopy (s : State) (e r q : Nat) : State := eachDo (List.range 32) (fun i t => t.foxWord e r q (8 * i)) s

/-- Set Foxglove's phase. -/
def State.setFoxPhase (s : State) (e p : Nat) : State := s.wr (FOX_STAT e) FOX_STAT_PHASE p

/-- FOX_SAVE: Foxglove begins a test region, 06 R240. -/
def execFoxSave (e : EngId) (s : State) : Host.Outcome State Fault Refusal :=
  .next (if s.flag (FOX_CTRL e) FOX_CTRL_EN ∧ s.foxPhase e = 0 ∧ !s.flag (FOX_STAT e) FOX_STAT_EXHAUSTED then
      let t := s.foxCopy e (s.foxRegion e) saveRegion
      ({ t with mem := { t.mem with foxSince := sset (fun _ => 0) t.mem.foxSince e s.gav.mono } } : State).setFoxPhase e 1
    else s)

/-- Note the failures of the region under test, or that none is under test. -/
def State.setMarch (s : State) (e : Nat) (n : Option Nat) : State :=
  { s with mem := { s.mem with foxMarch := sset (fun _ => none) s.mem.foxMarch e n } }

/-- FOX_MARCH: the march test of the region, whose accesses the save buffer serves, 06 R240 to R242. -/
def execFoxMarch (e : EngId) (m : March) (s : State) : Host.Outcome State Fault Refusal :=
  .next (if s.foxPhase e = 1 then
      let t := s.setFoxPhase e 2
      let n := match m with
        | .pass => 0
        | .failOnce => 1
        | .failTwice => 2
      let t := (t.count (FOX_FAILS e) FOX_FAILS_COUNT n)
      let t := t.setMarch e (some n)
      if n = 2 ∧ (s.foxNeeds e (s.foxRegion e)).isSome ∧ (s.foxFree e).isNone then
        let r := s.foxRegion e
        let t := if 4096 ≤ r ∧ r < 4112 then t.wr (FOX_MAP e (r - 4096)) FOX_MAP_BAD 1 else t
        let t := t.setMarch e none
        let t : State := { t with mem := { t.mem with foxStuck := sset (fun _ => 0) t.mem.foxStuck e (r + 1) } }
        let t := ((t.wr (FOX_STAT e) FOX_STAT_EXHAUSTED 1).setFoxPhase e 0).assert (752 + clusterOf e)
        t.recordSev (752 + clusterOf e) sevCritical (unitEngine e) (bits (t.reg (FOX_STAT e)).toNat 0 32)
          (bits (t.reg (FOX_STAT e)).toNat 32 32) 0
      else t
    else s)

/-- RESTORE begins: the save buffer is copied back, and it still serves the region, 06 R240 and R241. -/
def State.foxBegin (s : State) (e : Nat) : State :=
  match s.foxBack e with
  | some q => (s.foxCopy e saveRegion q).setFoxPhase e 3
  | none => s.setFoxPhase e 3

/-- RESTORE ends: a region that failed twice has moved to its spare region, whose map entry begins, a spare region that failed is BAD, and the redirect ends; with EN = 0 the test
then stops, 06 R240, R241 and R244. -/
def State.foxEnd (s : State) (e : Nat) : State :=
  let r := s.foxRegion e
  let spare := decide (4096 ≤ r ∧ r < 4112)
  let t := if s.foxFails e = 2 then
      match s.foxNeeds e r, s.foxFree e with
      | some q, some k =>
        let t := if spare then s.setReg (FOX_MAP e (r - 4096)) (BitVec.ofNat 64 (2 ^ 14))
          else s.wr (FOX_STAT e) FOX_STAT_SPARES (s.rd (FOX_STAT e) FOX_STAT_SPARES + 1)
        (t.wr (FOX_MAP e k) FOX_MAP_VALID 1).wr (FOX_MAP e k) FOX_MAP_REGION q
      | some _, none => s
      | none, _ => if spare then s.wr (FOX_MAP e (r - 4096)) FOX_MAP_BAD 1 else s
    else s
  (t.setMarch e none).setFoxPhase e (if t.flag (FOX_CTRL e) FOX_CTRL_EN then 4 else 0)

/-- RESTORE of the current region as a whole, from the end of MARCH or from within RESTORE. -/
def State.foxRestore (s : State) (e : Nat) : State :=
  if s.foxPhase e = 2 then (s.foxBegin e).foxEnd e else if s.foxPhase e = 3 then s.foxEnd e else s

/-- FOX_RESTORE: the save buffer is copied back and the redirect ends, 06 R240. -/
def execFoxRestore (e : EngId) (s : State) : Host.Outcome State Fault Refusal := .next (s.foxRestore e)

/-- One XCLK of Foxglove: a march that has ended goes on to RESTORE, 06 R240 (log entry 43). -/
def State.foxTick (s : State) : State :=
  eachDo (s.mem.foxMarch.map (·.1)) (fun e t => if t.foxPhase e = 2 then t.foxBegin e else t) s

/-- FOX_WAIT_END: PACE µs from the start of SAVE pass, and Foxglove moves to the next region, 06 R240. -/
def execFoxWaitEnd (e : EngId) (s : State) : Host.Outcome State Fault Refusal :=
  .next (if s.foxPhase e = 4 then
      let r := s.foxRegion e + 1
      let t := (s.passTo (sget (fun _ => 0) s.mem.foxSince e + 1000 * s.rd (FOX_CTRL e) FOX_CTRL_PACE)).setFoxPhase e 0
      if r < 4128 then t.wr (FOX_STAT e) FOX_STAT_REGION r
      else (t.wr (FOX_STAT e) FOX_STAT_REGION 0).count (FOX_STAT e) FOX_STAT_PASSES 1
    else s)

/-- Before its LVS is copied, Foxglove completes RESTORE of the current region, or abandons SAVE, and tests the region again later, 06 R243. -/
def State.foxAbandon (s : State) (e : Nat) : State := if s.foxPhase e = 1 then s.setFoxPhase e 0 else s.foxRestore e

/-- After another LVS has been copied over that of engine `e`, what the copy wrote into the region under test stands in the save buffer too, and during RESTORE in the region
to which the buffer goes back, 06 R240. -/
def State.foxFollow (s : State) (e : Nat) : State :=
  if s.foxPhase e = 1 then s.foxCopy e (s.foxRegion e) saveRegion
  else if s.foxPhase e = 3 then
    match s.foxBack e with
    | some q => s.foxCopy e saveRegion q
    | none => s
  else s

/-! Errors that arise in stored codewords, 06 R218, R231 and R235. -/

/-- An error arises in a stored codeword: in a DRAM line, in an LVS word, in a copy of a remap entry, in one copy of a microword (08 R299) or in a line of a cluster cache (11 R416), or nowhere, as the free number `w` says (log entry 3). -/
def Mem.strike (m : Mem) (w : Nat) : Mem :=
  let kind := bits w 0 2
  let sev : Ecc := if bits w 2 1 = 1 then .uncorrectable else .corrected
  let c := bits w 8 32
  let a := lvsStore (bits w 8 8 % 208) (bits w 16 13 % 4129) / 8 + bits w 32 5
  let k := if kind = 1 then c else a
  let u := bits w 8 8 % 208 * 2 ^ 16 + bits w 16 16
  let cc := bits w 16 46
  { m with
    ccFlaws := if kind = 0 ∧ bits w 3 2 = 2 then sset (fun _ => Ecc.clean) m.ccFlaws cc (worse sev (sget (fun _ => Ecc.clean) m.ccFlaws cc)) else m.ccFlaws,
    ucFlaws := if kind = 0 ∧ bits w 3 1 = 1 then sset (fun _ => Ecc.clean) m.ucFlaws u (worse sev (sget (fun _ => Ecc.clean) m.ucFlaws u)) else m.ucFlaws,
    flaws := if kind = 1 ∨ kind = 2 then sset (fun _ => Ecc.clean) m.flaws k (worse sev (m.flaw k)) else m.flaws,
    remapBad := if kind = 3 then sset (fun _ => 0) m.remapBad c (sget (fun _ => 0) m.remapBad c ||| (bits w 3 1 + 1)) else m.remapBad }

/-- One XCLK of the storage cells: an error may arise. -/
def State.upset (s : State) : State :=
  let r := s.takeFree
  { r.2 with mem := r.2.mem.strike r.1.toNat }

/-- LVS_CNTCLR: clears LVS_CONFLICT0 to LVS_UE, 06 R244. -/
def execLvsCntclr (e : EngId) (s : State) : Host.Outcome State Fault Refusal :=
  .next ((s.clearRegs [LVS_CONFLICT e 0, LVS_CONFLICT e 1, LVS_CONFLICT e 2, LVS_CONFLICT e 3, LVS_CONFLICT e 4, LVS_BUSY e,
    LVS_CE e, LVS_UE e]).reply respOk [])

/-- ENG_VSU_CNTCLR: clears the VSU counters, 03 R130. -/
def execEngVsuCntclr (e : EngId) (s : State) : Host.Outcome State Fault Refusal :=
  .next ((s.clearRegs [ENG_VSU_BLOCKS e, ENG_VSU_REWIND e, ENG_VSU_TAGFLT e, ENG_VSU_HAZSTALL e, ENG_VSU_DEFER e]).reply respOk [])

/-- ENG_CHN_CNTCLR: clears the chain counters, 05 R199. -/
def execEngChnCntclr (e : EngId) (s : State) : Host.Outcome State Fault Refusal :=
  .next ((s.clearRegs [ENG_CHN_WAITIN e, ENG_CHN_WAITOUT e, ENG_CHN_FREEZE e, ENG_CHN_LINKERR e]).reply respOk [])

/-- ENG_EXC_CNTCLR: clears the four exception counters, 09 R344. -/
def execEngExcCntclr (e : EngId) (s : State) : Host.Outcome State Fault Refusal :=
  .next ((s.clearRegs [ENG_EXC_HELDCNT e, ENG_EXC_NIOVR e, ENG_EXC_FEH e, ENG_EXC_PROMPTHOLD e]).reply respOk [])

/-- ENG_TNG_CNTCLR: clears ENG_TNG_MISM.COUNT and ENG_TNG_SVRETRY, 10 R384. -/
def execEngTngCntclr (e : EngId) (s : State) : Host.Outcome State Fault Refusal :=
  .next (((s.wr (ENG_TNG_MISM e) ENG_TNG_MISM_COUNT 0).setReg (ENG_TNG_SVRETRY e) 0).reply respOk [])

end Sys2Proof.Machine
end

