-- ==== Sys2Proof/Machine/Numerics.lean ====
section
/-! DEFINITION. The numerics of 04: IEEE 754 formats, integers, Q32.32, packed decimal and complex numbers, on raw element bits. -/
namespace Sys2Proof.Machine

/-! Exception flags of one result, 04 R164. -/
def flNX : Nat := 1
def flUF : Nat := 2
def flOF : Nat := 4
def flDZ : Nat := 8
def flNV : Nat := 16
def flSAT : Nat := 32
def flDOVF : Nat := 64

/-- A value with the flags that computing it raised. -/
abbrev FRes := Nat × Nat

/-- A binary floating-point format: exponent and fraction widths. -/
structure Fmt where
  ew : Nat
  mw : Nat
  deriving DecidableEq, Repr

def f16 : Fmt := ⟨5, 10⟩
def f32 : Fmt := ⟨8, 23⟩
def f64 : Fmt := ⟨11, 52⟩

/-- Width in bits. -/
def Fmt.width (f : Fmt) : Nat := f.ew + f.mw + 1

/-- Exponent bias. -/
def Fmt.bias (f : Fmt) : Nat := 2 ^ (f.ew - 1) - 1

/-- Sign bit of an encoding. -/
def Fmt.signBit (f : Fmt) : Nat := 2 ^ (f.ew + f.mw)

/-- The default NaN, 04 R145. -/
def Fmt.defNaN (f : Fmt) : Nat := (2 ^ f.ew - 1) * 2 ^ f.mw + 2 ^ (f.mw - 1)

/-- Infinity of a sign. -/
def Fmt.inf (f : Fmt) (s : Bool) : Nat := b2n s * f.signBit + (2 ^ f.ew - 1) * 2 ^ f.mw

/-- Largest finite value of a sign. -/
def Fmt.maxFin (f : Fmt) (s : Bool) : Nat := b2n s * f.signBit + (2 ^ f.ew - 1) * 2 ^ f.mw - 1

/-- Zero of a sign. -/
def Fmt.zero (f : Fmt) (s : Bool) : Nat := b2n s * f.signBit

/-- What an encoding stands for: a NaN (signalling or not), an infinity, or `m * 2 ^ e` with a sign. -/
inductive FVal where
  | nan (signalling : Bool)
  | inf (s : Bool)
  | fin (s : Bool) (m : Nat) (e : Int)
  deriving DecidableEq, Repr

/-- Decode an encoding. -/
def Fmt.decode (f : Fmt) (x : Nat) : FVal :=
  let s := bits x (f.ew + f.mw) 1 == 1
  let ex := bits x f.mw f.ew
  let fr := bits x 0 f.mw
  if ex = 2 ^ f.ew - 1 then
    if fr = 0 then .inf s else .nan (bits x (f.mw - 1) 1 == 0)
  else if ex = 0 then .fin s fr (1 - (f.bias : Int) - (f.mw : Int))
  else .fin s (fr + 2 ^ f.mw) ((ex : Int) - (f.bias : Int) - (f.mw : Int))

/-- An encoding is a NaN. -/
def Fmt.isNaN (f : Fmt) (x : Nat) : Bool :=
  match f.decode x with
  | .nan _ => true
  | _ => false

/-- An encoding is a signalling NaN. -/
def Fmt.isSNaN (f : Fmt) (x : Nat) : Bool :=
  match f.decode x with
  | .nan b => b
  | _ => false

/-- A NaN with its quiet bit set. -/
def Fmt.quiet (f : Fmt) (x : Nat) : Nat := setBits x (f.mw - 1) 1 1

/-- Whether rounding increments the magnitude: direction (0 RNE, 1 RTZ, 2 RDN, 3 RUP, 4 RNA), sign, odd, beyond half, tie, inexact. -/
def roundUp (rm : Nat) (s odd gt tie inexact : Bool) : Bool :=
  if rm = 0 then gt || (tie && odd)
  else if rm = 1 then false
  else if rm = 2 then inexact && s
  else if rm = 3 then inexact && !s
  else gt || tie

/-- Round `m * 2 ^ -sh` (with more beyond it when `st`) to an integer: the integer and whether it is inexact. -/
def roundShift (rm : Nat) (s : Bool) (m sh : Nat) (st : Bool) : Nat × Bool :=
  let q := m / 2 ^ sh
  let r := m % 2 ^ sh
  let ix := r != 0 || st
  let gt := decide (2 * r > 2 ^ sh) || (decide (2 * r = 2 ^ sh) && st)
  let tie := decide (2 * r = 2 ^ sh) && !st
  if sh = 0 then (m + b2n (roundUp rm s (m % 2 == 1) false false st), st)
  else (q + b2n (roundUp rm s (q % 2 == 1) gt tie ix), ix)

/-- Overflowing result, 04 R149. -/
def Fmt.overflow (f : Fmt) (rm : Nat) (s : Bool) : Nat :=
  if rm = 1 ∨ (rm = 2 ∧ !s) ∨ (rm = 3 ∧ s) then f.maxFin s else f.inf s

/-- Round a nonzero magnitude `m * 2 ^ e` once, 04 R142, R144 and R149; `st` says that a little more stands beyond it. -/
def Fmt.round (f : Fmt) (rm : Nat) (s : Bool) (m : Nat) (e : Int) (st : Bool) : FRes :=
  let top : Int := e + (Nat.log2 m : Int)
  let emin : Int := 1 - (f.bias : Int)
  let qe : Int := max (top - (f.mw : Int)) (emin - (f.mw : Int))
  let sh := qe - e
  let (q, ix) := if sh ≤ 0 then (m * 2 ^ (-sh).toNat, st) else roundShift rm s m sh.toNat st
  let (q, qe) := if q = 2 ^ (f.mw + 1) then (2 ^ f.mw, qe + 1) else (q, qe)
  let ushift := top - (f.mw : Int) - e
  let uq := if ushift ≤ 0 then m * 2 ^ (-ushift).toNat else (roundShift rm s m ushift.toNat st).1
  let utop : Int := if uq = 2 ^ (f.mw + 1) then top + 1 else top
  let tiny := decide (utop < emin)
  if 2 ^ f.mw ≤ q ∧ qe + (f.mw : Int) > (f.bias : Int) then (f.overflow rm s, flOF + flNX)
  else
    let enc := if q < 2 ^ f.mw then q else (qe + (f.mw : Int) + (f.bias : Int)).toNat * 2 ^ f.mw + (q - 2 ^ f.mw)
    (b2n s * f.signBit + enc, (if ix then flNX else 0) + (if tiny && ix then flUF else 0))

/-- Round an exact signed number `m * 2 ^ e`; an exact zero takes the sign given. -/
def Fmt.roundInt (f : Fmt) (rm : Nat) (m : Int) (e : Int) (zs : Bool) : FRes :=
  if m = 0 then (f.zero zs, 0) else f.round rm (decide (m < 0)) m.natAbs e false

/-- First NaN of a list of operands with its format, quietened, 04 R145; NV when one of them signals. -/
def Fmt.firstNaN (f : Fmt) (xs : List Nat) : Option FRes :=
  match xs.find? fun x => f.isNaN x with
  | some x => some (f.quiet x, if xs.any fun y => f.isSNaN y then flNV else 0)
  | none => none

/-- Signed integer of a sign and a magnitude. -/
def signed (s : Bool) (m : Nat) : Int := if s then -(m : Int) else (m : Int)

/-- Sign of an exact zero sum of two addends, 04 R149. -/
def zeroSign (rm : Nat) (a b : Bool) : Bool := if a = b then a else rm == 2

/-- Exact sum of two scaled integers. -/
def addExact (a : Int) (ea : Int) (b : Int) (eb : Int) : Int × Int :=
  let e := min ea eb
  (a * 2 ^ (ea - e).toNat + b * 2 ^ (eb - e).toNat, e)

/-- Addition. -/
def Fmt.add (f : Fmt) (rm a b : Nat) : FRes :=
  match f.firstNaN [a, b] with
  | some r => r
  | none =>
    match f.decode a, f.decode b with
    | .inf s, .inf t => if s = t then (f.inf s, 0) else (f.defNaN, flNV)
    | .inf s, _ => (f.inf s, 0)
    | _, .inf t => (f.inf t, 0)
    | .fin s m e, .fin t n g =>
      let r := addExact (signed s m) e (signed t n) g
      f.roundInt rm r.1 r.2 (zeroSign rm s t)
    | _, _ => (f.defNaN, flNV)

/-- Sign bit flipped. -/
def Fmt.neg (f : Fmt) (x : Nat) : Nat := x ^^^ f.signBit

/-- Sign bit cleared. -/
def Fmt.abs (f : Fmt) (x : Nat) : Nat := setBits x (f.ew + f.mw) 1 0

/-- Subtraction; a NaN operand is delivered as it stands. -/
def Fmt.sub (f : Fmt) (rm a b : Nat) : FRes :=
  match f.firstNaN [a, b] with
  | some r => r
  | none => f.add rm a (f.neg b)

/-- Multiplication. -/
def Fmt.mul (f : Fmt) (rm a b : Nat) : FRes :=
  match f.firstNaN [a, b] with
  | some r => r
  | none =>
    match f.decode a, f.decode b with
    | .inf s, .inf t => (f.inf (s != t), 0)
    | .inf s, .fin t n _ => if n = 0 then (f.defNaN, flNV) else (f.inf (s != t), 0)
    | .fin s m _, .inf t => if m = 0 then (f.defNaN, flNV) else (f.inf (s != t), 0)
    | .fin s m e, .fin t n g => f.roundInt rm (signed (s != t) (m * n)) (e + g) (s != t)
    | _, _ => (f.defNaN, flNV)

/-- An exact number of a product or an addend: infinite with its sign, or scaled with the sign of a zero. -/
inductive Term where
  | inf (s : Bool)
  | num (s : Bool) (m : Nat) (e : Int)
  | bad
  deriving DecidableEq, Repr

/-- Product of two values as a term; 0 times infinity is `bad`. -/
def prodTerm (a b : FVal) : Term :=
  match a, b with
  | .inf s, .inf t => .inf (s != t)
  | .inf s, .fin t n _ => if n = 0 then .bad else .inf (s != t)
  | .fin s m _, .inf t => if m = 0 then .bad else .inf (s != t)
  | .fin s m e, .fin t n g => .num (s != t) (m * n) (e + g)
  | _, _ => .bad

/-- A value as a term. -/
def valTerm (a : FVal) : Term :=
  match a with
  | .inf s => .inf s
  | .fin s m e => .num s m e
  | .nan _ => .bad

/-- Negate a term. -/
def Term.negIf (b : Bool) (t : Term) : Term :=
  match t with
  | .inf s => .inf (s != b)
  | .num s m e => .num (s != b) m e
  | .bad => .bad

/-- Add two terms exactly. -/
def addTerm (rm : Nat) (a b : Term) : Term :=
  match a, b with
  | .bad, _ => .bad
  | _, .bad => .bad
  | .inf s, .inf t => if s = t then .inf s else .bad
  | .inf s, _ => .inf s
  | _, .inf t => .inf t
  | .num s m e, .num t n g =>
    let r := addExact (signed s m) e (signed t n) g
    if r.1 = 0 then .num (zeroSign rm s t) 0 r.2 else .num (decide (r.1 < 0)) r.1.natAbs r.2

/-- Round a term once. -/
def Fmt.roundTerm (f : Fmt) (rm : Nat) (t : Term) : FRes :=
  match t with
  | .bad => (f.defNaN, flNV)
  | .inf s => (f.inf s, 0)
  | .num s m e => if m = 0 then (f.zero s, 0) else f.round rm s m e false

/-- Fused multiply-add (±a × b) ± c, 04 R138 and R146. -/
def Fmt.fma (f : Fmt) (rm : Nat) (negp negc : Bool) (a b c : Nat) : FRes :=
  let p := (prodTerm (f.decode a) (f.decode b)).negIf negp
  match f.firstNaN [a, b, c] with
  | some r =>
    if p = .bad && !f.isNaN a && !f.isNaN b then (r.1, flNV) else r
  | none => f.roundTerm rm (addTerm rm p ((valTerm (f.decode c)).negIf negc))

/-- Division. -/
def Fmt.div (f : Fmt) (rm a b : Nat) : FRes :=
  match f.firstNaN [a, b] with
  | some r => r
  | none =>
    match f.decode a, f.decode b with
    | .inf _, .inf _ => (f.defNaN, flNV)
    | .inf s, .fin t _ _ => (f.inf (s != t), 0)
    | .fin s _ _, .inf t => (f.zero (s != t), 0)
    | .fin s m e, .fin t n g =>
      if n = 0 then (if m = 0 then (f.defNaN, flNV) else (f.inf (s != t), flDZ))
      else if m = 0 then (f.zero (s != t), 0)
      else
        let k := 2 * f.mw + 6
        let q := m * 2 ^ k / n
        f.round rm (s != t) q (e - g - (k : Int)) (m * 2 ^ k % n != 0)
    | _, _ => (f.defNaN, flNV)

/-- Integer square root by bits: `k` bits from the top. -/
def isqrt (k n r : Nat) : Nat :=
  match k with
  | 0 => r
  | k + 1 =>
    let t := r + 2 ^ k
    if t * t ≤ n then isqrt k n t else isqrt k n r

/-- Square root. -/
def Fmt.sqrt (f : Fmt) (rm a : Nat) : FRes :=
  match f.firstNaN [a] with
  | some r => r
  | none =>
    match f.decode a with
    | .inf s => if s then (f.defNaN, flNV) else (f.inf false, 0)
    | .fin s m e =>
      if m = 0 then (f.zero s, 0)
      else if s then (f.defNaN, flNV)
      else
        let k := f.mw + 4
        let odd := (e % 2).toNat
        let n := m * 2 ^ (2 * k + odd)
        let r := isqrt (Nat.log2 n / 2 + 1) n 0
        f.round rm false r ((e - (odd : Int)) / 2 - (k : Int)) (r * r != n)
    | .nan _ => (f.defNaN, flNV)

/-- Order of two finite or infinite values: -1, 0 or 1. -/
def cmpVal (a b : FVal) : Int :=
  match a, b with
  | .inf s, .inf t => if s = t then 0 else if s then -1 else 1
  | .inf s, _ => if s then -1 else 1
  | _, .inf t => if t then 1 else -1
  | .fin s m e, .fin t n g => (addExact (signed s m) e (-(signed t n)) g).1.sign
  | _, _ => 0

/-- Total position for minimum and maximum: −0 lies below +0, 04 R147. -/
def Fmt.lessMM (f : Fmt) (a b : Nat) : Bool :=
  let c := cmpVal (f.decode a) (f.decode b)
  if c = 0 then bits a (f.ew + f.mw) 1 > bits b (f.ew + f.mw) 1 else decide (c < 0)

/-- Minimum or maximum, 04 R147. -/
def Fmt.minmax (f : Fmt) (mx num : Bool) (a b : Nat) : FRes :=
  let sn := if f.isSNaN a || f.isSNaN b then flNV else 0
  if num && f.isNaN a != f.isNaN b then (if f.isNaN a then b else a, sn)
  else
    match f.firstNaN [a, b] with
    | some r => r
    | none => (if f.lessMM a b != mx then a else b, 0)

/-- COND of a comparison on an order, 04 R132. -/
def condHolds (cond : Nat) (c : Int) : Bool :=
  match cond with
  | 0 => c == 0
  | 1 => c != 0
  | 2 => decide (c < 0)
  | 3 => decide (c ≤ 0)
  | 4 => decide (c > 0)
  | 5 => decide (c ≥ 0)
  | _ => false

/-- Comparison, 04 R148. -/
def Fmt.cmp (f : Fmt) (cond : Nat) (sig : Bool) (a b : Nat) : FRes :=
  if f.isNaN a || f.isNaN b then
    let nv := f.isSNaN a || f.isSNaN b || (sig && decide (2 ≤ cond) && decide (cond ≤ 5))
    (b2n (cond == 1 || cond == 6), if nv then flNV else 0)
  else (b2n (condHolds cond (cmpVal (f.decode a) (f.decode b))), 0)

/-- Conversion between formats, 04 R145 and R163. -/
def Fmt.toFmt (f g : Fmt) (rm a : Nat) : FRes :=
  match f.decode a with
  | .nan sg =>
    let fr := bits a 0 f.mw
    let fr' := if g.mw ≥ f.mw then fr * 2 ^ (g.mw - f.mw) else fr / 2 ^ (f.mw - g.mw)
    (g.quiet (bits a (f.ew + f.mw) 1 * g.signBit + (2 ^ g.ew - 1) * 2 ^ g.mw + fr'), if sg then flNV else 0)
  | .inf s => (g.inf s, 0)
  | .fin s m e => if m = 0 then (g.zero s, 0) else g.round rm s m e false

/-- An integer converted to a format. -/
def Fmt.ofInt (f : Fmt) (rm : Nat) (x : Int) (e : Int) : FRes := f.roundInt rm x e false

/-- Round `m * 2 ^ e` with a sign to an integer: the integer and whether it is inexact. -/
def toIntRound (rm : Nat) (s : Bool) (m : Nat) (e : Int) : Int × Bool :=
  if e ≥ 0 then (signed s (m * 2 ^ e.toNat), false)
  else
    let r := roundShift rm s m (-e).toNat false
    (signed s r.1, r.2)

/-- A value scaled by `2 ^ k` converted to an integer within limits, 04 R163. -/
def Fmt.toIntRes (f : Fmt) (rm : Nat) (k : Int) (lo hi : Int) (w a : Nat) : FRes :=
  match f.decode a with
  | .nan _ => (0, flNV)
  | .inf s => (ofSigned w (if s then lo else hi), flNV)
  | .fin s m e =>
    let r := toIntRound rm s m (e + k)
    if r.1 < lo then (ofSigned w lo, flNV)
    else if r.1 > hi then (ofSigned w hi, flNV)
    else (ofSigned w r.1, if r.2 then flNX else 0)

/-! Integers. -/

/-- Smallest and largest value of a `w`-bit type. -/
def intLo (sg : Bool) (w : Nat) : Int := if sg then -(2 ^ (w - 1)) else 0
def intHi (sg : Bool) (w : Nat) : Int := if sg then 2 ^ (w - 1) - 1 else 2 ^ w - 1

/-- The integer of a `w`-bit element. -/
def intOf (sg : Bool) (w x : Nat) : Int := if sg then toSigned w x else ((x % 2 ^ w : Nat) : Int)

/-- An exact integer result wrapped, or clamped with SAT, 04 R140. -/
def intRes (sg : Bool) (w : Nat) (sat : Bool) (x : Int) : FRes :=
  if sat && decide (x < intLo sg w) then (ofSigned w (intLo sg w), flSAT)
  else if sat && decide (x > intHi sg w) then (ofSigned w (intHi sg w), flSAT)
  else (ofSigned w x, 0)

/-! Packed decimal, 04 R151 to R155. -/

/-- The digit nibbles of a D15 element, least significant first. -/
def d15Digits (x : Nat) : List Nat := (List.range 15).map fun i => bits x (4 + 4 * i) 4

/-- A D15 element is valid, 04 R151. -/
def d15Valid (x : Nat) : Bool :=
  (d15Digits x).all (fun d => d ≤ 9) && (bits x 0 4 == 0xC || bits x 0 4 == 0xD)

/-- Number of a list of decimal digits, least significant first. -/
def ofDigits10 (ds : List Nat) : Nat := ds.foldr (fun d n => d + 10 * n) 0

/-- The value of a valid D15 element. -/
def d15Val (x : Nat) : Int := signed (bits x 0 4 == 0xD) (ofDigits10 (d15Digits x))

/-- Packed digits of a magnitude. -/
def packBcd (n m : Nat) : Nat := (List.range n).foldl (fun x i => x + (m / 10 ^ i % 10) * 16 ^ i) 0

/-- D15 element of an integer, its magnitude modulo 10^15 with its true sign, 04 R153 and R154. -/
def d15Of (v : Int) : Nat :=
  let m := v.natAbs % 10 ^ 15
  (if v < 0 ∧ m ≠ 0 then 0xD else 0xC) + packBcd 15 m * 16

/-- A D15 result: overflow sets DOVF (04 R154); the flag is a trap when DOVTE is 1. -/
def d15Res (v : Int) : FRes := (d15Of v, if v.natAbs ≥ 10 ^ 15 then flDOVF else 0)

/-- Multiplication by 10^k: a nonzero digit shifted out overflows, 04 R154. -/
def d15Shl (k x : Nat) : FRes := d15Res (d15Val x * 10 ^ k)

/-- Division by 10^k toward zero. -/
def d15Shr (k x : Nat) : FRes := (d15Of ((d15Val x).tdiv (10 ^ k)), 0)

/-! Element types, 03 R87. -/

/-- Bytes of an element. -/
def etSize (t : Nat) : Nat :=
  match t with
  | 0 | 4 => 1
  | 1 | 5 | 8 => 2
  | 2 | 6 | 9 => 4
  | _ => 8

/-- Word tag of a type. -/
def etTag (t : Nat) : Nat :=
  match t with
  | 0 | 4 => 0x7
  | 1 | 5 | 8 => 0x6
  | 2 | 6 => 0x5
  | 3 => 0x1
  | 7 => 0x2
  | 9 => 0x4
  | 10 => 0x3
  | 11 => 0x8
  | 12 => 0x9
  | _ => 0xA

def etDefined (t : Nat) : Bool := t ≤ 13
def etSInt (t : Nat) : Bool := t ≤ 3
def etUInt (t : Nat) : Bool := 4 ≤ t && t ≤ 7
def etInt (t : Nat) : Bool := t ≤ 7
def etFp (t : Nat) : Bool := 8 ≤ t && t ≤ 10
def etD15 (t : Nat) : Bool := t == 11
def etQ (t : Nat) : Bool := t == 12
def etC (t : Nat) : Bool := t == 13

/-- Width in bits. -/
def etBits (t : Nat) : Nat := 8 * etSize t

/-- Signedness: integers and Q32.32. -/
def etSigned (t : Nat) : Bool := etSInt t || etQ t

/-- Format of an FP type. -/
def etFmt (t : Nat) : Fmt := if t = 8 then f16 else if t = 9 then f32 else f64

/-! Complex numbers, 04 R150: F32 components, real in the lower half. -/

def cRe (x : Nat) : Nat := x % 2 ^ 32
def cIm (x : Nat) : Nat := x / 2 ^ 32 % 2 ^ 32
def cMk (re im : FRes) : FRes := (re.1 + im.1 * 2 ^ 32, re.2 ||| im.2)

/-- A component of a C32 product: p × q + (or −) r × t, exact and rounded once. -/
def cComp (rm : Nat) (sub : Bool) (p q r t : Nat) : FRes :=
  f32.roundTerm rm (addTerm rm (prodTerm (f32.decode p) (f32.decode q)) ((prodTerm (f32.decode r) (f32.decode t)).negIf sub))

/-- C32 product, 04 R150. -/
def cMul (rm : Nat) (conj : Bool) (a b : Nat) : FRes :=
  match f32.firstNaN [cRe a, cIm a, cRe b, cIm b] with
  | some r => cMk r r
  | none =>
    let bi := if conj then f32.neg (cIm b) else cIm b
    cMk (cComp rm true (cRe a) (cRe b) (cIm a) bi) (cComp rm false (cRe a) bi (cIm a) (cRe b))

/-- C32 sum and difference. -/
def cAdd (rm a b : Nat) : FRes := cMk (f32.add rm (cRe a) (cRe b)) (f32.add rm (cIm a) (cIm b))
def cSub (rm a b : Nat) : FRes := cMk (f32.sub rm (cRe a) (cRe b)) (f32.sub rm (cIm a) (cIm b))

/-- Butterfly outputs top and bottom with their flags, 04 R162. -/
def cBfly (rm : Nat) (dit : Bool) (a b w : Nat) : Nat × Nat × Nat :=
  if dit then
    let v := cMul rm false w b
    let t := cAdd rm a v.1
    let u := cSub rm a v.1
    (t.1, u.1, v.2 ||| t.2 ||| u.2)
  else
    let t := cAdd rm a b
    let d := cSub rm a b
    let u := cMul rm false d.1 w
    (t.1, u.1, t.2 ||| d.2 ||| u.2)

/-! Elementwise operations, 04 R136 to R141. Pipes: 0 ADD, 1 MUL, 2 FMA, 3 XFM. -/

/-- Effective rounding direction of a MOD.RM field, 04 R132 and R142: 0 takes VFCSR.RM. -/
def effRm (f v : Nat) : Nat := if f = 0 then v else f - 1

/-- Order of two elements of an integer, Q32.32 or D15 type. -/
def numCmp (t a b : Nat) : Int :=
  if etD15 t then (d15Val a - d15Val b).sign else (intOf (etSigned t) (etBits t) a - intOf (etSigned t) (etBits t) b).sign

/-- The ADD pipe, 04 R136: MOD and VFCSR.RM, the type of A, the operands. -/
def addPipe (opc md vrm t a b c : Nat) : FRes :=
  let rm := effRm (md % 8) vrm
  let w := etBits t
  let sg := etSigned t
  let sat := bits md 3 1 == 1
  let ia := intOf sg w a
  let ib := intOf sg w b
  let f := etFmt t
  match opc with
  | 0x00 => if etFp t then f.add rm a b else if etC t then cAdd rm a b else if etD15 t then d15Res (d15Val a + d15Val b)
      else intRes sg w sat (ia + ib)
  | 0x01 => if etFp t then f.sub rm a b else if etC t then cSub rm a b else if etD15 t then d15Res (d15Val a - d15Val b)
      else intRes sg w sat (ia - ib)
  | 0x02 => if etFp t then (f.neg a, 0) else if etC t then (a ^^^ (2 ^ 31 + 2 ^ 63), 0)
      else if etD15 t then d15Res (-(d15Val a)) else intRes sg w sat (-ia)
  | 0x03 => if etFp t then (f.abs a, 0) else if etD15 t then d15Res ((d15Val a).natAbs : Int)
      else intRes sg w sat (ia.natAbs : Int)
  | 0x04 => if etFp t then f.minmax false (bits md 3 1 == 1) a b
      else if etD15 t then (d15Of (min (d15Val a) (d15Val b)), 0) else (if ia ≤ ib then a else b, 0)
  | 0x05 => if etFp t then f.minmax true (bits md 3 1 == 1) a b
      else if etD15 t then (d15Of (max (d15Val a) (d15Val b)), 0) else (if ia ≥ ib then a else b, 0)
  | 0x06 =>
      if etFp t then f.cmp (md % 8) (bits md 3 1 == 1) a b
      else if etC t then
        let r := f32.cmp 0 false (cRe a) (cRe b)
        let i := f32.cmp 0 false (cIm a) (cIm b)
        (b2n ((r.1 == 1 && i.1 == 1) != (md % 8 == 1)), r.2 ||| i.2)
      else (b2n (condHolds (md % 8) (numCmp t a b)), 0)
  | 0x07 => (if c ≠ 0 then a else b, 0)
  | 0x08 => (a &&& b, 0)
  | 0x09 => (a ||| b, 0)
  | 0x0A => (a ^^^ b, 0)
  | 0x0B => (a &&& (2 ^ w - 1 - b % 2 ^ w), 0)
  | 0x0C => (if b ≥ w then 0 else (a * 2 ^ b) % 2 ^ w, 0)
  | 0x0D => (if sg then ofSigned w (ia / 2 ^ (min b w)) else if b ≥ w then 0 else a / 2 ^ b, 0)
  | 0x10 => (d15Of (d15Val a), 0)
  | 0x11 => d15Shl (md % 16) a
  | 0x12 => d15Shr (md % 16) a
  | _ => (0, 0)

/-- Type of twice the width and the same class, 04 R156. -/
def etWide (t : Nat) : Nat := if t = 8 then 9 else if t = 9 then 10 else t + 1

/-- The elementwise part of the MUL pipe, 04 R137. -/
def mulPipe (opc md vrm t a b : Nat) : FRes :=
  let rm := effRm (md % 8) vrm
  let w := etBits t
  let sg := etSigned t
  let ia := intOf sg w a
  let ib := intOf sg w b
  match opc with
  | 0x00 => if etFp t then (etFmt t).mul rm a b else if etC t then cMul rm (bits md 4 1 == 1) a b
      else if etQ t then
        let p := ia * ib
        let r := roundShift rm (decide (p < 0)) p.natAbs 32 false
        intRes true 64 true (signed (decide (p < 0)) r.1)
      else (ofSigned w (ia * ib), 0)
  | 0x01 => (ofSigned w (ia * ib / 2 ^ w), 0)
  | 0x02 =>
      if etFp t then
        let g := etFmt (etWide t)
        let x := (etFmt t).toFmt g 0 a
        let y := (etFmt t).toFmt g 0 b
        let r := g.mul 0 x.1 y.1
        (r.1, r.2 ||| x.2 ||| y.2)
      else (ofSigned (2 * w) (ia * ib), 0)
  | _ => (0, 0)

/-- The FMA pipe, 04 R138. -/
def fmaPipe (opc md vrm t a b c : Nat) : FRes :=
  let rm := effRm (md % 8) vrm
  let w := etBits t
  let sg := etSigned t
  match opc with
  | 0x00 =>
      if etFp t then (etFmt t).fma rm (bits md 4 1 == 1) (bits md 5 1 == 1) a b c
      else intRes sg w (bits md 3 1 == 1) (intOf sg w a * intOf sg w b + intOf sg w c)
  | 0x01 => (etFmt t).div rm a b
  | 0x02 => (etFmt t).sqrt rm a
  | _ => (0, 0)

/-- Whether VCVT accepts a pair of types, 04 R163. -/
def cvtOk (t d : Nat) : Bool :=
  (etInt t && etInt d && t != d) || (etInt t && etFp d) || (etFp t && etFp d && t != d) || (etFp t && etInt d) ||
    (t == 12 && d == 10) || (t == 10 && d == 12) || (t == 12 && d == 3) || (t == 3 && d == 12) ||
    (t == 11 && d == 3) || (t == 3 && d == 11)

/-- VCVT, 04 R163. -/
def cvt (md vrm t d a : Nat) : FRes :=
  let rm := effRm (md % 8) vrm
  let sat := bits md 3 1 == 1
  let v := intOf (etSigned t) (etBits t) a
  if etInt t && etInt d then intRes (etSInt d) (etBits d) sat v
  else if etInt t && etFp d then (etFmt d).ofInt rm v 0
  else if etFp t && etFp d then (etFmt t).toFmt (etFmt d) rm a
  else if etFp t && etInt d then (etFmt t).toIntRes rm 0 (intLo (etSInt d) (etBits d)) (intHi (etSInt d) (etBits d)) (etBits d) a
  else if t = 12 ∧ d = 10 then f64.ofInt rm v (-32)
  else if t = 10 ∧ d = 12 then
    let r := f64.toIntRes rm 32 (intLo true 64) (intHi true 64) 64 a
    (r.1, r.2 &&& flNV)
  else if t = 12 ∧ d = 3 then
    let r := roundShift rm (decide (v < 0)) v.natAbs 32 false
    (ofSigned 64 (signed (decide (v < 0)) r.1), 0)
  else if t = 3 ∧ d = 12 then intRes true 64 sat (v * 2 ^ 32)
  else if t = 11 then (ofSigned 64 (d15Val a), 0)
  else d15Res v

/-- One elementwise operation: pipe, OPC, MOD, VFCSR.RM, types of A and D, operands. -/
def pipeElem (pipe opc md vrm t d a b c : Nat) : FRes :=
  match pipe with
  | 0 => addPipe opc md vrm t a b c
  | 1 => mulPipe opc md vrm t a b
  | 2 => fmaPipe opc md vrm t a b c
  | _ => cvt md vrm t d a

/-- XCAUSE of the highest-ranking exception of an element that a trap enables, 04 R165: NV 1, DZ 2, OF 3, UF 4, NX 5; 7 a decimal overflow under DOVTE; 0 none. -/
def trapCause (fl vf : Nat) : Nat :=
  let en := fl &&& bits vf 11 5
  if bits en 4 1 = 1 then 1 else if bits en 3 1 = 1 then 2 else if bits en 2 1 = 1 then 3
  else if bits en 1 1 = 1 then 4 else if bits en 0 1 = 1 then 5
  else if bits fl 6 1 = 1 ∧ bits vf 16 1 = 1 then 7 else 0

end Sys2Proof.Machine
end

