-- ==== Sys2Proof/Machine/VecOps.lean ====
section
/-! DEFINITION. What an operation of a pipe accepts: element types, modifiers, streams and group sizes (04 R131 to R139). -/
namespace Sys2Proof.Machine

/-! Operation codes that the rules name. -/
def isDot (p o : Nat) : Bool := p == 1 && o == 3
def isMulw (p o : Nat) : Bool := p == 1 && o == 2
def isRed (p o : Nat) : Bool := p == 3 && o ≤ 2
def isScan (p o : Nat) : Bool := p == 3 && o == 4
def isZip (p o : Nat) : Bool := p == 3 && o == 8
def isUnzip (p o : Nat) : Bool := p == 3 && o == 9
def isBfly (p o : Nat) : Bool := p == 3 && o == 0x0C
def isCvt (p o : Nat) : Bool := p == 3 && o == 0x10
def isCmp (p o : Nat) : Bool := p == 0 && o == 6
def isSel (p o : Nat) : Bool := p == 0 && o == 7

/-- Operations that the catalogue lists, 04 R136 to R139. -/
def opListed (p o : Nat) : Bool :=
  match p with
  | 0 => o ≤ 0x0D || (0x10 ≤ o && o ≤ 0x12)
  | 1 => o ≤ 3
  | 2 => o ≤ 2
  | _ => o ≤ 2 || o == 4 || o == 8 || o == 9 || o == 0x0C || o == 0x10

/-- Element types of A that an operation accepts, 04 R136 to R139. -/
def opTypes (p o t : Nat) : Bool :=
  etDefined t &&
  match p with
  | 0 =>
    if o ≤ 1 ∨ o = 7 then true
    else if o = 2 then !etUInt t
    else if o = 3 then !etUInt t && !etC t
    else if o ≤ 5 then !etC t
    else if o = 6 then true
    else if o ≤ 0x0D then etInt t
    else etD15 t
  | 1 =>
    if o = 0 then !etD15 t
    else if o = 1 then etInt t
    else if o = 2 then t ≤ 2 || (4 ≤ t && t ≤ 6) || t == 8 || t == 9
    else t == 0 || t == 1 || t == 4 || t == 5 || t == 8
  | 2 => if o = 0 then etFp t || etInt t else etFp t
  | _ =>
    if o = 0 ∨ o = 4 then true
    else if o ≤ 2 then !etC t
    else if o = 0x0C then etC t
    else true

/-- Number of sources read: A, B, C. -/
def opArity (p o : Nat) : Nat :=
  if isSel p o ∨ (p = 2 ∧ o = 0) ∨ isBfly p o then 3
  else if (p = 0 ∧ (o = 2 ∨ o = 3 ∨ o ≥ 0x10)) ∨ (p = 2 ∧ o = 2) ∨ (p = 3 ∧ !isZip p o) then 1
  else 2

/-- Accumulator type of VDOT for a pair of source types, 04 R157. -/
def dotType (a b : Nat) : Option Nat :=
  let n8 (t : Nat) := t == 0 || t == 4
  let n16 (t : Nat) := t == 1 || t == 5
  if n8 a && n8 b then some (if a = 4 ∧ b = 4 then 6 else 2)
  else if n16 a && n16 b then some (if a = 5 ∧ b = 5 then 7 else 3)
  else if a = 8 ∧ b = 8 then some 9
  else none

/-- VZIP of F32 pairs to C32, and VUNZIP of C32 to F32: the pairing forms, 04 R161. -/
def isPairing (p o t d : Nat) : Bool := (isZip p o && t == 9 && d == 13) || (isUnzip p o && t == 13 && d == 9)

/-- Whether the types of the streams fit the operation, 04 R131, R133, R156, R157 and R163. `b` and `c` are the types of B (or of the scalar) and C. -/
def typesOk (p o a b c d : Nat) (useC : Bool) : Bool :=
  opTypes p o a && etDefined d &&
  if isCvt p o then cvtOk a d
  else if isDot p o then
    match dotType a b with
    | some x => d == x && (!useC || c == x)
    | none => false
  else if isMulw p o then d == etWide a && b == a
  else if isCmp p o then d == 4 && b == a
  else if isSel p o then d == a && b == a && c == 4
  else if isPairing p o a d then (if isZip p o then b == 9 else true)
  else d == a && (opArity p o < 2 || b == a) && (opArity p o < 3 || c == a)

/-- Whether MOD is valid for the operation on type `t` of A and `d` of D, 04 R132; VDOT on F16 has no RM field (04 R143). -/
def modOk (p o t d md : Nat) (pairing : Bool) : Bool :=
  let lo := md % 8
  let b3 := bits md 3 1
  let b4 := bits md 4 1
  let b5 := bits md 5 1
  let seg := md % 32
  if isRed p o then (seg ≤ 24 || seg == 31) && (b5 == 0 || (o == 0 && (etInt t || etQ t)))
  else if isScan p o then seg ≤ 24 || seg == 31
  else if isZip p o then seg ≤ 23 && b5 == 0 && (!pairing || seg == 0)
  else if isUnzip p o then seg ≤ 23 && (!pairing || seg == 0)
  else if isBfly p o then seg ≤ 23
  else if isCmp p o then
    b4 == 0 && b5 == 0 && (b3 == 0 || etFp t) && (if etFp t then lo ≤ 6 else if etC t then lo ≤ 1 else lo ≤ 5)
  else if p = 0 ∧ (o = 0x11 ∨ o = 0x12) then b4 == 0 && b5 == 0
  else if isCvt p o then lo ≤ 5 && (b3 == 0 || etInt d || etQ d) && b4 == 0 && b5 == 0
  else if (p = 0 ∧ 7 ≤ o) ∨ etD15 t ∨ (isDot p o ∧ t = 8) then md == 0
  else if etFp t ∨ etC t ∨ (p = 1 ∧ o = 0 ∧ etQ t) then
    lo ≤ 5 && (b3 == 0 || (p == 0 && (o == 4 || o == 5) && etFp t)) &&
      (b4 == 0 || (p == 2 && o == 0) || (p == 1 && o == 0 && etC t)) && (b5 == 0 || (p == 2 && o == 0))
  else
    lo == 0 && b4 == 0 && b5 == 0 &&
      (b3 == 0 || (p == 0 && o ≤ 3) || (p == 2 && o == 0) || isDot p o)

/-- SEG is WHOLE. -/
def segWhole (md : Nat) : Bool := md % 32 == 31

/-- Group size, 04 R134. -/
def opGroup (p o md t : Nat) (pairing : Bool) : Nat :=
  if isDot p o then (if t = 8 then 2 else 4)
  else if (isRed p o || isScan p o) && !segWhole md then 2 ^ (md % 32)
  else if isZip p o then (if pairing then 1 else 2 ^ (md % 32))
  else if isUnzip p o then (if pairing then 1 else 2 ^ (md % 32 + 1))
  else if isBfly p o then 2 ^ (md % 32)
  else 1

/-- Elements that `n` steps take of stream B, C or give to D (0 A, 1 B, 2 C, 3 D), 03 R95 with the ratios of 04 R137, R139 and R157. -/
def streamCount (p o md t : Nat) (pairing : Bool) (st n : Nat) : Nat :=
  if isDot p o then (if st ≤ 1 then n else n / (if t = 8 then 2 else 4))
  else if isRed p o then (if st = 3 then (if segWhole md then 1 else n / 2 ^ (md % 32)) else n)
  else if isZip p o && !pairing then (if st = 3 then 2 * n else n)
  else if isUnzip p o && !pairing then (if st = 3 then n / 2 else n)
  else if isBfly p o then (if st = 2 then n / 2 ^ (md % 32) else if st = 3 then 2 * n else n)
  else n

/-- A source type whose elements are checked as D15, 04 R151. -/
def checksDec (p o t : Nat) : Bool := etD15 t && !isSel p o && !isZip p o && !isUnzip p o

end Sys2Proof.Machine
end

