-- ==== Sys2Proof/Machine/VecBlock.lean ====
section
/-! DEFINITION. What one element block of a long-vector instruction computes from its source elements (04 R156 to R163, 05 R173 to R176). -/
namespace Sys2Proof.Machine

/-! Descriptors, 03 R85 and R86. -/

abbrev Desc := Word × Word

def dAddr (d : Desc) : Nat := bits d.1.toNat 0 48
def dType (d : Desc) : Nat := bits d.1.toNat 48 5
def dRaw (d : Desc) : Bool := bits d.1.toNat 53 1 == 1
def dPfl (d : Desc) : Bool := bits d.1.toNat 54 1 == 1
def dLen (d : Desc) : Nat := bits d.2.toNat 0 24
def dStart (d : Desc) : Nat := bits d.2.toNat 24 24
def dChl (d : Desc) : Nat := bits d.2.toNat 48 2

/-- A reserved field of a descriptor is set, or its ETYPE or CHL is reserved. -/
def dBad (d : Desc) : Bool := bits d.1.toNat 55 9 != 0 || bits d.2.toNat 50 14 != 0 || !etDefined (dType d) || dChl d == 3

/-- The stream lies in memory (MEM or BOTH), and the stream lies on the ring (RING or BOTH). -/
def dMem (d : Desc) : Bool := dChl d != 1
def dRing (d : Desc) : Bool := dChl d != 0

/-- Byte address of element `k` counted from START. -/
def dElem (d : Desc) (k : Nat) : Nat := dAddr d + (dStart d + k) * etSize (dType d)

/-! Views of an instruction. -/

/-- Descriptor of stream `k`: 0 A, 1 B, 2 C, 3 D. -/
def LvEntry.desc (x : LvEntry) (k : Nat) : Option Desc :=
  match k with
  | 0 => x.a
  | 1 => x.b
  | 2 => x.c
  | _ => x.d

/-- The governing stream, 03 R95. -/
def LvEntry.gov (x : LvEntry) : Desc :=
  match x.a with
  | some d => d
  | none => x.d.getD (0, 0)

/-- START of the governing stream. -/
def LvEntry.start (x : LvEntry) : Nat := dStart x.gov

/-- LENGTH of the governing stream. -/
def LvEntry.len (x : LvEntry) : Nat := dLen x.gov

/-- ETYPE of stream `k`, 0 for an absent one. -/
def LvEntry.typ (x : LvEntry) (k : Nat) : Nat := ((x.desc k).map dType).getD 0

/-- The operations as a chain: an OP form is a chain of one step, a MOVE form of none. -/
def LvEntry.steps (x : LvEntry) : List ChainStep :=
  match x.form with
  | .op o =>
    [{ op := o, rtype := x.typ 3, sely := if x.scalar.isSome then 3 else if x.b.isSome then 1 else 0,
       selz := if x.c.isSome then 2 else 0, scalar := x.scalar.getD 0 }]
  | .chain l => l
  | .copy => []
  | .fill => []

/-- Type of X at step `j`: of A, or the result of the step before. -/
def LvEntry.xtype (x : LvEntry) (j : Nat) : Nat := if j = 0 then x.typ 0 else ((x.steps[j - 1]?).map (·.rtype)).getD 0

/-- The pairing form of a step on type `t`. -/
def stepPairing (c : ChainStep) (t : Nat) : Bool := isPairing c.op.pipe c.op.opc t c.rtype

/-- The last step with the type of its X. -/
def LvEntry.last (x : LvEntry) : Option (ChainStep × Nat) :=
  x.steps.getLast?.map fun c => (c, x.xtype (x.steps.length - 1))

/-- The role of stream `k` at the last step (1 or 2), or 0 where an earlier step also selects it or the last does not, 05 R174. -/
def LvEntry.role (x : LvEntry) (k : Nat) : Nat :=
  if x.steps.dropLast.any fun c => c.sely == k || c.selz == k then 0
  else
    match x.last with
    | some (c, _) => if c.sely = k then 1 else if c.selz = k then 2 else 0
    | none => 0

/-- Elements of stream `k` for `n` governing steps, 03 R95. -/
def LvEntry.need (x : LvEntry) (k n : Nat) : Nat :=
  match x.last with
  | none => n
  | some (c, t) =>
    let f (st : Nat) := streamCount c.op.pipe c.op.opc c.op.md t (stepPairing c t) st n
    if k = 0 then n else if k = 3 then f 3 else if x.role k = 0 then n else f (x.role k)

/-- The ratio of stream `k` is 1. -/
def LvEntry.unit (x : LvEntry) (k : Nat) : Bool := x.need k (2 ^ 24) == 2 ^ 24

/-- Index, counted from START, of the element of stream `k` that governing step `n` (counted from START) uses. -/
def LvEntry.index (x : LvEntry) (k n : Nat) : Nat :=
  match x.last with
  | some (c, t) =>
    if x.role k = 2 then
      if isDot c.op.pipe c.op.opc then n / opGroup c.op.pipe c.op.opc c.op.md t false
      else if isBfly c.op.pipe c.op.opc then n / 2 ^ (c.op.md % 32)
      else n
    else n
  | none => n

/-- Stream `k` is checked as D15, 04 R151. -/
def LvEntry.decCheck (x : LvEntry) (k : Nat) : Bool :=
  x.typ k == 11 && (x.steps.zipIdx.any fun p =>
    checksDec p.1.op.pipe p.1.op.opc 11 && ((k == 0 && p.2 == 0) || (k != 0 && (p.1.sely == k || p.1.selz == k))))

/-! Results of a block. -/

/-- One destination element: position counted from START of D, value, and the governing element it belongs to. -/
structure LvOut where
  dpos : Nat
  val : Nat
  elem : Nat
  deriving DecidableEq, Repr

/-- Flags that one operation raised: governing element, destination position, step, flags. -/
structure LvFlag where
  elem : Nat
  dpos : Nat
  step : Nat
  flags : Nat
  deriving DecidableEq, Repr

/-- What a stage of the computation gives: outputs, flags, and the carry at the end of the block. -/
structure LvStage where
  outs : List LvOut
  flags : List LvFlag
  carry : List Nat
  deriving DecidableEq, Repr

/-- A flag event, if there is one. -/
def flagAt (elem dpos step fl : Nat) : List LvFlag := if fl = 0 then [] else [⟨elem, dpos, step, fl⟩]

/-- Where a segmented operation stands: its segment length (none for WHOLE), START and LENGTH. -/
structure Seg where
  len : Option Nat
  start : Nat
  stop : Nat

/-- First element of the segment of element `i`. -/
def Seg.base (g : Seg) (i : Nat) : Nat := match g.len with | some l => i / l * l | none => g.start

/-- Element `i` ends its segment. -/
def Seg.ends (g : Seg) (i : Nat) : Bool := i + 1 == g.stop || (match g.len with | some l => (i + 1) % l == 0 | none => false)

/-- Position of the segment of element `i` in D. -/
def Seg.pos (g : Seg) (i : Nat) : Nat := match g.len with | some l => i / l - g.start / l | none => 0

/-- Combine neighbouring lanes; one without elements passes its partner through, 04 R159. -/
def pairUp (f : Nat → Nat → FRes) : List (Option Nat) → List (Option Nat) × Nat
  | some a :: some b :: r => let q := pairUp f r; let z := f a b; (some z.1 :: q.1, z.2 ||| q.2)
  | some a :: none :: r => let q := pairUp f r; (some a :: q.1, q.2)
  | none :: b :: r => let q := pairUp f r; (b :: q.1, q.2)
  | l => (l, 0)

/-- The pairwise tree over at most 64 lanes. -/
def laneTree (f : Nat → Nat → FRes) (l : List (Option Nat)) : FRes :=
  let r := (List.range 6).foldl (fun (p : List (Option Nat) × Nat) _ =>
    if p.1.length ≤ 1 then p else let q := pairUp f p.1; (q.1, q.2 ||| p.2)) (l, 0)
  (((r.1.head?).getD none).getD 0, r.2)

/-- A lane as carried: 0 without an element, else its value plus 1. -/
def laneOf (n : Nat) : Option Nat := if n = 0 then none else some (n - 1)

/-- Sums that are exact before their final wrap, clamp or test: integers, Q32.32 and D15, 04 R159. -/
def exactSum (t : Nat) : Bool := etInt t || etQ t || etD15 t

/-- The number of an element of an exact type. -/
def exactVal (t x : Nat) : Int := if etD15 t then d15Val x else intOf (etSigned t) (etBits t) x

/-- An exact sum as carried, in 128 bits. -/
def exactCarry (x : Int) : List Nat := [ofSigned 128 x]

/-- The exact sum carried. -/
def exactOf (l : List Nat) : Int := match l with | x :: _ => toSigned 128 x | [] => 0

/-- A NaN of an element delivered as an operation delivers it: quietened, and NV when it signals, 04 R145. -/
def quieten (t x : Nat) : FRes :=
  if etC t then
    let re := (f32.firstNaN [cRe x]).getD (cRe x, 0)
    let im := (f32.firstNaN [cIm x]).getD (cIm x, 0)
    (re.1 + im.1 * 2 ^ 32, re.2 ||| im.2)
  else if t = 8 then (f16.firstNaN [x]).getD (x, 0)
  else if t = 9 then (f32.firstNaN [x]).getD (x, 0)
  else if t = 10 then (f64.firstNaN [x]).getD (x, 0)
  else (x, 0)

/-- One step of a reduction, 04 R158 and R159: `o` is 0 VRSUM, 1 VRMIN, 2 VRMAX. A D15 result of zero magnitude carries 0xC (R153). -/
def redStep (o md vrm t step : Nat) (g : Seg) (z : LvStage) (i x : Nat) : LvStage :=
  if o = 0 ∧ exactSum t then
    let sum := exactOf z.carry + exactVal t x
    if g.ends i then
      let r := if etD15 t then d15Res sum else intRes (etSigned t) (etBits t) (bits md 5 1 == 1) sum
      ⟨z.outs ++ [⟨g.pos i, r.1, i⟩], z.flags ++ flagAt i (g.pos i) step r.2, []⟩
    else { z with carry := exactCarry sum }
  else
    let w := 64 / etSize t
    let w := match g.len with | some l => min w l | none => w
    let f (a b : Nat) : FRes := pipeElem 0 (if o = 0 then 0 else o + 3) 0 vrm t t a b 0
    let lanes := if z.carry = [] then List.replicate w 0 else z.carry
    let k := (i - g.base i) % w
    let r := match laneOf (lanes.getD k 0) with
      | none => (x, 0)
      | some a => f a x
    let lanes := lanes.set k (r.1 + 1)
    if g.ends i then
      let q := laneTree f (lanes.map laneOf)
      let v := quieten t q.1
      ⟨z.outs ++ [⟨g.pos i, if etD15 t then d15Of (d15Val v.1) else v.1, i⟩], z.flags ++ flagAt i (g.pos i) step (r.2 ||| q.2 ||| v.2), []⟩
    else { z with flags := z.flags ++ flagAt i (g.pos i) step r.2, carry := lanes }

/-- One step of VSCAN, 04 R160. -/
def scanStep (md vrm t step : Nat) (g : Seg) (z : LvStage) (i x : Nat) : LvStage :=
  let excl := bits md 5 1 == 1
  if exactSum t then
    let sum := exactOf z.carry + exactVal t x
    let v := if excl then exactOf z.carry else sum
    let r : FRes := if etD15 t then d15Res v else (ofSigned (etBits t) v, 0)
    ⟨z.outs ++ [⟨i - g.start, r.1, i⟩], z.flags ++ flagAt i (i - g.start) step r.2, if g.ends i then [] else exactCarry sum⟩
  else
    let r : FRes := match z.carry with
      | [] => if excl && g.ends i then (x, 0) else quieten t x
      | a :: _ => if excl && g.ends i then (a, 0) else pipeElem 0 0 0 vrm t t a x 0
    let v := if excl then (match z.carry with | [] => 0 | a :: _ => a) else r.1
    ⟨z.outs ++ [⟨i - g.start, v, i⟩], z.flags ++ flagAt i (i - g.start) step r.2, if g.ends i then [] else [r.1]⟩

/-- One VDOT group, 04 R157: sources, the accumulator element, types of A, B and D. -/
def dotGroup (md vrm ta tb td : Nat) (as bs : List Nat) (c : Nat) : FRes :=
  if ta = 8 then
    let ps := (as.zip bs).map fun p => prodTerm (f16.decode p.1) (f16.decode p.2)
    let nan := match f16.firstNaN as with
      | some r => some (f16.toFmt f32 0 r.1 |>.1)
      | none => match f16.firstNaN bs with
        | some r => some (f16.toFmt f32 0 r.1 |>.1)
        | none => (f32.firstNaN [c]).map (·.1)
    let nv := (as ++ bs).any (fun x => f16.isSNaN x) || f32.isSNaN c || ps.any (fun p => p == Term.bad && nan.isNone)
    match nan with
    | some v => (v, if nv then flNV else 0)
    | none =>
      f32.roundTerm (effRm 0 vrm) (ps.foldl (fun z p => addTerm (effRm 0 vrm) z p) (valTerm (f32.decode c)))
  else
    let v (t x : Nat) : Int := intOf (etSInt t) (etBits t) x
    intRes (etSInt td) (etBits td) (bits md 3 1 == 1)
      (v td c + ((as.zip bs).map fun p => v ta p.1 * v tb p.2).sum)

/-- Position in D of the results that governing step `n` (counted from START) of the last operation belongs to, 04 R157, R158 and R161. -/
def LvEntry.dposOf (x : LvEntry) (n : Nat) : Nat :=
  match x.last with
  | none => n
  | some (c, t) =>
    let p := c.op.pipe
    let o := c.op.opc
    let ch := 2 ^ (c.op.md % 32)
    if isRed p o then (if segWhole c.op.md then 0 else (x.start + n) / ch - x.start / ch)
    else if isDot p o then n / opGroup p o c.op.md t false
    else if stepPairing c t then n
    else if isZip p o || isBfly p o then 2 * ch * (n / ch) + n % ch
    else if isUnzip p o then ch * (n / (2 * ch)) + n % ch
    else n

/-- The last stage of a block over the values X of its governing elements: `y` and `w` give operands B and C of a step counted from START. -/
def lastStage (x : LvEntry) (c : ChainStep) (t step : Nat) (xs : List (Nat × Nat)) (y w : Nat → Nat) (carry : List Nat) : LvStage :=
  let p := c.op.pipe
  let o := c.op.opc
  let md := c.op.md
  let vrm := x.vfcsr % 8
  let k (i : Nat) := i - x.start
  let ch := 2 ^ (md % 32)
  let sg : Seg := ⟨if segWhole md then none else some (2 ^ (md % 32)), x.start, x.len⟩
  let z0 : LvStage := ⟨[], [], carry⟩
  let each (f : Nat → Nat → List LvOut × List LvFlag) : LvStage :=
    xs.foldl (fun z q => let r := f q.1 q.2; ⟨z.outs ++ r.1, z.flags ++ r.2, z.carry⟩) z0
  if isRed p o then xs.foldl (fun z q => redStep o md vrm t step sg z q.1 q.2) z0
  else if isScan p o then xs.foldl (fun z q => scanStep md vrm t step sg z q.1 q.2) z0
  else if isDot p o then
    let g := opGroup p o md t false
    each fun i _ =>
      if (k i + 1) % g = 0 then
        let is := (List.range g).map fun j => i + j + 1 - g
        let r := dotGroup md vrm t (if c.sely = 3 then t else x.typ c.sely) c.rtype
          (is.map fun j => ((xs.find? fun q => q.1 == j).map (·.2)).getD 0) (is.map fun j => y (k j))
          (if c.selz = 0 then 0 else w (k i))
        ([⟨k i / g, r.1, i + 1 - g⟩], flagAt (i + 1 - g) (k i / g) step r.2)
      else ([], [])
  else if stepPairing c t then
    each fun i v =>
      (if isZip p o then [⟨k i, v % 2 ^ 32 + (y (k i) % 2 ^ 32) * 2 ^ 32, i⟩]
       else [⟨k i, if bits md 5 1 = 1 then cIm v else cRe v, i⟩], [])
  else if isZip p o then
    each fun i v => ([⟨2 * ch * (k i / ch) + k i % ch, v, i⟩, ⟨2 * ch * (k i / ch) + ch + k i % ch, y (k i), i⟩], [])
  else if isUnzip p o then
    each fun i v =>
      (if k i / ch % 2 = bits md 5 1 then [⟨ch * (k i / (2 * ch)) + k i % ch, v, i⟩] else [], [])
  else if isBfly p o then
    each fun i v =>
      let r := cBfly vrm (bits md 5 1 == 1) v (y (k i)) (w (k i))
      let d := 2 * ch * (k i / ch) + k i % ch
      ([⟨d, r.1, i⟩, ⟨d + ch, r.2.1, i⟩], flagAt i d step r.2.2)
  else
    each fun i v =>
      let r := pipeElem p o md vrm t c.rtype v (y (k i)) (w (k i))
      ([⟨k i, r.1, i⟩], flagAt i (k i) step r.2)

/-- Value of operand `sel` of a step for element `k` from START: `src st n` gives element `n` of stream `st`. -/
def LvEntry.operand (x : LvEntry) (src : Nat → Nat → Nat) (c : ChainStep) (sel k : Nat) : Nat :=
  if sel = 3 then c.scalar else if sel = 0 then 0 else src sel (x.index sel k)

/-- The whole block over governing elements `is`, 05 R173: each step takes the result of the one before. -/
def LvEntry.compute (x : LvEntry) (src : Nat → Nat → Nat) (is : List Nat) (carry : List Nat) : LvStage :=
  let k (i : Nat) := i - x.start
  let xs0 : List (Nat × Nat) := is.map fun i =>
    (i, match x.form with | .fill => x.scalar.getD 0 | _ => src 0 (k i))
  match x.last with
  | none => ⟨xs0.map fun q => ⟨k q.1, q.2, q.1⟩, [], []⟩
  | some (c, t) =>
    let mid := (x.steps.dropLast.zipIdx).foldl (fun (z : List (Nat × Nat) × List LvFlag) cj =>
      let rs := z.1.map fun q =>
        (q.1, pipeElem cj.1.op.pipe cj.1.op.opc cj.1.op.md (x.vfcsr % 8) (x.xtype cj.2) cj.1.rtype q.2
          (x.operand src cj.1 cj.1.sely (k q.1)) (x.operand src cj.1 cj.1.selz (k q.1)))
      (rs.map fun q => (q.1, q.2.1), z.2 ++ rs.flatMap fun q => flagAt q.1 (k q.1) cj.2 q.2.2)) (xs0, [])
    let z := lastStage x c t (x.steps.length - 1) mid.1 (fun n => x.operand src c c.sely n) (fun n => x.operand src c c.selz n) carry
    { z with flags := mid.2 ++ z.flags }

/-! Types and shapes at issue, 03 R94 and 05 R174. -/

/-- Whether a step accepts the type of X and its operands, and gives its result type. -/
def LvEntry.stepOk (x : LvEntry) (c : ChainStep) (t : Nat) : Bool :=
  let p := c.op.pipe
  let o := c.op.opc
  let tt (sel : Nat) := if sel = 3 then t else x.typ sel
  let n := opArity p o
  opListed p o && typesOk p o t (tt c.sely) (tt c.selz) c.rtype (c.selz != 0) &&
    modOk p o t c.rtype c.op.md (stepPairing c t) && (n ≥ 2) == (c.sely != 0) &&
    (if isDot p o then c.sely != 3 else (n ≥ 3) == (c.selz != 0))

/-- The group size of the instruction, 04 R134. -/
def LvEntry.group (x : LvEntry) : Nat :=
  match x.last with
  | some (c, t) => opGroup c.op.pipe c.op.opc c.op.md t (stepPairing c t)
  | none => 1

end Sys2Proof.Machine
end

