-- ==== Sys2Proof/Machine/Ring.lean ====
section
/-! DEFINITION. Vector queues of a bank and the chain ring: links, credits and freezes (03 R81, 05 R178 to R193). -/
namespace Sys2Proof.Machine
open Reg

/-! The ring, 05 R178. -/

/-- The ring side of engine `e`. -/
def State.ring (s : State) (e : Nat) : Ring := (s.engine e).ring

/-- Change the ring side of an engine. -/
def State.modRing (s : State) (e : Nat) (f : Ring → Ring) : State := s.modEngine e fun x => { x with ring := f x.ring }

/-- The engine downstream of `e` on an enabled link. -/
def State.ringDown (s : State) (e : Nat) : Option Nat :=
  if s.flag (ENG_CHN_CFG e) ENG_CHN_CFG_COUT then
    (s.logicalOf e).bind fun l => s.physOf (l / 12 * 12 + (l % 12 + 1) % 12)
  else none

/-- Put items on the link to the consumer. -/
def State.sendDown (s : State) (e : Nat) (l : List LinkItem) : State :=
  match s.ringDown e with
  | some d => s.modRing d fun r => { r with inLink := r.inLink ++ l }
  | none => s

/-- The vector state of bank `b` of engine `e`. -/
def State.vsu (s : State) (e b : Nat) : BankVsu := sget (fun _ => BankVsu.reset) (s.engine e).vsu b

/-- Change the vector state of a bank. -/
def State.modVsu (s : State) (e b : Nat) (f : BankVsu → BankVsu) : State :=
  s.modEngine e fun x => { x with vsu := sset (fun _ => BankVsu.reset) x.vsu b (f (sget (fun _ => BankVsu.reset) x.vsu b)) }

/-- Entry `q` of a bank. -/
def BankVsu.ent (v : BankVsu) (q : Nat) : Option LvEntry := v.ents.find? fun x => x.qe == q

/-- Change entry `q` of a bank. -/
def State.modEnt (s : State) (e b q : Nat) (f : LvEntry → LvEntry) : State :=
  s.modVsu e b fun v => { v with ents := v.ents.map fun x => if x.qe = q then f x else x }

/-- The stream `k` of an entry uses the ring. -/
def LvEntry.ringSrc (x : LvEntry) : Option Nat := [0, 1, 2].find? fun k => (x.desc k).any dRing
def LvEntry.ringDst (x : LvEntry) : Bool := x.d.any dRing
def LvEntry.ring (x : LvEntry) : Bool := x.ringSrc.isSome || x.ringDst

/-- The engine upstream of `e` on an enabled link. -/
def State.ringUp (s : State) (e : Nat) : Option Nat :=
  if s.flag (ENG_CHN_CFG e) ENG_CHN_CFG_CIN then
    (s.logicalOf e).bind fun l => s.physOf (l / 12 * 12 + (l % 12 + 11) % 12)
  else none

/-- Put an item on the link back to the producer. -/
def State.sendUp (s : State) (e : Nat) (x : UpItem) : State :=
  match s.ringUp e with
  | some u => s.modRing u fun r => { r with upLink := r.upLink ++ [x] }
  | none => s

/-- Return credits to the producer, 05 R184. -/
def State.returnCredit (s : State) (e n : Nat) : State := if n = 0 then s else s.sendUp e (.credit n)

/-- Beats among chain-in items; the rest of a beat that two blocks share counts with its first part. -/
def beatsOf (l : List LinkItem) : Nat := (l.filter fun x => match x with | .beat _ _ false => true | _ => false).length

/-- The first ring instruction of an engine with elements left: its bank and entry. -/
def State.ringEnt (s : State) (e : Nat) : Option (Nat × LvEntry) :=
  (List.range 8).findSome? fun b => ((s.vsu e b).ents.find? fun x => x.ring && decide (x.elem < x.len)).map fun x => (b, x)

/-- First undecided block of an engine's ring instruction. -/
def State.undecided (s : State) (e : Nat) : Nat := match s.ringEnt e with | some (_, x) => x.elem / 64 | none => 0

/-- The chain-in items of the first `n` complete blocks; the rest is discarded. -/
def keepBlocks (n : Nat) (l : List LinkItem) : List LinkItem :=
  match l with
  | [] => []
  | x :: r =>
    match n, x with
    | 0, _ => []
    | k + 1, .endMarker g => .endMarker g :: keepBlocks k r
    | k + 1, y => y :: keepBlocks (k + 1) r

/-- First governing element of the next block to compute: after the last undecided block of the entry, or the first not committed. -/
def State.lvNext (s : State) (e b : Nat) (x : LvEntry) : Nat :=
  (((s.ring e).blocks.filter fun r => r.bank == b && r.qe == x.qe).getLast?.map (·.next)).getD x.elem

/-- A member learns a freeze point, 05 R191: it keeps the smallest, with its own fault if it is the originator, and discards beats and held writes from that block on.
Before its instruction issues, the blocks that a freeze from the producer (`down`) follows lie below the point, and none of those that one from the consumer finds. -/
def State.takeFreeze (s : State) (e : Nat) (i : FreezeInfo) (down : Bool) (own : Option VFault) : State :=
  let old := (s.ring e).freeze
  let use := match old with | some j => decide (i.blk < j.blk) | none => true
  let n := match s.ringEnt e with
    | some (b, x) => i.blk - s.lvNext e b x / 64
    | none => if down then (s.ring e).cin.length else 0
  let cin := keepBlocks n (s.ring e).cin
  let lost := beatsOf (s.ring e).cin - beatsOf cin
  let tail := (((s.ring e).blocks.filter fun r => decide (i.blk ≤ r.blk)).map (·.beats)).sum
  (s.modRing e fun r =>
    { r with freeze := if use then some i else r.freeze, own := if use then own else r.own, cin := cin, synced := false,
             blocks := r.blocks.filter fun r => decide (r.blk < i.blk) }).returnCredit e (lost + tail)

/-- ESCR of a chain freeze, 05 R192. -/
def FreezeInfo.escr (i : FreezeInfo) : Nat := i.eng % 256 + i.pos * 2 ^ 8 + i.cause * 2 ^ 12 + i.reason * 2 ^ 18

/-- Engine `e` originates a freeze at block `k`, 05 R190 and R192: its own cause for reason 0. -/
def State.originate (s : State) (e k cause reason : Nat) (own : Option VFault) : State :=
  let i : FreezeInfo := { blk := k, eng := (s.logicalOf e).getD 0, pos := s.rd (ENG_CHN_CFG e) ENG_CHN_CFG_POS,
                          cause := if reason = 0 then cause else cChainFault, reason := reason }
  let elem := match s.ringEnt e with | some (_, x) => max x.start (64 * k) | none => 64 * k
  let t := s.takeFreeze e i true own
  let t := (t.sendDown e [.freeze i]).sendUp e (.freeze i)
  t.recordCode 0x1C06 sevWarning (unitEngine e) (i.escr % 2 ^ 32) elem (s.rd (ENG_CHN_CFG e) ENG_CHN_CFG_TENANT)

end Sys2Proof.Machine
end

