-- ==== Sys2Proof/Machine/Cluster.lean ====
section
/-! DEFINITION. Redundancy of a cluster: roles, the spare map, retirement, takeover, handover and the turns of a live update (10 R366 to R382, 16 R527 to R529, 17 R549 and R550). -/
namespace Sys2Proof.Machine
open Reg

/-- Role of physical engine `e`, 10 R368. -/
def State.role (s : State) (e : Nat) : Nat := s.rd (ENG_TNG_STAT e) ENG_TNG_STAT_ROLE

/-- Set the role of an engine; only an ACTIVE one runs. -/
def State.setRole (s : State) (e r : Nat) : State :=
  (s.wr (ENG_TNG_STAT e) ENG_TNG_STAT_ROLE r).modEngine e fun x => { x with stopped := r != 0 }

/-- The fit spare of cluster `c`: a spare that is LOADING counts, 16 R527. -/
def State.fitSpare (s : State) (c : Nat) : Option Nat :=
  let p := s.rd (CLU_RED c) CLU_RED_SPAREPOS
  if p < 13 ∧ (s.role (c * 13 + p) = 1 ∨ s.role (c * 13 + p) = 7) then some (c * 13 + p) else none

/-- PHASE of CLU_HOSTAT. -/
def State.hoPhase (s : State) (c : Nat) : Nat := s.rd (CLU_HOSTAT c) CLU_HOSTAT_PHASE

/-- Source and destination engines of CLU_HOSTAT. -/
def State.hoSrc (s : State) (c : Nat) : Nat := c * 13 + s.rd (CLU_HOSTAT c) CLU_HOSTAT_SRC
def State.hoDst (s : State) (c : Nat) : Nat := c * 13 + s.rd (CLU_HOSTAT c) CLU_HOSTAT_DST

/-- Set PHASE; DONE and ABORTED assert source 880 + cluster and are recorded, 10 R386. -/
def State.setHoPhase (s : State) (c p : Nat) : State :=
  let t := s.wr (CLU_HOSTAT c) CLU_HOSTAT_PHASE p
  if p = 6 ∨ p = 7 then (t.assert (880 + c)).recordReg (880 + c) (unitCluster c) (CLU_HOSTAT c) else t

/-- Retirement, takeover or loss of an index, 10 R386: source 864 + cluster and a record. -/
def State.retireEvent (s : State) (c : Nat) : State := (s.assert (864 + c)).recordReg (864 + c) (unitCluster c) (CLU_RED c)

/-- MODE of CLU_RED follows the lost indices and the spare, 10 R369. -/
def State.showRed (s : State) (c : Nat) : State :=
  let mask := ((List.range 12).map fun i => if s.spmap c i = 15 then 2 ^ i else 0).sum
  let n := ((List.range 12).filter fun i => s.spmap c i == 15).length
  let t := (s.wr (CLU_RED c) CLU_RED_LOST n).wr (CLU_RED c) CLU_RED_LOSTMASK mask
  t.wr (CLU_RED c) CLU_RED_MODE (if 0 < n then 2 else if (s.fitSpare c).isSome then 0 else 1)

/-- Active index `i` of cluster `c` is served by position `p`, or lost with 15. -/
def State.setSpmap (s : State) (c i p : Nat) : State := s.wr (CLU_SPMAP c) ⟨4 * i, 4, .ro, i⟩ p

/-- The spare of cluster `c` is at position `p`, 15 for none. -/
def State.setSpare (s : State) (c p : Nat) : State := s.wr (CLU_RED c) CLU_RED_SPAREPOS p

/-- RETCNT counts a retirement, 10 R382. -/
def State.countRetire (s : State) (e : Nat) : State := s.count (ENG_TNG_STAT e) ENG_TNG_STAT_RETCNT 1

/-! The update controller's turns, 17 R549 and R550. -/

/-- UPD_STAT.PHASE changes: source 914 and a record, 17 R559. -/
def State.updPhase (s : State) (p : Nat) : State :=
  if s.rd UPD_STAT UPD_STAT_PHASE = p then s
  else ((s.wr UPD_STAT UPD_STAT_PHASE p).assert 914).recordReg 914 unitUpdate UPD_STAT

/-- A bit of UPD_ERR is set: source 915 and a record. -/
def State.updErr (s : State) (f : Fld) : State := (s.setErr UPD_ERR f 915).recordReg 915 unitUpdate UPD_ERR

/-- The update ends with PHASE STOPPED and a RESULT. -/
def State.updStop (s : State) (r : Nat) : State :=
  (((s.wr UPD_STAT UPD_STAT_MODE 0).wr UPD_STAT UPD_STAT_RESULT r).updPhase 7).updErr UPD_ERR_STOPPED

/-- Cluster `c` is skipped, 16 R527. -/
def State.updSkip (s : State) (c : Nat) : State := (s.wr UPD_STAT ⟨48 + c, 1, .ro, 0⟩ 1).updErr UPD_ERR_SKIP

/-- The spare of cluster `c` becomes LOADING, 17 R549. -/
def State.updLoad (s : State) (c : Nat) : State :=
  match s.fitSpare c with
  | some e => (s.setRole e 7).updPhase 3
  | none => s

/-- The controller's turn comes to cluster `16 - n`; after the last cluster the Steward switches, 17 R549 and R551. -/
def State.updTurn (s : State) (n : Nat) : State :=
  match n with
  | 0 => s.updPhase 5
  | k + 1 =>
    let c := 15 - k
    let t := (s.wr UPD_STAT UPD_STAT_CLUSTER c).wr UPD_STAT UPD_STAT_INDEX 0
    if t.rd (CLU_RED c) CLU_RED_MODE = 0 ∧ t.hoPhase c ≠ 4 then
      ({ t with upd := { t.upd with next := 0, tries := 0, wait := false } } : State).updLoad c
    else (t.updSkip c).updTurn k

/-- The turn of the cluster after `c`. -/
def State.updAfter (s : State) (c : Nat) : State := s.updTurn (15 - c)

/-- The handover of cluster `c`: whether it leaves the engine RETIRED, TIMEOUT, and the mains cycle in which WAITGAP began. -/
def State.handover (s : State) (c : Nat) : Bool × Nat × Nat := sget (fun _ => (false, 0, 0)) s.upd.ho c

/-- WAITGAP begins, 10 R377. -/
def State.waitGap (s : State) (c : Nat) : State :=
  let h := s.handover c
  ({ s with upd := { s.upd with ho := sset (fun _ => (false, 0, 0)) s.upd.ho c (h.1, h.2.1, s.gav.cyc % 2 ^ 32) } } : State).setHoPhase c 2

/-- TIMEOUT mains cycles have passed in WAITGAP, 10 R378; TIMEOUT 0 is unlimited. -/
def State.gapTimedOut (s : State) (c : Nat) : Bool :=
  let h := s.handover c
  h.2.1 != 0 && decide (h.2.1 ≤ (s.gav.cyc + 2 ^ 32 - h.2.2) % 2 ^ 32)

/-- A handover of active index `i` begins with PRECOPY, 10 R377. -/
def State.hoStart (s : State) (c i : Nat) (retire : Bool) (timeout : Nat) : State :=
  match s.fitSpare c with
  | none => s
  | some d =>
    let t := (s.wr (CLU_HOSTAT c) CLU_HOSTAT_SRC (s.spmap c i)).wr (CLU_HOSTAT c) CLU_HOSTAT_DST (posOf d)
    let t := (t.wr (CLU_HOSTAT c) CLU_HOSTAT_DIRTY 0).wr (CLU_HOSTAT c) CLU_HOSTAT_NEED 2704
    let t : State := { t with mem := { t.mem with hoDirty := t.mem.hoDirty.filter fun p => p.1 / 4096 != c },
                              upd := { t.upd with ho := sset (fun _ => (false, 0, 0)) t.upd.ho c (retire, timeout, 0) } }
    t.setHoPhase c 1

/-- A handover runs in some cluster; at most one does in the device, 17 R549. -/
def State.hoRuns (s : State) : Bool := (List.range 16).any fun c => decide (1 ≤ s.hoPhase c) && decide (s.hoPhase c ≤ 3)

/-- The update controller hands over the next index of cluster `c`, or its turn ends there, 17 R549; while a handover runs elsewhere the index waits. -/
def State.updIndex (s : State) (c : Nat) : State :=
  if s.upd.next ≥ 12 then s.updAfter c
  else if s.rd (CLU_RED c) CLU_RED_MODE = 0 ∧ s.hoPhase c ≠ 4 then
    if s.hoRuns then { s with upd := { s.upd with wait := true } }
    else ((s.wr UPD_STAT UPD_STAT_INDEX s.upd.next).updPhase 4).hoStart c s.upd.next false 100
  else (s.updSkip c).updAfter c

/-- A handover has ended: an index of the update controller that waited for that goes on. -/
def State.updGo (s : State) : State :=
  if s.upd.wait ∧ s.flag UPD_STAT UPD_STAT_MODE ∧ s.rd UPD_STAT UPD_STAT_PHASE = 3 then
    ({ s with upd := { s.upd with wait := false } } : State).updIndex (s.rd UPD_STAT UPD_STAT_CLUSTER)
  else s

/-- The controller's handover runs in cluster `c`. -/
def State.updRuns (s : State) (c : Nat) : Bool :=
  s.flag UPD_STAT UPD_STAT_MODE && s.rd UPD_STAT UPD_STAT_CLUSTER == c && s.rd UPD_STAT UPD_STAT_PHASE == 4

/-- A handover in PRECOPY or WAITGAP ends with PHASE ABORTED, 10 R378; the third abandonment of an index ends a live update, 17 R550. -/
def State.hoAbort (s : State) (c : Nat) : State :=
  if s.hoPhase c = 1 ∨ s.hoPhase c = 2 then
    let t := s.setHoPhase c 7
    if t.updRuns c then
      let t := ({ t with upd := { t.upd with tries := t.upd.tries + 1 } } : State).updErr UPD_ERR_ABANDON
      if t.upd.tries ≥ 3 then t.updStop 4 else t
    else t.updGo
  else s

/-- A handover is abandoned; the update controller starts its own again, 17 R550. -/
def State.hoAbandon (s : State) (c : Nat) : State :=
  if s.hoPhase c = 1 ∨ s.hoPhase c = 2 then
    let t := s.hoAbort c
    if t.updRuns c then t.updIndex c else t
  else s

/-- The controller's turn in cluster `c` ends when a retirement has used its spare, 16 R527. -/
def State.updLost (s : State) (c : Nat) : State :=
  if s.flag UPD_STAT UPD_STAT_MODE ∧ s.rd UPD_STAT UPD_STAT_CLUSTER = c ∧
      (s.rd UPD_STAT UPD_STAT_PHASE = 3 ∨ s.rd UPD_STAT UPD_STAT_PHASE = 4) then (s.updSkip c).updAfter c
  else s

/-! Retirement, 10 R367 to R375. -/

/-- Bank `b` of a core. -/
def Core.bank (c : Core) (b : Nat) : Bank := sget Bank.reset c.banks b

/-- Replace a bank. -/
def Core.setBank (c : Core) (b : Nat) (x : Bank) : Core := { c with banks := sset Bank.reset c.banks b x }

/-- The running context stops and the core idles: the context of the slot's bank becomes that bank's resume point (01 R32), and a platform-time context continues later (10 R363). -/
def Core.park (c : Core) (slot : Option Nat) : Core :=
  if c.idle then c
  else if slot = some c.run then { c.setBank c.run { c.bank c.run with rpc := c.pc, rlev := c.lev } with idle := true }
  else { c with plat := some (c.run, c.lev, c.pc), idle := true }

/-- Bank of the slot that engine `e` is in. -/
def State.curBank (s : State) (e : Nat) : Option Nat :=
  (s.engine e).inSlot.map fun n => s.rd (ENG_SLOTA e n) ENG_SLOTA_BANK

/-- Members of the chain of engine `e`, 05 R179, as physical engines. -/
def State.chainMembers (s : State) (e : Nat) : List Nat :=
  match s.logicalOf e with
  | none => []
  | some l =>
    let pos := s.rd (ENG_CHN_CFG e) ENG_CHN_CFG_POS
    if pos = 0 then []
    else (List.range (s.rd (ENG_CHN_CFG e) ENG_CHN_CFG_MEMBERS)).filterMap fun k =>
      s.physOf (l / 12 * 12 + (l % 12 + 12 + k + 1 - pos) % 12)

/-- Every chain that includes a lost index freezes with reason LOST, 05 R198 and 10 R375. -/
def State.loseChain (s : State) (e : Nat) : State :=
  let i : FreezeInfo := { blk := s.undecided e, eng := (s.logicalOf e).getD 0, pos := s.rd (ENG_CHN_CFG e) ENG_CHN_CFG_POS,
                          cause := cChainFault, reason := 5 }
  let ms := s.chainMembers e
  if ms = [] then s
  else
    let t := eachDo ms (fun m t => (t.modRing m fun r => { r with lost := true }).takeFreeze m i false none) s
    t.recordCode 0x1C06 sevWarning (unitEngine e) (i.escr % 2 ^ 32) (64 * i.blk) (s.rd (ENG_CHN_CFG e) ENG_CHN_CFG_TENANT)

/-- The index of engine `e` is lost, 10 R375: a record of critical severity for each tenant resident in its banks. -/
def State.loseIndex (s : State) (e role : Nat) : State :=
  match s.logicalOf e with
  | none => s
  | some l =>
    let c := l / 12
    let ts := ((List.range 6).map fun b => s.bankTenant e b).filter fun t => t != 0
    let t := ((s.loseChain e).setSpmap c (l % 12) 15).setRole e role
    let t := ((t.countRetire e).showRed c).retireEvent c
    eachDo ts (fun n t => t.recordSev (864 + c) sevCritical unitSteward (bits (t.reg (CLU_RED c)).toNat 0 32) 0 n) t

/-- Engine `e` is retired and takes role 2 RETIRED or 3 UNFIT, 10 R367: DETECT and DISCARD, then the takeover's CLOSE, or the index is lost. -/
def State.retireEngine (s : State) (e role : Nat) : State :=
  let c := clusterOf e
  if s.role e = 2 ∨ s.role e = 3 ∨ (s.hoPhase c = 4 ∧ s.hoSrc c = e) then s
  else
    let s := (s.hoAbort c).lkrel c (posOf e)
    let s := (s.wr (ENG_TNG_STAT e) ENG_TNG_STAT_RECOV 0).modEngine e fun x =>
      { x with core := x.ckpt.park (s.curBank e), ckpt := x.ckpt.park (s.curBank e), commit := none, stores := [], stopped := true, lock := none,
               newLv := none, busy := none, fenced := false, retireRole := role, inSlot := none, closePending := false, startPending := none }
    let s := s.wr (ENG_SLOT_STAT e) ENG_SLOT_STAT_PHASE 0
    match s.logicalOf e with
    | none =>
      let t := (s.setRole e role).countRetire e
      let was := t.rd (CLU_RED c) CLU_RED_SPAREPOS = posOf e
      let t := if was then t.setSpare c 15 else t
      let t := (t.showRed c).retireEvent c
      if was then t.updLost c else t
    | some _ =>
      match s.fitSpare c with
      | some d =>
        if s.hoPhase c = 4 then s.loseIndex e role
        else
          ((s.wr (CLU_HOSTAT c) CLU_HOSTAT_SRC (posOf e)).wr (CLU_HOSTAT c) CLU_HOSTAT_DST (posOf d)).setHoPhase c 4
      | none => s.loseIndex e role

/-! What SWAP moves, 10 R372 and R377. -/

/-- Offset in the LVS of engine `e` that storage address `a` serves. -/
def State.lvsOffset (s : State) (e a : Nat) : Option Nat :=
  ((List.range 4096).find? fun r => s.lvsAddr e (r * 256) == a / 256 * 256).map fun r => r * 256 + a % 256

/-- The LVS of `src` is copied by offset to that of `dst`, 06 R243. -/
def State.copyLvs (s : State) (src dst : Nat) : State :=
  let bs := s.mem.bytes.filterMap fun p => (s.lvsOffset src p.1).map fun o => (s.lvsAddr dst o, p.2)
  let ts := s.mem.tags.filterMap fun p => (s.lvsOffset src (8 * p.1)).map fun o => (s.lvsAddr dst o / 8, p.2)
  let m := { s.mem with bytes := s.mem.bytes.filter fun p => (s.lvsOffset dst p.1).isNone,
                        tags := s.mem.tags.filter fun p => (s.lvsOffset dst (8 * p.1)).isNone }
  { s with mem := eachDo ts (fun p m => m.setTag p.1 p.2) (eachDo bs (fun p m => m.setByte p.1 p.2) m) }

/-- Errors that the check of the copy finds in the LVS of `src`: it reads every word that has one, 06 R235. -/
def State.checkLvs (s : State) (src : Nat) : State :=
  eachDo (s.mem.flaws.filterMap fun p => s.lvsOffset src (8 * p.1)) (fun o t => t.lvsCheck src o) s

/-- Words of the LVS of `dst` have new check bits. -/
def State.cleanLvs (s : State) (dst : Nat) : State :=
  { s with mem := { s.mem with flaws := s.mem.flaws.filter fun p => (s.lvsOffset dst (8 * p.1)).isNone } }

/-- An address of the LVS of engine `src` becomes the same offset of that of `dst`. -/
def rehome (src dst a : Nat) : Nat :=
  if 0x800000000000 + src * 0x100000 ≤ a ∧ a < 0x800000000000 + (src + 1) * 0x100000 then a - src * 0x100000 + dst * 0x100000 else a

/-- The line ranges of a tenant's stream follow its active index to the new LVS, and so do its held writes, 05 R197; streams at P and M level name a physical engine (03 R122, log entry 29). -/
def LvEntry.rehome (src dst : Nat) (x : LvEntry) : LvEntry :=
  if x.lev ≤ 1 then
    { x with ranges := x.ranges.map fun r => { r with lo := Machine.rehome src dst (64 * r.lo) / 64, hi := Machine.rehome src dst (64 * r.hi) / 64 } }
  else x

/-- A held block of the ring, whose writes follow the index when its stream runs at S or U level. -/
def RingBlock.rehome (src dst : Nat) (own : Bool) (y : RingBlock) : RingBlock :=
  if own then { y with writes := y.writes.map fun w => { w with pa := Machine.rehome src dst w.pa } } else y

/-- The vector state and the ring of an engine whose index moves. -/
def Engine.rehome (src dst : Nat) (x : Engine) : Engine :=
  let own (y : RingBlock) : Bool := (sget (fun _ => BankVsu.reset) x.vsu y.bank).ents.any fun z => z.qe == y.qe && decide (z.lev ≤ 1)
  { x with
    vsu := x.vsu.map fun p => (p.1, { p.2 with ents := p.2.ents.map (LvEntry.rehome src dst), drain := p.2.drain.map (LvEntry.rehome src dst) }),
    ring := { x.ring with blocks := x.ring.blocks.map fun y => y.rehome src dst (own y) } }

/-- Registers of the engine block that belong to the active index: slot table, slot state, resident tenants and chain configuration. -/
def indexRegs (e : Nat) : List Nat :=
  ((List.range 64).flatMap fun n => [ENG_SLOTA e n, ENG_SLOTB e n]) ++
    [ENG_SLOT_STAT e, ENG_BANK_TENANT e, ENG_BANK_TENANT2 e, ENG_CHN_CFG e]

/-- What stays with a physical engine whose active index goes: its released stores, control stores, recoveries and the FEHVEC that its RWL lock protects until power-on reset (00 R7). -/
def Engine.emptied (x : Engine) : Engine :=
  let c := { Core.reset with fehvec := x.core.fehvec, fehLocked := x.core.fehLocked }
  { Engine.reset with core := c, ckpt := c, out := x.out, outSent := x.outSent, ustore := x.ustore, stopped := true, halted := x.halted, recHist := x.recHist }

/-- The state of the active index moves from engine `src` to engine `dst`, 09 R342 and 10 R372. -/
def State.moveIndex (s : State) (src dst : Nat) : State :=
  let x := s.engine src
  let y := s.engine dst
  let t := eachDo ((indexRegs src).zip (indexRegs dst)) (fun p t => (t.setReg p.2 (t.reg p.1)).setReg p.1 0) s
  let t := t.setEngine dst { x.rehome src dst with out := y.out, outSent := y.outSent, ustore := y.ustore, stopped := false, halted := false, recHist := y.recHist, retireRole := 2 }
  t.setEngine src x.emptied

/-- SWAP of cluster `c`: memory, state and the spare map move, and the source takes role `r`, 10 R372 and R377. -/
def State.swapIndex (s : State) (c r : Nat) : State :=
  let src := s.hoSrc c
  let dst := s.hoDst c
  match s.logicalOf src with
  | none => s
  | some l =>
    let t := (((((s.foxAbandon src).checkLvs src).copyLvs src dst).cleanLvs dst).foxFollow dst).flushCores src
    let t := t.moveIndex src dst
    let t := ((t.setSpmap c (l % 12) (posOf dst)).setRole dst 0).setRole src r
    let t := if r = 1 then t.setSpare c (posOf src) else (t.setSpare c 15).countRetire src
    (t.showRed c).refreshAll

end Sys2Proof.Machine
end

