-- ==== Sys2Proof/Machine/Engine.lean ====
section
/-! DEFINITION. The engine control core: banks and registers, checkpoints and gated stores, exceptions, slots closing (07, 09, 10). -/
namespace Sys2Proof.Machine
open Reg

/-- A synchronous exception about to be taken, 09 R318 and R321; `next` says that EPC is the next instruction. -/
structure Trap where
  cause : Nat
  eaddr : Nat
  escr : Nat
  eprog : Nat
  next : Bool
  deriving DecidableEq, Repr

/-- A trap with EPC at the instruction and no progress record. -/
def trap (cause eaddr escr : Nat) : Trap := ⟨cause, eaddr, escr, 0, false⟩

/-- What an instruction does when it issues: it completes (at a commit point, 10 R352, with `commit`, and waiting for that commit with `settle`), it faults, it waits and nothing changes, it waits with the changes of `wait`, or it completes with its commit made already (`kept`). -/
inductive Res where
  | done (s : State)
  | commit (s : State)
  | settle (s : State)
  | fault (t : Trap) (s : State)
  | stall
  | wait (s : State)
  | kept (s : State)

/-! Banks and registers. -/

/-- The core of engine `e`. -/
def State.core (s : State) (e : Nat) : Core := (s.engine e).core

/-- Change the core of an engine. -/
def State.modCore (s : State) (e : Nat) (f : Core → Core) : State := s.modEngine e fun x => { x with core := f x.core }

/-- Change a bank of an engine. -/
def State.modBank (s : State) (e b : Nat) (f : Bank → Bank) : State := s.modCore e fun c => c.setBank b (f (c.bank b))

/-- The running bank of an engine. -/
def State.runBank (s : State) (e : Nat) : Bank := (s.core e).bank (s.core e).run

/-- Change the running bank. -/
def State.modRun (s : State) (e : Nat) (f : Bank → Bank) : State := s.modBank e (s.core e).run f

/-- Running level: 0 U, 1 S, 2 P, 3 M. -/
def State.lev (s : State) (e : Nat) : Nat := (s.core e).lev

/-- Set one of a bank's nine dirty bits, 09 R334. -/
def Bank.mark (x : Bank) (k : Nat) : Bank := { x with dirty := setBits x.dirty k 1 1 }

/-- What an unlisted G register holds, 07 R247. -/
def emptyG : Nat → TWord := fun _ => ⟨tagEmpty, 0⟩

/-- G register of a bank. -/
def Bank.getG (x : Bank) (r : Nat) : TWord := sget emptyG x.g r

/-- Write a G register of a bank. -/
def Bank.setG (x : Bank) (r : Nat) (v : TWord) : Bank := { x with g := sset emptyG x.g r v }.mark (r / 8)

/-- F register of a bank. -/
def Bank.getF (x : Bank) (r : Nat) : Word := sget (fun _ => 0) x.f r

/-- Write an F register of a bank. -/
def Bank.setF (x : Bank) (r : Nat) (v : Word) : Bank := { x with f := sset (fun _ => 0) x.f r v }.mark (4 + r / 8)

/-- G register of the running bank. -/
def State.g (s : State) (e : Nat) (r : RegNo) : TWord := (s.runBank e).getG r.toNat

/-- Write a G register of the running bank. -/
def State.setG (s : State) (e : Nat) (r : RegNo) (v : TWord) : State := s.modRun e fun x => x.setG r.toNat v

/-- F register of the running bank. -/
def State.f (s : State) (e : Nat) (r : RegNo) : Word := (s.runBank e).getF r.toNat

/-- Write an F register of the running bank. -/
def State.setF (s : State) (e : Nat) (r : RegNo) (v : Word) : State := s.modRun e fun x => x.setF r.toNat v

/-- ASTAT of the running bank. -/
def State.astat (s : State) (e : Nat) : Nat := (s.runBank e).astat.toNat

/-- Write ASTAT. -/
def State.setAstat (s : State) (e v : Nat) : State := s.modRun e fun x => { x with astat := BitVec.ofNat 64 v }.mark 8

/-- VFCSR of the running bank. -/
def State.vfcsr (s : State) (e : Nat) : Nat := (s.runBank e).vfcsr.toNat

/-- Write VFCSR. -/
def State.setVfcsr (s : State) (e v : Nat) : State := s.modRun e fun x => { x with vfcsr := BitVec.ofNat 64 v }.mark 8

/-- OR exception flags (NX 1, UF 2, OF 4, DZ 8, NV 16, SAT 32, DOVF 64) into a VFCSR word, 04 R164. -/
def orFlags (v fl : Nat) : Nat := v ||| (fl % 128) * 16

/-- Set the program counter. -/
def State.setPc (s : State) (e pc : Nat) : State := s.modCore e fun c => { c with pc := pc }

/-- The program counter. -/
def State.pc (s : State) (e : Nat) : Nat := (s.core e).pc

/-! Gated stores and checkpoints, 10 R351 to R354. -/

/-- Storage offset of an address of the escalation stack in the test space of 06 R240. -/
def escOffset (pa : Nat) : Nat := 0x101000 + pa % 0x1000

/-- Whether a physical address lies in the escalation stack, 09 R331. -/
def isEsc (pa : Nat) : Bool := decide (0xEFFFFFFFF000 ≤ pa) && decide (pa < 0xF00000000000)

/-- The bytes of a store by offset within its line. -/
def GStore.lineBytes (g : GStore) : List (Nat × Byte) := (g.bytes.zipIdx).map fun p => (g.pa % 64 + p.2, p.1)

/-- The tags of a store by word within its line. -/
def GStore.lineTags (g : GStore) : List (Nat × Tag) := (g.tags.zipIdx).map fun p => (g.pa % 64 / 8 + p.2, p.1)

/-- The first store that waits for release goes to the data cache or to an LVS, 10 R353 and 11 R395: into a line that the cluster holds in E or M at once,
otherwise through the line's slice, where an open lock holds it back. -/
def State.releaseStore (s : State) (e : Nat) (g : GStore) : State :=
  let cached : State :=
    let l := g.pa / 64
    let c := clusterOf e
    let held := bits (s.dirEntry l).sharers c 1 == 1
    let s := if s.inCore c (posOf e) true l then s
      else if held then s.count (CLU_CC_HIT c) CLU_CC_HIT_COUNT 1
      else s.count (CLU_CC_MISS c) CLU_CC_MISS_COUNT 1
    if (s.dirEntry l).st ≥ 2 ∧ held then
      let r := s.cacheStore c l g.keyid g.lineBytes g.lineTags
      (r.2.fillCore c (posOf e) true l).storeAnswered e r.1
    else
      (s.modEngine e fun x => { x with outSent := true }).arrive
        { mid := c, pos := posOf e, id := 511, key := g.keyid, line := l, op := .store g.lineBytes g.lineTags }
  if isEsc g.pa then
    if g.bank = 7 then (let r := s.lvsWrite e (escOffset g.pa / 64) g.lineBytes g.lineTags; r.2.storeAnswered e r.1)
    else (s.defaultTarget g.pa (clusterOf e) (posOf e)).storeAnswered e errDecode
  else
    match s.target g.pa with
    | .lvs le off =>
      let r := s.lvsWrite le (off / 64) g.lineBytes g.lineTags
      r.2.storeAnswered e r.1
    | .dram => cached
    | .firmware => if g.bank = 7 then cached else s.storeAnswered e errPerm
    | _ => (s.defaultTarget g.pa (clusterOf e) (posOf e)).storeAnswered e errDecode

/-- At most `n` released stores become visible in program order, until one waits at its slice, 11 R395. -/
def State.drainSteps (n e : Nat) (s : State) : State :=
  match n with
  | 0 => s
  | k + 1 =>
    match (s.engine e).out with
    | [] => s
    | g :: _ => if (s.engine e).outSent then s else State.drainSteps k e (s.releaseStore e g)

/-- The released stores of an engine become visible. -/
def State.drainOut (s : State) (e : Nat) : State := State.drainSteps (s.engine e).out.length e s

/-- The pending commit completes: the checkpoint store takes the snapshot and the interval's stores are released, 10 R353. -/
def State.completeCommit (s : State) (e : Nat) : State :=
  match (s.engine e).commit with
  | none => s
  | some c =>
    let t := s.modEngine e fun x =>
      { x with ckpt := c.core, commit := none, out := x.out ++ x.stores.take c.nstores, stores := x.stores.drop c.nstores }
    let t := t.drainOut e
    t.setReg (ENG_TNG_CKPT e) (t.reg (ENG_TNG_CKPT e) + 1)

/-- A commit point: the state at this boundary is committed and completes with CHECKPOINT_COMPLETE; an older one completes first. -/
def State.commitPoint (s : State) (e : Nat) : State :=
  (s.completeCommit e).modEngine e fun x => { x with commit := some ⟨x.core, x.stores.length, x.newLv⟩, newLv := none, icount := 0, fenced := false }

/-- A commit that the core waits for. -/
def State.commitNow (s : State) (e : Nat) : State := (s.commitPoint e).completeCommit e

/-- Put a store of the instruction at `pc` into the gated store buffer; a full buffer waits for a commit before the store, 10 R352. -/
def State.gate (s : State) (e pc : Nat) (g : GStore) : State :=
  let s := if (s.engine e).stores.length ≥ 64 then ((s.setPc e pc).commitNow e).setPc e (s.pc e) else s
  s.modEngine e fun x => { x with stores := x.stores ++ [g] }

/-- One instruction has completed, whose ROM words have been fetched: it counts toward the commit after 1,024, 10 R352. -/
def State.countInstr (s : State) (e : Nat) : State :=
  let s := s.romFetch e
  let n := (s.engine e).icount + 1
  if n ≥ 1024 then s.commitPoint e else s.modEngine e fun x => { x with icount := n }

/-- CHECKPOINT_COMPLETE: four ECLK after a commit, 10 R353. -/
def execCheckpointComplete (e : EngId) (s : State) : Host.Outcome State Fault Refusal := .next (s.completeCommit e)

/-! Exceptions, 09 R310 to R332. -/

/-- Bank of the save set of level `l`: the running bank at S, 6 at P, 7 at M. -/
def State.levBank (s : State) (e l : Nat) : Nat := if l = 3 then 7 else if l = 2 then 6 else (s.core e).run

/-- ESTAT of level `l`. -/
def State.estat (s : State) (e l : Nat) : Nat := ((s.core e).bank (s.levBank e l)).save.estat.toNat

/-- SAVED, IML and NI of level `l`. -/
def State.saved (s : State) (e l : Nat) : Bool := bits (s.estat e l) 14 1 == 1
def State.iml (s : State) (e l : Nat) : Nat := bits (s.estat e l) 10 4
def State.niM (s : State) (e : Nat) : Bool := bits (s.estat e 3) 15 1 == 1

/-- A number of the slot that engine `e` is in, and its bank. -/
def State.slotBank (s : State) (e n : Nat) : Nat := s.rd (ENG_SLOTA e n) ENG_SLOTA_BANK

/-- A tenant slot is in progress; otherwise the engine is in platform time, 09 R313. -/
def State.tenantSlot (s : State) (e : Nat) : Bool :=
  match (s.engine e).inSlot with
  | some n => s.slotBank e n < 6
  | none => false

/-- PHASE of the slot. -/
def State.slotPhase (s : State) (e : Nat) : Nat := s.rd (ENG_SLOT_STAT e) ENG_SLOT_STAT_PHASE

/-- Set PHASE. -/
def State.setSlotPhase (s : State) (e p : Nat) : State := s.wr (ENG_SLOT_STAT e) ENG_SLOT_STAT_PHASE p

/-- A tenant's usable part is over: the closing sequence runs or has run. -/
def State.startClosing (s : State) (e : Nat) : State :=
  (s.setSlotPhase e 2).modEngine e fun x => { x with closeAt := s.gav.mono, busy := none }

/-- A ring producer that stops before its next block sends a pause marker, 05 R196; a block that is computed and awaits its decision is no such block. -/
def State.ringPause (s : State) (e b : Nat) : State :=
  if (s.vsu e b).ents.any fun x => x.outBase.isSome && decide (s.lvNext e b x < x.len) then s.sendDown e [.pauseMarker] else s

/-- The closing sequence of 01 R32: a commit at its start and one at its step 3 release the gated stores (10 R352), the running context becomes its bank's resume point, and the engine idles. -/
def State.closing (s : State) (e : Nat) : State :=
  let b := s.curBank e
  let t := ((s.ringPause e (s.core e).run).commitNow e).modCore e fun c => c.park (some (b.getD c.run))
  (t.commitNow e).startClosing e

/-- The engine is declared unfit: it stops and is retired, 09 R328 and 10 R367. -/
def State.unfit (s : State) (e : Nat) : State := s.retireEngine e 3

/-- NITIME counts the ECLK of the bank-7 context while NI = 1, 09 R325: a free number of them has passed, short of the 512 of NI_TIMEOUT (log entry 26). -/
def State.countNi (s : State) (e : Nat) : State :=
  if s.niM e then
    let x := s.takeFree
    x.2.modCore e fun c => if c.nitime < 512 then { c with nitime := c.nitime + x.1.toNat % (512 - c.nitime) } else c
  else s

/-- A level is entered: an entry to M nests in the prompt handler that it interrupts, and one to S in the SLOT_EXPIRED handler that a vector fault waits for (03 R117). -/
def Core.nest (c : Core) (l : Nat) : Core :=
  if l = 3 then { c with prompting := c.prompting.map (· + 1) }
  else if l = 1 then
    match (c.bank c.run).gate with
    | .behind n => c.setBank c.run { c.bank c.run with gate := .behind (n + 1) }
    | _ => c
  else c

/-- RETX at level `l` undoes the nesting; the vector fault that waited for the SLOT_EXPIRED handler is then due, 03 R117. -/
def Core.unnest (c : Core) (l : Nat) : Core :=
  if l = 3 then { c with prompting := match c.prompting with | some (n + 1) => some n | _ => none }
  else if l = 1 then
    match (c.bank c.run).gate with
    | .behind 0 => c.setBank c.run { c.bank c.run with gate := .due }
    | .behind (n + 1) => c.setBank c.run { c.bank c.run with gate := .behind n }
    | _ => c
  else c

/-- An entry leaves the accesses of the running bank that have been sent: they count as completed, 09 R322. -/
def Engine.leave (x : Engine) : Engine :=
  { x with pend := x.pend.map fun p => if p.bank = x.core.run then { p with left := true } else p, busy := none }

/-- Enter level `l` at the vector offset `off`, 09 R318 and R319. -/
def State.enter (s : State) (e l off epc ecause eaddr eprog escr : Nat) : State :=
  (s.modEngine e Engine.leave).modCore e fun c =>
    let c := c.nest l
    let b := if l = 3 then 7 else if l = 2 then 6 else c.run
    let x := c.bank b
    let st := x.save.estat.toNat
    let base := c.lev + c.run * 4 + b2n c.idle * 32
    let st' := if l = 3 then base + 2 ^ 15 else base + bits st 10 4 * 2 ^ 6 + 15 * 2 ^ 10
    let sv : SaveSet := { epc := BitVec.ofNat 64 epc, estat := BitVec.ofNat 64 st', ecause := BitVec.ofNat 64 ecause,
                          eaddr := BitVec.ofNat 64 eaddr, eprog := BitVec.ofNat 64 eprog, escr := BitVec.ofNat 64 escr }
    { c.setBank b ({ x with save := sv }.mark 8) with
      run := b, lev := l, pc := (x.evec.toNat + off) % 2 ^ 48, idle := false,
      nitime := if l = 3 ∧ c.lev ≠ 3 then 0 else c.nitime }

/-- Words of an escalation frame, 09 R329. -/
def State.fehFrame (s : State) (e depth epc ecause eaddr eprog escr : Nat) : List TWord :=
  let c := s.core e
  let m := (c.bank 7).save
  let u (n : Nat) : TWord := ⟨tagU64, BitVec.ofNat 64 n⟩
  let w (x : Word) : TWord := ⟨tagU64, x⟩
  [u (depth + c.lev * 2 ^ 6 + c.run * 2 ^ 8), u epc, u ecause, u eaddr, u eprog, u escr, w m.epc, w m.estat, w m.ecause,
   w m.eaddr, w m.eprog, w m.escr, (c.bank 7).getG 28, (c.bank 7).getG 29, (c.bank 7).getG 30, (c.bank 7).getG 31]

/-- Write words of the escalation stack from address `pa`. -/
def State.setEscWords (s : State) (e pa : Nat) (ws : List TWord) : State :=
  eachDo ws.zipIdx (fun p t => t.setLvsWord e (escOffset pa + 8 * p.2) p.1) s

/-- Bank 7 when M is entered from below: NI is set, 09 R325. -/
def Bank.setNi (x : Bank) : Bank := { x with save := { x.save with estat := BitVec.ofNat 64 (setBits x.save.estat.toNat 15 1 1) } }

/-- The Fixed Escalation Handler is entered, or the engine is unfit, 09 R328 to R330; from a level below M the entry sets NI, 09 R325. -/
def State.enterFeh (s : State) (e epc ecause eaddr eprog escr : Nat) : State :=
  let c := s.core e
  if c.fehvec = 0 ∨ c.fehDepth ≥ 32 then s.unfit e
  else
    let d := c.fehDepth + 1
    let pa := 0xF00000000000 - 128 * d
    let t := s.setEscWords e pa (s.fehFrame e d epc ecause eaddr eprog escr)
    let t := (t.modEngine e Engine.leave).modCore e fun c =>
      let x := (c.bank 7).setG 31 ⟨tagPtr, BitVec.ofNat 64 pa⟩
      { c.setBank 7 (if c.lev = 3 then x else x.setNi.mark 8) with
        run := 7, lev := 3, pc := c.fehvec.toNat, idle := false, nitime := if c.lev = 3 then c.nitime else 0, feh := true, fehDepth := d }
    let t := t.count (ENG_EXC_FEH e) ENG_EXC_FEH_COUNT 1
    t.recordCode 0x1C05 sevCritical (unitEngine e) (ecause % 2 ^ 32) d (s.bankTenant e c.run)

/-- Delegation of cause `c`, 09 R310. -/
def State.deleg (s : State) (e c : Nat) : Bool × Bool :=
  (bits (s.core e).mdeleg.toNat c 1 == 1, bits (s.core e).pdeleg.toNat c 1 == 1)

/-- First target of cause `c` raised at level `r`, 09 R310. -/
def State.firstTarget (s : State) (e c r : Nat) : Nat :=
  if c = cSlotExpired then 1
  else if r = 3 then 3
  else if r = 2 then (if (s.deleg e c).1 then 2 else 3)
  else if !(s.deleg e c).1 then 3
  else if !(s.deleg e c).2 ∨ (c = cSyscall ∧ r = 1) then 2
  else 1

/-- A level cannot accept an exception, 09 R311. -/
def State.mustEscalate (s : State) (e l : Nat) : Bool := l != 3 && (!s.saved e l || s.iml e l == 15)

/-- Final target and ECAUSE of an exception, 09 R310 and R311. -/
def State.route (s : State) (e c : Nat) : Nat × Nat :=
  let r := s.lev e
  let esc := 0x10 + c * 2 ^ 8 + r * 2 ^ 14
  let l := s.firstTarget e c r
  if s.mustEscalate e l then
    if s.mustEscalate e (l + 1) then (3, esc) else (l + 1, esc)
  else (l, c)

/-- A tenant exception whose target is P or M is held, and the slot closes, 09 R312; HELDPC is the address `pc` of the faulting instruction. -/
def State.hold (s : State) (e target pc ecause eaddr eprog escr : Nat) : State :=
  let h : HeldRec := { ecause := BitVec.ofNat 64 ecause, eaddr := BitVec.ofNat 64 eaddr, eprog := BitVec.ofNat 64 eprog,
                       escr := BitVec.ofNat 64 escr, target := target, sent := false }
  let lev := s.lev e
  let t := s.modRun e fun x => { x with held := some h, heldpc := pc, heldlev := lev }.mark 8
  (((t.count (ENG_EXC_HELDCNT e) ENG_EXC_HELDCNT_COUNT 1).setPc e pc).modEngine e Engine.leave).closing e

/-- Take a synchronous exception with EPC `epc`, 09 R310 to R312, R318 and R328. -/
def State.takeException (s : State) (e epc : Nat) (t : Trap) : State :=
  let c := s.core e
  if c.feh then s.enterFeh e epc t.cause t.eaddr t.eprog t.escr
  else
    let r := s.route e t.cause
    if c.run < 6 ∧ r.1 ≥ 2 then s.hold e r.1 (if t.next then (epc + 2 ^ 48 - 4) % 2 ^ 48 else epc) r.2 t.eaddr t.eprog t.escr
    else if r.1 = 3 ∧ !s.saved e 3 then s.enterFeh e epc r.2 t.eaddr t.eprog t.escr
    else s.enter e r.1 0 epc r.2 t.eaddr t.eprog t.escr

/-! Instruction issue. -/

/-- Response to the fetch of the line at a physical address, 07 R274: of the caches or the slice in DRAM, of the LVS port in an LVS. The line that the
fetch leaves in the caches comes with CACHE_LINE_FILL (log entry 48). -/
def State.fetchResp (s : State) (e pa key : Nat) : Nat :=
  match s.target pa with
  | .dram | .firmware =>
    if s.inCore (clusterOf e) (posOf e) false (pa / 64) then respOk else (s.dirRdS (clusterOf e) (pa / 64) key).1
  | .lvs le off => (s.lvsRead le (off / 64)).1
  | _ => errDecode

/-- The fault of a fetch that a response refuses, 07 R270 and R274. -/
def fetchFault (resp pc : Nat) : Option Trap :=
  if resp = respOk then none else some (trap (respCause resp) pc (respEscr 2 resp))

/-- Fault of fetching the instruction at the program counter, 07 R252, R274 and 09 R319: its window and permission, its target, or the response; the prompt handler's first 64 instructions come from the prompt buffer, and the escalation stack answers the data port alone (09 R331). -/
def State.fetchTrap (s : State) (e : Nat) : Option Trap :=
  let c := s.core e
  if c.lev ≤ 1 then
    match s.resolveTa (s.bankTenant e c.run) (c.lev == 0) [.exec] c.pc with
    | .ok pa => fetchFault (s.fetchResp e pa (s.bankTenant e c.run)) c.pc
    | .page _ => some (trap cPerm c.pc (accEscr 2 0))
    | .bad k => some (trap k c.pc (accEscr 2 0))
    | .lost => some (trap cBus c.pc (accEscr 2 0))
  else if c.prompting.isSome && c.lev == 3 && (List.range 256).contains (c.pc - ((c.bank 7).evec.toNat + 0x100) % 2 ^ 48) &&
      decide (((c.bank 7).evec.toNat + 0x100) % 2 ^ 48 ≤ c.pc) then none
  else if isEsc c.pc then some (trap cBus c.pc (accEscr 2 errDecode))
  else
    match s.target c.pc with
    | .firmware => if c.lev = 3 then fetchFault (s.fetchResp e c.pc 0) c.pc else some (trap cPerm c.pc (accEscr 2 errPerm))
    | _ => fetchFault (s.fetchResp e c.pc 0) c.pc

/-- The instruction at the program counter that a main-path entry awaits in full, 09 R322. -/
def State.inProgress (s : State) (e : Nat) : Option Busy :=
  match (s.engine e).busy with
  | some b => if b.bank = (s.core e).run ∧ b.pc = (s.core e).pc then some b else none
  | none => none

/-- Note that the instruction at `pc` has begun and waits. -/
def State.noteBusy (s : State) (e pc : Nat) (cmd : Bool) : State :=
  s.modEngine e fun x => { x with busy := some ⟨x.core.run, pc, cmd⟩ }

/-- No instruction is in progress. -/
def State.clearBusy (s : State) (e : Nat) : State := s.modEngine e fun x => { x with busy := none }

/-- A prompt entry is held, 09 R323; `late` says that the budget counter of the running tenant slot is below 2,512. A bank command holds it while it waits. -/
def State.promptHold (s : State) (e : Nat) (late : Bool) : Bool :=
  let c := s.core e
  c.feh || (c.lev == 3 && (s.niM e || !s.saved e 3)) || (s.inProgress e).any (·.bankCmd) ||
    (s.engine e).promptCopy.isSome || (s.tenantSlot e && late)

/-- The prompt entry that is taken before any other instruction issues, 09 R323. -/
def State.promptDue (s : State) (e : Nat) : Option PromptHold :=
  match (s.core e).promptHeld with
  | some p => if p.inRec || s.promptHold e p.late then none else some p
  | none => none

/-- The reported vector fault of the running bank that waits to be taken, 03 R110. -/
def State.faultWaits (s : State) (e : Nat) : Option VFault :=
  let c := s.core e
  if (c.bank c.run).faultTaken then none else (sget (fun _ => BankVsu.reset) (s.engine e).vsu c.run).fault

/-- The next instruction boundary takes nothing before an instruction can issue, 09 R320: no prompt entry, SLOT_EXPIRED, deferred error or vector fault that is due (03 R117). An instruction in progress is between boundaries. -/
def State.boundaryFree (s : State) (e : Nat) : Bool :=
  let c := s.core e
  (s.promptDue e).isNone && (c.bank c.run).slotExp.isNone &&
    ((s.inProgress e).isSome ||
      !(c.deferred.any fun d => d.bank == c.run) && !((c.bank c.run).gate == .due && (s.faultWaits e).isSome))

/-- Whether engine `e` issues an instruction now: it runs, is not in recovery, takes nothing at this boundary, and no response holds its bank (07 R254). -/
def State.canIssue (s : State) (e : Nat) : Bool :=
  let x := s.engine e
  !x.stopped && !x.halted && !x.core.idle && !s.flag (ENG_TNG_STAT e) ENG_TNG_STAT_RECOV && s.boundaryFree e &&
    x.pend.all fun p => p.left || p.bank != x.core.run

/-- A register that an instruction reads. -/
inductive RegRef where
  | g (r : RegNo)
  | f (r : RegNo)
  | v (k : BitVec 3)
  deriving DecidableEq, Repr

/-- Every register: what microcode may read. -/
def allRegs : List RegRef := ((List.range 32).map fun r => .g (BitVec.ofNat 5 r)) ++ (List.range 32).map fun r => .f (BitVec.ofNat 5 r)

/-- G and F registers that a response writes. -/
def PendAccess.gives (p : PendAccess) (r : RegRef) : Bool :=
  match r with
  | .g r => (match p.kind with | .load .. | .lkld | .lkst => p.rd == r.toNat | _ => false) || p.post.any fun q => q.1 == r.toNat
  | .f r => (match p.kind with | .fload _ => p.rd == r.toNat | .vload _ => p.rd == r.toNat / 4 | _ => false)
  | .v k => (match p.kind with | .fload _ => p.rd / 4 == k.toNat | .vload _ => p.rd == k.toNat | _ => false)

/-- An instruction that reads one of `rs` stalls: a response that an entry left behind has yet to write it, 09 R322. -/
def State.awaits (s : State) (e : Nat) (rs : List RegRef) : Bool :=
  (s.engine e).pend.any fun p => p.bank == (s.core e).run && rs.any p.gives

/-- Issue one instruction of `len` bytes that reads the registers `rs`: it fetches, then does what `f` says with the program counter moved past it, 07 R252 and R253. -/
def State.issue (s : State) (e len : Nat) (rs : List RegRef) (f : State → Res) : State :=
  if s.canIssue e && !s.awaits e rs then
    match (s.fetchTrap e).orElse fun _ => if len ≤ 4 then none else (s.setPc e ((s.pc e + 4) % 2 ^ 48)).fetchTrap e with
    | some t => s.takeException e (s.pc e) t
    | none =>
      match f (s.setPc e ((s.pc e + len) % 2 ^ 48)) with
      | .done t => t.countInstr e
      | .commit t => t.commitPoint e
      | .settle t => t.commitNow e
      | .fault t u => u.takeException e (if t.next then u.pc e else s.pc e) t
      | .stall => s
      | .wait t => t.setPc e (s.pc e)
      | .kept t => t
  else s

/-- Tag check of one source, 07 R248: `which` is 0 rs1, 1 rs2, 2 store data, 3 memory word. -/
def tagTrap (ok : Tag → Bool) (which eaddr : Nat) (t : Tag) : Option Trap :=
  if t = tagPoison then some (trap cTagPoison eaddr (t.toNat + which * 16))
  else if t = tagEmpty then some (trap cTagEmpty eaddr (t.toNat + which * 16))
  else if ok t then none
  else some (trap cTagMismatch eaddr (t.toNat + which * 16))

/-- The first of two checks that fails. -/
def firstTrap (a b : Option Trap) : Option Trap :=
  match a with
  | some t => some t
  | none => b

/-- A released store of the running bank is not visible yet, 11 R395. -/
def State.outBusy (s : State) (e : Nat) : Bool := (s.engine e).out.any fun g => g.bank == (s.core e).run

/-- The commit of a waiting instruction stands at its boundary: nothing has completed since, 10 R352. -/
def State.atFence (s : State) (e : Nat) : Bool :=
  let x := s.engine e
  x.fenced && x.icount == 0 && x.stores == [] && x.commit.isNone

/-- The instruction at `pc` commits once and goes on when every earlier store of its bank has been released and acknowledged, 07 R275 and 10 R352 and R354. -/
def State.drained (s : State) (e pc : Nat) (f : State → Res) : Res :=
  let again := s.atFence e
  let t := if again then (s.drainOut e).modEngine e fun x => { x with ckpt := x.core, fenced := false } else (s.commitNow e).drainOut e
  if t.outBusy e then
    .wait (if again then s.drainOut e else (((s.setPc e pc).commitNow e).drainOut e).modEngine e fun x => { x with fenced := true })
  else f t

end Sys2Proof.Machine
end

