-- ==== Sys2Proof/Machine/IrqRows.lean ====
section
/-! DEFINITION. Commands of the interrupt controller and the event router, and who reaches the platform view (12 R420 to R441, 19 R577). -/
namespace Sys2Proof.Machine
open Reg

/-- Whether a requester reaches the platform view: P and M level, the Steward and the PF, 19 R577. -/
def State.platOk (s : State) (r : Requester) : Bool :=
  match r with
  | .engine e => decide (2 ≤ s.lev e)
  | .steward => true
  | .pf => true
  | .vf _ => false
  | .master _ => false

/-- A command of the platform view: any other requester receives ERR_PERM. -/
def State.plat (s : State) (r : Requester) (f : State → State) : State := if s.platOk r then f s else s.reply errPerm []

/-- SOURCE_ASSERT: an event of source `i`, or for a STATE source its condition becomes true, 12 R420; IDs that are never asserted do nothing. -/
def execSourceAssert (i : Fin 1024) (s : State) : Host.Outcome State Fault Refusal :=
  .next (let n := i.val
    let never := n == 681 || n == 682 || (686 ≤ n && n ≤ 719) || (817 ≤ n && n ≤ 847) || (900 ≤ n && n ≤ 911) || n == 918 || n == 919 ||
      (940 ≤ n && n ≤ 959) || 1020 ≤ n
    if never then s else if srcIsState n then s.setCond n true else s.assert n)

/-- MSIX_UNMASK: the mask bit of a vector clears; a message that it blocked is sent if its source is still presentable, 12 R433. -/
def State.msixUnmask (s : State) (v : Nat) : State :=
  let blocked := sget (fun _ => false) s.ic.pba v
  let t : State := { s with ic := { s.ic with unmasked := sset (fun _ => false) s.ic.unmasked v true,
                                              pba := sset (fun _ => false) s.ic.pba v false } }
  let still := (s.ic.src.map (·.1)).any fun i =>
    s.rd (IC_SRC_CFG i) IC_SRC_CFG_VEC == v && (s.hostCtx i).any fun c => s.presented c == some i
  if blocked && still then t.emit (.msix v) else t

/-- MSIX_UNMASK. -/
def execMsixUnmask (v : Fin 2048) (s : State) : Host.Outcome State Fault Refusal := .next (s.msixUnmask v)

/-- CLAIM: a read of the claim register of context `c`, 12 R426 and R427. -/
def execClaim (c : Fin 3586) (s : State) : Host.Outcome State Fault Refusal := .next (s.claim c .sender (2 ^ 64 - 1))

/-- COMPLETE: a write of an ID to the completion register of context `c`, 12 R429. -/
def execComplete (c : Fin 3586) (i : BitVec 10) (s : State) : Host.Outcome State Fault Refusal :=
  .next ((s.complete c i.toNat).reply respOk [])

/-- HOLDOFF_EXPIRY: time passes until the hold-off timer of a group ends, 12 R428. -/
def execHoldoffExpiry (g : Fin 64) (s : State) : Host.Outcome State Fault Refusal :=
  .next (match sget (fun _ => none) s.ic.holdoff g with
    | some t => (s.passTo t).endHoldoffs
    | none => s)

/-- IC_SGI: a write of an ID, 12 R432. -/
def execIcSgi (r : Requester) (i : BitVec 10) (s : State) : Host.Outcome State Fault Refusal :=
  .next (s.plat r fun s => (s.sgi i.toNat).reply respOk [])

/-- TP_DOORBELL: a write of an ID to the doorbell of tenant `t`, 12 R432. -/
def execTpDoorbell (t : BitVec 13) (i : BitVec 10) (s : State) : Host.Outcome State Fault Refusal :=
  .next ((s.doorbell t.toNat i.toNat).reply respOk [])

/-- IC_SRC_CFG_i takes a word, 12 R434: EN = 0 clears COUNT. -/
def State.setSrcCfg (s : State) (i : Nat) (d : Word) : State :=
  let x := d.toNat
  let w := bits x 0 22 + bits x 32 11 * 2 ^ 32 + bits x 48 13 * 2 ^ 48
  let t := s.setReg (IC_SRC_CFG i) (BitVec.ofNat 64 w)
  if bits x 0 1 = 0 then t.setSrc i { t.src i with count := 0 } else t

/-- A write of IC_SRC_CFG_i, 12 R422, R434 and R436: LEV 3 is refused. -/
def State.srcCfg (s : State) (i : Nat) (d : Word) : State :=
  if bits d.toNat 7 2 = 3 then s.reply errTarget [] else (s.setSrcCfg i d).refreshAll.reply respOk []

/-- IC_SRC_CFG. -/
def execIcSrcCfg (r : Requester) (i : Fin 1024) (d : Word) (s : State) : Host.Outcome State Fault Refusal :=
  .next (s.plat r fun s => s.srcCfg i d)

/-- EVENT_FIRE: a pulse on a channel, 12 R437 to R439. -/
def execEventFire (ch : Fin 128) (s : State) : Host.Outcome State Fault Refusal := .next (s.pulse ch)

/-- A write of EVR_FIRE0 or EVR_FIRE1, 12 R440. -/
def State.evrFire (s : State) (hi : Bool) (d : Word) : State :=
  let base := if hi then 64 else 0
  let chs := (List.range 64).filter fun k => bits d.toNat k 1 == 1 && s.flag (EVR_CH_CFG (base + k)) EVR_CH_CFG_FIRE
  (s.pulses (chs.map fun k => base + k)).reply respOk []

/-- EVR_FIRE. -/
def execEvrFire (r : Requester) (hi : Bool) (d : Word) (s : State) : Host.Outcome State Fault Refusal :=
  .next (s.plat r fun s => s.evrFire hi d)

end Sys2Proof.Machine
end

