-- ==== Sys2Proof/Machine/Queues.lean ====
section
/-! DEFINITION. The queue engines, 13: queues, buffer pools, ownership, admission at ingress and overload. -/
namespace Sys2Proof.Machine
open Reg

/-! Configuration and state of one queue. -/

/-- A queue's state. -/
def State.queue (s : State) (q : Nat) : QState := sget (fun _ => QState.reset) s.qm.queues q

/-- Replace a queue's state. -/
def State.setQueue (s : State) (q : Nat) (x : QState) : State :=
  { s with qm := { s.qm with queues := sset (fun _ => QState.reset) s.qm.queues q x } }

/-- QM_QCFG and QM_QCFG2 of a queue, 15 R505. -/
def State.qcfg (s : State) (q : Nat) : Nat := elemWord (s.elem 6 1 q) 0
def State.qcfg2 (s : State) (q : Nat) : Nat := elemWord (s.elem 6 1 q) 1

/-- A field of a configuration word. -/
def Fld.of (f : Fld) (w : Nat) : Nat := bits w f.lo f.w

/-- Owner tenant of a queue. -/
def State.qTenant (s : State) (q : Nat) : Nat := QM_QCFG_TENANT.of (s.qcfg q)

/-- Pool of a queue. -/
def State.qPool (s : State) (q : Nat) : Nat := QM_QCFG_POOL.of (s.qcfg q)

/-- CLASS of a queue: 0 DATA, 1 CONTROL, 2 TIME. -/
def State.qClass (s : State) (q : Nat) : Nat := QM_QCFG_CLASS.of (s.qcfg q)

/-- Whether a queue is valid, 13 R442. -/
def State.qValid (s : State) (q : Nat) : Bool := QM_QCFG_VALID.of (s.qcfg q) == 1

/-- Ring capacity of a queue, 13 R443. -/
def State.qCapacity (s : State) (q : Nat) : Nat := 2 ^ (QM_QCFG_SIZE.of (s.qcfg q) + 4) - 1

/-- QBASE and QCOUNT of a tenant, 13 R442; no range has no queues. -/
def State.qRange (s : State) (t : Nat) : Nat × Nat :=
  match s.elem 6 0 t with
  | [] => (0, 0)
  | ws => (bits (elemWord ws 0) 0 17, bits (elemWord ws 0) 17 10 + 1)

/-- The queue at index `j` of a tenant's window, 13 R446; none for an offset that answers ERR_DECODE. -/
def State.qAt (s : State) (t j : Nat) : Option Nat :=
  let r := s.qRange t
  if j < r.2 ∧ s.qValid (r.1 + j) then some (r.1 + j) else none

/-! Descriptors, 13 R445. -/

/-- Fields of a descriptor. -/
def dHandle (d : Word) : Nat := bits d.toNat 0 24

/-- A descriptor of a buffer. -/
def descOf (handle len kind aux : Nat) : Word :=
  BitVec.ofNat 64 (handle % 2 ^ 24 + (len % 2 ^ 17) * 2 ^ 24 + (kind % 8) * 2 ^ 41 + (aux % 256) * 2 ^ 44 + 2 ^ 63)

/-- The answer with VALID 0. -/
def descNone (code : Nat) : Word := BitVec.ofNat 64 (code * 2 ^ 59)

/-! Pools, shares and ownership, 13 R451 to R455. -/

/-- A share, 13 R453. -/
structure Share where
  num : Nat
  base : Nat
  count : Nat
  pool : Nat
  tenant : Nat
  win : Nat
  woff : Nat
  deriving DecidableEq, Repr

/-- A share from its element, 15 R505. -/
def shareOfElem (num : Nat) (ws : List Word) : Share :=
  let a := elemWord ws 0
  let b := elemWord ws 1
  { num := num, base := QM_SHA_SHBASE.of a, count := QM_SHA_SHCOUNT.of a, pool := QM_SHA_POOL.of a, tenant := QM_SHB_TENANT.of b,
    win := QM_SHB_WIN.of b, woff := QM_SHB_WOFF.of b }

/-- The defined shares in ascending number. -/
def sharesIn (cfg : Sparse (List Word)) : List Share :=
  (cfg.filter fun p => cfgKey 13 1 0 ≤ p.1 && p.1 < cfgKey 13 2 0).map fun p => shareOfElem (p.1 - cfgKey 13 1 0) p.2

/-- A tenant's share of a pool. -/
def State.shareFor (s : State) (t pool : Nat) : Option Share := (sharesIn s.cfg).find? fun x => x.tenant == t && x.pool == pool

/-- The share that holds a handle. -/
def State.shareOf (s : State) (h : Nat) : Option Share := (sharesIn s.cfg).find? fun x => x.base ≤ h && h < x.base + x.count

/-- A pool: HBASE, COUNT, BUFSZ and BASE, 13 R451. -/
def State.poolWords (s : State) (p : Nat) : Nat × Nat × Nat × Nat :=
  let a := elemWord (s.elem 13 0 p) 0
  let b := elemWord (s.elem 13 0 p) 1
  (QM_POOLA_HBASE.of a, QM_POOLA_COUNT.of a, QM_POOLA_BUFSZ.of a, QM_POOLB_BASE.of b * 4096)

/-- Buffer size of a pool in bytes. -/
def State.poolBuf (s : State) (p : Nat) : Nat := 2 ^ ((s.poolWords p).2.2.1 + 8)

/-- The pool that holds a handle. -/
def State.poolOf (s : State) (h : Nat) : Option Nat :=
  (List.range 16).find? fun p => (s.poolWords p).1 ≤ h && h < (s.poolWords p).1 + (s.poolWords p).2.1

/-- Physical address of a buffer, 13 R452. -/
def State.bufferPa (s : State) (p h : Nat) : Nat := (s.poolWords p).2.2.2 + (h - (s.poolWords p).1) * s.poolBuf p

/-- State and owner of a buffer; none is FREE. -/
def State.owner (s : State) (h : Nat) : Option Own := sget (fun _ => none) s.qm.own h

/-- Set the state and owner of a buffer. -/
def State.setOwner (s : State) (h : Nat) (o : Option Own) : State :=
  { s with qm := { s.qm with own := sset (fun _ => none) s.qm.own h o } }

/-- Freed buffers of a share. -/
def State.freedOf (s : State) (n : Nat) : List Nat := sget (fun _ => []) s.qm.freed n

/-- A buffer becomes FREE and returns to its share, 13 R454. -/
def State.freeBuffer (s : State) (h : Nat) : State :=
  let t := s.setOwner h none
  match s.shareOf h with
  | none => t
  | some x => { t with qm := { t.qm with freed := sset (fun _ => []) t.qm.freed x.num (h :: (s.freedOf x.num).filter (· != h)) } }

/-- The first FREE buffer from `h` on that has not been freed since the share was defined, in `n` handles. -/
def State.freshFrom (s : State) (freed : List Nat) (h n : Nat) : Option Nat :=
  match n with
  | 0 => none
  | k + 1 => if (s.owner h).isNone && !freed.contains h then some h else s.freshFrom freed (h + 1) k

/-- The buffer that a share hands out next, 13 R448. -/
def State.nextFree (s : State) (x : Share) : Option Nat :=
  match s.freedOf x.num with
  | h :: _ => some h
  | [] => s.freshFrom [] x.base x.count

/-- Free buffers of a share. -/
def State.freeCount (s : State) (x : Share) : Nat :=
  x.count - (s.qm.own.filter fun p => x.base ≤ p.1 && p.1 < x.base + x.count).length

/-- Take a buffer of a share for an owner. -/
def State.takeBuffer (s : State) (x : Share) (h : Nat) (o : Own) : State :=
  let t := s.setOwner h (some o)
  { t with qm := { t.qm with freed := sset (fun _ => []) t.qm.freed x.num ((s.freedOf x.num).filter (· != h)) } }

/-- A POOL_EMPTY result is counted. -/
def State.countEmpty (s : State) (x : Share) : State :=
  { s with qm := { s.qm with empty := sset (fun _ => 0) s.qm.empty x.num (satAdd 32 (sget (fun _ => 0) s.qm.empty x.num) 1),
                             poolEmpty := sset (fun _ => 0) s.qm.poolEmpty x.pool (satAdd 32 (sget (fun _ => 0) s.qm.poolEmpty x.pool) 1) } }

/-! Events, 13 R456 and R463. -/

/-- Write QM_ERRLOG. -/
def State.qmLog (s : State) (h q t kind : Nat) : State :=
  s.setReg QM_ERRLOG (BitVec.ofNat 64 (h % 2 ^ 24 + (q % 2 ^ 17) * 2 ^ 24 + (t % 2 ^ 13) * 2 ^ 41 + kind * 2 ^ 54))

/-- A logged event that sets bit `k` of QM_ERR. -/
def State.qmErr (s : State) (k h q t : Nat) : State :=
  let u := (s.qmLog h q t (k + 1)).setErr QM_ERR ⟨k, 1, .w1c, 0⟩ 255
  u.record 255 unitQueue (bits (u.reg QM_ERRLOG).toNat 0 32) (bits (u.reg QM_ERRLOG).toNat 32 32) t

/-- A logged event whose buffer has no name: the handle is a free value (log entry 7). -/
def State.qmErrFree (s : State) (k q t : Nat) : State :=
  let (w, u) := s.takeFree
  u.qmErr k (w.toNat % 2 ^ 24) q t

/-- An ENQ or FREE through a queue in FAULT, 13 R449 and R456. -/
def State.qmFaultOp (s : State) (h q t : Nat) : State :=
  let u := s.qmLog h q t 7
  u.recordCode 0x5C08 sevError unitQueue (bits (u.reg QM_ERRLOG).toNat 0 32) (bits (u.reg QM_ERRLOG).toNat 32 32) t

/-- A drop is counted under bit `k` of 13 R465. -/
def State.qDrop (s : State) (q k : Nat) : State :=
  let x := s.queue q
  s.setQueue q { x with drops := sset (fun _ => 0) x.drops k (satAdd 32 (sget (fun _ => 0) x.drops k) 1), second := x.second ||| 2 ^ k }

/-! Token buckets, 13 R460. -/

/-- QM_TB of a tenant. -/
def State.tbWord (s : State) (t : Nat) : Nat := elemWord (s.elem 13 2 t) 0

/-- The µs of the monotonic tick. -/
def State.usNow (s : State) : Nat := s.gav.mono / 1000

/-- What a bucket lacks, in bytes times 8,000: every µs since it was last used has brought RATE/8,000 bytes. -/
def State.deficit (s : State) (t : Nat) : Nat :=
  let d := sget (fun _ => (0, 0)) s.qm.deficit t
  d.1 - (s.usNow - d.2) * QM_TB_RATE.of (s.tbWord t)

/-- Tokens of a tenant's bucket times 8,000. -/
def State.tokens8000 (s : State) (t : Nat) : Nat := QM_TB_BURST.of (s.tbWord t) * 8000 - s.deficit t

/-- The bucket lets `len` bytes pass. -/
def State.tokensFor (s : State) (t len : Nat) : Bool := QM_TB_EN.of (s.tbWord t) == 0 || decide (len * 8000 ≤ s.tokens8000 t)

/-- Take tokens. -/
def State.takeTokens (s : State) (t len : Nat) : State :=
  if QM_TB_EN.of (s.tbWord t) = 1 then
    { s with qm := { s.qm with deficit := sset (fun _ => (0, 0)) s.qm.deficit t (s.deficit t + len * 8000, s.usNow) } }
  else s

/-- The queue leaves SHED when DEPTH has reached LOWM and the bucket holds BURST/2 tokens, 13 R461. -/
def State.shedExit (s : State) (q : Nat) : State :=
  let x := s.queue q
  let t := s.qTenant q
  let full := QM_TB_EN.of (s.tbWord t) == 0 || decide (QM_TB_BURST.of (s.tbWord t) * 4000 ≤ s.tokens8000 t)
  if x.shed && decide (x.ring.length ≤ QM_QCFG_LOWM.of (s.qcfg q)) && full then s.setQueue q { x with shed := false } else s

/-- Queues that the refilled buckets let go leave SHED, 13 R461. -/
def State.refill (s : State) : State := eachDo (s.qm.queues.map (·.1)) (fun q u => u.shedExit q) s

/-- TOKEN_REFILL: time passes to the next 1 µs of TAI, at which each bucket gains RATE/8,000 bytes, 13 R460. -/
def execTokenRefill (s : State) : Host.Outcome State Fault Refusal := .next (s.passTo ((s.usNow + 1) * 1000)).refill

/-! Queue operations. -/

/-- An enqueue has reached queue `q`: DROPPING, its event output, and the notification, 13 R459, R463 and R464. -/
def State.qEnqueued (s : State) (q : Nat) (d : Word) : State :=
  let x := s.queue q
  let depth := x.ring.length + 1
  let drop := !x.dropping && decide (QM_QCFG_HIWM.of (s.qcfg q) ≤ depth)
  let t := s.setQueue q { x with ring := x.ring ++ [d], dropping := x.dropping || drop, enqueued := (x.enqueued + 1) % 2 ^ 64 }
  let t := if drop && QM_QCFG2_EVEN.of (s.qcfg2 q) == 1 then t.wirePulse (64 + QM_QCFG2_EVOUT.of (s.qcfg2 q)) EVR_CH_CFG_QUEUE else t
  if QM_QCFG2_NEN.of (s.qcfg2 q) = 1 ∧ QM_QCFG2_NTHR.of (s.qcfg2 q) ≤ depth then t.assert (QM_QCFG2_NGRP.of (s.qcfg2 q)) else t

/-- Skip `n` entries whose read fails: RING_ERR, and their buffers stay QUEUED, 13 R462. -/
def State.qSkip (s : State) (q n t : Nat) : State :=
  if n = 0 ∨ (s.queue q).ring = [] then s
  else
    let x := s.queue q
    eachDo (List.replicate (min n x.ring.length) ()) (fun _ u => u.qmErrFree 4 q t) (s.setQueue q { x with ring := x.ring.drop n })

/-- DEPTH has fallen by a DEQ: DROPPING and SHED end at LOWM, 13 R459 and R461. -/
def State.qDequeued (s : State) (q : Nat) : State :=
  let x := s.queue q
  let t := if x.ring.length ≤ QM_QCFG_LOWM.of (s.qcfg q) then s.setQueue q { x with dropping := false } else s
  t.shedExit q

/-- Remove the oldest descriptor of queue `q` for tenant `t`, 13 R446: the word that a DEQ returns; `bad` entries before it cannot be read. -/
def State.deq (s : State) (t q bad : Nat) : Word × State :=
  if (s.queue q).fault then (descNone 2, s)
  else
    let s := s.qSkip q bad t
    match (s.queue q).ring with
    | [] => (descNone 0, if bad = 0 then s else s.qDequeued q)
    | d :: r => (d, ((s.setQueue q { s.queue q with ring := r }).setOwner (dHandle d) (some (.held t q))).qDequeued q)

/-- Append a descriptor of a held buffer, 13 R449 and R450. -/
def State.enq (s : State) (t q : Nat) (d : Word) : State :=
  let h := dHandle d
  let held := match s.owner h with
    | some (.held o _) => o == t
    | _ => false
  if (s.queue q).fault then s.qmFaultOp h q t
  else if !held then s.qmErr 2 h q t
  else if (s.queue q).ring.length ≥ s.qCapacity q then (s.freeBuffer h).qDrop q 5
  else (s.setOwner h (some (.queued t q))).qEnqueued q d

/-- ALLOC through queue `q` by tenant `t`, 13 R446 and R453. -/
def State.allocBuf (s : State) (t q : Nat) : Word × State :=
  if (s.queue q).fault then (descNone 2, s)
  else
    match s.shareFor t (s.qPool q) with
    | none => (descNone 1, s)
    | some x =>
      match s.nextFree x with
      | none => (descNone 1, s.countEmpty x)
      | some h => (descOf h 0 0 0, s.takeBuffer x h (.held t q))

/-- FREE of handle `h` through queue `q` by tenant `t`, 13 R449 and R455. -/
def State.freeOp (s : State) (t q h : Nat) : State :=
  if (s.queue q).fault then s.qmFaultOp h q t
  else if (s.poolOf h).isNone then s.qmErr 1 h q t
  else
    match s.owner h with
    | some (.held o _) => if o = t then s.freeBuffer h else s.qmErr 1 h q t
    | _ => s.qmErr 0 h q t

/-- Answer a read of the queue window. -/
def State.replyWord (s : State) (w : Word) : State := s.reply respOk [⟨tagU64, w⟩]

/-- DEQ: a read of QW_DQ_j of tenant `t`; `bad` ring entries before the descriptor answer ERR_POISON or ERR_INTEG. -/
def execDeq (t : BitVec 13) (j : Fin 1024) (bad : Nat) (s : State) : Host.Outcome State Fault Refusal :=
  .next (match s.qAt t.toNat j with
    | none => s.reply errDecode []
    | some q =>
      let r := s.deq t.toNat q bad
      r.2.replyWord r.1)

/-- ENQ: a write of QW_DQ_j of tenant `t`. -/
def execEnq (t : BitVec 13) (j : Fin 1024) (d : Word) (s : State) : Host.Outcome State Fault Refusal :=
  .next (match s.qAt t.toNat j with
    | none => s.reply errDecode []
    | some q => (s.enq t.toNat q d).reply respOk [])

/-- FREE: a write of QW_BUF_j of tenant `t`. -/
def execFree (t : BitVec 13) (j : Fin 1024) (d : Word) (s : State) : Host.Outcome State Fault Refusal :=
  .next (match s.qAt t.toNat j with
    | none => s.reply errDecode []
    | some q => (s.freeOp t.toNat q (dHandle d)).reply respOk [])

/-- Order of requesters, 13 R448. -/
def AllocReqKey (a : AllocReq) : Nat := a.mid.val * 16 + a.pos.val

/-- Insert a numbered request behind those of lower or equal key. -/
def insReq (key : AllocReq → Nat) (x : Nat × AllocReq) : List (Nat × AllocReq) → List (Nat × AllocReq)
  | [] => [x]
  | y :: r => if key x.2 < key y.2 then x :: y :: r else y :: insReq key x r

/-- The share that a request draws on. -/
def State.reqShare (s : State) (a : AllocReq) : Option Share :=
  (s.qAt a.t.toNat a.j).bind fun q => if (s.queue q).fault then none else s.shareFor a.t.toNat (s.qPool q)

/-- ALLOC requests of one XCLK, 13 R448: in ascending requester, and round-robin where a share holds fewer buffers than requesters want. -/
def State.allocMany (s : State) (reqs : List AllocReq) : List (Nat × Nat × Word) × State :=
  let short (a : AllocReq) : Bool :=
    match s.reqShare a with
    | none => false
    | some x => decide (s.freeCount x < (reqs.filter fun b => s.reqShare b == some x).length)
  let start (a : AllocReq) : Nat := match s.reqShare a with
    | none => 0
    | some x => sget (fun _ => 0) s.qm.rr x.pool
  let key (a : AllocReq) : Nat := if short a then (AllocReqKey a + 1024 - start a % 1024) % 1024 else AllocReqKey a
  let order := (reqs.zipIdx.map fun p => (p.2, p.1)).foldl (fun l x => insReq key x l) []
  order.foldl (fun acc p =>
    let a := p.2
    match acc.2.qAt a.t.toNat a.j with
    | none => (acc.1 ++ [(p.1, errDecode, 0)], acc.2)
    | some q =>
      let r := acc.2.allocBuf a.t.toNat q
      let won := short a && bits r.1.toNat 63 1 == 1
      let u : State := if won then
          { r.2 with qm := { r.2.qm with rr := sset (fun _ => 0) r.2.qm.rr (s.qPool q) (AllocReqKey a + 1) } }
        else r.2
      (acc.1 ++ [(p.1, respOk, r.1)], u)) ([], s)

/-- ALLOC: reads of QW_BUF_j by one or more requesters in one XCLK; the words are answered in the order listed, and a refused one as the response. -/
def execAlloc (reqs : List AllocReq) (s : State) : Host.Outcome State Fault Refusal :=
  .next (let r := s.allocMany reqs
    let resp := (r.1.map fun p => p.2.1).foldl max 0
    r.2.reply resp ((List.range reqs.length).filterMap fun i =>
      (r.1.find? fun p => p.1 == i && p.2.1 == respOk).map fun p => ⟨tagU64, p.2.2⟩))

/-! Admission at ingress, 13 R458 to R461. -/

/-- What admission makes of a frame. -/
inductive Admit where
  | gone
  | wait
  | taken
  deriving DecidableEq, Repr

/-- Credits of `n` flits of a virtual channel are owed to the partner, 14 R476. -/
def State.owe (s : State) (p vc n : Nat) : State :=
  let x := sget (fun _ => OPort.reset) s.ports p
  { s with ports := sset (fun _ => OPort.reset) s.ports p { x with owed := sset (fun _ => 0) x.owed vc (sget (fun _ => 0) x.owed vc + n) } }

/-- A frame leaves its port's buffer: its credits return. -/
def State.leave (s : State) (f : IFrame) : State := if 8 ≤ f.lane then s.owe f.port (f.lane - 8) f.flits else s

/-- Word tags of a buffer by KIND, 14 R485. -/
def kindTag (kind i : Nat) : Tag :=
  if kind = 4 then (if i < 2 then tagU64 else tagRaw)
  else if i = 0 ∨ i = 2 then tagU64
  else if i = 1 then tagTime
  else tagRaw

/-- The writes of a buffer as slice requests of the port's master, 14 R485: whole lines as full writes, the last as a partial one. -/
def bufferWrites (f : IFrame) (pa key : Nat) : List SliceReq :=
  let n := f.data.length
  (List.range ((n + 63) / 64)).map fun l =>
    let bytes := (f.data.drop (64 * l)).take 64
    let words := (bytes.length + 7) / 8
    let op : SliceOp :=
      if bytes.length = 64 then .full ((List.range 8).map fun i => ⟨kindTag f.kind (8 * l + i), wordOf ((bytes.drop (8 * i)).take 8)⟩)
      else .part .clean (bytes.zipIdx.map fun p => (p.2, p.1)) ((List.range words).map fun i => (i, kindTag f.kind (8 * l + i)))
    { mid := 18 + f.port, pos := 0, id := 0, key := key, line := pa / 64 + l, op := op }

/-- A frame would be held back: it is dropped in SHED and in backpressure otherwise, 13 R461. -/
def State.admitStop (s : State) (q k : Nat) : Admit × State :=
  if s.qClass q = 0 then (.gone, s.qDrop q k)
  else if (s.queue q).shed then (.gone, s.qDrop q 4)
  else
    let x := s.queue q
    (.wait, if x.back.isSome then s else s.setQueue q { x with back := some s.gav.mono })

/-- Step 5 and what follows: a buffer is taken, the data written and the tokens used. -/
def State.admitTake (s : State) (f : IFrame) : Admit × State :=
  match s.shareFor (s.qTenant f.q) (s.qPool f.q) with
  | none => s.admitStop f.q 2
  | some x =>
    match s.nextFree x with
    | none => (s.countEmpty x).admitStop f.q 2
    | some h =>
      let t := s.qTenant f.q
      let u := (s.takeBuffer x h (.queued t f.q)).takeTokens t f.data.length
      let u := eachDo (bufferWrites f (s.bufferPa (s.qPool f.q) h) t) (fun r v => if v.dramBarred r.mid r.pos r.line then v else v.arrive r) u
      (.taken, { u with qm := { u.qm with admitted := u.qm.admitted ++ [(f, h)] } })

/-- Drop-head: the oldest descriptor is removed and its buffer freed, 13 R458. -/
def State.dropHead (s : State) (q : Nat) : State :=
  match (s.queue q).ring with
  | [] => s
  | d :: r => ((s.setQueue q { s.queue q with ring := r }).freeBuffer (dHandle d)).qDrop q 1

/-- The bucket refuses a frame at step 3, 13 R458. -/
def State.tokenStop (s : State) (f : IFrame) : Bool :=
  s.qValid f.q && !(s.queue f.q).fault && decide (f.data.length ≤ s.poolBuf (s.qPool f.q)) && !s.tokensFor (s.qTenant f.q) f.data.length

/-- A frame that waits from now on, or still: whether step 3 has refused it before. -/
def State.markTok (s : State) (f : IFrame) : IFrame := { f with tok := f.tok || s.tokenStop f }

/-- The admission steps of a frame, 13 R458; DROPS counts a frame the first time step 3 refuses it, 13 R467. -/
def State.judgeFrame (s : State) (f : IFrame) : Admit × State :=
  let q := f.q
  let x := s.queue q
  let t := s.qTenant q
  if !s.qValid q || x.fault then (.gone, s.count QM_NOQ QM_NOQ_COUNT 1)
  else if f.data.length > s.poolBuf (s.qPool q) then (.gone, s.qDrop q 3)
  else if !s.tokensFor t f.data.length then
    let s := if f.tok then s
      else { s with qm := { s.qm with refused := sset (fun _ => 0) s.qm.refused t (satAdd 32 (sget (fun _ => 0) s.qm.refused t) 1) } }
    s.admitStop q 0
  else if x.dropping then
    if s.qClass q = 0 ∧ QM_QCFG_HEAD.of (s.qcfg q) = 1 then (s.dropHead q).admitTake f else s.admitStop q 1
  else s.admitTake f

/-- A frame no longer waits: its queue's backpressure ends when no other frame of it waits. -/
def State.unback (s : State) (q : Nat) : State :=
  if s.qm.waiting.any fun p => (p.2.head?.map (·.q)) == some q then s
  else s.setQueue q { s.queue q with back := none }

/-- Frames that wait in a lane of a port. -/
def State.waitingAt (s : State) (p lane : Nat) : List IFrame := sget (fun _ => []) s.qm.waiting (16 * p + lane)

/-- Replace the frames that wait in a lane. -/
def State.setWaiting (s : State) (p lane : Nat) (l : List IFrame) : State :=
  { s with qm := { s.qm with waiting := sset (fun _ => []) s.qm.waiting (16 * p + lane) l } }

/-- Backpressure on an Ethernet link pauses the priority of the frame, 14 R486. -/
def State.pfcOf (s : State) (f : IFrame) (on : Bool) : State := if f.lane < 8 then s.emit (.pfc f.port f.link f.pcp on) else s

/-- Try the frames of a lane in order until one waits, 13 R458. -/
def State.retryLane (s : State) (p lane n : Nat) : State :=
  match n with
  | 0 => s
  | k + 1 =>
    match s.waitingAt p lane with
    | [] => s
    | f :: r =>
      let x := s.judgeFrame f
      match x.1 with
      | .wait => x.2.setWaiting p lane (s.markTok f :: r)
      | _ => ((((x.2.setWaiting p lane r).unback f.q).leave f).pfcOf f false).retryLane p lane k

/-- INGRESS_RETRY: the frames in backpressure in a lane of port `p` are tried again. -/
def execIngressRetry (p : Fin 6) (lane : Fin 16) (s : State) : Host.Outcome State Fault Refusal :=
  .next (s.retryLane p lane (s.waitingAt p lane).length)

/-- Where a frame waits: behind the frames of its class, or of its virtual channel. -/
def State.laneOf (s : State) (f : IFrame) : Nat := if 8 ≤ f.lane then f.lane else s.qClass f.q

/-- INGRESS_ADMIT: the oldest classified frame of port `p` passes the admission steps; `full` says that the port's receive buffer has no room for one more waiting frame. -/
def State.ingressAdmit (s : State) (p : Nat) (full : Bool) : State :=
  match s.qm.classified.find? fun f => f.port == p with
  | none => s
  | some f0 =>
    let s : State := { s with qm := { s.qm with classified := s.qm.classified.erase f0 } }
    let f := { f0 with lane := s.laneOf f0 }
    let park (s : State) (f : IFrame) : State :=
      if full && decide (f.lane < 8) then s.count (OCT_RXCNT2 p) OCT_RXCNT2_PFCOVF 1
      else (s.setWaiting p f.lane (s.waitingAt p f.lane ++ [f])).pfcOf f true
    if s.waitingAt p f.lane ≠ [] then park s f
    else
      let x := s.judgeFrame f
      match x.1 with
      | .wait => park x.2 (s.markTok f)
      | _ => x.2.leave f

/-- INGRESS_ADMIT. -/
def execIngressAdmit (p : Fin 6) (full : Bool) (s : State) : Host.Outcome State Fault Refusal := .next (s.ingressAdmit p full)

/-- A write of the buffer still waits at a slice. -/
def State.writeWaits (s : State) (f : IFrame) (h : Nat) : Bool :=
  let pa := s.bufferPa (s.qPool f.q) h
  s.mem.locks.any fun p => p.2.waiting.any fun r => r.mid == 18 + f.port && decide (pa / 64 ≤ r.line) && decide (r.line * 64 < pa + f.data.length)

/-- INGRESS_POST: the write of the oldest admitted frame of port `p` has been acknowledged, and its descriptor is posted, 13 R458. DESIGN CHOICE: a queue that
has gone into FAULT meanwhile takes no descriptor; the buffer stays QUEUED until the queue is redefined (R462). -/
def State.ingressPost (s : State) (p : Nat) : State :=
  match s.qm.admitted.find? fun x => x.1.port == p with
  | none => s
  | some (f, h) =>
    if s.writeWaits f h then s
    else
      let t : State := { s with qm := { s.qm with admitted := s.qm.admitted.erase (f, h) } }
      if (t.queue f.q).fault then t
      else if (t.queue f.q).ring.length ≥ t.qCapacity f.q then (t.freeBuffer h).qDrop f.q 1
      else t.qEnqueued f.q (descOf h f.data.length f.kind (f.port + f.entry * 8))

/-- INGRESS_POST. -/
def execIngressPost (p : Fin 6) (s : State) : Host.Outcome State Fault Refusal := .next (s.ingressPost p)

/-- SHED_ENTRY: time passes until a lossless queue that holds its port has held it for LLTIME µs, and it enters SHED, 13 R461. -/
def State.shedEntry (s : State) (q : Nat) : State :=
  let lim := QM_QCFG2_LLTIME.of (s.qcfg2 q)
  match (s.queue q).back with
  | some b =>
    if s.qClass q ≠ 0 ∧ lim ≠ 0 ∧ !(s.queue q).shed then
      let t := s.passTo (b + 1000 * lim)
      (t.setQueue q { t.queue q with shed := true }).qmErrFree 5 q (s.qTenant q)
    else s
  | none => s

/-- SHED_ENTRY. -/
def execShedEntry (q : BitVec 17) (s : State) : Host.Outcome State Fault Refusal := .next (s.shedEntry q.toNat)

/-- DESC_RAM_UE: an uncorrectable descriptor RAM entry puts the queue into FAULT, 13 R462. -/
def execDescRamUe (q : BitVec 17) (s : State) : Host.Outcome State Fault Refusal :=
  .next ((s.setQueue q.toNat { s.queue q.toNat with fault := true }).qmErrFree 3 q.toNat (s.qTenant q.toNat))

/-- DROP_RECORD_SECOND: at a whole TAI second, one record for every queue that dropped or shed, 13 R465. -/
def State.dropRecords (s : State) : State :=
  let back := s.gav.tai % 1000000000
  let qs := s.qm.queues.filter fun p => p.2.second != 0
  let subs := qs.map fun p =>
    { s.msub 0x5C07 sevWarning unitQueue p.1 p.2.second (s.qTenant p.1) with tai := s.gav.tai - back, mono := s.gav.mono - back }
  let t := eachDo qs (fun p u => u.setQueue p.1 { p.2 with second := 0 }) s
  if subs.isEmpty then t else t.submit subs

/-- DROP_RECORD_SECOND: time passes to the next whole TAI second. -/
def execDropRecordSecond (s : State) : Host.Outcome State Fault Refusal :=
  .next (s.passTo (s.gav.mono + (1000000000 - s.gav.tai % 1000000000))).dropRecords

/-- QM_CNTCLR: clears the drop counters of the selected queue and DROPS of the selected tenant, 13 R467. -/
def execQmCntclr (r : Requester) (s : State) : Host.Outcome State Fault Refusal :=
  .next (s.plat r fun s =>
    let q := s.rd QM_QSEL QM_QSEL_QUEUE
    let t := s.setQueue q { s.queue q with drops := [] }
    State.reply { t with qm := { t.qm with refused := sset (fun _ => 0) t.qm.refused (s.rd QM_TSEL QM_TSEL_TENANT) 0 } } respOk [])

/-! What a commit does to queues and shares, 13 R462 and R466, 15 R515. -/

/-- The QUEUED buffers of a queue that no descriptor of its ring names return to FREE. -/
def State.freeStray (s : State) (q : Nat) : State :=
  let named := (s.queue q).ring.map dHandle ++ (s.qm.admitted.filter fun x => x.1.q == q).map (·.2)
  let stray := (s.qm.own.filter fun p => (match p.2 with
    | some (.queued _ o) => o == q
    | _ => false) && !named.contains p.1).map (·.1)
  eachDo stray (fun h t => t.freeBuffer h) s

/-- A delta redefines or removes queue `q`: after a FAULT or a removal its QUEUED buffers return to FREE. -/
def State.requeue (s : State) (q : Nat) (removed : Bool) : State :=
  if removed || (s.queue q).fault then
    let t : State := { s with qm := { s.qm with admitted := s.qm.admitted.filter fun x => x.1.q != q } }
    (t.setQueue q { t.queue q with ring := [], fault := false, dropping := false, shed := false, back := none }).freeStray q
  else s.freeStray q

/-- A delta redefines share `n`: its buffers count as not freed since. -/
def State.reshare (s : State) (n : Nat) : State := { s with qm := { s.qm with freed := sset (fun _ => []) s.qm.freed n [] } }

/-- A delta redefines the bucket of tenant `t`: it starts full. -/
def State.rebucket (s : State) (t : Nat) : State := { s with qm := { s.qm with deficit := sset (fun _ => (0, 0)) s.qm.deficit t (0, 0) } }

end Sys2Proof.Machine
end

