-- ==== Sys2Proof/Machine/Octotte.lean ====
section
/-! DEFINITION. The ports and the Octotte fabric, 14 R468 to R483 and R490 to R498: flits, credits, routing, neighbours, lanes and links. -/
namespace Sys2Proof.Machine
open Reg

/-- CRC-32 with the IEEE 802.3 polynomial. -/
def crc32 (bs : List Nat) : Nat :=
  (bs.foldl (fun c b => (List.range 8).foldl (fun c _ => if c % 2 = 1 then (c / 2) ^^^ 0xEDB88320 else c / 2) (c ^^^ b)) 0xFFFFFFFF) ^^^ 0xFFFFFFFF

/-- Bytes as numbers. -/
def natsOf (bs : List Byte) : List Nat := bs.map (·.toNat)

/-- Numbers as bytes. -/
def toBytes (ns : List Nat) : List Byte := ns.map fun n => BitVec.ofNat 8 n

/-! A port's registers and state. -/

/-- A port. -/
def State.oport (s : State) (p : Nat) : OPort := sget (fun _ => OPort.reset) s.ports p

/-- Replace a port. -/
def State.setPort (s : State) (p : Nat) (x : OPort) : State := { s with ports := sset (fun _ => OPort.reset) s.ports p x }

/-- Change a port. -/
def State.modPort (s : State) (p : Nat) (f : OPort → OPort) : State := s.setPort p (f (s.oport p))

/-- MODE of a port, 14 R469: 0 OCT. -/
def State.portMode (s : State) (p : Nat) : Nat := s.rd (OCT_CTRL p) OCT_CTRL_MODE

/-- Number of links of a port. -/
def State.links (s : State) (p : Nat) : Nat := 2 ^ (s.portMode p - 1)

/-- RELEASE of a port. -/
def State.portReleased (s : State) (p : Nat) : Bool := s.flag (OCT_CTRL p) OCT_CTRL_RELEASE

/-- Link `l` of a port is up. -/
def State.linkUp (s : State) (p l : Nat) : Bool := bits (s.rd (OCT_STAT p) OCT_STAT_LINKUP) l 1 == 1

/-- Lanes of link `l`, 14 R469. -/
def State.linkLanes (s : State) (p l : Nat) : List Nat :=
  (List.range 8).filter fun k => k / (8 / s.links p) == l

/-- Source `k` of a port, 14 R496. -/
def octSrc (p k : Nat) : Nat := 640 + 6 * p + k

/-- A bit of OCT_ERR is set. -/
def State.octErr (s : State) (p : Nat) (f : Fld) : State := s.setErr (OCT_ERR p) f (octSrc p 4)

/-- The STATE source of a port: a link is down while released. -/
def State.linkCond (s : State) (p : Nat) : State :=
  s.setCond (octSrc p 0) (s.portReleased p && (List.range (s.links p)).any fun l => !s.linkUp p l)

/-- LINKUP of link `l` takes a value; a change fires channel 96 + p, 14 R496. -/
def State.setLinkUp (s : State) (p l : Nat) (b : Bool) : State :=
  if s.linkUp p l = b then s
  else ((s.wr (OCT_STAT p) ⟨l, 1, .ro, 0⟩ (b2n b)).wirePulse (96 + p) EVR_CH_CFG_PORT).linkCond p

/-- A lane is locked and active, or neither. -/
def State.setLane (s : State) (p k : Nat) (b : Bool) : State :=
  (s.wr (OCT_LANE p k) OCT_LANE_LOCK (b2n b)).wr (OCT_LANE p k) OCT_LANE_ACTIVE (b2n b)

/-- LANES follows the active lanes. -/
def State.countLanes (s : State) (p : Nat) : State :=
  s.wr (OCT_STAT p) OCT_STAT_LANES ((List.range 8).filter fun k => s.flag (OCT_LANE p k) OCT_LANE_ACTIVE).length

/-- NSTATE takes a value: a change asserts the neighbour source and is recorded, 14 R482. -/
def State.setNState (s : State) (p v : Nat) : State :=
  if s.rd (OCT_STAT p) OCT_STAT_NSTATE = v then s
  else
    let t := s.wr (OCT_STAT p) OCT_STAT_NSTATE v
    let t := if v = 3 then t.octErr p OCT_ERR_VERSION else t
    (t.assert (octSrc p 3)).recordReg (octSrc p 3) (unitPort p) (OCT_NBR p)

/-! Sending, 14 R471 to R477. -/

/-- Bits of the link header of ACK: the next SEQ expected, valid. -/
def OPort.ackBits (x : OPort) : Nat := x.rxSeq % 1024 * 2 ^ 20 + 2 ^ 30

/-- Emit a flit with a link header and a body. -/
def State.emitFlit (s : State) (p hdr : Nat) (body : List Byte) : State :=
  s.emit (.flit p (BitVec.ofNat 32 hdr) body (BitVec.ofNat 32 (crc32 (leBytes 4 hdr ++ natsOf body))))

/-- Send a new sequenced flit, which the retry buffer keeps, 14 R473. -/
def State.sendSeq (s : State) (p hdr : Nat) (body : List Byte) : State :=
  let x := s.oport p
  let h := hdr + x.txSeq * 2 ^ 10
  (s.setPort p { x with retry := x.retry ++ [⟨x.txSeq, h, body⟩], txSeq := (x.txSeq + 1) % 1024, unacked := 0, ackDue := s.gav.mono + 100 }).emitFlit p (h + x.ackBits) body

/-- Send again every flit of the retry buffer from `seq` on, 14 R473; REPLAYS and its source count them. -/
def State.replay (s : State) (p seq : Nat) : State :=
  let x := s.oport p
  let fl := x.retry.filter fun f => (f.seq + 1024 - seq) % 1024 < 512
  let t := eachDo fl (fun f u => u.emitFlit p (f.hdr + x.ackBits) f.body) s
  let t := t.count (OCT_RETRY p) OCT_RETRY_REPLAYS fl.length
  let sec := s.gav.mono / 1000000000
  let old := if x.replays.1 = sec then x.replays.2 else 0
  let t := t.modPort p fun y => { y with replays := (sec, old + fl.length), unacked := 0, ackDue := s.gav.mono + 100 }
  let lim := s.rd (OCT_CTRL p) OCT_CTRL_RETRYTHR
  if old ≤ lim ∧ lim < old + fl.length then
    (t.assert (octSrc p 2)).recordReg (octSrc p 2) (unitPort p) (OCT_RETRY p)
  else t

/-- Body of a CTRL flit, 14 R474. -/
def ctrlBody (x : OPort) : List Byte :=
  let cred := (List.range 8).flatMap fun v => leBytes 2 (min (sget (fun _ => 0) x.owed v) 65535)
  let nak := match x.nak with
    | some n => leBytes 2 (n + 2 ^ 15)
    | none => [0, 0]
  let lane := match x.laneCmd with
    | some (c, k) => [c, k]
    | none => [0, 0]
  toBytes (cred ++ nak ++ lane ++ List.replicate 228 0)

/-- A CTRL flit is due. -/
def OPort.ctrlDue (x : OPort) : Bool := x.nak.isSome || x.laneCmd.isSome || x.owed != []

/-- A virtual channel has a flit and a credit, 14 R476. -/
def OPort.ready (x : OPort) (v : Nat) : Bool := sget (fun _ => []) x.tx v != [] && sget (fun _ => 0) x.credit v != 0

/-- The data channels in round-robin order after the last one served, 14 R477. -/
def dataVcs (rr : Nat) : List Nat :=
  let l := [0, 4, 5, 6, 7]
  l.filter (fun v => rr < v) ++ l.filter fun v => v ≤ rr

/-- The virtual channel that sends next, 14 R477. -/
def OPort.pick (x : OPort) : Option Nat :=
  let data := (dataVcs x.rr).find? x.ready
  let ctl := [2, 3, 1].find? x.ready
  match data, ctl with
  | some d, some c => if (x.recent.filter id).length ≥ 8 then some d else some c
  | some d, none => some d
  | none, c => c

/-- Send one DATA flit of a virtual channel. -/
def State.sendData (s : State) (p v : Nat) : State :=
  let x := s.oport p
  match sget (fun _ => []) x.tx v with
  | [] => s
  | f :: r =>
    let x' := { x with tx := sset (fun _ => []) x.tx v r, credit := sset (fun _ => 0) x.credit v (sget (fun _ => 0) x.credit v - 1),
                       rr := if v = 0 ∨ 4 ≤ v then v else x.rr, recent := (decide (1 ≤ v ∧ v ≤ 3) :: x.recent).take 15 }
    let t := (s.setPort p x').sendSeq p f.hdr f.body
    match f.src with
    | some (q, w) => t.owe q w 1
    | none => t

/-- What a port sends now: a CTRL flit that is due, then DATA flits while credits and the retry buffer allow. -/
def State.pump (s : State) (p n : Nat) : State :=
  match n with
  | 0 => s
  | k + 1 =>
    let x := s.oport p
    if s.portMode p ≠ 0 ∨ !s.linkUp p 0 ∨ s.rd (OCT_STAT p) OCT_STAT_NSTATE = 3 ∨ x.retry.length ≥ 512 then s
    else if x.ctrlDue then ((s.setPort p { x with nak := none, laneCmd := none, owed := [] }).sendSeq p 2 (ctrlBody x)).pump p k
    else
      match x.pick with
      | none => s
      | some v => (s.sendData p v).pump p k

/-- Every port sends what it can; a second round sends the credits that the first returned. -/
def State.pumpAll (s : State) : State := eachDo (List.range 6 ++ List.range 6) (fun p t => t.pump p 513) s

/-! Receiving, 14 R473 to R475. -/

/-- An ACK frees the flits before it from the retry buffer. -/
def State.takeAck (s : State) (p ack : Nat) : State :=
  let x := s.oport p
  match x.retry with
  | [] => s
  | f :: _ =>
    let n := (ack + 1024 - f.seq) % 1024
    if n ≤ x.retry.length then s.setPort p { x with retry := x.retry.drop n } else s

/-- A discarded flit is counted; the first sequenced one of an error episode sends a NAK. -/
def State.discardFlit (s : State) (p : Nat) (seqd : Bool) : State :=
  let t := s.count (OCT_RETRY p) OCT_RETRY_CRCERR 1
  if seqd && !(t.oport p).naked then t.modPort p fun x => { x with naked := true, nak := some x.rxSeq } else t

/-- The neighbour is lost: any state becomes NONE. -/
def State.loseNeighbour (s : State) (p : Nat) : State := (s.modPort p fun x => { x with disc := 0 }).setNState p 0

/-- A lane leaves an OCT-mode port, 14 R493: `tell` says that this end has found the failure, and the partner is told by a DEGRADE. The lane may return once it
has stayed clean for 100 ms, and its next attempt begins 1 s later when it fails within 1 s of its last return (R494). -/
def State.degrade (s : State) (p k : Nat) (tell : Bool) : State :=
  let t := (s.wr (OCT_LANE p k) OCT_LANE_ACTIVE 0).wr (OCT_STAT p) OCT_STAT_DEGRADED 1
  let t := (t.wr (OCT_STAT p) OCT_STAT_DLANE k).countLanes p
  let t := t.modPort p fun x =>
    { x with laneCmd := if tell then some (1, k) else x.laneCmd, laneOwn := tell,
             laneDue := s.gav.mono + 100000000 + (if x.rejoined.any fun r => decide (s.gav.mono < r + 1000000000) then 1000000000 else 0) }
  ((t.octErr p OCT_ERR_LANE).assert (octSrc p 1)).recordReg (octSrc p 1) (unitPort p) (OCT_STAT p)

/-- The removed lane returns, 14 R494. -/
def State.rejoin (s : State) (p : Nat) (tell : Bool) : State :=
  let k := s.rd (OCT_STAT p) OCT_STAT_DLANE
  let t := (((s.setLane p k true).wr (OCT_STAT p) OCT_STAT_DEGRADED 0).wr (OCT_STAT p) OCT_STAT_DLANE 0).countLanes p
  let t := t.modPort p fun x => { x with laneCmd := if tell then some (2, k) else x.laneCmd, rejoined := some s.gav.mono }
  (t.assert (octSrc p 1)).recordReg (octSrc p 1) (unitPort p) (OCT_STAT p)

/-- A link goes down and starts retraining, 14 R495: the neighbour of an OCT port is lost. -/
def State.dropLink (s : State) (p l : Nat) : State :=
  if s.linkUp p l then
    let t := eachDo (s.linkLanes p l) (fun k u => u.wr (OCT_LANE p k) OCT_LANE_ACTIVE 0) s
    let t := ((t.setLinkUp p l false).countLanes p).octErr p OCT_ERR_LINKDOWN
    let t := t.modPort p fun x => { x with downAt := sset (fun _ => 0) x.downAt l s.gav.mono }
    if s.portMode p = 0 then (t.wr (OCT_STAT p) OCT_STAT_DEGRADED 0).loseNeighbour p else t
  else s

/-- The partner's DEGRADE removes a lane; for a second lane the link goes down, 14 R493 and R495. -/
def State.partnerDegrade (s : State) (p k : Nat) : State :=
  if !s.flag (OCT_STAT p) OCT_STAT_DEGRADED then s.degrade p k false
  else if s.rd (OCT_STAT p) OCT_STAT_DLANE = k then s
  else s.dropLink p 0

/-- An accepted CTRL flit: credits, a retry request and a lane command, 14 R474. -/
def State.takeCtrl (s : State) (p : Nat) (body : List Byte) : State :=
  let b := natsOf body
  let at2 (i : Nat) : Nat := b.getD i 0 + 256 * b.getD (i + 1) 0
  let t := s.modPort p fun x =>
    { x with credit := (List.range 8).foldl (fun m v => sset (fun _ => 0) m v (sget (fun _ => 0) m v + at2 (2 * v))) x.credit }
  let t := if bits (at2 16) 15 1 = 1 then t.replay p (bits (at2 16) 0 10) else t
  if b.getD 18 0 = 1 then t.partnerDegrade p (b.getD 19 0 % 8)
  else if b.getD 18 0 = 2 ∧ t.flag (OCT_STAT p) OCT_STAT_DEGRADED then t.rejoin p false
  else t

/-- An IDLE flit carries the ACK. -/
def State.sendAck (s : State) (p : Nat) : State :=
  let x := s.oport p
  (s.setPort p { x with unacked := 0, ackDue := s.gav.mono + 100 }).emitFlit p x.ackBits (List.replicate 248 0)

/-- 32 accepted flits without an ACK bring one, 14 R473. -/
def State.ackMany (s : State) (p : Nat) : State := if 32 ≤ (s.oport p).unacked then s.sendAck p else s

/-- A flit arrives at port `p`, 14 R473 and R475; a MISMATCH port carries only DISC flits (R482). -/
def State.rxFlit (s : State) (p : Nat) (f : Flit) : State :=
  if s.portMode p ≠ 0 ∨ !s.linkUp p 0 ∨ s.rd (OCT_STAT p) OCT_STAT_NSTATE = 3 then s
  else
    let h := f.hdr.toNat
    let ty := bits h 0 4
    let good := decide (f.crc.toNat = crc32 (leBytes 4 h ++ natsOf f.body)) && decide (ty < 5)
    let seqd := !(ty == 0 || ty == 3 || ty == 4)
    let t :=
      if !good then s.discardFlit p seqd
      else
        let t := if bits h 30 1 = 1 then s.takeAck p (bits h 20 10) else s
        if !seqd then t
        else if bits h 10 10 ≠ (t.oport p).rxSeq then t.discardFlit p true
        else
          let t := t.modPort p fun x => { x with rxSeq := (x.rxSeq + 1) % 1024, naked := false, unacked := x.unacked + 1 }
          if ty = 2 then t.takeCtrl p f.body
          else
            let v := bits h 4 3
            t.modPort p fun x => { x with rx := sset (fun _ => []) x.rx v (sget (fun _ => []) x.rx v ++ [(h, f.body)]) }
    t.pumpAll.ackMany p

/-- FLIT_RECEIVE: a flit arrives, and a sequenced one is accepted in order or discarded with a NAK. -/
def execFlitReceive (p : Fin 6) (f : Flit) (s : State) : Host.Outcome State Fault Refusal := .next (s.rxFlit p f)

/-- CTRL_FLIT: a flit of TYPE 2 arrives. -/
def execCtrlFlit (p : Fin 6) (f : Flit) (s : State) : Host.Outcome State Fault Refusal :=
  .next (s.rxFlit p { f with hdr := BitVec.ofNat 32 (setBits f.hdr.toNat 0 4 2) })

/-- ACK_TIMER: time passes until 100 ns after the last ACK, and an IDLE flit carries the next one, 14 R473. -/
def execAckTimer (p : Fin 6) (s : State) : Host.Outcome State Fault Refusal :=
  .next (if s.portMode p = 0 ∧ s.linkUp p 0 ∧ s.rd (OCT_STAT p) OCT_STAT_NSTATE ≠ 3 then (s.passTo (s.oport p).ackDue).sendAck p else s)

/-! Discovery, 14 R482 and 16 R531. -/

/-- The running version, which DISC flits carry. -/
def State.runVer (s : State) : Nat := s.rd UPD_STAT UPD_STAT_RUNVER

/-- Part code of a DISC flit, 16 R531. -/
def State.discPart (s : State) : Nat := 0x0192 + s.rd ID_PART ID_PART_SECMODE * 2 ^ 15

/-- DISC_SEND: time passes until 1 ms after the last DISC flit, and a released OCT port sends the next one. -/
def execDiscSend (p : Fin 6) (s : State) : Host.Outcome State Fault Refusal :=
  .next (if s.portMode p = 0 ∧ s.portReleased p ∧ s.linkUp p 0 then
      let t := s.passTo (s.oport p).discDue
      (t.modPort p fun x => { x with discDue := t.gav.mono + 1000000, unacked := 0, ackDue := t.gav.mono + 100 }).emit
        (.disc p (s.oport p).rxSeq (s.rd OCT_DID OCT_DID_DID) s.discPart s.runVer)
    else s)

/-- DISC_FLIT: the neighbour state moves, 14 R482. -/
def State.discFlit (s : State) (p : Nat) (f : DiscFlit) : State :=
  if s.portMode p ≠ 0 ∨ !s.linkUp p 0 then s
  else if !f.good then s.discardFlit p false
  else
    let s := match f.ack with
      | some a => s.takeAck p a.toNat
      | none => s
    let same := s.rd (OCT_NBR p) OCT_NBR_DID == f.did.toNat && s.rd (OCT_NBR p) OCT_NBR_PORT == f.port.toNat
    let st := s.rd (OCT_STAT p) OCT_STAT_NSTATE
    let t := s.setReg (OCT_NBR p) (BitVec.ofNat 64 (f.did.toNat + f.port.toNat * 2 ^ 18 + f.ver.toNat * 2 ^ 32))
    let t := t.modPort p fun x => { x with discIn := s.gav.mono }
    let setDisc (t : State) (n : Nat) : State := t.modPort p fun x => { x with disc := n }
    let t :=
      if absDiff f.ver.toNat s.runVer > 1 ∨ bits f.part.toNat 15 1 ≠ s.rd ID_PART ID_PART_SECMODE then (setDisc t 0).setNState p 3
      else if st = 2 then (if same then t else (setDisc t 0).setNState p 0)
      else if st = 1 then
        let n := if same then (s.oport p).disc + 1 else 1
        if n ≥ 3 then (setDisc t n).setNState p 2 else setDisc t n
      else (setDisc t 1).setNState p 1
    t.pumpAll

/-- DISC_FLIT. -/
def execDiscFlit (p : Fin 6) (f : DiscFlit) (s : State) : Host.Outcome State Fault Refusal := .next (s.discFlit p f)

/-- NEIGHBOUR_LOST: time passes until five DISC flits are missed: UP becomes NONE, and a run of good ones in SEEN begins anew, 14 R482. -/
def execNeighbourLost (p : Fin 6) (s : State) : Host.Outcome State Fault Refusal :=
  .next (let t := s.passTo ((s.oport p).discIn + 5000000)
    match s.rd (OCT_STAT p) OCT_STAT_NSTATE with
    | 2 => t.loseNeighbour p
    | 1 => t.modPort p fun x => { x with disc := 0 }
    | _ => s)

/-! Time exchange over the fabric, 14 R490. -/

/-- PTP_FLIT_SEND: time passes until 125 ms after the last PTP flit, and an OCT port sends the next one. -/
def execPtpFlitSend (p : Fin 6) (s : State) : Host.Outcome State Fault Refusal :=
  .next (if s.portMode p = 0 ∧ s.linkUp p 0 ∧ s.rd (OCT_STAT p) OCT_STAT_NSTATE ≠ 3 then
      let x := s.oport p
      let t := s.passTo x.ptpDue
      (t.setPort p { x with ptpOut := some t.gav.tai, ptpDue := t.gav.mono + 125000000, unacked := 0, ackDue := t.gav.mono + 100 }).emit
        (.ptpFlit p x.rxSeq (x.ptpOut.getD 0) (x.ptpIn.getD 0))
    else s)

/-- The clock follows port `p`, 02 R58. -/
def State.follows (s : State) (p : Nat) : Bool := s.rd GAV_TAI_CTRL GAV_TAI_CTRL_SRC == 1 && s.rd GAV_TAI_CTRL GAV_TAI_CTRL_PORT == p

/-- ASYM of a port in ns, 14 R489 (log entry 36). -/
def State.asymNs (s : State) (p : Nat) : Int := toSigned 32 (s.rd (OCT_PTP p) OCT_PTP_ASYM) / 1000

/-- TAI follows a source that leads it by `off` ns. -/
def State.followOff (s : State) (p : Nat) (off : Int) : State :=
  if s.follows p then s.followTai (((s.gav.tai : Int) + off - s.asymNs p).toNat) else s

/-- PTP_FLIT: a received PTP flit completes an exchange: the offset of the partner follows from the last two, 14 R490. -/
def State.ptpFlit (s : State) (p : Nat) (f : PtpFlit) : State :=
  if s.portMode p ≠ 0 ∨ !s.linkUp p 0 ∨ s.rd (OCT_STAT p) OCT_STAT_NSTATE = 3 then s
  else if !f.good then s.discardFlit p false
  else
    let s := match f.ack with
      | some a => s.takeAck p a.toNat
      | none => s
    let x := s.oport p
    let t := s.setPort p { x with ptpIn := some s.gav.tai }
    match x.ptpIn, x.ptpOut with
    | some i, some o =>
      let d1 : Int := (i : Int) - f.egress.toNat
      let d2 : Int := (f.ingress.toNat : Int) - o
      t.followOff p ((d2 - d1) / 2)
    | _, _ => t

/-- PTP_FLIT. -/
def execPtpFlit (p : Fin 6) (f : PtpFlit) (s : State) : Host.Outcome State Fault Refusal := .next (s.ptpFlit p f)

/-! Messages, 14 R472, R478 to R484. -/

/-- Fields of a message header, 14 R472. -/
structure MsgHdr where
  dst : Nat
  src : Nat
  dqueue : Nat
  hops : Nat
  plen : Nat
  deriving DecidableEq, Repr

/-- The header of a message's bytes. -/
def msgHdr (bs : List Byte) : MsgHdr :=
  let w0 := ofLeBytes (natsOf (bs.take 8))
  let w1 := ofLeBytes (natsOf ((bs.drop 8).take 8))
  { dst := bits w0 0 18, src := bits w0 18 18, dqueue := bits w0 36 17, hops := bits w0 53 5, plen := bits w1 0 17 }

/-- The flits of the whole message at the head of a receive buffer, and the rest. -/
def headMsg (l : List (Nat × List Byte)) : Option (List (Nat × List Byte) × List (Nat × List Byte)) :=
  match l.findIdx? fun f => bits f.1 8 1 == 1 with
  | some i => some (l.take (i + 1), l.drop (i + 1))
  | none => none

/-- The port that a message leaves on, 14 R480. -/
def State.routeMsg (s : State) (h : MsgHdr) : Option Nat :=
  let own := s.rd OCT_DID OCT_DID_DID
  let mask := if h.dst / 4096 = own / 4096 then s.rd (OCT_LOC (h.dst % 4096)) OCT_LOC_PORTMASK else s.rd (OCT_RGN (h.dst / 4096)) OCT_RGN_PORTMASK
  let l := (List.range 6).filter fun p => bits mask p 1 == 1 && s.portMode p == 0 && s.rd (OCT_STAT p) OCT_STAT_NSTATE == 2
  if l = [] then none else l[(h.src % 64 ^^^ h.dqueue % 64) % l.length]?

/-- The classifier entry of port `p` that takes a local message, 14 R484. -/
def State.classOct (s : State) (p dq : Nat) : Option Nat :=
  (List.range 32).find? fun n =>
    s.flag (OCT_CLSA p n) OCT_CLSA_VALID && s.rd (OCT_CLSA p n) OCT_CLSA_MATCH == 3 &&
      s.rd (OCT_CLSB p n) OCT_CLSB_QUEUE ≤ dq && dq ≤ s.rd (OCT_CLSB p n) OCT_CLSB_QHI

/-- A frame is classified and awaits admission. -/
def State.classify (s : State) (f : IFrame) : State := { s with qm := { s.qm with classified := s.qm.classified ++ [f] } }

/-- A message for this device arrives on port `p`, 14 R484 and R485. -/
def State.deliver (s : State) (p vc n : Nat) (bs : List Byte) : State :=
  let h := msgHdr bs
  match s.classOct p h.dqueue with
  | some e => s.classify { port := p, entry := e, kind := 4, q := h.dqueue, data := bs.take (16 + h.plen), lane := 8 + vc, flits := n, link := 0, pcp := 0, tok := false }
  | none => (s.count (OCT_RXCNT p) OCT_RXCNT_NOCLASS 1).owe p vc n

/-- A discovery or management message passes port `p` within its limit of the second, 14 R483, received or with `out` sent; otherwise it is dropped. -/
def State.admitMgmt (s : State) (p : Nat) (out : Bool) : Bool × State :=
  let x := s.oport p
  let sec := s.gav.mono / 1000000000
  let k := if out then x.mgmtOut else x.mgmt
  let n := if k.1 = sec then k.2 else 0
  let rate := s.rd (OCT_DISC p) OCT_DISC_RATE
  let lim := if s.gav.mono < x.released + 10000000000 then min rate 1000 else rate
  let t := s.setPort p (if out then { x with mgmtOut := (sec, n + 1) } else { x with mgmt := (sec, n + 1) })
  if n < lim then (true, t)
  else
    let t := t.count (OCT_DISC p) OCT_DISC_DROPS 1
    (false, if n = lim then t.octErr p OCT_ERR_DISCDROP else t)

/-- The whole message at the head of virtual channel `vc` of port `p`, 14 R480, R481 and R483; one for the Steward waits while it switches firmware, 17 R551. -/
def State.message (s : State) (p vc : Nat) : State :=
  match headMsg (sget (fun _ => []) (s.oport p).rx vc) with
  | none => s
  | some (fl, rest) =>
    let bs := fl.flatMap (·.2)
    let h := msgHdr bs
    let take (s : State) : State := s.modPort p fun x => { x with rx := sset (fun _ => []) x.rx vc rest, stuck := sset (fun _ => none) x.stuck vc none }
    let local' := h.dst == s.rd OCT_DID OCT_DID_DID
    let gone (s : State) : State := (take s).owe p vc fl.length
    let limit (s : State) (q : Nat) (out : Bool) (k : State → State) : State :=
      if vc ≠ 3 then k s
      else
        let a := s.admitMgmt q out
        if a.1 then k a.2 else gone a.2
    let forward (s : State) : State :=
      if h.hops = 31 then limit s p false fun s => (gone (s.count (OCT_FWDCNT p) OCT_FWDCNT_HOPDROP 1)).octErr p OCT_ERR_HOPS
      else
        match s.routeMsg h with
        | none => limit s p false fun s => gone (s.count (OCT_FWDCNT p) OCT_FWDCNT_NOROUTE 1)
        | some o =>
          let y := s.oport o
          if sget (fun _ => 0) y.credit vc = 0 ∨ sget (fun _ => []) y.tx vc ≠ [] then
            s.modPort p fun x => { x with stuck := sset (fun _ => none) x.stuck vc ((sget (fun _ => none) x.stuck vc).or (some s.gav.mono)) }
          else
            let w0 := ofLeBytes (natsOf (bs.take 8)) + 2 ^ 53
            let out := fl.zipIdx.map fun f =>
              ({ hdr := f.1.1 % 2 ^ 9, body := if f.2 = 0 then toBytes (leBytes 8 w0) ++ f.1.2.drop 8 else f.1.2, src := some (p, vc) } : TxFlit)
            limit s p false fun s => limit s o true fun s => (take s).modPort o fun z => { z with tx := sset (fun _ => []) z.tx vc out }
    let t :=
      if !local' then forward s
      else if vc = 3 ∧ s.rd UPD_STAT UPD_STAT_PHASE = 5 then s
      else if vc = 3 then limit s p false fun s => gone (s.emit (.mgmt p (bs.take (16 + h.plen))))
      else (take s).deliver p vc fl.length bs
    t.pumpAll

/-- MESSAGE_RECEIVE. -/
def execMessageReceive (p : Fin 6) (vc : Fin 8) (s : State) : Host.Outcome State Fault Refusal := .next (s.message p vc)

/-- TRANSIT_STUCK_DROP: time passes until a transit message has waited 10 ms at the head of its buffer for an outbound credit, and it is dropped, 14 R478. -/
def State.stuckDrop (s : State) (p vc : Nat) : State :=
  match sget (fun _ => none) (s.oport p).stuck vc, headMsg (sget (fun _ => []) (s.oport p).rx vc) with
  | some b, some (fl, rest) =>
    let t := s.passTo (b + 10000000)
    let t := (t.modPort p fun x => { x with rx := sset (fun _ => []) x.rx vc rest, stuck := sset (fun _ => none) x.stuck vc none }).owe p vc fl.length
    ((t.count (OCT_TXCNT p) OCT_TXCNT_STUCK 1).octErr p OCT_ERR_STUCK).pumpAll
  | _, _ => s

/-- TRANSIT_STUCK_DROP. -/
def execTransitStuckDrop (p : Fin 6) (vc : Fin 8) (s : State) : Host.Outcome State Fault Refusal := .next (s.stuckDrop p vc)

/-! Lanes and links, 14 R492 to R496. -/

/-- LANE_FAILURE: an OCT port goes on with seven lanes, or goes down with a second failure; an Ethernet link goes down, 14 R493 and R495. -/
def State.laneFail (s : State) (p k : Nat) : State :=
  let s := s.wr (OCT_LANE p k) OCT_LANE_LOCK 0
  if s.portMode p ≠ 0 then s.dropLink p (k / (8 / s.links p))
  else if !s.linkUp p 0 then s
  else if s.flag (OCT_STAT p) OCT_STAT_DEGRADED then (if s.rd (OCT_STAT p) OCT_STAT_DLANE = k then s else s.dropLink p 0)
  else (s.degrade p k true).pumpAll

/-- LANE_FAILURE. -/
def execLaneFailure (p : Fin 6) (k : Fin 8) (s : State) : Host.Outcome State Fault Refusal := .next (s.laneFail p k)

/-- LANE_REJOIN: time passes until the removed lane, whose failure this end found, has stayed clean for 100 ms, and it returns, 14 R494. -/
def execLaneRejoin (p : Fin 6) (s : State) : Host.Outcome State Fault Refusal :=
  .next (if s.flag (OCT_STAT p) OCT_STAT_DEGRADED && (s.oport p).laneOwn then ((s.passTo (s.oport p).laneDue).rejoin p true).pumpAll else s)

/-- LINK_DOWN. -/
def execLinkDown (p : Fin 6) (l : Fin 8) (s : State) : Host.Outcome State Fault Refusal := .next (s.dropLink p l)

/-- The lanes of a link carry traffic. -/
def State.raiseLink (s : State) (p l : Nat) : State :=
  let t := eachDo (s.linkLanes p l) (fun k u => u.setLane p k true) s
  ((t.countLanes p).setLinkUp p l true)

/-- Number of whole messages that flits end or begin, for the messages dropped with a link. -/
def msgCount (l : List Nat) : Nat := (l.filter fun h => bits h 8 1 == 1).length

/-- Frames of port `p` that still lie in the buffer of a virtual channel: classified, or in backpressure. -/
def State.heldFrames (s : State) (p : Nat) : List IFrame :=
  s.qm.classified.filter (fun f => f.port == p && s.portMode p == 0) ++ (List.range 8).flatMap fun v => s.waitingAt p (8 + v)

/-- These frames are dropped with their port's buffers. -/
def State.dropFrames (s : State) (p : Nat) : State :=
  let l := s.heldFrames p
  let t : State := { s with qm := { s.qm with classified := s.qm.classified.filter fun f => !(f.port == p && s.portMode p == 0) } }
  let t := eachDo (List.range 8) (fun v u => u.setWaiting p (8 + v) []) t
  eachDo l (fun f u => u.unback f.q) t

/-- The messages held in the retry buffer and the virtual channels are dropped and counted in STUCK, 14 R495; credits of transit messages return to the ports that
brought them. -/
def State.dropHeld (s : State) (p : Nat) : State :=
  let held := (s.heldFrames p).length
  let t := s.dropFrames p
  let x := t.oport p
  let n := msgCount ((x.retry.filter fun f => bits f.hdr 0 4 == 1).map (·.hdr)) + msgCount (x.rx.flatMap fun v => v.2.map (·.1)) +
    msgCount (x.tx.flatMap fun v => v.2.map (·.hdr)) + held
  let t := t.setPort p { x with retry := [], rx := [], tx := [], owed := [], nak := none, laneCmd := none, stuck := [] }
  let t := eachDo (x.tx.flatMap fun v => v.2.filterMap (·.src)) (fun q u => u.owe q.1 q.2 1) t
  if n = 0 then t else (t.count (OCT_TXCNT p) OCT_TXCNT_STUCK n).octErr p OCT_ERR_STUCK

/-- LINK_RETRAIN_DONE: the retraining of a link that went down succeeds, and the retry buffer is sent again, or fails 1 s after the link went down, 14 R495. -/
def execLinkRetrainDone (p : Fin 6) (l : Fin 8) (ok : Bool) (s : State) : Host.Outcome State Fault Refusal :=
  .next (if s.linkUp p l || !s.portReleased p then s
    else if ok then
      let t := s.raiseLink p l
      if s.portMode p = 0 then
        match (t.oport p).retry with
        | f :: _ => (t.replay p f.seq).pumpAll
        | [] => t.pumpAll
      else t
    else
      let t := s.passTo (sget (fun _ => 0) (s.oport p).downAt l + 1000000000)
      if s.portMode p = 0 then (t.dropHeld p).pumpAll else t)

/-- LINK_UP: a link completes training; in OCT mode the link starts anew with a credit for each flit of the partner's buffers, `sizes` by virtual channel, 14 R476 and R492. -/
def execLinkUp (p : Fin 6) (l : Fin 8) (sizes : Vector (BitVec 11) 8) (s : State) : Host.Outcome State Fault Refusal :=
  .next (if s.portReleased p && !s.linkUp p l && decide (l.val < s.links p) then
      let t := (if s.portMode p = 0 then s.dropHeld p else s).raiseLink p l
      if s.portMode p = 0 then
        (t.modPort p fun x => { OPort.reset with
          credit := (sizes.toList.zipIdx).foldl (fun m v => sset (fun _ => 0) m v.2 v.1.toNat) [],
          released := x.released, mgmt := x.mgmt, mgmtOut := x.mgmtOut, replays := x.replays, clock := x.clock,
          ackDue := t.gav.mono + 100, discDue := t.gav.mono, ptpDue := t.gav.mono }).pumpAll
      else t
    else s)

/-- RELEASE: only the Steward sets OCT_CTRL.RELEASE, and the port starts training, 14 R492. -/
def State.releasePort (s : State) (p : Nat) : State :=
  (((s.wr (OCT_CTRL p) OCT_CTRL_RELEASE 1).modPort p fun x => { x with released := s.gav.mono }).linkCond p)

/-- RELEASE. -/
def execRelease (r : Requester) (p : Fin 6) (s : State) : Host.Outcome State Fault Refusal :=
  .next (if r = .steward then (s.releasePort p).reply respOk [] else s.reply errPerm [])

/-- A commit changes the MODE of a port: it goes down and retrains in the new mode, 14 R469. -/
def State.newMode (s : State) (p m : Nat) : State :=
  let t := eachDo (List.range 8) (fun l u => u.dropLink p l) s
  let t := (t.dropHeld p).wr (OCT_CTRL p) OCT_CTRL_MODE m
  (t.setPort p { OPort.reset with released := (s.oport p).released, mgmt := (s.oport p).mgmt, mgmtOut := (s.oport p).mgmtOut }).linkCond p

/-- OCT_CNTCLR: clears OCT_RETRY to OCT_FWDCNT and the MAC counters, 14 R497. -/
def execOctCntclr (r : Requester) (p : Fin 6) (s : State) : Host.Outcome State Fault Refusal :=
  .next (s.plat r fun s =>
    (s.clearRegs ([OCT_RETRY p, OCT_RXCNT p, OCT_RXCNT2 p, OCT_TXCNT p, OCT_FWDCNT p] ++ (List.range 8).map fun l => OCT_MACCNT p l)).reply respOk [])

end Sys2Proof.Machine
end

