-- ==== Sys2Proof/Machine/Ether.lean ====
section
/-! DEFINITION. Ethernet modes and transmission, 14 R484 to R492: MAC, classifier, SV parser, boundary clock, PFC and the ports' transmit side. -/
namespace Sys2Proof.Machine
open Reg

/-! Frames. -/

/-- A big-endian number. -/
def beNat (bs : List Byte) : Nat := bs.foldl (fun x b => x * 256 + b.toNat) 0

/-- `n` bytes of a number, most significant first. -/
def beBytes (n x : Nat) : List Byte := (toBytes (leBytes n x)).reverse

/-- Bytes `[i, i + n)`. -/
def slice (bs : List Byte) (i n : Nat) : List Byte := (bs.drop i).take n

/-- A frame's 802.1Q tag, its EtherType and the offset of its payload. -/
structure EthHdr where
  tci : Option Nat
  ety : Nat
  body : Nat
  deriving DecidableEq, Repr

/-- Read the header of a frame. -/
def ethHdr (f : List Byte) : EthHdr :=
  if beNat (slice f 12 2) = 0x8100 then ⟨some (beNat (slice f 14 2)), beNat (slice f 16 2), 18⟩ else ⟨none, beNat (slice f 12 2), 14⟩

/-- The MAC accepts a frame with its FCS, 14 R486. -/
def macOk (f : List Byte) : Bool :=
  let n := f.length
  decide (64 ≤ n) && decide (n ≤ 9216) && decide (crc32 (natsOf (f.take (n - 4))) = ofLeBytes (natsOf (f.drop (n - 4)))) && (ethHdr f).ety != 0x8100

/-- Ns of `q` pause quanta of 512 bit times on a link of the port. -/
def State.quanta (s : State) (p q : Nat) : Nat := q * 512 / (1600 / 2 ^ s.portMode p)

/-- A PFC frame of the partner pauses priorities of a link, 14 R486. -/
def State.pfcFrame (s : State) (p l : Nat) (f : List Byte) : State :=
  let en := beNat (slice f 16 2)
  s.modPort p fun x =>
    { x with paused := (List.range 8).foldl (fun m i =>
        if bits en i 1 = 1 then sset (fun _ => 0) m (8 * l + i) (s.gav.mono + s.quanta p (beNat (slice f (18 + 2 * i) 2))) else m) x.paused }

/-! The boundary clock, 14 R489 and R491. -/

/-- A frame that the clock unit takes, 14 R491. -/
def State.ptpTaken (s : State) (p : Nat) (f : List Byte) : Bool :=
  let h := ethHdr f
  let da := beNat (f.take 6)
  h.ety == 0x88F7 && (da == 0x011B19000000 || da == 0x0180C200000E) && (f.getD (h.body + 4) 0).toNat == s.rd (OCT_PTP p) OCT_PTP_DOMAIN

/-- A PTP timestamp in ns. -/
def ptpStamp (bs : List Byte) : Nat := beNat (bs.take 6) * 1000000000 + beNat (slice bs 6 4)

/-- Change a port's clock. -/
def State.modClock (s : State) (p : Nat) (f : PtpClock → PtpClock) : State := s.modPort p fun x => { x with clock := f x.clock }

/-- The port follows a master whose time at the ingress instant `at'` was `m`. -/
def State.ptpSync (s : State) (p : Nat) (m : Int) (at' : Nat) : State :=
  s.followOff p (m + (s.oport p).clock.delay - (at' : Int))

/-- The clock unit takes a PTP frame of port `p`, 14 R489 (log entry 36). -/
def State.ptpFrame (s : State) (p : Nat) (f : List Byte) : State :=
  let m := f.drop (ethHdr f).body
  let ty := (m.getD 0 0).toNat % 16
  let two := bits (m.getD 6 0).toNat 1 1 == 1
  let corr : Int := toSigned 64 (beNat (slice m 8 8)) / 65536
  let seq := beNat (slice m 30 2)
  let ts := ptpStamp (m.drop 34)
  let c := (s.oport p).clock
  let now := s.gav.tai
  if ty = 0 then
    if two then s.modClock p fun c => { c with syncSeq := seq, syncIn := some now, corr := corr }
    else s.ptpSync p ((ts : Int) + corr) now
  else if ty = 8 then
    match c.syncIn with
    | some i =>
      if c.syncSeq = seq then (s.modClock p fun c => { c with syncIn := none }).ptpSync p ((ts : Int) + corr + c.corr) i else s
    | none => s
  else if ty = 2 then (s.emit (.ptpMsg p 3 seq now)).emit (.ptpMsg p 10 seq now)
  else if ty = 3 then
    match c.reqAt with
    | some t1 =>
      if c.reqSeq ≠ seq then s
      else if two then s.modClock p fun c => { c with respRx := some ts, respIn := some now, corr := corr }
      else s.modClock p fun c => { c with delay := ((now : Int) - t1 - corr) / 2, reqAt := none }
    | none => s
  else if ty = 10 then
    match c.reqAt, c.respRx, c.respIn with
    | some t1, some t2, some t4 =>
      if c.reqSeq = seq then
        s.modClock p fun c => { c with delay := ((t4 : Int) - t1 - ((ts : Int) - t2) - corr - c.corr) / 2, reqAt := none, respRx := none, respIn := none }
      else s
    | _, _, _ => s
  else s

/-- The PTP state of a port, as the best master clock algorithm decides it: a change asserts source k = 5, 14 R496. -/
def State.ptpState (s : State) (p v : Nat) : State :=
  if s.rd (OCT_PTP p) OCT_PTP_STATE = v then s
  else ((s.wr (OCT_PTP p) OCT_PTP_STATE v).assert (octSrc p 5)).recordReg (octSrc p 5) (unitPort p) (OCT_PTP p)

/-- The port runs Ethernet with its MAC enabled and link `l` up. -/
def State.ethUp (s : State) (p l : Nat) : Bool := s.portMode p != 0 && s.flag (OCT_CTRL p) OCT_CTRL_MACEN && s.linkUp p l

/-- PTP_FRAME_RECEIVE: the clock unit takes a profile PTP frame on link 0; `st` is the port state that the best master clock algorithm of Steward firmware then decides. -/
def execPtpFrameReceive (p : Fin 6) (frame : List Byte) (st : Option (Fin 6)) (s : State) : Host.Outcome State Fault Refusal :=
  .next (if s.ethUp p 0 && s.ptpTaken p frame then
      let t := s.ptpFrame p frame
      match st with
      | some v => t.ptpState p v
      | none => t
    else s)

/-- PTP_MESSAGE_SEND: Sync with Follow_Up and a peer delay request go out on link 0, 14 R489. -/
def execPtpMessageSend (p : Fin 6) (s : State) : Host.Outcome State Fault Refusal :=
  .next (if s.ethUp p 0 then
      let n := ((s.oport p).clock.reqSeq + 1) % 65536
      let t := s.modClock p fun c => { c with reqSeq := n, reqAt := some s.gav.tai, respRx := none, respIn := none }
      let t := if s.rd (OCT_PTP p) OCT_PTP_STATE = 2 then (t.emit (.ptpMsg p 0 n 0)).emit (.ptpMsg p 8 n s.gav.tai) else t
      t.emit (.ptpMsg p 2 n 0)
    else s)

/-! Sampled values, 14 R487 (log entry 37). -/

/-- One BER element: tag, content and what follows. -/
def berTlv (bs : List Byte) : Option (Nat × List Byte × List Byte) :=
  match bs with
  | t :: l :: r =>
    let n := l.toNat
    if n < 128 then (if n ≤ r.length then some (t.toNat, r.take n, r.drop n) else none)
    else
      let k := n - 128
      if k = 0 ∨ k > 3 ∨ r.length < k then none
      else
        let m := beNat (r.take k)
        let r := r.drop k
        if m ≤ r.length then some (t.toNat, r.take m, r.drop m) else none
  | _ => none

/-- The elements of a content, at most `n`. -/
def berList (n : Nat) (bs : List Byte) : Option (List (Nat × List Byte)) :=
  match n, bs with
  | _, [] => some []
  | 0, _ => none
  | k + 1, b :: bs =>
    match berTlv (b :: bs) with
    | none => none
    | some (t, c, r) => (berList k r).map fun l => (t, c) :: l

/-- What the parser takes of an ASDU: smpCnt, smpSynch and the data set. -/
structure Asdu where
  cnt : Nat
  synch : Nat
  /-- Pairs of value and quality. -/
  data : List (Nat × Nat)
  deriving DecidableEq, Repr

/-- The pairs of a data set. -/
def sampleData (n : Nat) (bs : List Byte) : List (Nat × Nat) :=
  match n with
  | 0 => []
  | k + 1 => (beNat (bs.take 4), beNat (slice bs 4 4)) :: sampleData k (bs.drop 8)

/-- Decode one ASDU, 14 R487. -/
def asduOf (bs : List Byte) : Option Asdu :=
  match berList 9 bs with
  | none => none
  | some l =>
    let f (t : Nat) : Option (List Byte) := (l.find? fun p => p.1 == t).map (·.2)
    let tags := l.map (·.1)
    let order := decide ((tags.zip (tags.drop 1)).all fun p => p.1 < p.2) && tags.all fun t => 0x80 ≤ t && t ≤ 0x88
    match f 0x80, f 0x82, f 0x83, f 0x85, f 0x87 with
    | some id, some cnt, some _, some syn, some d =>
      if order && decide (id.length ≤ 64) && decide (cnt.length = 2) && decide (syn.length = 1) && decide (d.length % 8 = 0) &&
          decide (8 ≤ d.length) && decide (d.length ≤ 256) then
        some ⟨beNat cnt, beNat syn, sampleData (d.length / 8) d⟩
      else none
    | _, _, _, _, _ => none

/-- Decode the APDU of an SV frame: 1 to 8 ASDUs. -/
def svApdu (bs : List Byte) : Option (List Asdu) :=
  match berTlv bs with
  | some (0x60, c, _) =>
    match berList 3 c with
    | none => none
    | some l =>
      match (l.find? fun p => p.1 == 0x80).map (·.2), (l.find? fun p => p.1 == 0xA2).map (·.2) with
      | some n, some sq =>
        match berList 8 sq with
        | none => none
        | some as =>
          if as.length = beNat n ∧ 1 ≤ as.length ∧ as.all fun a => a.1 == 0x30 then as.mapM fun a => asduOf a.2 else none
      | _, _ => none
  | _ => none

/-- The SV reference qualifies only on an Ethernet port with MACEN, 16 R523. -/
def State.svPortOk (s : State) : Bool :=
  let p := s.rd GAV_REFSEL GAV_REFSEL_SV_PORT
  decide (p < 6) && s.portMode p != 0 && s.flag (OCT_CTRL p) OCT_CTRL_MACEN

/-- The SV reference is lost, or its run of good cycles ends, 02 R48. -/
def State.svLost (s : State) : State := if s.refQual 2 then s.loseRef 2 else s.unqualify 2

/-- The time of the sample that `cnt` counts from the second boundary, 02 R50: the second in which it lies is that of the frame's ingress, or the one before.
Before a wrap of SmpCnt has shown the samples per second, the sample stands at its ingress (log entry 47). -/
def State.svTime (s : State) (cnt : Nat) : Nat :=
  if s.gav.svRate = 0 then s.gav.tai
  else
    let t := s.gav.tai / 1000000000 * 1000000000 + cnt * 1000000000 / s.gav.svRate
    if s.gav.tai + 500000000 < t then t - 1000000000 else t

/-- A cycle's fit of the SV reference ends, 02 R50 and R54: 64 to 512 samples per nominal cycle keep the run that qualifies it, and a qualified reference gives the
phase error of the angle that is fitted to the samples (Config.svPhase). -/
def State.svCycle (s : State) : State :=
  let n := s.gav.svSamples.length
  if n < 64 ∨ 512 < n then s.svLost
  else
    let t := { s with gav := { s.gav with svGood := min 16 (s.gav.svGood + 1) } }
    let t := if t.gav.svGood ≥ 16 ∧ !t.refQual 2 ∧ t.svPortOk then (t.setQual 2 true).reacquire else t
    if t.refQual 2 then t.measure 2 (t.phaseErr (Config.svPhase s.gav.svSamples s.gav.tai).toNat) t.rateNominal else t

/-- One ASDU of the reference stream, 02 R48 and R50: a valid one adds a sample to the cycle, after the fit of a cycle that it ends. -/
def State.svAsdu (s : State) (a : Asdu) : State :=
  match a.data[s.rd GAV_REFSEL GAV_REFSEL_SV_CHAN]? with
  | none => s.svLost
  | some d =>
    if d.2 % 4 ≠ 0 ∨ a.synch = 0 ∨ a.synch > 2 then s.svLost
    else
      let s := if s.gav.svAt + s.twoCycles < s.gav.mono then s.svLost else s
      let rate := match s.gav.svCnt with
        | some c => if a.cnt = 0 ∧ 0 < c then c + 1 else s.gav.svRate
        | none => s.gav.svRate
      let s := { s with gav := { s.gav with svAt := s.gav.mono, svCnt := some a.cnt, svRate := rate } }
      let x := (s.svTime a.cnt, toSigned 32 d.1)
      let s := match s.gav.svStart with
        | none => { s with gav := { s.gav with svStart := some x.1, svSamples := [] } }
        | some b =>
          if (x.1 - b) * s.rateNominal ≥ 10 ^ 15 then
            let t := s.svCycle
            { t with gav := { t.gav with svStart := some x.1, svSamples := [] } }
          else s
      { s with gav := { s.gav with svSamples := s.gav.svSamples ++ [x] } }

/-! Classification and reception, 14 R484 to R487. -/

/-- The classifier entry of a port that takes an Ethernet frame. -/
def State.classEth (s : State) (p l : Nat) (f : List Byte) : Option Nat :=
  let h := ethHdr f
  let appid := beNat (slice f h.body 2)
  (List.range 32).find? fun n =>
    let a := (s.reg (OCT_CLSA p n)).toNat
    let m := OCT_CLSA_MATCH.of a
    let key := OCT_CLSA_KEY.of a
    let hit := if m = 0 then h.ety == key else if m = 1 then h.ety == 0x88BA && appid == key
      else if m = 2 then h.ety == 0x88B8 && appid == key else m == 4
    OCT_CLSA_VALID.of a == 1 && hit && (OCT_CLSA_LINK.of a == 7 || OCT_CLSA_LINK.of a == l) &&
      (OCT_CLSA_VLANEN.of a == 0 || (h.tci.map (· % 4096)) == some (OCT_CLSA_VLAN.of a))

/-- KIND of a frame, 14 R485. -/
def ethKind (ety : Nat) : Nat := if ety = 0x88BA then 1 else if ety = 0x88B8 then 2 else if ety = 0x88F7 then 5 else 3

/-- The buffer of a frame without its FCS, 14 R485. -/
def State.ethBuffer (s : State) (f : List Byte) : List Byte :=
  toBytes (leBytes 8 s.gav.tai ++ leBytes 8 s.time ++ leBytes 8 f.length) ++ f

/-- A frame without its FCS matches entry `n`, 14 R484 and R487. -/
def State.ethClass (s : State) (p l n : Nat) (f : List Byte) : State :=
  let h := ethHdr f
  let sv := s.rd (OCT_CLSA p n) OCT_CLSA_MATCH == 1
  let secured := beNat (slice f (h.body + 4) 2) % 4096 != 0 || beNat (slice f (h.body + 6) 2) != 0
  let queue (s : State) : State :=
    s.classify { port := p, entry := n, kind := ethKind h.ety, q := s.rd (OCT_CLSB p n) OCT_CLSB_QUEUE, data := s.ethBuffer f, lane := 0,
                 flits := 0, link := l, pcp := (h.tci.getD 0) / 2 ^ 13, tok := false }
  if sv && !secured then
    match svApdu (f.drop (h.body + 8)) with
    | none => s.count (OCT_RXCNT p) OCT_RXCNT_SVBAD 1
    | some as =>
      let ref := s.rd GAV_REFSEL GAV_REFSEL_SV_PORT == p && s.rd GAV_REFSEL GAV_REFSEL_SV_APPID == beNat (slice f h.body 2) &&
        s.refList.contains 2
      queue (if ref then eachDo as (fun a t => t.svAsdu a) s else s)
  else queue s

/-- An Ethernet frame arrives on link `l` of port `p`, 14 R484 to R492. -/
def State.ethFrame (s : State) (p l : Nat) (f : List Byte) : State :=
  if s.portMode p = 0 ∨ !s.linkUp p l then s
  else if !s.flag (OCT_CTRL p) OCT_CTRL_MACEN then s.count (OCT_RXCNT2 p) OCT_RXCNT2_RXOFF 1
  else if !macOk f then s.count (OCT_MACCNT p l) OCT_MACCNT_RXBAD 1
  else
    let h := ethHdr f
    let op := beNat (slice f h.body 2)
    if h.ety = 0x8808 ∧ op = 0x0001 then s.count (OCT_MACCNT p l) OCT_MACCNT_PAUSE 1
    else if h.ety = 0x8808 ∧ op = 0x0101 then s.pfcFrame p l f
    else if s.ptpTaken p f then (if l = 0 then s.ptpFrame p f else s)
    else
      let g := f.take (f.length - 4)
      match s.classEth p l g with
      | none => s.count (OCT_RXCNT p) OCT_RXCNT_NOCLASS 1
      | some n => s.ethClass p l n g

/-- ETH_FRAME_RECEIVE: a frame from its destination address to its FCS. -/
def execEthFrameReceive (p : Fin 6) (l : Fin 8) (frame : List Byte) (s : State) : Host.Outcome State Fault Refusal :=
  .next (s.ethFrame p l frame)

/-! Transmission, 14 R472 and R488. -/

/-- Read `n` bytes at a physical address as the port's master; the machine firmware area answers it ERR_PERM (06 R200) and poisoned words. -/
def State.readBuffer (s : State) (pa n key : Nat) : List Byte × State :=
  (List.range ((pa % 64 + n + 63) / 64)).foldl (fun acc i =>
    let l := pa / 64 + i
    let r := if firmwareLine l then (errPerm, poisonLine, acc.2) else acc.2.cohRead l key .clean
    (acc.1 ++ (r.2.1.flatMap fun w => bytesOf w.val), r.2.2)) ([], s) |> fun r => (slice r.1 (pa % 64) n, r.2)

/-- The flits of a message, 14 R472. -/
def msgFlits (vc : Nat) (bs : List Byte) : List TxFlit :=
  let n := (bs.length + 247) / 248
  (List.range n).map fun i =>
    let b := slice bs (248 * i) 248
    { hdr := 1 + vc * 2 ^ 4 + (if i = 0 then 2 ^ 7 else 0) + (if i + 1 = n then 2 ^ 8 else 0),
      body := b ++ List.replicate (248 - b.length) 0, src := none }

/-- The message of a channel: header and payload. -/
def State.chanMsg (s : State) (a b cls : Nat) (data : List Byte) : List Byte :=
  let w0 := bits b 0 18 + s.rd OCT_DID OCT_DID_DID * 2 ^ 18 + bits b 18 17 * 2 ^ 36 + cls * 2 ^ 59
  let w1 := data.length + OCT_CHA_TENANT.of a * 2 ^ 17
  toBytes (leBytes 8 w0 ++ leBytes 8 w1) ++ data

/-- The virtual channel of a message, 14 R477. -/
def msgVc (cls vc : Nat) : Nat := if cls = 2 then 2 else if cls = 1 then 1 else vc

/-- A port sends the descriptor `d` of an OCT channel; none while it must wait. -/
def State.sendOct (s : State) (p a b cls : Nat) (data : List Byte) : Option State :=
  let bs := s.chanMsg a b cls (data.take 65520)
  let vc := msgVc cls (OCT_CHA_VC.of a)
  let h := msgHdr bs
  if h.dst = s.rd OCT_DID OCT_DID_DID then some (s.deliver p vc 0 bs)
  else
    match s.routeMsg h with
    | none => some (s.count (OCT_FWDCNT 0) OCT_FWDCNT_NOROUTE 1)
    | some o =>
      if sget (fun _ => []) (s.oport o).tx vc ≠ [] then none
      else some ((s.modPort o fun x => { x with tx := sset (fun _ => []) x.tx vc (msgFlits vc bs) }).pumpAll)

/-- A port sends a frame of an Ethernet channel: none while it must wait, 14 R486 and R488 (log entry 38). -/
def State.sendEth (s : State) (p a b : Nat) (data : List Byte) : Option State :=
  let l := OCT_CHA_LINK.of a
  let h := ethHdr data
  let vid := bits b 0 12
  let want := bits b 12 1 == 1
  let okTag := match h.tci with
    | some t => want && t % 4096 == vid
    | none => true
  if !okTag || h.ety != bits b 16 16 || decide (data.length < 14) then some (s.count (OCT_TXCNT p) OCT_TXCNT_TXREFUSE 1)
  else if !s.ethUp p l || decide (s.gav.mono < sget (fun _ => 0) (s.oport p).paused (8 * l + OCT_CHA_VC.of a)) then none
  else
    let tag := if want && h.tci.isNone then beBytes 2 0x8100 ++ beBytes 2 (OCT_CHA_VC.of a * 2 ^ 13 + vid) else []
    let f := data.take 6 ++ beBytes 6 (s.rd (OCT_MAC p l) OCT_MAC_MAC) ++ tag ++ data.drop 12
    some (s.emit (.frame p l (f ++ toBytes (leBytes 4 (crc32 (natsOf f))))))

/-- PORT_TRANSMIT: port `p` sends the oldest descriptor of the transmit queue of channel `ch` and frees its buffer; `bad` ring entries before it cannot be read. -/
def State.transmit (s : State) (p ch bad : Nat) : State :=
  let a := elemWord (s.elem 10 1 ch) 0
  let b := elemWord (s.elem 10 1 ch) 1
  let q := OCT_CHA_TXQ.of a
  if OCT_CHA_VALID.of a = 0 ∨ OCT_CHA_PORT.of a ≠ p ∨ (s.queue q).fault then s
  else
    let s := s.qSkip q bad (OCT_CHA_TENANT.of a)
    match (s.queue q).ring with
    | [] => s
    | d :: r =>
      match s.poolOf (dHandle d) with
      | none => s.setQueue q { s.queue q with ring := r }
      | some pool =>
        let x := s.readBuffer (s.bufferPa pool (dHandle d)) (bits d.toNat 24 17) (OCT_CHA_TENANT.of a)
        let sent := if s.portMode p = 0 then x.2.sendOct p a b (s.qClass q) x.1 else x.2.sendEth p a b x.1
        match sent with
        | none => s
        | some t => ((t.setQueue q { t.queue q with ring := r }).freeBuffer (dHandle d)).qDequeued q

/-- PORT_TRANSMIT. -/
def execPortTransmit (p : Fin 6) (ch : Fin 16384) (bad : Nat) (s : State) : Host.Outcome State Fault Refusal := .next (s.transmit p ch bad)

end Sys2Proof.Machine
end

