-- ==== Sys2Proof/Machine/Crypto.lean ====
section
/-! DEFINITION. The algorithms of the key engine (17 R546): SHA-384, AES-256 with GCM and XTS, and ECDSA and ECDH over P-384. -/
namespace Sys2Proof.Machine

/-! Bytes as numbers. -/

/-- A block as a number, most significant byte first, and back. -/
def beVal (bs : List Byte) : Nat := bs.foldl (fun x b => x * 256 + b.toNat) 0
def beOf (n x : Nat) : List Byte := (List.range n).map fun i => BitVec.ofNat 8 (x >>> (8 * (n - 1 - i)))

/-! SHA-384, FIPS 180-4: the digest of the key engine's commands (17 R546). A table of words stands as one number, its first word most significant. -/

/-- Word `i` of a table of `n` words. -/
def tableWord (table n i : Nat) : Word := BitVec.ofNat 64 (table >>> (64 * (n - 1 - i)))

/-- The eighty constants of the rounds, twenty to a number. -/
def shaTable (i : Nat) : Nat :=
  match i with
  | 0 => 0x428a2f98d728ae227137449123ef65cdb5c0fbcfec4d3b2fe9b5dba58189dbbc3956c25bf348b53859f111f1b605d019923f82a4af194f9bab1c5ed5da6d8118d807aa98a303024212835b0145706fbe243185be4ee4b28c550c7dc3d5ffb4e272be5d74f27b896f80deb1fe3b1696b19bdc06a725c71235c19bf174cf692694e49b69c19ef14ad2efbe4786384f25e30fc19dc68b8cd5b5240ca1cc77ac9c65
  | 1 => 0x2de92c6f592b02754a7484aa6ea6e4835cb0a9dcbd41fbd476f988da831153b5983e5152ee66dfaba831c66d2db43210b00327c898fb213fbf597fc7beef0ee4c6e00bf33da88fc2d5a79147930aa72506ca6351e003826f142929670a0e6e7027b70a8546d22ffc2e1b21385c26c9264d2c6dfc5ac42aed53380d139d95b3df650a73548baf63de766a0abb3c77b2a881c2c92e47edaee692722c851482353b
  | 2 => 0xa2bfe8a14cf10364a81a664bbc423001c24b8b70d0f89791c76c51a30654be30d192e819d6ef5218d69906245565a910f40e35855771202a106aa07032bbd1b819a4c116b8d2d0c81e376c085141ab532748774cdf8eeb9934b0bcb5e19b48a8391c0cb3c5c95a634ed8aa4ae3418acb5b9cca4f7763e373682e6ff3d6b2b8a3748f82ee5defb2fc78a5636f43172f6084c87814a1f0ab728cc702081a6439ec
  | _ => 0x90befffa23631e28a4506cebde82bde9bef9a3f7b2c67915c67178f2e372532bca273eceea26619cd186b8c721c0c207eada7dd6cde0eb1ef57d4f7fee6ed17806f067aa72176fba0a637dc5a2c898a6113f9804bef90dae1b710b35131c471b28db77f523047d8432caab7b40c724933c9ebe0a15c9bebc431d67c49c100d4c4cc5d4becb3e42b6597f299cfc657e2a5fcb6fab3ad6faec6c44198c4a475817

/-- The chaining value before the first block. -/
def shaStart : Nat := 0xcbbb9d5dc1059ed8629a292a367cd5079159015a3070dd17152fecd8f70e593967332667ffc00b318eb44a8768581511db0c2e0d64f98fa747b5481dbefa4fa4

/-- A block in progress: the eight working words, and the sixteen words of the schedule that the next rounds take, the next one first. -/
structure ShaRun where
  reg : List Word
  win : List Word

/-- A word turned right by `p` and by `q`, and a third term, added bit by bit. -/
def shaMix (x : Word) (p q : Nat) (y : Word) : Word := x.rotateRight p ^^^ x.rotateRight q ^^^ y

/-- Round `t` takes the next word of the schedule and adds the one sixteen places on. -/
def ShaRun.round (x : ShaRun) (t : Nat) : ShaRun :=
  let r (i : Nat) : Word := x.reg.getD i 0
  let m (i : Nat) : Word := x.win.getD i 0
  let choose := (r 4 &&& r 5) ||| (~~~r 4 &&& r 6)
  let most := (r 0 &&& r 1) ||| (r 2 &&& (r 0 ||| r 1))
  let now := m 0 + tableWord (shaTable (t / 20)) 20 (t % 20) + r 7 + choose + shaMix (r 4) 14 18 ((r 4).rotateRight 41)
  let far := m 0 + shaMix (m 1) 1 8 (m 1 >>> 7) + m 9 + shaMix (m 14) 19 61 (m 14 >>> 6)
  { reg := (now + most + shaMix (r 0) 28 34 ((r 0).rotateRight 39)) :: (x.reg.take 3 ++ (r 3 + now) :: (x.reg.drop 4).take 3),
    win := x.win.drop 1 ++ [far] }

/-- The chaining value after a block of sixteen words. -/
def shaStep (h : List Word) (blk : Nat) : List Word :=
  (h.zip (((List.range 80).foldl ShaRun.round ⟨h, (List.range 16).map (tableWord blk 16)⟩).reg)).map fun p => p.1 + p.2

/-- SHA-384: 48 bytes. The message as a number, a one bit, zeros, and its length in bits fill whole blocks of 1,024 bits. -/
def sha384 (bs : List Byte) : List Byte :=
  let k := (8 * bs.length + 129 + 1023) / 1024
  let x := (2 * beVal bs + 1) <<< (1024 * k - 8 * bs.length - 1) + 8 * bs.length
  let h := (List.range k).foldl (fun h i => shaStep h (x >>> (1024 * (k - 1 - i)))) ((List.range 8).map (tableWord shaStart 8))
  (h.take 6).flatMap fun w => beOf 8 w.toNat

/-! AES-256, FIPS 197. -/

/-- The S-box as one number, entry 0 most significant, and its entries. -/
def sboxTable : Nat := 0x637c777bf26b6fc53001672bfed7ab76ca82c97dfa5947f0add4a2af9ca472c0b7fd9326363ff7cc34a5e5f171d8311504c723c31896059a071280e2eb27b27509832c1a1b6e5aa0523bd6b329e32f8453d100ed20fcb15b6acbbe394a4c58cfd0efaafb434d338545f9027f503c9fa851a3408f929d38f5bcb6da2110fff3d2cd0c13ec5f974417c4a77e3d645d197360814fdc222a908846eeb814de5e0bdbe0323a0a4906245cc2d3ac629195e479e7c8376d8dd54ea96c56f4ea657aae08ba78252e1ca6b4c6e8dd741f4bbd8b8a703eb5664803f60e613557b986c11d9ee1f8981169d98e949b1e87e9ce5528df8ca1890dbfe6426841992d0fb054bb16
def sbox (b : Byte) : Byte := BitVec.ofNat 8 (sboxTable >>> (8 * (255 - b.toNat)))

/-- The inverse S-box. -/
def sboxInv (b : Byte) : Byte := BitVec.ofNat 8 (((List.range 256).find? fun i => sbox (BitVec.ofNat 8 i) == b).getD 0)

/-- Multiply by x in the field of AES. -/
def xtime (b : Byte) : Byte := if b.msb then (b <<< 1) ^^^ 0x1B else b <<< 1

/-- Multiply in the field of AES. -/
def gmul (a b : Byte) : Byte :=
  ((List.range 8).foldl (fun (p : Byte × Byte) i => (if bits b.toNat i 1 = 1 then p.1 ^^^ p.2 else p.1, xtime p.2)) (0, a)).1

/-- XOR of two byte lists. -/
def xorBytes (a b : List Byte) : List Byte := List.zipWith (fun x y => x ^^^ y) a b

/-- The key schedule: 60 words of 4 bytes; the list runs backward. -/
def aesExpand (w : List (List Byte)) (i n : Nat) : List (List Byte) :=
  match n with
  | 0 => w
  | k + 1 =>
    let t := w.getD 0 []
    let t' := if i % 8 = 0 then
        let r := (t.drop 1 ++ t.take 1).map sbox
        let rc := (List.range (i / 8 - 1)).foldl (fun b _ => xtime b) (1 : Byte)
        xorBytes r [rc, 0, 0, 0]
      else if i % 8 = 4 then t.map sbox else t
    aesExpand (xorBytes (w.getD 7 []) t' :: w) (i + 1) k

/-- The fifteen round keys of a 32-byte key. -/
def aesKeys (key : List Byte) : List (List Byte) :=
  let w := (aesExpand (((List.range 8).map fun i => (key.drop (4 * i)).take 4).reverse) 8 52).reverse
  (List.range 15).map fun r => (w.drop (4 * r)).take 4 |>.flatten

/-- ShiftRows by `k` times the row, forward or back. -/
def shiftRows (st : List Byte) (k : Nat) : List Byte := (List.range 16).map fun i => st.getD ((i + 4 * k * (i % 4)) % 16) 0

/-- MixColumns with the first row of the matrix. -/
def mixColumns (st m : List Byte) : List Byte :=
  (List.range 16).map fun i =>
    let c := i / 4 * 4
    (List.range 4).foldl (fun x j => x ^^^ gmul (st.getD (c + j) 0) (m.getD ((j + 4 - i % 4) % 4) 0)) 0

/-- Encrypt one block with the round keys. -/
def aesEnc (rk : List (List Byte)) (blk : List Byte) : List Byte :=
  let st := (List.range 13).foldl (fun st i =>
    xorBytes (mixColumns (shiftRows (st.map sbox) 1) [2, 3, 1, 1]) (rk.getD (i + 1) [])) (xorBytes blk (rk.getD 0 []))
  xorBytes (shiftRows (st.map sbox) 1) (rk.getD 14 [])

/-- Decrypt one block with the round keys. -/
def aesDec (rk : List (List Byte)) (blk : List Byte) : List Byte :=
  let st := (List.range 13).foldl (fun st i =>
    mixColumns (xorBytes ((shiftRows st 3).map sboxInv) (rk.getD (13 - i) [])) [14, 11, 13, 9]) (xorBytes blk (rk.getD 14 []))
  xorBytes ((shiftRows st 3).map sboxInv) (rk.getD 0 [])

/-- Consecutive pieces of 16 bytes, the last perhaps shorter. -/
def blocks16 (bs : List Byte) : List (List Byte) := (List.range ((bs.length + 15) / 16)).map fun i => (bs.drop (16 * i)).take 16

/-! GCM, NIST SP 800-38D. -/

/-- Multiply in the field of GHASH, with bit 0 the most significant. -/
def ghashMul (x y : Nat) : Nat :=
  ((List.range 128).foldl (fun (p : Nat × Nat) i =>
    (if bits x (127 - i) 1 = 1 then p.1 ^^^ p.2 else p.1, if p.2 % 2 = 1 then (p.2 / 2) ^^^ (0xE1 * 2 ^ 120) else p.2 / 2)) (0, y)).1

/-- Pad to whole blocks. -/
def pad16 (bs : List Byte) : List Byte := bs ++ List.replicate ((16 - bs.length % 16) % 16) 0

/-- GHASH of whole blocks. -/
def ghash (h : Nat) (bs : List Byte) : Nat := (blocks16 bs).foldl (fun y b => ghashMul (y ^^^ beVal b) h) 0

/-- The counter-mode stream over data from counter block `c`. -/
def gctr (rk : List (List Byte)) (iv : List Byte) (c : Nat) (bs : List Byte) : List Byte :=
  ((blocks16 bs).zipIdx).flatMap fun p => xorBytes p.1 (aesEnc rk (iv ++ beOf 4 (c + p.2)))

/-- The tag over additional data and ciphertext. -/
def gcmTag (rk : List (List Byte)) (iv aad ct : List Byte) : List Byte :=
  let h := beVal (aesEnc rk (List.replicate 16 0))
  let s := ghash h (pad16 aad ++ pad16 ct ++ beOf 8 (aad.length * 8) ++ beOf 8 (ct.length * 8))
  xorBytes (beOf 16 s) (aesEnc rk (iv ++ beOf 4 1))

/-- AES-256-GCM encryption with a 12-byte IV: ciphertext and tag. -/
def gcmSeal (key iv aad pt : List Byte) : List Byte × List Byte :=
  let rk := aesKeys key
  let ct := gctr rk iv 2 pt
  (ct, gcmTag rk iv aad ct)

/-- AES-256-GCM decryption: none when the tag fails. -/
def gcmOpen (key iv aad ct tag : List Byte) : Option (List Byte) :=
  let rk := aesKeys key
  if gcmTag rk iv aad ct = tag then some (gctr rk iv 2 ct) else none

/-! XTS, IEEE Std 1619. -/

/-- The next tweak. -/
def xtsNext (t : Nat) : Nat := if t ≥ 2 ^ 127 then ((t * 2) % 2 ^ 128) ^^^ 0x87 else t * 2

/-- One block under a tweak. -/
def xtsBlock (rk : List (List Byte)) (enc : Bool) (t : Nat) (b : List Byte) : List Byte :=
  let tw := (List.range 16).map fun i => BitVec.ofNat 8 (t >>> (8 * i))
  xorBytes ((if enc then aesEnc else aesDec) rk (xorBytes b tw)) tw

/-- The blocks of a data unit; a last piece shorter than 16 bytes steals from the block before it. -/
def xtsBlocks (rk : List (List Byte)) (enc : Bool) (t : Nat) (bs : List (List Byte)) : List Byte :=
  match bs with
  | [] => []
  | [b] => xtsBlock rk enc t b
  | b :: c :: r =>
    if r = [] ∧ c.length < 16 then
      let t1 := if enc then t else xtsNext t
      let t2 := if enc then xtsNext t else t
      let x := xtsBlock rk enc t1 b
      xtsBlock rk enc t2 (c ++ x.drop c.length) ++ x.take c.length
    else xtsBlock rk enc t b ++ xtsBlocks rk enc (xtsNext t) (c :: r)

/-- AES-256-XTS of a data unit. -/
def xtsRun (key1 key2 tweak data : List Byte) (enc : Bool) : List Byte :=
  let t := (aesEnc (aesKeys key2) tweak).foldr (fun b x => b.toNat + 256 * x) 0
  xtsBlocks (aesKeys key1) enc t (blocks16 data)

/-! P-384, FIPS 186-5 and SP 800-186. -/

def p384 : Nat := 0xfffffffffffffffffffffffffffffffffffffffffffffffffffffffffffffffeffffffff0000000000000000ffffffff
def n384 : Nat := 0xffffffffffffffffffffffffffffffffffffffffffffffffc7634d81f4372ddf581a0db248b0a77aecec196accc52973
def b384 : Nat := 0xb3312fa7e23ee7e4988e056be3f82d19181d9c6efe8141120314088f5013875ac656398d8a2ed19d2a85c8edd3ec2aef
def gx384 : Nat := 0xaa87ca22be8b05378eb1c71ef320ad746e1d3b628ba79b9859f741e082542a385502f25dbf55296c3a545e3872760ab7
def gy384 : Nat := 0x3617de4a96262c6f5d9e98bf9292dc29f8f41dbd289a147ce9da3113b5f0b8c00a60b1ce1d7e819d7a431d7c90ea0e5f

/-- `b ^ e` modulo `m`, from the bits of `e` below `n`. -/
def powMod (m b e n : Nat) : Nat := (List.range n).foldr (fun i x => if bits e i 1 = 1 then x * x % m * b % m else x * x % m) 1 |> fun r => r % m

/-- Inverse modulo a prime of 384 bits. -/
def invMod (m x : Nat) : Nat := powMod m (x % m) (m - 2) 384

/-- A point in Jacobian coordinates; Z = 0 is the point at infinity. -/
abbrev JPoint := Nat × Nat × Nat

/-- Subtraction modulo p. -/
def subP (a b : Nat) : Nat := (a + p384 - b % p384) % p384

/-- Double a point. -/
def jDouble (q : JPoint) : JPoint :=
  let (x, y, z) := q
  if z = 0 ∨ y = 0 then (1, 1, 0)
  else
    let zz := z * z % p384
    let m := 3 * subP x zz * (x + zz) % p384
    let yy := y * y % p384
    let s := 4 * x * yy % p384
    let x3 := subP (m * m) (2 * s)
    (x3, subP (m * subP s x3) (8 * yy * yy), 2 * y * z % p384)

/-- Add two points. -/
def jAdd (q r : JPoint) : JPoint :=
  let (x1, y1, z1) := q
  let (x2, y2, z2) := r
  if z1 = 0 then r
  else if z2 = 0 then q
  else
    let a := z1 * z1 % p384
    let b := z2 * z2 % p384
    let u1 := x1 * b % p384
    let u2 := x2 * a % p384
    let s1 := y1 * b % p384 * z2 % p384
    let s2 := y2 * a % p384 * z1 % p384
    if u1 = u2 then (if s1 = s2 then jDouble q else (1, 1, 0))
    else
      let h := subP u2 u1
      let hh := h * h % p384
      let hhh := h * hh % p384
      let v := u1 * hh % p384
      let t := subP s2 s1
      let x3 := subP (subP (t * t) hhh) (2 * v)
      (x3, subP (t * subP v x3) (s1 * hhh), z1 * z2 % p384 * h % p384)

/-- Scalar multiple. -/
def jMul (k : Nat) (q : JPoint) : JPoint :=
  (List.range 384).foldr (fun i r => let d := jDouble r; if bits k i 1 = 1 then jAdd d q else d) (1, 1, 0)

/-- Affine coordinates; the point at infinity has none. -/
def jAffine (q : JPoint) : Option (Nat × Nat) :=
  if q.2.2 = 0 then none
  else
    let i := invMod p384 q.2.2
    let ii := i * i % p384
    some (q.1 * ii % p384, q.2.1 * ii % p384 * i % p384)

/-- The point satisfies the curve equation and is not the encoding of infinity, 17 R547. -/
def onCurve (x y : Nat) : Bool := !(x == 0 && y == 0) && y * y % p384 == subP (x * x * x + b384) (3 * x)

/-- ECDSA verification of a digest, FIPS 186-5: the key engine code of 17 R547. -/
def ecdsaCode (qx qy r s e : Nat) : Nat :=
  if qx ≥ p384 ∨ qy ≥ p384 then 3
  else if !onCurve qx qy then 4
  else if r = 0 ∨ r ≥ n384 ∨ s = 0 ∨ s ≥ n384 then 2
  else
    let w := invMod n384 s
    match jAffine (jAdd (jMul (e * w % n384) (gx384, gy384, 1)) (jMul (r * w % n384) (qx, qy, 1))) with
    | some (x, _) => if x % n384 = r then 0 else 1
    | none => 1

/-- ECDH: the code of 17 R547 and the X coordinate of the product. -/
def ecdhCode (x y d : Nat) : Nat × Nat :=
  if x ≥ p384 ∨ y ≥ p384 then (3, 0)
  else if !onCurve x y then (4, 0)
  else if d = 0 ∨ d ≥ n384 then (2, 0)
  else
    match jAffine (jMul d (x, y, 1)) with
    | some (z, _) => (0, z)
    | none => (0, 0)

/-- The public point of a scalar: X then Y, 96 bytes. -/
def publicPoint (d : Nat) : List Byte :=
  match jAffine (jMul d (gx384, gy384, 1)) with
  | some (x, y) => beOf 48 x ++ beOf 48 y
  | none => List.replicate 96 0

/-- ECDSA verification of bytes: key, signature and message, 15 R503. -/
def verifySig (key sig msg : List Byte) : Nat :=
  ecdsaCode (beVal (key.take 48)) (beVal (key.drop 48)) (beVal (sig.take 48)) (beVal (sig.drop 48)) (beVal (sha384 msg))

end Sys2Proof.Machine
end

