-- ==== Sys2Proof/Machine/Bitstream.lean ====
section
/-! DEFINITION. The Pyphor bitstream (15): its parts, and the loader's checks in the order of R508. -/
namespace Sys2Proof.Machine
open Reg

/-! Configurations. -/

/-- An element of a configuration. -/
def celem (cfg : Sparse (List Word)) (ty kind key : Nat) : List Word := sget (fun _ => []) cfg (cfgKey ty kind key)

/-- The defined elements of a type and KIND by key. -/
def celems (cfg : Sparse (List Word)) (ty kind : Nat) : List (Nat × List Word) :=
  (cfg.filter fun p => cfgKey ty kind 0 ≤ p.1 && p.1 < cfgKey ty (kind + 1) 0).map fun p => (p.1 - cfgKey ty kind 0, p.2)

/-- Word `i` of an element as a number. -/
def cword (cfg : Sparse (List Word)) (ty kind key i : Nat) : Nat := elemWord (celem cfg ty kind key) i

/-- An element is defined. -/
def cdef (cfg : Sparse (List Word)) (ty kind key : Nat) : Bool := celem cfg ty kind key != []

/-- The configuration with one record applied, 15 R507. -/
def applyRec (cfg : Sparse (List Word)) (r : Rec) : Sparse (List Word) :=
  sset (fun _ => []) cfg (cfgKey r.ty r.kind r.key) (if r.remove then [] else r.words)

/-- The configuration that records leave, from another. -/
def applyRecs (cfg : Sparse (List Word)) (rs : List Rec) : Sparse (List Word) := rs.foldl applyRec cfg

/-! Record layouts, 15 R505. -/

/-- Content words, the keys from `lo` below `hi`, the most records, and the masks of the fields of each word, repeated. -/
structure RecLayout where
  words : Nat
  lo : Nat
  hi : Nat
  most : Nat
  masks : List Nat
  deriving DecidableEq, Repr

/-- The layout of a TYPE and KIND. -/
def recLayout (ty kind : Nat) : Option RecLayout :=
  match ty, kind with
  | 1, 0 => some ⟨1, 0, 256, 256, [0x3FFFFF0001]⟩
  | 2, 0 => some ⟨128, 0, 192, 192, [0x77FFFFFFFF, 0xFF1FFF00FFFFFF]⟩
  | 3, 0 => some ⟨13, 0, 16, 16, 0xFFF :: List.replicate 12 0x1FFF⟩
  | 4, 0 => some ⟨3, 0, 256, 256, [2 ^ 64 - 1, 2 ^ 64 - 1, 0xFF00FF1F1F]⟩
  | 4, 1 => some ⟨2, 64, 524288, 524224, [0xFFFFFFFF00FFFF7F, 0xFFFFFFFF]⟩
  | 5, 0 => some ⟨1, 1, 8192, 8191, [0xFFFFF]⟩
  | 6, 0 => some ⟨1, 0, 8192, 8192, [0x7FFFFFF]⟩
  | 6, 1 => some ⟨2, 0, 131072, 131072, [0xFFFFFFFF01FFFFFF, 0xFFFF7FFFFFFF]⟩
  | 6, 2 => some ⟨1, 0, 1, 1, [0xFF]⟩
  | 6, 3 => some ⟨2, 0, 192, 192, [0xFFFF000FFFFF, 0x1FFFF0001FFFF]⟩
  | 7, 0 => some ⟨1, 0, 1, 1, [0xF]⟩
  | 7, 1 => some ⟨5, 0, 1023, 1023, [0x1FFF07FF003FFFFF, 2 ^ 64 - 1, 2 ^ 64 - 1, 2 ^ 64 - 1, 3]⟩
  | 7, 2 => some ⟨1, 0, 64, 64, [0xFFFFFFFF]⟩
  | 7, 3 => some ⟨1, 0, 2048, 2048, [0xFFF]⟩
  | 8, 0 => some ⟨1, 0, 128, 128, [0x3F010F]⟩
  | 9, 0 => some ⟨1, 0, 64, 64, [0x7F]⟩
  | 10, 0 => some ⟨12, 0, 6, 6, [0x1FF07, 0x7FF07FF07FF07FF, 0x7FF07FF07FF07FF] ++ List.replicate 8 0xFFFFFFFFFFFF ++ [0]⟩
  | 10, 1 => some ⟨2, 0, 16384, 16384, [0xFFFFFFFFFF, 0x7FFFFFFFF]⟩
  | 11, 0 => some ⟨7, 0, 1, 1, [6, 0xFFFFFF073F, 0xFFF71FFF1FFF, 0x1FFF, 0xFFFFFFFF, 0x3FFF, 0]⟩
  | 11, 1 => some ⟨2, 0, 8192, 8192, [2 ^ 64 - 1, 0xFFFFFFFF003FFF3F]⟩
  | 12, 0 => some ⟨3, 0, 4096, 4096, [2 ^ 64 - 1, 2 ^ 64 - 1, 0xFFFF]⟩
  | 12, 1 => some ⟨1, 0, 16, 16, [0x7FFF]⟩
  | 12, 2 => some ⟨1, 0, 1, 1, [0xFFFFFFFF]⟩
  | 13, 0 => some ⟨2, 0, 16, 16, [2 ^ 53 - 1, 0xFFFFFFFFF000]⟩
  | 13, 1 => some ⟨2, 0, 16384, 16384, [2 ^ 53 - 1, 0xFFFFFFF3F1FFF]⟩
  | 13, 2 => some ⟨1, 0, 8192, 8192, [2 ^ 57 - 1]⟩
  | 14, 0 => some ⟨1, 0, 16, 16, [0x3FFFFFFFFFF]⟩
  | _, _ => none

/-! Parsing, 15 R499 to R502. -/

/-- A rejection: code of R508, TYPE of the frame, index of the record, and key engine code. -/
structure Reject where
  code : Nat
  frame : Nat
  record : Nat
  ke : Nat
  deriving DecidableEq, Repr

/-- A rejection with no place. -/
def rej (c : Nat) : Reject := ⟨c, 0, 0, 0⟩

/-- `n` bytes at `a` as a little-endian number. -/
def leAt (bs : List Byte) (a n : Nat) : Nat := ofLeBytes (natsOf ((bs.drop a).take n))

/-- Bytes as words; a rest shorter than 8 bytes is dropped. -/
def wordsOf (bs : List Byte) : List Word := (List.range (bs.length / 8)).map fun i => BitVec.ofNat 64 (leAt bs (8 * i) 8)

/-- A frame: TYPE, the RSV bits of its header and trailer joined, payload, and its CRC holds. -/
structure PFrame where
  ty : Nat
  rsv : Nat
  payload : List Byte
  good : Bool
  deriving DecidableEq, Repr

/-- Walk the frames from the start of `bs` up to and including End: the frames, and the bytes after it; or the first that cannot be delimited, R508 code 0x0A. -/
def walkFrames : Nat → List Byte → Except Reject (List PFrame × List Byte)
  | 0, _ => .ok ([], [])
  | n + 1, bs =>
    if bs = [] then .ok ([], [])
    else
      let ty := leAt bs 0 2
      let plen := leAt bs 4 4
      if bs.length < 8 ∨ plen % 8 ≠ 0 ∨ bs.length < 16 + plen then .error ⟨0x0A, ty, 0, 0⟩
      else
        let body := bs.take (8 + plen)
        let f : PFrame := { ty := ty, rsv := leAt bs 2 2 + leAt bs (12 + plen) 4, payload := body.drop 8,
                            good := crc32 (natsOf body) == leAt bs (8 + plen) 4 }
        if !f.good then .error ⟨0x0A, ty, 0, 0⟩
        else if ty = 0xFF then .ok ([f], bs.drop (16 + plen))
        else
          match walkFrames n (bs.drop (16 + plen)) with
          | .error e => .error e
          | .ok (l, r) => .ok (f :: l, r)

/-- Split a payload into records, R508 code 0x0C: `k` counts the records before. -/
def splitRecs (ty : Nat) : Nat → Nat → List Rec → List Word → Except Reject (List (Rec × Nat))
  | 0, _, _, _ => .ok []
  | _ + 1, _, _, [] => .ok []
  | n + 1, k, seen, h :: ws =>
    let kind := bits h.toNat 0 16
    let key := bits h.toNat 32 32
    let rm := bits h.toNat 16 1 == 1
    match recLayout ty kind with
    | none => .error ⟨0x0C, ty, k, 0⟩
    | some y =>
      let sz := if rm then 0 else y.words
      let same := seen.filter fun r => r.kind == kind
      if ws.length < sz ∨ key < y.lo ∨ key ≥ y.hi ∨ (same.any fun r => r.key == key) ∨ same.length ≥ y.most then .error ⟨0x0C, ty, k, 0⟩
      else
        let r : Rec := ⟨ty, kind, key, rm, ws.take sz⟩
        match splitRecs ty n (k + 1) (r :: seen) (ws.drop sz) with
        | .error e => .error e
        | .ok l => .ok ((r, bits h.toNat 17 15) :: l)

/-- Bits of a record outside its fields. -/
def rsvBits (r : Rec) : Bool :=
  match recLayout r.ty r.kind with
  | none => false
  | some y => (r.words.zipIdx).any fun p => p.1.toNat &&& (2 ^ 64 - 1 - y.masks.getD (p.2 % y.masks.length) 0) != 0

/-- MODE of a port in a configuration. -/
def cPortMode (cfg : Sparse (List Word)) (p : Nat) : Nat := bits (cword cfg 10 0 p 0) 0 3

/-- Bits of OCT_CHB that its channel's kind does not use, 14 R498. -/
def chbRsv (cfg : Sparse (List Word)) (r : Rec) : Bool :=
  cPortMode cfg (OCT_CHA_PORT.of (elemWord r.words 0)) != 0 &&
    (bits (elemWord r.words 1) 13 3 != 0 || bits (elemWord r.words 1) 32 32 != 0)

/-- A reserved bit or value in a record, R508 code 0x0D. -/
def recReserved (cfg : Sparse (List Word)) (r : Rec) : Bool :=
  rsvBits r ||
    (r.ty == 2 && (List.range 64).any fun n => ENG_SLOTA_MODE.of (elemWord r.words (2 * n)) == 3) ||
    (r.ty == 10 && r.kind == 1 && chbRsv cfg r) ||
    (r.ty == 12 && r.kind == 0 && !r.remove && mwReserved (mwOfElem r.words))

/-- The place of the first record of a list that fails. -/
def firstRec (rs : List (Rec × Nat)) (f : Rec × Nat → Bool) : Option Nat := rs.findIdx? f

/-! Slot tables, 01 R28 and R37. -/

/-- An enabled slot: number, angle, BANK, MODE, BUDGET, tenant and partition. -/
structure CSlot where
  num : Nat
  angle : Nat
  bank : Nat
  mode : Nat
  budget : Nat
  tenant : Nat
  part : Nat
  deriving DecidableEq, Repr

/-- The enabled slots of a table. -/
def cslots (ws : List Word) : List CSlot :=
  ((List.range 64).map fun n =>
    let a := elemWord ws (2 * n)
    let b := elemWord ws (2 * n + 1)
    (⟨n, ENG_SLOTA_ANGLE.of a, ENG_SLOTA_BANK.of a, ENG_SLOTA_MODE.of a, ENG_SLOTB_BUDGET.of b, ENG_SLOTB_TENANT.of b,
      ENG_SLOTB_PARTITION.of b⟩ : CSlot)).filter fun x => x.mode != 0

/-- Insert a slot in angle order. -/
def insSlot (x : CSlot) : List CSlot → List CSlot
  | [] => [x]
  | y :: r => if x.angle < y.angle then x :: y :: r else y :: insSlot x r

/-- FMAX of a configuration in 0.01 Hz; 7,000 without a record. -/
def cFmax (cfg : Sparse (List Word)) : Nat := if cdef cfg 11 0 0 then GAV_TRACK_FMAX.of (cword cfg 11 0 0 2) else 7000

/-- ECLK_MIN of a cluster in MHz; without a record the lowest ECLK that R505 admits. -/
def cEclkMin (cfg : Sparse (List Word)) (c : Nat) : Nat := if cdef cfg 14 0 c then bits (cword cfg 14 0 c 0) 0 16 else 1200

/-- A slot of BUDGET `b` ends within `gap` units, 01 R37. -/
def fitsGap (fmax emin b gap : Nat) : Bool := decide ((b + 8) * fmax * 2 ^ 32 ≤ gap * emin * 10 ^ 8)

/-- The angle from one slot start to the next: a whole turn to itself. -/
def gapTo (a b : Nat) : Nat := let g := (b + 2 ^ 32 - a) % 2 ^ 32; if g = 0 then 2 ^ 32 else g

/-- Every enabled slot of a table ends before the next starts, R37. -/
def tableFits (fmax emin : Nat) (l : List CSlot) : Bool :=
  let t := l.foldl (fun t x => insSlot x t) []
  (t.zipIdx).all fun p =>
    match t[p.2 + 1]? with
    | some y => decide (p.1.angle < y.angle) && fitsGap fmax emin p.1.budget (y.angle - p.1.angle)
    | none => fitsGap fmax emin p.1.budget (gapTo p.1.angle (t.head?.getD p.1).angle)

/-- The commit check of R513 for one engine: each old slot that can be running at the angle, against the first new slot that follows. -/
def commitFits (fmax emin angle : Nat) (old new : List CSlot) : Bool :=
  match new.map (fun x => (x.angle + 2 ^ 32 - angle) % 2 ^ 32) with
  | [] => true
  | d :: ds =>
    let j := (angle + ds.foldl min d) % 2 ^ 32
    old.all fun x => fitsGap fmax emin x.budget ((angle + 2 ^ 32 - x.angle) % 2 ^ 32) || fitsGap fmax emin x.budget (gapTo x.angle j)

/-! Judgement of the resulting configuration, 15 R508 codes 0x0E to 0x17: each check lists the elements that break it. -/

/-- Elements of a type and KIND that fail a test. -/
def badElems (cfg : Sparse (List Word)) (ty kind : Nat) (f : Nat → List Word → Bool) : List Nat :=
  ((celems cfg ty kind).filter fun p => f p.1 p.2).map fun p => cfgKey ty kind p.1

/-- A window entry, 01 R24. -/
structure CWin where
  valid : Bool
  lvs : Bool
  region : Nat
  leng : Nat
  base : Nat
  pages : Nat
  deriving DecidableEq, Repr

/-- A window from its element. -/
def cwin (ws : List Word) : CWin :=
  let e := elemWord ws 0 + elemWord ws 1 * 2 ^ 64
  ⟨bits e 0 1 == 1, bits e 1 1 == 1, bits e 8 8, bits e 16 8, bits e 32 36 * 4096, bits e 68 28 + 1⟩

/-- End of a window's range. -/
def CWin.top (w : CWin) : Nat := w.base + w.pages * 4096

/-- A queue is valid. -/
def cqValid (cfg : Sparse (List Word)) (q : Nat) : Bool := QM_QCFG_VALID.of (cword cfg 6 1 q 0) == 1

/-- Fields of a trigger entry that no rule admits, 02 R62 to R68. -/
def trigBad (a b : Nat) : Bool :=
  let act := GAV_TRIGB_ACTION.of b
  let tgt := GAV_TRIGB_TARGET.of b
  let abs := GAV_TRIGB_ABS.of b == 1
  let per := GAV_TRIGA_PERIOD.of a
  decide (act ≥ 6) || (GAV_TRIGB_PROMPT.of b == 1 && act != 3) || (act == 5 && !abs) || (act == 1 && abs) ||
    (act != 0 && !abs && (per == 0 || decide (GAV_TRIGA_PHASE.of a ≥ per))) ||
    (act == 1 && decide (tgt / 64 > 191)) || (act == 2 && decide (tgt > 127)) || (act == 3 && decide (tgt > 157)) ||
    (act == 4 && decide (tgt > 63)) || (act == 5 && decide (tgt > 3))

/-- A DISPATCH entry names a TRIGGERED slot of equal ANGLE, 02 R65. -/
def dispatchOk (slot : Nat → Nat → Nat) (a b : Nat) : Bool :=
  let w := slot (GAV_TRIGB_TARGET.of b / 64) (GAV_TRIGB_TARGET.of b % 64)
  ENG_SLOTA_MODE.of w == 2 && ENG_SLOTA_ANGLE.of w == GAV_TRIGA_ANGLE.of a

/-- ENG_SLOTA of a configuration. -/
def cslotA (cfg : Sparse (List Word)) (l n : Nat) : Nat := cword cfg 2 0 l (2 * n)

/-- Connection bits that a channel has, 12 R437: PIN, QUEUE, PORT, FIRE and OUT. -/
def chanBits (ch : Nat) : Nat :=
  8 + (if ch < 32 then 1 else 0) + (if 64 ≤ ch ∧ ch < 96 then 2 else 0) + (if 96 ≤ ch ∧ ch < 102 then 4 else 0) +
    (if 32 ≤ ch ∧ ch < 64 then 256 else 0)

/-- A slot's values, 01 R28: BANK 7 in any entry; an enabled one has its BUDGET, and bank 6 is tenant 0's alone. -/
def slotRange (ws : List Word) : Bool :=
  ((List.range 64).any fun n => ENG_SLOTA_BANK.of (elemWord ws (2 * n)) == 7) ||
    (cslots ws).any fun x => decide (x.budget < 4096) || ((x.bank == 6) != (x.tenant == 0))

/-- A region's values, 06 R204. -/
def regionRange (r : Region) : Bool :=
  r.mode == 3 || r.base % 2 ^ 28 != 0 || r.size % 2 ^ 28 != 0 || r.size == 0 || decide (r.base + r.size > 0x2D00000000) ||
    (r.mode == 2 && (r.res == 0 || decide (r.res > 223)))

/-- A window's values, 01 R24 and 19 R579. -/
def winRange (cfg : Sparse (List Word)) (key : Nat) (ws : List Word) : Bool :=
  let w := cwin ws
  let r := regionOfElem w.region (celem cfg 4 0 w.region)
  (key % 64 == 63 && decide (w.pages > 0xFFFFFF0)) ||
    (w.valid && (if w.lvs then decide (w.leng > 191) || decide (w.top > 0x100000)
      else decide (w.top > 0x2D00000000) ||
        (cdef cfg 4 0 w.region && !(decide (r.base ≤ w.base) && decide (w.top ≤ r.base + r.size)))))

/-- Values of the Gavotte frame's KIND 0 record, 02 R53 and R79. -/
def gavRange (ws : List Word) : Bool :=
  let t := elemWord ws 2
  let fmin := GAV_TRACK_FMIN.of t
  let fmax := GAV_TRACK_FMAX.of t
  let f := GAV_FNOM_FNOM.of (elemWord ws 3)
  decide (fmin < 4000) || decide (fmax > 7000) || decide (fmax ≤ fmin) || decide (f < fmin) || decide (fmax < f) || bits t 32 3 == 7 ||
    decide (bits t 36 12 > 1440) || decide (bits (elemWord ws 1) 8 3 > 5) || decide (elemWord ws 5 > 8192)

/-- Values of a queue, 13 R442, R459, R463 and R467. -/
def queueRange (ws : List Word) : Bool :=
  let a := elemWord ws 0
  QM_QCFG_CLASS.of a == 3 || decide (QM_QCFG_SIZE.of a > 12) || QM_QCFG2_NGRP.of (elemWord ws 1) == 255 ||
    (QM_QCFG_VALID.of a == 1 && !(decide (QM_QCFG_LOWM.of a < QM_QCFG_HIWM.of a) &&
      decide (QM_QCFG_HIWM.of a ≤ 2 ^ (QM_QCFG_SIZE.of a + 4) - 1)))

/-- Values of a channel, 14 R488 and R498. -/
def chanRange (cfg : Sparse (List Word)) (ws : List Word) : Bool :=
  let a := elemWord ws 0
  let p := OCT_CHA_PORT.of a
  let m := cPortMode cfg p
  let et := OCT_CHB_ETYPE.of (elemWord ws 1)
  OCT_CHA_VALID.of a == 1 && (decide (p > 5) ||
    (if m = 0 then QM_QCFG_CLASS.of (cword cfg 6 1 (OCT_CHA_TXQ.of a) 0) == 0 && decide (1 ≤ OCT_CHA_VC.of a) && decide (OCT_CHA_VC.of a ≤ 3)
     else decide (et < 0x600) || et == 0x88F7 || decide (2 ^ (m - 1) ≤ OCT_CHA_LINK.of a)))

/-- Flits of VC `v` in a port record. -/
def vcFlits (ws : List Word) (v : Nat) : Nat := bits (elemWord ws (1 + v / 4)) (16 * (v % 4)) 11

/-- Elements with a value out of range, R508 code 0x0E. -/
def rangeBad (cfg : Sparse (List Word)) : List Nat :=
  badElems cfg 2 0 (fun _ ws => slotRange ws) ++
  badElems cfg 4 0 (fun n ws => regionRange (regionOfElem n ws)) ++
  badElems cfg 4 1 (winRange cfg) ++
  badElems cfg 5 0 (fun _ ws => decide (bits (elemWord ws 0) 8 12 > 2048)) ++
  badElems cfg 6 0 (fun _ ws => decide (bits (elemWord ws 0) 0 17 + bits (elemWord ws 0) 17 10 + 1 > 131072)) ++
  badElems cfg 6 1 (fun _ ws => queueRange ws) ++
  badElems cfg 6 3 (fun _ ws => decide (OCT_CLSA_MATCH.of (elemWord ws 0) > 4)) ++
  badElems cfg 7 0 (fun _ ws =>
    let k := IC_CTRL_SPLIT.of (elemWord ws 0)
    if IC_CTRL_SCHEME.of (elemWord ws 0) = 0 then k != 0 else k == 0 || decide (k > 5)) ++
  badElems cfg 7 1 (fun i ws => IC_SRC_CFG_LEV.of (elemWord ws 0) == 3 ||
    (i == 255 && !(IC_SRC_CFG_LEV.of (elemWord ws 0) == 1 || bits (elemWord ws 4) 0 1 == 1))) ++
  badElems cfg 7 2 (fun _ ws => bits (elemWord ws 0) 16 16 != 0) ++
  badElems cfg 7 3 (fun _ ws => decide (elemWord ws 0 > 2048)) ++
  badElems cfg 8 0 (fun ch ws => (elemWord ws 0 % 2 ^ 16) &&& (0xFFFF - chanBits ch) != 0 || decide (bits (elemWord ws 0) 16 6 > 51)) ++
  badElems cfg 9 0 (fun n ws => decide (n > 31) || decide (PIN_CFG_FUNC.of (elemWord ws 0) > 3) || PIN_CFG_PULL.of (elemWord ws 0) == 3) ++
  badElems cfg 10 0 (fun _ ws => decide (bits (elemWord ws 0) 0 3 > 4) || (List.range 8).any fun v => decide (vcFlits ws v < 16)) ++
  badElems cfg 10 1 (fun _ ws => chanRange cfg ws) ++
  badElems cfg 11 0 (fun _ ws => gavRange ws) ++
  badElems cfg 11 1 (fun n ws => decide (n ≥ bits (cword cfg 11 0 0 5) 0 14) || trigBad (elemWord ws 0) (elemWord ws 1) ||
    (GAV_TRIGB_PROMPT.of (elemWord ws 1) == 1 && IC_SRC_CFG_LEV.of (cword cfg 7 1 (258 + GAV_TRIGB_TARGET.of (elemWord ws 1)) 0) != 2)) ++
  badElems cfg 13 0 (fun _ ws => decide (QM_POOLA_BUFSZ.of (elemWord ws 0) > 8) ||
    decide (QM_POOLA_HBASE.of (elemWord ws 0) + QM_POOLA_COUNT.of (elemWord ws 0) > 2 ^ 24)) ++
  badElems cfg 13 2 (fun _ ws => QM_TB_EN.of (elemWord ws 0) == 1 && QM_TB_BURST.of (elemWord ws 0) == 0) ++
  badElems cfg 14 0 (fun _ ws =>
    let lo := bits (elemWord ws 0) 0 16
    let hi := bits (elemWord ws 0) 16 16
    lo % 25 != 0 || hi % 25 != 0 || decide (lo < 1200) || decide (hi > 1600) || decide (hi < lo) || decide (bits (elemWord ws 0) 32 10 < 30))

/-- Partition of a tenant; tenant 0 is in partition 0 (01 R20). -/
def cTenPart (cfg : Sparse (List Word)) (t : Nat) : Nat := bits (cword cfg 5 0 t 0) 0 8

/-- A tenant is defined; tenant 0 always is. -/
def cTenDef (cfg : Sparse (List Word)) (t : Nat) : Bool := t == 0 || cdef cfg 5 0 t

/-- A partition is defined; partition 0 always is (01 R20). -/
def cPartDef (cfg : Sparse (List Word)) (p : Nat) : Bool := p == 0 || bits (cword cfg 1 0 p 0) 0 1 == 1

/-- CLUSTERMASK and PORTMASK of a partition; partition 0 without a record has every cluster and port, and an undefined one is no break of code 0x0F. -/
def cMasks (cfg : Sparse (List Word)) (p : Nat) : Nat × Nat :=
  let w := cword cfg 1 0 p 0
  if bits w 0 1 = 1 then (bits w 16 16, bits w 32 6) else (0xFFFF, 0x3F)

/-- Elements that break R21 or a mask, R508 code 0x0F. -/
def partBad (cfg : Sparse (List Word)) : List Nat :=
  badElems cfg 2 0 (fun l ws => (cslots ws).any fun x =>
    (cTenDef cfg x.tenant && cTenPart cfg x.tenant != x.part) || bits (cMasks cfg x.part).1 (l / 12) 1 == 0) ++
  badElems cfg 4 1 (fun k ws =>
    let w := cwin ws
    let p := cTenPart cfg (k / 64)
    w.valid && cTenDef cfg (k / 64) && (if w.lvs then bits (cMasks cfg p).1 (w.leng / 12) 1 == 0
      else cdef cfg 4 0 w.region && (regionOfElem 0 (celem cfg 4 0 w.region)).partition != p)) ++
  badElems cfg 5 0 (fun _ ws => bits (elemWord ws 0) 0 8 == 0) ++
  badElems cfg 6 2 (fun _ ws =>
    cdef cfg 4 0 (elemWord ws 0) && (regionOfElem 0 (celem cfg 4 0 (elemWord ws 0))).partition != 0) ++
  badElems cfg 6 3 (fun k ws =>
    let lo := OCT_CLSB_QUEUE.of (elemWord ws 1)
    let hi := if OCT_CLSA_MATCH.of (elemWord ws 0) = 3 then OCT_CLSB_QHI.of (elemWord ws 1) else lo
    OCT_CLSA_VALID.of (elemWord ws 0) == 1 && (celems cfg 6 1).any fun q =>
      decide (lo ≤ q.1) && decide (q.1 ≤ hi) && QM_QCFG_VALID.of (elemWord q.2 0) == 1 &&
        bits (cMasks cfg (cTenPart cfg (QM_QCFG_TENANT.of (elemWord q.2 0)))).2 (k / 32) 1 == 0)

/-- A range: a group, its ends, an owner whose own ranges may overlap, and the element. -/
structure CSpan where
  grp : Nat
  lo : Nat
  hi : Nat
  own : Option Nat
  elt : Nat
  deriving DecidableEq, Repr

/-- Two ranges that may not overlap do. -/
def CSpan.clash (a b : CSpan) : Bool :=
  a.grp == b.grp && decide (a.lo < b.hi) && decide (b.lo < a.hi) && !(a.own.isSome && a.own == b.own)

/-- Of each two ranges that overlap the later one, or the earlier where the bitstream holds only that. -/
def clashes (has : Nat → Bool) : List CSpan → List Nat
  | [] => []
  | a :: r => ((r.filter a.clash).map fun b => if !has b.elt && has a.elt then a.elt else b.elt) ++ clashes has r

/-- Overlaps, R508 code 0x10; `has` tells the elements that the bitstream holds. -/
def overlapBad (has : Nat → Bool) (cfg : Sparse (List Word)) : List Nat :=
  clashes has ((celems cfg 4 0).map fun p => ⟨0, elemWord p.2 0, elemWord p.2 0 + elemWord p.2 1, none, cfgKey 4 0 p.1⟩) ++
  clashes has (((celems cfg 4 1).filter fun p => (cwin p.2).valid).map fun p =>
    let w := cwin p.2
    ⟨if w.lvs then 1 + w.leng else 0, w.base, w.top, some (p.1 / 64), cfgKey 4 1 p.1⟩) ++
  clashes has ((celems cfg 6 0).map fun p => ⟨0, bits (elemWord p.2 0) 0 17, bits (elemWord p.2 0) 0 17 + bits (elemWord p.2 0) 17 10 + 1, none, cfgKey 6 0 p.1⟩) ++
  clashes has ((celems cfg 13 0).map fun p =>
    ⟨0, QM_POOLA_HBASE.of (elemWord p.2 0), QM_POOLA_HBASE.of (elemWord p.2 0) + QM_POOLA_COUNT.of (elemWord p.2 0), none, cfgKey 13 0 p.1⟩) ++
  clashes has ((celems cfg 13 0).map fun p =>
    let b := QM_POOLB_BASE.of (elemWord p.2 1) * 4096
    ⟨0, b, b + QM_POOLA_COUNT.of (elemWord p.2 0) * 2 ^ (QM_POOLA_BUFSZ.of (elemWord p.2 0) + 8), none, cfgKey 13 0 p.1⟩) ++
  clashes has ((celems cfg 13 1).map fun p =>
    ⟨0, QM_SHA_SHBASE.of (elemWord p.2 0), QM_SHA_SHBASE.of (elemWord p.2 0) + QM_SHA_SHCOUNT.of (elemWord p.2 0), none, cfgKey 13 1 p.1⟩)

/-- Vectors of a function. -/
def fnVectors (cfg : Sparse (List Word)) (f : Nat) : List Nat :=
  ((celems cfg 7 3).filter fun p => elemWord p.2 0 == f).map (·.1)

/-- Bytes of the rings of a queue map, 13 R443. -/
def cRingBytes (cfg : Sparse (List Word)) : Nat :=
  (((celems cfg 6 1).filter fun p => QM_QCFG_VALID.of (elemWord p.2 0) == 1).map fun p => 2 ^ (QM_QCFG_SIZE.of (elemWord p.2 0) + 7)).sum

/-- Limits exceeded, R508 code 0x11. -/
def capacityBad (cfg : Sparse (List Word)) : List Nat :=
  badElems cfg 4 0 (fun n ws => (List.range 256).any fun p => (regionOfElem n ws).uses p &&
    decide ((((regionsIn cfg).filter fun q => q.uses p).map Region.share).sum > 11796480)) ++
  badElems cfg 4 0 (fun n ws =>
    let r := regionOfElem n ws
    r.mode == 2 && decide ((((regionsIn cfg).filter fun q => q.mode == 2 && q.slice == r.slice).map Region.res).sum > 223)) ++
  badElems cfg 6 2 (fun _ ws => cdef cfg 4 0 (elemWord ws 0) && decide (cRingBytes cfg > cword cfg 4 0 (elemWord ws 0) 1)) ++
  badElems cfg 7 3 (fun _ ws => decide ((fnVectors cfg (elemWord ws 0)).length > 1024)) ++
  badElems cfg 10 0 (fun _ ws => decide (((List.range 8).map (vcFlits ws)).sum > 1024))

/-- Slot tables that break R37, R508 code 0x12. -/
def timingBad (cfg : Sparse (List Word)) : List Nat :=
  badElems cfg 2 0 fun l ws => !tableFits (cFmax cfg) (cEclkMin cfg (l / 12)) (cslots ws)

/-- Members of the chain whose head is active index `h`: the indices that consecutive enabled links join, 05 R179. -/
def cChain (links h : Nat) : Nat → List Nat
  | 0 => [h]
  | n + 1 => h :: (if bits links h 1 = 1 then cChain links ((h + 1) % 12) n else [])

/-- An index heads a chain. -/
def cHead (links i : Nat) : Bool := bits links i 1 == 1 && bits links ((i + 11) % 12) 1 == 0

/-- Chain topologies that break R179, R508 code 0x13. -/
def chainBad (cfg : Sparse (List Word)) : List Nat :=
  badElems cfg 3 0 fun c ws =>
    let links := bits (elemWord ws 0) 0 12
    links == 0xFFF || (List.range 12).any fun h => cHead links h &&
      !((cChain links h 11).all fun i => (cslots (celem cfg 2 0 (12 * c + i))).any fun x => x.tenant == elemWord ws (1 + h))

/-- Microcode that breaks R300, R508 code 0x14. -/
def microBad (cfg : Sparse (List Word)) : List Nat :=
  let mem (a : Nat) : Mw := mwOfElem (celem cfg 12 0 (a - 0x5000))
  badElems cfg 12 0 (fun k ws => !mwOk (mwOfElem ws) || mpCycle mem mpFuel (0x5000 + k) [] [(0x5000 + k, [])]) ++
  badElems cfg 12 1 (fun _ ws => bits (elemWord ws 0) 0 1 == 1 && !mpAll mem mpFuel [] [⟨0x5000 + bits (elemWord ws 0) 1 12, [], 0, 0, 0⟩])

/-- A queue is the transmit queue of a channel, 14 R488. -/
def isTxq (cfg : Sparse (List Word)) (q : Nat) : Bool :=
  (celems cfg 10 1).any fun p => OCT_CHA_VALID.of (elemWord p.2 0) == 1 && OCT_CHA_TXQ.of (elemWord p.2 0) == q

/-- A share lies in its pool, and a DRAM window of its tenant covers it, 13 R453. -/
def shareOk (cfg : Sparse (List Word)) (x : Share) : Bool :=
  let a := cword cfg 13 0 x.pool 0
  let pa := QM_POOLB_BASE.of (cword cfg 13 0 x.pool 1) * 4096 + (x.base - QM_POOLA_HBASE.of a) * 2 ^ (QM_POOLA_BUFSZ.of a + 8)
  let w := cwin (celem cfg 4 1 (x.tenant * 64 + x.win))
  let len := x.count * 2 ^ (QM_POOLA_BUFSZ.of a + 8)
  cdef cfg 13 0 x.pool && cTenDef cfg x.tenant && decide (QM_POOLA_HBASE.of a ≤ x.base) &&
    decide (x.base + x.count ≤ QM_POOLA_HBASE.of a + QM_POOLA_COUNT.of a) &&
    (x.tenant == 0 || (w.valid && !w.lvs && w.base + x.woff * 4096 == pa && decide (x.woff * 4096 + len ≤ w.pages * 4096)))

/-- Undefined elements that a configuration names, R508 code 0x17. -/
def refBad (cfg : Sparse (List Word)) : List Nat :=
  badElems cfg 2 0 (fun _ ws => (cslots ws).any fun x => !cPartDef cfg x.part || !cTenDef cfg x.tenant) ++
  badElems cfg 3 0 (fun _ ws => (List.range 12).any fun h => elemWord ws (1 + h) != 0 && !cHead (elemWord ws 0) h) ++
  badElems cfg 4 0 (fun n ws => !cPartDef cfg (regionOfElem n ws).partition) ++
  badElems cfg 4 1 (fun k ws => (cwin ws).valid && (!cTenDef cfg (k / 64) || (!(cwin ws).lvs && !cdef cfg 4 0 (cwin ws).region))) ++
  badElems cfg 5 0 (fun _ ws => !cPartDef cfg (bits (elemWord ws 0) 0 8)) ++
  badElems cfg 6 0 (fun t _ => !cTenDef cfg t) ++
  badElems cfg 6 1 (fun q ws =>
    let t := QM_QCFG_TENANT.of (elemWord ws 0)
    let r := cword cfg 6 0 t 0
    QM_QCFG_VALID.of (elemWord ws 0) == 1 && (!cTenDef cfg t || !cdef cfg 6 0 t || decide (q < bits r 0 17) ||
      decide (q > bits r 0 17 + bits r 17 10) || !((sharesIn cfg).any fun x => x.tenant == t && x.pool == QM_QCFG_POOL.of (elemWord ws 0)) ||
      !cdef cfg 6 2 0)) ++
  badElems cfg 6 2 (fun _ ws => !cdef cfg 4 0 (elemWord ws 0)) ++
  badElems cfg 6 3 (fun _ ws =>
    let lo := OCT_CLSB_QUEUE.of (elemWord ws 1)
    OCT_CLSA_VALID.of (elemWord ws 0) == 1 && (if OCT_CLSA_MATCH.of (elemWord ws 0) = 3
      then (celems cfg 6 1).any fun q => decide (lo ≤ q.1) && decide (q.1 ≤ OCT_CLSB_QHI.of (elemWord ws 1)) && isTxq cfg q.1
      else !cqValid cfg lo || isTxq cfg lo)) ++
  badElems cfg 7 1 (fun _ ws =>
    let lev := IC_SRC_CFG_LEV.of (elemWord ws 0)
    let vf := if lev = 0 then bits (cword cfg 5 0 (IC_SRC_CFG_TENANT.of (elemWord ws 0)) 0) 8 12 else 0
    bits (elemWord ws 4) 1 1 == 1 && (lev != 0 || vf != 0) && cword cfg 7 3 (IC_SRC_CFG_VEC.of (elemWord ws 0)) 0 != vf) ++
  badElems cfg 10 1 (fun _ ws =>
    let q := OCT_CHA_TXQ.of (elemWord ws 0)
    OCT_CHA_VALID.of (elemWord ws 0) == 1 && !(cqValid cfg q && QM_QCFG_TENANT.of (cword cfg 6 1 q 0) == OCT_CHA_TENANT.of (elemWord ws 0))) ++
  badElems cfg 11 1 (fun _ ws => GAV_TRIGB_ACTION.of (elemWord ws 1) == 1 && !dispatchOk (cslotA cfg) (elemWord ws 0) (elemWord ws 1)) ++
  badElems cfg 13 1 (fun n ws => !shareOk cfg (shareOfElem n ws))

/-! The checks that read the running machine. -/

/-- A tenant is resident in a bank, or holds HELD or QUEUED buffers, R508 code 0x16. -/
def State.tenantBusy (s : State) (t : Nat) : Bool :=
  ((List.range 208).any fun e => (List.range 6).any fun b => s.bankTenant e b == t) ||
    s.qm.own.any fun p => match p.2 with
      | some (.held u _) => u == t
      | some (.queued u _) => u == t
      | none => false

/-- What fixes the lines of a region, 16 R525. -/
def regionShape (ws : List Word) : List Nat := [elemWord ws 0, elemWord ws 1, bits (elemWord ws 2) 0 13]

/-- Elements of a delta that may not change now, R508 code 0x16. -/
def State.residentBad (s : State) (cfg : Sparse (List Word)) : List Nat :=
  badElems s.cfg 5 0 (fun t ws => (!cdef cfg 5 0 t || cTenPart cfg t != bits (elemWord ws 0) 0 8) && s.tenantBusy t) ++
  badElems s.cfg 4 0 (fun n ws => regionShape (celem cfg 4 0 n) != regionShape ws &&
    (celems s.cfg 4 1).any fun p => (cwin p.2).valid && !(cwin p.2).lvs && (cwin p.2).region == n)

/-- A bitstream holds a record of an element. -/
def holdsElem (rs : List Rec) (k : Nat) : Bool := rs.any fun r => cfgKey r.ty r.kind r.key == k

/-- The place of an element: its frame, and its record in a bitstream (0 for an element that the bitstream does not hold, log entry 67). -/
def recPlace (rs : List Rec) (k : Nat) : Nat × Nat :=
  let ty := k / 2 ^ 36
  (ty, ((rs.filter fun r => r.ty == ty).findIdx? fun r => cfgKey r.ty r.kind r.key == k).getD 0)

/-- The earlier of two places. -/
def minPlace (a b : Nat × Nat) : Nat × Nat := if b.1 < a.1 ∨ (b.1 = a.1 ∧ b.2 < a.2) then b else a

/-- The first check of a list that some element breaks, with the first failing record, 15 R508. -/
def firstBad (rs : List Rec) : List (Nat × List Nat) → Option Reject
  | [] => none
  | (_, []) :: r => firstBad rs r
  | (c, k :: ks) :: _ =>
    let own := (k :: ks).filter (holdsElem rs)
    let l := if own = [] then k :: ks else own
    let p := l.foldl (fun m x => minPlace m (recPlace rs x)) (recPlace rs (l.headD k))
    some ⟨c, p.1, p.2, 0⟩

/-- Codes 0x0E to 0x17 on the configuration that would result; `tys` are the types of the frames, and a delta holds no frame 0x000C, with records or without (08 R302); `stage` tells STAGE from start-up. -/
def State.judge (s : State) (rs : List Rec) (tys : List Nat) (delta stage : Bool) : Option Reject :=
  let cfg := applyRecs (if delta then s.cfg else []) rs
  let pre := firstBad rs [(0x0E, rangeBad cfg), (0x0F, partBad cfg), (0x10, overlapBad (holdsElem rs) cfg), (0x11, capacityBad cfg), (0x12, timingBad cfg),
    (0x13, chainBad cfg), (0x14, microBad cfg)]
  let keys (f : Rec → Bool) := (rs.filter f).map fun r => cfgKey r.ty r.kind r.key
  match pre with
  | some e => some e
  | none =>
    if delta != stage then some (rej 0x15)
    else if delta && tys.contains 12 then some ⟨0x15, 12, 0, 0⟩
    else firstBad rs [(0x15, keys fun r => !delta && r.remove),
      (0x16, if delta then s.residentBad cfg else []), (0x17, refBad cfg)]

/-- A parsed bitstream: DELTA, SEQ, BASESEQ and its records. -/
structure PStream where
  delta : Bool
  seq : Nat
  base : Nat
  recs : List Rec
  /-- Types of its frames. -/
  tys : List Nat
  deriving DecidableEq, Repr

/-- Codes 0x0A to 0x0D over the bytes of the frames. -/
def parseFrames (base : Sparse (List Word)) (delta : Bool) (bs : List Byte) : Except Reject (List Rec × List Nat) :=
  match walkFrames (bs.length + 1) bs with
  | .error e => .error e
  | .ok (fs, after) =>
    let tys := fs.map (·.ty)
    let body := tys.dropLast
    let known (t : Nat) : Bool := decide (1 ≤ t) && decide (t ≤ 14)
    if tys.getLast? ≠ some 0xFF ∨ after ≠ [] ∨ !body.all known ∨ !decide (body.Pairwise (· < ·)) ∨
        (if delta then body.isEmpty else ((List.range 14).any fun i => i + 1 != 12 && !body.contains (i + 1))) then .error (rej 0x0B)
    else if ((fs.getLast?.map (·.payload)).getD []) ≠ [] then .error ⟨0x0C, 0xFF, 0, 0⟩
    else
      match fs.mapM fun f => splitRecs f.ty (f.payload.length + 1) 0 [] (wordsOf f.payload) with
      | .error e => .error e
      | .ok ls =>
        let rs := ls.flatten.map (·.1)
        let cfg := applyRecs (if delta then base else []) rs
        match (fs.zip ls).find? fun p => p.1.rsv != 0 || p.2.any fun x => x.2 != 0 || recReserved cfg x.1 with
        | some p => .error ⟨0x0D, p.1.ty, (p.2.findIdx? fun x => x.2 != 0 || recReserved cfg x.1).getD 0, 0⟩
        | none => .ok (rs, body)

/-- The frame key of an encrypted bitstream, R504. -/
def frameKey (z seq : Nat) : List Byte := (sha384 (beOf 48 z ++ toBytes [0x50, 0x59, 0x50, 0x48] ++ toBytes (leBytes 8 seq))).take 32

/-- A digest of bytes as a number, its first byte most significant. -/
def digestOf (bs : List Byte) : Nat := beVal (sha384 bs)

/-- An owner key that hashes to its unrevoked slot, 15 R503. -/
def State.ownerKeyOk (s : State) (slot : Nat) (key : List Byte) : Bool :=
  decide (slot ≤ 3) && bits (s.reg ID_FUSE).toNat slot 1 == 0 &&
    (match s.boot.fuses.owner[slot]? with
     | some d => d.toNat == digestOf key
     | none => false)

/-- Codes 0x01 to 0x0D of R508 over the bytes of a bitstream in a buffer of `cap` bytes; `from9` leaves out those before 0x09. -/
def State.checkBytes (s : State) (data : List Byte) (cap : Nat) (from9 : Bool) : Except Reject PStream :=
  let flags := leAt data 6 2
  let delta := flags % 2 == 1
  let enc := flags / 2 % 2 == 1
  let len := leAt data 8 8
  let slot := leAt data 20 4
  let seq := leAt data 24 8
  let bseq := leAt data 32 8
  let signer := (data.drop 64).take 96
  let eph := (data.drop 160).take 96
  let bs := data.take len
  let msg := bs.take (len - 96)
  let ke := verifySig signer (bs.drop (len - 96)) msg
  let z := ecdhCode (beVal (eph.take 48)) (beVal (eph.drop 48)) s.boot.fuses.devKey.toNat
  let body := msg.drop 256
  let plain := if enc then gcmOpen (frameKey z.2 seq) ((data.drop 40).take 12) (data.take 256) (body.take (body.length - 16)) (body.drop (body.length - 16))
    else some body
  let seqNow := (s.reg BSL_SEQ).toNat
  let early : Option Reject :=
    if leAt data 0 4 ≠ 0x48505950 then some (rej 0x01)
    else if (leAt data 4 2 ≠ 1 ∧ leAt data 4 2 ≠ 2) ∨ flags ≥ 4 ∨ leAt data 52 12 ≠ 0 ∨ leAt data 19 1 ≠ 0 ∨ (!enc ∧ leAt data 40 12 ≠ 0) ∨
        (!delta ∧ bseq ≠ 0) then some (rej 0x02)
    else if leAt data 16 4 ≠ 0xA00192 then some (rej 0x03)
    else if len % 8 ≠ 0 ∨ len > 2 ^ 25 ∨ len > cap ∨ len < 352 + (if enc then 16 else 0) ∨ (!enc ∧ leAt data 160 96 ≠ 0) then some (rej 0x04)
    else if !s.ownerKeyOk slot signer then some (rej 0x05)
    else if ke ≠ 0 then some ⟨0x06, 0, 0, ke⟩
    else if (enc ∧ z.1 ≠ 0) ∨ plain = none then some (rej 0x07)
    else if seq < (s.reg UPD_SEQMIN).toNat ∨ (delta ∧ seq ≤ seqNow) then some (rej 0x08)
    else none
  match (if from9 then none else early) with
  | some e => .error e
  | none =>
    if delta ∧ bseq ≠ seqNow then .error (rej 0x09)
    else
      match parseFrames s.cfg delta (plain.getD []) with
      | .error e => .error e
      | .ok p => .ok ⟨delta, seq, bseq, p.1, p.2⟩

/-- Every check of R508; the parsed bitstream when it passes. -/
def State.checkStream (s : State) (data : List Byte) (cap : Nat) (stage from9 : Bool) : Except Reject PStream :=
  match s.checkBytes data cap from9 with
  | .error e => .error e
  | .ok p =>
    match s.judge p.recs p.tys p.delta stage with
    | some e => .error e
    | none => .ok p

end Sys2Proof.Machine
end

