-- ==== Sys2Proof/Machine/Operands.lean ====
section
/-! DEFINITION. Operand forms of the engine instructions: immediates, tag classes, instruction words and effective addresses (07 R248 to R251, R265). -/
namespace Sys2Proof.Machine

/-- A sign-extended immediate, 07 R250. -/
def immS (i : BitVec 16) : Word := i.signExtend 64

/-- A zero-extended immediate. -/
def immZ (i : BitVec 16) : Word := i.setWidth 64

/-! Tag classes of 07 R248. -/

/-- N: I64 or U64. -/
def tagN (t : Tag) : Bool := t == tagI64 || t == tagU64
def tagNRaw (t : Tag) : Bool := tagN t || t == tagRaw
def tagNRawPtr (t : Tag) : Bool := tagNRaw t || t == tagPtr
def tagNRawFix (t : Tag) : Bool := tagNRaw t || t == tagFix
def tagNFix (t : Tag) : Bool := tagN t || t == tagFix
def tagNFixPtr (t : Tag) : Bool := tagNFix t || t == tagPtr
def tagAddA (t : Tag) : Bool := tagNFixPtr t || t == tagTime
def tagBase (t : Tag) : Bool := t == tagPtr || t == tagU64
def tagAny (_ : Tag) : Bool := true
def tagIs (x t : Tag) : Bool := t == x

/-- Tags of rs2 for ADD, given rs1's, 07 R257. -/
def addB (a t : Tag) : Bool := if a = tagFix then t == tagFix else tagN t

/-- Tags of rs2 for SUB. -/
def subB (a t : Tag) : Bool := addB a t || (a == tagPtr && t == tagPtr) || (a == tagTime && t == tagTime)

/-- Both N, both FIX or both PTR. -/
def sameClass (a t : Tag) : Bool := if tagN a then tagN t else t == a

/-! Instruction words, 07 R249: parcel 0 of an instruction that raises ILLEGAL_OP or PRIV_OP (09 R321). -/

def encReg (major : Nat) (rd rs1 rs2 : RegNo) (func : Nat) : Nat :=
  major * 2 ^ 26 + rd.toNat * 2 ^ 21 + rs1.toNat * 2 ^ 16 + rs2.toNat * 2 ^ 11 + func

def encImm (major : Nat) (rd rs1 : RegNo) (imm : BitVec 16) : Nat :=
  major * 2 ^ 26 + rd.toNat * 2 ^ 21 + rs1.toNat * 2 ^ 16 + imm.toNat

def encSys (sop r imm : Nat) : Nat := 0x31 * 2 ^ 26 + sop * 2 ^ 21 + r * 2 ^ 16 + imm

def encCtl (rd rs1 : RegNo) (crn : BitVec 12) (op : Nat) : Nat :=
  0x32 * 2 ^ 26 + rd.toNat * 2 ^ 21 + rs1.toNat * 2 ^ 16 + crn.toNat * 2 ^ 4 + op

def encRep (n : Nat) (gc : RegNo) : Nat := 0x34 * 2 ^ 26 + n * 2 ^ 25 + gc.toNat * 2 ^ 16

def encFp (fd fa : RegNo) (fb fop fmt rm : Nat) : Nat :=
  0x3A * 2 ^ 26 + fd.toNat * 2 ^ 21 + fa.toNat * 2 ^ 16 + fb * 2 ^ 11 + fop * 2 ^ 6 + fmt * 2 ^ 4 + rm * 2

def encShort (pipe opc : Nat) (vd va vb : BitVec 3) (et : BitVec 4) (md : BitVec 3) : Nat :=
  0x3D * 2 ^ 26 + pipe * 2 ^ 24 + opc * 2 ^ 16 + vd.toNat * 2 ^ 13 + va.toNat * 2 ^ 10 + vb.toNat * 2 ^ 7 +
    et.toNat * 2 ^ 3 + md.toNat

def encVm (major : Nat) (v : BitVec 3) (et : BitVec 4) (rs1 : RegNo) (imm : BitVec 14) : Nat :=
  major * 2 ^ 26 + v.toNat * 2 ^ 23 + et.toNat * 2 ^ 19 + rs1.toNat * 2 ^ 14 + imm.toNat

/-- ILLEGAL_OP with the instruction's parcel 0. -/
def illegal (parcel : Nat) : Trap := trap cIllegal 0 parcel

/-- PRIV_OP with the instruction's parcel 0. -/
def privOp (parcel : Nat) : Trap := trap cPriv 0 parcel

/-! Effective addresses. -/

/-- Where a data access goes: a physical address, an offset of the running tenant's page, or its fault. -/
inductive DataAddr where
  | pa (n : Nat)
  | page (off : Nat)
  | bad (t : Trap)
  deriving DecidableEq, Repr

/-- Resolve the effective address of an access of `size` bytes; `k` is 0 for a read and 1 for a write (07 R252, R265, 01 R23 to R26). -/
def State.dataAddr (s : State) (e : Nat) (ea : Word) (size k : Nat) : DataAddr :=
  let a := ea.toNat
  let c := s.core e
  if a % size ≠ 0 then .bad (trap cAlign (a % 2 ^ 48) (accEscr k 0))
  else if a ≥ 2 ^ 48 then .bad (trap (if c.lev ≤ 1 then cWindow else cBus) (a % 2 ^ 48) (accEscr k 0))
  else if c.lev ≤ 1 then
    match s.resolveTa (s.bankTenant e c.run) (c.lev == 0) [if k = 0 then .read else .write] a with
    | .ok pa => .pa pa
    | .page off => .page off
    | .bad cause => .bad (trap cause a (accEscr k 0))
    | .lost => .bad (trap cBus a (accEscr k 0))
  else .pa a

/-- KEYID of a scalar access, 06 R215. -/
def State.keyid (s : State) (e : Nat) : Nat :=
  if s.lev e ≤ 1 then s.bankTenant e (s.core e).run else 0

end Sys2Proof.Machine
end

