-- ==== Sys2Proof/Machine/Vsu.lean ====
section
/-! DEFINITION. The vector stream unit and the cluster ring: queues, blocks, faults, chains (03 R80 to R130, 05 R171 to R199). -/
namespace Sys2Proof.Machine
open Reg

/-! Queues. -/

/-- The bank whose long-vector instructions advance: the slot's bank, or in platform time the running bank; 8 while the engine idles, 03 R83. -/
def State.vsuBank (s : State) (e : Nat) : Nat :=
  match (s.engine e).inSlot with
  | some n => if s.slotPhase e = 1 then s.slotBank e n else if (s.core e).idle then 8 else (s.core e).run
  | none => if (s.core e).idle then 8 else (s.core e).run

/-- Two line ranges share a line. -/
def LRange.meets (a b : LRange) : Bool := a.lo ≤ b.hi && b.lo ≤ a.hi

/-- A scalar access to a line waits, 03 R122 and R114: for the unfinished streams of every bank of the engine. -/
def State.lvHazard (s : State) (e line : Nat) (store : Bool) : Bool :=
  (List.range 8).any fun b =>
    let v := s.vsu e b
    !v.frozen && (v.ents.any fun x => x.ranges.any fun r => (store || r.wr) && r.lo ≤ line && line ≤ r.hi)

/-- Entry `x` waits for an earlier one of its queue to stream, or for a range of any earlier one, 03 R81 and R123. -/
def lvWaits (ents : List LvEntry) (x : LvEntry) : Bool :=
  (ents.takeWhile fun y => y.qe != x.qe).any fun y =>
    ((decide (y.qe < 4) == decide (x.qe < 4)) && decide (y.elem < y.len)) ||
      (y.ranges.any fun r => x.ranges.any fun t => (r.wr || t.wr) && r.meets t)

/-- Mask of VT values with an unfinished instruction or an unacknowledged write, 03 R118. -/
def BankVsu.busy (v : BankVsu) : Nat :=
  ((List.range 16).map fun t => if (v.ents ++ v.drain).any fun x => x.vt == t then 2 ^ t else 0).sum

/-- Entries of the engine port and of the mover in use. -/
def BankVsu.qcount (v : BankVsu) : Nat := (v.ents.filter fun x => decide (x.qe < 4)).length
def BankVsu.mcount (v : BankVsu) : Nat := (v.ents.filter fun x => decide (4 ≤ x.qe)).length

/-- VSTAT, 03 R118. -/
def BankVsu.vstat (v : BankVsu) : Nat := v.busy + v.qcount * 2 ^ 16 + v.mcount * 2 ^ 20 + b2n v.frozen * 2 ^ 24

/-- The progress record of an entry, 03 R111. -/
def LvEntry.prog (x : LvEntry) : Nat :=
  x.elem + x.foff * 2 ^ 24 + x.fstr * 2 ^ 30 + x.cstep * 2 ^ 32 + x.vt * 2 ^ 38 + x.qe * 2 ^ 42 + b2n x.valid * 2 ^ 45 +
    b2n x.deferred * 2 ^ 46 + b2n x.carryv * 2 ^ 47

/-- VQPC and VQPROG of the selected entry, 03 R118. -/
def BankVsu.vqpc (v : BankVsu) : Nat := ((v.ent v.vqsel).map (·.pc)).getD 0
def BankVsu.vqprog (v : BankVsu) : Nat := ((v.ent v.vqsel).map (·.prog)).getD 0

/-- ENG_VSU_STAT, 03 R130: no stream moves while the engine idles. -/
def State.engVsuStat (s : State) (e : Nat) : Nat :=
  let b := if s.vsuBank e = 8 then (s.core e).run else s.vsuBank e
  let v := s.vsu e b
  b + b2n (s.vsuBank e != 8 && !(s.engine e).stopped && !v.frozen && v.ents.any fun x => decide (x.elem < x.len)) * 8 + b2n v.frozen * 16 + v.qcount * 32 + v.mcount * 256

/-- Line writes of committed blocks that engine `e` has outstanding, 03 R103. -/
def State.linesOut (s : State) (e : Nat) : Nat :=
  ((List.range 8).map fun b => (((s.vsu e b).ents ++ (s.vsu e b).drain).map fun x => x.unacked.length).sum).sum

/-! The ring, 05 R178. -/

/-- Beats that a stream sends for the bytes from `a` to `b`, 05 R181 and R184. -/
def beatSpan (a b : Nat) : Nat := (b + 63) / 64 - (a + 63) / 64

/-- ENG_CHN_STAT, 05 R199. -/
def State.engChnStat (s : State) (e : Nat) : Nat :=
  let r := s.ring e
  let st := match s.ringEnt e with
    | none => 0
    | some (b, _) => if r.freeze.isSome || (s.vsu e b).frozen then 3 else if s.vsuBank e = b then 1 else 2
  let held := (r.blocks.flatMap (·.writes)).length
  st + (if s.flag (ENG_CHN_CFG e) ENG_CHN_CFG_COUT then r.credit else 0) * 4 + (min 64 (beatsOf r.cin)) * 2 ^ 9 +
    (min 256 held) * 2 ^ 16 + ((r.blocks.filter fun y => ((s.vsu e y.bank).ent y.qe).any fun x => x.ringDst).length % 2 ^ 16) * 2 ^ 32

/-! Addresses and lines. -/

/-- Resolve an address of a stream: a cause or 0, and the physical address, 03 R94 and R25. DESIGN CHOICE: at P and M level an element beyond 48 bits wraps modulo 2^48, which no rule
states (03 R88, log entry 29). -/
def State.lvPa (s : State) (e b lev : Nat) (w : Bool) (ta : Nat) : Nat × Nat :=
  if lev ≤ 1 then
    match s.resolveTa (s.bankTenant e b) (lev == 0) [.stream, if w then .write else .read] ta with
    | .ok pa => (0, pa)
    | .page _ => (cPerm, 0)
    | .bad c => (c, 0)
    | .lost => (cBus, 0)
  else (0, ta % 2 ^ 48)

/-- The address reaches DRAM or an LVS. -/
def State.lvTarget (s : State) (pa : Nat) : Bool :=
  match s.target pa with
  | .dram | .firmware | .lvs _ _ => true
  | _ => false

/-- The address lies in the LVS of engine `e` itself. -/
def State.ownLvs (s : State) (e pa : Nat) : Bool :=
  match s.target pa with
  | .lvs f _ => f == e
  | _ => false

/-- A line of DRAM waits behind the open lock of another holder, unless a reserved slot serves it, 06 R210 and 11 R398. -/
def State.lockedAway (s : State) (e pa : Nat) : Bool :=
  match s.target pa with
  | .dram | .firmware =>
    let u := s.lockUnit (s.sliceOf pa)
    u.held && !(u.mid == clusterOf e && u.pos == posOf e) && !(s.reserved (pa / 64) && pa / 64 != u.line)
  | _ => false

/-- A source line as read: its address, the cause and ESCR of a failed read (cause 0 for none), and its words. -/
structure LGot where
  line : Nat
  cause : Nat
  escr : Nat
  ws : List TWord
  deriving DecidableEq, Repr

/-- Read a line for a stream, 03 R108 and R126; `port` gives the words of the line that a stream of the engine port reads in the own LVS, whose check delivers a bad word as
POISON (06 R235). -/
def State.lvReadLine (s : State) (e lev key pa : Nat) (port : Option (List Nat)) : Nat × List TWord × State :=
  match s.target pa with
  | .dram => s.cohRead (pa / 64) key .clean
  | .firmware => if lev = 3 then s.cohRead (pa / 64) key .clean else (errPerm, poisonLine, s)
  | .lvs f off =>
    match port with
    | some ws => if f = e then (respOk, (s.lvsFetch f (off / 64) ws).2) else s.lvsRead f (off / 64)
    | none => s.lvsRead f (off / 64)
  | _ => (errDecode, poisonLine, s.defaultTarget pa (clusterOf e) (posOf e))

/-- Resolve and read one line of a stream of an entry, of which the words at the word addresses `ws` are read. -/
def State.lvGet (s : State) (e b : Nat) (y : LvEntry) (w : Bool) (line : Nat) (ws : List Nat) : LGot × State :=
  let lev := y.lev
  let r := s.lvPa e b lev w (line * 64)
  if r.1 ≠ 0 then (⟨line, r.1, accEscr 3 0, poisonLine⟩, s)
  else
    let key := if lev ≤ 1 then s.bankTenant e b else 0
    let x := s.lvReadLine e lev key r.2 (if y.qe < 4 then some ((ws.filter fun a => a / 8 == line).map (· % 8)) else none)
    if x.1 = respOk then (⟨line, 0, 0, x.2.1⟩, x.2.2)
    else (⟨line, respCause x.1, respEscr 3 x.1, x.2.1⟩, x.2.2)

/-- Read the lines of a stream that hold the words at the word addresses `ws`. -/
def State.lvGets (s : State) (e b : Nat) (y : LvEntry) (w : Bool) (ws : List Nat) : List LGot × State :=
  ((ws.map (· / 8)).eraseDups).foldl (fun z l => let r := z.2.lvGet e b y w l ws; (z.1 ++ [r.1], r.2)) ([], s)

/-- Lines that `n` bytes at an address touch. -/
def lineSpan (a n : Nat) : List Nat := (List.range ((a + n - 1) / 64 + 1 - a / 64)).map fun i => a / 64 + i

/-- A fault of a block, ranked under 03 R107 and 05 R176: element, stream, rank within it. -/
structure BFault where
  elem : Nat
  st : Nat
  rank : Nat
  cause : Nat
  eaddr : Nat
  escr : Nat
  xc : Nat
  step : Nat
  deriving DecidableEq, Repr

/-- Place of a fault in the order of 03 R107. -/
def BFault.key (f : BFault) : Nat := (f.elem * 4 + f.st) * 16 + f.rank

/-- The fault that a block reports. -/
def firstFault (l : List BFault) : Option BFault :=
  l.foldl (fun m f => match m with | none => some f | some g => if f.key < g.key then some f else some g) none

/-- Tag check of a word of a stream, 03 R105: rank, cause and ESCR. -/
def lvTag (want : Nat) (raw : Bool) (t : Tag) : Option (Nat × Nat × Nat) :=
  if t.toNat = want ∨ (raw ∧ t = tagRaw) then none
  else some (if t = tagPoison then (1, cTagPoison, t.toNat + 0x30) else if t = tagEmpty then (2, cTagEmpty, t.toNat + 0x30)
    else (3, cTagMismatch, t.toNat + 0x30))

/-- The line read at an address. -/
def gotAt (l : List LGot) (a : Nat) : LGot := (l.find? fun g => g.line == a / 64).getD ⟨a / 64, cBus, 0, poisonLine⟩

/-- Read `n` bytes at an address of the lines read. -/
def gotBytes (l : List LGot) (a n : Nat) : Nat :=
  ofLeBytes ((List.range n).map fun i =>
    (((bytesOf ((gotAt l (a + i)).ws.getD ((a + i) % 64 / 8) twPoison).val).getD ((a + i) % 8) 0).toNat))

/-- Word addresses that `n` bytes from an address touch. -/
def wordSpan (a n : Nat) : List Nat := (List.range ((a + n - 1) / 8 + 1 - a / 8)).map fun i => a / 8 + i

/-- Faults of the words that an element of a source touches. DESIGN CHOICE: among the faults of one element on one stream an access fault ranks before POISON, EMPTY, MISMATCH and a
bad D15 digit, over both words of a straddling element; 03 R107 orders only the tags of one word (log entry 29). -/
def srcFault (l : List LGot) (x : LvEntry) (k : Nat) (d : Desc) (elem a : Nat) : List BFault :=
  let n := etSize (dType d)
  let words := wordSpan a n
  let fs := words.filterMap fun w =>
    let g := gotAt l (8 * w)
    if g.cause ≠ 0 then some (if g.cause = cTagPoison then (1, g.cause, g.escr) else (0, g.cause, g.escr))
    else lvTag (etTag (dType d)) (dRaw d) (g.ws.getD (w % 8) twPoison).tag
  let dec := if fs = [] ∧ x.decCheck k ∧ d15Valid (gotBytes l a n) = false then [(4, cDecInvalid, 0)] else []
  (fs ++ dec).map fun f =>
    { elem := elem, st := k, rank := f.1, cause := f.2.1, eaddr := a, escr := f.2.2, xc := if f.1 = 4 then 6 else 0, step := 0 }

/-- Ring data of a block: for each byte its tag and value. -/
def ringBytes (l : List LinkItem) : List (Tag × Byte) :=
  l.flatMap fun x => match x with | .beat t bs _ => bs.map fun b => (t, b) | _ => []

/-- Faults of an element of a ring source, 05 R181. -/
def ringFault (x : LvEntry) (k : Nat) (d : Desc) (bs : List (Tag × Byte)) (elem o : Nat) : List BFault :=
  let n := etSize (dType d)
  let part := (bs.drop o).take n
  let v := ofLeBytes (part.map fun p => p.2.toNat)
  let f : List (Nat × Nat × Nat) := match part with
    | p :: _ => (lvTag (etTag (dType d)) (dRaw d) p.1).toList
    | [] => []
  let dec := if f = [] ∧ x.decCheck k ∧ d15Valid v = false then [(4, cDecInvalid, 0)] else []
  (f ++ dec).map fun f =>
    { elem := elem, st := k, rank := f.1, cause := f.2.1, eaddr := 0, escr := f.2.2, xc := if f.1 = 4 then 6 else 0, step := 0 }

/-! Destination. -/

/-- Bytes that a block writes: address, byte and the output they belong to. -/
def outBytes (d : Desc) (outs : List LvOut) : List (Nat × Byte × LvOut) :=
  outs.flatMap fun o => (List.range (etSize (dType d))).map fun i => (dElem d o.dpos + i, BitVec.ofNat 8 (o.val >>> (8 * i)), o)

/-- The writes of one line and their faults, 03 R106: words wholly inside the stream take D's tag; a word at its head or tail is checked first. -/
def State.lvLineWrite (s : State) (e b : Nat) (x : LvEntry) (d : Desc) (bs : List (Nat × Byte × LvOut)) (lo hi line : Nat) :
    List BFault × Option HeldWrite × State :=
  let mine := bs.filter fun p => p.1 / 64 == line
  let o := match mine with | p :: _ => p.2.2 | [] => ⟨0, 0, 0⟩
  let mk (o : LvOut) (rank cause escr : Nat) : BFault :=
    { elem := o.elem, st := 3, rank := rank, cause := cause, eaddr := dElem d o.dpos, escr := escr, xc := 0, step := 0 }
  let r := s.lvPa e b x.lev true (line * 64)
  if r.1 ≠ 0 then ([mk o 0 r.1 (accEscr 3 0)], none, s)
  else
    let words := ((mine.map fun p => p.1 / 8).eraseDups)
    let partial_ := words.filter fun w => 8 * w < lo || hi < 8 * w + 8
    let g : LGot × State := if partial_ = [] then (⟨line, 0, 0, []⟩, s) else s.lvGet e b x true line partial_
    let fs := partial_.filterMap fun w =>
      let f := if g.1.cause ≠ 0 then some (if g.1.cause = cTagPoison then (1, g.1.cause, g.1.escr) else (0, g.1.cause, g.1.escr))
        else
          let t := (g.1.ws.getD (w % 8) twPoison).tag
          if t = tagEmpty then none else lvTag (etTag (dType d)) (dRaw d) t
      f.map fun f => mk ((mine.find? fun p => p.1 / 8 == w).map (·.2.2) |>.getD o) f.1 f.2.1 f.2.2
    let wr : HeldWrite :=
      { pa := r.2, data := mine.map fun p => (p.1 % 64, p.2.1),
        tags := words.map fun w => (w % 8, BitVec.ofNat 4 (etTag (dType d))),
        keyid := if x.lev ≤ 1 then s.bankTenant e b else 0 }
    (fs, some wr, g.2)

/-- A held write of a line of DRAM: a full-line write where it covers the line, 06 R219 and R220. -/
def State.putLine (s : State) (w : HeldWrite) : Nat × State :=
  if coversLine w.data w.tags then s.cohFull (w.pa / 64) w.keyid (mergeLine emptyLine (assoc w.data) (assoc w.tags))
  else s.cohPartial (w.pa / 64) w.keyid .clean (assoc w.data) (assoc w.tags)

/-- Perform one held write of an entry at level `lev`, from the engine port (`port`) or the mover: the response code, 03 R104, R116 and R126. -/
def State.applyWrite (s : State) (e lev : Nat) (port : Bool) (w : HeldWrite) : Nat × State :=
  match s.target w.pa with
  | .lvs f off =>
    if f = e ∧ port then (respOk, s.lvsEnginePut f (off / 64) w.data w.tags) else s.lvsWrite f (off / 64) w.data w.tags
  | .dram => s.putLine w
  | .firmware => if lev = 3 then s.putLine w else (errPerm, s)
  | _ => (errDecode, s.defaultTarget w.pa (clusterOf e) (posOf e))

/-! Faults. -/

/-- CSTEP of a fault: the step, and in a chain the position, 05 R192. -/
def State.cstepOf (s : State) (e : Nat) (x : LvEntry) (step : Nat) : Nat :=
  if x.ring then s.rd (ENG_CHN_CFG e) ENG_CHN_CFG_POS * 4 + step % 4
  else match x.form with
    | .chain _ => 4 + step % 4
    | _ => 0

/-- The entry's progress record names a fault. -/
def LvEntry.failed (x : LvEntry) (foff fstr cstep : Nat) (deferred : Bool) : LvEntry :=
  { x with foff := foff, fstr := fstr, cstep := cstep, valid := true, deferred := deferred }

/-- The bank freezes with a fault of entry `q`, 03 R109 and R110. -/
def State.freezeLv (s : State) (e b q foff fstr cstep : Nat) (deferred : Bool) (cause eaddr escr xc : Nat) : State :=
  let t := s.modEnt e b q fun x => x.failed foff fstr cstep deferred
  let prog := (((t.vsu e b).ent q).map (·.prog)).getD 0
  let t := t.modVsu e b fun v => { v with frozen := true, fault := some ⟨cause, eaddr, BitVec.ofNat 64 prog, escr⟩ }
  let t := t.modAsync e fun c => c.setBank b
    { c.bank b with faultTaken := false, gate := .free,
                    vfcsr := if xc = 0 then (c.bank b).vfcsr else BitVec.ofNat 64 (setBits (c.bank b).vfcsr.toNat 20 4 xc) }
  if cause = cTagMismatch ∨ cause = cTagPoison ∨ cause = cTagEmpty then t.count (ENG_VSU_TAGFLT e) ENG_VSU_TAGFLT_COUNT 1 else t

/-- ESCR of a fault of a block: in an engine-local chain the engine is the originator, 05 R192. -/
def State.lvEscr (s : State) (e : Nat) (x : LvEntry) (f : BFault) : Nat :=
  match x.form with
  | .chain _ => FreezeInfo.escr ⟨0, (s.logicalOf e).getD 0, 1, f.cause, 0⟩
  | _ => f.escr

/-! Blocks. -/

/-- A computed block: faults, writes, ring output, flags and carry. -/
structure BlockRes where
  fault : Option BFault
  writes : List HeldWrite
  stage : LvStage
  wait : Bool

/-- Compute the block of governing elements `lo` to `hi`, 03 R97 and R105 to R108; `ringIn` is its chain-in data. -/
def State.lvCompute (s : State) (e b : Nat) (x : LvEntry) (lo hi : Nat) (carry : List Nat) (ringIn : List (Tag × Byte)) :
    BlockRes × State :=
  let is := (List.range (hi - lo)).map fun i => lo + i
  let k (i : Nat) := i - x.start
  let elemsOf (st : Nat) : List (Nat × Nat) :=
    (is.map fun i => (x.index st (k i), i)).foldl (fun l p => if l.any fun q => q.1 == p.1 then l else l ++ [p]) []
  let mem (st : Nat) : Option Desc := (x.desc st).filter dMem
  -- source lines of each memory stream
  let rd := [0, 1, 2].foldl (fun (z : List (Nat × List LGot) × State) st =>
    match mem st with
    | none => z
    | some d =>
      let r := z.2.lvGets e b x false ((elemsOf st).flatMap fun p => wordSpan (dElem d p.1) (etSize (dType d))).eraseDups
      (z.1 ++ [(st, r.1)], r.2)) ([], s)
  let gots (st : Nat) : List LGot := ((rd.1.find? fun p => p.1 == st).map (·.2)).getD []
  let wait := [0, 1, 2].any fun st => (mem st).any fun d => (elemsOf st).any fun p => (lineSpan (dElem d p.1) (etSize (dType d))).any fun l =>
    let r := s.lvPa e b x.lev false (l * 64)
    r.1 == 0 && s.lockedAway e r.2
  let src (st n : Nat) : Nat :=
    match x.desc st with
    | none => 0
    | some d =>
      if dMem d then gotBytes (gots st) (dElem d n) (etSize (dType d))
      else
        let o := (n - k lo) * etSize (dType d)
        ofLeBytes (((ringIn.drop o).take (etSize (dType d))).map fun p => p.2.toNat)
  let srcFaults := [0, 1, 2].flatMap fun st =>
    match x.desc st with
    | none => []
    | some d => (elemsOf st).flatMap fun p =>
      if dMem d then srcFault (gots st) x st d p.2 (dElem d p.1)
      else ringFault x st d ringIn p.2 ((p.1 - k lo) * etSize (dType d))
  let z := x.compute src is carry
  let dd := x.d.getD (0, 0)
  let pipeFaults := z.flags.filterMap fun f =>
    let c := trapCause f.flags x.vfcsr
    if c = 0 then none
    else some { elem := f.elem, st := 3, rank := 5 + f.step, cause := if c = 7 then cDecInvalid else cFpTrap,
                eaddr := if dMem dd then dElem dd f.dpos else 0, escr := 0, xc := c, step := f.step : BFault }
  let wr : List BFault × List HeldWrite × State :=
    if dMem dd then
      let bs := outBytes dd z.outs
      let lines := (bs.map fun p => p.1 / 64).eraseDups
      let n := x.need 3 (x.len - x.start)
      lines.foldl (fun (y : List BFault × List HeldWrite × State) l =>
        let r := y.2.2.lvLineWrite e b x dd bs (dElem dd 0) (dElem dd n) l
        (y.1 ++ r.1, y.2.1 ++ r.2.1.toList, r.2.2)) ([], [], rd.2)
    else ([], [], rd.2)
  (⟨firstFault (srcFaults ++ pipeFaults ++ wr.1), wr.2.1, z, wait || wr.2.1.any fun w => s.lockedAway e w.pa⟩, wr.2.2)

/-- OR the flags of a block into the bank's VFCSR, 04 R166. -/
def State.orVfcsr (s : State) (e b fl : Nat) : State :=
  if fl = 0 then s
  else s.modAsync e fun c => c.setBank b ({ c.bank b with vfcsr := BitVec.ofNat 64 (orFlags (c.bank b).vfcsr.toNat fl) }.mark 8)

/-- An entry whose blocks have all committed and whose writes are all acknowledged leaves its queue, 03 R121. -/
def State.lvRetire (s : State) (e b q : Nat) : State :=
  s.modVsu e b fun v => { v with ents := v.ents.filter fun x => !(x.qe == q && decide (x.len ≤ x.elem) && x.unacked == []) }

/-- A block commits: its writes are released, its flags and carry count, and progress moves on, 03 R97 and R121. -/
def State.lvCommit (s : State) (e b q lo next : Nat) (ws : List HeldWrite) (fl : Nat) (carry : List Nat) (carryv : Bool) : State :=
  match (s.vsu e b).ent q with
  | none => s
  | some x =>
    let r := ws.foldl (fun (z : List Nat × State) w =>
      let y := z.2.applyWrite e x.lev (decide (q < 4)) w
      (if y.1 = respOk ∧ s.ownLvs e w.pa then z.1 else z.1 ++ [y.1], y.2)) ([], s)
    let ack := r.1.map fun c => (lo, c)
    let t := (r.2.orVfcsr e b fl).modEnt e b q fun x =>
      { x with elem := next, rewinds := 0, carry := carry, carryv := carryv, unacked := x.unacked ++ ack }
    let t := t.setReg (ENG_VSU_BLOCKS e) (t.reg (ENG_VSU_BLOCKS e) + 1)
    t.lvRetire e b q

/-- The writes of a block find room among the 128 line writes that an engine may have outstanding, 03 R103. -/
def State.lineRoom (s : State) (e : Nat) (ws : List HeldWrite) : Bool :=
  decide (s.linesOut e + (ws.filter fun w => !s.ownLvs e w.pa).length ≤ 128)

/-- The flags of a stage together. -/
def LvStage.or (z : LvStage) : Nat := z.flags.foldl (fun x f => x ||| f.flags) 0

/-- Beats of a ring destination from byte `o` of the stream on: a beat that the block before began is sent on, and the stream's last beat is filled with zero bytes, 05 R181. -/
def packBeats (tag : Tag) (o : Nat) (bs : List Byte) (last : Bool) : List LinkItem :=
  let bs := if last then bs ++ List.replicate ((64 - (o + bs.length) % 64) % 64) 0 else bs
  let head := (64 - o % 64) % 64
  (if head = 0 ∨ bs = [] then [] else [.beat tag (bs.take head) true]) ++
    (List.range ((bs.length - min bs.length head + 63) / 64)).map fun i => LinkItem.beat tag ((bs.drop (head + 64 * i)).take 64) false

/-- A ring member computes its next block, 05 R182 to R187. -/
def State.ringBlock (s : State) (e b : Nat) (x : LvEntry) : State :=
  let r := s.ring e
  let lo := s.lvNext e b x
  let hi := min ((lo / 64 + 1) * 64) x.len
  let frozen : Bool := match r.freeze with | some i => decide (i.blk ≤ lo / 64) | none => false
  let earlier := ((s.vsu e b).ents.takeWhile fun y => y.qe != x.qe).any fun y =>
    (y.ringSrc.isSome && x.ringSrc.isSome) || (y.ringDst && x.ringDst)
  if frozen || earlier || decide (x.len ≤ lo) then s
  else
    -- the header of the ring source, 05 R182
    let hdr : Bool × Bool × State :=
      match x.ringSrc, x.inBase with
      | none, _ => (true, true, s)
      | some _, some _ => (true, true, s)
      | some _, none =>
        match r.cin with
        | .header n st :: rest =>
          (true, n == x.len - lo && st == lo % 64,
            (s.modRing e fun r => { r with cin := rest }).modEnt e b x.qe fun y => { y with inBase := some lo })
        | _ => (false, true, s)
    if !hdr.1 then s
    else if !hdr.2.1 then hdr.2.2.originate e (lo / 64) cChainFault 1 none
    else
      let s := hdr.2.2
      let seg := (s.ring e).cin.takeWhile fun i => match i with | .endMarker _ => false | _ => true
      let mark := match (s.ring e).cin.drop seg.length with | .endMarker g :: _ => some g | _ => none
      let bytes := ringBytes seg
      let ready := x.ringSrc.isNone || mark.isSome
      let dd := x.d.getD (0, 0)
      let osz := etSize (dType dd)
      let base := x.outBase.getD lo
      let nout := if x.ringDst then beatSpan ((lo - base) * osz) ((hi - base) * osz) else 0
      if !ready ∨ r.credit < nout then s
      else
        let carry := ((r.blocks.filter fun y => y.bank == b && y.qe == x.qe).getLast?.map (·.carry)).getD x.carry
        let c := s.lvCompute e b x lo hi carry bytes
        let held := (r.blocks.flatMap (·.writes)).length + c.1.writes.length
        if c.1.wait ∨ 256 < held then s
        else
          let t := c.2.modRing e fun y => { y with cin := y.cin.drop (seg.length + if x.ringSrc.isSome then 1 else 0) }
          match c.1.fault with
          | some f =>
            let own : VFault := ⟨f.cause, f.eaddr, BitVec.ofNat 64 ((f.elem % 64) + f.st * 2 ^ 6 + f.step * 2 ^ 8 + f.xc * 2 ^ 12), f.escr⟩
            t.originate e (lo / 64) f.cause 0 (some own)
          | none =>
            let nin := beatsOf seg
            let good := mark.getD true
            let rb : RingBlock :=
              { blk := lo / 64, lo := lo, next := hi, writes := c.1.writes, flags := c.1.stage.or, carry := c.1.stage.carry,
                carryv := c.1.stage.carry != [], good := good, beats := if x.ringDst then 0 else nin, bank := b, qe := x.qe }
            let obs := c.1.stage.outs.flatMap fun o => (List.range osz).map fun i => (BitVec.ofNat 8 (o.val >>> (8 * i)) : Byte)
            let t := t.modRing e fun y => { y with blocks := y.blocks ++ [rb], credit := y.credit - nout }
            let t := if x.ringDst then
                (t.sendDown e ((if x.outBase.isNone then [LinkItem.header (x.len - lo) (lo % 64)] else []) ++
                  packBeats (BitVec.ofNat 4 (etTag (dType dd))) ((lo - base) * osz) obs (hi == x.len) ++ [.endMarker good])).modEnt e b x.qe
                    fun y => { y with outBase := some base }
              else t
            if x.ringDst then t.returnCredit e nin else t

/-- Whether entry `q` of the advancing bank may commit a block now, 03 R81, R83, R109, R123 and R124, 10 R355. -/
def State.lvReady (s : State) (e b : Nat) (x : LvEntry) : Bool :=
  let v := s.vsu e b
  !v.frozen && decide (x.elem < x.len) && !lvWaits v.ents x && ((s.engine e).commit.bind (·.lv)) != some (b, x.qe) &&
    !(s.engine e).stopped &&
    !(((s.engine e).out ++ (s.engine e).stores).any fun g => g.bank == b && x.ranges.any fun r => r.lo ≤ g.pa / 64 && g.pa / 64 ≤ r.hi)

/-- One block of entry `q` of the advancing bank: it commits, or its fault freezes the bank, 03 R97 and R109. -/
def State.lvBlock (s : State) (e q : Nat) : State :=
  let b := s.vsuBank e
  match (s.vsu e b).ent q with
  | none => s
  | some x =>
    if !s.lvReady e b x then s
    else if x.ring then s.ringBlock e b x
    else
      let lo := x.elem
      let hi := min ((lo / 64 + 1) * 64) x.len
      let c := s.lvCompute e b x lo hi x.carry []
      if c.1.wait ∨ (c.1.fault.isNone ∧ !s.lineRoom e c.1.writes) then s
      else
        match c.1.fault with
        | some f => c.2.freezeLv e b q (f.elem % 64) f.st (s.cstepOf e x f.step) false f.cause f.eaddr (s.lvEscr e x f) f.xc
        | none => c.2.lvCommit e b q lo hi c.1.writes c.1.stage.or c.1.stage.carry (c.1.stage.carry != [])

/-- LV_BLOCK_COMMIT: the next block of queue entry `q`, 03 R97. -/
def execLvBlockCommit (e : EngId) (q : Fin 6) (s : State) : Host.Outcome State Fault Refusal := .next (s.lvBlock e q)

/-- LV_COMPLETE: the writes of entry `q` of bank `b` that are outstanding and good are acknowledged, which completes an instruction with no block and no bad write left, 03 R103 and R121; so are
those of an instruction that CLEAR discarded. -/
def execLvComplete (e : EngId) (b : Fin 8) (q : Fin 6) (s : State) : Host.Outcome State Fault Refusal :=
  .next (let v := s.vsu e b
    match v.ent q with
    | some _ => (s.modEnt e b q fun y => { y with unacked := y.unacked.filter fun p => p.2 != respOk }).lvRetire e b q
    | none => s.modVsu e b fun v => { v with drain := v.drain.filter fun x => x.qe != q.val })

/-- LV_DEFERRED_WRITE_ERROR: a response other than OK for a write of a committed block, 03 R116; `resp` is the response where the model's own write was good; a frozen bank reaches no block boundary until it resumes.
DESIGN CHOICE, which 03 R115 and R116 leave open (log entry 29): a reduction or scan that goes back keeps the partial result of its latest committed block, and a bad response to a write
of an instruction that CLEAR discarded is counted and raises no exception. -/
def execLvDeferredWriteError (e : EngId) (b : Fin 8) (q : Fin 6) (blk : BitVec 18) (resp : BitVec 3) (s : State) :
    Host.Outcome State Fault Refusal :=
  .next (match (s.vsu e b).ent q with
    | some x =>
      let mine := x.unacked.filter fun p => p.1 / 64 == blk.toNat
      match (mine.find? fun p => p.2 != respOk).or mine.head? with
      | some p =>
        let r := if p.2 = respOk then resp.toNat else p.2
        if r = respOk ∨ (s.vsu e b).frozen then s
        else
          let cause := if r = errInteg then cInteg else if r = errPerm then cPerm else cBus
          let dd := x.d.getD (0, 0)
          let t := s.modEnt e b q fun y => { y with elem := p.1, unacked := y.unacked.filter fun z => z.1 != p.1 }
          (t.freezeLv e b q 0 3 (s.cstepOf e x 0) true cause (dElem dd (x.dposOf (p.1 - x.start))) (accEscr 3 r) 0).count
            (ENG_VSU_DEFER e) ENG_VSU_DEFER_COUNT 1
      | none => s
    | none =>
      if (s.vsu e b).drain.any fun x => x.qe == q.val then
        (s.modVsu e b fun v => { v with drain := v.drain.filter fun x => x.qe != q.val }).count (ENG_VSU_DEFER e) ENG_VSU_DEFER_COUNT 1
      else s)

/-- VCTRL.CLEAR on bank `b`, 03 R115 and 05 R190. -/
def State.lvClear (s : State) (e b : Nat) : State :=
  let v := s.vsu e b
  let ring := v.ents.any fun x => x.ring && decide (x.elem < x.len)
  let s := if ring then (s.originate e (s.undecided e) cChainFault 2 none).modRing e fun r => { r with cleared := some b } else s
  let t := s.modVsu e b fun v =>
    { v with ents := [], frozen := false, fault := none,
             drain := v.drain ++ (v.ents.filter fun x => x.unacked != []) }
  let t := if ring then t.modRing e fun r => { r with blocks := r.blocks.filter fun y => y.bank != b } else t
  t.modBank e b fun x => { x with save := { x.save with eprog := BitVec.ofNat 64 (setBits x.save.eprog.toNat 45 1 0) } }.mark 8

/-- CLEAR: a write of VCTRL.CLEAR for the running bank; the effect of the control-register write on its own, 03 R115. -/
def State.lvClearRun (s : State) (e : Nat) : State := s.lvClear e (s.core e).run

/-- RETX resumes the frozen instructions of bank `b` with ELEM of EPROG, 03 R113 and 05 R194. -/
def State.lvResume (s : State) (e b elem : Nat) : State :=
  s.modVsu e b fun v =>
    { v with frozen := false, fault := none,
             ents := (v.ents.map fun x =>
               if x.valid then
                 { x with elem := max x.start (min elem x.len), foff := 0, fstr := 0, cstep := 0, valid := false, deferred := false,
                          inBase := none, outBase := none }
               else x).filter fun x => !(decide (x.len ≤ x.elem) && x.unacked == []) }

/-! Ring events. -/

/-- RING_BEAT_RECEIVE: the header or beat at the end of the link into `e` arrives, 05 R181 and R184; `bad` is a parity error. -/
def execRingBeatReceive (e : EngId) (bad : Bool) (s : State) : Host.Outcome State Fault Refusal :=
  .next (let pop (s : State) := s.modRing e fun r => { r with inLink := r.inLink.drop 1 }
    match (s.ring e).inLink with
    | .header n st :: _ => (pop s).modRing e fun r => { r with cin := r.cin ++ [.header n st], synced := true }
    | .beat t bs more :: _ =>
      if bad then
        (((pop s).modRing e fun r => { r with cin := r.cin ++ [.beat t bs more] }).count (ENG_CHN_LINKERR e) ENG_CHN_LINKERR_COUNT 1).originate e
          (match s.ringEnt e with
           | some (b, x) => s.lvNext e b x / 64 + ((s.ring e).cin.filter fun i => match i with | .endMarker _ => true | _ => false).length
           | none => 0) cChainFault 3 none
      else if (s.ring e).synced then (pop s).modRing e fun r => { r with cin := r.cin ++ [.beat t bs more] }
      else (pop s).returnCredit e (beatsOf [.beat t bs more])
    | _ => s)

/-- END_MARKER: a good or bad end marker arrives, 05 R186. -/
def execEndMarker (e : EngId) (s : State) : Host.Outcome State Fault Refusal :=
  .next (match (s.ring e).inLink with
    | .endMarker g :: rest =>
      s.modRing e fun r => { r with inLink := rest, cin := if r.synced then r.cin ++ [.endMarker g] else r.cin }
    | _ => s)

/-- The beats of a block whose end marker has not come are discarded. -/
def dropPartial (l : List LinkItem) : List LinkItem :=
  (l.reverse.dropWhile fun i => match i with | .beat _ _ _ => true | _ => false).reverse

/-- Discard the partial block of the chain-in buffer. -/
def State.dropBeats (s : State) (e : Nat) : State :=
  let cin := dropPartial (s.ring e).cin
  let n := beatsOf (s.ring e).cin - beatsOf cin
  (s.modRing e fun r => { r with inLink := r.inLink.drop 1, cin := cin }).returnCredit e n

/-- REWIND_MARKER: the block's beats are discarded and taken again, 05 R189. -/
def execRewindMarker (e : EngId) (s : State) : Host.Outcome State Fault Refusal :=
  .next (match (s.ring e).inLink with
    | .rewindMarker :: _ => ((s.dropBeats e).count (ENG_VSU_REWIND e) ENG_VSU_REWIND_COUNT 1).sendDown e [.rewindMarker]
    | _ => s)

/-- PAUSE_MARKER: the partial beats of an abandoned block are discarded, 05 R196. -/
def execPauseMarker (e : EngId) (s : State) : Host.Outcome State Fault Refusal :=
  .next (match (s.ring e).inLink with
    | .pauseMarker :: _ => (s.dropBeats e).sendDown e [.pauseMarker]
    | _ => s)

/-- The oldest undecided block of engine `e` commits, 05 R186. -/
def State.ringCommit (s : State) (e : Nat) (r : RingBlock) (rest : List RingBlock) : State :=
  ((s.modRing e fun y => { y with blocks := rest }).lvCommit e r.bank r.qe r.lo r.next r.writes r.flags r.carry r.carryv).returnCredit e r.beats

/-- BLOCK_DECIDE: the tail decides its oldest undecided block and commits it; the commit signal goes upstream, 05 R186. -/
def execBlockDecide (e : EngId) (s : State) : Host.Outcome State Fault Refusal :=
  .next (match (s.ring e).blocks with
    | r :: rest =>
      if r.good && s.lineRoom e r.writes && !(((s.vsu e r.bank).ent r.qe).any fun x => x.ringDst) then (s.ringCommit e r rest).sendUp e (.commit r.blk) else s
    | [] => s)

/-- COMMIT_SIGNAL: a block's decision arrives from downstream, 05 R186. Blocks are decided in order (R187), so it is that of the oldest undecided block, whatever number the sender's START gives it. -/
def execCommitSignal (e : EngId) (s : State) : Host.Outcome State Fault Refusal :=
  .next (match (s.ring e).upLink with
    | .commit _ :: up =>
      let t := s.modRing e fun r => { r with upLink := up }
      match (s.ring e).blocks with
      | r :: rest => if s.lineRoom e r.writes then (t.ringCommit e r rest).sendUp e (.commit r.blk) else s
      | [] => t
    | _ => s)

/-- CREDIT_RETURN: credits come back from the consumer, 05 R184. -/
def execCreditReturn (e : EngId) (s : State) : Host.Outcome State Fault Refusal :=
  .next (match (s.ring e).upLink with
    | .credit n :: up => s.modRing e fun r => { r with upLink := up, credit := min 64 (r.credit + n) }
    | _ => s)

/-- FREEZE_SIGNAL: a freeze signal arrives from the producer, or with `up` from the consumer, 05 R191. -/
def execFreezeSignal (e : EngId) (up : Bool) (s : State) : Host.Outcome State Fault Refusal :=
  .next (if up then
      match (s.ring e).upLink with
      | .freeze i :: rest => ((s.modRing e fun r => { r with upLink := rest }).takeFreeze e i false none).sendUp e (.freeze i)
      | _ => s
    else
      match (s.ring e).inLink with
      | .freeze i :: rest => ((s.modRing e fun r => { r with inLink := rest }).takeFreeze e i true none).sendDown e [.freeze i]
      | _ => s)

/-- A member without a ring instruction freezes with CHAIN_FAULT, 05 R191 and R192: the bank whose CLEAR originated the freeze, else the one that its VSU holds active (log entry 30). -/
def State.freezeBare (s : State) (e : Nat) (i : FreezeInfo) : State :=
  let b := ((s.ring e).cleared).getD (if s.vsuBank e = 8 then (s.core e).run else s.vsuBank e)
  let prog := 64 * i.blk % 2 ^ 24 + s.rd (ENG_CHN_CFG e) ENG_CHN_CFG_POS * 4 * 2 ^ 32 + 2 ^ 45
  let t := s.modVsu e b fun v => { v with frozen := true, fault := some ⟨cChainFault, 0, BitVec.ofNat 64 prog, i.escr⟩ }
  t.modAsync e fun c => c.setBank b { c.bank b with faultTaken := false, gate := .free }

/-- FREEZE_COMPLETE: every block below the freeze point is committed, and the member's instruction freezes with its own cause or CHAIN_FAULT, 05 R191 and R192. -/
def execFreezeComplete (e : EngId) (s : State) : Host.Outcome State Fault Refusal :=
  .next (match (s.ring e).freeze with
    | none => s
    | some i =>
      let fin (t : State) : State :=
        (t.modRing e fun r => { r with freeze := none, own := none, cleared := none }).count (ENG_CHN_FREEZE e) ENG_CHN_FREEZE_COUNT 1
      match s.ringEnt e with
      | none => if beatsOf (s.ring e).cin = 0 then fin (s.freezeBare e i) else s
      | some (b, x) =>
        if i.blk ≤ x.elem / 64 ∧ (s.ring e).blocks = [] then
          match (s.ring e).own with
          | some f =>
            let d := f.eprog.toNat
            fin (s.freezeLv e b x.qe (bits d 0 6) (bits d 6 2) (s.cstepOf e x (bits d 8 2)) false f.cause f.eaddr i.escr (bits d 12 4))
          | none => fin (s.freezeLv e b x.qe 0 0 (s.cstepOf e x 0) false cChainFault 0 i.escr 0)
        else s)

/-! Issue. -/

/-- A tag fault of a descriptor or scalar register at issue, 03 R94. DESIGN CHOICE: ESCR[5:4] is 0 for a descriptor and 1 for a scalar, and of several wrong registers the first in the order A, B,
C, D and word 0 before word 1 is named, which no rule states (log entry 29). -/
def lvTagTrap (which : Nat) (t : Tag) : Trap := trap cTagMismatch 0 (t.toNat + which * 16)

/-- The scalar operand of type `t` in register `r`, 03 R93: its value, or the offending tag. -/
def State.lvScalar (s : State) (e t : Nat) (r : RegNo) : Nat × Option Tag :=
  if etFp t || etC t then ((s.f e r).toNat % 2 ^ etBits t, none)
  else
    let g := s.g e r
    let ok := if etD15 t then g.tag == tagDec else if etQ t then g.tag == tagFix else tagN g.tag
    (g.val.toNat % 2 ^ etBits t, if ok then none else some g.tag)

/-- What an instruction word asks for before its descriptors are read. -/
inductive LvAsk where
  | op (o : PipeOp) (rsv : Nat)
  | chain (body : Nat)
  | copy (rsv : Nat)
  | fill (rsv : Nat)

/-- Parcel 0, 03 R90 and R92. -/
def LvAsk.parcel (a : LvAsk) : Nat :=
  0x3C * 2 ^ 26 + (match a with
    | .op o r => o.pipe * 2 ^ 22 + o.opc * 2 ^ 14 + o.md * 2 ^ 8 + r
    | .chain b => 2 ^ 24 + b
    | .copy r => 2 * 2 ^ 24 + r
    | .fill r => 2 * 2 ^ 24 + 2 ^ 22 + r)

/-- The steps of a chain program with the bank's CHOP registers, 05 R171 and R172; scalars still 0. -/
def State.chainSteps (s : State) (e body : Nat) : List (ChainStep × RegNo) :=
  (List.range (bits body 16 2 + 1)).map fun i =>
    let c := (sget (fun _ => (0 : Word)) (s.runBank e).chop i).toNat
    ({ op := ⟨bits c 0 2, bits c 2 8, bits c 10 6⟩, rtype := bits c 16 5, sely := bits body (4 * i) 2, selz := bits body (4 * i + 2) 2,
       scalar := 0 }, BitVec.ofNat 5 (bits c 21 5))

/-- The steps with their scalars read under the type of the step before; the first wrong tag, 03 R93 and 05 R172. -/
def State.chainScalars (s : State) (e : Nat) (l : List (ChainStep × RegNo)) (t : Nat) : List (ChainStep × Nat) × Option Tag :=
  let r := l.foldl (fun (z : List (ChainStep × Nat) × Nat × Option Tag) p =>
    if p.1.sely = 3 ∨ p.1.selz = 3 then
      let v := s.lvScalar e z.2.1 p.2
      (z.1 ++ [({ p.1 with scalar := v.1 }, z.2.1)], p.1.rtype, match z.2.2 with | some q => some q | none => v.2)
    else (z.1 ++ [(p.1, z.2.1)], p.1.rtype, z.2.2)) ([], t, none)
  (r.1, r.2.2)

/-- Byte range that a stream processes, as its descriptor gives it. -/
def LvEntry.range (x : LvEntry) (k : Nat) (d : Desc) : Nat × Nat :=
  (dElem d 0, dElem d (x.need k (x.len - x.start)))

/-- A destination and a source overlap other than in place, 03 R98. -/
def LvEntry.overlaps (x : LvEntry) : Bool :=
  match x.d with
  | none => false
  | some d =>
    let rd := x.range 3 d
    dMem d && ([0, 1, 2].any fun k => (x.desc k).any fun y =>
      let r := x.range k y
      dMem y && decide (r.1 < rd.2) && decide (rd.1 < r.2) &&
        !(r.1 == rd.1 && etSize (dType y) == etSize (dType d) && x.unit k && x.unit 3))

/-- USE of parcel 1. -/
def useBit (p1 k : Nat) : Bool := bits p1 (16 + k) 1 == 1

/-- The ILLEGAL_OP checks of 03 R94, 04 R131 and 05 R174, R180 but for a full list of addresses. -/
def State.lvIllegal (s : State) (e : Nat) (a : LvAsk) (p1 : Nat) (x : LvEntry) (mv : Bool) : Bool :=
  let scl := bits p1 29 1 == 1
  let use (k : Nat) := useBit p1 k
  let descs := [x.a, x.b, x.c, x.d].filterMap id
  let rsv := bits p1 30 2 != 0 || (match a with | .op _ r => r != 0 | .chain b => bits b 18 6 != 0 | .copy r => r != 0 | .fill r => r != 0)
  let pfl := ([x.a, x.b, x.c].any fun y => y.any dPfl) || (x.d.any dPfl && (match a with | .copy _ => false | _ => true))
  let shape := match a with
    | .op o _ =>
      let n := opArity o.pipe o.opc
      use 0 && use 3 && !(scl && use 1) && (if n ≥ 2 then use 1 || scl else !use 1 && !scl) &&
        (if isDot o.pipe o.opc then true else use 2 == decide (n ≥ 3))
    | .chain b =>
      let sel (i : Nat) := bits b (2 * i) 2
      let used := 2 * (bits b 16 2 + 1)
      let steps := x.steps
      use 0 && use 3 && bits p1 24 6 == 0 &&
        ((List.range 8).all fun i => decide (i < used) || sel i == 0) &&
        ([1, 2].all fun k => use k == (List.range used).any fun i => sel i == k) &&
        decide ((steps.map (·.op.pipe)).eraseDups.length = steps.length) &&
        (steps.all fun c => !isZip c.op.pipe c.op.opc && !isUnzip c.op.pipe c.op.opc && !isBfly c.op.pipe c.op.opc) &&
        (steps.dropLast.all fun c => !isDot c.op.pipe c.op.opc && !isRed c.op.pipe c.op.opc && !isScan c.op.pipe c.op.opc) &&
        ((steps.getLast?.map (·.rtype)).getD 0 == x.typ 3)
    | .copy _ => bits p1 16 4 == 9 && !scl && x.typ 0 == x.typ 3
    | .fill _ => bits p1 16 4 == 8 && scl
  let types := x.steps.zipIdx.all fun c => x.stepOk c.1 (x.xtype c.2)
  let srcs := [0, 1, 2].filter fun k => (x.desc k).any dRing
  let ring := ([x.a, x.b, x.c].any fun y => y.any fun d => dChl d == 2) || decide (srcs.length > 1) ||
    (srcs != [] && (!s.flag (ENG_CHN_CFG e) ENG_CHN_CFG_CIN || srcs.any fun k => !x.unit k)) ||
    (x.ringDst && (!s.flag (ENG_CHN_CFG e) ENG_CHN_CFG_COUT || !x.unit 3)) ||
    (x.ring && (mv || (s.ring e).lost))
  let n := x.len - x.start
  rsv || descs.any dBad || pfl || !shape || !types || ring || (s.vsu e (s.core e).run).frozen ||
    x.start % x.group != 0 || x.len % x.group != 0 ||
    ([0, 1, 2, 3].any fun k => (x.desc k).any fun d => decide (dLen d < dStart d + x.need k n)) || x.overlaps

/-- The address checks of 03 R94 on the first element of each memory stream, in their order of precedence. -/
def State.lvAddrTrap (s : State) (e : Nat) (x : LvEntry) : Option Trap :=
  let b := (s.core e).run
  let fs := [0, 1, 2, 3].filterMap fun k => ((x.desc k).filter dMem).bind fun d =>
    let a := dElem d 0
    let r := s.lvPa e b x.lev (k == 3) a
    let c := if r.1 = 0 ∧ !s.lvTarget r.2 then cBus else r.1
    if c = 0 then none else some (c, a)
  let fs := if x.ring && s.rd (ENG_CHN_CFG e) ENG_CHN_CFG_TENANT != s.bankTenant e b then fs ++ [(cPerm, 0)] else fs
  ([cWindow, cPerm, cBus].findSome? fun c => fs.find? fun f => f.1 == c).map fun f => trap f.1 f.2 (accEscr 3 0)

/-- Line ranges of the memory streams, 03 R122. -/
def State.lvRanges (s : State) (e : Nat) (x : LvEntry) : List LRange :=
  [0, 1, 2, 3].filterMap fun k => ((x.desc k).filter dMem).bind fun d =>
    let r := s.lvPa e (s.core e).run x.lev (k == 3) (dElem d 0)
    let n := (dLen d - dStart d) * etSize (dType d)
    if n = 0 then none else some ⟨r.2 / 64, (r.2 + n - 1) / 64, k == 3⟩

/-- A PFL destination that does not lie in the own LVS, from its first byte to its last, 03 R92. -/
def State.pflAway (s : State) (e : Nat) (x : LvEntry) : Bool :=
  (x.d.filter dPfl).any fun d =>
    let b := (s.core e).run
    if x.lev ≤ 1 then
      let w := s.elem 4 1 (s.bankTenant e b * 64 + dElem d 0 / 2 ^ 40)
      let v := elemWord w 0
      dElem d 0 ≥ 2 ^ 46 || bits v 0 1 == 0 || bits v 1 1 == 0 || s.physOf (bits v 16 8) != some e
    else !s.ownLvs e (dElem d 0) || !s.ownLvs e (dElem d (x.len - x.start) - 1)

/-- Issue of a long-vector instruction, 03 R89 to R98 and R119 to R121. -/
def lvIssue (e : Nat) (a : LvAsk) (p1w : BitVec 32) (s : State) : Res :=
  let p1 := p1w.toNat
  let b := (s.core e).run
  let reg (k i : Nat) : TWord := s.g e (BitVec.ofNat 5 (2 * bits p1 (4 * k) 4 + i))
  let named := [0, 1, 2, 3].filter fun k => useBit p1 k
  let desc (k : Nat) : Option Desc := if useBit p1 k then some ((reg k 0).val, (reg k 1).val) else none
  let isDesc (k : Nat) : Bool := (reg k 0).tag == tagDesc && (reg k 1).tag == tagDesc
  let gk := match a with | .fill _ => 3 | _ => 0
  let empty := useBit p1 gk && isDesc gk && (desc gk).any fun d => decide (dLen d ≤ dStart d)
  if empty then .commit s
  else
    match (named.flatMap fun k => [(reg k 0).tag, (reg k 1).tag]).find? fun t => t != tagDesc with
    | some t => .fault (lvTagTrap 0 t) s
    | none =>
      let ty (k : Nat) : Nat := ((desc k).map dType).getD 0
      let scl := bits p1 29 1 == 1
      let sreg : RegNo := BitVec.ofNat 5 (bits p1 24 5)
      let st := match a with
        | .fill _ => ty 3
        | _ => ty 0
      let one : Option (Nat × Option Tag) := match a with
        | .chain _ => none
        | .fill _ => if etDefined st then some (s.lvScalar e st sreg) else none
        | _ => if scl && etDefined st then some (s.lvScalar e st sreg) else none
      let ch := match a with
        | .chain body => s.chainScalars e (s.chainSteps e body) (ty 0)
        | _ => ([], none)
      let badTag := match one with
        | some (_, some t) => some t
        | _ => ch.2
      let badDec := (one.any fun p => st == 11 && !d15Valid p.1) ||
        ch.1.any fun p => (p.1.sely == 3 || p.1.selz == 3) && p.2 == 11 && !d15Valid p.1.scalar
      match badTag with
      | some t => .fault (lvTagTrap 1 t) s
      | none =>
        if badDec then .fault (trap cDecInvalid 0 0) (s.setVfcsr e (setBits (s.vfcsr e) 20 4 6))
        else
          let form : LvForm := match a with
            | .op o _ => .op o
            | .chain _ => .chain (ch.1.map (·.1))
            | .copy _ => .copy
            | .fill _ => .fill
          let mv := match a with
            | .copy _ => true
            | .fill _ => true
            | _ => false
          let x : LvEntry :=
            { qe := 0, form := form, a := desc 0, b := desc 1, c := desc 2, d := desc 3, scalar := one.map (·.1), vt := bits p1 20 4,
              pc := (s.pc e + 2 ^ 48 - 8) % 2 ^ 48, lev := s.lev e, vfcsr := s.vfcsr e, elem := 0, rewinds := 0, carry := [], carryv := false,
              foff := 0, fstr := 0, cstep := 0, valid := false, deferred := false, ranges := [], unacked := [], inBase := none,
              outBase := none }
          let x := { x with elem := x.start }
          if s.lvIllegal e a p1 x mv || s.pflAway e x then .fault (illegal a.parcel) s
          else
            match s.lvAddrTrap e x with
            | some t => .fault t s
            | none =>
              let v := s.vsu e b
              let slots := if x.d.any dPfl then [4, 5] else [0, 1, 2, 3]
              match slots.find? fun q => (v.ent q).isNone with
              | none => .stall
              | some q =>
                let y := { x with qe := q, ranges := s.lvRanges e x }
                .commit ((s.modVsu e b fun v => { v with ents := v.ents ++ [y] }).modEngine e fun z => { z with newLv := some (b, q) })

/-- The registers that a long-vector issue reads: the named descriptor pairs and the scalars, 03 R84, R93 and 05 R172. -/
def State.lvReads (s : State) (e : Nat) (a : LvAsk) (p1 : Nat) : List RegRef :=
  let pairs := ([0, 1, 2, 3].filter (useBit p1)).flatMap fun k => [0, 1].map fun i => RegRef.g (BitVec.ofNat 5 (2 * bits p1 (4 * k) 4 + i))
  let rs : List RegNo := match a with
    | .chain body => (s.chainSteps e body).map (·.2)
    | _ => [BitVec.ofNat 5 (bits p1 24 5)]
  pairs ++ rs.flatMap fun r => [.g r, .f r]

/-- A long-vector instruction issues: two parcels, 03 R89. -/
def State.lv (s : State) (e : Nat) (a : LvAsk) (p1 : BitVec 32) : State := s.issue e 8 (s.lvReads e a p1.toNat) (lvIssue e a p1)

end Sys2Proof.Machine
end

