-- ==== Sys2Proof/Machine/Slots.lean ====
section
/-! DEFINITION. Slots: start, preemption, end and platform time (01 R29 to R39, 10 R363 and R374). -/
namespace Sys2Proof.Machine
open Reg

/-- The slot's tenant is preempted: the closing sequence with its count, and the slot number that SLOT_EXPIRED reports, 01 R32 and R36. -/
def State.preempt (s : State) (e : Nat) : State :=
  match (s.engine e).inSlot with
  | none => s
  | some n =>
    let t := s.count (ENG_SLOT_PREEMPT e) ENG_SLOT_PREEMPT_COUNT 1
    let t := if t.flag (ENG_SLOTA e n) ENG_SLOTA_XNOTE && decide (t.slotBank e n < 6) then t.modBank e (t.slotBank e n) fun x => { x with preempted := some n } else t
    (t.modEngine e fun x => { x with closePending := false }).closing e

/-- Take the pending SLOT_EXPIRED of the running bank, 01 R36; a vector fault waits for its handler to return, 03 R117. -/
def State.takeSlotExpired (s : State) (e : Nat) : State :=
  match (s.runBank e).slotExp with
  | none => s
  | some n =>
    let b := (s.core e).run
    ((s.modRun e fun x => { x with slotExp := none }).takeException e (s.pc e) (trap cSlotExpired 0 n)).modBank e b fun x => { x with gate := .behind 0 }

/-- The engine continues a stopped platform-time context, 10 R363. -/
def Core.continuePlat (c : Core) : Core :=
  match c.plat with
  | some (b, l, p) => { c with run := b, lev := l, pc := p, idle := false, plat := none }
  | none => c

/-- Platform time goes on with its stopped context, 10 R363: not once the next delivery is near. -/
def State.resumePlat (s : State) (e : Nat) : State :=
  if (s.engine e).cutoff then s else s.modAsync e fun c => if c.idle then c.continuePlat else c

/-- A platform-time context stops at this boundary and one commit is made, 10 R352 and R363. -/
def State.parkPlat (s : State) (e : Nat) : State := (s.modCore e fun c => c.park none).commitNow e

/-- Bank `b` of a core as its slot begins: a SLOT_EXPIRED of its last slot is pending (01 R36), and a vector fault of its closing sequence is due, after the handler of that SLOT_EXPIRED (03 R117). -/
def Bank.begin (x : Bank) : Bank :=
  { x with slotExp := x.preempted, preempted := none, gate := .due }

/-- The slot's bank is switched in, 01 R30, R31 and R36; a HELD bank runs nothing (09 R312). SLOT_EXPIRED is taken before the first instruction, behind a prompt entry that is due (09 R320). -/
def State.beginSlot (s : State) (e n : Nat) : State :=
  let b := s.slotBank e n
  let s := s.modEngine e fun x => { x with inSlot := some n, reserveRec := 0, startPending := none, closePending := false }
  if s.bankTenant e b ≠ s.rd (ENG_SLOTB e n) ENG_SLOTB_TENANT then
    (((s.count (ENG_SLOT_SKIP e) ENG_SLOT_SKIP_COUNT 1).assert 898).recordReg 898 (unitEngine e) (ENG_SLOT_SKIP e)).setSlotPhase e 0
  else if ((s.core e).bank b).held.isSome then s.setSlotPhase e 0
  else
    let t := s.modAsync e fun c =>
      if b = 6 ∧ c.plat.isSome then c.continuePlat
      else
        let x := c.bank b
        { c.setBank b x.begin with run := b, lev := x.rlev, pc := x.rpc, idle := false }
    let t := t.setSlotPhase e 1
    if (t.promptDue e).isSome then t else t.takeSlotExpired e

/-- An overrun start, 01 R38. -/
def State.slotOverrun (s : State) (e : Nat) : State :=
  ((s.count (ENG_SLOT_OVR e) ENG_SLOT_OVR_COUNT 1).assert 899).recordReg 899 (unitEngine e) (ENG_SLOT_OVR e)

/-- A context that no slot end or slot start interrupts: the Fixed Escalation Handler, or a prompt handler in a tenant slot (09 R324 and R330). -/
def State.holdsOn (s : State) (e : Nat) : Bool := (s.core e).feh || (s.tenantSlot e && s.lev e == 3 && !(s.core e).idle)

/-- Slot `n` of engine `e` is enabled for this cycle: EVERY, or in the decision of the cycle, which stands after a commit (01 R28, 02 R65 and R71). -/
def State.slotEnabled (s : State) (e n : Nat) : Bool :=
  match s.logicalOf e with
  | none => false
  | some l =>
    s.rd (ENG_SLOTA e n) ENG_SLOTA_MODE == 1 || s.gav.dispatch.contains (l * 64 + n)

/-- Delivery of the start of slot `n`, 01 R29 to R31 and R38, 10 R363 and R374. -/
def State.slotStart (s : State) (e n : Nat) : State :=
  if !s.slotEnabled e n then s
  else
    let c := clusterOf e
    let s : State := { s with gav := { s.gav with dispatch := s.gav.dispatch.filter fun d => some (d / 64) != s.logicalOf e || d % 64 != n } }
    if s.hoPhase c = 4 ∧ s.hoSrc c = e then s.count (CLU_HOCNT c) CLU_HOCNT_SKIPPED 1
    else if (s.engine e).stopped then s
    else
      let s := (s.wr (ENG_SLOT_STAT e) ENG_SLOT_STAT_CUR n).wr (ENG_SLOT_STAT e) ENG_SLOT_STAT_REMAIN
        (s.rd (ENG_SLOTB e n) ENG_SLOTB_BUDGET)
      let s := s.modEngine e fun x => { x with cutoff := false }
      let recov := s.flag (ENG_TNG_STAT e) ENG_TNG_STAT_RECOV
      let s := if (s.engine e).inSlot.isSome || recov || s.holdsOn e then s.slotOverrun e else s
      if recov || s.holdsOn e then
        s.modEngine e fun x => { x with startPending := some n, closePending := x.closePending || (x.inSlot.isSome && !x.core.idle) }
      else
        let t := if (s.engine e).inSlot.isSome then (if s.slotPhase e = 1 then s.preempt e else s)
          else if (s.core e).idle then s
          else s.parkPlat e
        t.beginSlot e n

/-- SLOT_START. -/
def execSlotStart (e : EngId) (n : Fin 64) (s : State) : Host.Outcome State Fault Refusal := .next (s.slotStart e n)

/-- USABLE_PART_END: the budget counter reaches 2,000, 01 R31 and R32; a recovery or a prompt handler delays the closing sequence (10 R363, 09 R324). -/
def execUsablePartEnd (e : EngId) (s : State) : Host.Outcome State Fault Refusal :=
  .next (if (s.engine e).inSlot.isNone then s
    else
      let t := s.wr (ENG_SLOT_STAT e) ENG_SLOT_STAT_REMAIN 2000
      if t.slotPhase e ≠ 1 then t
      else if t.flag (ENG_TNG_STAT e) ENG_TNG_STAT_RECOV || t.holdsOn e then t.modEngine e fun x => { x with closePending := true }
      else t.preempt e)

/-- The slot is over, and with it the hold of a prompt entry that came late in it (09 R323): the engine is in an idle gap. -/
def State.leaveSlot (s : State) (e : Nat) : State :=
  (((s.setSlotPhase e 0).modEngine e fun x => { x with inSlot := none, closePending := false, reserveRec := 0 }).modAsync e fun c =>
    { c with promptHeld := c.promptHeld.map fun p => { p with late := false } }).resumePlat e

/-- SLOT_END: the budget counter reaches zero, 01 R34 and R35; an engine that holds the slot past its budget ends it later (01 R38).
A slot whose reserve has seen a second mismatch ends with its bank as at the last completed checkpoint, and its recovery ends with it, so that the next slot starts on time (01 R34). -/
def execSlotEnd (e : EngId) (s : State) : Host.Outcome State Fault Refusal :=
  .next (if (s.engine e).inSlot.isNone then s
    else
      let t := s.wr (ENG_SLOT_STAT e) ENG_SLOT_STAT_REMAIN 0
      if t.flag (ENG_TNG_STAT e) ENG_TNG_STAT_RECOV then
        let u := t.modAsync e fun c => c.park (t.curBank e)
        (if (t.engine e).reserveRec ≥ 2 then u.wr (ENG_TNG_STAT e) ENG_TNG_STAT_RECOV 0 else u).leaveSlot e
      else if t.holdsOn e then t
      else (if t.slotPhase e = 1 then t.preempt e else t).leaveSlot e)

/-- After a return from M level or a recovery: a closing sequence that waited runs, then a slot start that waited, 09 R324 and 10 R363. -/
def State.resumeSlots (s : State) (e : Nat) : State :=
  if s.holdsOn e || s.flag (ENG_TNG_STAT e) ENG_TNG_STAT_RECOV then s
  else
    let t := if (s.engine e).closePending then s.preempt e else s
    let t := if (t.engine e).inSlot.isSome && t.rd (ENG_SLOT_STAT e) ENG_SLOT_STAT_REMAIN == 0 then t.leaveSlot e else t
    match (t.engine e).startPending with
    | some n =>
      (if (t.core e).idle then t else t.parkPlat e).beginSlot e n
    | none => t

/-- Once the next delivery is near, a platform-time context stops at its next instruction boundary, commits and continues in the next platform time, 10 R363: after a recovery, the escalation handler or a prompt handler that still runs. -/
def State.stopPlat (s : State) (e : Nat) : State :=
  let c := s.core e
  if !(s.engine e).cutoff || s.tenantSlot e || c.idle || c.feh || c.prompting.isSome || s.flag (ENG_TNG_STAT e) ENG_TNG_STAT_RECOV ||
      (s.engine e).stopped then s
  else
    let t := s.parkPlat e
    if (t.engine e).inSlot.isSome then t.startClosing e else t

/-- PLATFORM_TIME_CUTOFF: the next delivery lies within 2,512 ECLK; platform time starts nothing and its running context stops, 10 R363. In a tenant slot the cutoff holds for the platform time that follows it. -/
def execPlatformTimeCutoff (e : EngId) (s : State) : Host.Outcome State Fault Refusal :=
  .next ((s.modEngine e fun x => { x with cutoff := true }).stopPlat e)

end Sys2Proof.Machine
end

