-- ==== Sys2Proof/Machine/Sys.lean ====
section
/-! DEFINITION. System and control-register instructions, entries and returns (07 R275 to R280, 09 R307 to R343). -/
namespace Sys2Proof.Machine
open Reg

/-! System instructions, 07 R275. -/

/-- SYSCALL. -/
def execSyscall (e : EngId) (code : BitVec 16) (s : State) : Host.Outcome State Fault Refusal :=
  .next (s.issue e 4 [] fun s => .fault ⟨cSyscall, 0, code.toNat, 0, true⟩ s)

/-- BREAK. -/
def execBreak (e : EngId) (s : State) : Host.Outcome State Fault Refusal :=
  .next (s.issue e 4 [] fun s => .fault ⟨cBreak, 0, 0, 0, true⟩ s)

/-- FENCE: a commit point that completes when every earlier scalar access of the bank has been released and acknowledged, 07 R275 and R277. -/
def execFence (e : EngId) (s : State) : Host.Outcome State Fault Refusal := .next (s.issue e 4 [] fun t => t.drained e (s.pc e) .kept)

/-- FENCE.I: as FENCE; prefetched instructions are no state of the model. -/
def execFenceI (e : EngId) (s : State) : Host.Outcome State Fault Refusal := .next (s.issue e 4 [] fun t => t.drained e (s.pc e) .kept)

/-- VWAIT: it completes when no instruction with a VT in the mask is unfinished, 03 R121; otherwise the core waits. -/
def execVwait (e : EngId) (mask : BitVec 16) (s : State) : Host.Outcome State Fault Refusal :=
  .next (s.issue e 4 [] fun s =>
    if (s.vsu e (s.core e).run).busy &&& mask.toNat = 0 then .done s else .stall)

/-- SLOTYIELD: the closing sequence, 01 R35 and 07 R277. -/
def execSlotyield (e : EngId) (s : State) : Host.Outcome State Fault Refusal :=
  .next (s.issue e 4 [] fun s =>
    let lev := s.lev e
    if lev = 3 ∨ (lev = 2 ∧ ((s.engine e).inSlot.isNone ∨ s.tenantSlot e)) then .fault (illegal (encSys 6 0 0)) s
    else .done (s.closing e))

/-- RDTIME: rd receives the TIME word. -/
def execRdtime (e : EngId) (rd : RegNo) (s : State) : Host.Outcome State Fault Refusal :=
  .next (s.issue e 4 [] fun s => .done (s.setG e rd ⟨tagTime, BitVec.ofNat 64 s.time⟩))

/-- The timebase state of RDTIMES, 07 R276. -/
def State.timeState (s : State) : Nat :=
  s.rd GAV_STAT GAV_STAT_STATE + s.rd GAV_STAT GAV_STAT_ACQ * 4 + s.rd GAV_STAT GAV_STAT_TAI_LOCK * 8

/-- RDTIMES: rd receives the TIME word and rd + 1 the timebase state; an odd rd is illegal. -/
def execRdtimes (e : EngId) (rd : RegNo) (s : State) : Host.Outcome State Fault Refusal :=
  .next (s.issue e 4 [] fun s =>
    if rd.toNat % 2 = 1 then .fault (illegal (encSys 8 rd.toNat 0)) s
    else .done ((s.setG e rd ⟨tagTime, BitVec.ofNat 64 s.time⟩).setG e (rd + 1) ⟨tagU64, BitVec.ofNat 64 s.timeState⟩))

/-- RDTAI: rd receives TAI in ns. -/
def execRdtai (e : EngId) (rd : RegNo) (s : State) : Host.Outcome State Fault Refusal :=
  .next (s.issue e 4 [] fun s => .done (s.setG e rd ⟨tagU64, BitVec.ofNat 64 s.gav.tai⟩))

/-! Return, 09 R326, R327 and R332. -/

/-- A word of the top frame of the escalation stack; an uncorrectable one reads as POISON, 06 R235. -/
def State.escWord (s : State) (e pa : Nat) : TWord :=
  if s.lvsFlaw e (escOffset pa) = .uncorrectable then twPoison else s.lvsWord e (escOffset pa)

/-- RETX in the Fixed Escalation Handler pops its frame, 09 R332; a level and bank that do not fit make the engine unfit. -/
def State.fehReturn (s : State) (e : Nat) : State :=
  let d := (s.core e).fehDepth
  let pa := 0xF00000000000 - 128 * d
  let w (i : Nat) : TWord := s.escWord e (pa + 8 * i)
  let st := (w 0).val.toNat
  let lev := bits st 6 2
  let bank := bits st 8 3
  let fits := if lev = 3 then bank == 7 else if lev = 2 then bank == 6 else decide (bank < 6)
  if !fits then s.unfit e
  else
    s.modCore e fun c =>
      let b := c.bank 7
      let b := { b with save := ⟨(w 6).val, (w 7).val, (w 8).val, (w 9).val, (w 10).val, (w 11).val⟩ }
      let b := (((b.setG 28 (w 12)).setG 29 (w 13)).setG 30 (w 14)).setG 31 (w 15)
      { c.setBank 7 (b.mark 8) with
        run := bank, lev := lev, pc := (w 1).val.toNat % 2 ^ 48, fehDepth := d - 1, feh := decide (1 < d) }

/-- After RETX: what waited for it, a platform-time context that the cutoff stops (10 R363), and in a slot of bank 6 whose context has not closed, a return to an idle gap finds that context (10 R363). -/
def State.returned (s : State) (e : Nat) : State :=
  let t := (s.resumeSlots e).stopPlat e
  let c := t.core e
  if c.idle && t.curBank e == some 6 && t.slotPhase e == 1 && !(t.engine e).cutoff then
    t.modCore e fun c => { c with run := 6, lev := (c.bank 6).rlev, pc := (c.bank 6).rpc, idle := false }
  else t

/-- RETX at S, P or M, 09 R326; the frozen instruction of the bank that faulted resumes when EPROG.VALID was 1. -/
def retxRes (e : Nat) (s : State) : Res :=
  let c := s.core e
  let l := c.lev
  if l = 0 then .fault (privOp (encSys 2 0 0)) s
  else if l = 3 ∧ c.feh then .done (((s.countNi e).fehReturn e).returned e)
  else
    let s := if l = 3 then s.countNi e else s
    let b := s.levBank e l
    let sv := (c.bank b).save
    let st := sv.estat.toNat
    let st' := if l = 3 then setBits (setBits st 15 1 0) 14 1 1 else setBits (setBits st 10 4 (bits st 6 4)) 14 1 1
    let valid := bits sv.eprog.toNat 45 1 == 1
    let sv' := { sv with estat := BitVec.ofNat 64 st', eprog := BitVec.ofNat 64 (setBits (setBits sv.eprog.toNat 45 1 0) 46 1 0) }
    let owner := if bits sv.ecause.toNat 16 1 = 1 then bits sv.ecause.toNat 17 3 else bits st 2 3
    let t := s.modCore e fun c =>
      let c := c.unnest l
      { c.setBank b ({ c.bank b with save := sv' }.mark 8) with
        run := bits st 2 3, lev := bits st 0 2, pc := sv.epc.toNat % 2 ^ 48, idle := bits st 5 1 == 1 }
    let t := if valid then t.lvResume e owner (bits sv.eprog.toNat 0 24) else t
    let t := t.returned e
    if valid then .settle t else .done t

/-- RETX. -/
def execRetx (e : EngId) (s : State) : Host.Outcome State Fault Refusal := .next (s.issue e 4 [] (retxRes e))

/-! Control registers, 07 R278 to R280 and 09 R343. -/

/-- What a control register admits: lowest level to read and to write (4 for none), RW bits and W1C bits; `wo` marks a register that is only written. -/
structure CrInfo where
  rl : Nat
  wl : Nat
  rw : Nat
  w1c : Nat
  wo : Bool
  deriving DecidableEq, Repr

/-- Bits of MDELEG and PDELEG that are not reserved, 09 R343. -/
def delegMask : Nat := 0xFFFFFFFF - (1 + 2 ^ 0x0B + 2 ^ 0x0E + 2 ^ 0x10 + 2 ^ 0x11) - 0xFFF00000

/-- RW bits of register `k` of the save set of level `l` (0 S, 1 P, 2 M). -/
def saveMask (l k : Nat) : Nat :=
  match k with
  | 0 => 2 ^ 48 - 1
  | 1 => if l = 2 then 0x4003 else 0x7FC3
  | 2 => 0x1FFF3F
  | 3 => 2 ^ 48 - 1
  | 4 => 2 ^ 24 - 1
  | _ => 2 ^ 64 - 1

/-- The control register of a number, 07 R279. -/
def crInfo (n : Nat) : Option CrInfo :=
  if n = 0x000 then some ⟨0, 0, 1 + 0xFFFF * 2 ^ 16 + 2 ^ 32, 0, false⟩
  else if n = 0x001 then some ⟨0, 0, 7 + 31 * 2 ^ 11 + 2 ^ 16, 0x7F0, false⟩
  else if 4 ≤ n ∧ n ≤ 7 then some ⟨0, 0, 2 ^ 26 - 1, 0, false⟩
  else if n = 0x010 then some ⟨0, 4, 0, 0, false⟩
  else if n = 0x011 then some ⟨1, 1, 1, 0, true⟩
  else if n = 0x012 then some ⟨1, 1, 7, 0, false⟩
  else if n = 0x013 ∨ n = 0x014 then some ⟨1, 4, 0, 0, false⟩
  else if n = 0x020 then some ⟨0, 4, 0, 0, false⟩
  else if 0x100 ≤ n ∧ n < 0x130 ∧ n % 16 ≤ 5 then
    let l := n / 16 % 16
    some ⟨l + 1, l + 1, saveMask l (n % 16), if n = 0x121 then 0x8000 else 0, false⟩
  else if n = 0x140 then some ⟨3, 3, delegMask, 0, false⟩
  else if n = 0x141 then some ⟨2, 2, delegMask, 0, false⟩
  else if n = 0x142 then some ⟨1, 1, 2 ^ 48 - 2 ^ 8, 0, false⟩
  else if n = 0x143 then some ⟨2, 2, 2 ^ 48 - 2 ^ 8, 0, false⟩
  else if n = 0x144 then some ⟨3, 3, 2 ^ 48 - 2 ^ 8, 0, false⟩
  else if n = 0x145 then some ⟨3, 4, 0, 0, false⟩
  else if n = 0x146 then some ⟨3, 3, 2 ^ 48 - 2 ^ 12, 0, false⟩
  else if n = 0x147 then some ⟨3, 4, 0, 0, false⟩
  else if n = 0x150 then some ⟨2, 2, 7, 0, false⟩
  else if n = 0x151 then some ⟨2, 2, 3, 0, true⟩
  else if n = 0x152 then some ⟨2, 2, 2 ^ 48 - 1, 0, false⟩
  else if n = 0x153 then some ⟨2, 2, 6, 0, false⟩
  else if n = 0x154 then some ⟨3, 4, 0, 0, false⟩
  else none

/-- The bank whose S save set or held registers an access reaches, 09 R309 and R343: the running bank at S, that of BANKSEL at P and M; none for BANKSEL 6 and 7. -/
def State.selBank (s : State) (e : Nat) : Option Nat :=
  let c := s.core e
  if c.lev ≤ 1 then some c.run else if c.banksel < 6 then some c.banksel else none

/-- Bank of the save set with number `l` (0 S, 1 P, 2 M). -/
def State.saveBank (s : State) (e l : Nat) : Option Nat := if l = 2 then some 7 else if l = 1 then some 6 else s.selBank e

/-- Register `k` of a save set. -/
def SaveSet.get (x : SaveSet) (k : Nat) : Word :=
  match k with
  | 0 => x.epc
  | 1 => x.estat
  | 2 => x.ecause
  | 3 => x.eaddr
  | 4 => x.eprog
  | _ => x.escr

/-- Write register `k` of a save set. -/
def SaveSet.set (x : SaveSet) (k : Nat) (v : Word) : SaveSet :=
  match k with
  | 0 => { x with epc := v }
  | 1 => { x with estat := v }
  | 2 => { x with ecause := v }
  | 3 => { x with eaddr := v }
  | 4 => { x with eprog := v }
  | _ => { x with escr := v }

/-- ENGID, 07 R280. -/
def State.engid (s : State) (e : Nat) : Nat :=
  let c := s.core e
  (s.logicalOf e).getD 0xFF + e * 2 ^ 8 + c.run * 2 ^ 16 + c.lev * 2 ^ 19 + s.bankTenant e c.run * 2 ^ 32

/-- BANKDIRTY, 09 R343. -/
def Core.dirtyWord (c : Core) : Nat := ((List.range 7).map fun b => (c.bank b).dirty * 2 ^ (9 * b)).sum

/-- The value that a control register reads as. EVEC_S is the running bank's (09 R309): DESIGN CHOICE, banks 6 and 7 hold none, so at P and M it reads 0 and keeps nothing. -/
def State.crRead (s : State) (e n : Nat) : Nat :=
  let c := s.core e
  let r := s.runBank e
  let v := s.vsu e c.run
  let sel (f : Bank → Nat) : Nat := match s.selBank e with | some b => f (c.bank b) | none => 0
  if n = 0x000 then r.astat.toNat
  else if n = 0x001 then r.vfcsr.toNat
  else if 4 ≤ n ∧ n ≤ 7 then (sget (fun _ => (0 : Word)) r.chop (n - 4)).toNat
  else if n = 0x010 then v.vstat
  else if n = 0x012 then v.vqsel
  else if n = 0x013 then v.vqpc
  else if n = 0x014 then v.vqprog
  else if n = 0x020 then s.engid e
  else if 0x100 ≤ n ∧ n < 0x130 then
    match s.saveBank e (n / 16 % 16) with
    | some b => ((c.bank b).save.get (n % 16)).toNat
    | none => 0
  else if n = 0x140 then c.mdeleg.toNat
  else if n = 0x141 then c.pdeleg.toNat
  else if n = 0x142 then if c.lev ≤ 1 then r.evec.toNat else 0
  else if n = 0x143 then (c.bank 6).evec.toNat
  else if n = 0x144 then (c.bank 7).evec.toNat
  else if n = 0x145 then c.nitime
  else if n = 0x146 then c.fehvec.toNat
  else if n = 0x147 then c.fehDepth
  else if n = 0x150 then c.banksel
  else if n = 0x152 then sel fun b => b.heldpc
  else if n = 0x153 then sel fun b => b2n b.held.isSome + b.heldlev * 2
  else if n = 0x154 then c.dirtyWord
  else 0

/-- Empty a tenant bank, 09 R314 and R335: registers EMPTY, queues empty, no resident tenant. -/
def State.vacateBank (s : State) (e b : Nat) : State :=
  let t := s.modCore e fun c => c.setBank b { Bank.reset b with dirty := 0 }
  (t.modVsu e b fun _ => BankVsu.reset).setBankTenant e b 0

/-- BANKCMD, 09 R314: RESUME and VACATE act on a HELD bank that BANKSEL names. -/
def State.bankCmd (s : State) (e op : Nat) : State :=
  let c := s.core e
  let b := c.banksel
  if b < 6 ∧ (c.bank b).held.isSome then
    if op = 1 then s.modBank e b fun x => { x with held := none, rpc := x.heldpc, rlev := x.heldlev }.mark 8
    else if op = 2 then s.vacateBank e b
    else s
  else s

/-- A write of EVEC_M: the copy into the prompt buffer starts or starts again, 09 R319. -/
def State.setEvecM (s : State) (e v : Nat) : State :=
  (s.modBank e 7 fun x => { x with evec := BitVec.ofNat 64 v }.mark 8).modEngine e fun x => { x with promptCopy := some v }

/-- Store the new value of a control register, and what the write starts. -/
def State.crStore (s : State) (e n v : Nat) : State :=
  let c := s.core e
  let w := BitVec.ofNat 64 v
  let sel (f : Bank → Bank) : State := match s.selBank e with | some b => s.modBank e b fun x => (f x).mark 8 | none => s
  if n = 0x000 then s.setAstat e v
  else if n = 0x001 then s.setVfcsr e v
  else if 4 ≤ n ∧ n ≤ 7 then s.modRun e fun x => { x with chop := sset (fun _ => 0) x.chop (n - 4) w }.mark 8
  else if n = 0x011 then (if v = 1 then s.lvClearRun e else s)
  else if n = 0x012 then s.modVsu e c.run fun x => { x with vqsel := v }
  else if 0x100 ≤ n ∧ n < 0x130 then
    match s.saveBank e (n / 16 % 16) with
    | some b =>
      let s := if b = 7 ∧ n % 16 = 1 ∧ bits v 15 1 = 0 then s.countNi e else s
      let old := ((c.bank b).save.get 1).toNat
      let w := if n % 16 = 1 ∧ v % 4 > n / 16 % 16 + 1 then BitVec.ofNat 64 (setBits v 0 2 (old % 4)) else w
      s.modBank e b fun x => { x with save := x.save.set (n % 16) w }.mark 8
    | none => s
  else if n = 0x140 then s.modCore e fun c => { c with mdeleg := w }
  else if n = 0x141 then s.modCore e fun c => { c with pdeleg := w }
  else if n = 0x142 then if c.lev ≤ 1 then s.modRun e fun x => { x with evec := w }.mark 8 else s
  else if n = 0x143 then s.modBank e 6 fun x => { x with evec := w }.mark 8
  else if n = 0x144 then s.setEvecM e v
  else if n = 0x146 then s.modCore e fun c => { c with fehvec := w, fehLocked := true }
  else if n = 0x150 then s.modCore e fun c => { c with banksel := if v % 8 < 6 then v % 8 else 0 }
  else if n = 0x151 then s.bankCmd e (v % 4)
  else if n = 0x152 then sel fun x => { x with heldpc := v }
  else if n = 0x153 then sel fun x => { x with heldlev := if bits v 1 2 ≤ 1 then bits v 1 2 else x.heldlev }
  else s

/-- New value of a register: OP 1 CRW, 2 CRS, 3 CRC, 07 R278. -/
def crNew (i : CrInfo) (op old v : Nat) : Nat :=
  let keep := old &&& (2 ^ 64 - 1 - i.rw)
  let w1c (x : Nat) : Nat := x &&& (2 ^ 64 - 1 - (i.w1c &&& v))
  if op = 1 then w1c (keep ||| (v &&& i.rw))
  else if op = 2 then old ||| (v &&& i.rw)
  else w1c (keep ||| (old &&& i.rw &&& (2 ^ 64 - 1 - v)))

/-- The level and decode checks of a control-register instruction, 07 R252, R279 and 03 R118: an unassigned CRN or a write of a register with no writable field is no instruction; a VSU register but VSTAT is out of U level's reach whatever the operation. -/
def crTrap (lev op : Nat) (crn : BitVec 12) (parcel : Nat) : Option Trap :=
  match crInfo crn.toNat with
  | none => some (illegal parcel)
  | some i =>
    if lev = 0 ∧ 0x010 ≤ crn.toNat ∧ crn.toNat ≤ 0x014 ∧ (op ≠ 0 ∨ crn ≠ 0x010) then some (privOp parcel)
    else if op ≠ 0 ∧ i.wl = 4 then some (illegal parcel)
    else if lev < (if op = 0 then i.rl else i.wl) then some (privOp parcel)
    else none

/-- A write of the locked FEHVEC changes nothing and returns ERR_PERM, 00 R7: DEDUCED, the instruction faults as 07 R270 says for that response; the register has no address, so EADDR is a free value (log entry 52). -/
def fehLockedRes (s : State) : Res :=
  let x := s.takeFree
  .fault (trap cPerm (x.1.toNat % 2 ^ 48) (accEscr 1 errPerm)) x.2

/-- A control-register instruction: OP 0 CRR, 1 CRW, 2 CRS, 3 CRC, 07 R278 and R279. NITIME counts on while NI = 1 (log entry 26). -/
def crRes (e op : Nat) (rd rs1 : RegNo) (crn : BitVec 12) (s : State) : Res :=
  let parcel := encCtl rd rs1 crn op
  match crTrap (s.lev e) op crn parcel with
  | some t => .fault t s
  | none =>
      let i := (crInfo crn.toNat).getD ⟨0, 0, 0, 0, false⟩
      let s := if crn = 0x145 then s.countNi e else s
      let old := s.crRead e crn.toNat
      if op = 0 then .done (s.setG e rd ⟨tagU64, BitVec.ofNat 64 old⟩)
      else
        match tagTrap tagN 0 0 (s.g e rs1).tag with
        | some t => .fault t s
        | none =>
          let v := (s.g e rs1).val.toNat
          let new := crNew i op old v
          if crn = 0x001 ∧ op ≠ 3 ∧ new % 8 > 4 then .fault (illegal parcel) s
          else if crn = 0x146 ∧ (s.core e).fehLocked then fehLockedRes s
          else
            let t := if i.wo ∧ op ≠ 1 then s else s.crStore e crn.toNat new
            .done (if rd = rs1 then t else t.setG e rd ⟨tagU64, BitVec.ofNat 64 old⟩)

/-- CRR. -/
def execCrr (e : EngId) (rd : RegNo) (crn : BitVec 12) (s : State) : Host.Outcome State Fault Refusal :=
  .next (s.issue e 4 [] (crRes e 0 rd 0 crn))

/-- CRW. -/
def execCrw (e : EngId) (rd rs1 : RegNo) (crn : BitVec 12) (s : State) : Host.Outcome State Fault Refusal :=
  .next (s.issue e 4 [.g rs1] (crRes e 1 rd rs1 crn))

/-- CRS. -/
def execCrs (e : EngId) (rd rs1 : RegNo) (crn : BitVec 12) (s : State) : Host.Outcome State Fault Refusal :=
  .next (s.issue e 4 [.g rs1] (crRes e 2 rd rs1 crn))

/-- CRC. -/
def execCrc (e : EngId) (rd rs1 : RegNo) (crn : BitVec 12) (s : State) : Host.Outcome State Fault Refusal :=
  .next (s.issue e 4 [.g rs1] (crRes e 3 rd rs1 crn))

/-- A write of a control register that is a command of its own: the level check, then the effect. -/
def State.crCommand (s : State) (e lev : Nat) (crn : BitVec 12) (f : State → State) : State :=
  s.issue e 4 [] fun s => if s.lev e < lev then .fault (privOp (encCtl 0 0 crn 1)) s else .done (f s)

/-- CLEAR: a write of 1 to VCTRL.CLEAR, 03 R115. -/
def execClear (e : EngId) (s : State) : Host.Outcome State Fault Refusal :=
  .next (s.crCommand e 1 0x011 fun s => s.lvClearRun e)

/-- EVEC_M: a write of EVEC_M, 09 R319. -/
def execEvecM (e : EngId) (v : Word) (s : State) : Host.Outcome State Fault Refusal :=
  .next (s.crCommand e 3 0x144 fun s => s.setEvecM e (v.toNat % 2 ^ 48 / 256 * 256))

/-- RESUME: a write of BANKCMD with OP 1, 09 R314. -/
def execResume (e : EngId) (s : State) : Host.Outcome State Fault Refusal :=
  .next (s.crCommand e 2 0x151 fun s => s.bankCmd e 1)

/-- VACATE: a write of BANKCMD with OP 2, 09 R314. -/
def execVacate (e : EngId) (s : State) : Host.Outcome State Fault Refusal :=
  .next (s.crCommand e 2 0x151 fun s => s.bankCmd e 2)

/-! Entries. -/

/-- Platform time in which an entry may start: no tenant slot, and not cut off before the next delivery, 09 R313 and 10 R363. -/
def State.platformTime (s : State) (e : Nat) : Bool := !s.tenantSlot e && !(s.engine e).cutoff

/-- The source presented to bank `b` of engine `e`. -/
def State.irqFor (s : State) (e b : Nat) : Option Nat := (s.logicalOf e).bind fun l => s.presented (l * 8 + b)

/-- ECAUSE of an interrupt, 09 R317. -/
def State.irqCause (s : State) (i : Nat) : Nat := 0x20 + s.prio i / 2

/-- The lowest bank whose held exception waits for delivery. -/
def Core.heldWaits (c : Core) : Option (Nat × HeldRec) :=
  (List.range 6).findSome? fun b => match (c.bank b).held with
    | some h => if h.sent then none else some (b, h)
    | none => none

/-- The held exception that its target level can accept now, 09 R313 and R315. -/
def State.heldReady (s : State) (e : Nat) : Option (Nat × HeldRec) :=
  let c := s.core e
  match c.heldWaits with
  | none => none
  | some (b, h) =>
    let ok := if h.target = 3 then s.saved e 3 && !s.niM e
      else decide (c.lev ≤ 2) && s.saved e 2 && s.iml e 2 != 15
    if ok && s.platformTime e && !c.feh then some (b, h) else none

/-- The interrupt that the core takes at this boundary, 09 R315, R316 and R320: target level and source. -/
def State.irqTaken (s : State) (e : Nat) : Option (Nat × Nat) :=
  let c := s.core e
  let m := match s.irqFor e 7 with
    | some i => if s.platformTime e && s.saved e 3 && !s.niM e then some (3, i) else none
    | none => none
  let p := match s.irqFor e 6 with
    | some i => if s.platformTime e && decide (c.lev ≤ 2) && s.saved e 2 && decide (s.prio i / 4 > s.iml e 2) then some (2, i) else none
    | none => none
  let t := match s.irqFor e c.run with
    | some i => if decide (c.run < 6) && decide (c.lev ≤ 1) && !c.idle && s.saved e 1 && decide (s.prio i / 4 > s.iml e 1) then some (1, i) else none
    | none => none
  match m with
  | some x => some x
  | none => match p with
    | some x => some x
    | none => t

/-- What the core takes at an instruction boundary, 09 R320, but for the exception of the instruction just attempted. -/
inductive Boundary where
  | prompt (p : PromptHold)
  | slotExpired
  | deferred (d : DefErr)
  | vector (f : VFault)
  | held (b : Nat) (h : HeldRec)
  | irq (level source : Nat)
  deriving DecidableEq, Repr

/-- The first that is pending, in the order of 09 R320. A REP.N, a BANKSAVE or a BANKLOAD in progress is awaited by all but prompt entry (R322), and the Fixed Escalation Handler by prompt entries, held exceptions and interrupts (R330). -/
def State.boundary (s : State) (e : Nat) : Option Boundary :=
  let c := s.core e
  match s.promptDue e with
  | some p => some (.prompt p)
  | none =>
    if (s.inProgress e).isSome then none
    else if !c.idle && (c.bank c.run).slotExp.isSome then some .slotExpired
    else
      match if c.idle then none else c.deferred.find? fun d => d.bank == c.run with
      | some d => some (.deferred d)
      | none =>
        match if c.idle || (match (c.bank c.run).gate with | .behind _ => true | _ => false) then none else s.faultWaits e with
        | some f => some (.vector f)
        | none =>
          match s.heldReady e with
          | some (b, h) => some (.held b h)
          | none => if c.feh then none else (s.irqTaken e).map fun p => .irq p.1 p.2

/-- Whether the core can take an entry: it is not stopped, halted or in recovery. -/
def State.canEnter (s : State) (e : Nat) : Bool :=
  let x := s.engine e
  !x.stopped && !x.halted && !s.flag (ENG_TNG_STAT e) ENG_TNG_STAT_RECOV

/-- Take the reported vector fault of the running bank, 03 R110. -/
def State.takeVector (s : State) (e : Nat) (f : VFault) : State :=
  (s.modRun e fun x => { x with faultTaken := true, gate := .free }).takeException e (s.pc e) ⟨f.cause, f.eaddr, f.escr, f.eprog.toNat, false⟩

/-- EXCEPTION_ENTRY: the fetch fault of the instruction just attempted, a pending SLOT_EXPIRED or the reported long-vector fault of the running bank is taken, 09 R310 to R321. -/
def execExceptionEntry (e : EngId) (s : State) : Host.Outcome State Fault Refusal :=
  .next (if !s.canEnter e then s
    else
      match if s.canIssue e then s.fetchTrap e else none with
      | some t => s.takeException e (s.pc e) t
      | none =>
        match s.boundary e with
        | some .slotExpired => s.takeSlotExpired e
        | some (.vector f) => s.takeVector e f
        | _ => s)

/-- STORE_DEFERRED_ERROR: the first error that waits for the running bank is taken at an instruction boundary, 07 R271 and 09 R320. -/
def execStoreDeferredError (e : EngId) (s : State) : Host.Outcome State Fault Refusal :=
  .next (if !s.canEnter e then s
    else
      match s.boundary e with
      | some (.deferred d) => (s.modAsync e fun c => { c with deferred := c.deferred.erase d }).takeException e (s.pc e)
          { cause := d.cause, eaddr := d.ea, escr := d.escr, eprog := 2 ^ 46, next := false }
      | _ => s)

/-- INTERRUPT_ENTRY: a presented interrupt is taken at an instruction boundary, 09 R315 to R320. -/
def execInterruptEntry (e : EngId) (s : State) : Host.Outcome State Fault Refusal :=
  .next (if !s.canEnter e then s
    else
      match s.boundary e with
      | some (.irq l i) => s.enter e l 0x80 (s.pc e) (s.irqCause i) 0 0 0
      | _ => s)

/-- HELD_DELIVERY: the held exception of the lowest bank enters its target level in platform time, above every interrupt of that level, 09 R313. -/
def execHeldDelivery (e : EngId) (s : State) : Host.Outcome State Fault Refusal :=
  .next (if !s.canEnter e then s
    else
      match s.boundary e with
      | some (.held b h) =>
        let t := s.modBank e b fun x => { x with held := some { h with sent := true } }
        t.enter e h.target 0 (s.pc e) (h.ecause.toNat + 2 ^ 16 + b * 2 ^ 17) h.eaddr.toNat h.eprog.toNat h.escr.toNat
      | _ => s)

/-- A prompt firing of source `i` is delivered to engine `e`, 02 R68 and 09 R323: a held entry is counted; one that arrives in a recovery is delivered when that ends (10 R361). -/
def State.promptDeliver (s : State) (e i : Nat) (late : Bool) : State :=
  let recov := s.flag (ENG_TNG_STAT e) ENG_TNG_STAT_RECOV
  let t := s.modAsync e fun c => { c with promptHeld := some (c.promptHeld.getD ⟨i, recov, !recov && s.tenantSlot e && late⟩) }
  if !recov && s.promptHold e late then t.count (ENG_EXC_PROMPTHOLD e) ENG_EXC_PROMPTHOLD_COUNT 1 else t

/-- PROMPT_ENTRY: the prompt handler is entered 12 ECLK after delivery or after the end of the hold, 09 R323; a hold that ends with the budget counter below 2,512 lasts to the end of the slot. -/
def execPromptEntry (e : EngId) (late : Bool) (s : State) : Host.Outcome State Fault Refusal :=
  .next (match (s.core e).promptHeld with
    | none => s
    | some p =>
      let p := { p with late := s.tenantSlot e && (p.late || late) }
      if p.inRec || s.promptHold e p.late || !s.canEnter e then s.modAsync e fun c => { c with promptHeld := some p }
      else
        ((s.modCore e fun c => { c with promptHeld := none }).enter e 3 0x100 (s.pc e) (s.irqCause p.src + 2 ^ 20) 0 0 0).modCore e fun c =>
          { c with prompting := some (c.prompting.getD 0) })

/-- NI_TIMEOUT: NITIME reaches 512, 09 R325. -/
def execNiTimeout (e : EngId) (s : State) : Host.Outcome State Fault Refusal :=
  .next (if s.niM e then
      let sv := ((s.core e).bank 7).save
      let t := s.modBank e 7 fun x => { x with save := { x.save with estat := BitVec.ofNat 64 (setBits x.save.estat.toNat 15 1 0) } }.mark 8
      let t := (t.modCore e fun c => { c with nitime := 512 }).count (ENG_EXC_NIOVR e) ENG_EXC_NIOVR_COUNT 1
      t.recordCode 0x1C04 sevWarning (unitEngine e) (sv.ecause.toNat % 2 ^ 32) (sv.epc.toNat % 2 ^ 32) 0
    else s)

/-- PROMPT_COPY_DONE: the 256 bytes at EVEC_M + 0x100 stand in the prompt buffer, 09 R319. -/
def execPromptCopyDone (e : EngId) (s : State) : Host.Outcome State Fault Refusal :=
  .next (match (s.engine e).promptCopy with
    | none => s
    | some v =>
      let r := (List.range 4).foldl (fun (z : List TWord × State) i =>
        let x := z.2.lvReadLine e 3 0 ((v + 0x100 + 64 * i) % 2 ^ 48) none
        (z.1 ++ x.2.1, x.2.2)) ([], s)
      r.2.modEngine e fun x => { x with prompt := r.1, promptCopy := none })

end Sys2Proof.Machine
end

