-- ==== Sys2Proof/Machine/Tango.lean ====
section
/-! DEFINITION. Lockstep recovery, retirement, handover and reinstatement (10 R356 to R383), residue rewinds, and the update controller's spare load. -/
namespace Sys2Proof.Machine
open Reg

/-! Recovery. -/

/-- Instants within the last second of `now` after a new one. -/
def recent (now : Nat) (l : List Nat) : List Nat := now :: (l.filter fun t => decide (now < t + 1000000000))

/-- A dirty line whose two copies pass and differ, or both fail, is written back with eight POISON tags and invalidated, 10 R358; the event is logged as an uncorrectable line (06 R221, log entry 33). -/
def State.scrubBad (s : State) (e l : Nat) : State :=
  let d := s.dirEntry l
  if bits d.sharers (clusterOf e) 1 = 1 ∧ d.st = 3 then
    let sl := s.sliceOf (l * 64)
    ((((s.cohFull l d.keyid poisonLine).2.slcLog sl 1 l d.keyid).count (SLC_UE sl) SLC_UE_COUNT 1).slcEvent sl SLC_ERR_UE sevError d.keyid)
  else s

/-- The Steward pair begins a recovery, 10 R383. -/
def State.stewardRecovery (s : State) : State :=
  let l := recent s.gav.mono s.upd.stw
  let t : State := { s with upd := { s.upd with stw := l.take 3 } }
  if l.length ≥ 3 then (t.assert 896).recordSev 896 sevCritical unitSteward 0 0 0 else t

/-- The groups that flag an event of a kind, 10 R346, R349 and R384: 22 and 23 flag an exchange, the others a comparator mismatch. -/
def kindGrp (kind grp : Nat) : Bool := if kind = 0 then decide (grp < 22) else if kind = 4 then decide (22 ≤ grp) else true

/-- Registers of a detection, 10 R384; `grp` names the group of a comparator mismatch or of an exchange. -/
def State.countMismatch (s : State) (e kind grp : Nat) : State :=
  let s := (s.count (ENG_TNG_MISM e) ENG_TNG_MISM_COUNT 1).wr (ENG_TNG_MISM e) ENG_TNG_MISM_LASTKIND kind
  let s := if kind = 0 ∨ kind = 4 then s.wr (ENG_TNG_MISM e) ENG_TNG_MISM_LASTGRP grp else s
  s.setReg (ENG_TNG_LASTTAI e) (BitVec.ofNat 64 s.gav.tai)

/-- An event of 08 R299 is counted with its MA. -/
def State.countUe (s : State) (e kind ma : Nat) : State :=
  if 1 ≤ kind ∧ kind ≤ 3 then (s.count (ENG_UC_UE e) ENG_UC_UE_COUNT 1).wr (ENG_UC_UE e) ENG_UC_UE_LASTMA ma else s

/-- A long-vector instruction whose issue no completed commit covers is cancelled, 10 R355. -/
def State.cancelIssue (s : State) (e : Nat) (x : Option (Nat × Nat)) : State :=
  match x with
  | some (b, q) => s.modVsu e b fun v => { v with ents := v.ents.filter fun y => y.qe != q }
  | none => s

/-- DISCARD and RESTORE: the stores and register writes after the checkpoint are dropped and the lock is released, 10 R357 and R359. -/
def State.rollBack (s : State) (e : Nat) : State :=
  let x := s.engine e
  let t := (s.cancelIssue e x.newLv).cancelIssue e (x.commit.bind (·.lv))
  (t.lkrel (clusterOf e) (posOf e)).modEngine e fun x =>
    { x with core := x.ckpt, commit := none, stores := [], icount := 0, newLv := none, lock := none, busy := none, fenced := false }

/-- Recovery of engine `e`, 10 R356 to R367: `bad` lists the cache lines of R358, which SCRUB or the FLUSH of a takeover treats (R372), and `lost` says that a checkpoint word fails in both stores, which RESTORE finds after SCRUB (R359). -/
def State.recovery (s : State) (e kind grp ma : Nat) (bad : List Nat) (lost : Bool) : State :=
  if ((s.engine e).stopped && s.role e != 1 && s.role e != 7) || s.flag (ENG_TNG_STAT e) ENG_TNG_STAT_RECOV then s
  else
    let l := recent s.gav.mono (s.engine e).recHist
    let t := (((s.countMismatch e kind grp).countUe e kind ma).rollBack e).modEngine e fun x => { x with recHist := l.take 3 }
    let t := if 1 ≤ kind ∧ kind ≤ 3 then t.mendStore e ma else t
    let t := (eachDo bad (fun n u => u.scrubBad e n) t).dropCores e true true false
    if l.length ≥ 3 then t.retireEngine e 2
    else if lost then t.retireEngine e 3
    else
      let t := if (t.hoPhase (clusterOf e) = 1 ∨ t.hoPhase (clusterOf e) = 2) ∧
            (t.hoSrc (clusterOf e) = e ∨ t.hoDst (clusterOf e) = e) then
          t.hoAbandon (clusterOf e) else t
      let res := (t.engine e).inSlot.isSome && decide (t.rd (ENG_SLOT_STAT e) ENG_SLOT_STAT_REMAIN ≤ 2000)
      (t.modEngine e fun x => { x with reserveRec := x.reserveRec + b2n res }).wr (ENG_TNG_STAT e) ENG_TNG_STAT_RECOV 1

/-- LOCKSTEP_RECOVERY of engine `e`, or of the Steward pair: KIND as LASTKIND, 10 R384. -/
def execLockstepRecovery (e : Option EngId) (kind : Fin 5) (grp : Fin 24) (ma : BitVec 15) (bad : List LineNo) (lost : Bool) (s : State) :
    Host.Outcome State Fault Refusal :=
  .next (match e with
    | none => s.stewardRecovery
    | some e => if kindGrp kind grp then s.recovery e kind grp ma.toNat (bad.map (·.val)) lost else s)

/-- RECOVERY_END: source 848 + cluster, then what waited for the end, 10 R357, R361 and R363: a closing sequence that the recovery met runs again (01 R33); `late` as in PROMPT_ENTRY. -/
def execRecoveryEnd (e : Option EngId) (late : Bool) (s : State) : Host.Outcome State Fault Refusal :=
  .next (match e with
    | none => (s.assert 896).record 896 unitSteward 0 0 0
    | some e =>
      if s.flag (ENG_TNG_STAT e) ENG_TNG_STAT_RECOV then
        let t := s.wr (ENG_TNG_STAT e) ENG_TNG_STAT_RECOV 0
        let t := if t.slotPhase e = 2 then t.modEngine e fun x => { x with closeAt := t.gav.mono } else t
        let t := (t.assert (848 + clusterOf e)).recordReg (848 + clusterOf e) (unitEngine e) (ENG_TNG_MISM e)
        let t := (t.resumeSlots e).stopPlat e
        match (t.core e).promptHeld with
        | some p =>
          let u := t.modAsync e fun c => { c with promptHeld := some { p with inRec := false, late := p.late || (t.tenantSlot e && late) } }
          if p.inRec && u.promptHold e late then u.count (ENG_EXC_PROMPTHOLD e) ENG_EXC_PROMPTHOLD_COUNT 1 else u
        | none => t
      else s)

/-- FEH_TIMEOUT: the handler has run for 4,096 ECLK, 09 R330. -/
def execFehTimeout (e : EngId) (s : State) : Host.Outcome State Fault Refusal :=
  .next (if (s.core e).feh then s.unfit e else s)

/-- RESIDUE_REWIND: a block of entry `q` is discarded and runs again, 03 R129, 05 R189 and 10 R366; none is a short-vector or scalar operation, 10 R365. -/
def execResidueRewind (e : EngId) (q : Option (Fin 6)) (s : State) : Host.Outcome State Fault Refusal :=
  .next (match q with
    | none => s.count (ENG_TNG_SVRETRY e) ENG_TNG_SVRETRY_COUNT 1
    | some q =>
      let b := s.vsuBank e
      match (s.vsu e b).ent q with
      | none => s
      | some x =>
        if !s.lvReady e b x then s
        else
          let t := (s.count (ENG_VSU_REWIND e) ENG_VSU_REWIND_COUNT 1).modEnt e b q fun y => { y with rewinds := y.rewinds + 1 }
          let t := if x.ringDst then t.sendDown e [.rewindMarker] else t
          if x.rewinds + 1 ≥ 8 then t.retireEngine e 2 else t)

/-! Takeover and handover. -/

/-- TAKEOVER_SWAP: the copy of cluster `c` ends, 10 R372; a spare that is LOADING completes its load first (16 R528). -/
def execTakeoverSwap (c : Fin 16) (s : State) : Host.Outcome State Fault Refusal :=
  .next (if s.hoPhase c = 4 ∧ s.role (s.hoDst c) ≠ 7 then
      let src := s.hoSrc c
      let dst := s.hoDst c
      let k := s.undecided src
      let ring := s.rd (ENG_CHN_CFG src) ENG_CHN_CFG_POS != 0
      let t := s.swapIndex c (s.engine src).retireRole
      let t := t.count (CLU_HOCNT c) CLU_HOCNT_TAKEOVERS 1
      let t := if ring then t.originate dst k cChainFault 4 none else t
      ((t.setHoPhase c 6).retireEvent c).updLost c
    else s)

/-- A write of CLU_HOCMD by a requester, 10 R379: another master receives ERR_PERM, a command that does not match the state ERR_TARGET. -/
def State.hoCmd (s : State) (r : Requester) (ok : Bool) (f : State → State) : State :=
  if r != .steward then s.reply errPerm []
  else if !ok then s.reply errTarget []
  else (f s).reply respOk []

/-- Active index `i` of cluster `c` can be handed over: it is served, a spare is fit and not LOADING, nothing runs there, and no handover runs elsewhere (17 R549). -/
def State.hoCan (s : State) (c i : Nat) : Bool :=
  let p := s.spmap c i
  i < 12 && p < 13 && s.role (c * 13 + p) == 0 && (s.fitSpare c).any (fun d => s.role d == 1) &&
    (s.hoPhase c == 0 || s.hoPhase c == 6 || s.hoPhase c == 7) && !s.hoRuns

/-- HANDOVER: CLU_HOCMD OP 1. -/
def execHandover (r : Requester) (c : Fin 16) (i : Fin 16) (timeout : BitVec 16) (s : State) : Host.Outcome State Fault Refusal :=
  .next (s.hoCmd r (s.hoCan c i) fun s => s.hoStart c i false timeout.toNat)

/-- RETIRE: CLU_HOCMD OP 2. -/
def execRetire (r : Requester) (c : Fin 16) (i : Fin 16) (timeout : BitVec 16) (s : State) : Host.Outcome State Fault Refusal :=
  .next (s.hoCmd r (s.hoCan c i) fun s => s.hoStart c i true timeout.toNat)

/-- TEST: CLU_HOCMD OP 3 on a RETIRED or UNFIT position, 10 R380 and R382. -/
def execTest (r : Requester) (c : Fin 16) (p : Fin 16) (s : State) : Host.Outcome State Fault Refusal :=
  .next (let e := c.val * 13 + p.val
    s.hoCmd r (decide (p.val < 13) && (s.role e == 2 || s.role e == 3) && s.rd (ENG_TNG_STAT e) ENG_TNG_STAT_RETCNT != 3 &&
        (s.hoPhase c == 0 || s.hoPhase c == 6 || s.hoPhase c == 7)) fun s =>
      ((s.wr (CLU_HOSTAT c) CLU_HOSTAT_SRC p).setRole e 4).setHoPhase c 5)

/-- A fresh active index: banks 0 to 5 vacant, 6 and 7 fresh, the slot table of the current configuration, 10 R381. -/
def State.freshIndex (s : State) (e l : Nat) : State :=
  let t := s.modEngine e Engine.emptied
  let t := (t.setReg (ENG_BANK_TENANT e) 0).setReg (ENG_BANK_TENANT2 e) 0
  let t := eachDo (List.range 64) (fun n t =>
    let ws := t.elem 2 0 l
    (t.setReg (ENG_SLOTA e n) (ws.getD (2 * n) 0)).setReg (ENG_SLOTB e n) (ws.getD (2 * n + 1) 0)) t
  { t with upd := { t.upd with epochs := sset (fun _ => 0) t.upd.epochs l (sget (fun _ => 0) t.upd.epochs l + 1) } }

/-- REINSTATE: CLU_HOCMD OP 4 on a TESTED_GOOD position, 10 R381. -/
def execReinstate (r : Requester) (c : Fin 16) (p : Fin 16) (s : State) : Host.Outcome State Fault Refusal :=
  .next (let e := c.val * 13 + p.val
    s.hoCmd r (decide (p.val < 13) && s.role e == 5 && s.rd (CLU_RED c) CLU_RED_MODE != 0) fun s =>
      match (List.range 12).find? fun i => s.spmap c i == 15 with
      | none => (((s.modEngine e Engine.emptied).setRole e 1).setSpare c p).showRed c
      | some i =>
        let t := (s.freshIndex e (c.val * 12 + i)).setSpmap c i p
        (((t.setRole e 0).modEngine e fun x => { x with ring := { x.ring with lost := true } }).showRed c).refreshAll)

/-- ABORT: CLU_HOCMD OP 5 abandons a handover before SWAP, 10 R378. -/
def execAbort (r : Requester) (c : Fin 16) (s : State) : Host.Outcome State Fault Refusal :=
  .next (s.hoCmd r (s.hoPhase c == 1 || s.hoPhase c == 2) fun s => s.hoAbandon c)

/-- The outcome of the comparator test of an engine, 10 R370 and R384: every group flags its injection and nothing else does. -/
def State.selfTest (s : State) (e : Nat) (flags : BitVec 24) : State :=
  s.setReg (ENG_TNG_SELFTEST e) (BitVec.ofNat 64 (flags.toNat + (if flags.toNat = 2 ^ 24 - 1 then 1 else 2) * 2 ^ 24))

/-- PRECOPY_DONE: the spare has passed its comparator test (`flags`) and the first LVS pass ends, 10 R377; a spare that fails is UNFIT (R371). -/
def execPrecopyDone (c : Fin 16) (flags : BitVec 24) (s : State) : Host.Outcome State Fault Refusal :=
  .next (if s.hoPhase c = 1 then
      let t := s.selfTest (s.hoDst c) flags
      if flags.toNat = 2 ^ 24 - 1 then ((t.foxAbandon (t.hoSrc c)).copyLvs (t.hoSrc c) (t.hoDst c)).waitGap c
      else t.retireEngine (t.hoDst c) 3
    else s)

/-- Angle units from now to the next start that can be delivered to engine `e`: of a TRIGGERED slot that this cycle does not run, its angle of the next cycle; none for an engine with no slot (10 R377, log entry 33). -/
def State.idleGap (s : State) (e : Nat) : Option Nat :=
  let now := s.time % 2 ^ 32
  let ds := ((List.range 64).filter fun n => s.rd (ENG_SLOTA e n) ENG_SLOTA_MODE != 0).map fun n =>
    let a := s.rd (ENG_SLOTA e n) ENG_SLOTA_ANGLE
    if now < a ∧ s.slotEnabled e n then a - now else a + 2 ^ 32 - now
  ds.foldl (fun m d => some (m.elim d (min d))) none

/-- The idle gap that has begun is at least NEED + 2,000 ECLK long, reckoned at FMAX, 10 R377. -/
def State.gapFits (s : State) (c : Nat) : Bool :=
  match s.idleGap (s.hoSrc c) with
  | none => true
  | some d =>
    decide ((s.rd (CLU_HOSTAT c) CLU_HOSTAT_NEED + 2000) * s.rd GAV_TRACK GAV_TRACK_FMAX * 2 ^ 32 ≤ d * sget (fun _ => 1500) s.mrg.eclk c * 10 ^ 8)

/-- HANDOVER_SWAP: in an idle gap long enough, the engine commits and its state moves, 10 R377. -/
def execHandoverSwap (c : Fin 16) (s : State) : Host.Outcome State Fault Refusal :=
  .next (let src := s.hoSrc c
    if s.hoPhase c = 2 ∧ (s.engine src).inSlot.isNone ∧ !s.flag (ENG_TNG_STAT src) ENG_TNG_STAT_RECOV ∧ !(s.engine src).stopped ∧
        (s.engine src).pend = [] ∧ !(s.core src).feh ∧ s.gapFits c then
      let ret := (s.handover c).1
      let t := s.parkPlat src
      let t := (t.setHoPhase c 3).swapIndex c (if ret then 2 else 1)
      let t := t.resumePlat (t.hoDst c)
      let t := (t.count (CLU_HOCNT c) CLU_HOCNT_HANDOVERS 1).setHoPhase c 6
      let t := if ret then t.retireEvent c else t
      if t.updRuns c then
        let t : State := { t with upd := { t.upd with next := t.upd.next + 1, tries := 0 } }
        t.updLoad c
      else t.updGo
    else s)

/-- HANDOVER_TIMEOUT: TIMEOUT mains cycles have passed in WAITGAP, 10 R378. -/
def execHandoverTimeout (c : Fin 16) (s : State) : Host.Outcome State Fault Refusal :=
  .next (if s.hoPhase c = 2 ∧ s.gapTimedOut c then s.hoAbandon c else s)

/-- The read check of TEST finds no uncorrectable control-store word in either copy, 10 R380. -/
def State.storesGood (s : State) (e : Nat) : Bool := s.mem.ucFlaws.all fun p => p.1 / 2 ^ 16 != e || p.2 != .uncorrectable

/-- ENGINE_TEST_DONE: TEST of the engine in cluster `c` ends; `good` says that March C− and the residue self-test passed, 10 R380. -/
def execEngineTestDone (c : Fin 16) (flags : BitVec 24) (good : Bool) (s : State) : Host.Outcome State Fault Refusal :=
  .next (if s.hoPhase c = 5 then
      let e := s.hoSrc c
      ((s.selfTest e flags).setRole e (if good && s.storesGood e && flags.toNat == 2 ^ 24 - 1 then 5 else 6)).setHoPhase c 6
    else s)

/-- Control stores and decode table of version v go into an engine, 17 R549. -/
def State.loadStore (s : State) (e : Nat) : State :=
  let u := s.upd
  let t := (s.modEngine e fun x => { x with ustore := u.store }).freshStore e
  let t := t.setReg (ENG_UC_STAT e) (BitVec.ofNat 64 (u.patch.getD 0 + b2n u.patch.isSome * 2 ^ 16 + b2n u.cust * 2 ^ 17 + (u.store.traps.length % 128) * 2 ^ 24))
  let t := t.wr (ENG_UC_CVER e) ENG_UC_CVER_VERSION u.cver
  eachDo (List.range 16) (fun n t => t.setReg (ENG_UDEC e n) (u.dec.getD n 0)) t

/-- SPARE_LOAD_DONE: the spare of the cluster in progress has its new image and has passed R370, 17 R549; a spare that fails is UNFIT. -/
def execSpareLoadDone (flags : BitVec 24) (s : State) : Host.Outcome State Fault Refusal :=
  .next (let c := s.rd UPD_STAT UPD_STAT_CLUSTER
    match s.fitSpare c with
    | none => s
    | some e =>
      if s.role e ≠ 7 then s
      else
        let t := ((s.loadStore e).wr (UPD_ENGVER e) UPD_ENGVER_VERSION (s.rd UPD_STAT UPD_STAT_NEXTVER)).selfTest e flags
        if flags.toNat ≠ 2 ^ 24 - 1 then (t.setRole e 1).retireEngine e 3
        else
          let t := t.setRole e 1
          if t.flag UPD_STAT UPD_STAT_MODE ∧ t.rd UPD_STAT UPD_STAT_PHASE = 3 then t.updIndex c else t)

end Sys2Proof.Machine
end

