-- ==== Sys2Proof/Machine/Loader.lean ====
section
/-! DEFINITION. The bitstream loader: what each element sets, staging, arming, fill and commit (15 R509 to R519). -/
namespace Sys2Proof.Machine
open Reg

/-! Taking up elements, 15 R509 and R515. -/

/-- Set registers to the words of an element from word `i`; a removed element leaves their reset values. -/
def State.setElem (s : State) (ws : List Word) (offs : List Nat) : State :=
  eachDo offs.zipIdx (fun p t => t.setReg p.1 (match ws with | [] => regReset p.1 | _ => ws.getD p.2 0)) s

/-- The engines whose registers hold what the configuration gives active index `l`: the one that serves it and, between COPY and SWAP of a takeover or handover, the one that will, R517. -/
def State.holders (s : State) (l : Nat) : List Nat :=
  match s.physOf l with
  | none => []
  | some e => if (s.hoPhase (l / 12) = 3 ∨ s.hoPhase (l / 12) = 4) ∧ s.hoSrc (l / 12) = e then [e, s.hoDst (l / 12)] else [e]

/-- The slot table of logical engine `l`, 01 R27. -/
def State.takeSlotTable (s : State) (l : Nat) (ws : List Word) : State :=
  eachDo (s.holders l) (fun e t => t.setElem ws ((List.range 64).flatMap fun n => [ENG_SLOTA e n, ENG_SLOTB e n])) s

/-- The chains of a topology: head, members and tenant, 05 R179. -/
def chainsOf (ws : List Word) : List (Nat × List Nat × Nat) :=
  let links := bits (elemWord ws 0) 0 12
  ((List.range 12).filter fun h => cHead links h).map fun h => (h, cChain links h 11, elemWord ws (1 + h))

/-- A chain that changes freezes with reason CLEAR, originated at its head, 15 R515. -/
def State.clearChain (s : State) (c : Nat) (h : Nat) (ms : List Nat) : State :=
  match s.physOf (12 * c + h) with
  | none => s
  | some e =>
    let i : FreezeInfo := { blk := s.undecided e, eng := 12 * c + h, pos := 1, cause := cChainFault, reason := 2 }
    let t := eachDo (ms.filterMap fun k => s.physOf (12 * c + k)) (fun m t => t.takeFreeze m i false none) s
    t.recordCode 0x1C06 sevWarning (unitEngine e) (i.escr % 2 ^ 32) (64 * i.blk) (s.rd (ENG_CHN_CFG e) ENG_CHN_CFG_TENANT)

/-- ENG_CHN_CFG of active index `i` under a topology, 05 R199. -/
def chainCfg (ws : List Word) (i : Nat) : Nat :=
  match (chainsOf ws).find? fun x => x.2.1.contains i with
  | none => 0
  | some x =>
    let pos := (x.2.1.findIdx? (· == i)).getD 0 + 1
    b2n (decide (pos > 1)) + 2 * b2n (decide (pos < x.2.1.length)) + pos * 4 + x.2.1.length * 2 ^ 6 + x.2.2 * 2 ^ 16

/-- The chain topology of cluster `c`: chains that change freeze, and one that is redefined is no longer LOST, 15 R515. -/
def State.takeChains (s : State) (c : Nat) (old ws : List Word) (commit : Bool) : State :=
  let gone := (chainsOf old).filter fun x => !(chainsOf ws).contains x
  let t := if commit then eachDo gone (fun x t => t.clearChain c x.1 x.2.1) s else s
  let t := eachDo (List.range 12) (fun i t =>
    eachDo (t.holders (12 * c + i)) (fun e t => t.setReg (ENG_CHN_CFG e) (BitVec.ofNat 64 (chainCfg ws i))) t) t
  eachDo ((chainsOf ws).flatMap fun x => x.2.1.filterMap fun k => t.physOf (12 * c + k))
    (fun e t => t.modRing e fun r => { r with lost := false }) t

/-- A pin's configuration: at start-up its function acts at once, and a function switch by a commit acts from E0, the next PCLK edge, with the samples from E0 to E1 hidden, 19 R593. -/
def State.takePin (s : State) (n : Nat) (ws : List Word) (commit : Bool) : State :=
  let t := s.setElem ws [PIN_CFG n]
  if !commit then ((t.drivePin n).edgesSee n).unsettled s.nextPclk
  else if t.rd (PIN_CFG n) PIN_CFG_FUNC = s.rd (PIN_CFG n) PIN_CFG_FUNC then t
  else
    let t : State := { t with ic := { t.ic with gpHigh := sset (fun _ => false) t.ic.gpHigh (32 + n) false } }
    let t : State := { t with pins := { t.pins with blind := sset (fun _ => 0) t.pins.blind n s.nextPclk } }
    t.unsettled (s.nextPclk + 10)

/-- The port mode element of port `p`, 14 R469 and R497; with no element the reset values. -/
def State.takePort (s : State) (p : Nat) (ws : List Word) : State :=
  let m := bits (elemWord ws 0) 0 3
  let t := if m = s.portMode p then s else s.newMode p m
  t.setElem (ws.drop 1) ([OCT_VCBUF0 p, OCT_VCBUF1 p] ++ (List.range 8).map fun l => OCT_MAC p l)

/-- The global Gavotte record, 02 R79; the rate keeps to the new limits, a FREE unit that steers to nothing runs at FNOM (02 R54), and the reference is chosen from the new list (02 R52). -/
def State.takeGav (s : State) (ws : List Word) : State :=
  let t := (s.wr GAV_CTRL GAV_CTRL_REVERT (bits (elemWord ws 0) 1 1)).wr GAV_CTRL GAV_CTRL_ROT (bits (elemWord ws 0) 2 1)
  let t := t.setElem (ws.drop 1) [GAV_REFSEL, GAV_TRACK, GAV_FNOM, GAV_OFFSET, GAV_TRIG_SPLIT]
  let t := if t.rd GAV_STAT GAV_STAT_STATE = 2 ∧ !t.flag GAV_STAT GAV_STAT_ACQ then t.setRate t.rateNominal else t.setRate (t.rd GAV_FREQ GAV_FREQ_FREQ)
  if t.rd GAV_STAT GAV_STAT_STATE ≠ 0 then t.reacquire
  else if t.refList.contains (t.rd GAV_STAT GAV_STAT_REF) then t else t.refLost

/-- A trigger entry of the Gavotte frame, 02 R61 and R64. -/
def State.takeTrigger (s : State) (n : Nat) (ws : List Word) : State :=
  let t := s.setElem ws [GAV_TRIGA n, GAV_TRIGB n]
  ({ t with gav := { t.gav with next := sset (fun _ => none) t.gav.next n none } } : State).lateCheck n

/-- A source's routing, 12 R434. -/
def State.takeSource (s : State) (i : Nat) (ws : List Word) : State :=
  let t := s.setSrcCfg i (ws.getD 0 0)
  t.setElem (ws.drop 1) [IC_SRC_TGT i 0, IC_SRC_TGT i 1, IC_SRC_TGT i 2, IC_SRC_TGT3 i]

/-- New keys of a tenant, 06 R216. -/
def State.newKeys (s : State) (t : Nat) : State :=
  { s with mem := { s.mem with keygen := sset (fun _ => 0) s.mem.keygen t (s.keyGen t + 1) } }

/-- A word of the customer area, in every engine, 08 R302. -/
def State.takeMicro (s : State) (k : Nat) (ws : List Word) : State :=
  eachDo (List.range 208) (fun e t => t.modEngine e fun x =>
    { x with ustore := { x.ustore with words := sset (fun _ => 0) x.ustore.words (0x5000 + k) (BitVec.ofNat 144 (mwOfElem ws)) } }) s

/-- An entry of the decode table of a configuration with its path lengths, 08 R300 and R306. -/
def cDecode (cfg : Sparse (List Word)) (ws : List Word) : Word :=
  let w := bits (elemWord ws 0) 0 15
  let r := mpRange (fun a => mwOfElem (celem cfg 12 0 (a - 0x5000))) (bits w 1 12)
  BitVec.ofNat 64 (if bits w 0 1 = 1 then w + r.1 * 2 ^ 16 + r.2 * 2 ^ 32 else w)

/-- An entry of the decode table goes into every engine. -/
def State.takeDecode (s : State) (n : Nat) (ws : List Word) : State :=
  eachDo (List.range 208) (fun e t => t.setReg (ENG_UDEC e n) (cDecode s.cfg ws)) s

/-- One record takes effect; `commit` tells a delta from the full load. The configuration already holds the record. -/
def State.takeRec (s : State) (old : Sparse (List Word)) (commit : Bool) (r : Rec) : State :=
  let ws := r.words
  let k := r.key
  match r.ty, r.kind with
  | 2, 0 => s.takeSlotTable k ws
  | 3, 0 => s.takeChains k (celem old 3 0 k) ws commit
  | 5, 0 => if r.remove then s else s.newKeys k
  | 6, 1 => if commit then s.requeue k (r.remove || bits (elemWord ws 0) 0 1 == 0) else s
  | 6, 3 => s.setElem ws [OCT_CLSA (k / 32) (k % 32), OCT_CLSB (k / 32) (k % 32)]
  | 7, 0 => s.setElem ws [IC_CTRL]
  | 7, 1 => s.takeSource k ws
  | 7, 2 => s.setElem ws [IC_GRP k]
  | 8, 0 => s.setElem ws [EVR_CH_CFG k]
  | 9, 0 => s.takePin k ws commit
  | 10, 0 => s.takePort k ws
  | 11, 0 => s.takeGav ws
  | 11, 1 => s.takeTrigger k ws
  | 12, 0 => s.takeMicro k ws
  | 12, 1 => s.takeDecode k ws
  | 12, 2 => eachDo (List.range 208) (fun e t => t.setElem ws [ENG_UC_CVER e]) s
  | 13, 0 => s.setElem ws [QM_POOLA k, QM_POOLB k]
  | 13, 1 => if commit then s.reshare k else s
  | 13, 2 => s.rebucket k
  | _, _ => s

/-- The records of a bitstream take effect in ascending TYPE, R509; the slices place the reserved slots of the regions then in force (06 R209, 16 R526). -/
def State.takeRecs (s : State) (rs : List Rec) (commit : Bool) : State :=
  let old := if commit then s.cfg else []
  let t : State := { s with cfg := applyRecs old rs }
  let t := eachDo rs (fun r t => t.takeRec old commit r) t
  { t.refreshAll.reserveSlots commit with answer := s.answer }

/-- Frame 0x000C loads the customer area of every engine, 08 R302 and R306. -/
def State.showCust (s : State) (tys : List Nat) : State :=
  if tys.contains 12 then eachDo (List.range 208) (fun e t => t.wr (ENG_UC_STAT e) ENG_UC_STAT_CUST 1) s else s

/-- Start-up step 6 takes a full bitstream that has passed, R509; the queue map and the port modes stand, so the loader sets MACEN (14 R492). -/
def State.fullLoad (s : State) (p : PStream) : State :=
  eachDo (List.range 6) (fun p t => t.wr (OCT_CTRL p) OCT_CTRL_MACEN 1) (((s.takeRecs p.recs false).showCust p.tys).setReg BSL_SEQ (BitVec.ofNat 64 p.seq))

/-! Staging, 15 R510 to R512. -/

/-- STATE of buffer `n`: 0 EMPTY, 1 CHECKING, 2 READY, 3 REJECTED, 4 FILLING, 5 SHADOWED, 6 COMMITTED. -/
def State.stgState (s : State) (n : Nat) : Nat := s.rd (BSL_STGSTAT n) BSL_STGSTAT_STATE

/-- Set the state of a buffer; CONFIG and SHBUF follow, R512. -/
def State.setStg (s : State) (n v : Nat) : State :=
  let t := s.wr (BSL_STGSTAT n) BSL_STGSTAT_STATE v
  match (List.range 4).find? fun i => t.stgState i == 4 || t.stgState i == 5 with
  | some i => (t.wr BSL_STAT BSL_STAT_CONFIG 1).wr BSL_STAT BSL_STAT_SHBUF i
  | none => (t.wr BSL_STAT BSL_STAT_CONFIG 0).wr BSL_STAT BSL_STAT_SHBUF 0

/-- Result fields of a buffer. -/
def State.setStgCode (s : State) (n : Nat) (e : Reject) : State :=
  (((s.wr (BSL_STGSTAT n) BSL_STGSTAT_CODE e.code).wr (BSL_STGSTAT n) BSL_STGSTAT_KECODE e.ke).wr (BSL_STGSTAT n) BSL_STGSTAT_FRAME e.frame).wr
    (BSL_STGSTAT n) BSL_STGSTAT_RECORD e.record

/-- A buffer becomes REJECTED. -/
def State.rejectStg (s : State) (n : Nat) (e : Reject) : State :=
  let t : State := if s.stgState n = 4 ∨ s.stgState n = 5 then { s with bsl := { s.bsl with shadow := [], shadowSeq := 0 } } else s
  ((t.setStgCode n e).setStg n 3).wr BSL_ERR BSL_ERR_REJECT 1

/-- PA and bytes of a buffer. -/
def State.stgBase (s : State) (n : Nat) : Nat := s.rd (BSL_STGBASE n) BSL_STGBASE_BASE * 4096
def State.stgCap (s : State) (n : Nat) : Nat := (s.rd (BSL_STGBASE n) BSL_STGBASE_SIZE + 1) * 4096

/-- Read `n` lines from `pa` as bytes with a KEYID, where `fw` says that the reader reaches the machine firmware area (06 R200, log entry 10);
a line that answers an error, ERR_PERM there among them, reads as poisoned words. -/
def State.readLines (s : State) (fw : Bool) (pa key : Nat) : Nat → List Byte × State
  | 0 => ([], s)
  | n + 1 =>
    let x :=
      match s.target pa with
      | .dram => s.cohRead (pa / 64) key .clean
      | .firmware => if fw then s.cohRead (pa / 64) key .clean else (errPerm, poisonLine, s)
      | _ => (errDecode, poisonLine, s)
    let r := x.2.2.readLines fw (pa + 64) key n
    ((x.2.1.flatMap fun w => bytesOf w.val) ++ r.1, r.2)

/-- Read `n` bytes from any address with a KEYID. -/
def State.readBytes (s : State) (fw : Bool) (pa n key : Nat) : List Byte × State :=
  let r := s.readLines fw (pa / 64 * 64) key ((pa % 64 + n + 63) / 64)
  ((r.1.drop (pa % 64)).take n, r.2)

/-- The bytes of the bitstream in buffer `n`, R510. -/
def State.stgBytes (s : State) (n : Nat) : List Byte × State :=
  let h := s.readBytes false (s.stgBase n) 64 0
  h.2.readBytes false (s.stgBase n) (max 64 (min (leAt h.1 8 8) (min (s.stgCap n) (2 ^ 25)))) 0

/-- STAGE, R512. -/
def State.stage (s : State) (n : Nat) : State :=
  let v := s.stgState n
  if v = 1 ∨ v = 4 ∨ v = 5 then s.reply errTarget []
  else
    let t := (s.setStgCode n (rej 0)).setStg n 1
    ({ t with bsl := { t.bsl with stages := t.bsl.stages ++ [n] } } : State).reply respOk []

/-- STAGE: BSL_CMD with OP 1. -/
def execStage (r : Requester) (b : Fin 4) (s : State) : Host.Outcome State Fault Refusal := .next (s.plat r fun s => s.stage b)

/-- The armed COMMIT entry, 02 R64. -/
def State.commitEntry (s : State) : Option Nat := s.trigListed.find? fun n => s.trigAction n == 5

/-- DISCARD, R512; a CHECKING buffer is left only by its checks (R510), and one that leaves FILLING asserts source 912 (R519). -/
def State.discard (s : State) (n : Nat) : State :=
  if (s.commitEntry.any fun k => s.rd (GAV_TRIGB k) GAV_TRIGB_TARGET == n) then s.reply errPerm []
  else if s.stgState n = 1 then s.reply errTarget []
  else
    let t : State := if s.stgState n = 4 ∨ s.stgState n = 5 then { s with bsl := { s.bsl with shadow := [], shadowSeq := 0 } } else s
    let u := (t.setStgCode n (rej 0)).setStg n 0
    (if s.stgState n = 4 then (u.assert 912).recordReg 912 unitLoader (BSL_STGSTAT n) else u).reply respOk []

/-- DISCARD: BSL_CMD with OP 2. -/
def execDiscard (r : Requester) (b : Fin 4) (s : State) : Host.Outcome State Fault Refusal := .next (s.plat r fun s => s.discard b)

/-- STAGE_CHECK_DONE: the checks of the first CHECKING buffer end, R508 and R510. -/
def State.stageDone (s : State) : State :=
  match s.bsl.stages with
  | [] => s
  | n :: rest =>
    let x := s.stgBytes n
    let t : State := { x.2 with bsl := { x.2.bsl with stages := rest } }
    let t := t.setReg (BSL_STGSEQ n) (BitVec.ofNat 64 (leAt x.1 24 8))
    let t := match t.checkStream x.1 (s.stgCap n) true false with
      | .error e => t.rejectStg n e
      | .ok _ => t.setStg n 2
    (t.assert 912).recordReg 912 unitLoader (BSL_STGSTAT n)

/-- STAGE_CHECK_DONE. -/
def execStageCheckDone (s : State) : Host.Outcome State Fault Refusal := .next s.stageDone

/-! Arming and fill, 15 R511 to R513. -/

/-- The slot tables of both configurations keep R513 at an angle. -/
def State.commitTiming (s : State) (cfg : Sparse (List Word)) (angle : Nat) : Bool :=
  (List.range 192).all fun l => commitFits (cFmax cfg) (cEclkMin cfg (l / 12)) angle (cslots (s.elem 2 0 l)) (cslots (celem cfg 2 0 l))

/-- Arm buffer `n` at an angle, R511 and R513: whether the COMMIT entry may be armed, and the state. -/
def State.armBuffer (s : State) (n angle : Nat) : Bool × State :=
  let v := s.stgState n
  let other := (List.range 4).any fun i => i != n && (s.stgState i == 4 || s.stgState i == 5)
  if (v ≠ 2 ∧ v ≠ 5) ∨ other then (false, s)
  else if v = 5 then
    if s.commitTiming (applyRecs s.cfg s.bsl.shadow) angle then (true, s) else (false, s.rejectStg n ⟨0x12, 2, 0, 0⟩)
  else
    let x := s.stgBytes n
    match x.2.checkStream x.1 (s.stgCap n) true true with
    | .error e => (false, x.2.rejectStg n e)
    | .ok p =>
      if s.commitTiming (applyRecs s.cfg p.recs) angle then (true, x.2) else (false, x.2.rejectStg n ⟨0x12, 2, 0, 0⟩)

/-- The fill of an armed READY buffer begins, R511. -/
def State.startFill (s : State) (n : Nat) : State := if s.stgState n = 2 then s.setStg n 4 else s

/-- The buffer that is FILLING. -/
def State.filling (s : State) : Option Nat := (List.range 4).find? fun n => s.stgState n == 4

/-- FILL_DONE: the shadow copies are written, or bytes that changed reject the buffer, R510 and R511. -/
def State.fillDone (s : State) : State :=
  match s.filling with
  | none => s
  | some n =>
    let x := s.stgBytes n
    let t := match x.2.checkStream x.1 (s.stgCap n) true false with
      | .error e => x.2.rejectStg n e
      | .ok p => ({ x.2 with bsl := { x.2.bsl with shadow := p.recs, shadowSeq := p.seq } } : State).setStg n 5
    (t.assert 912).recordReg 912 unitLoader (BSL_STGSTAT n)

/-- FILL_DONE. -/
def execFillDone (s : State) : Host.Outcome State Fault Refusal := .next s.fillDone

/-! Commit, 15 R514 and R515. -/

/-- Armed DISPATCH entries at or above SPLIT whose slot the commit took away go OFF in its XCLK, each with a record, 02 R66. -/
def State.dispOff (s : State) : State :=
  let off := s.trigListed.filter fun n => decide (s.rd GAV_TRIG_SPLIT GAV_TRIG_SPLIT_SPLIT ≤ n) && s.trigAction n == 1 &&
    !dispatchOk (cslotA s.cfg) (s.reg (GAV_TRIGA n)).toNat (s.reg (GAV_TRIGB n)).toNat
  if off = [] then s
  else (eachDo off (fun n t => (t.trigOff n).gavErr GAV_ERR_DISP_OFF) s).submit (off.map fun n => s.msub (srcCode 257) (srcClassSev 257).2 unitGavotte n 0 0)

/-- A commit that is not made, 02 R70 and 15 R514. -/
def State.refuseCommit (s : State) : State :=
  let t := s.gavErr GAV_ERR_COMMIT_REFUSED
  (t.recordReg 257 unitGavotte GAV_ERR).assert 913

/-- The COMMIT entry that names buffer `n` fires, R514; `refuse` when it asked for LOCKED and the unit was not when it fell due, 02 R70. -/
def State.commitFire (s : State) (n : Nat) (refuse : Bool) : State :=
  if refuse then s.refuseCommit
  else if s.stgState n = 5 then
    let t := s.takeRecs s.bsl.shadow true
    let t := (t.setReg BSL_SEQ (BitVec.ofNat 64 s.bsl.shadowSeq)).setReg BSL_LASTCOMMIT (BitVec.ofNat 64 s.time)
    let t : State := { t with bsl := { t.bsl with shadow := [], shadowSeq := 0 } }
    let t := ((t.setStg n 6).wr BSL_ERR BSL_ERR_COMMITTED 1).dispOff
    (t.assert 913).recordReg 913 unitLoader BSL_SEQ
  else if s.stgState n = 4 then (s.wr BSL_ERR BSL_ERR_FILL_LATE 1).refuseCommit
  else s.refuseCommit

/-- A BANKLOAD of tenant `t` is barred while the shadowed delta removes it or moves it to another partition, R516. -/
def State.shadowBars (s : State) (t : Nat) : Bool :=
  s.bsl.shadow.any fun r => r.ty == 5 && r.key == t && (r.remove || bits (elemWord r.words 0) 0 8 != s.tenantPartition t)

end Sys2Proof.Machine
end

