-- ==== Sys2Proof/Machine/Images.lean ====
section
/-! DEFINITION. Boot flash and its directory, and the checks of firmware and vendor patch images (17 R537 to R542, 08 R303). -/
namespace Sys2Proof.Machine
open Reg

/-! The flash and its directory, 17 R539. -/

/-- A directory entry. -/
structure DirEnt where
  kind : Nat
  slot : Nat
  st : Nat
  off : Nat
  size : Nat
  len : Nat
  ver : Nat
  deriving DecidableEq, Repr

/-- Bytes of the boot flash. -/
def State.flashBytes (s : State) (a n : Nat) : List Byte := (List.range n).map fun i => sget (fun _ => (0xFF : Byte)) s.boot.flash (a + i)

/-- Write bytes of the boot flash. -/
def State.flashWrite (s : State) (a : Nat) (bs : List Byte) : State :=
  { s with boot := { s.boot with flash := bs.zipIdx.foldl (fun m p => sset (fun _ => (0xFF : Byte)) m (a + p.2) p.1) s.boot.flash } }

/-- Read an entry of 32 bytes. -/
def dirEntOf (bs : List Byte) : DirEnt :=
  { kind := leAt bs 0 1, slot := leAt bs 1 1, st := leAt bs 2 1, off := leAt bs 4 4, size := leAt bs 8 4, len := leAt bs 12 4, ver := leAt bs 16 2 }

/-- The bytes of an entry under a generation. -/
def DirEnt.bytes (e : DirEnt) (gen : Nat) : List Nat :=
  [e.kind % 256, e.slot % 256, e.st % 256, 0] ++ leBytes 4 e.off ++ leBytes 4 e.size ++ leBytes 4 e.len ++ leBytes 2 e.ver ++
    List.replicate 6 0 ++ leBytes 8 gen

/-- Copy `i` of the directory: generation and entries, when its CRC holds. -/
def State.dirCopy (s : State) (i : Nat) : Option (Nat × List DirEnt) :=
  let bs := s.flashBytes (0x8000 * i) 1028
  if crc32 (natsOf (bs.take 1024)) = leAt bs 1024 4 then
    some (leAt bs 24 8, (List.range 32).map fun k => dirEntOf (bs.drop (32 * k)))
  else none

/-- The smallest layout that the Steward writes; it stands where neither copy holds (log entry 62). -/
def dirDefault : List DirEnt :=
  [⟨1, 0, 0, 0x10000, 0x800000, 0, 0⟩, ⟨1, 1, 0, 0x810000, 0x800000, 0, 0⟩, ⟨2, 0, 0, 0x1010000, 0x100000, 0, 0⟩,
   ⟨2, 1, 0, 0x1110000, 0x100000, 0, 0⟩, ⟨3, 0, 0, 0x1210000, 0x1000000, 0, 0⟩, ⟨3, 1, 0, 0x2210000, 0x1000000, 0, 0⟩,
   ⟨4, 0, 0, 0x3210000, 0x400000, 0, 0⟩, ⟨5, 0, 0, 0x3610000, 0x9F0000, 0, 0⟩] ++ List.replicate 24 ⟨0, 0, 0, 0, 0, 0, 0⟩

/-- The copy in use: its number, generation and entries. -/
def State.directory (s : State) : Nat × Nat × List DirEnt :=
  match s.dirCopy 0, s.dirCopy 1 with
  | some a, some b => if a.1 < b.1 then (1, b) else (0, a)
  | some a, none => (0, a)
  | none, some b => (1, b)
  | none, none => (1, 0, dirDefault)

/-- A changed directory is written to the older copy only. -/
def State.writeDir (s : State) (es : List DirEnt) : State :=
  let d := s.directory
  let bs := es.flatMap fun e => e.bytes (d.2.1 + 1)
  s.flashWrite (0x8000 * (1 - d.1)) (toBytes (bs ++ leBytes 4 (crc32 bs)))

/-- Change the state of the entries that `f` picks. -/
def State.markSlots (s : State) (f : DirEnt → Option Nat) : State :=
  let es := s.directory.2.2
  let es' := es.map fun e => match f e with | some v => { e with st := v } | none => e
  if es' = es then s else s.writeDir es'

/-- The entries of a KIND that hold an image, the PREFERRED one first, 17 R541. -/
def State.slotsOf (s : State) (kind : Nat) : List DirEnt :=
  let es := s.directory.2.2.filter fun e => e.kind == kind && e.st != 0
  (es.filter fun e => e.st == 2) ++ es.filter fun e => e.st != 2

/-- The image in a slot. -/
def State.imageIn (s : State) (e : DirEnt) : List Byte := s.flashBytes e.off (min e.len e.size)

/-- The slot of a KIND becomes PREFERRED; one that was so becomes STAGED (log entry 62). -/
def State.prefer (s : State) (kind slot : Nat) : State :=
  s.markSlots fun e => if e.kind = kind then (if e.slot = slot then some 2 else if e.st = 2 then some 1 else none) else none

/-- The first image of a KIND that is good; slots before it that are not become BAD, 17 R541. -/
def State.pickImage (s : State) (kind : Nat) (good : List Byte → Bool) : Option DirEnt × State :=
  let l := s.slotsOf kind
  let bad := (l.takeWhile fun e => !good (s.imageIn e)).map (·.slot)
  (l.find? fun e => good (s.imageIn e), s.markSlots fun e => if e.kind = kind ∧ bad.contains e.slot then some 3 else none)

/-! Image checks, 17 R540 and R541. -/

/-- The bytes of an image up to its LENGTH. -/
def imageBytes (img : List Byte) : List Byte := img.take (leAt img 8 8)

/-- Signer key, signature and signed message of an image. -/
def imageSigned (img : List Byte) : Nat :=
  let bs := imageBytes img
  verifySig ((bs.drop 64).take 96) (bs.drop (bs.length - 96)) (bs.take (bs.length - 96))

/-- The payload under the class secret; none when the GCM tag fails. -/
def State.imagePlain (s : State) (kind : Nat) (img : List Byte) : Option (List Byte) :=
  let bs := imageBytes img
  let body := (bs.take (bs.length - 96)).drop 256
  gcmOpen (beOf 32 (Config.imageKey s.boot.fuses.classKey kind).toNat) ((bs.drop 24).take 12) (bs.take 256) (body.take (body.length - 16))
    (body.drop (body.length - 16))

/-- VERSION, or PATCH_LEVEL for KIND 2, and its fused minimum. -/
def State.imageLevelOk (s : State) (kind : Nat) (img : List Byte) : Bool :=
  if kind = 2 then decide (s.rd UPD_MIN UPD_MIN_PATCHMIN ≤ leAt img 22 2) else decide (s.rd UPD_MIN UPD_MIN_FWMIN ≤ leAt img 20 2)

/-- The image is signed by the Narsol key of its KIND. -/
def imageSignerOk (kind : Nat) (img : List Byte) : Bool := (Config.narsolKey kind).toNat == digestOf ((img.drop 64).take 96)

/-- MAGIC and KIND, and PART, of an image. -/
def imageKindOk (kind : Nat) (img : List Byte) : Bool := leAt img 0 4 == 0x474D494E && leAt img 4 2 == kind
def imagePartOk (img : List Byte) : Bool := leAt img 16 4 == 0xA00192

/-- The first failed check of R541 in its order, 0 for none. -/
def State.imageCheck (s : State) (kind : Nat) (img : List Byte) : Nat :=
  if !imageKindOk kind img || !imagePartOk img then 1
  else if !imageSignerOk kind img then 2
  else if imageSigned img ≠ 0 then 3
  else if (s.imagePlain kind img).isNone then 4
  else if !s.imageLevelOk kind img then 5
  else 0

/-- The first failed step of 08 R303 for a vendor patch, 0 for none. -/
def State.patchStep (s : State) (img : List Byte) : Nat :=
  if !imageKindOk 2 img then 1
  else if !imageSignerOk 2 img || imageSigned img ≠ 0 then 2
  else if (s.imagePlain 2 img).isNone then 3
  else if !imagePartOk img || !s.imageLevelOk 2 img then 4
  else 0

/-- Patch RAM words and traps of a patch payload over a control store. -/
def patchStore (pl : List Byte) (u : UStore) : UStore :=
  { u with
    words := (Config.patchWords pl).foldl (fun m p => if 0x4000 ≤ p.1 ∧ p.1 < 0x4800 then sset (fun _ => 0) m p.1 p.2 else m) u.words,
    traps := (Config.patchTraps pl).foldl (fun m p => if p.1 < 64 then sset (fun _ => (0, 0)) m p.1 p.2 else m) u.traps }

/-- Drailo of a firmware payload goes into the machine firmware area, 17 R536 and R548. -/
def State.placeDrailo (s : State) (pl : List Byte) (ver : Nat) : State :=
  eachDo (Config.drailo pl ver) (fun p t =>
    let a := 0x002D00000000 + p.1 % 2 ^ 31
    (t.cohPartial (a / 64) 0 .clean (fun i => if i = a % 64 then some p.2 else none) (fun w => if w = a % 64 / 8 then some tagRaw else none)).2) s

/-- An image arrives at the non-PREFERRED slot of its KIND and is STAGED, 17 R545. -/
def State.freeSlot (s : State) (kind : Nat) : Option DirEnt := s.directory.2.2.find? fun e => e.kind == kind && e.st != 2
def State.storeImage (s : State) (kind : Nat) (img : List Byte) : State :=
  match s.freeSlot kind with
  | none => s
  | some x =>
    let t := s.flashWrite x.off img
    t.writeDir (t.directory.2.2.map fun e =>
      if e.kind = kind ∧ e.slot = x.slot then { e with st := 1, len := img.length, ver := if kind = 3 then 0 else leAt img 20 2 } else e)

end Sys2Proof.Machine
end

