-- ==== Sys2Proof/Machine/Boot.lean ====
section
/-! DEFINITION. Power-on reset and the start-up sequence (17 R534 to R543), and the service port (17 R544, R545). -/
namespace Sys2Proof.Machine
open Reg

/-! Reset, 19 R596. -/

/-- What outlives a power-on reset: the flash with the event recorder's ring, blown fuses, and what the board drives (log entry 63). -/
def State.porst (s : State) : State :=
  let t : State := { State.reset with
    pending := s.pending, free := s.free, outbox := s.outbox, mgd := { Marigold.reset with flash := s.mgd.flash }, pins := { Pins.reset with ext := s.pins.ext },
    boot := { Boot.reset with flash := s.boot.flash, fuses := s.boot.fuses, inReset := true } }
  ((t.wr ID_FUSE ID_FUSE_REVOKED (s.rd ID_FUSE ID_FUSE_REVOKED)).setReg UPD_MIN (s.reg UPD_MIN)).setReg UPD_SEQMIN (s.reg UPD_SEQMIN)

/-- PORST_N_ASSERT: the part is held in reset. -/
def execPorstNAssert (s : State) : Host.Outcome State Fault Refusal := .next s.porst

/-! The ageing survey begins, 18 R562. -/

/-- A survey starts; one that falls due while another runs waits for its end (18 R566). -/
def State.startSurvey (s : State) : State :=
  if s.flag MRG_STAT MRG_STAT_BUSY then { s with mrg := { s.mrg with due := true } }
  else
    let t := ((s.wr MRG_STAT MRG_STAT_BUSY 1).wr MRG_STAT MRG_STAT_CLUSTER 0).setReg MRG_LASTTAI (BitVec.ofNat 64 s.gav.tai)
    { t with mrg := { t.mrg with due := false, started := s.gav.mono, read := 0 } }

/-! The steps of start-up, 17 R536. -/

/-- Step 7: ports released, PCIe ready, engines started, source 914. -/
def State.boot7 (s : State) : State :=
  let t := eachDo (List.range 6) (fun p t => t.releasePort p) (s.wr UPD_BOOT UPD_BOOT_STEP 7)
  let t := eachDo (List.range 208) (fun e t =>
    (t.modEngine e fun x => { x with stopped := t.role e != 0 }).wr (UPD_ENGVER e) UPD_ENGVER_VERSION (t.rd UPD_STAT UPD_STAT_RUNVER)) t
  let t : State := { t.wr UPD_BOOT UPD_BOOT_STATE 1 with boot := { t.boot with upAt := some t.gav.mono } }
  ((t.emit .drs).assert 914).recordReg 914 unitUpdate UPD_BOOT

/-- Step 6: the full bitstream, 17 R542; when both slots fail the part is UNCONFIGURED. -/
def State.boot6 (s : State) : State :=
  let s := s.wr UPD_BOOT UPD_BOOT_STEP 6
  let check (bs : List Byte) : Except Reject PStream := s.checkStream bs (2 ^ 25) false false
  let good (bs : List Byte) : Bool := match check bs with | .ok _ => true | .error _ => false
  let l := s.slotsOf 3
  let t := s.wr BSL_STAT BSL_STAT_BOOTCODE (match (l.filter fun e => !good (s.imageIn e)).map (fun e => check (s.imageIn e)) |>.getLast? with
    | some (.error e) => e.code
    | _ => 0)
  let x := t.pickImage 3 good
  match x.1 with
  | none => x.2.wr UPD_BOOT UPD_BOOT_STATE 3
  | some e =>
    match check (s.imageIn e) with
    | .error _ => x.2
    | .ok p => (((x.2.wr UPD_BOOT UPD_BOOT_BSSLOT e.slot).wr BSL_STAT BSL_STAT_BOOTCODE 0).fullLoad p).boot7

/-- The spare map of cluster `c` after the comparator tests, 10 R371: fit positions in ascending order, then the spare. -/
def State.firstMap (s : State) (failing : List Nat) (c : Nat) : State :=
  let fit := (List.range 13).filter fun p => !failing.contains (c * 13 + p)
  let t := eachDo (List.range 13) (fun p t => t.wr (ENG_TNG_STAT (c * 13 + p)) ENG_TNG_STAT_ROLE
    (if failing.contains (c * 13 + p) then 3 else if fit.getD 12 15 = p then 1 else 0)) s
  let t := eachDo (List.range 12) (fun i t => t.setSpmap c i (fit.getD i 15)) t
  (t.setSpare c (fit.getD 12 15)).showRed c

/-- Powered hours and guards come back from the newest SURVEY records of the flash ring, 18 R569. -/
def State.restoreHours (s : State) : State :=
  let l := (s.mgd.flash.map (·.2)).filter fun r => r.code == 0x9C01
  let h := l.foldl (fun m r => max m r.p0) 0
  eachDo (l.filter fun r => r.p0 == h) (fun r t => t.wr (MRG_CLU (r.unit % 16)) MRG_CLU_GUARD (r.p1 % 2 ^ 16)) (s.wr MRG_STAT MRG_STAT_HOURS h)

/-- Step 5: comparator tests, spare maps, and the first survey. -/
def State.boot5 (s : State) : State :=
  let s := s.wr UPD_BOOT UPD_BOOT_STEP 5
  let failing := s.boot.failing
  let t := eachDo (List.range 208) (fun e t =>
    if failing.contains e then
      let x := t.takeFree
      let f := x.1.toNat % 2 ^ 24
      ((x.2.selfTest e (if f = 2 ^ 24 - 1 then 0 else BitVec.ofNat 24 f)).assert 897).recordReg 897 (unitEngine e) (ENG_TNG_SELFTEST e)
    else t.selfTest e (BitVec.ofNat 24 (2 ^ 24 - 1))) s
  let t := eachDo (List.range 16) (fun c t => t.firstMap failing c) t
  t.restoreHours.startSurvey.boot6

/-- A rejected vendor patch image is recorded with its failed step and its slot, 08 R304. -/
def State.patchRecords (s : State) : State :=
  let l := s.slotsOf 2
  eachDo (l.takeWhile fun e => s.patchStep (s.imageIn e) != 0) (fun e t =>
    t.recordCode 0x7C09 sevCritical unitSteward (s.patchStep (s.imageIn e)) e.slot 0) s

/-- Step 4: the vendor patch, 08 R303 and 17 R543. -/
def State.boot4 (s : State) : State :=
  let s := s.wr UPD_BOOT UPD_BOOT_STEP 4
  let x := s.patchRecords.pickImage 2 fun img => s.patchStep img == 0
  match x.1 with
  | none => if s.rd UPD_MIN UPD_MIN_PATCHMIN = 0 then x.2.boot5 else x.2.wr UPD_BOOT UPD_BOOT_STATE 2
  | some e =>
    let img := s.imageIn e
    let u := patchStore ((s.imagePlain 2 img).getD []) ⟨[], []⟩
    let t := eachDo (List.range 208) (fun k t =>
      (t.modEngine k fun y => { y with ustore := u }).setReg (ENG_UC_STAT k) (BitVec.ofNat 64 (leAt img 22 2 + 2 ^ 16 + (u.traps.length % 128) * 2 ^ 24))) x.2
    (t.wr UPD_BOOT UPD_BOOT_PSLOT e.slot).boot5

/-- Step 3: every slice writes its lines CLEAN with data 0 (06 R222), and Drailo is placed. -/
def State.boot3 (s : State) (pl : List Byte) : State :=
  let t : State := { s.wr UPD_BOOT UPD_BOOT_STEP 3 with mem := Mem.reset }
  let t := eachDo (List.range 32) (fun n t => t.wr (SLC_STAT n) SLC_STAT_INIT_DONE 1) t
  (t.placeDrailo pl (t.rd UPD_STAT UPD_STAT_RUNVER)).boot4

/-- Step 2: the firmware image; when both slots fail the part serves the service port in RECOVERY, 17 R543. -/
def State.boot2 (s : State) : State :=
  let s := s.wr UPD_BOOT UPD_BOOT_STEP 2
  let x := s.pickImage 1 fun img => s.imageCheck 1 img == 0
  match x.1 with
  | none => x.2.wr UPD_BOOT UPD_BOOT_STATE 2
  | some e =>
    let img := s.imageIn e
    ((x.2.wr UPD_BOOT UPD_BOOT_FWSLOT e.slot).wr UPD_STAT UPD_STAT_RUNVER (leAt img 20 2)).boot3 ((s.imagePlain 1 img).getD [])

/-- Free fuse rows of the kind that has used most, 17 R557. -/
def State.showRows (s : State) : State := s.wr UPD_MIN UPD_MIN_ROWS (16 - s.boot.fuses.rows.foldl max 0)

/-- Step 1: Snowdrop senses the fuses and chooses the security mode, 17 R534 and R535. -/
def State.boot1 (s : State) (b : Board) : State :=
  let f := b.fuses
  let dbg := f.dbgEn && b.dbgreq
  let rows := (List.range 3).map fun k => max (s.boot.fuses.rows.getD k 0) (f.rows.toList.getD k 0).val
  let fuses : FuseState := { owner := f.owner.toList, devKey := if dbg then Config.debugDevKey else f.devKey,
                             classKey := if dbg then Config.debugClassKey else f.classKey, rows := rows,
                             base := f.base.foldl (fun m p => sset (fun _ => 0) m p.1.val p.2.toNat) [] }
  let t : State := { s with boot := { s.boot with fuses := fuses, inReset := false, failing := b.failing.map (·.val) } }
  let t := eachDo b.flash (fun p t => t.flashWrite p.1.toNat [p.2]) t
  let t := ((t.setReg ID_SERIAL f.serial).wr ID_SVCMAC ID_SVCMAC_MAC f.mac.toNat).wr ID_FUSE ID_FUSE_REVOKED
    ((s.rd ID_FUSE ID_FUSE_REVOKED) ||| f.revoked.toNat)
  let t := (t.wr ID_FUSE ID_FUSE_DBG_EN (b2n f.dbgEn)).wr ID_PART ID_PART_SECMODE (b2n dbg)
  let t := eachDo (List.range 12) (fun k t => t.setReg (ID_DEVKEY k) (f.devPub.toList.getD k 0)) t
  let t := (t.wr UPD_MIN UPD_MIN_FWMIN (max (s.rd UPD_MIN UPD_MIN_FWMIN) f.fwMin.toNat)).wr UPD_MIN UPD_MIN_PATCHMIN
    (max (s.rd UPD_MIN UPD_MIN_PATCHMIN) f.patchMin.toNat)
  ((t.setReg UPD_SEQMIN (BitVec.ofNat 64 (max (s.reg UPD_SEQMIN).toNat f.seqMin.toNat))).showRows).wr UPD_BOOT UPD_BOOT_SECMODE (b2n dbg)

/-- POWER_ON_RESET: PORST_N is released and start-up runs, 17 R536. -/
def execPowerOnReset (b : Board) (s : State) : Host.Outcome State Fault Refusal :=
  .next ((s.porst.boot1 b).boot2)

/-! The service port, 17 R544 and R545. -/

/-- Codes of replies. -/
def svcOk : Nat := 0
def svcBusy : Nat := 1
def svcBadOp : Nat := 2
def svcNotOpen : Nat := 3
def svcBadOffset : Nat := 4
def svcRejected : Nat := 5
def svcNoSlot : Nat := 6

/-- Send a reply and keep it among the last sixteen. -/
def State.svcReply (s : State) (op code seq : Nat) (data : List Byte) : State :=
  let r : SvcReply := ⟨op + 0x80, code, seq, data⟩
  ({ s with boot := { s.boot with replies := (r :: s.boot.replies).take 16 } } : State).emit (.svc r)

/-- A request that repeats the SEQ of one of the last sixteen gets the same reply and is not performed; while the part is in reset nothing answers. -/
def State.svcOnce (s : State) (seq : Nat) (f : State → State) : State :=
  if s.boot.inReset then s
  else
    match s.boot.replies.find? fun r => r.seq == seq with
    | some r => s.emit (.svc r)
    | none => f s

/-- INFO: part, revision, security mode, RUNVER and UPD_BOOT (their order and widths are log entry 64). -/
def execSvcInfo (seq : BitVec 16) (s : State) : Host.Outcome State Fault Refusal :=
  .next (s.svcOnce seq.toNat fun s =>
    let p := (s.reg ID_PART).toNat
    s.svcReply 1 svcOk seq.toNat (toBytes (leBytes 2 p ++ leBytes 1 (bits p 16 8) ++ leBytes 1 (bits p 24 1) ++ leBytes 2 s.runVer ++
      leBytes 2 (s.reg UPD_BOOT).toNat)))

/-- OPEN. -/
def execSvcOpen (seq : BitVec 16) (kind : Byte) (len : BitVec 32) (s : State) : Host.Outcome State Fault Refusal :=
  .next (s.svcOnce seq.toNat fun s =>
    let early := match s.boot.upAt with | some a => decide (s.gav.mono < a + 10 ^ 10) | none => false
    let k := kind.toNat
    if s.boot.session.isSome then s.svcReply 2 svcBusy seq.toNat []
    else if k = 0 ∨ 3 < k then s.svcReply 2 svcBadOp seq.toNat []
    else if early || decide (len.toNat > 2 ^ 25) || (match s.freeSlot k with | some e => decide (e.size < len.toNat) | none => true) then
      s.svcReply 2 svcNoSlot seq.toNat []
    else ({ s with boot := { s.boot with session := some (k, len.toNat), image := [] } } : State).svcReply 2 svcOk seq.toNat [])

/-- DATA: bytes go into the image buffer. -/
def execSvcData (seq : BitVec 16) (off : BitVec 32) (data : List Byte) (s : State) : Host.Outcome State Fault Refusal :=
  .next (s.svcOnce seq.toNat fun s =>
    match s.boot.session with
    | none => s.svcReply 3 svcNotOpen seq.toNat []
    | some (_, len) =>
      if off.toNat + data.length > len then s.svcReply 3 svcBadOffset seq.toNat []
      else
        let img := data.zipIdx.foldl (fun m p => sset (fun _ => (0 : Byte)) m (off.toNat + p.2) p.1) s.boot.image
        ({ s with boot := { s.boot with image := img } } : State).svcReply 3 svcOk seq.toNat [])

/-- STATUS (its reply carries no data, log entry 64). -/
def execSvcStatus (seq : BitVec 16) (s : State) : Host.Outcome State Fault Refusal :=
  .next (s.svcOnce seq.toNat fun s => s.svcReply 5 svcOk seq.toNat [])

/-- The byte of a REJECTED reply for an image of a KIND: a code of R508, or 0x80 plus the failed check of R541; 0 when it passes. -/
def State.svcVerdict (s : State) (kind : Nat) (img : List Byte) : Nat :=
  if kind = 3 then (match s.checkBytes img (2 ^ 25) false with | .ok _ => 0 | .error e => e.code)
  else
    let c := s.imageCheck kind img
    if c = 0 then 0 else 0x80 + c

/-- After an accepted image of the missing KIND, start-up resumes at the step that needs it, 17 R543. -/
def State.svcResume (s : State) (kind slot : Nat) : State :=
  let st := s.rd UPD_BOOT UPD_BOOT_STATE
  let step := s.rd UPD_BOOT UPD_BOOT_STEP
  let go := (s.prefer kind slot).wr UPD_BOOT UPD_BOOT_STATE 0
  if st = 2 ∧ step = 2 ∧ kind = 1 then go.boot2
  else if st = 2 ∧ step = 4 ∧ kind = 2 then go.boot4
  else if st = 3 ∧ kind = 3 then go.boot6
  else s

/-- CLOSE: the image is checked and stored STAGED. -/
def execSvcClose (seq : BitVec 16) (s : State) : Host.Outcome State Fault Refusal :=
  .next (s.svcOnce seq.toNat fun s =>
    match s.boot.session with
    | none => s.svcReply 4 svcNotOpen seq.toNat []
    | some (kind, len) =>
      let img := (List.range len).map fun i => sget (fun _ => (0 : Byte)) s.boot.image i
      let v := s.svcVerdict kind img
      let slot := ((s.freeSlot kind).map (·.slot)).getD 0
      let t : State := { s with boot := { s.boot with session := none, image := [] } }
      let t := if v = 0 then t.storeImage kind img else t
      let t := (t.assert 916).recordReg 916 unitSteward UPD_BOOT
      if v = 0 then (t.svcReply 4 svcOk seq.toNat []).svcResume kind slot
      else t.svcReply 4 svcRejected seq.toNat (toBytes [v]))

end Sys2Proof.Machine
end

