-- ==== Sys2Proof/Machine/Keys.lean ====
section
/-! DEFINITION. The key engine: its commands and their end (17 R546, R547, R558). -/
namespace Sys2Proof.Machine
open Reg

/-! Memory as the key engine reaches it: physical addresses under KEYID 0, 17 R546. -/

/-- One line read: response and words. -/
def State.busRead (s : State) (pa key : Nat) : Nat × List TWord × State :=
  match s.target pa with
  | .dram => s.cohRead (pa / 64) key .clean
  | .firmware => s.cohRead (pa / 64) key .clean
  | .lvs e off => s.lvsRead e (off / 64)
  | .block => (errPerm, poisonLine, s)
  | .outbound => (errPerm, poisonLine, s)
  | .nothing => (errDecode, poisonLine, s)

/-- Bytes written within one line. -/
def State.busWrite (s : State) (pa key : Nat) (bs : List Byte) : Nat × State :=
  let data := bs.zipIdx.map fun p => (pa % 64 + p.2, p.1)
  let words := ((List.range 8).filter fun w => data.any fun d => d.1 / 8 == w).map fun w => (w, tagRaw)
  match s.target pa with
  | .dram => s.cohPartial (pa / 64) key .clean (assoc data) (assoc words)
  | .firmware => s.cohPartial (pa / 64) key .clean (assoc data) (assoc words)
  | .lvs e off => s.lvsWrite e (off / 64) data words
  | .block => (errPerm, s)
  | .outbound => (errPerm, s)
  | .nothing => (errDecode, s)

/-- Read `n` lines: the first response that is not OK, and the bytes. -/
def State.busLines (s : State) (pa : Nat) : Nat → Nat × List Byte × State
  | 0 => (respOk, [], s)
  | n + 1 =>
    let x := s.busRead pa 0
    let r := x.2.2.busLines (pa + 64) n
    (if x.1 ≠ respOk then x.1 else r.1, (x.2.1.flatMap fun w => bytesOf w.val) ++ r.2.1, r.2.2)

/-- Read `n` bytes. -/
def State.busBytes (s : State) (pa n : Nat) : Nat × List Byte × State :=
  if n = 0 then (respOk, [], s)
  else
    let r := s.busLines (pa / 64 * 64) ((pa % 64 + n + 63) / 64)
    (r.1, (r.2.1.drop (pa % 64)).take n, r.2.2)

/-- Write bytes line by line, until a response is not OK. -/
def State.busPut (s : State) (pa : Nat) (bs : List Byte) : Nat → State
  | 0 => s
  | n + 1 =>
    let now := bs.take (64 - pa % 64)
    if now = [] then s
    else
      let x := s.busWrite pa 0 now
      if x.1 ≠ respOk then x.2 else x.2.busPut (pa + now.length) (bs.drop now.length) n

/-- Write the result. -/
def State.kePut (s : State) (bs : List Byte) : State := s.busPut (s.rd KE_DST KE_DST_PA) bs (bs.length / 64 + 2)

/-! Commands. -/

/-- A write of KE_CMD starts an operation: only for the Steward, and not while one runs. -/
def State.keStart (s : State) (r : Requester) (w : Nat) : State :=
  if r ≠ .steward then s.reply errPerm []
  else if s.flag KE_STAT KE_STAT_BUSY then s.reply errTarget []
  else
    let t : State := { s with ke := { s.ke with cmd := w, began := s.gav.xclk } }
    (t.wr KE_STAT KE_STAT_BUSY 1).reply respOk []

/-- VERIFY. -/
def execVerify (r : Requester) (s : State) : Host.Outcome State Fault Refusal := .next (s.keStart r 1)

/-- ECDH. -/
def execEcdh (r : Requester) (ksel : Bool) (s : State) : Host.Outcome State Fault Refusal := .next (s.keStart r (2 + 16 * b2n ksel))

/-- SHA384. -/
def execSha384 (r : Requester) (s : State) : Host.Outcome State Fault Refusal := .next (s.keStart r 3)

/-- GCM_DECRYPT. -/
def execGcmDecrypt (r : Requester) (kslot : Fin 4) (s : State) : Host.Outcome State Fault Refusal := .next (s.keStart r (4 + 32 * kslot.val))

/-- GCM_ENCRYPT. -/
def execGcmEncrypt (r : Requester) (kslot : Fin 4) (s : State) : Host.Outcome State Fault Refusal := .next (s.keStart r (5 + 32 * kslot.val))

/-- XTS. -/
def execXts (r : Requester) (kslot : Fin 4) (dir : Bool) (s : State) : Host.Outcome State Fault Refusal :=
  .next (s.keStart r (6 + 32 * kslot.val + 128 * b2n dir))

/-- DERIVE. -/
def execDerive (r : Requester) (kslot : Fin 4) (s : State) : Host.Outcome State Fault Refusal := .next (s.keStart r (7 + 32 * kslot.val))

/-- KEYGEN. -/
def execKeygen (r : Requester) (s : State) : Host.Outcome State Fault Refusal := .next (s.keStart r 8)

/-- RANDOM. -/
def execRandom (r : Requester) (s : State) : Host.Outcome State Fault Refusal := .next (s.keStart r 9)

/-! Operations. -/

/-- Blocks that SHA-384 hashes for `n` bytes. -/
def shaCount (n : Nat) : Nat := (n + 144) / 128

/-- KCLK of an operation over `n` bytes, 17 R546. -/
def keCycles (op n : Nat) : Nat :=
  match op with
  | 1 => 920000
  | 2 => 880000
  | 3 => 40 * shaCount n + 80
  | 4 => (n + 15) / 16 + 200
  | 5 => (n + 15) / 16 + 200
  | 6 => (n + 15) / 16 + 200
  | 7 => 40 * shaCount n + 80
  | 8 => 2400
  | 9 => 600
  | _ => 0

/-- Key slot `k`; one that nothing has derived holds zeros (log entry 65). -/
def State.keSlot (s : State) (k : Nat) : List Byte := sget (fun _ => List.replicate 32 (0 : Byte)) s.ke.slots (k % 4)

/-- The secret of the last ECDH. -/
def State.keSecret (s : State) : List Byte := if s.ke.secret = [] then List.replicate 48 0 else s.ke.secret

/-- `n` random bytes. -/
def State.keRandom (s : State) (n : Nat) : List Byte × State :=
  let x := s.takeFreeN ((n + 7) / 8)
  ((x.1.flatMap bytesOf).take n, x.2)

/-- Operands at KE_SRC by operation. -/
def keOperand (op len : Nat) : Nat :=
  match op with
  | 1 => 240
  | 2 => 96
  | 3 => len
  | 4 => 16 + len
  | 5 => 16 + len
  | 6 => 16 + len
  | 7 => len
  | _ => 0

/-- The operation on operands that were read without error: its code and the state. -/
def State.keRun (s : State) (op len : Nat) (bs : List Byte) : Nat × State :=
  let w := s.ke.cmd
  let slot := bits w 5 2
  match op with
  | 1 => (ecdsaCode (beVal (bs.take 48)) (beVal ((bs.drop 48).take 48)) (beVal ((bs.drop 96).take 48)) (beVal ((bs.drop 144).take 48)) (beVal ((bs.drop 192).take 48)), s)
  | 2 =>
    let fresh := s.keRandom 48
    let d := if bits w 4 1 = 1 then beVal fresh.1 % (n384 - 1) + 1 else s.boot.fuses.devKey.toNat
    let t := if bits w 4 1 = 1 then fresh.2 else s
    let x := ecdhCode (beVal (bs.take 48)) (beVal ((bs.drop 48).take 48)) d
    let t : State := if x.1 = 0 then { t with ke := { t.ke with secret := beOf 48 x.2 } } else t
    (x.1, if bits w 4 1 = 1 then t.kePut (publicPoint d) else t)
  | 3 => (0, s.kePut (sha384 bs))
  | 4 =>
    let aad := min (leAt bs 12 4) len
    let body := (bs.drop (16 + aad)).take (len - aad)
    match gcmOpen (s.keSlot slot) (bs.take 12) ((bs.drop 16).take aad) (body.take (body.length - 16)) (body.drop (body.length - 16)) with
    | some pt => (0, s.kePut pt)
    | none => (5, s)
  | 5 =>
    let aad := min (leAt bs 12 4) len
    let x := gcmSeal (s.keSlot slot) (bs.take 12) ((bs.drop 16).take aad) ((bs.drop (16 + aad)).take (len - aad))
    (0, s.kePut (x.1 ++ x.2))
  | 6 =>
    if len < 16 then
      let x := s.keRandom len
      (0, x.2.kePut x.1)
    else (0, s.kePut (xtsRun (s.keSlot slot) (s.keSlot (slot + 1)) (bs.take 16) ((bs.drop 16).take len) (bits w 7 1 == 1)))
  | 7 => (0, { s with ke := { s.ke with slots := sset (fun _ => List.replicate 32 (0 : Byte)) s.ke.slots slot ((sha384 (s.keSecret ++ bs)).take 32) } })
  | 8 => (0, s.newKeys (len % 2 ^ 13))
  | 9 =>
    let x := s.keRandom 32
    (0, x.2.kePut x.1)
  | _ => (0, s)

/-- KCLK that the operation in progress takes; each is two XCLK (00 R601). -/
def State.keKclk (s : State) : Nat :=
  let op := bits s.ke.cmd 0 4
  let len := s.rd KE_LEN KE_LEN_LEN
  keCycles op (if op = 7 then len + s.keSecret.length else len)

/-- The operation that runs ends when its time has passed, 17 R546 and R547: CODE, DONE and source 917; a read that fails gives ERR_BUS and no result. -/
def State.keDone (s : State) : State :=
  if !s.flag KE_STAT KE_STAT_BUSY then s
  else
    let left := s.ke.began + 2 * s.keKclk - s.gav.xclk
    let u := s.pass left left
    let op := bits u.ke.cmd 0 4
    let len := u.rd KE_LEN KE_LEN_LEN
    let r := u.busBytes (u.rd KE_SRC KE_SRC_PA) (keOperand op len)
    let x := if r.1 ≠ respOk then (6, r.2.2) else r.2.2.keRun op len r.2.1
    let t := ((x.2.wr KE_STAT KE_STAT_BUSY 0).wr KE_STAT KE_STAT_CODE x.1).wr KE_CYCLES KE_CYCLES_COUNT u.keKclk
    t.setErr KE_STAT KE_STAT_DONE 917

/-- KE_DONE. -/
def execKeDone (s : State) : Host.Outcome State Fault Refusal := .next s.keDone

end Sys2Proof.Machine
end

