-- ==== Sys2Proof/Machine/Update.lean ====
section
/-! DEFINITION. Commands of the update controller: image set, start, stop, minimums, revocation, and the Steward's switch (17 R548 to R557). -/
namespace Sys2Proof.Machine
open Reg

/-- The slot of a KIND that belongs to an image set: the STAGED one, or else the PREFERRED one (log entry 66). -/
def State.setSlot (s : State) (kind : Nat) : Option DirEnt :=
  let es := s.directory.2.2.filter fun e => e.kind == kind
  match es.find? fun e => e.st == 1 with
  | some e => some e
  | none => es.find? fun e => e.st == 2

/-- PREPARE: UPD_CMD with OP 1, 17 R548. -/
def State.updPrepare (s : State) (v : Nat) : State :=
  if (v ≠ s.runVer ∧ v ≠ s.runVer + 1) ∨ s.flag UPD_STAT UPD_STAT_MODE ∨ s.rd UPD_STAT UPD_STAT_PHASE = 1 ∨ s.rd UPD_STAT UPD_STAT_PHASE = 5 then
    s.reply errTarget []
  else (((s.wr UPD_STAT UPD_STAT_NEXTVER v).wr UPD_STAT UPD_STAT_RESULT 0).updPhase 1).reply respOk []

/-- PREPARE. -/
def execPrepare (r : Requester) (v : BitVec 16) (s : State) : Host.Outcome State Fault Refusal :=
  .next (s.plat r fun s => s.updPrepare v.toNat)

/-- The frames of a configuration other than 0x000C. -/
def cfgButMicro (cfg : Sparse (List Word)) : Sparse (List Word) := cfg.filter fun p => p.1 / 2 ^ 36 != 12

/-- The check of the image set ends, 17 R548. -/
def State.prepareDone (s : State) : State :=
  if s.rd UPD_STAT UPD_STAT_PHASE ≠ 1 then s
  else
    match s.setSlot 1, s.setSlot 2, s.setSlot 3 with
    | some f, some p, some b =>
      let fw := s.imageIn f
      let pa := s.imageIn p
      match s.checkBytes (s.imageIn b) (2 ^ 25) false with
      | .error _ => s.updStop 1
      | .ok x =>
        if s.imageCheck 1 fw ≠ 0 ∨ s.imageCheck 2 pa ≠ 0 then s.updStop 1
        else if leAt fw 20 2 ≠ s.rd UPD_STAT UPD_STAT_NEXTVER then s.updStop 2
        else
          let cfg := applyRecs [] x.recs
          if x.delta ∨ x.seq ≠ (s.reg BSL_SEQ).toNat ∨ cfgButMicro cfg ≠ cfgButMicro s.cfg then s.updStop 3
          else
            let words := (celems cfg 12 0).foldl (fun m q => sset (fun _ => 0) m (0x5000 + q.1) (BitVec.ofNat 144 (mwOfElem q.2))) []
            let u : Upd := { s.upd with store := patchStore ((s.imagePlain 2 pa).getD []) ⟨words, []⟩,
                                        dec := (List.range 16).map fun n => cDecode cfg (celem cfg 12 1 n),
                                        patch := some (leAt pa 22 2), cust := x.tys.contains 12, cver := bits (cword cfg 12 2 0 0) 0 32, slots := [f.slot, p.slot, b.slot] }
            ((({ s with upd := u } : State).placeDrailo ((s.imagePlain 1 fw).getD []) (leAt fw 20 2)).wr UPD_STAT UPD_STAT_RESULT 0).updPhase 2
    | _, _, _ => s.updStop 1

/-- PREPARE_DONE. -/
def execPrepareDone (s : State) : Host.Outcome State Fault Refusal := .next s.prepareDone

/-- No UP neighbour is more than one version behind, 17 R549, and no cluster of the device is either (16 R527). -/
def State.versionsFit (s : State) (v : Nat) : Bool :=
  ((List.range 6).all fun p => !(s.portReleased p && s.rd (OCT_STAT p) OCT_STAT_NSTATE == 2) || decide (v ≤ s.rd (OCT_NBR p) OCT_NBR_VERSION + 1)) &&
    (List.range 208).all fun e => s.role e != 0 || decide (v ≤ s.rd (UPD_ENGVER e) UPD_ENGVER_VERSION + 1)

/-- START: UPD_CMD with OP 2, 17 R549 and 16 R530. -/
def State.updStart (s : State) : State :=
  if s.rd UPD_BOOT UPD_BOOT_SECMODE = 1 then s.reply errPerm []
  else if s.rd UPD_STAT UPD_STAT_PHASE ≠ 2 ∨ s.flag BSL_STAT BSL_STAT_CONFIG ∨ !s.versionsFit (s.rd UPD_STAT UPD_STAT_NEXTVER) then s.reply errTarget []
  else (((s.wr UPD_STAT UPD_STAT_MODE 1).wr UPD_STAT UPD_STAT_SKIPMASK 0).updTurn 16).reply respOk []

/-- START. -/
def execStart (r : Requester) (s : State) : Host.Outcome State Fault Refusal := .next (s.plat r State.updStart)

/-- STOP: UPD_CMD with OP 3 ends an update with RESULT 5; the Steward's switch is not stopped (log entry 66). -/
def State.updStopCmd (s : State) : State :=
  let p := s.rd UPD_STAT UPD_STAT_PHASE
  if p = 5 then s.reply errTarget []
  else if p = 4 then ((s.updStop 5).hoAbort (s.rd UPD_STAT UPD_STAT_CLUSTER)).reply respOk []
  else if 1 ≤ p ∧ p ≤ 3 then (s.updStop 5).reply respOk []
  else s.reply respOk []

/-- STOP. -/
def execStop (r : Requester) (s : State) : Host.Outcome State Fault Refusal := .next (s.plat r State.updStopCmd)

/-- RAISE_MIN: UPD_CMD with OP 4 fuses the running versions, 17 R554. -/
def State.updRaise (s : State) : State :=
  let here := (List.range 208).filter fun e => s.role e == 0 || s.role e == 1
  if s.flag UPD_STAT UPD_STAT_MODE ∨ (here.any fun e => s.rd (UPD_ENGVER e) UPD_ENGVER_VERSION != s.runVer) ∨
      (s.boot.fuses.rows.any fun n => decide (16 ≤ n)) then s.reply errTarget []
  else
    let t : State := { s with boot := { s.boot with fuses := { s.boot.fuses with rows := s.boot.fuses.rows.map (· + 1) } } }
    let t := (t.wr UPD_MIN UPD_MIN_FWMIN s.runVer).wr UPD_MIN UPD_MIN_PATCHMIN (s.rd (ENG_UC_STAT (here.headD 0)) ENG_UC_STAT_PATCH_LEVEL)
    ((t.setReg UPD_SEQMIN (s.reg BSL_SEQ)).showRows).reply respOk []

/-- RAISE_MIN. -/
def execRaiseMin (r : Requester) (s : State) : Host.Outcome State Fault Refusal := .next (s.plat r State.updRaise)

/-- REVOKE: UPD_CMD with OP 5, 17 R555. -/
def State.updRevoke (s : State) (k : Nat) : State :=
  let p := s.rd UPD_STAT UPD_STAT_PHASE
  if (p ≠ 0 ∧ p ≠ 6 ∧ p ≠ 7) ∨ s.rd UPD_REVSTAT UPD_REVSTAT_STATE = 1 then s.reply errTarget []
  else
    let t : State := { s with upd := { s.upd with revoking := some k } }
    ((t.wr UPD_REVSTAT UPD_REVSTAT_STATE 1).wr UPD_REVSTAT UPD_REVSTAT_CODE 0).reply respOk []

/-- REVOKE. -/
def execRevoke (r : Requester) (k : Fin 4) (s : State) : Host.Outcome State Fault Refusal := .next (s.plat r fun s => s.updRevoke k.val)

/-- The owner slot that a key hashes to and that is not revoked. -/
def State.ownerSlot (s : State) (key : List Byte) : Option Nat := (List.range 4).find? fun n => s.ownerKeyOk n key

/-- The first failed check of a revocation record for slot `k`, 17 R555, 0 for none. -/
def State.revokeCheck (s : State) (k : Nat) (r : List Byte) : Nat :=
  let key := (r.drop 64).take 96
  let rev := s.rd ID_FUSE ID_FUSE_REVOKED
  if leAt r 0 4 ≠ 0x5645524E ∨ leAt r 4 4 ≠ 0xA00192 then 1
  else if leAt r 8 8 ≠ 0 ∧ leAt r 8 8 ≠ (s.reg ID_SERIAL).toNat then 2
  else if leAt r 16 1 ≠ k then 3
  else if !((List.range 4).any fun n => n != k && s.ownerKeyOk n key) then 4
  else if verifySig key ((r.drop 160).take 96) (r.take 160) ≠ 0 then 5
  else if !((List.range 4).any fun n => n != k && bits rev n 1 == 0) then 6
  else if !(match s.directory.2.2.find? fun e => e.kind == 3 && e.st == 2 with
    | some e => leAt (s.imageIn e) 20 4 != k
    | none => false) then 7
  else 0

/-- The Steward's check of a revocation record ends, 17 R555. -/
def State.revokeDone (s : State) : State :=
  match s.upd.revoking with
  | none => s
  | some k =>
    let x := s.readBytes true (s.rd UPD_REVSRC UPD_REVSRC_PA) 256 0
    let t : State := { x.2 with upd := { x.2.upd with revoking := none } }
    let c := s.revokeCheck k x.1
    if c = 0 then (t.wr ID_FUSE ID_FUSE_REVOKED (setBits (t.rd ID_FUSE ID_FUSE_REVOKED) k 1 1)).wr UPD_REVSTAT UPD_REVSTAT_STATE 2
    else ((t.wr UPD_REVSTAT UPD_REVSTAT_STATE 3).wr UPD_REVSTAT UPD_REVSTAT_CODE c).updErr UPD_ERR_REVOKE

/-- REVOKE_DONE. -/
def execRevokeDone (s : State) : Host.Outcome State Fault Refusal := .next s.revokeDone

/-- STEWARD_FIRMWARE_SWITCH: the Steward runs firmware v, and the update is DONE, 17 R551. -/
def execStewardFirmwareSwitch (s : State) : Host.Outcome State Fault Refusal :=
  .next (if s.rd UPD_STAT UPD_STAT_PHASE ≠ 5 then s
    else
      let t := s.wr UPD_STAT UPD_STAT_RUNVER (s.rd UPD_STAT UPD_STAT_NEXTVER)
      let t := eachDo (s.upd.slots.zipIdx) (fun p t => t.prefer (p.2 + 1) p.1) t
      (t.wr UPD_STAT UPD_STAT_MODE 0).updPhase 6)

end Sys2Proof.Machine
end

