-- ==== Sys2Proof/Machine/Margin.lean ====
section
/-! DEFINITION. The ageing survey, the margin planner and the thermal responses (18 R560 to R569, 19 R597 and R599). -/
namespace Sys2Proof.Machine
open Reg

/-! Policy and delays. -/

/-- ECLK_MIN, ECLK_MAX and GUARD (units of 0.1 %) of cluster `c`, 15 R505; with no record 1,200, 1,600 and 30 (log entry 70). -/
def State.policy (s : State) (c : Nat) : Nat × Nat × Nat :=
  match s.elem 14 0 c with
  | [] => (1200, 1600, 30)
  | w :: _ => (bits w.toNat 0 16, bits w.toNat 16 16, bits w.toNat 32 10)

/-- ECLK and voltage of a cluster now; after reset the values of MRG_CLU. -/
def State.eclkNow (s : State) (c : Nat) : Nat := sget (fun _ => 1500) s.mrg.eclk c
def State.voltNow (s : State) (c : Nat) : Nat := sget (fun _ => 800) s.mrg.volt c

/-- Sensors of cluster `c` that count: the replicas of position `p` if `on p`, and the shared ones if `shared`, by number within the cluster. -/
def clusterSensors (on : Nat → Bool) (shared : Bool) : List Nat :=
  ((List.range 52).filter fun k => on (k / 4)) ++ (if shared then (List.range 12).map (52 + ·) else [])

/-- The largest of the delays of some sensors. -/
def maxDelay (d : Nat → Nat) (ks : List Nat) : Nat := ks.foldl (fun m k => max m (d k)) 0

/-- The guard of R561 at `f` MHz and delay `d` ps reaches `g` units of 0.1 %. -/
def guardMet (f d g : Nat) : Bool := decide (f * d + 1000 * g ≤ 10 ^ 6)

/-- The guard in units of 0.01 %; one below 0 shows as 0 (log entry 70). -/
def guardOf (f d : Nat) : Nat := (10 ^ 6 - f * d) / 100

/-- The plan of R563 over the largest delay by voltage: ECLK, voltage and MARGINLOW. The lowest voltage that a cluster can have is 600 mV, a rail of 650 mV with a trim of 50 mV (R564). -/
def planOf (lo hi g : Nat) (d : Nat → Nat) : Nat × Nat × Bool :=
  let fs := ((List.range ((hi - lo) / 25 + 1)).map fun k => lo + 25 * k).reverse
  let vs := (List.range 51).map fun k => 600 + 5 * k
  match fs.find? fun f => vs.any fun v => guardMet f (d v) g with
  | some f => (f, min 850 (((vs.find? fun v => guardMet f (d v) g).getD 850) + 10), false)
  | none => (lo, 850, true)

/-- LIFE of R568 from the guards at 1,400 MHz and 850 mV in units of 10^-6 and the hours; none where b has no value. -/
def lifeOf (g0 g goal : Int) (t : Nat) : Option Nat :=
  if t = 0 then none
  else if g0 ≤ g then some 0xFFFF
  else if g ≤ goal ∨ g0 ≤ goal then some 0
  else
    let a := (g0 - goal).toNat ^ 4
    let b := (g0 - g).toNat ^ 4
    let m := (a - b) * t / (b * 730)
    some (if m > 65534 then 0xFFFF else m)

/-- Powered hours now, 18 R568: those restored at start and those since. -/
def State.hours (s : State) : Nat := min (s.rd MRG_STAT MRG_STAT_HOURS + s.gav.mono / 3600000000000) (2 ^ 32 - 1)

/-! Applying a plan, 18 R564 to R566. -/

/-- The planner holds the plan of cluster `c`, 18 R566, 10 R376, 19 R597 and R599. -/
def State.planHeld (s : State) (c : Nat) : Bool :=
  ((List.range 13).any fun p => s.flag (ENG_TNG_STAT (c * 13 + p)) ENG_TNG_STAT_RECOV) ||
    (decide (1 ≤ s.hoPhase c) && decide (s.hoPhase c ≤ 4)) || s.rd UPD_STAT UPD_STAT_PHASE == 5 || s.mrg.hot || sget (fun _ => false) s.mrg.avsFail c

/-- The rail of core domain `d` and the trims of its clusters: a cluster whose ECLK still moves keeps the higher of both voltages. -/
def State.setDomain (s : State) (d : Nat) : State :=
  let cs := (List.range 4).map fun k => 4 * d + k
  let need (c : Nat) : Nat :=
    let v := s.rd (MRG_CLU c) MRG_CLU_VMV
    if s.eclkNow c = s.rd (MRG_CLU c) MRG_CLU_ECLK then v else max v (s.voltNow c)
  let rail := min 850 (max 650 (cs.foldl (fun m c => max m (need c)) 0))
  eachDo cs (fun c t =>
    let trim := min 50 (rail - need c)
    let t := t.wr (MRG_CLU c) MRG_CLU_TRIM trim
    { t with mrg := { t.mrg with volt := sset (fun _ => 800) t.mrg.volt c (rail - trim) } }) (s.wr (MRG_DOM d) MRG_DOM_RAIL rail)

/-- A plan becomes the planned ECLK and voltage of cluster `c`; its rail rises first. -/
def State.takePlan (s : State) (c f v : Nat) : State :=
  let t : State := { s with mrg := { s.mrg with held := sset (fun _ => none) s.mrg.held c none, stepAt := sset (fun _ => 0) s.mrg.stepAt c s.gav.mono } }
  let t := ((t.wr (MRG_CFL c) MRG_CFL_HELD 0).wr (MRG_CLU c) MRG_CLU_ECLK f).wr (MRG_CLU c) MRG_CLU_VMV v
  t.setDomain (c / 4)

/-- A plan is decided: it is applied, or held. -/
def State.offerPlan (s : State) (c f v : Nat) : State :=
  if s.planHeld c then
    ({ s with mrg := { s.mrg with held := sset (fun _ => none) s.mrg.held c (some (f, v)) } } : State).wr (MRG_CFL c) MRG_CFL_HELD 1
  else s.takePlan c f v

/-! Decision, 18 R563, R567 and R568. -/

/-- The condition of source 920 + cluster, 18 R576. -/
def State.marginCond (s : State) (c : Nat) : State :=
  s.setCond (920 + c) (s.flag (MRG_CFL c) MRG_CFL_EXHAUSTED || s.flag (MRG_CFL c) MRG_CFL_MARGINLOW)

/-- An exhausted cluster retires its weakest engine onto a spare that reaches the guard, or stands without one, 18 R567; a RETIRE that cannot be issued now waits for the decision that follows. -/
def State.exhaust (s : State) (c : Nat) (spareOk : Bool) : State :=
  let w := s.rd (MRG_CFL c) MRG_CFL_WEAKEST
  let t := if spareOk then
      match (List.range 12).find? fun i => s.spmap c i == w with
      | some i =>
        let t : State := { s.wr (MRG_CFL c) MRG_CFL_NOSPARE 0 with mrg := { s.mrg with again := sset (fun _ => false) s.mrg.again c true } }
        if s.hoCan c i then t.hoStart c i true 100 else t
      | none => s
    else s.wr (MRG_CFL c) MRG_CFL_NOSPARE 1
  t.marginCond c |>.recordReg (920 + c) (unitMargin c) (MRG_CFL c)

/-- The plan of cluster `c` from its 64 raw readings. -/
def State.decidePlan (s : State) (c : Nat) (raw : Nat → BitVec 16) (survey : Bool) : State :=
  let (lo, hi, g) := s.policy c
  let at_ (v k : Nat) : Nat := Config.sensorDelay (64 * c + k) (raw k) v
  let ks := clusterSensors (fun p => s.role (c * 13 + p) == 0) true
  let p := planOf lo hi g fun v => maxDelay (at_ v) ks
  let d850 := maxDelay (at_ 850) ks
  let t : State := { s with mrg := { s.mrg with
    delay := (List.range 64).foldl (fun m k => sset (fun _ => 0) m (64 * c + k) (at_ (s.voltNow c) k % 2 ^ 16)) s.mrg.delay,
    worst := sset (fun _ => 0) s.mrg.worst c d850, again := sset (fun _ => false) s.mrg.again c false, avsFail := sset (fun _ => false) s.mrg.avsFail c false } }
  let t := t.offerPlan c p.1 p.2.1
  let grd := guardOf p.1 (maxDelay (at_ p.2.1) ks)
  let t := t.wr (MRG_CLU c) MRG_CLU_GUARD grd
  let active := (List.range 13).filter fun p => s.role (c * 13 + p) == 0
  let weak := active.foldl (fun m p => match m with
    | none => some p
    | some q => if maxDelay (at_ 850) (clusterSensors (· == q) false) < maxDelay (at_ 850) (clusterSensors (· == p) false) then some p else some q) none
  let low := !guardMet 1400 d850 g
  let t := (t.wr (MRG_CFL c) MRG_CFL_MARGINLOW (b2n p.2.2)).wr (MRG_CFL c) MRG_CFL_EXHAUSTED (b2n low)
  let t := (t.wr (MRG_CFL c) MRG_CFL_G1400 (guardOf 1400 d850)).wr (MRG_CFL c) MRG_CFL_WEAKEST (weak.getD 0)
  let t := if low then
      t.exhaust c (match s.fitSpare c with | some e => guardMet 1400 (maxDelay (at_ 850) (clusterSensors (· == posOf e) false)) g | none => false)
    else (t.wr (MRG_CFL c) MRG_CFL_NOSPARE 0).marginCond c
  let t := t.recordCode 0x9C02 sevInfo (unitMargin c) p.1 p.2.1 0
  if survey then t.recordCode 0x9C01 sevNotice (unitMargin c) t.hours grd 0 else t

/-- LIFE of cluster `c` after a survey, 18 R568. -/
def State.project (s : State) (c : Nat) : State :=
  let ks := clusterSensors (fun p => s.role (c * 13 + p) == 0) true
  let base (k : Nat) : Nat := sget (fun _ => 0) s.boot.fuses.base (64 * c + k)
  let g0 : Int := 10 ^ 6 - 1400 * (maxDelay base ks : Int)
  let life := lifeOf g0 (10 ^ 6 - 1400 * ((sget (fun _ => 0) s.mrg.worst c : Nat) : Int)) (1000 * (s.policy c).2.2) s.hours
  let x := match life with | some m => (m, s) | none => (s.takeFree.1.toNat % 2 ^ 16, s.takeFree.2)
  x.2.wr (MRG_CLU c) MRG_CLU_LIFE x.1

/-- PLAN_DECIDE: the survey has read cluster `c`, or its plan is decided again after a swap; the planner decides nothing while the Steward switches firmware, 17 R551. -/
def execPlanDecide (c : Fin 16) (raw : Vector (BitVec 16) 64) (s : State) : Host.Outcome State Fault Refusal :=
  .next (let f := fun k => raw.toList.getD k 0
    if s.rd UPD_STAT UPD_STAT_PHASE = 5 then s
    else if s.flag MRG_STAT MRG_STAT_BUSY ∧ s.mrg.read = c.val then
      let t := (s.decidePlan c f true).wr MRG_STAT MRG_STAT_CLUSTER (min 15 (c.val + 1))
      { t with mrg := { t.mrg with read := c.val + 1 } }
    else if sget (fun _ => false) s.mrg.again c = true ∧ ¬(1 ≤ s.hoPhase c ∧ s.hoPhase c ≤ 4) then s.decidePlan c f false
    else s)

/-- SURVEY_START: the survey that falls due 24 h after the last one started, 18 R562. -/
def execSurveyStart (s : State) : Host.Outcome State Fault Refusal :=
  .next (if s.mrg.started + 86400000000000 ≤ s.gav.mono then s.startSurvey else s)

/-- NOW: a write of MRG_CTRL.NOW. -/
def execNow (r : Requester) (s : State) : Host.Outcome State Fault Refusal := .next (s.plat r fun s => s.startSurvey.reply respOk [])

/-- SURVEY_COMPLETE: after all clusters the sensors outside them are read, and the survey ends. -/
def execSurveyComplete (raw : Vector (BitVec 16) 128) (s : State) : Host.Outcome State Fault Refusal :=
  .next (if s.flag MRG_STAT MRG_STAT_BUSY ∧ s.mrg.read = 16 then
      let d (k : Nat) : Nat := Config.sensorDelay (1024 + k) (raw.toList.getD k 0) 750 % 2 ^ 16
      let low := (List.range 128).any fun k => Config.belowGuard (1024 + k) (d k)
      let t : State := { s.wr MRG_STAT MRG_STAT_BUSY 0 with mrg := { s.mrg with
        delay := (List.range 128).foldl (fun m k => sset (fun _ => 0) m (1024 + k) (d k)) s.mrg.delay } }
      let t := if low && !(s.src 937).cond then (t.setCond 937 true).recordReg 937 (unitMargin 0) MRG_STAT else t.setCond 937 low
      let t := (eachDo (List.range 16) (fun c t => t.project c) t).assert 936
      if t.mrg.due then t.startSurvey else t
    else s)

/-! Steps of ECLK, 18 R565 and 19 R597, R599. -/

/-- One step of 25 MHz toward a goal. -/
def stepTo (x goal : Nat) : Nat := if x < goal then min goal (x + 25) else if goal < x then max goal (x - 25) else x

/-- ECLK_STEP: time passes until the next step of cluster `c` is due, 10 µs after the last; `nak`: its rail write has failed three repeats. -/
def execEclkStep (c : Fin 16) (nak : Bool) (s : State) : Host.Outcome State Fault Refusal :=
  .next (let s := s.passTo (sget (fun _ => 0) s.mrg.stepAt c)
    if nak then
      let t : State := { s with mrg := { s.mrg with avsFail := sset (fun _ => false) s.mrg.avsFail c true } }
      ((t.wr (MRG_CFL c) MRG_CFL_HELD 1).assert 684).recordReg 684 (unitMargin c) (MRG_CLU c)
    else
      let t := match sget (fun _ => none) s.mrg.held c with
        | some p => if s.planHeld c then s else s.takePlan c p.1 p.2
        | none => s
      let goal := if t.mrg.hot then (t.policy c).1 else t.rd (MRG_CLU c) MRG_CLU_ECLK
      if sget (fun _ => false) t.mrg.avsFail c ∨ (t.planHeld c ∧ !t.mrg.hot) then t
      else
        let t : State := { t with mrg := { t.mrg with eclk := sset (fun _ => 1500) t.mrg.eclk c (stepTo (t.eclkNow c) goal),
                                                      stepAt := sset (fun _ => 0) t.mrg.stepAt c (t.gav.mono + 10000) } }
        t.setDomain (c / 4))

/-! Junction temperature, 19 R599. -/

/-- TJ_ALERT: the hottest sensor reaches 105 °C. -/
def execTjAlert (s : State) : Host.Outcome State Fault Refusal :=
  .next (if (s.src 683).cond then s else (s.setCond 683 true).recordReg 683 unitSteward MRG_STAT)

/-- TJ_THROTTLE: at 110 °C every cluster moves to its ECLK_MIN, and the plan is held. -/
def execTjThrottle (s : State) : Host.Outcome State Fault Refusal :=
  .next (let t := if (s.src 683).cond then s else (s.setCond 683 true).recordReg 683 unitSteward MRG_STAT
    let t := if (t.src 685).cond then t else (t.setCond 685 true).recordReg 685 unitSteward MRG_STAT
    let t : State := { t with mrg := { t.mrg with hot := true } }
    eachDo (List.range 16) (fun c t => t.wr (MRG_CFL c) MRG_CFL_HELD 1) t)

/-- TJ_COOL: Tj falls below 100 °C. -/
def execTjCool (s : State) : Host.Outcome State Fault Refusal :=
  .next (let t := (s.setCond 683 false).setCond 685 false
    let t : State := { t with mrg := { t.mrg with hot := false } }
    eachDo (List.range 16) (fun c t =>
      if (sget (fun _ => none) t.mrg.held c).isNone && !sget (fun _ => false) t.mrg.avsFail c then t.wr (MRG_CFL c) MRG_CFL_HELD 0 else t) t)

/-- THERMTRIP: at 125 °C THERMTRIP_N goes low. -/
def execThermtrip (s : State) : Host.Outcome State Fault Refusal := .next { s with mrg := { s.mrg with trip := true } }

/-- SMB_ALERT_N is asserted while source 683 or 685 is pending, 19 R589 and 12 R420. -/
def State.smbAlert (s : State) : Bool := [683, 685].any fun i => (s.src i).count != 0 && !(s.src i).active

/-- MARIGOLD_SUBMIT: the submissions of one XCLK. -/
def execMarigoldSubmit (subs : List SubReq) (s : State) : Host.Outcome State Fault Refusal :=
  .next (s.submit (subs.map fun q => s.msub q.code.toNat q.sev.val q.unit.toNat q.p0.toNat q.p1.toNat q.tenant.toNat))

end Sys2Proof.Machine
end

