-- ==== Sys2Proof/Machine/Triggers.lean ====
section
/-! DEFINITION. Trigger entries of the timebase: writes and firings (02 R61 to R71, R603). -/
namespace Sys2Proof.Machine
open Reg

/-- A platform write reaches entry `n`: a firing of it that waits keeps this in mind, 02 R67. -/
def State.noteWrite (s : State) (n : Nat) : State :=
  { s with gav := { s.gav with delayed := s.gav.delayed.map fun d => if d.n = n then { d with written := true } else d } }

/-- A write of GAV_TRIGA_n, 02 R61, R69 and R603. -/
def State.trigaWrite (s : State) (n : Nat) (d : Word) : State :=
  if n < s.rd GAV_TRIG_SPLIT GAV_TRIG_SPLIT_SPLIT ∨ s.trigAction n ≠ 0 then s.reply errPerm []
  else ((s.setReg (GAV_TRIGA n) d).noteWrite n).reply respOk []

/-- GAV_TRIGA_WRITE. -/
def execGavTrigaWrite (r : Requester) (n : Fin 8192) (d : Word) (s : State) : Host.Outcome State Fault Refusal :=
  .next (s.plat r fun s => s.trigaWrite n d)

/-- The fields of an entry break a rule, 02 R603 item 3. -/
def State.trigFieldBad (s : State) (a b : Nat) : Bool :=
  trigBad a b || (GAV_TRIGB_ACTION.of b == 1 && !dispatchOk (cslotA s.cfg) a b) ||
    (GAV_TRIGB_PROMPT.of b == 1 && s.rd (IC_SRC_CFG (258 + GAV_TRIGB_TARGET.of b)) IC_SRC_CFG_LEV != 2)

/-- An entry takes a new GAV_TRIGB: it is armed, changed or OFF; a time that lies behind sets it OFF with LATE, 02 R64. -/
def State.trigSet (s : State) (n b : Nat) : State :=
  let t := ((s.setReg (GAV_TRIGB n) (BitVec.ofNat 64 b)).noteWrite n).ownXclk
  ({ t with gav := { t.gav with next := sset (fun _ => none) t.gav.next n none } } : State).lateCheck n

/-- A write of GAV_TRIGB_n, 02 R603 and 15 R511. -/
def State.trigbWrite (s : State) (n : Nat) (d : Word) : State :=
  let a := (s.reg (GAV_TRIGA n)).toNat
  let b := bits d.toNat 0 6 + bits d.toNat 8 14 * 2 ^ 8 + bits d.toNat 32 32 * 2 ^ 32
  if n < s.rd GAV_TRIG_SPLIT GAV_TRIG_SPLIT_SPLIT then s.reply errPerm []
  else if s.trigFieldBad a b then s.reply errTarget []
  else if GAV_TRIGB_ACTION.of b = 5 then
    let buf := GAV_TRIGB_TARGET.of b
    if s.commitEntry.any fun k => k != n then s.reply errPerm []
    else
      let x := s.armBuffer buf (GAV_TRIGA_ANGLE.of a)
      if x.1 then
        let t := (x.2.trigSet n b).startFill buf
        ({ t with bsl := { t.bsl with entry := some n } } : State).reply respOk []
      else x.2.reply errTarget []
  else (s.trigSet n b).reply respOk []

/-- GAV_TRIGB_WRITE. -/
def execGavTrigbWrite (r : Requester) (n : Fin 8192) (d : Word) (s : State) : Host.Outcome State Fault Refusal :=
  .next (s.plat r fun s => s.trigbWrite n d)

/-- The engines that a source at M level is routed to, 02 R68. -/
def State.promptTargets (s : State) (i : Nat) : List Nat :=
  if s.flag (IC_SRC_CFG i) IC_SRC_CFG_EN ∧ s.rd (IC_SRC_CFG i) IC_SRC_CFG_LEV = 2 then
    ((List.range 192).filter fun l => bits (s.reg (IC_SRC_TGT i (l / 64))).toNat (l % 64) 1 == 1).filterMap s.physOf
  else []

/-- The effect of a firing with GAV_TRIGB contents `b`, 02 R62 and R68; `late` lists the engines whose budget counter holds a prompt entry at its delivery (09 R323),
and `locked` says whether the unit was LOCKED when the entry fell due (02 R70). -/
def State.fireAction (s : State) (b : Nat) (late : List Nat) (locked : Bool) : State :=
  let tgt := GAV_TRIGB_TARGET.of b
  match GAV_TRIGB_ACTION.of b with
  | 2 => s.gavPulse tgt
  | 3 =>
    let t := s.assert (258 + tgt)
    if GAV_TRIGB_PROMPT.of b = 1 then eachDo (s.promptTargets (258 + tgt)) (fun e t => t.promptDeliver e (258 + tgt) (late.contains e)) t else t
  | 4 => s.timerStart tgt
  | 5 =>
    let t := s.commitFire tgt (GAV_TRIGB_LOCKREQ.of b == 1 && !locked)
    { t with gav := { t.gav with committed := true } }
  | _ => s

/-- The entry's own counter starts again when it falls due, 02 R63. -/
def State.restartCount (s : State) (n a b : Nat) : State :=
  if GAV_TRIGB_ABS.of b = 1 then s
  else { s with gav := { s.gav with next := sset (fun _ => none) s.gav.next n (some (GAV_TRIGA_PERIOD.of a)) } }

/-- After its firing an absolute entry goes OFF, 02 R64. -/
def State.afterFire (s : State) (n b : Nat) : State := if GAV_TRIGB_ABS.of b = 1 then s.trigOff n else s

/-- Whether the armed entry `n` of the matcher falls due in the present XCLK, 02 R63 and R64: an absolute one when TIME has reached its time, a periodic one at its ANGLE in
the cycle of its PHASE or of its own counter. An entry that waits behind others has fallen due before, and after a commit the entries act from the next XCLK (R71). -/
def State.dueNow (s : State) (n : Nat) : Bool :=
  let a := (s.reg (GAV_TRIGA n)).toNat
  !s.gav.committed && decide (2 ≤ s.trigAction n) && !(s.gav.delayed.any fun d => d.n == n) &&
    if s.rd (GAV_TRIGB n) GAV_TRIGB_ABS = 1 then decide (0 ≤ timeDiff (s.trigTime n) s.time)
    else s.angleNow (GAV_TRIGA_ANGLE.of a) &&
      (match sget (fun _ => none) s.gav.next n with
       | some k => k == 0
       | none => s.gav.cyc % GAV_TRIGA_PERIOD.of a == GAV_TRIGA_PHASE.of a)

/-- Time passes until entry `n` falls due, looking at most at `f` passes of its angle. -/
def State.toDue (n : Nat) : Nat → State → State
  | 0, s => s
  | f + 1, s =>
    if s.trigAction n = 0 ∨ s.gav.delayed.any (fun d => d.n == n) ∨ s.dueNow n then s
    else State.toDue n f (s.advance (s.toAngle (s.rd (GAV_TRIGA n) GAV_TRIGA_ANGLE)))

/-- Passes of its angle after which every armed entry has fallen due: a PERIOD is below 65,536 and an absolute time less than 2^31 cycles ahead. -/
def duePasses : Nat := 2 ^ 32

/-- Another entry of the matcher that is no COMMIT falls due in this XCLK and has not fired, 02 R67. -/
def State.otherDue (s : State) (n : Nat) : Bool := s.trigListed.any fun k => k != n && s.trigAction k != 5 && s.dueNow k

/-- Entry `n` has fallen due, 02 R67: it fires, or waits behind the delayed entries, behind sixteen others of the XCLK, or, a COMMIT, behind every other. -/
def State.matchEntry (s : State) (n : Nat) (late : List Nat) : State :=
  let a := (s.reg (GAV_TRIGA n)).toNat
  let b := (s.reg (GAV_TRIGB n)).toNat
  let locked := s.rd GAV_STAT GAV_STAT_STATE == 0
  let t := s.restartCount n a b
  if s.gav.fired ≥ 16 ∨ s.gav.delayed.any (·.old) ∨ (GAV_TRIGB_ACTION.of b = 5 ∧ s.otherDue n) then
    { t with gav := { t.gav with delayed := t.gav.delayed ++ [⟨n, s.reg (GAV_TRIGA n), s.reg (GAV_TRIGB n), false, false, locked⟩] } }
  else
    (({ t with gav := { t.gav with fired := t.gav.fired + 1 } } : State).afterFire n b).fireAction b late locked

/-- A DISPATCH entry fires at its engine when the angle of its slot is reached, if the cycle's decision includes it, 02 R65. -/
def State.dispatchFire (s : State) (n : Nat) : State :=
  let tgt := s.rd (GAV_TRIGB n) GAV_TRIGB_TARGET
  let a := s.rd (GAV_TRIGA n) GAV_TRIGA_ANGLE
  if s.gav.dispatch.contains tgt then
    let t := if s.angleNow a ∨ s.toWrap ≤ s.toAngle a then s else s.advance (s.toAngle a)
    match t.physOf (tgt / 64) with
    | some e => t.slotStart e (tgt % 64)
    | none => t
  else s

/-- Entry `n` falls due, 02 R63 to R67: time passes up to that instant, and the matcher takes it. -/
def State.triggerFire (s : State) (n : Nat) (late : List Nat) : State :=
  if s.trigAction n = 0 then s
  else if s.trigAction n = 1 then s.dispatchFire n
  else
    let t := State.toDue n duePasses s
    if t.dueNow n then t.matchEntry n late else t

/-- TRIGGER_FIRE. -/
def execTriggerFire (n : Fin 8192) (late : List EngId) (s : State) : Host.Outcome State Fault Refusal :=
  .next (s.triggerFire n (late.map (·.val)))

/-- A delayed firing with its old contents, first in order, 02 R67: in the present XCLK while the matcher has room, and in the next one otherwise. A COMMIT goes behind
every other entry that fires in the same XCLK. -/
def State.delayedFire (s : State) (n : Nat) (late : List Nat) : State :=
  match s.gav.delayed with
  | [] => s
  | d :: _ =>
    if d.n ≠ n then s
    else
      let s := if s.gav.fired ≥ 16 then s.advance 1 else s
      let d := s.gav.delayed.head?.getD d
      let b := d.trigb.toNat
      let rest := s.gav.delayed.drop 1
      if GAV_TRIGB_ACTION.of b = 5 ∧ (rest ≠ [] ∨ s.otherDue n) then { s with gav := { s.gav with delayed := rest ++ [d] } }
      else
        let t : State := { s with gav := { s.gav with delayed := rest, fired := s.gav.fired + 1 } }
        let t := if d.old then (t.count GAV_MATCH_DELAY GAV_MATCH_DELAY_COUNT 1).gavErr GAV_ERR_MATCH_DELAY else t
        (if d.written then t else t.afterFire n b).fireAction b late d.locked

/-- MATCH_DELAYED_FIRE. -/
def execMatchDelayedFire (n : Fin 8192) (late : List EngId) (s : State) : Host.Outcome State Fault Refusal :=
  .next (s.delayedFire n (late.map (·.val)))

end Sys2Proof.Machine
end

