-- ==== Sys2Proof/Machine/Regs.lean ====
section
/-! DEFINITION. The platform view: reads and writes of registers under their access codes (00 R4 to R9, 19 R577 to R582). -/
namespace Sys2Proof.Machine
open Reg

/-! Access codes, 00 R4. -/

/-- Bits of the fields of one access code. -/
def RegDef.mask (r : RegDef) (a : Acc) : Nat := (r.flds.filter fun f => f.acc == a).foldl (fun m f => m ||| ((2 ^ f.w - 1) <<< f.lo)) 0

/-- `x` with the bits of `m` taken from `y`. -/
def blend (x y m : Nat) : Nat := (x ||| m) - m + (y &&& m)

/-- A word after a write of the bits `m` of `d`: RW fields take them, and W1C bits written 1 clear. -/
def RegDef.merge (r : RegDef) (cur d m : Nat) : Nat :=
  let x := blend cur d (r.mask .rw &&& m)
  blend x 0 (r.mask .w1c &&& d &&& m)

/-- What a write asks of a register's fields: RW fields not written keep their value, and WO fields not written are 0. -/
def RegDef.asked (r : RegDef) (cur d m : Nat) : Nat := blend (cur &&& r.mask .rw) d ((r.mask .rw ||| r.mask .wo) &&& m)

/-- The bits that an access of a size at an offset reaches, 00 R9; none for a size or alignment that is not allowed. -/
def accMask (off size : Nat) : Option Nat :=
  if size = 8 ∧ off % 8 = 0 then some (2 ^ 64 - 1)
  else if size = 4 ∧ off % 8 = 0 then some (2 ^ 32 - 1)
  else if size = 4 ∧ off % 8 = 4 then some (2 ^ 64 - 2 ^ 32)
  else none

/-- The state that a command leaves. -/
def after (o : Host.Outcome State Fault Refusal) (s : State) : State :=
  match o with
  | .next t => t
  | _ => s

/-- Indices of an offset in an array. -/
def RegDef.idx1 (r : RegDef) (off : Nat) : Nat := if r.s1 = 0 then 0 else (off - r.base) / r.s1
def RegDef.idx2 (r : RegDef) (off : Nat) : Nat :=
  let m := if r.s1 = 0 then off - r.base else (off - r.base) % r.s1
  if r.s2 = 0 then 0 else m / r.s2

/-! Writes that do more than their access code. -/

/-- Context of the IC_SELF registers, 12 R430. -/
def State.selfCtx (s : State) (r : Requester) : Option Nat :=
  match r with
  | .engine e => (s.logicalOf e).map fun l => 8 * l + (if s.lev e = 3 then 7 else 6)
  | _ => none

/-- Set THR of a context and present again. -/
def State.setThr (s : State) (c v : Nat) : State :=
  let t := s.wr (IC_CTX c) IC_CTX_THR v
  if c > ctxSteward then t.refreshHost c else t

/-- Clear a counter group when CLR is 1. -/
def clr (v : Nat) (o : Host.Outcome State Fault Refusal) (s : State) : State := if bits v 0 1 = 1 then after o s else s.reply respOk []

/-- Writes of timebase registers at array base `b` and indices `i`, `v` as asked. -/
def State.wrGav (s : State) (b i v : Nat) : Option State :=
  let w := BitVec.ofNat 64 v
  if b = GAV_CTRL then some ((s.ownXclk.forceHold (bits v 0 1 == 1)).reply respOk [])
  else if b = GAV_TAI_CTRL then some (s.ownXclk.taiCtrl w none)
  else if b = GAV_TAI_SET then some (after (execTaiSet w s) s)
  else if b = GAV_TRIGA 0 then some (s.trigaWrite i w)
  else if b = GAV_TRIGB 0 then some (s.trigbWrite i w)
  else if b = GAV_TMR_CTRL 0 then some (s.timerCtrl i w)
  else if b = GAV_EDGE_CTRL 0 then some (s.edgeCtrl i w)
  else if b = GAV_EDGE_POP 0 then some (if bits v 0 1 = 1 then after (execPop (Fin.ofNat 32 i) s) s else s.reply respOk [])
  else none

/-- Writes of engine counter groups. -/
def State.wrEng (s : State) (b i v : Nat) : Option State :=
  if h : i < 208 then
    let e : EngId := ⟨i, h⟩
    if b = ENG_VSU_CNTCLR 0 then some (clr v (execEngVsuCntclr e s) s)
    else if b = ENG_CHN_CNTCLR 0 then some (clr v (execEngChnCntclr e s) s)
    else if b = LVS_CNTCLR 0 then some (clr v (execLvsCntclr e s) s)
    else if b = ENG_EXC_CNTCLR 0 then some (clr v (execEngExcCntclr e s) s)
    else if b = ENG_TNG_CNTCLR 0 then some (clr v (execEngTngCntclr e s) s)
    else none
  else none

/-- Writes of slice registers, 06 R223, R225 and R230. -/
def State.wrSlc (s : State) (r : Requester) (b i v : Nat) : Option State :=
  if h : i < 32 then
    let sl : Fin 32 := ⟨i, h⟩
    if b = SLC_PCCMD 0 then some (s.pcCmd r (8 * i + bits v 0 3) (bits v 4 2))
    else if b = SLC_RETPOL 0 then (if r = .steward then none else some (s.reply errPerm []))
    else if b = SLC_SANIT 0 then some (s.sanit i (bits v 0 8) (bits v 8 1 == 1))
    else if b = SLC_CNTCLR 0 then some (clr v (execSlcCntclr sl s) s)
    else if b = SLC_XCNTCLR 0 then some (clr v (execSlcXcntclr sl s) s)
    else none
  else none

/-- Writes of cluster registers, 10 R379. -/
def State.wrClu (s : State) (r : Requester) (b i v : Nat) : Option State :=
  if h : i < 16 then
    let c : Fin 16 := ⟨i, h⟩
    let a : Fin 16 := Fin.ofNat 16 (bits v 8 4)
    let t : BitVec 16 := BitVec.ofNat 16 (bits v 16 16)
    if b = CLU_CC_CNTCLR 0 then some (clr v (execCluCcCntclr c s) s)
    else if b = CLU_HOCMD 0 then
      some (match bits v 0 3 with
        | 1 => after (execHandover r c a t s) s
        | 2 => after (execRetire r c a t s) s
        | 3 => after (execTest r c a s) s
        | 4 => after (execReinstate r c a s) s
        | 5 => after (execAbort r c s) s
        | _ => s.hoCmd r true id)
    else none
  else none

/-- Writes of interrupt controller and event router registers, 12 R429 to R440. -/
def State.wrIc (s : State) (r : Requester) (b i v : Nat) : Option State :=
  let w := BitVec.ofNat 64 v
  let self (f : Nat → State) : State := match s.selfCtx r with
    | some c => (f c).reply respOk []
    | none => s.reply errPerm []
  if b = IC_SGI then some ((s.sgi (bits v 0 10)).reply respOk [])
  else if b = IC_SELF_COMPLETE then some (self fun c => s.complete c (bits v 0 10))
  else if b = IC_SELF_THR then some (self fun c => s.setThr c (bits v 0 6))
  else if b = IC_SRC_CFG 0 then some (s.srcCfg i w)
  else if b = IC_CTX 0 then some ((s.setThr i (bits v 0 6)).reply respOk [])
  else if b = IC_COMPLETE 0 then some ((s.complete i (bits v 0 10)).reply respOk [])
  else if b = EVR_FIRE0 then some (s.evrFire false w)
  else if b = EVR_FIRE1 then some (s.evrFire true w)
  else if b = EVR_OUTW then some ((s.wr EVR_OUTW EVR_OUTW_WIDTH (max 1 (bits v 0 8))).reply respOk [])
  else none

/-- Writes of port registers, 14 R479 and R492. -/
def State.wrOct (s : State) (r : Requester) (b i v : Nat) : Option State :=
  let rel := bits v 3 1 == 1
  if b = OCT_CTRL 0 then
    if rel == s.portReleased i then none
    else if r ≠ .steward then some (s.reply errPerm [])
    else
      let t := s.wr (OCT_CTRL i) OCT_CTRL_RETRYTHR (bits v 16 16)
      some ((if rel then t.releasePort i
        else (eachDo (List.range 8) (fun l u => u.dropLink i l) t).wr (OCT_CTRL i) OCT_CTRL_RELEASE 0).reply respOk [])
  else if b = OCT_DID then
    if r ≠ .steward ∨ ((List.range 6).any fun p => s.portMode p == 0 && s.portReleased p) then some (s.reply errPerm []) else none
  else none

/-- Writes of the loader, the update controller and the key engine, 15 R510 to R512 and 17 R546 to R555. -/
def State.wrSec (s : State) (r : Requester) (b i v : Nat) : Option State :=
  if b = BSL_CMD then
    some (match bits v 0 2 with
      | 1 => s.stage (bits v 4 2)
      | 2 => s.discard (bits v 4 2)
      | _ => s.reply respOk [])
  else if b = BSL_STGBASE 0 then
    (if s.stgState i = 1 ∨ s.stgState i = 4 ∨ s.stgState i = 5 then some (s.reply errPerm []) else none)
  else if b = UPD_CMD then
    some (match bits v 0 3 with
      | 1 => s.updPrepare (bits v 16 16)
      | 2 => s.updStart
      | 3 => s.updStopCmd
      | 4 => s.updRaise
      | 5 => s.updRevoke (bits v 4 2)
      | _ => s.reply respOk [])
  else if b = KE_CMD then
    some (if r ≠ .steward then s.reply errPerm [] else if bits v 0 4 = 0 ∨ 9 < bits v 0 4 then s.reply errTarget [] else s.keStart r (bits v 0 8))
  else if b = KE_SRC ∨ b = KE_DST ∨ b = KE_LEN ∨ b = KE_STAT ∨ b = KE_CYCLES then
    (if r = .steward then none else some (s.reply errPerm []))
  else none

/-- A write of MBX_DOOR, 19 R582, and of 17 R551 while the Steward switches. -/
def State.door (s : State) (v : Nat) : State :=
  if s.rd UPD_STAT UPD_STAT_PHASE = 5 then s.reply errBusy []
  else if s.flag MBX_DOOR MBX_DOOR_REQ then s.reply errTarget []
  else ((s.wr MBX_DOOR MBX_DOOR_REQ (bits v 0 1)).wr MBX_DOOR MBX_DOOR_REPLY (bits v 1 1)).reply respOk []

/-- Writes of the remaining units. -/
def State.wrMisc (s : State) (r : Requester) (b i v : Nat) : Option State :=
  let w := BitVec.ofNat 64 v
  if b = QM_CNTCLR then some (clr v (execQmCntclr r s) s)
  else if b = OCT_CNTCLR 0 then (if h : i < 6 then some (clr v (execOctCntclr r ⟨i, h⟩ s) s) else none)
  else if b = MRG_CTRL then some (if bits v 0 1 = 1 then s.startSurvey.reply respOk [] else s.reply respOk [])
  else if b = PIN_GPIO_OUT then some (s.gpioOut w)
  else if b = MBX_DOOR then some (s.door v)
  else none

/-- A write under the access codes alone, with what follows from the new routing. -/
def State.wrPlain (s : State) (r : RegDef) (off d m : Nat) : State :=
  let t := s.setReg off (BitVec.ofNat 64 (r.merge (s.reg off).toNat d m))
  let t := if r.base = IC_SRC_TGT 0 0 ∨ r.base = IC_SRC_TGT3 0 then t.refreshAll else t
  let t := if r.base = IC_SRC_STAT 0 ∧ bits (d &&& m) 18 1 = 1 then t.setSrc (r.idx1 off) { t.src (r.idx1 off) with ovf := false } else t
  t.reply respOk []

/-- A write of a register that exists, with mask `m` of the bits written. A write that reaches no RW or WO field does nothing but clear W1C bits. -/
def State.wrReg (s : State) (q : Requester) (r : RegDef) (off d m : Nat) : State :=
  let i := r.idx1 off
  let v := r.asked (s.reg off).toNat d m
  if ((r.mask .rw ||| r.mask .wo) &&& m) = 0 ∧ !(r.base == KE_STAT || r.base == KE_CYCLES) then s.wrPlain r off d m
  else
    match (s.wrGav r.base i v).orElse (fun _ => s.wrEng r.base i v) |>.orElse (fun _ => s.wrSlc q r.base i v) |>.orElse (fun _ => s.wrClu q r.base i v)
        |>.orElse (fun _ => s.wrIc q r.base i v) |>.orElse (fun _ => s.wrOct q r.base i v) |>.orElse (fun _ => s.wrSec q r.base i v)
        |>.orElse (fun _ => s.wrMisc q r.base i v) with
    | some t => t
    | none => s.wrPlain r off d m

/-! Registers whose value other state holds. -/

/-- The queue, tenant, share and channel that the select registers name. -/
def State.qSel (s : State) : Nat := s.rd QM_QSEL QM_QSEL_QUEUE
def State.tSel (s : State) : Nat := s.rd QM_TSEL QM_TSEL_TENANT
def State.shSel (s : State) : Nat := s.rd QM_SHSEL QM_SHSEL_SHARE

/-- Two 32-bit counters of a queue. -/
def State.dropPair (s : State) (k : Nat) : Nat :=
  let n (j : Nat) := sget (fun _ => 0) (s.queue s.qSel).drops j
  n k + n (k + 1) * 2 ^ 32

/-- Read-back of timebase registers. -/
def State.rdGav (s : State) (b i : Nat) : Option Nat :=
  if b = GAV_NOW then some s.time
  else if b = GAV_TAI then some s.gav.tai
  else if b = GAV_STAT then
    let m := match s.gav.holdSince with
      | some t => min 65535 ((s.gav.mono - t) / 60000000000)
      | none => 0
    some (setBits (s.reg GAV_STAT).toNat 16 16 m)
  else if b = GAV_EDGE_TIME 0 then some (((s.captures i).head?.map (·.1.toNat)).getD 0)
  else if b = GAV_EDGE_TAI 0 then some (((s.captures i).head?.map (·.2.toNat)).getD 0)
  else if b = GAV_EDGE_STAT 0 then
    some (setBits (s.reg (GAV_EDGE_STAT i)).toNat GAV_EDGE_STAT_COUNT.lo GAV_EDGE_STAT_COUNT.w (s.captures i).length)
  else none

/-- Read-back of engine registers. -/
def State.rdEng (s : State) (b i : Nat) : Option Nat :=
  let x := s.engine i
  if b = ENG_VSU_STAT 0 then some (s.engVsuStat i)
  else if b = ENG_VSU_OUTST 0 then
    let n := ((List.range 8).map fun k => (((s.vsu i k).ents ++ (s.vsu i k).drain).map fun y => y.unacked.length).sum).sum
    some (min n 128 * 2 ^ 16)
  else if b = ENG_CHN_STAT 0 then some (s.engChnStat i)
  else if b = ENG_EXC_STAT 0 then
    some (x.core.run + x.core.lev * 2 ^ 3 + b2n x.core.feh * 2 ^ 5 +
      ((List.range 6).map fun k => b2n (x.core.bank k).held.isSome * 2 ^ (8 + k)).sum)
  else if b = ENG_TNG_STAT 0 then
    let win := min 3 (x.recHist.filter fun t => decide (s.gav.mono < t + 1000000000)).length
    let st := setBits (s.reg (ENG_TNG_STAT i)).toNat ENG_TNG_STAT_WIN.lo ENG_TNG_STAT_WIN.w win
    some (setBits st ENG_TNG_STAT_STBUF.lo ENG_TNG_STAT_STBUF.w x.stores.length)
  else none

/-- Read-back of slice registers. -/
def State.rdSlc (s : State) (b i j : Nat) : Option Nat :=
  if b = SLC_ID 0 then some (i + i / 4 * 2 ^ 5)
  else if b = SLC_PC 0 0 then
    some (setBits (s.reg (SLC_PC i j)).toNat 8 8 (((regionsIn s.cfg).filter fun r => r.mode == 2 && r.slice == i).map Region.res).sum)
  else if b = SLC_LOCK_STAT 0 then some (s.lockStat i)
  else if b = SLC_DIR_USED 0 then some (s.dirUsed i)
  else none

/-- Read-back of interrupt controller registers. -/
def State.rdIc (s : State) (b i : Nat) : Option Nat :=
  if b = IC_SRC_STAT 0 then
    let x := s.src i
    some (x.count + b2n x.active * 2 ^ 4 + b2n x.preempt * 2 ^ 5 + x.ctx * 2 ^ 6 + b2n x.ovf * 2 ^ 18 + b2n (srcIsState i) * 2 ^ 19)
  else if b = IC_GRP 0 then
    let left := match sget (fun _ => none) s.ic.holdoff i with
      | some t => (t - s.gav.mono + 999) / 1000
      | none => 0
    some (setBits (s.reg (IC_GRP i)).toNat 16 16 left)
  else if b = IC_CTX 0 then
    let run := match s.running i with
      | some v => v * 2 ^ 8 + 2 ^ 14
      | none => 0
    some (s.thr i + run + (s.presented i).getD 1023 * 2 ^ 16)
  else none

/-- Read-back of queue registers, 13 R467; what no frame defines shows its reset value. -/
def State.rdQm (s : State) (b i : Nat) : Option Nat :=
  let q := s.qSel
  let x := s.queue q
  let share := (sharesIn s.cfg).find? fun y => y.num == s.shSel
  let free (l : List Share) : Nat := (l.map fun y => s.freeCount y).sum
  if b = QM_QCFG then some (s.qcfg q)
  else if b = QM_QCFG2 then some (if s.elem 6 1 q = [] then 2 ^ 9 else s.qcfg2 q)
  else if b = QM_QSTAT then
    some (x.ring.length + b2n x.dropping * 2 ^ 17 + b2n x.back.isSome * 2 ^ 18 + b2n x.shed * 2 ^ 19 + b2n x.fault * 2 ^ 20)
  else if b = QM_QDROP0 then some (s.dropPair 0)
  else if b = QM_QDROP1 then some (s.dropPair 2)
  else if b = QM_QDROP2 then some (s.dropPair 4)
  else if b = QM_QCNT then some x.enqueued
  else if b = QM_TB then some (s.tbWord s.tSel)
  else if b = QM_TBSTAT then some (s.tokens8000 s.tSel / 8000 + sget (fun _ => 0) s.qm.refused s.tSel * 2 ^ 32)
  else if b = QM_SHA then some (elemWord (s.elem 13 1 s.shSel) 0)
  else if b = QM_SHB then some (elemWord (s.elem 13 1 s.shSel) 1)
  else if b = QM_SHS then some (free share.toList + sget (fun _ => 0) s.qm.empty s.shSel * 2 ^ 32)
  else if b = QM_POOLS 0 then
    some (free ((sharesIn s.cfg).filter fun y => y.pool == i) + sget (fun _ => 0) s.qm.poolEmpty i * 2 ^ 32)
  else none

/-- Word `w` of ring slot `r` as software reads it; an empty slot is all zero (19 R580). -/
def State.recWord (s : State) (r w : Nat) : Word := if s.mrec r = MRec.zero then 0 else (s.mrec r).word w

/-- Read-back of the remaining units. -/
def State.rdMisc (s : State) (b i j : Nat) : Option Nat :=
  if b = OCT_CHA then some (elemWord (s.elem 10 1 (s.rd OCT_CHSEL OCT_CHSEL_CHANNEL)) 0)
  else if b = OCT_CHB then some (elemWord (s.elem 10 1 (s.rd OCT_CHSEL OCT_CHSEL_CHANNEL)) 1)
  else if b = MRG_STAT then some (setBits (s.reg MRG_STAT).toNat 32 32 s.hours)
  else if b = MRG_SENSVAL then
    let n := s.rd MRG_SENSSEL MRG_SENSSEL_SENSOR
    some (sget (fun _ => 0) s.mrg.delay n % 2 ^ 16 + (sget (fun _ => 0) s.boot.fuses.base n % 2 ^ 16) * 2 ^ 16)
  else if b = MGD_REC 0 0 then some (s.recWord i j).toNat
  else if b = PIN_GPIO_IN then some ((List.range 32).map fun n => b2n (s.pinLevel n) * 2 ^ n).sum
  else none

/-- The value of a register, without the effects of a claim. -/
def State.rdReg (s : State) (r : RegDef) (off : Nat) : Word :=
  let i := r.idx1 off
  let j := r.idx2 off
  match (s.rdGav r.base i).orElse (fun _ => s.rdEng r.base i) |>.orElse (fun _ => s.rdSlc r.base i j) |>.orElse (fun _ => s.rdIc r.base i)
      |>.orElse (fun _ => s.rdQm r.base i) |>.orElse (fun _ => s.rdMisc r.base i j) with
  | some v => BitVec.ofNat 64 v
  | none => s.reg off

/-! Accesses. -/

/-- What a read finds: a response with its word, or nothing yet (a claim behind sixteen others, 12 R427). -/
abbrev Found := Option (Nat × Word)

/-- A read refused with a response. -/
def refused (resp : Nat) (s : State) : Found × State := (some (resp, 0), s)

/-- A read of a claim register for context `c`; `dst` awaits the value. -/
def State.claimRead (s : State) (c : Nat) (dst : ClaimBy) (m : Nat) : Found × State :=
  if s.ic.waiting = [] ∧ s.ic.settled < 16 then
    let x := s.claim1 c
    (some (respOk, half x.1 m), { x.2 with ic := { x.2.ic with settled := s.ic.settled + 1 } })
  else (none, s.waitClaim c dst m)

/-- PHASE of the slot as a read shows it, 01 R28: a recovery in the slot, and a closing sequence from its start for as long as it may run, at most 100 ECLK (84 ns at the slowest planned ECLK), with the free word `f` (log entry 26). -/
def State.shownPhase (s : State) (e f : Nat) : Nat :=
  let p := s.rd (ENG_SLOT_STAT e) ENG_SLOT_STAT_PHASE
  let x := s.engine e
  if x.inSlot.isSome && s.flag (ENG_TNG_STAT e) ENG_TNG_STAT_RECOV then 3
  else if p ≠ 2 then p
  else if s.gav.mono = x.closeAt then 2
  else if s.gav.mono < x.closeAt + 84 then f % 2 * 2
  else 0

/-- A register whose value moves with clock cycles or measures a channel, as a read shows it with the free word `f` (log entry 26), once start-up has begun: the counters of waits
show at least what is counted, 03 R130, 05 R199 and 06 R238; the budget counter lies between the instants that the model knows, 01 R28. -/
def State.rdTimed (s : State) (r : RegDef) (off f : Nat) : Option Word :=
  let v := (s.reg off).toNat
  let b := r.base
  if s.boot.upAt.isNone && s.rd UPD_BOOT UPD_BOOT_STATE == 0 then none
  else if b = ENG_VSU_HAZSTALL 0 ∨ b = ENG_CHN_WAITIN 0 ∨ b = ENG_CHN_WAITOUT 0 ∨ b = LVS_CONFLICT 0 0 then some (BitVec.ofNat 64 (min (v + f) (2 ^ 32 - 1)))
  else if b = ENG_VSU_OUTST 0 then
    let busy := (List.range 8).any fun k => (s.vsu (r.idx1 off) k).ents.any fun x => decide (x.elem < x.len)
    some (s.rdReg r off + BitVec.ofNat 64 (if busy then f % 257 else 0))
  else if b = XB_OUTST 0 then some (BitVec.ofNat 64 (f % 2 ^ 16))
  else if b = MGD_FLASH then some (BitVec.ofNat 64 (setBits v 32 16 f))
  else if b = OCT_LANE 0 0 then some (BitVec.ofNat 64 (setBits v 8 16 f))
  else if b = ENG_SLOT_STAT 0 then
    let n := bits v 8 24
    let w := setBits v 8 24 (if n ≤ 2000 then f / 2 % (n + 1) else 2000 + f / 2 % (n - 1999))
    some (BitVec.ofNat 64 (setBits w 6 2 (s.shownPhase (r.idx1 off) f)))
  else none

/-- In RECOVERY and UNCONFIGURED the platform BAR reaches only the identity, mailbox and update controller regions, 17 R538. -/
def State.barOk (s : State) (r : Requester) (off : Nat) : Bool :=
  r != .pf || s.rd UPD_BOOT UPD_BOOT_STATE != 2 && s.rd UPD_BOOT UPD_BOOT_STATE != 3 || off < 0x100000 || (0x1200000 ≤ off && off < 0x1300000)

/-- A counter of waits, and the budget counter, keep what a read has shown: they count on from there. -/
def State.keepTimed (s : State) (r : RegDef) (off : Nat) (v : Word) : State :=
  let b := r.base
  if b = ENG_VSU_HAZSTALL 0 ∨ b = ENG_CHN_WAITIN 0 ∨ b = ENG_CHN_WAITOUT 0 ∨ b = LVS_CONFLICT 0 0 then s.setReg off v
  else if b = ENG_SLOT_STAT 0 then s.wr off ENG_SLOT_STAT_REMAIN (bits v.toNat 8 24)
  else s

/-- A read of `size` bytes at an offset of the platform view, 00 R9 and 19 R577. DESIGN CHOICE: a requester that may not reach the view gets ERR_PERM
whatever the size and alignment of its access: R9 orders size and alignment before the offset and says nothing of a requester without permission. -/
def State.platRead (s : State) (q : Requester) (off size : Nat) (dst : ClaimBy) : Found × State :=
  if !s.platOk q then refused errPerm s
  else
    match accMask off size with
    | none => refused errTarget s
    | some m =>
      let o := off / 8 * 8
      if !s.barOk q o then refused errDecode s
      else
        match regAt o with
        | none => refused errDecode s
        | some r =>
          if r.base = IC_CLAIM 0 then s.claimRead (r.idx1 o) dst m
          else if r.base = IC_SELF_CLAIM then
            match s.selfCtx q with
            | some c => s.claimRead c dst m
            | none => refused errPerm s
          else
            let x := s.takeFree
            match s.rdTimed r o x.1.toNat with
            | some v => (some (respOk, half v m), x.2.keepTimed r o v)
            | none => (some (respOk, half (s.rdReg r o) m), s)

/-- A write of `size` bytes at an offset of the platform view; `d` is right-aligned. DESIGN CHOICE: permission is judged before size and alignment, as for a read. -/
def State.platWrite (s : State) (q : Requester) (off size : Nat) (d : Word) : State :=
  if !s.platOk q then s.reply errPerm []
  else
    match accMask off size with
    | none => s.reply errTarget []
    | some m =>
      let o := off / 8 * 8
      if !s.barOk q o then s.reply errDecode []
      else
        match regAt o with
        | none => s.reply errDecode []
        | some r => s.wrReg q r o (if off % 8 = 4 then d.toNat * 2 ^ 32 else d.toNat) m

/-- Bytes and place of an access size. -/
def accBytes : AccSz → Nat
  | .w64 => 8
  | _ => 4

def accAdd : AccSz → Nat
  | .hi32 => 4
  | _ => 0

/-- REGISTER_WRITE: a write of a register of the platform view, 00 R4. -/
def execRegisterWrite (r : Requester) (off : BitVec 26) (sz : AccSz) (d : Word) (s : State) : Host.Outcome State Fault Refusal :=
  .next (s.platWrite r (off.toNat + accAdd sz) (accBytes sz) d)

end Sys2Proof.Machine
end

