-- ==== Sys2Proof/Machine/TenantPage.lean ====
section
/-! DEFINITION. The tenant page: identity, claims, event log, MSI-X structures and queue window (19 R580, 12 R430 and R431, 13 R446). -/
namespace Sys2Proof.Machine
open Reg

/-! Through whom a page is reached. -/

/-- The requester as the page sees it: the context its claim registers act on, none through the physical addresses of R577, the PCIe function, none for the crossbar, and who awaits the value of a claim. -/
structure PageWho where
  ctx : Option Nat
  fn : Option Nat
  dst : ClaimBy
  deriving DecidableEq, Repr

/-- Context of the running bank of an engine, 12 R430. -/
def State.bankCtx (s : State) (e : Nat) : Option Nat := (s.logicalOf e).map fun l => 8 * l + (s.core e).run

/-! Registers. -/

/-- TP_LOGSEL of tenant `t`: kept above the platform view. -/
def tpLogsel (t : Nat) : Nat := 0x4000000 + 8 * t

/-- Engines that serve an active index. -/
def State.serving (s : State) : List Nat := (List.range 192).filterMap s.physOf

/-- Banks in which tenant `t` is resident, 19 R580: bank 6 for tenant 0, once start-up has brought the engines up. -/
def State.resident (s : State) (t : Nat) : Nat :=
  if t = 0 ∧ s.boot.upAt.isNone then 0
  else (s.serving.map fun e => ((List.range (if t = 0 then 1 else 6)).filter fun b => t == 0 || s.bankTenant e b == t).length).sum

/-- A bank of tenant `t` is HELD, 09 R312. -/
def State.tenantHeld (s : State) (t : Nat) : Bool :=
  t != 0 && s.serving.any fun e => (List.range 6).any fun b => s.bankTenant e b == t && ((s.core e).bank b).held.isSome

/-- TP_STAT. -/
def State.tpStat (s : State) (t : Nat) : Nat :=
  s.rd GAV_STAT GAV_STAT_STATE + s.rd GAV_STAT GAV_STAT_TAI_LOCK * 2 ^ 2 + s.rd BSL_STAT BSL_STAT_CONFIG * 2 ^ 3 +
    s.rd UPD_STAT UPD_STAT_MODE * 2 ^ 4 + b2n (s.tenantHeld t) * 2 ^ 5 + min (s.resident t) 192 * 2 ^ 16

/-- TP_LOGREC word `w`: the record in SLOT when it is the tenant's. -/
def State.tpLogrec (s : State) (t w : Nat) : Word :=
  let r := (s.reg (tpLogsel t)).toNat
  if (s.mrec r).tenant = t then s.recWord r w else 0

/-- A register of the page that a read only shows. -/
def State.tpShow (s : State) (t o : Nat) : Option Word :=
  if o = 0 then some (BitVec.ofNat 64 (t + s.tenantPartition t * 2 ^ 16 + s.tenantVf t * 2 ^ 32))
  else if o = 0x8 then some (BitVec.ofNat 64 (s.tpStat t))
  else if o = 0x10 then some (BitVec.ofNat 64 s.time)
  else if o = 0x18 then some (BitVec.ofNat 64 s.gav.tai)
  else if o = 0x108 ∨ o = 0x118 then some 0
  else if o = 0x200 then some (BitVec.ofNat 64 (s.rd MGD_STAT MGD_STAT_HEAD))
  else if o = 0x208 then some (s.reg (tpLogsel t))
  else if o = 0x210 ∨ o = 0x218 ∨ o = 0x220 ∨ o = 0x228 then some (s.tpLogrec t ((o - 0x210) / 8))
  else none

/-! MSI-X, 12 R433: entry `k` of a function is the `k`-th of its vectors. -/

/-- Vector of an entry of a function's table. -/
def State.entryVec (s : State) (f k : Nat) : Option Nat := (fnVectors s.cfg f)[k]?

/-- A table word at reset: every vector is masked. -/
def msixReset (k : Nat) : Word := if k % 2 = 1 then 0x100000000 else 0

/-- Word `w` of the table of function `f`. -/
def State.msixWord (s : State) (f w : Nat) : Word := sget msixReset s.host.msix (2048 * f + w)

/-- Write a word of the table: the mask bit of Vector Control masks or unmasks the vector. -/
def State.setMsix (s : State) (f w : Nat) (d : Word) : State :=
  let t : State := { s with host := { s.host with msix := sset msixReset s.host.msix (2048 * f + w) d } }
  if w % 2 = 0 then t
  else
    match s.entryVec f (w / 2) with
    | none => t
    | some v =>
      if bits d.toNat 32 1 = 1 then { t with ic := { t.ic with unmasked := sset (fun _ => false) t.ic.unmasked v false } }
      else if sget (fun _ => false) s.ic.unmasked v then t else t.msixUnmask v

/-- Quadword `i` of the Pending Bit Array of function `f`. -/
def State.pbaWord (s : State) (f i : Nat) : Word :=
  BitVec.ofNat 64 ((List.range 64).map fun k => match s.entryVec f (64 * i + k) with
    | some v => b2n (sget (fun _ => false) s.ic.pba v) * 2 ^ k
    | none => 0).sum

/-! Queue window, 13 R446. -/

/-- QW_STAT and QW_INFO of queue `q` for tenant `t`. -/
def State.qwStat (s : State) (t q : Nat) : Word :=
  let free := match s.shareFor t (s.qPool q) with
    | some x => s.freeCount x
    | none => 0
  BitVec.ofNat 64 ((s.queue q).ring.length + b2n (s.queue q).dropping * 2 ^ 17 + free * 2 ^ 32)

def State.qwInfo (s : State) (t q : Nat) : Word :=
  match s.shareFor t (s.qPool q) with
  | some x => BitVec.ofNat 64 (x.base + x.win * 2 ^ 24 + x.woff * 2 ^ 32 + (s.poolWords x.pool).2.2.1 * 2 ^ 60)
  | none => 0

/-- A read of the queue window at `o` within it; a 32-bit access performs no operation. -/
def State.qwRead (s : State) (t o size : Nat) : Found × State :=
  match s.qAt t (o / 32) with
  | none => refused errDecode s
  | some q =>
    if size ≠ 8 then (some (respOk, 0), s)
    else
      match o % 32 / 8 with
      | 0 => ((some (respOk, (s.deq t q 0).1)), (s.deq t q 0).2)
      | 1 => ((some (respOk, (s.allocBuf t q).1)), (s.allocBuf t q).2)
      | 2 => (some (respOk, s.qwStat t q), s)
      | _ => (some (respOk, s.qwInfo t q), s)

/-- A write of the queue window. -/
def State.qwWrite (s : State) (t o size : Nat) (d : Word) : State :=
  match s.qAt t (o / 32) with
  | none => s.reply errDecode []
  | some q =>
    if size ≠ 8 then s.reply respOk []
    else
      match o % 32 / 8 with
      | 0 => (s.enq t q d).reply respOk []
      | 1 => (s.freeOp t q (dHandle d)).reply respOk []
      | _ => s.reply respOk []

/-! Accesses of the page. -/

/-- A read of `size` bytes at offset `off` of the page of tenant `t`. -/
def State.pageRead (s : State) (t : Nat) (w : PageWho) (off size : Nat) : Found × State :=
  match accMask off size with
  | none => refused errTarget s
  | some m =>
    let o := off / 8 * 8
    if 0x8000 ≤ o then s.qwRead t (o - 0x8000) size
    else if o = 0x100 then
      match w.ctx with
      | some c => s.claimRead c w.dst m
      | none => (some (respOk, half claimNone m), s)
    else if o = 0x110 then
      (some (respOk, half (BitVec.ofNat 64 (match w.ctx with
        | some c => s.thr c
        | none => 0)) m), s)
    else if (0x3000 ≤ o ∧ o < 0x3080) ∨ 0x4000 ≤ o then
      match w.fn with
      | some f => (some (respOk, half (if o < 0x4000 then s.pbaWord f ((o - 0x3000) / 8) else s.msixWord f ((o - 0x4000) / 8)) m), s)
      | none => refused errPerm s
    else
      match s.tpShow t o with
      | some v => (some (respOk, half v m), s)
      | none => refused errDecode s

/-- A write of `size` bytes at offset `off` of the page of tenant `t`; `d` is right-aligned. -/
def State.pageWrite (s : State) (t : Nat) (w : PageWho) (off size : Nat) (d : Word) : State :=
  match accMask off size with
  | none => s.reply errTarget []
  | some m =>
    let o := off / 8 * 8
    let x := if off % 8 = 4 then d.toNat * 2 ^ 32 else d.toNat
    let low := m % 2 = 1
    if 0x8000 ≤ o then s.qwWrite t (o - 0x8000) size d
    else if o = 0x108 then
      State.reply (match w.ctx with
        | some c => if low then s.complete c (bits x 0 10) else s
        | none => s) respOk []
    else if o = 0x110 then
      State.reply (match w.ctx with
        | some c => if low then s.setThr c (bits x 0 6) else s
        | none => s) respOk []
    else if o = 0x118 then (if low then s.doorbell t (bits x 0 10) else s).reply respOk []
    else if o = 0x208 then (if low then s.setReg (tpLogsel t) (BitVec.ofNat 64 (bits x 0 13)) else s).reply respOk []
    else if (0x3000 ≤ o ∧ o < 0x3080) ∨ 0x4000 ≤ o then
      match w.fn with
      | none => s.reply errPerm []
      | some f =>
        if o < 0x4000 then s.reply respOk []
        else
          let k := (o - 0x4000) / 8
          (s.setMsix f k (BitVec.ofNat 64 (blend (s.msixWord f k).toNat x m))).reply respOk []
    else if o = 0x100 ∨ (s.tpShow t o).isSome then s.reply respOk []
    else s.reply errDecode []

end Sys2Proof.Machine
end

