-- ==== Sys2Proof/Machine/LoadStore.lean ====
section
/-! DEFINITION. Loads, stores and locked sequences of the control core, and the responses they wait for (07 R265 to R272, 10 R354, 11 R395). -/
namespace Sys2Proof.Machine
open Reg

/-! What an access reaches. -/

/-- An access of an instruction: its effective address, its own address, the address of the instruction after it, and the G registers that it writes when it completes (07 R269 and R284). -/
structure MemOp where
  ea : Word
  pc : Nat
  next : Nat
  post : List (Nat × TWord)
  deriving DecidableEq, Repr

/-- Write a list of G registers of a bank. -/
def Bank.setGs (x : Bank) (l : List (Nat × TWord)) : Bank := eachDo l (fun p y => y.setG p.1 p.2) x

/-- The fault of an access that a response refuses, 07 R270 and 09 R321. -/
def respTrap (k resp ea : Nat) : Trap := trap (respCause resp) (ea % 2 ^ 48) (respEscr k resp)

/-- The cluster of engine `e` holds line `l`. -/
def State.cached (s : State) (e l : Nat) : Bool := bits (s.dirEntry l).sharers (clusterOf e) 1 == 1

/-- The words of a line with the gated and released stores that are not visible yet, 07 R256 and 11 R395. -/
def State.overlay (s : State) (e pa key : Nat) (ws : List TWord) : List TWord :=
  eachDo (((s.engine e).out ++ (s.engine e).stores).filter fun g => g.pa / 64 == pa / 64 && g.keyid == key)
    (fun g x => mergeLine x (assoc g.lineBytes) (assoc g.lineTags)) ws

/-- A line of DRAM as the data cache of engine `e` gives it: a miss is served by the cluster cache, or goes to the slice (11 R405, R407 and R416). -/
def State.coreLoad (s : State) (e l key : Nat) : Nat × List TWord × State :=
  let c := clusterOf e
  let hit := s.inCore c (posOf e) true l
  let held := s.cached e l
  let t := if hit then s
    else if held then s.count (CLU_CC_HIT c) CLU_CC_HIT_COUNT 1
    else (s.count (CLU_CC_MISS c) CLU_CC_MISS_COUNT 1).setCcFlaw c l .clean
  let r := t.dirRdS c l key
  if r.1 = respOk ∧ !hit ∧ s.ccFlaw c l = .uncorrectable ∧ held then (errPoison, poisonLine, r.2.2.ccCheck c l)
  else (r.1, r.2.1, if r.1 = respOk then (if held ∧ !hit then r.2.2.ccCheck c l else r.2.2).fillCore c (posOf e) true l else r.2.2)

/-- A line as the data port reads it, and the next state; none while the core waits, for a range of a long vector (03 R123) or behind an open lock (11 R398). -/
def State.portLine (s : State) (e pa key : Nat) : Option (Nat × List TWord × State) :=
  if isEsc pa && s.lev e == 3 then some (s.lvsRead e (escOffset (pa / 64 * 64) / 64))
  else
    match s.target pa with
    | .dram | .firmware =>
      if s.target pa = .firmware ∧ s.lev e ≠ 3 then some (errPerm, poisonLine, s)
      else if s.lvHazard e (pa / 64) false || (!s.cached e (pa / 64) && s.lockedAway e pa) then none
      else some (s.coreLoad e (pa / 64) key)
    | .lvs le off => if s.lvHazard e (pa / 64) false then none else some (s.lvsRead le (off / 64))
    | _ => some (errDecode, poisonLine, s.defaultTarget pa (clusterOf e) (posOf e))

/-- The line with the stores of this engine that come before. -/
def State.loadLine (s : State) (e pa key : Nat) : Option (Nat × List TWord × State) :=
  (s.portLine e pa key).map fun r => (r.1, s.overlay e pa key r.2.1, r.2.2)

/-! Results of loads, 07 R266. -/

/-- Bytes that a load or store kind accesses. -/
def PendKind.size : PendKind → Nat
  | .load n _ _ => n
  | .fload n => n
  | .vload _ => 32
  | _ => 8

/-- A stored tag that the load does not accept, for the words read from address `ea`. -/
def loadTrap (k : PendKind) (ea : Nat) (ws : List TWord) : Option Trap :=
  let ok : Option (Tag → Bool) := match k with
    | .load _ _ true => none
    | .fload 8 => some fun t => t == tagF64 || t == tagRaw
    | .fload _ => some fun t => t == tagF32x2 || t == tagRaw
    | .vload et => some fun t => t.toNat == etTag et
    | .lkst | .ack => none
    | _ => some tagAny
  match ok with
  | none => none
  | some f => (ws.zipIdx.filterMap fun p => tagTrap f 3 (ea + 8 * p.2) p.1.tag).head?

/-- `size` bytes of a word from byte `off`, sign-extended or zero-extended. -/
def subWord (w : Word) (off size : Nat) (signed : Bool) : Word :=
  let x := bits w.toNat (8 * off) (8 * size)
  if signed then BitVec.ofInt 64 (toSigned (8 * size) x) else BitVec.ofNat 64 x

/-- A load writes its result; `off` is the byte of the first word at which it starts. -/
def Bank.putLoad (x : Bank) (k : PendKind) (rd off : Nat) (ws : List TWord) : Bank :=
  let w := ws.getD 0 twPoison
  match k with
  | .load n sg _ => x.setG rd (if n = 8 then w else ⟨if sg then tagI64 else tagU64, subWord w.val off n sg⟩)
  | .fload n => x.setF rd (if n = 8 then w.val else subWord w.val off n false)
  | .vload _ => eachDo (ws.take 4).zipIdx (fun p y => y.setF (4 * rd + p.2) p.1.val) x
  | .lkld => x.setG rd w
  | .lkst | .ack => x

/-! Accesses that are sent and answered, 10 R354. -/

/-- What an access found: its response and words, right-aligned, or none yet. -/
abbrev Answered := Option (Nat × List TWord)

/-- The access has been sent: the bank waits for its response, and an earlier one that an entry left stays awaited beside it (09 R322). -/
def State.sent (s : State) (e : Nat) (a : MemOp) (k : PendKind) (rd pa : Nat) (r : Answered) : State :=
  let b := (s.core e).run
  s.modEngine e fun x =>
    { x with pend := x.pend ++ [{ bank := b, rd := rd, kind := k, pa := pa, ea := a.ea.toNat % 2 ^ 48, pc := a.pc, next := a.next, post := a.post,
                                  left := false, result := r }] }

/-- A non-idempotent read: the commit before it completes, then it is sent. -/
def State.sendRead (s : State) (e : Nat) (a : MemOp) (k : PendKind) (rd pa : Nat) (f : State → Answered × State) : Res :=
  let r := f ((s.setPc e a.next).commitNow e)
  .kept (r.2.sent e a k rd pa r.1)

/-- A non-idempotent write: it is sent after every earlier store of the bank is visible, 11 R395; one that receives ERR_BUSY is repeated, 07 R270. -/
def State.sendWrite (s : State) (e : Nat) (a : MemOp) (pa : Nat) (f : State → Answered × State) : Res :=
  (s.setPc e a.next).drained e a.pc fun t =>
    let r := f t
    if r.1 = some (errBusy, []) then .wait (((s.setPc e a.pc).commitNow e).drainOut e)
    else .kept (r.2.sent e a .ack 0 pa r.1)

/-- A word read from a register carries the tag U64 (log entry 11). -/
def foundWords (r : Found) : Answered := r.map fun p => (p.1, [⟨tagU64, p.2⟩])

/-- Host address of an access to the outbound window, 19 R588. -/
def State.hostAddr (s : State) (pa : Nat) : Nat := ((s.reg HOST_OUTBASE).toNat + (pa - 0xF80000000000)) % 2 ^ 64

/-- The response that an access has put into the answer. -/
def answered (t : State) : Answered × State := (some (t.answer.resp, []), t)

/-- Tenant of the page at a physical address of 19 R577. -/
def pageTenant (pa : Nat) : Nat := (pa - 0xF10000000000) / 0x10000

/-- A read of a register view or of the outbound window by physical address, 19 R577. -/
def State.viewRead (s : State) (e pa size : Nat) : Answered × State :=
  if pa < 0xF10000000000 then
    let r := if h : e < 208 then s.platRead (.engine ⟨e, h⟩) (pa - 0xF00000000000) size (.engine e) else refused errPerm s
    (foundWords r.1, r.2)
  else if s.lev e < 2 then (some (errPerm, []), s)
  else if pa < 0xF80000000000 then
    let r := s.pageRead (pageTenant pa) ⟨none, none, .engine e⟩ (pa % 0x10000) size
    (foundWords r.1, r.2)
  else (none, s.emit (.hostRead (s.hostAddr pa)))

/-- A write there. -/
def State.viewWrite (s : State) (e pa : Nat) (bs : List Byte) : Answered × State :=
  if pa < 0xF10000000000 then
    answered (if h : e < 208 then s.platWrite (.engine ⟨e, h⟩) (pa - 0xF00000000000) bs.length (wordOf bs) else s.reply errPerm [])
  else if s.lev e < 2 then (some (errPerm, []), s)
  else if pa < 0xF80000000000 then answered (s.pageWrite (pageTenant pa) ⟨none, none, .engine e⟩ (pa % 0x10000) bs.length (wordOf bs))
  else (some (respOk, []), s.emit (.hostWrite (s.hostAddr pa) bs))

/-- The tenant page of the running bank as the engine reaches it at S and U level, 19 R579. -/
def State.ownPage (s : State) (e : Nat) : Nat × PageWho := (s.bankTenant e (s.core e).run, ⟨s.bankCtx e, none, .engine e⟩)

/-- An address that answers uncached: a register view or the outbound window. -/
def State.uncached (s : State) (pa : Nat) : Bool :=
  match s.target pa with
  | .block | .outbound => true
  | _ => false

/-! Loads. -/

/-- A load whose base register has passed its check, 07 R252 and R266. -/
def State.loadAcc (s : State) (e : Nat) (a : MemOp) (k : PendKind) (rd : Nat) : Res :=
  match s.dataAddr e a.ea k.size 0 with
  | .bad t => .fault t s
  | .page off => s.sendRead e a k rd off fun t =>
      let p := t.ownPage e
      let r := t.pageRead p.1 p.2 off k.size
      (foundWords r.1, r.2)
  | .pa pa =>
    if s.uncached pa then s.sendRead e a k rd pa fun t => t.viewRead e pa k.size
    else
      match s.loadLine e pa (s.keyid e) with
      | none => .stall
      | some (resp, ws, t) =>
        let ws := ws.drop (pa % 64 / 8) |>.take (if k.size = 32 then 4 else 1)
        if resp ≠ respOk then .fault (respTrap 0 resp a.ea.toNat) t
        else
          match loadTrap k a.ea.toNat ws with
          | some x => .fault x t
          | none => .done (t.modRun e fun x => (x.putLoad k rd (pa % 8) ws).setGs a.post)

/-- A load: the base register must carry PTR or U64, 07 R265. -/
def State.loadRes (s : State) (e : Nat) (rs1 : RegNo) (a : MemOp) (k : PendKind) (rd : Nat) : Res :=
  match tagTrap tagBase 0 0 (s.g e rs1).tag with
  | some t => .fault t s
  | none => s.loadAcc e a k rd

/-- Issue a load with an offset of `imm` bytes. -/
def State.issueLoad (s : State) (e : EngId) (rd rs1 : RegNo) (imm : BitVec 16) (k : PendKind) : State :=
  s.issue e 4 [.g rs1] fun t => t.loadRes e rs1 ⟨(t.g e rs1).val + immS imm, s.pc e, t.pc e, []⟩ k rd.toNat

/-- LD. -/
def execLd (e : EngId) (rd rs1 : RegNo) (imm : BitVec 16) (s : State) : Host.Outcome State Fault Refusal :=
  .next (s.issueLoad e rd rs1 imm (.load 8 false false))

/-- LDW. -/
def execLdw (e : EngId) (rd rs1 : RegNo) (imm : BitVec 16) (s : State) : Host.Outcome State Fault Refusal :=
  .next (s.issueLoad e rd rs1 imm (.load 4 true false))

/-- LDWU. -/
def execLdwu (e : EngId) (rd rs1 : RegNo) (imm : BitVec 16) (s : State) : Host.Outcome State Fault Refusal :=
  .next (s.issueLoad e rd rs1 imm (.load 4 false false))

/-- LDH. -/
def execLdh (e : EngId) (rd rs1 : RegNo) (imm : BitVec 16) (s : State) : Host.Outcome State Fault Refusal :=
  .next (s.issueLoad e rd rs1 imm (.load 2 true false))

/-- LDHU. -/
def execLdhu (e : EngId) (rd rs1 : RegNo) (imm : BitVec 16) (s : State) : Host.Outcome State Fault Refusal :=
  .next (s.issueLoad e rd rs1 imm (.load 2 false false))

/-- LDB. -/
def execLdb (e : EngId) (rd rs1 : RegNo) (imm : BitVec 16) (s : State) : Host.Outcome State Fault Refusal :=
  .next (s.issueLoad e rd rs1 imm (.load 1 true false))

/-- LDBU. -/
def execLdbu (e : EngId) (rd rs1 : RegNo) (imm : BitVec 16) (s : State) : Host.Outcome State Fault Refusal :=
  .next (s.issueLoad e rd rs1 imm (.load 1 false false))

/-- LD.X: every stored tag is accepted. -/
def execLdX (e : EngId) (rd rs1 : RegNo) (imm : BitVec 16) (s : State) : Host.Outcome State Fault Refusal :=
  .next (s.issueLoad e rd rs1 imm (.load 8 false true))

/-- FLD. -/
def execFld (e : EngId) (fd rs1 : RegNo) (imm : BitVec 16) (s : State) : Host.Outcome State Fault Refusal :=
  .next (s.issueLoad e fd rs1 imm (.fload 8))

/-- FLW. -/
def execFlw (e : EngId) (fd rs1 : RegNo) (imm : BitVec 16) (s : State) : Host.Outcome State Fault Refusal :=
  .next (s.issueLoad e fd rs1 imm (.fload 4))

/-- The base register after a post-incrementing access, 07 R269. -/
def bumped (b : TWord) (imm : BitVec 16) : TWord := ⟨b.tag, b.val + immS imm⟩

/-- LDP: the address is rs1, which the access then increments, 07 R269. -/
def ldpRes (e : Nat) (rd rs1 : RegNo) (imm : BitVec 16) (pc next : Nat) (post : List (Nat × TWord)) (s : State) : Res :=
  if rd = rs1 then .fault (illegal (encImm 0x24 rd rs1 imm)) s
  else s.loadRes e rs1 ⟨(s.g e rs1).val, pc, next, (rs1.toNat, bumped (s.g e rs1) imm) :: post⟩ (.load 8 false false) rd.toNat

/-- LDP. -/
def execLdp (e : EngId) (rd rs1 : RegNo) (imm : BitVec 16) (s : State) : Host.Outcome State Fault Refusal :=
  .next (s.issue e 4 [.g rs1] fun t => ldpRes e rd rs1 imm (s.pc e) (t.pc e) [] t)

/-- FLDP as LDP, into an F register; its rd field must differ from rs1 too, 07 R269. -/
def fldpRes (e : Nat) (fd rs1 : RegNo) (imm : BitVec 16) (pc next : Nat) (post : List (Nat × TWord)) (s : State) : Res :=
  if fd = rs1 then .fault (illegal (encImm 0x26 fd rs1 imm)) s
  else s.loadRes e rs1 ⟨(s.g e rs1).val, pc, next, (rs1.toNat, bumped (s.g e rs1) imm) :: post⟩ (.fload 8) fd.toNat

/-- FLDP. -/
def execFldp (e : EngId) (fd rs1 : RegNo) (imm : BitVec 16) (s : State) : Host.Outcome State Fault Refusal :=
  .next (s.issue e 4 [.g rs1] fun t => fldpRes e fd rs1 imm (s.pc e) (t.pc e) [] t)

/-- VLD: 32 bytes at rs1 + imm14 × 32, 07 R250; a reserved ETYPE is ILLEGAL_OP (03 R87). -/
def execVld (e : EngId) (vd : BitVec 3) (et : BitVec 4) (rs1 : RegNo) (imm : BitVec 14) (s : State) : Host.Outcome State Fault Refusal :=
  .next (s.issue e 4 [.g rs1] fun t =>
    if et.toNat ≥ 14 then .fault (illegal (encVm 0x20 vd et rs1 imm)) t
    else t.loadRes e rs1 ⟨(t.g e rs1).val + imm.signExtend 64 * 32, s.pc e, t.pc e, []⟩ (.vload et.toNat) vd.toNat)

/-! Stores, 07 R267 and R268. -/

/-- Tags of the words a store writes: given, or the packed tag of a store of less than a word. -/
inductive StTag where
  | whole (ts : List Tag)
  | packed (p : Tag)
  deriving DecidableEq, Repr

/-- The old tag of a word that a store of less than a word does not accept, 07 R268. -/
def packTrap (p : Tag) (ea : Nat) (old : Tag) : Option Trap :=
  if old = tagRaw ∨ old = tagEmpty ∨ old = p then none
  else some (trap (if old = tagPoison then cTagPoison else cTagMismatch) ea (old.toNat + 3 * 16))

/-- A store whose registers have passed their checks. -/
def State.storeAcc (s : State) (e : Nat) (a : MemOp) (bs : List Byte) (tg : StTag) : Res :=
  let put (t : State) (pa : Nat) (ts : List Tag) : Res :=
    .done ((t.gate e a.pc ⟨(t.core e).run, pa, a.ea.toNat % 2 ^ 48, bs, ts, t.keyid e⟩).modRun e fun x => x.setGs a.post)
  match s.dataAddr e a.ea bs.length 1 with
  | .bad t => .fault t s
  | .page off => s.sendWrite e a off fun t =>
      let p := t.ownPage e
      answered (t.pageWrite p.1 p.2 off bs.length (wordOf bs))
  | .pa pa =>
    if s.uncached pa then s.sendWrite e a pa fun t => t.viewWrite e pa bs
    else if s.lvHazard e (pa / 64) true then .stall
    else
      match tg with
      | .whole ts => put s pa ts
      | .packed p =>
        match s.loadLine e pa (s.keyid e) with
        | none => .stall
        | some (resp, ws, t) =>
          let old := (ws.getD (pa % 64 / 8) twPoison).tag
          if resp ≠ respOk then .fault (respTrap 1 resp a.ea.toNat) t
          else
            match packTrap p a.ea.toNat old with
            | some x => .fault x t
            | none => put t pa [if old = tagRaw then tagRaw else p]

/-- A store: the base register, then the data register, are checked, 07 R248 and R265. -/
def State.storeRes (s : State) (e : Nat) (rs1 : RegNo) (data : Option Trap) (a : MemOp) (bs : List Byte) (tg : StTag) : Res :=
  match firstTrap (tagTrap tagBase 0 0 (s.g e rs1).tag) data with
  | some t => .fault t s
  | none => s.storeAcc e a bs tg

/-- The access of a store with an offset. -/
def State.offAcc (s t : State) (e : Nat) (rs1 : RegNo) (imm : BitVec 16) : MemOp := ⟨(t.g e rs1).val + immS imm, s.pc e, t.pc e, []⟩

/-- ST. -/
def execSt (e : EngId) (rs rs1 : RegNo) (imm : BitVec 16) (s : State) : Host.Outcome State Fault Refusal :=
  .next (s.issue e 4 [.g rs, .g rs1] fun t =>
    let d := t.g e rs
    t.storeRes e rs1 (tagTrap tagAny 2 0 d.tag) (s.offAcc t e rs1 imm) (bytesOf d.val) (.whole [d.tag]))

/-- STW, STH and STB write the low bytes of an N or RAW register. -/
def subStore (e : Nat) (rs rs1 : RegNo) (n : Nat) (p : Tag) (a : MemOp) (s : State) : Res :=
  let d := s.g e rs
  s.storeRes e rs1 (tagTrap tagNRaw 2 0 d.tag) a ((bytesOf d.val).take n) (.packed p)

/-- STW. -/
def execStw (e : EngId) (rs rs1 : RegNo) (imm : BitVec 16) (s : State) : Host.Outcome State Fault Refusal :=
  .next (s.issue e 4 [.g rs, .g rs1] fun t => subStore e rs rs1 4 tagI32x2 (s.offAcc t e rs1 imm) t)

/-- STH. -/
def execSth (e : EngId) (rs rs1 : RegNo) (imm : BitVec 16) (s : State) : Host.Outcome State Fault Refusal :=
  .next (s.issue e 4 [.g rs, .g rs1] fun t => subStore e rs rs1 2 tagI16x4 (s.offAcc t e rs1 imm) t)

/-- STB. -/
def execStb (e : EngId) (rs rs1 : RegNo) (imm : BitVec 16) (s : State) : Host.Outcome State Fault Refusal :=
  .next (s.issue e 4 [.g rs, .g rs1] fun t => subStore e rs rs1 1 tagI8x8 (s.offAcc t e rs1 imm) t)

/-- STP: the address is rs1, which the access then increments, 07 R269. -/
def stpRes (e : Nat) (rs rs1 : RegNo) (imm : BitVec 16) (pc next : Nat) (post : List (Nat × TWord)) (s : State) : Res :=
  let d := s.g e rs
  if rs = rs1 then .fault (illegal (encImm 0x25 rs rs1 imm)) s
  else s.storeRes e rs1 (tagTrap tagAny 2 0 d.tag) ⟨(s.g e rs1).val, pc, next, (rs1.toNat, bumped (s.g e rs1) imm) :: post⟩
    (bytesOf d.val) (.whole [d.tag])

/-- STP. -/
def execStp (e : EngId) (rs rs1 : RegNo) (imm : BitVec 16) (s : State) : Host.Outcome State Fault Refusal :=
  .next (s.issue e 4 [.g rs, .g rs1] fun t => stpRes e rs rs1 imm (s.pc e) (t.pc e) [] t)

/-- FSD. -/
def execFsd (e : EngId) (fs rs1 : RegNo) (imm : BitVec 16) (s : State) : Host.Outcome State Fault Refusal :=
  .next (s.issue e 4 [.f fs, .g rs1] fun t => t.storeRes e rs1 none (s.offAcc t e rs1 imm) (bytesOf (t.f e fs)) (.whole [tagF64]))

/-- FSDP as STP, from an F register; its rd field must differ from rs1 too, 07 R269. -/
def fsdpRes (e : Nat) (fs rs1 : RegNo) (imm : BitVec 16) (pc next : Nat) (post : List (Nat × TWord)) (s : State) : Res :=
  if fs = rs1 then .fault (illegal (encImm 0x27 fs rs1 imm)) s
  else s.storeRes e rs1 none ⟨(s.g e rs1).val, pc, next, (rs1.toNat, bumped (s.g e rs1) imm) :: post⟩ (bytesOf (s.f e fs)) (.whole [tagF64])

/-- FSDP. -/
def execFsdp (e : EngId) (fs rs1 : RegNo) (imm : BitVec 16) (s : State) : Host.Outcome State Fault Refusal :=
  .next (s.issue e 4 [.f fs, .g rs1] fun t => fsdpRes e fs rs1 imm (s.pc e) (t.pc e) [] t)

/-- FSW. -/
def execFsw (e : EngId) (fs rs1 : RegNo) (imm : BitVec 16) (s : State) : Host.Outcome State Fault Refusal :=
  .next (s.issue e 4 [.f fs, .g rs1] fun t => t.storeRes e rs1 none (s.offAcc t e rs1 imm) ((bytesOf (t.f e fs)).take 4) (.packed tagF32x2))

/-- VST: 32 bytes, each word with the tag of ETYPE. -/
def execVst (e : EngId) (vs : BitVec 3) (et : BitVec 4) (rs1 : RegNo) (imm : BitVec 14) (s : State) : Host.Outcome State Fault Refusal :=
  .next (s.issue e 4 [.v vs, .g rs1] fun t =>
    if et.toNat ≥ 14 then .fault (illegal (encVm 0x21 vs et rs1 imm)) t
    else
      t.storeRes e rs1 none ⟨(t.g e rs1).val + imm.signExtend 64 * 32, s.pc e, t.pc e, []⟩
        ((List.range 4).flatMap fun i => bytesOf ((t.runBank e).getF (4 * vs.toNat + i)))
        (.whole (List.replicate 4 (BitVec.ofNat 4 (etTag et.toNat)))))

/-! Locked sequences, 07 R272 and 11 R397 to R403. -/

/-- An address that a slice serves for engine `e`: DRAM, and the machine firmware area at M level. -/
def State.sliceServes (s : State) (e pa : Nat) : Bool :=
  match s.target pa with
  | .dram => true
  | .firmware => s.lev e == 3
  | _ => false

/-- LKLD. -/
def execLkld (e : EngId) (rd rs1 : RegNo) (s : State) : Host.Outcome State Fault Refusal :=
  .next (s.issue e 4 [.g rs1] fun t =>
    let a : MemOp := ⟨(t.g e rs1).val, s.pc e, t.pc e, []⟩
    match tagTrap tagBase 0 0 (t.g e rs1).tag with
    | some x => .fault x t
    | none =>
      match t.dataAddr e a.ea 8 0 with
      | .bad x => .fault x t
      | .page off => t.sendRead e a .lkld rd.toNat off fun u => (some (errTarget, poisonLine), u)
      | .pa pa =>
        if !t.sliceServes e pa then t.sendRead e a .lkld rd.toNat pa fun u => (some (errTarget, poisonLine), u)
        else if t.lvHazard e (pa / 64) false then .stall
        else
          let key := t.keyid e
          t.drained e (s.pc e) fun u =>
            .kept ((u.sent e a .lkld rd.toNat pa none).arrive
              { mid := clusterOf e, pos := posOf e, id := 510, key := key, line := pa / 64, op := .lkld }))

/-- LKST. -/
def execLkst (e : EngId) (rd rs1 rs2 : RegNo) (s : State) : Host.Outcome State Fault Refusal :=
  .next (s.issue e 4 [.g rs1, .g rs2] fun t =>
    let a : MemOp := ⟨(t.g e rs1).val, s.pc e, t.pc e, []⟩
    let d := t.g e rs2
    match firstTrap (tagTrap tagBase 0 0 (t.g e rs1).tag) (tagTrap tagAny 1 0 d.tag) with
    | some x => .fault x t
    | none =>
      match t.dataAddr e a.ea 8 1 with
      | .bad x => .fault x t
      | .page off =>
        t.drained e (s.pc e) fun u =>
          let r : Nat × State := match u.heldSlice (clusterOf e) (posOf e) with
            | some sl => (errLock, u.closeLock sl)
            | none => (errTarget, u)
          .kept ((r.2.modEngine e fun x => { x with lock := none }).sent e a .lkst rd.toNat off (some (r.1, [])))
      | .pa pa =>
        if t.sliceServes e pa && t.lvHazard e (pa / 64) true then .stall
        else
          let key := t.keyid e
          t.drained e (s.pc e) fun u =>
            let r : Nat × State := match u.heldSlice (clusterOf e) (posOf e) with
              | some sl =>
                if t.sliceServes e pa then
                  u.lkst sl (clusterOf e) (posOf e) (pa / 64) key ((bytesOf d.val).zipIdx.map fun p => (pa % 64 + p.2, p.1)) [(pa % 64 / 8, d.tag)]
                else (errLock, u.closeLock sl)
              | none => (if t.sliceServes e pa then errLock else errTarget, u)
            .kept ((r.2.modEngine e fun x => { x with lock := none }).sent e a .lkst rd.toNat pa (some (r.1, []))))

/-- LKREL. -/
def execLkrel (e : EngId) (rs1 : RegNo) (s : State) : Host.Outcome State Fault Refusal :=
  .next (s.issue e 4 [.g rs1] fun t =>
    let a : MemOp := ⟨(t.g e rs1).val, s.pc e, t.pc e, []⟩
    let go (pa : Nat) : Res := t.drained e (s.pc e) fun u =>
      .kept (((u.lkrel (clusterOf e) (posOf e)).modEngine e fun x => { x with lock := none }).sent e a .ack 0 pa (some (respOk, [])))
    match tagTrap tagBase 0 0 (t.g e rs1).tag with
    | some x => .fault x t
    | none =>
      match t.dataAddr e a.ea 8 0 with
      | .bad x => .fault x t
      | .page off => go off
      | .pa pa => go pa)

/-! Responses. -/

/-- The error of a response, for a load or store kind; a stored tag that the load does not accept is one. -/
def pendTrap (p : PendAccess) (resp : Nat) (ws : List TWord) : Option Trap :=
  match p.kind with
  | .ack => if resp = respOk then none else some (respTrap 1 resp p.ea)
  | .lkst => if resp = respOk ∨ resp = errLock then none else some (respTrap 1 resp p.ea)
  | k => if resp ≠ respOk then some (respTrap 0 resp p.ea) else loadTrap k p.ea ws

/-- A store faults late, a load at its instruction, 07 R270 and R271. -/
def PendKind.late : PendKind → Bool
  | .ack | .lkst => true
  | _ => false

/-- A response reaches the bank that sent the access, 07 R270 to R272, 09 R322 and 10 R354. -/
def State.answerAccess (s : State) (e : Nat) (p : PendAccess) (resp : Nat) (ws : List TWord) : State :=
  let u := s.modEngine e fun x => { x with pend := x.pend.erase p }
  let c := s.core e
  let recov := s.flag (ENG_TNG_STAT e) ENG_TNG_STAT_RECOV
  let write (f : Bank → Bank) (t : State) : State :=
    let t := t.modAsync e fun c => c.setBank p.bank ((f (c.bank p.bank)).setGs p.post)
    if recov then t else t.commitPoint e
  match pendTrap p resp ws with
  | none =>
    let t := if p.kind = .lkld then u.modEngine e fun x => { x with lock := some p.bank } else u
    let v : TWord := ⟨tagI64, if resp = errLock then 1 else 0⟩
    write (fun x => if p.kind = .lkst then x.setG p.rd v else x.putLoad p.kind p.rd 0 ws) t
  | some t =>
    if p.kind.late then write id (u.deferErr e ⟨p.bank, t.cause, t.eaddr, t.escr⟩)
    else if c.run = p.bank ∧ c.pc = p.next ∧ !c.idle ∧ !p.left ∧ !recov then u.takeException e p.pc t
    else u.deferErr e ⟨p.bank, t.cause, t.eaddr, t.escr⟩

/-- The response that comes next: DESIGN CHOICE, the oldest access that its target has answered or that host memory answers now (log entry 26). -/
def PendAccess.ready (p : PendAccess) : Bool := p.result.isSome || (p.kind != .lkld && decide (0xF80000000000 ≤ p.pa))

/-- ACCESS_RESPONSE: `host` is what host memory answers a read of the outbound window, none for an error (19 R588). -/
def execAccessResponse (e : EngId) (host : Option (Vector Word 4)) (s : State) : Host.Outcome State Fault Refusal :=
  .next (match (s.engine e).pend.find? PendAccess.ready with
    | none => s
    | some p =>
      match p.result with
      | some (resp, ws) => s.answerAccess e p resp (if p.kind = .lkld then (ws.drop (p.pa % 64 / 8)).take 1 else ws)
      | none =>
        match host with
        | none => s.answerAccess e p errTarget []
        | some ws =>
          let r := s.takeFreeN 4
          let tagged : List TWord := (ws.toList.zip r.1).map fun x => ⟨x.2.extractLsb' 0 4, x.1⟩
          r.2.answerAccess e p respOk (tagged.take (if p.kind.size = 32 then 4 else 1)))

/-- CACHE_LINE_FILL: a line that the data caches (`data`) or instruction caches of the engine missed arrives from the cluster cache where that holds it, else from its slice, 07 R254 and 11 R416. -/
def execCacheLineFill (e : EngId) (line : LineNo) (data : Bool) (s : State) : Host.Outcome State Fault Refusal :=
  .next (let c := clusterOf e
    if s.inCore c (posOf e) data line || s.dramBarred c (posOf e) line then s
    else if s.cached e line then
      let t := (s.count (CLU_CC_HIT c) CLU_CC_HIT_COUNT 1).ccCheck c line
      if s.ccFlaw c line = .uncorrectable then t else t.fillCore c (posOf e) data line
    else ((s.count (CLU_CC_MISS c) CLU_CC_MISS_COUNT 1).setCcFlaw c line .clean).arrive
      { mid := c, pos := posOf e, id := 509, key := s.keyid e, line := line, op := .rdS (some data) })

end Sys2Proof.Machine
end

