-- ==== Sys2Proof/Machine/Banks.lean ====
section
/-! DEFINITION. BANKSAVE and BANKLOAD, 09 R333 to R341. -/
namespace Sys2Proof.Machine
open Reg

/-- GEN of tenant `t` at engine `e`: the epoch of its active index above the count of saves, 09 R338. -/
def State.genOf (s : State) (e t : Nat) : Nat :=
  (sget (fun _ => 0) s.upd.epochs ((s.logicalOf e).getD 255)) % 256 * 2 ^ 40 + sget (fun _ => 0) (s.engine e).gen t

/-- The count of saves stands at its end. -/
def State.genFull (s : State) (e t : Nat) : Bool := sget (fun _ => 0) (s.engine e).gen t == 2 ^ 40 - 1

/-- One more save, or fresh bank, of tenant `t`. -/
def State.genStep (s : State) (e t : Nat) : State :=
  s.modEngine e fun x => { x with gen := sset (fun _ => 0) x.gen t (sget (fun _ => 0) x.gen t + 1) }

/-- A bank of 0 to 5 without a tenant, 09 R308. -/
def State.vacant (s : State) (e b : Nat) : Bool := decide (b < 6) && s.bankTenant e b == 0

/-- The bank that the current M entry interrupted, 09 R335. -/
def State.interrupted (s : State) (e b : Nat) : Bool :=
  let m := s.estat e 3
  (m != 0x4000 || s.tenantSlot e) && bits m 2 3 == b && bits m 5 1 == 0

/-- A tagged word from a value, with a free tag: the spec gives no tag to the words of an image but those of the G registers. -/
def freeTag (v : Nat) (f : Word) : TWord := ⟨f.extractLsb' 0 4, BitVec.ofNat 64 v⟩

/-- Words with free tags. -/
def State.freeTagged (s : State) (vs : List Nat) : List TWord × State :=
  let r := s.takeFreeN vs.length
  ((vs.zip r.1).map fun p => freeTag p.1 p.2, r.2)

/-- Words whose layout the spec does not give. -/
def State.freeWords (s : State) (n : Nat) : List TWord × State :=
  let r := s.takeFreeN (2 * n)
  ((List.range n).map fun i => freeTag (r.1.getD (2 * i) 0).toNat (r.1.getD (2 * i + 1) 0), r.2)

/-- Write lines of an image in turn until one is refused: the response, the address of that line, and the next state. -/
def State.putLines (s : State) (key pa : Nat) (ls : List (Nat × List TWord)) : Nat × Nat × State :=
  ls.foldl (fun (z : Nat × Nat × State) l =>
    if z.1 ≠ respOk then z
    else
      let a := pa + 64 * l.1
      let r := z.2.2.cohFull (a / 64) key l.2
      (r.1, a, r.2)) (respOk, pa, s)

/-- Read lines of an image: the first refused response with its address, the words by line, and the next state. -/
def State.getLines (s : State) (key pa : Nat) (ls : List Nat) : Nat × Nat × List (Nat × List TWord) × State :=
  ls.foldl (fun (z : Nat × Nat × List (Nat × List TWord) × State) n =>
    if z.1 ≠ respOk then z
    else
      let a := pa + 64 * n
      let r := z.2.2.2.cohRead (a / 64) key .clean
      (r.1, a, z.2.2.1 ++ [(n, r.2.1)], r.2.2)) (respOk, pa, [], s)

/-- The fault of a refused line, 09 R341: reason 1 for the integrity tag. -/
def imageTrap (k resp a : Nat) : Trap := trap (respCause resp) a (if resp = errInteg then 1 else respEscr k resp)

/-- An image line waits behind an open lock of another holder. -/
def State.imageLocked (s : State) (e pa : Nat) : Bool := (List.range 32).any fun i => s.lockedAway e (pa + 64 * i)

/-- A bank image must lie in DRAM. -/
def State.imagePlace (s : State) (pa : Nat) : Bool :=
  match s.target pa with
  | .dram | .firmware => true
  | _ => false

/-- The exception of a save or load that failed is the access's result, 10 R354. -/
def State.imageFault (s : State) (e pc : Nat) (t : Trap) : Res := .kept ((s.takeException e pc t).commitPoint e)

/-- The G and F lines of the groups in a mask, 09 R336. -/
def State.groupLines (s : State) (x : Bank) (mask : Nat) : List (Nat × List TWord) × State :=
  let g := ((List.range 4).filter fun k => bits mask k 1 == 1).map fun k => (3 + k, (List.range 8).map fun i => x.getG (8 * k + i))
  ((List.range 4).filter fun k => bits mask (4 + k) 1 == 1).foldl (fun (z : List (Nat × List TWord) × State) k =>
    let r := z.2.freeTagged ((List.range 8).map fun i => (x.getF (8 * k + i)).toNat)
    (z.1 ++ [(7 + k, r.1)], r.2)) (g, s)

/-- The image of bank `b` is written to `pa`, 09 R335, R336 and R341. -/
def State.bankSave (s : State) (e b pa pc : Nat) (clr : Bool) : Res :=
  let t := s.bankTenant e b
  let x := (s.core e).bank b
  let v := s.vsu e b
  let s := s.genStep e t
  let l := (s.logicalOf e).getD 255
  let present := 255 + ((v.ents.map fun y => 2 ^ (8 + y.qe)).sum)
  let h := s.freeTagged [1, t + b * 2 ^ 16 + l * 2 ^ 24, s.genOf e t, present, 0, 0, 0, 0]
  let c := h.2.freeWords 16
  let g := c.2.groupLines x (if x.img = some pa then x.dirty % 256 else 255)
  let n := v.ents.foldl (fun (z : List (Nat × List TWord) × State) y =>
    let r := z.2.freeWords 24
    (z.1 ++ [(y.qe, r.1)], r.2)) (([] : List (Nat × List TWord)), g.2)
  let lines := [(0, h.1), (1, c.1.take 8), (2, c.1.drop 8)] ++ g.1 ++
    n.1.flatMap fun y => (List.range 3).map fun j => (11 + 3 * y.1 + j, (y.2.drop (8 * j)).take 8)
  let w := n.2.putLines t pa lines
  let u := if (w.2.2.engine e).lock = some b then
      (w.2.2.lkrel (clusterOf e) (posOf e)).modEngine e fun y => { y with lock := none } else w.2.2
  if w.1 ≠ respOk then (if b < 6 then u.vacateBank e b else u).imageFault e pc (imageTrap 1 w.1 w.2.1)
  else
    let im : BankImage := { bank := x, vsu := v, ctl := c.1, ents := n.1 }
    let u : State := { u with mem := { u.mem with images := sset (fun _ => none) u.mem.images (pa / 2048) (some im) } }
    let u := u.modBank e b fun y => { y with dirty := 0, img := some pa }
    .commit (if clr then u.vacateBank e b else u)

/-- A BANKSAVE or BANKLOAD that waits has begun: entries and prompt entries await it, 09 R322 and R323. -/
def bankRes (s : State) (e : Nat) (r : Res) : Res :=
  match r with
  | .stall => .wait (s.noteBusy e (s.pc e) true)
  | .wait t => .wait (t.noteBusy e (s.pc e) true)
  | .commit t => .commit (t.clearBusy e)
  | .kept t => .kept (t.clearBusy e)
  | r => r

/-- BANKSAVE: imm16[2:0] the bank and imm16[3] CLR, 09 R335. -/
def execBanksave (e : EngId) (rs : RegNo) (imm : BitVec 16) (s : State) : Host.Outcome State Fault Refusal :=
  .next (s.issue e 4 [.g rs] fun t => bankRes s e <|
    let b := imm.toNat % 8
    let clr := bits imm.toNat 3 1 == 1
    let parcel := encSys 10 rs.toNat imm.toNat
    if imm.toNat / 16 ≠ 0 then .fault (illegal parcel) t
    else if t.lev e < 3 then .fault (privOp parcel) t
    else
      match tagTrap tagAny 0 0 (t.g e rs).tag with
      | some x => .fault x t
      | none =>
        let pa := (t.g e rs).val.toNat
        let v := t.vsu e b
        if b = 7 ∨ t.vacant e b ∨ (b = 6 ∧ clr) ∨ t.interrupted e b ∨ v.ents.any fun y => y.ringSrc.isSome || y.ringDst then
          .fault (illegal parcel) t
        else if v.drain ≠ [] ∨ v.ents.any fun y => y.unacked != [] then .stall
        else if t.genFull e (t.bankTenant e b) then .fault (illegal 7) t
        else if pa % 2048 ≠ 0 then .fault (trap cAlign (pa % 2 ^ 48) (accEscr 1 0)) t
        else if t.imageLocked e pa then .stall
        else
          t.drained e (s.pc e) fun u =>
            if !u.imagePlace pa then
              (if b < 6 then u.vacateBank e b else u).imageFault e (s.pc e) (trap cBus (pa % 2 ^ 48) 5)
            else u.bankSave e b pa (s.pc e) clr)

/-- The control state of a bank whose CTL lines hold other words than a save has written: free values within each register's fields. -/
def State.freeCtl (s : State) (b : Nat) : Bank × State :=
  let r := s.takeFreeN 16
  let w (i : Nat) : Nat := (r.1.getD i 0).toNat
  let sv : SaveSet := ⟨BitVec.ofNat 64 (w 0 % 2 ^ 48), BitVec.ofNat 64 (w 1 % 2 ^ 15), BitVec.ofNat 64 (w 2 % 2 ^ 21),
    BitVec.ofNat 64 (w 3 % 2 ^ 48), BitVec.ofNat 64 (w 4), BitVec.ofNat 64 (w 5)⟩
  ({ Bank.reset b with
       astat := BitVec.ofNat 64 (w 6 % 2 + bits (w 6) 16 17 * 2 ^ 16), vfcsr := BitVec.ofNat 64 (w 7 % 2 ^ 24 / 8 * 8),
       chop := (List.range 4).foldl (fun m k => sset (fun _ => 0) m k (BitVec.ofNat 64 (w (8 + k)))) [], save := sv,
       evec := BitVec.ofNat 64 (w 12 % 2 ^ 48 / 256 * 256), rpc := w 13 % 2 ^ 48, rlev := w 14 % 2 }, r.2)

/-- The image at `pa` goes into bank `b` for tenant `t`, 09 R337 and R341; its lines have been read. -/
def State.bankFill (s : State) (e b t pa : Nat) (ls : List (Nat × List TWord)) (qs : List Nat) : State :=
  let line (n : Nat) : List TWord := (assoc ls n).getD []
  let ctl := line 1 ++ line 2
  let im := sget (fun _ => none) s.mem.images (pa / 2048)
  let c : Bank × State := match im with
    | some i => if i.ctl = ctl then (i.bank, s) else s.freeCtl b
    | none => s.freeCtl b
  let words (q : Nat) : List TWord := (List.range 3).flatMap fun j => line (11 + 3 * q + j)
  let v : BankVsu := match im with
    | some i => { i.vsu with ents := i.vsu.ents.filter fun y => qs.contains y.qe && decide (assoc i.ents y.qe = some (words y.qe)) }
    | none => BankVsu.reset
  let g := (List.range 32).foldl (fun m r => sset emptyG m r ((line (3 + r / 8)).getD (r % 8) ⟨tagEmpty, 0⟩)) []
  let f := (List.range 32).foldl (fun m r => sset (fun _ => (0 : Word)) m r ((line (7 + r / 8)).getD (r % 8) ⟨tagEmpty, 0⟩).val) []
  let u := c.2.modCore e fun k => k.setBank b { c.1 with g := g, f := f, dirty := 0, img := some pa }
  (u.modVsu e b fun _ => v).setBankTenant e b t

/-- A fresh bank, 09 R337. -/
def State.freshBank (s : State) (e b t : Nat) : State :=
  let s := s.genStep e t
  let u := s.modCore e fun k => k.setBank b { Bank.reset b with save := { (Bank.reset b).save with estat := 0x3C00 } }
  (u.modVsu e b fun _ => BankVsu.reset).setBankTenant e b t

/-- A load of the image at `pa`, 09 R337 and R341: the read lines, then format, tenant, engine and GEN are judged. -/
def State.bankLoad (s : State) (e b t pa pc : Nat) : Res :=
  let h := s.getLines t pa [0]
  let hw (i : Nat) : Nat := (((assoc h.2.2.1 0).getD []).getD i twPoison).val.toNat
  if h.1 ≠ respOk then h.2.2.2.imageFault e pc (imageTrap 0 h.1 h.2.1)
  else
    let qs := (List.range 6).filter fun q => bits (hw 3) (8 + q) 1 == 1
    let r := h.2.2.2.getLines t pa ((List.range 10).map (· + 1) ++ qs.flatMap fun q => (List.range 3).map fun j => 11 + 3 * q + j)
    let u := r.2.2.2
    let bad (n : Nat) : Res := u.imageFault e pc (trap cBus pa n)
    if r.1 ≠ respOk then u.imageFault e pc (imageTrap 0 r.1 r.2.1)
    else if hw 0 ≠ 1 then bad 4
    else if bits (hw 1) 0 13 ≠ t then bad 3
    else if some (bits (hw 1) 24 8) ≠ s.logicalOf e then bad 6
    else if hw 2 ≠ s.genOf e t then bad 2
    else .commit (u.bankFill e b t pa r.2.2.1 qs)

/-- BANKLOAD: imm16[2:0] the bank and imm16[15:3] the tenant; rs = 0 makes a fresh bank, 09 R337. -/
def execBankload (e : EngId) (rs : RegNo) (imm : BitVec 16) (s : State) : Host.Outcome State Fault Refusal :=
  .next (s.issue e 4 [.g rs] fun t => bankRes s e <|
    let b := imm.toNat % 8
    let n := imm.toNat / 8
    let parcel := encSys 11 rs.toNat imm.toNat
    if t.lev e < 3 then .fault (privOp parcel) t
    else
      match tagTrap tagAny 0 0 (t.g e rs).tag with
      | some x => .fault x t
      | none =>
        let pa := (t.g e rs).val.toNat
        if 6 ≤ b ∨ !t.vacant e b ∨ n = 0 ∨ ((List.range 6).any fun k => t.bankTenant e k == n) ∨ t.shadowBars n then .fault (illegal parcel) t
        else if pa = 0 then
          if t.genFull e n then .fault (illegal 7) t else t.drained e (s.pc e) fun u => .commit (u.freshBank e b n)
        else if pa % 2048 ≠ 0 then .fault (trap cAlign (pa % 2 ^ 48) (accEscr 0 0)) t
        else if t.imageLocked e pa then .stall
        else
          t.drained e (s.pc e) fun u =>
            if !u.imagePlace pa then u.imageFault e (s.pc e) (trap cBus (pa % 2 ^ 48) 5)
            else u.bankLoad e b n pa (s.pc e))

end Sys2Proof.Machine
end

