-- ==== Sys2Proof/Machine/Flags.lean ====
section
/-! DEFINITION. Carries and flags of the integer group (07 R261 to R263). -/
namespace Sys2Proof.Machine

/-- Nibble `i` of a number. -/
def nib (x i : Nat) : Nat := bits x (4 * i) 4

/-- Carry out of nibble `i` of `a + b + c`, 07 R261. -/
def nibCarry (a b c i : Nat) : Nat := (a % 16 ^ (i + 1) + b % 16 ^ (i + 1) + c) / 16 ^ (i + 1)

/-- Borrow out of nibble `i` of `a - b - c`. -/
def nibBorrow (a b c i : Nat) : Nat := if a % 16 ^ (i + 1) < b % 16 ^ (i + 1) + c then 1 else 0

/-- ASTAT after an addition or a subtraction, 07 R261: C, NC and NSUB. -/
def astatOf (carry : Nat → Nat) (sub : Bool) : Nat :=
  carry 15 + ((List.range 16).map fun i => carry i * 2 ^ (16 + i)).sum + b2n sub * 2 ^ 32

/-- Decimal adjust, 07 R263: the adjusted word and C. -/
def dadj (r astat : Nat) : Nat × Nat :=
  let nc (i : Nat) : Bool := bits astat (16 + i) 1 == 1
  if bits astat 32 1 = 0 then
    let z := (List.range 16).foldl (fun (z : Nat × Nat) i =>
      let n := nib r i + z.2
      if nc i then (z.1 + (n + 6) % 16 * 16 ^ i, 0)
      else if n > 9 then (z.1 + (n - 10) % 16 * 16 ^ i, 1)
      else (z.1 + n * 16 ^ i, 0)) (0, 0)
    (z.1, max (bits astat 0 1) z.2)
  else
    (((List.range 16).map fun i => (if nc i then (nib r i + 10) % 16 else nib r i) * 16 ^ i).sum, bits astat 0 1)

/-- Leading zeros of a 64-bit number. -/
def clz64 (x : Nat) : Nat := if x = 0 then 64 else 63 - Nat.log2 x

/-- Trailing zeros of a 64-bit number. -/
def ctz64 (x : Nat) : Nat := ((List.range 64).find? fun i => bits x i 1 == 1).getD 64

/-- Ones of a 64-bit number. -/
def popc64 (x : Nat) : Nat := ((List.range 64).filter fun i => bits x i 1 == 1).length

/-- -1, 0 or 1 as a word. -/
def wordOfSign (x : Int) : Word := BitVec.ofInt 64 x

/-- 1 or 0 as a word. -/
def wordOfBool (b : Bool) : Word := if b then 1 else 0

end Sys2Proof.Machine
end

