-- ==== Sys2Proof/Machine/Scalar.lean ====
section
/-! DEFINITION. Integer, decimal, branch and jump instructions of the control core (07 R257 to R264, R273, R274). -/
namespace Sys2Proof.Machine

/-! The register ALU group, 07 R257. -/

/-- Tags of rs1. -/
def aluOkA (o : AluOp) (t : Tag) : Bool :=
  match o with
  | .add | .sub => tagAddA t
  | .and | .or | .xor | .andn => tagNRawPtr t
  | .sll | .srl | .sra | .ror => tagNRawFix t
  | .slt | .sltu | .min | .max | .minu | .maxu => tagNFixPtr t
  | .mov => true
  | .neg => tagNFix t
  | .clz | .ctz | .popc => tagNRaw t
  | .tcmp => t == tagTime
  | .tagget => true

/-- Tags of rs2, given rs1's. -/
def aluOkB (o : AluOp) (a t : Tag) : Bool :=
  match o with
  | .add => addB a t
  | .sub => subB a t
  | .and | .or | .xor | .andn => tagNRaw t
  | .sll | .srl | .sra | .ror => tagN t
  | .slt | .sltu | .min | .max | .minu | .maxu => sameClass a t
  | .tcmp => t == tagTime
  | _ => true

/-- Whether the operation reads rs2. -/
def aluBinary (o : AluOp) : Bool :=
  match o with
  | .mov | .neg | .clz | .ctz | .popc | .tagget => false
  | _ => true

/-- Result tag. -/
def aluTag (o : AluOp) (a b : Tag) : Tag :=
  match o with
  | .sub => if (a = tagPtr ∨ a = tagTime) ∧ b = a then tagI64 else a
  | .slt | .sltu | .clz | .ctz | .popc | .tcmp => tagI64
  | .tagget => tagU64
  | _ => a

/-- Result. -/
def aluEval (o : AluOp) (ta : Tag) (a b : Word) : Word :=
  match o with
  | .add => a + b
  | .sub => a - b
  | .and => a &&& b
  | .or => a ||| b
  | .xor => a ^^^ b
  | .andn => a &&& ~~~b
  | .sll => a <<< (b.toNat % 64)
  | .srl => a >>> (b.toNat % 64)
  | .sra => a.sshiftRight (b.toNat % 64)
  | .ror => a.rotateRight (b.toNat % 64)
  | .slt => wordOfBool (a.slt b)
  | .sltu => wordOfBool (a.ult b)
  | .min => if a.slt b then a else b
  | .max => if a.slt b then b else a
  | .minu => if a.ult b then a else b
  | .maxu => if a.ult b then b else a
  | .mov => a
  | .neg => -a
  | .clz => BitVec.ofNat 64 (clz64 a.toNat)
  | .ctz => BitVec.ofNat 64 (ctz64 a.toNat)
  | .popc => BitVec.ofNat 64 (popc64 a.toNat)
  | .tcmp => wordOfSign (if b = a then 0 else if timeDiff b.toNat a.toNat > 0 then 1 else -1)
  | .tagget => ta.setWidth 64

/-- Tag fault of a register ALU instruction, if any, 07 R248; TAGGET accepts every tag. -/
def State.aluTrap (s : State) (e : Nat) (o : AluOp) (rs1 rs2 : RegNo) : Option Trap :=
  if o = .tagget then none
  else
    firstTrap (tagTrap (aluOkA o) 0 0 (s.g e rs1).tag)
      (if aluBinary o then tagTrap (aluOkB o (s.g e rs1).tag) 1 0 (s.g e rs2).tag else none)

/-- Effect of a register ALU instruction. -/
def aluRes (e : Nat) (o : AluOp) (rd rs1 rs2 : RegNo) (s : State) : Res :=
  match s.aluTrap e o rs1 rs2 with
  | some t => .fault t s
  | none =>
    let a := s.g e rs1
    let b := s.g e rs2
    .done (s.setG e rd ⟨aluTag o a.tag b.tag, aluEval o a.tag a.val b.val⟩)

/-- A register ALU instruction issues. -/
def State.alu (s : State) (e : Nat) (o : AluOp) (rd rs1 rs2 : RegNo) : State := s.issue e 4 (if aluBinary o then [.g rs1, .g rs2] else [.g rs1]) (aluRes e o rd rs1 rs2)


/-- ADD, 07 R257. -/
def execAdd (e : EngId) (rd rs1 rs2 : RegNo) (s : State) : Host.Outcome State Fault Refusal := .next (s.alu e .add rd rs1 rs2)

/-- SUB, 07 R257. -/
def execSub (e : EngId) (rd rs1 rs2 : RegNo) (s : State) : Host.Outcome State Fault Refusal := .next (s.alu e .sub rd rs1 rs2)

/-- AND, 07 R257. -/
def execAnd (e : EngId) (rd rs1 rs2 : RegNo) (s : State) : Host.Outcome State Fault Refusal := .next (s.alu e .and rd rs1 rs2)

/-- OR, 07 R257. -/
def execOr (e : EngId) (rd rs1 rs2 : RegNo) (s : State) : Host.Outcome State Fault Refusal := .next (s.alu e .or rd rs1 rs2)

/-- XOR, 07 R257. -/
def execXor (e : EngId) (rd rs1 rs2 : RegNo) (s : State) : Host.Outcome State Fault Refusal := .next (s.alu e .xor rd rs1 rs2)

/-- ANDN, 07 R257. -/
def execAndn (e : EngId) (rd rs1 rs2 : RegNo) (s : State) : Host.Outcome State Fault Refusal := .next (s.alu e .andn rd rs1 rs2)

/-- SLL, 07 R257. -/
def execSll (e : EngId) (rd rs1 rs2 : RegNo) (s : State) : Host.Outcome State Fault Refusal := .next (s.alu e .sll rd rs1 rs2)

/-- SRL, 07 R257. -/
def execSrl (e : EngId) (rd rs1 rs2 : RegNo) (s : State) : Host.Outcome State Fault Refusal := .next (s.alu e .srl rd rs1 rs2)

/-- SRA, 07 R257. -/
def execSra (e : EngId) (rd rs1 rs2 : RegNo) (s : State) : Host.Outcome State Fault Refusal := .next (s.alu e .sra rd rs1 rs2)

/-- ROR, 07 R257. -/
def execRor (e : EngId) (rd rs1 rs2 : RegNo) (s : State) : Host.Outcome State Fault Refusal := .next (s.alu e .ror rd rs1 rs2)

/-- SLT, 07 R257. -/
def execSlt (e : EngId) (rd rs1 rs2 : RegNo) (s : State) : Host.Outcome State Fault Refusal := .next (s.alu e .slt rd rs1 rs2)

/-- SLTU, 07 R257. -/
def execSltu (e : EngId) (rd rs1 rs2 : RegNo) (s : State) : Host.Outcome State Fault Refusal := .next (s.alu e .sltu rd rs1 rs2)

/-- MIN, 07 R257. -/
def execMin (e : EngId) (rd rs1 rs2 : RegNo) (s : State) : Host.Outcome State Fault Refusal := .next (s.alu e .min rd rs1 rs2)

/-- MAX, 07 R257. -/
def execMax (e : EngId) (rd rs1 rs2 : RegNo) (s : State) : Host.Outcome State Fault Refusal := .next (s.alu e .max rd rs1 rs2)

/-- MINU, 07 R257. -/
def execMinu (e : EngId) (rd rs1 rs2 : RegNo) (s : State) : Host.Outcome State Fault Refusal := .next (s.alu e .minu rd rs1 rs2)

/-- MAXU, 07 R257. -/
def execMaxu (e : EngId) (rd rs1 rs2 : RegNo) (s : State) : Host.Outcome State Fault Refusal := .next (s.alu e .maxu rd rs1 rs2)

/-- TCMP, 07 R257. -/
def execTcmp (e : EngId) (rd rs1 rs2 : RegNo) (s : State) : Host.Outcome State Fault Refusal := .next (s.alu e .tcmp rd rs1 rs2)

/-- MOV, 07 R257. -/
def execMov (e : EngId) (rd rs1 : RegNo) (s : State) : Host.Outcome State Fault Refusal := .next (s.alu e .mov rd rs1 0)

/-- NEG, 07 R257. -/
def execNeg (e : EngId) (rd rs1 : RegNo) (s : State) : Host.Outcome State Fault Refusal := .next (s.alu e .neg rd rs1 0)

/-- CLZ, 07 R257. -/
def execClz (e : EngId) (rd rs1 : RegNo) (s : State) : Host.Outcome State Fault Refusal := .next (s.alu e .clz rd rs1 0)

/-- CTZ, 07 R257. -/
def execCtz (e : EngId) (rd rs1 : RegNo) (s : State) : Host.Outcome State Fault Refusal := .next (s.alu e .ctz rd rs1 0)

/-- POPC, 07 R257. -/
def execPopc (e : EngId) (rd rs1 : RegNo) (s : State) : Host.Outcome State Fault Refusal := .next (s.alu e .popc rd rs1 0)

/-- TAGGET, 07 R257. -/
def execTagget (e : EngId) (rd rs1 : RegNo) (s : State) : Host.Outcome State Fault Refusal := .next (s.alu e .tagget rd rs1 0)

/-! The immediate group, 07 R258. -/

/-- Tags of rs1. -/
def immOk (o : ImmOp) (t : Tag) : Bool :=
  match o with
  | .addi => tagAddA t
  | .andi | .ori | .xori => tagNRawPtr t
  | .slti | .sltiu => tagN t
  | .shi => tagNRawFix t
  | .tagset => true

/-- Result. -/
def immEval (o : ImmOp) (a : TWord) (i : BitVec 16) : TWord :=
  match o with
  | .addi => ⟨a.tag, a.val + immS i⟩
  | .andi => ⟨a.tag, a.val &&& immZ i⟩
  | .ori => ⟨a.tag, a.val ||| immZ i⟩
  | .xori => ⟨a.tag, a.val ^^^ immZ i⟩
  | .slti => ⟨tagI64, wordOfBool (a.val.slt (immS i))⟩
  | .sltiu => ⟨tagI64, wordOfBool (a.val.ult (immS i))⟩
  | .shi =>
    let k := i.toNat % 64
    ⟨a.tag, match i.toNat / 64 % 4 with
      | 0 => a.val <<< k
      | 1 => a.val >>> k
      | 2 => a.val.sshiftRight k
      | _ => a.val.rotateRight k⟩
  | .tagset => ⟨i.extractLsb' 0 4, a.val⟩

/-- RSV bits of the immediate that must be 0, with MAJOR. -/
def immRsv (o : ImmOp) (i : BitVec 16) : Option Nat :=
  match o with
  | .shi => if i.toNat ≥ 256 then some 0x07 else none
  | .tagset => if i.toNat ≥ 16 then some 0x0C else none
  | _ => none

/-- Effect of an immediate instruction. -/
def immRes (e : Nat) (o : ImmOp) (rd rs1 : RegNo) (i : BitVec 16) (s : State) : Res :=
  match immRsv o i with
  | some m => .fault (illegal (encImm m rd rs1 i)) s
  | none =>
    let a := s.g e rs1
    match if o = .tagset then none else tagTrap (immOk o) 0 0 a.tag with
    | some t => .fault t s
    | none => .done (s.setG e rd (immEval o a i))

/-- An immediate instruction issues. -/
def State.aluImm (s : State) (e : Nat) (o : ImmOp) (rd rs1 : RegNo) (i : BitVec 16) : State := s.issue e 4 [.g rs1] (immRes e o rd rs1 i)

/-- ADDI, 07 R258. -/
def execAddi (e : EngId) (rd rs1 : RegNo) (i : BitVec 16) (s : State) : Host.Outcome State Fault Refusal := .next (s.aluImm e .addi rd rs1 i)

/-- ANDI, 07 R258. -/
def execAndi (e : EngId) (rd rs1 : RegNo) (i : BitVec 16) (s : State) : Host.Outcome State Fault Refusal := .next (s.aluImm e .andi rd rs1 i)

/-- ORI, 07 R258. -/
def execOri (e : EngId) (rd rs1 : RegNo) (i : BitVec 16) (s : State) : Host.Outcome State Fault Refusal := .next (s.aluImm e .ori rd rs1 i)

/-- XORI, 07 R258. -/
def execXori (e : EngId) (rd rs1 : RegNo) (i : BitVec 16) (s : State) : Host.Outcome State Fault Refusal := .next (s.aluImm e .xori rd rs1 i)

/-- SLTI, 07 R258. -/
def execSlti (e : EngId) (rd rs1 : RegNo) (i : BitVec 16) (s : State) : Host.Outcome State Fault Refusal := .next (s.aluImm e .slti rd rs1 i)

/-- SLTIU, 07 R258. -/
def execSltiu (e : EngId) (rd rs1 : RegNo) (i : BitVec 16) (s : State) : Host.Outcome State Fault Refusal := .next (s.aluImm e .sltiu rd rs1 i)

/-- SHI, 07 R258. -/
def execShi (e : EngId) (rd rs1 : RegNo) (i : BitVec 16) (s : State) : Host.Outcome State Fault Refusal := .next (s.aluImm e .shi rd rs1 i)

/-- TAGSET, 07 R258. -/
def execTagset (e : EngId) (rd rs1 : RegNo) (i : BitVec 16) (s : State) : Host.Outcome State Fault Refusal := .next (s.aluImm e .tagset rd rs1 i)

/-- MOVI, 07 R258. -/
def execMovi (e : EngId) (rd : RegNo) (i : BitVec 16) (s : State) : Host.Outcome State Fault Refusal :=
  .next (s.issue e 4 [] fun s => .done (s.setG e rd ⟨tagI64, immS i⟩))

/-- Replace 16 bits of a word. -/
def setHalf (w : Word) (h : Nat) (i : BitVec 16) : Word := BitVec.ofNat 64 (setBits w.toNat (16 * h) 16 i.toNat)

/-- MOVK: the field of rd that `h` names is replaced, 07 R258. -/
def execMovk (e : EngId) (rd : RegNo) (h : Fin 4) (i : BitVec 16) (s : State) : Host.Outcome State Fault Refusal :=
  .next (s.issue e 4 [.g rd] fun s =>
    match tagTrap tagAny 0 0 (s.g e rd).tag with
    | some t => .fault t s
    | none => .done (s.setG e rd ⟨(s.g e rd).tag, setHalf (s.g e rd).val h i⟩))

/-! Multiply and divide, 07 R259 and R260. -/

/-- Signed product. -/
def prodS (a b : Word) : Int := a.toInt * b.toInt

/-- Unsigned product. -/
def prodU (a b : Word) : Nat := a.toNat * b.toNat

/-- Signed quotient toward zero; by zero all ones. -/
def divS (a b : Word) : Word := if b = 0 then BitVec.allOnes 64 else BitVec.ofInt 64 (a.toInt.tdiv b.toInt)

/-- Unsigned quotient; by zero all ones. -/
def divU (a b : Word) : Word := if b = 0 then BitVec.allOnes 64 else BitVec.ofNat 64 (a.toNat / b.toNat)

/-- Signed remainder with the sign of the dividend; by zero the dividend. -/
def remS (a b : Word) : Word := if b = 0 then a else BitVec.ofInt 64 (a.toInt.tmod b.toInt)

/-- Unsigned remainder; by zero the dividend. -/
def remU (a b : Word) : Word := if b = 0 then a else BitVec.ofNat 64 (a.toNat % b.toNat)

/-- Tag fault of two N operands. -/
def State.nnTrap (s : State) (e : Nat) (rs1 rs2 : RegNo) (ok : Tag → Bool) : Option Trap :=
  firstTrap (tagTrap ok 0 0 (s.g e rs1).tag) (tagTrap ok 1 0 (s.g e rs2).tag)

/-- An instruction on two N operands with one result of rs1's tag. -/
def State.mulDiv (s : State) (e : Nat) (rd rs1 rs2 : RegNo) (f : Word → Word → Word) : State :=
  s.issue e 4 [.g rs1, .g rs2] fun s =>
    match s.nnTrap e rs1 rs2 tagN with
    | some t => .fault t s
    | none => .done (s.setG e rd ⟨(s.g e rs1).tag, f (s.g e rs1).val (s.g e rs2).val⟩)

/-- A widening multiply into rd and rd + 1; an odd rd is illegal. -/
def State.mulWide (s : State) (e func : Nat) (rd rs1 rs2 : RegNo) (f : Word → Word → Int) : State :=
  s.issue e 4 [.g rs1, .g rs2] fun s =>
    if rd.toNat % 2 = 1 then .fault (illegal (encReg 0x0A rd rs1 rs2 func)) s
    else
      match s.nnTrap e rs1 rs2 tagN with
      | some t => .fault t s
      | none =>
        let p := f (s.g e rs1).val (s.g e rs2).val
        let tg := (s.g e rs1).tag
        .done ((s.setG e rd ⟨tg, BitVec.ofInt 64 p⟩).setG e (rd + 1) ⟨tg, BitVec.ofInt 64 (p / 2 ^ 64)⟩)

/-- MUL, 07 R259. -/
def execMul (e : EngId) (rd rs1 rs2 : RegNo) (s : State) : Host.Outcome State Fault Refusal :=
  .next (s.mulDiv e rd rs1 rs2 (fun a b => BitVec.ofInt 64 (prodS a b)))

/-- MULH, 07 R259. -/
def execMulh (e : EngId) (rd rs1 rs2 : RegNo) (s : State) : Host.Outcome State Fault Refusal :=
  .next (s.mulDiv e rd rs1 rs2 (fun a b => BitVec.ofInt 64 (prodS a b / 2 ^ 64)))

/-- MULHU, 07 R259. -/
def execMulhu (e : EngId) (rd rs1 rs2 : RegNo) (s : State) : Host.Outcome State Fault Refusal :=
  .next (s.mulDiv e rd rs1 rs2 (fun a b => BitVec.ofNat 64 (prodU a b / 2 ^ 64)))

/-- DIV, 07 R259. -/
def execDiv (e : EngId) (rd rs1 rs2 : RegNo) (s : State) : Host.Outcome State Fault Refusal :=
  .next (s.mulDiv e rd rs1 rs2 divS)

/-- DIVU, 07 R259. -/
def execDivu (e : EngId) (rd rs1 rs2 : RegNo) (s : State) : Host.Outcome State Fault Refusal :=
  .next (s.mulDiv e rd rs1 rs2 divU)

/-- REM, 07 R259. -/
def execRem (e : EngId) (rd rs1 rs2 : RegNo) (s : State) : Host.Outcome State Fault Refusal :=
  .next (s.mulDiv e rd rs1 rs2 remS)

/-- REMU, 07 R259. -/
def execRemu (e : EngId) (rd rs1 rs2 : RegNo) (s : State) : Host.Outcome State Fault Refusal :=
  .next (s.mulDiv e rd rs1 rs2 remU)

/-- MULW, 07 R259. -/
def execMulw (e : EngId) (rd rs1 rs2 : RegNo) (s : State) : Host.Outcome State Fault Refusal :=
  .next (s.mulWide e 3 rd rs1 rs2 prodS)

/-- MULWU, 07 R259. -/
def execMulwu (e : EngId) (rd rs1 rs2 : RegNo) (s : State) : Host.Outcome State Fault Refusal :=
  .next (s.mulWide e 4 rd rs1 rs2 (fun a b => (prodU a b : Int)))

/-! Carry and decimal, 07 R261 to R264. -/

/-- Effect of ADDC or ADDCZ, with the carry in. -/
def addcRes (e : Nat) (rd rs1 rs2 : RegNo) (z : Bool) (s : State) : Res :=
  match s.nnTrap e rs1 rs2 tagNRaw with
  | some t => .fault t s
  | none =>
    let a := (s.g e rs1).val.toNat
    let b := (s.g e rs2).val.toNat
    let c := if z then 0 else s.astat e % 2
    .done ((s.setG e rd ⟨tagU64, BitVec.ofNat 64 (a + b + c)⟩).setAstat e (astatOf (nibCarry a b c) false))

/-- Effect of SUBB or SUBBZ, with the borrow in. -/
def subbRes (e : Nat) (rd rs1 rs2 : RegNo) (z : Bool) (s : State) : Res :=
  match s.nnTrap e rs1 rs2 tagNRaw with
  | some t => .fault t s
  | none =>
    let a := (s.g e rs1).val.toNat
    let b := (s.g e rs2).val.toNat
    let c := if z then 0 else s.astat e % 2
    .done ((s.setG e rd ⟨tagU64, BitVec.ofNat 64 (a + 2 ^ 65 - b - c)⟩).setAstat e (astatOf (nibBorrow a b c) true))

/-- Effect of DADJ, 07 R263. -/
def dadjRes (e : Nat) (rd rs1 : RegNo) (s : State) : Res :=
  match tagTrap tagNRaw 0 0 (s.g e rs1).tag with
  | some t => .fault t s
  | none =>
    let r := dadj (s.g e rs1).val.toNat (s.astat e)
    .done ((s.setG e rd ⟨tagU64, BitVec.ofNat 64 r.1⟩).setAstat e (setBits (s.astat e) 0 1 r.2))

/-- ADDC, 07 R262. -/
def execAddc (e : EngId) (rd rs1 rs2 : RegNo) (s : State) : Host.Outcome State Fault Refusal := .next (s.issue e 4 [.g rs1, .g rs2] (addcRes e rd rs1 rs2 false))

/-- ADDCZ, 07 R262. -/
def execAddcz (e : EngId) (rd rs1 rs2 : RegNo) (s : State) : Host.Outcome State Fault Refusal := .next (s.issue e 4 [.g rs1, .g rs2] (addcRes e rd rs1 rs2 true))

/-- SUBB, 07 R262. -/
def execSubb (e : EngId) (rd rs1 rs2 : RegNo) (s : State) : Host.Outcome State Fault Refusal := .next (s.issue e 4 [.g rs1, .g rs2] (subbRes e rd rs1 rs2 false))

/-- SUBBZ, 07 R262. -/
def execSubbz (e : EngId) (rd rs1 rs2 : RegNo) (s : State) : Host.Outcome State Fault Refusal := .next (s.issue e 4 [.g rs1, .g rs2] (subbRes e rd rs1 rs2 true))

/-- DADJ, 07 R262. -/
def execDadj (e : EngId) (rd rs1 : RegNo) (s : State) : Host.Outcome State Fault Refusal := .next (s.issue e 4 [.g rs1] (dadjRes e rd rs1))

/-- Set VFCSR.XCAUSE. -/
def State.setXcause (s : State) (e k : Nat) : State := s.setVfcsr e (setBits (s.vfcsr e) 20 4 k)

/-- DEC_INVALID with its XCAUSE, 07 R264: 6 DINV, 7 DOVF. -/
def decFault (e k : Nat) (s : State) : Res := .fault (trap cDecInvalid 0 0) (s.setXcause e k)

/-- Effect of an instruction on D15 operands: checks, then a result with its overflow under DOVTE. -/
def decRes (e : Nat) (rd : RegNo) (srcs : List RegNo) (f : List Nat → FRes) (out : Tag) (s : State) : Res :=
  let ts := srcs.zipIdx.map fun p => tagTrap (tagIs tagDec) p.2 0 (s.g e p.1).tag
  match ts.find? (·.isSome) with
  | some (some t) => .fault t s
  | _ =>
    let xs := srcs.map fun r => (s.g e r).val.toNat
    if xs.any fun x => !d15Valid x then decFault e 6 s
    else
      let r := f xs
      if r.2 ≠ 0 ∧ bits (s.vfcsr e) 16 1 = 1 then decFault e 7 s
      else
        let t := s.setG e rd ⟨out, BitVec.ofNat 64 r.1⟩
        .done (if r.2 = 0 then t else t.setVfcsr e (orFlags (s.vfcsr e) r.2))

/-- First and second number of a list. -/
def arg0 (xs : List Nat) : Nat := xs.getD 0 0
def arg1 (xs : List Nat) : Nat := xs.getD 1 0

/-- DADD, 07 R262 and R264. -/
def execDadd (e : EngId) (rd rs1 rs2 : RegNo) (s : State) : Host.Outcome State Fault Refusal :=
  .next (s.issue e 4 [.g rs1, .g rs2] (decRes e rd [rs1, rs2] (fun xs => d15Res (d15Val (arg0 xs) + d15Val (arg1 xs))) tagDec))

/-- DSUB, 07 R262 and R264. -/
def execDsub (e : EngId) (rd rs1 rs2 : RegNo) (s : State) : Host.Outcome State Fault Refusal :=
  .next (s.issue e 4 [.g rs1, .g rs2] (decRes e rd [rs1, rs2] (fun xs => d15Res (d15Val (arg0 xs) - d15Val (arg1 xs))) tagDec))

/-- DCMP, 07 R262. -/
def execDcmp (e : EngId) (rd rs1 rs2 : RegNo) (s : State) : Host.Outcome State Fault Refusal :=
  .next (s.issue e 4 [.g rs1, .g rs2] (decRes e rd [rs1, rs2]
    (fun xs => ((wordOfSign (d15Val (arg0 xs) - d15Val (arg1 xs)).sign).toNat, 0)) tagI64))

/-- CVBD: I64 to D15, 07 R262 and R264. -/
def execCvbd (e : EngId) (rd rs1 : RegNo) (s : State) : Host.Outcome State Fault Refusal :=
  .next (s.issue e 4 [.g rs1] fun s =>
    match tagTrap (tagIs tagI64) 0 0 (s.g e rs1).tag with
    | some t => .fault t s
    | none =>
      let r := d15Res (s.g e rs1).val.toInt
      if r.2 ≠ 0 ∧ bits (s.vfcsr e) 16 1 = 1 then decFault e 7 s
      else
        let t := s.setG e rd ⟨tagDec, BitVec.ofNat 64 r.1⟩
        .done (if r.2 = 0 then t else t.setVfcsr e (orFlags (s.vfcsr e) r.2)))

/-- CVDB: D15 to I64, 07 R262. -/
def execCvdb (e : EngId) (rd rs1 : RegNo) (s : State) : Host.Outcome State Fault Refusal :=
  .next (s.issue e 4 [.g rs1] (decRes e rd [rs1] (fun xs => ((BitVec.ofInt 64 (d15Val (arg0 xs))).toNat, 0)) tagI64))

/-- DSHL by k digits, 07 R262. -/
def execDshl (e : EngId) (rd rs1 : RegNo) (k : BitVec 4) (s : State) : Host.Outcome State Fault Refusal :=
  .next (s.issue e 4 [.g rs1] (decRes e rd [rs1] (fun xs => d15Shl k.toNat (arg0 xs)) tagDec))

/-- DSHR by k digits, 07 R262. -/
def execDshr (e : EngId) (rd rs1 : RegNo) (k : BitVec 4) (s : State) : Host.Outcome State Fault Refusal :=
  .next (s.issue e 4 [.g rs1] (decRes e rd [rs1] (fun xs => d15Shr k.toNat (arg0 xs)) tagDec))

/-! Branches and jumps, 07 R273 and R274. -/

/-- The target of an offset of `n` bits from the instruction that has just been passed, 07 R250; one outside the address space fails its fetch. -/
def jumpTarget {n : Nat} (next : Nat) (off : BitVec n) : Nat := (((next : Int) - 4 + off.toInt * 4) % 2 ^ 48).toNat

/-- A conditional branch with a tag rule and a condition. -/
def State.branch (s : State) (e : Nat) (rs1 rs2 : RegNo) (off : BitVec 13) (okA : Tag → Bool) (okB : Tag → Tag → Bool)
    (c : Word → Word → Bool) : State :=
  s.issue e 4 [.g rs1, .g rs2] fun s =>
    match firstTrap (tagTrap okA 0 0 (s.g e rs1).tag) (tagTrap (okB (s.g e rs1).tag) 1 0 (s.g e rs2).tag) with
    | some t => .fault t s
    | none => .done (if c (s.g e rs1).val (s.g e rs2).val then s.setPc e (jumpTarget (s.pc e) off) else s)

/-- A branch on the tag of rs1; bit 4 of the code must be 0. -/
def State.branchTag (s : State) (e cond : Nat) (rs1 : RegNo) (code : BitVec 5) (off : BitVec 13) (eq : Bool) : State :=
  s.issue e 4 [.g rs1] fun s =>
    if code.toNat ≥ 16 then
      .fault (illegal (0x28 * 2 ^ 26 + rs1.toNat * 2 ^ 21 + code.toNat * 2 ^ 16 + cond * 2 ^ 13 + off.toNat)) s
    else .done (if ((s.g e rs1).tag.toNat == code.toNat) == eq then s.setPc e (jumpTarget (s.pc e) off) else s)

/-- BRC.EQ, 07 R273. -/
def execBrcEq (e : EngId) (rs1 rs2 : RegNo) (off : BitVec 13) (s : State) : Host.Outcome State Fault Refusal :=
  .next (s.branch e rs1 rs2 off tagAny (fun _ => tagAny) (fun a b => a == b))

/-- BRC.NE, 07 R273. -/
def execBrcNe (e : EngId) (rs1 rs2 : RegNo) (off : BitVec 13) (s : State) : Host.Outcome State Fault Refusal :=
  .next (s.branch e rs1 rs2 off tagAny (fun _ => tagAny) (fun a b => a != b))

/-- BRC.LT, 07 R273. -/
def execBrcLt (e : EngId) (rs1 rs2 : RegNo) (off : BitVec 13) (s : State) : Host.Outcome State Fault Refusal :=
  .next (s.branch e rs1 rs2 off tagNFixPtr sameClass (fun a b => a.slt b))

/-- BRC.GE, 07 R273. -/
def execBrcGe (e : EngId) (rs1 rs2 : RegNo) (off : BitVec 13) (s : State) : Host.Outcome State Fault Refusal :=
  .next (s.branch e rs1 rs2 off tagNFixPtr sameClass (fun a b => !a.slt b))

/-- BRC.LO, 07 R273. -/
def execBrcLo (e : EngId) (rs1 rs2 : RegNo) (off : BitVec 13) (s : State) : Host.Outcome State Fault Refusal :=
  .next (s.branch e rs1 rs2 off tagNFixPtr sameClass (fun a b => a.ult b))

/-- BRC.HS, 07 R273. -/
def execBrcHs (e : EngId) (rs1 rs2 : RegNo) (off : BitVec 13) (s : State) : Host.Outcome State Fault Refusal :=
  .next (s.branch e rs1 rs2 off tagNFixPtr sameClass (fun a b => !a.ult b))

/-- BRC.TEQ, 07 R273. -/
def execBrcTeq (e : EngId) (rs1 : RegNo) (code : BitVec 5) (off : BitVec 13) (s : State) : Host.Outcome State Fault Refusal :=
  .next (s.branchTag e 6 rs1 code off true)

/-- BRC.TNE, 07 R273. -/
def execBrcTne (e : EngId) (rs1 : RegNo) (code : BitVec 5) (off : BitVec 13) (s : State) : Host.Outcome State Fault Refusal :=
  .next (s.branchTag e 7 rs1 code off false)

/-- GO, 07 R274. -/
def execGo (e : EngId) (off : BitVec 26) (s : State) : Host.Outcome State Fault Refusal :=
  .next (s.issue e 4 [] fun s => .done (s.setPc e (jumpTarget (s.pc e) off)))

/-- CALL: the link register receives the next address, 07 R274. -/
def execCall (e : EngId) (rl : RegNo) (off : BitVec 21) (s : State) : Host.Outcome State Fault Refusal :=
  .next (s.issue e 4 [] fun s => .done ((s.setG e rl ⟨tagPtr, BitVec.ofNat 64 (s.pc e)⟩).setPc e (jumpTarget (s.pc e) off)))

/-- GOR: a jump to rs1 + imm16 with link, 07 R274; a target beyond 48 bits fails its fetch with EPC at the target. -/
def execGor (e : EngId) (rd rs1 : RegNo) (i : BitVec 16) (s : State) : Host.Outcome State Fault Refusal :=
  .next (s.issue e 4 [.g rs1] fun s =>
    match tagTrap (tagIs tagPtr) 0 0 (s.g e rs1).tag with
    | some t => .fault t s
    | none =>
      let tgt := ((s.g e rs1).val + immS i).toNat
      if tgt % 4 ≠ 0 then .fault (trap cAlign (tgt % 2 ^ 48) (accEscr 2 0)) s
      else
        let t := (s.setG e rd ⟨tagPtr, BitVec.ofNat 64 (s.pc e)⟩).setPc e (tgt % 2 ^ 48)
        if tgt < 2 ^ 48 then .done t
        else .fault { trap (if s.lev e ≤ 1 then cWindow else cBus) (tgt % 2 ^ 48) (accEscr 2 0) with next := true } t)

/-- NOP, 07 R275. -/
def execNop (e : EngId) (s : State) : Host.Outcome State Fault Refusal := .next (s.issue e 4 [] fun s => .done s)

end Sys2Proof.Machine
end

