-- ==== Sys2Proof/Machine/Custom.lean ====
section
/-! DEFINITION. Customer instructions: the microwords of 08 R289 to R294 as R295 to R301 let them act. -/
namespace Sys2Proof.Machine
open Reg

/-- Register fields of a customer instruction, 08 R295. -/
structure CustOp where
  rd : Nat
  rs1 : Nat
  rs2 : Nat
  x : Nat
  parcel : Nat
  pc : Nat

/-- A register write that is held until DISP, 08 R297. -/
inductive Held where
  | g (r : Nat) (v : TWord)
  | f (r : Nat) (v : Word)
  | c (crn v : Nat)

/-- What a customer instruction holds between its microwords: micro-address, micro-stack, MCNT, T0 to T7, LDATA with its address, held writes and provisional stores, 08 R290, R291 and R297. -/
structure MRun where
  ma : Nat
  stack : List Nat
  mcnt : Nat
  t : List TWord
  ldata : TWord
  lea : Nat
  held : List Held
  prov : List GStore

/-- A register read of a microword; it sees the value from before the instruction. -/
def microSrc (s : State) (e : Nat) (o : CustOp) (m : MRun) (w : Mw) (sel : Nat) : TWord :=
  let b := s.runBank e
  let lit := mwLit w
  if sel = 0 then b.getG o.rs1
  else if sel = 1 then b.getG o.rs2
  else if sel = 2 then b.getG o.rd
  else if sel = 3 then ⟨tagRaw, b.getF o.rs1⟩
  else if sel = 4 then ⟨tagRaw, b.getF o.rs2⟩
  else if sel = 5 then ⟨tagRaw, b.getF o.rd⟩
  else if 8 ≤ sel ∧ sel ≤ 15 then m.t.getD (sel - 8) ⟨tagRaw, 0⟩
  else if sel = 0x10 then ⟨tagI64, BitVec.ofNat 64 lit⟩
  else if sel = 0x11 then ⟨tagI64, immS (BitVec.ofNat 16 lit)⟩
  else if sel = 0x12 then ⟨tagI64, BitVec.ofNat 64 o.x⟩
  else if sel = 0x13 then m.ldata
  else if sel = 0x14 then ⟨tagU64, b.astat⟩
  else ⟨tagU64, BitVec.ofNat 64 m.mcnt⟩

/-- Accepted tags of a class, 08 R293; none for class 7, which checks nothing. -/
def microClass (w : Mw) : Option (Tag → Bool) :=
  match mwTcls w with
  | 0 => some tagAny
  | 1 => some tagN
  | 2 => some (tagIs tagFix)
  | 3 => some (tagIs tagPtr)
  | 4 => some (tagIs tagTime)
  | 5 => some (tagIs tagDec)
  | 6 => some (tagIs tagDesc)
  | 7 => none
  | 8 => some tagNRaw
  | _ => some fun t => bits (mwLit w) t.toNat 1 == 1

/-- Operand number and EADDR that a tag fault of a source shows, 09 R321; a source that is no register of the instruction shows its place, 0 for A and 1 for B. -/
def microWhich (m : MRun) (sel place : Nat) : Nat × Nat :=
  if sel ≤ 2 then (sel, 0) else if sel = 0x13 then (3, m.lea) else (place, 0)

/-- Step 1 of a microword: the tag checks. -/
def microTags (m : MRun) (w : Mw) (a b : TWord) : Option Trap :=
  match microClass w with
  | none => none
  | some f =>
    let chk (sel place : Nat) (t : Tag) : Option Trap := tagTrap f (microWhich m sel place).1 (microWhich m sel place).2 t
    match mwTckop w with
    | 1 => chk (mwAsel w) 0 a.tag
    | 2 => chk (mwBsel w) 1 b.tag
    | 3 => firstTrap (chk (mwAsel w) 0 a.tag) (chk (mwBsel w) 1 b.tag)
    | 4 => tagTrap f 3 m.lea m.ldata.tag
    | _ => none

/-- ALU result before the shifter, its carry and signed overflow, and the ASTAT that ASTW 2 writes. -/
structure AluOut where
  v : Nat
  carry : Nat
  ovf : Nat
  astat : Nat

/-- Signed overflow of a sum of three terms. -/
def sumOvf (x : Int) : Nat := if x < -(2 ^ 63) ∨ 2 ^ 63 ≤ x then 1 else 0

/-- Step 2 of a microword, 08 R292; `free` stands for the carry, overflow and nibble carries of an operation that forms none. -/
def microAlu (w : Mw) (a b : Word) (astat : Nat) (free : Nat) : AluOut :=
  let x := a.toNat
  let y := b.toNat
  let c := astat % 2
  let add (c : Nat) : AluOut :=
    ⟨(x + y + c) % 2 ^ 64, (x + y + c) / 2 ^ 64, sumOvf (a.toInt + b.toInt + c), astatOf (nibCarry x y c) false⟩
  let sub (c : Nat) : AluOut :=
    ⟨(x + 2 ^ 65 - y - c) % 2 ^ 64, if x < y + c then 1 else 0, sumOvf (a.toInt - b.toInt - c), astatOf (nibBorrow x y c) true⟩
  let open_ (v : Word) : AluOut := ⟨v.toNat, bits free 0 1, bits free 1 1, bits free 0 1 + bits free 16 17 * 2 ^ 16⟩
  match mwAluop w with
  | 0x00 => open_ a
  | 0x01 => open_ b
  | 0x02 => add 0
  | 0x03 => sub 0
  | 0x04 => add c
  | 0x05 => sub c
  | 0x06 => open_ (a &&& b)
  | 0x07 => open_ (a ||| b)
  | 0x08 => open_ (a &&& ~~~b)
  | 0x09 => open_ (wordOfBool (a.slt b))
  | 0x0A => open_ (wordOfBool (a.ult b))
  | 0x0B => open_ (if a.slt b then a else b)
  | 0x0C => open_ (if a.slt b then b else a)
  | 0x0D => open_ (BitVec.ofNat 64 (clz64 x))
  | 0x0E => open_ (BitVec.ofNat 64 (ctz64 x))
  | 0x0F => open_ (BitVec.ofNat 64 (popc64 x))
  | 0x10 => open_ (a ^^^ b)
  | _ => ⟨(dadj x astat).1, (dadj x astat).2, bits free 1 1, setBits astat 0 1 (dadj x astat).2⟩

/-- The shifter, 08 R289. -/
def microShift (w : Mw) (v b : Word) : Word :=
  let n := if mwShb w = 1 then b.toNat % 64 else mwShamt w
  match mwShop w with
  | 1 => v <<< n
  | 2 => v >>> n
  | 3 => v.sshiftRight n
  | 4 => v.rotateRight n
  | _ => v

/-- What the data-port operation of a microword finds: it goes on, faults, waits, or fences earlier stores. -/
inductive MicroPort where
  | go (m : MRun) (s : State)
  | fault (t : Trap) (s : State)
  | stall
  | fence

/-- Bytes of DSIZE. -/
def microSize (w : Mw) : Nat := if mwDsize w = 4 then 32 else 2 ^ mwDsize w

/-- Packed tag of a store of less than a word, 07 R268. -/
def microPack (n : Nat) : Tag := if n = 4 then tagI32x2 else if n = 2 then tagI16x4 else tagI8x8

/-- An uncached or locked access of a microword at a physical address of DRAM or of an LVS, 08 R289: response, line and state. -/
def State.microLine (s : State) (e pa : Nat) : Nat × List TWord × State :=
  match s.target pa with
  | .dram => s.cohRead (pa / 64) (s.keyid e) .clean
  | .firmware => if s.lev e = 3 then s.cohRead (pa / 64) (s.keyid e) .clean else (errPerm, poisonLine, s)
  | .lvs le off => s.lvsRead le (off / 64)
  | _ => (errDecode, poisonLine, s.defaultTarget pa (clusterOf e) (posOf e))

/-- The write there. -/
def State.microStore (s : State) (e pa : Nat) (bs : List Byte) (tag : Tag) : Nat × State :=
  let data := bs.zipIdx.map fun p => (pa % 64 + p.2, p.1)
  let tags := [(pa % 64 / 8, tag)]
  match s.target pa with
  | .dram => s.cohPartial (pa / 64) (s.keyid e) .clean (assoc data) (assoc tags)
  | .firmware => if s.lev e = 3 then s.cohPartial (pa / 64) (s.keyid e) .clean (assoc data) (assoc tags) else (errPerm, s)
  | .lvs le off => s.lvsWrite le (off / 64) data tags
  | _ => (errDecode, s.defaultTarget pa (clusterOf e) (posOf e))

/-- Where a cached access of a microword goes; a register view or a tenant page is no target of a cached access. -/
def State.microAddr (s : State) (e : Nat) (ea : Word) (n k : Nat) : DataAddr :=
  match s.dataAddr e ea n k with
  | .page _ => .bad (respTrap k errTarget ea.toNat)
  | .pa pa => if s.uncached pa then .bad (respTrap k errTarget ea.toNat) else .pa pa
  | x => x

/-- Step 3 of a microword: the load, store or fence at the address `ea`, 08 R289, R294 and R297; the uncached and locked ones act at once, as only ROM microcode has them (R300, log entry 23). -/
def State.microPort (s : State) (e : Nat) (m : MRun) (w : Mw) (ea : Word) (b : TWord) : MicroPort :=
  let n := microSize w
  let seen : State := s.modEngine e fun x => { x with stores := x.stores ++ m.prov }
  let line (pa : Nat) : Option (Nat × List TWord × State) :=
    (seen.loadLine e pa (s.keyid e)).map fun r => (r.1, r.2.1, r.2.2.modEngine e fun x => { x with stores := (s.engine e).stores })
  match mwDop w with
  | 1 =>
    match s.microAddr e ea n 0 with
    | .pa pa =>
      match line pa with
      | none => .stall
      | some (resp, ws, t) =>
        let x := ws.getD (pa % 64 / 8) twPoison
        if resp ≠ respOk then .fault (respTrap 0 resp ea.toNat) t
        else .go { m with ldata := if n ≥ 8 then x else ⟨x.tag, subWord x.val (pa % 8) n false⟩, lea := ea.toNat } t
    | .bad t => .fault t s
    | .page _ => .stall
  | 2 =>
    match s.microAddr e ea n 1 with
    | .pa pa =>
      let put (t : State) (bs : List Byte) (ts : List Tag) : MicroPort :=
        .go { m with prov := m.prov ++ [⟨(s.core e).run, pa, ea.toNat, bs, ts, s.keyid e⟩] } t
      if s.lvHazard e (pa / 64) true then .stall
      else if n = 8 then put s (bytesOf b.val) [b.tag]
      else if n = 32 then
        let r := s.takeFreeN 3
        put r.2 (bytesOf b.val ++ r.1.flatMap bytesOf) (b.tag :: r.1.map fun x => x.extractLsb' 0 4)
      else
        match line pa with
        | none => .stall
        | some (resp, ws, t) =>
          let old := (ws.getD (pa % 64 / 8) twPoison).tag
          if resp ≠ respOk then .fault (respTrap 1 resp ea.toNat) t
          else
            match packTrap (microPack n) ea.toNat old with
            | some x => .fault x t
            | none => put t ((bytesOf b.val).take n) [if old = tagRaw then tagRaw else microPack n]
    | .bad t => .fault t s
    | .page _ => .stall
  | 3 =>
    let got (r : Answered) (t : State) : MicroPort :=
      match r with
      | some (resp, ws) =>
        if resp ≠ respOk then .fault (respTrap 0 resp ea.toNat) t
        else .go { m with ldata := if n ≥ 8 then ws.getD 0 twPoison else ⟨(ws.getD 0 twPoison).tag, subWord (ws.getD 0 twPoison).val 0 n false⟩, lea := ea.toNat } t
      | none => .stall
    match s.dataAddr e ea n 0 with
    | .bad t => .fault t s
    | .page off =>
      let r := s.pageRead (s.ownPage e).1 (s.ownPage e).2 off n
      got (foundWords r.1) r.2
    | .pa pa =>
      if s.uncached pa then (let r := s.viewRead e pa n; got r.1 r.2)
      else
        let r := s.microLine e pa
        let x := r.2.1.getD (pa % 64 / 8) twPoison
        got (some (r.1, [⟨x.tag, x.val >>> (8 * (pa % 8))⟩])) r.2.2
  | 4 =>
    let put (r : Answered × State) : MicroPort :=
      match r.1 with
      | some (resp, _) => if resp ≠ respOk then .fault (respTrap 1 resp ea.toNat) r.2 else .go m r.2
      | none => .go m r.2
    let bs := (bytesOf b.val).take n
    match s.dataAddr e ea n 1 with
    | .bad t => .fault t s
    | .page off => put (answered (s.pageWrite (s.ownPage e).1 (s.ownPage e).2 off n (wordOf bs)))
    | .pa pa =>
      if s.uncached pa then put (s.viewWrite e pa bs)
      else
        let r := s.microStore e pa bs (if n ≥ 8 then b.tag else microPack n)
        put (some (r.1, []), r.2)
  | 5 =>
    match s.dataAddr e ea 8 0 with
    | .bad t => .fault t s
    | .page _ => .fault (respTrap 0 errTarget ea.toNat) s
    | .pa pa =>
      if !s.sliceServes e pa then .fault (respTrap 0 errTarget ea.toNat) s
      else if (s.heldSlice (clusterOf e) (posOf e)).isSome then .fault (respTrap 0 errLock ea.toNat) s
      else if s.lockedAway e pa then .stall
      else
        let r := s.microLine e pa
        if r.1 ≠ respOk then .fault (respTrap 0 r.1 ea.toNat) r.2.2
        else .go { m with ldata := r.2.1.getD (pa % 64 / 8) twPoison, lea := ea.toNat }
          ((r.2.2.arrive { mid := clusterOf e, pos := posOf e, id := 510, key := s.keyid e, line := pa / 64, op := .lkld }).modEngine e fun x =>
            { x with lock := some (s.core e).run })
  | 6 =>
    match s.dataAddr e ea 8 1 with
    | .bad t => .fault t s
    | .page _ => .fault (respTrap 1 errTarget ea.toNat) s
    | .pa pa =>
      match s.heldSlice (clusterOf e) (posOf e) with
      | none => .go m s
      | some sl =>
        let r : Nat × State :=
          if s.sliceServes e pa then
            s.lkst sl (clusterOf e) (posOf e) (pa / 64) (s.keyid e) ((bytesOf b.val).zipIdx.map fun p => (pa % 64 + p.2, p.1)) [(pa % 64 / 8, b.tag)]
          else (errLock, s.closeLock sl)
        .go m (r.2.modEngine e fun x => { x with lock := none })
  | 7 => if s.outBusy e || ((s.engine e).stores.any fun g => g.bank == (s.core e).run) then .fence else .go m s
  | _ => .go m s

/-- Register number of RSEL. -/
def microReg (o : CustOp) (w : Mw) : Nat :=
  match mwRsel w with
  | 0 => o.rd
  | 1 => o.rs1
  | 2 => o.rs2
  | 3 => (o.rd + 1) % 32
  | _ => mwLit w % 32

/-- Step 4 of a microword: the register write, the ASTAT write and MCNT; a value of VFCSR that CRW would refuse is refused (07 R279). -/
def microWrite (s : State) (e : Nat) (o : CustOp) (m : MRun) (w : Mw) (a b : TWord) (v : Word) (r : AluOut) : Option MRun :=
  let k := microReg o w
  let tag := if mwRtm w = 0 then a.tag else if mwRtm w = 1 then b.tag else BitVec.ofNat 4 (mwRtag w)
  let crn := bits (mwLit w) 0 12
  let m1 : Option MRun := match mwRdst w with
    | 1 => some { m with held := m.held ++ [.g k ⟨tag, v⟩] }
    | 2 => some { m with held := m.held ++ [.f k v] }
    | 3 => some { m with t := m.t.set (k % 8) ⟨tag, v⟩ }
    | 4 =>
      match crInfo crn with
      | none => some m
      | some i =>
        let new := crNew i 1 (s.crRead e crn) v.toNat
        if crn = 1 ∧ new % 8 > 4 then none else some { m with held := m.held ++ [.c crn new] }
    | _ => some m
  m1.map fun m =>
    let m := match mwAstw w with
      | 1 => { m with held := m.held ++ [.c 0 (setBits (s.astat e) 0 1 r.carry)] }
      | 2 => { m with held := m.held ++ [.c 0 r.astat] }
      | _ => m
    match mwCnt w with
    | 1 => { m with mcnt := mwLit w }
    | 2 => { m with mcnt := b.val.toNat % 2 ^ 16 }
    | _ => m

/-- COND and CPOL, 08 R289; the result is the shifted one, carry and overflow are those before the shifter. -/
def State.microCond (s : State) (e : Nat) (m : MRun) (w : Mw) (v : Word) (r : AluOut) : Bool :=
  let c := match mwCond w with
    | 0 => true
    | 1 => v == 0
    | 2 => v.msb
    | 3 => r.carry == 1
    | 4 => r.ovf == 1
    | 5 => m.mcnt == 0
    | 6 => (s.irqTaken e).isSome && !(s.core e).feh
    | _ => s.astat e % 2 == 1
  c != (mwCpol w == 1)

/-- Step 6 of a microword but DISP, 08 R290: the next micro-address; none on a microcode fault. -/
def microNext (m : MRun) (w : Mw) (cond : Bool) (b : Word) : Option MRun :=
  let t := m.ma / 0x4000 * 0x4000 + mwNext w
  match mwSeq w with
  | 0 => some { m with ma := t }
  | 1 => some { m with ma := if cond then t else maNext m.ma }
  | 2 => if m.stack.length ≥ 4 then none else some { m with ma := t, stack := maNext m.ma :: m.stack }
  | 3 =>
    match m.stack with
    | [] => none
    | a :: r => some { m with ma := a, stack := r }
  | 5 => some (if m.mcnt ≠ 0 then { m with ma := t, mcnt := m.mcnt - 1 } else { m with ma := maNext m.ma })
  | 6 => some { m with ma := bits (mwLit w) 0 15 }
  | 7 => some { m with ma := t / 16 * 16 + b.toNat % 16 }
  | _ => none

/-- DISP: the held writes and the provisional stores take effect together, 08 R297. -/
def State.microDisp (s : State) (e : Nat) (o : CustOp) (m : MRun) : State :=
  let s := if (s.engine e).stores.length + m.prov.length > 64 then ((s.setPc e o.pc).commitNow e).setPc e (s.pc e) else s
  let t := eachDo m.held (fun h t => match h with
    | .g r v => t.modRun e fun x => x.setG r v
    | .f r v => t.modRun e fun x => x.setF r v
    | .c n v => t.crStore e n v) s
  t.modEngine e fun x => { x with stores := x.stores ++ m.prov }

/-- The exception that EXC raises, 09 R321: EADDR and ESCR of a cause that the hardware checks raise with an operand or an address are free. -/
def microExc (o : CustOp) (w : Mw) (s : State) : Res :=
  let c := mwExc w
  if c = cIllegal then .fault (illegal o.parcel) s
  else if c = cFpTrap ∨ c = cDecInvalid then .fault (trap c 0 0) s
  else
    let r := s.takeFreeN 2
    .fault (trap c ((r.1.getD 0 0).toNat % 2 ^ 48) (r.1.getD 1 0).toNat) r.2

/-- A main-path interrupt that the core would take now. -/
def State.irqPending (s : State) (e : Nat) : Bool := s.canEnter e && !(s.core e).feh && (s.irqTaken e).isSome

/-- An event of 08 R299 at a micro-address: the pair recovers as from a comparator mismatch, and nothing of the instruction stands. -/
def State.microFault (s : State) (e kind ma : Nat) : Res := .kept (s.recovery e kind 0 ma [] false)

/-- The microwords from one address on, 08 R287, R294 and R299: a fetch that finds a single-bit error corrects and counts it, one that fails, and a microcode fault, start a recovery.
An interrupt at an IPT leaves the instruction unexecuted (R298); CKPT commits at the end of its microword, and VOP, for which the spec gives no effect but ROM use, adds none (log entry 23). -/
def microRun (e : Nat) (o : CustOp) : Nat → MRun → State → Res
  | 0, _, _ => .stall
  | n + 1, m, s =>
    let at_ := (s.engine e).ustore.trapped m.ma
    match s.microFetch e at_ with
    | .error k => s.microFault e k at_
    | .ok w =>
      let s := if s.ucFinds e at_ = .corrected then s.count (ENG_UC_CE e) ENG_UC_CE_COUNT 1 else s
      let a := microSrc s e o m w (mwAsel w)
      let b := microSrc s e o m w (mwBsel w)
      match microTags m w a b with
      | some t => .fault t s
      | none =>
        let f := s.takeFree
        let r := microAlu w a.val b.val (s.astat e) f.1.toNat
        let v := microShift w (BitVec.ofNat 64 r.v) b.val
        match f.2.microPort e m w v b with
        | .fault t u => .fault t u
        | .stall => .stall
        | .fence => .wait (if (s.engine e).stores = [] then s.drainOut e else (s.setPc e o.pc).commitNow e)
        | .go m s =>
          match microWrite s e o m w a b v r with
          | none => .fault (illegal o.parcel) s
          | some m =>
            if mwExc w ≠ 0 then microExc o w s
            else if mwSeq w = 4 then (if mwCkpt w = 1 then .commit (s.microDisp e o m) else .done (s.microDisp e o m))
            else if mwIpt w = 1 ∧ s.irqPending e then .stall
            else
              match microNext m w (s.microCond e m w v r) b.val with
              | none => s.microFault e 3 at_
              | some m => microRun e o n m (if mwCkpt w = 1 then ((s.setPc e o.pc).commitNow e).setPc e (s.pc e) else s)

/-- A bound on the microwords of one instruction that the model follows. -/
def microFuel : Nat := 2 ^ 32

/-- CUSTOMER_INSTRUCTION: decode and privilege under the entry SUB, then its microwords, 08 R296. -/
def execCustomerInstruction (e : EngId) (rd rs1 rs2 : RegNo) (x : BitVec 7) (sub : Fin 16) (s : State) : Host.Outcome State Fault Refusal :=
  .next (s.issue e 4 allRegs fun t =>
    let parcel := 0x3F * 2 ^ 26 + rd.toNat * 2 ^ 21 + rs1.toNat * 2 ^ 16 + rs2.toNat * 2 ^ 11 + x.toNat * 2 ^ 4 + sub.val
    if !t.flag (ENG_UDEC e sub) ENG_UDEC_VALID then .fault (illegal parcel) t
    else if t.lev e < t.rd (ENG_UDEC e sub) ENG_UDEC_MINLEV then .fault (privOp parcel) t
    else
      let z : TWord := ⟨tagRaw, 0⟩
      let f := t.takeFree
      microRun e ⟨rd.toNat, rs1.toNat, rs2.toNat, x.toNat, parcel, s.pc e⟩ microFuel
        ⟨0x5000 + t.rd (ENG_UDEC e sub) ENG_UDEC_ENTRY, [], 0, List.replicate 8 z, ⟨f.1.extractLsb' 0 4, f.1⟩, 0, [], []⟩ f.2)

end Sys2Proof.Machine
end

