-- ==== Sys2Proof/Machine/Fp.lean ====
section
/-! DEFINITION. Scalar floating point (07 R281) and short vectors (04 R167 to R169). -/
namespace Sys2Proof.Machine

/-- The format that FMT names, 07 R281; 0b11 is reserved. -/
def fmtOf (x : BitVec 2) : Option Fmt := if x = 0 then some f16 else if x = 1 then some f32 else if x = 2 then some f64 else none

/-- Low bits of an F register. -/
def fpArg (f : Fmt) (w : Word) : Nat := w.toNat % 2 ^ f.width

/-- Deliver an FP result: a trap writes XCAUSE only (04 R169); otherwise the flags and the destination are written. -/
def fpFinish (e : Nat) (r : FRes) (w : State → Nat → State) (s : State) : Res :=
  let k := trapCause r.2 (s.vfcsr e)
  if k = 7 then .fault (trap cDecInvalid 0 0) (s.setVfcsr e (setBits (s.vfcsr e) 20 4 k))
  else if k ≠ 0 then .fault (trap cFpTrap 0 0) (s.setVfcsr e (setBits (s.vfcsr e) 20 4 k))
  else
    let t := w s r.1
    .done (if r.2 = 0 then t else t.setVfcsr e (orFlags (s.vfcsr e) r.2))

/-- Effective direction of an RM field on the running bank. -/
def State.rmOf (s : State) (e : Nat) (rm : BitVec 3) : Nat := effRm rm.toNat (s.vfcsr e % 8)

/-- An FP instruction with a reserved FMT or RM is illegal; otherwise `f` computes its result. -/
def State.fpOp (s : State) (e : Nat) (fmt : BitVec 2) (rm : BitVec 3) (parcel : Nat) (f : Fmt → Nat → State → FRes)
    (fd : RegNo) (srcs : List RegRef) : State :=
  s.issue e 4 srcs fun s =>
    match fmtOf fmt with
    | none => .fault (illegal parcel) s
    | some g =>
      if rm.toNat > 5 then .fault (illegal parcel) s
      else fpFinish e (f g (s.rmOf e rm) s) (fun t v => t.setF e fd (BitVec.ofNat 64 v)) s

/-- FADD. -/
def execFadd (e : EngId) (fd fa fb : RegNo) (fmt : BitVec 2) (rm : BitVec 3) (s : State) : Host.Outcome State Fault Refusal :=
  .next (s.fpOp e fmt rm (encFp fd fa fb.toNat 0 fmt.toNat rm.toNat)
    (fun g r s => g.add r (fpArg g (s.f e fa)) (fpArg g (s.f e fb))) fd [.f fa, .f fb])

/-- FSUB. -/
def execFsub (e : EngId) (fd fa fb : RegNo) (fmt : BitVec 2) (rm : BitVec 3) (s : State) : Host.Outcome State Fault Refusal :=
  .next (s.fpOp e fmt rm (encFp fd fa fb.toNat 1 fmt.toNat rm.toNat)
    (fun g r s => g.sub r (fpArg g (s.f e fa)) (fpArg g (s.f e fb))) fd [.f fa, .f fb])

/-- FMUL. -/
def execFmul (e : EngId) (fd fa fb : RegNo) (fmt : BitVec 2) (rm : BitVec 3) (s : State) : Host.Outcome State Fault Refusal :=
  .next (s.fpOp e fmt rm (encFp fd fa fb.toNat 2 fmt.toNat rm.toNat)
    (fun g r s => g.mul r (fpArg g (s.f e fa)) (fpArg g (s.f e fb))) fd [.f fa, .f fb])

/-- FMA: FA × FB + FD, rounded once. -/
def execFma (e : EngId) (fd fa fb : RegNo) (fmt : BitVec 2) (rm : BitVec 3) (s : State) : Host.Outcome State Fault Refusal :=
  .next (s.fpOp e fmt rm (encFp fd fa fb.toNat 3 fmt.toNat rm.toNat)
    (fun g r s => g.fma r false false (fpArg g (s.f e fa)) (fpArg g (s.f e fb)) (fpArg g (s.f e fd))) fd [.f fa, .f fb, .f fd])

/-- FDIV. -/
def execFdiv (e : EngId) (fd fa fb : RegNo) (fmt : BitVec 2) (rm : BitVec 3) (s : State) : Host.Outcome State Fault Refusal :=
  .next (s.fpOp e fmt rm (encFp fd fa fb.toNat 4 fmt.toNat rm.toNat)
    (fun g r s => g.div r (fpArg g (s.f e fa)) (fpArg g (s.f e fb))) fd [.f fa, .f fb])

/-- FSQRT. -/
def execFsqrt (e : EngId) (fd fa : RegNo) (fmt : BitVec 2) (rm : BitVec 3) (s : State) : Host.Outcome State Fault Refusal :=
  .next (s.fpOp e fmt rm (encFp fd fa 0 5 fmt.toNat rm.toNat) (fun g r s => g.sqrt r (fpArg g (s.f e fa))) fd [.f fa])

/-- FMIN; `num` is RM[0]. -/
def execFmin (e : EngId) (fd fa fb : RegNo) (fmt : BitVec 2) (num : Bool) (s : State) : Host.Outcome State Fault Refusal :=
  .next (s.fpOp e fmt 0 (encFp fd fa fb.toNat 6 fmt.toNat (b2n num))
    (fun g _ s => g.minmax false num (fpArg g (s.f e fa)) (fpArg g (s.f e fb))) fd [.f fa, .f fb])

/-- FMAX; `num` is RM[0]. -/
def execFmax (e : EngId) (fd fa fb : RegNo) (fmt : BitVec 2) (num : Bool) (s : State) : Host.Outcome State Fault Refusal :=
  .next (s.fpOp e fmt 0 (encFp fd fa fb.toNat 7 fmt.toNat (b2n num))
    (fun g _ s => g.minmax true num (fpArg g (s.f e fa)) (fpArg g (s.f e fb))) fd [.f fa, .f fb])

/-- FCMP: G register gd receives 1 or 0; COND 7 is reserved. -/
def execFcmp (e : EngId) (gd fa fb : RegNo) (fmt : BitVec 2) (cond : BitVec 3) (sig : Bool) (s : State) :
    Host.Outcome State Fault Refusal :=
  .next (s.issue e 4 [.f fa, .f fb] fun s =>
    match fmtOf fmt with
    | none => .fault (illegal (encFp gd fa (fb.toNat ||| b2n sig) 8 fmt.toNat cond.toNat)) s
    | some g =>
      if cond = 7 then .fault (illegal (encFp gd fa (fb.toNat ||| b2n sig) 8 fmt.toNat cond.toNat)) s
      else fpFinish e (g.cmp cond.toNat sig (fpArg g (s.f e fa)) (fpArg g (s.f e fb)))
        (fun t v => t.setG e gd ⟨tagI64, BitVec.ofNat 64 v⟩) s)

/-- FCVT.FF from the format `src` to FMT; a conversion to the same format is illegal, 04 R163. -/
def execFcvtFf (e : EngId) (fd fa : RegNo) (src fmt : BitVec 2) (rm : BitVec 3) (s : State) : Host.Outcome State Fault Refusal :=
  .next (s.fpOp e (if src = fmt ∨ src = 3 then 3 else fmt) rm (encFp fd fa src.toNat 9 fmt.toNat rm.toNat)
    (fun g r s => ((fmtOf src).getD f64).toFmt g r (fpArg ((fmtOf src).getD f64) (s.f e fa))) fd [.f fa])

/-- FCVT.FI: G register ga, signed or unsigned, to FMT; its tag must be N. -/
def execFcvtFi (e : EngId) (fd ga : RegNo) (uns : Bool) (fmt : BitVec 2) (rm : BitVec 3) (s : State) :
    Host.Outcome State Fault Refusal :=
  .next (s.issue e 4 [.g ga] fun s =>
    match fmtOf fmt with
    | none => .fault (illegal (encFp fd ga (b2n uns) 10 fmt.toNat rm.toNat)) s
    | some g =>
      if rm.toNat > 5 then .fault (illegal (encFp fd ga (b2n uns) 10 fmt.toNat rm.toNat)) s
      else
        match tagTrap tagN 0 0 (s.g e ga).tag with
        | some t => .fault t s
        | none => fpFinish e (g.ofInt (s.rmOf e rm) (intOf (!uns) 64 (s.g e ga).val.toNat) 0)
            (fun t v => t.setF e fd (BitVec.ofNat 64 v)) s)

/-- FCVT.IF: FA to I64, or to U64, under 04 R163. -/
def execFcvtIf (e : EngId) (gd fa : RegNo) (uns : Bool) (fmt : BitVec 2) (rm : BitVec 3) (s : State) :
    Host.Outcome State Fault Refusal :=
  .next (s.issue e 4 [.f fa] fun s =>
    match fmtOf fmt with
    | none => .fault (illegal (encFp gd fa (b2n uns) 11 fmt.toNat rm.toNat)) s
    | some g =>
      if rm.toNat > 5 then .fault (illegal (encFp gd fa (b2n uns) 11 fmt.toNat rm.toNat)) s
      else fpFinish e (g.toIntRes (s.rmOf e rm) 0 (intLo (!uns) 64) (intHi (!uns) 64) 64 (fpArg g (s.f e fa)))
        (fun t v => t.setG e gd ⟨if uns then tagU64 else tagI64, BitVec.ofNat 64 v⟩) s)

/-- FMV.GF: G register ga to FD, bit for bit; the tag may be any. -/
def execFmvGf (e : EngId) (fd ga : RegNo) (s : State) : Host.Outcome State Fault Refusal :=
  .next (s.issue e 4 [.g ga] fun s =>
    match tagTrap tagAny 0 0 (s.g e ga).tag with
    | some t => .fault t s
    | none => .done (s.setF e fd (s.g e ga).val))

/-- FMV.FG: FA to G register gd, with tag F64, F32X2 or I16X4 by FMT. -/
def execFmvFg (e : EngId) (gd fa : RegNo) (fmt : BitVec 2) (s : State) : Host.Outcome State Fault Refusal :=
  .next (s.issue e 4 [.f fa] fun s =>
    match fmtOf fmt with
    | none => .fault (illegal (encFp gd fa 0 13 fmt.toNat 0)) s
    | some g => .done (s.setG e gd ⟨if g = f64 then tagF64 else if g = f32 then tagF32x2 else tagI16x4, s.f e fa⟩))

/-- FNEG. -/
def execFneg (e : EngId) (fd fa : RegNo) (fmt : BitVec 2) (s : State) : Host.Outcome State Fault Refusal :=
  .next (s.fpOp e fmt 0 (encFp fd fa 0 14 fmt.toNat 0) (fun g _ s => (g.neg (fpArg g (s.f e fa)), 0)) fd [.f fa])

/-- FABS. -/
def execFabs (e : EngId) (fd fa : RegNo) (fmt : BitVec 2) (s : State) : Host.Outcome State Fault Refusal :=
  .next (s.fpOp e fmt 0 (encFp fd fa 0 15 fmt.toNat 0) (fun g _ s => (g.abs (fpArg g (s.f e fa)), 0)) fd [.f fa])

/-! Short vectors. -/

/-- The 256 bits of Vk, 04 R167. -/
def State.vreg (s : State) (e k : Nat) : Nat :=
  ((List.range 4).map fun m => ((s.runBank e).getF (4 * k + m)).toNat * 2 ^ (64 * m)).sum

/-- Write Vk. -/
def State.setVreg (s : State) (e k v : Nat) : State :=
  s.modRun e fun x => (List.range 4).foldl (fun y m => y.setF (4 * k + m) (BitVec.ofNat 64 (v / 2 ^ (64 * m)))) x

/-- Element `i` of a 256-bit register. -/
def vElem (t v i : Nat) : Nat := bits v (etBits t * i) (etBits t)

/-- Operations with a short form, 04 R168. -/
def shortOk (p o : Nat) : Bool :=
  (p == 0 && (o ≤ 5 || (8 ≤ o && o ≤ 0x0D) || o == 0x10)) || (p == 1 && o ≤ 1) || (p == 2 && o ≤ 2) || (p == 3 && o == 0x10)

/-- Type of the destination of a short VCVT, which MOD cannot name: the other type of the same element size has no field, so `d` is an operand of the command. -/
def shortDest (p o t d : Nat) : Nat := if isCvt p o then d else t

/-- Effect of a short-vector instruction; a unary operation ignores VB. -/
def shortRes (e p o : Nat) (vd va vb : BitVec 3) (et d : Nat) (md : BitVec 3) (parcel : Nat) (s : State) : Res :=
  let td := shortDest p o et d
  if !(shortOk p o && typesOk p o et et et td true && modOk p o et td md.toNat false && etSize td == etSize et) then
    .fault (illegal parcel) s
  else
    let n := 32 / etSize et
    let a (i : Nat) := vElem et (s.vreg e va.toNat) i
    let b (i : Nat) := vElem et (s.vreg e vb.toNat) i
    let c (i : Nat) := vElem et (s.vreg e vd.toNat) i
    let bad (i : Nat) : Bool := !d15Valid (a i) || (opArity p o ≥ 2 && !d15Valid (b i))
    if checksDec p o et && (List.range n).any bad then
      .fault (trap cDecInvalid 0 0) (s.setVfcsr e (setBits (s.vfcsr e) 20 4 6))
    else
      let rs := (List.range n).map fun i => pipeElem p o md.toNat (s.vfcsr e % 8) et td (a i) (b i) (c i)
      match rs.find? fun r => trapCause r.2 (s.vfcsr e) != 0 with
      | some r =>
        let k := trapCause r.2 (s.vfcsr e)
        .fault (trap (if k = 7 then cDecInvalid else cFpTrap) 0 0) (s.setVfcsr e (setBits (s.vfcsr e) 20 4 k))
      | none =>
        let v := (rs.zipIdx.map fun q => q.1.1 * 2 ^ (etBits td * q.2)).sum
        let fl := rs.foldl (fun x r => x ||| r.2) 0
        let t := s.setVreg e vd.toNat v
        .done (if fl = 0 then t else t.setVfcsr e (orFlags (s.vfcsr e) fl))

/-- A short-vector instruction issues. -/
def State.shortVec (s : State) (e p o : Nat) (vd va vb : BitVec 3) (et : BitVec 4) (d : Nat) (md : BitVec 3) : State :=
  s.issue e 4 ([.v va] ++ (if opArity p o ≥ 2 then [.v vb] else []) ++ if opArity p o ≥ 3 then [.v vd] else []) (shortRes e p o vd va vb et.toNat d md (encShort p o vd va vb et md))

/-- SHORT_VADD, 04 R168. -/
def execShortVadd (e : EngId) (vd va vb : BitVec 3) (et : BitVec 4) (md : BitVec 3) (s : State) : Host.Outcome State Fault Refusal :=
  .next (s.shortVec e 0 0 vd va vb et 0 md)

/-- SHORT_VSUB, 04 R168. -/
def execShortVsub (e : EngId) (vd va vb : BitVec 3) (et : BitVec 4) (md : BitVec 3) (s : State) : Host.Outcome State Fault Refusal :=
  .next (s.shortVec e 0 1 vd va vb et 0 md)

/-- SHORT_VMIN, 04 R168. -/
def execShortVmin (e : EngId) (vd va vb : BitVec 3) (et : BitVec 4) (md : BitVec 3) (s : State) : Host.Outcome State Fault Refusal :=
  .next (s.shortVec e 0 4 vd va vb et 0 md)

/-- SHORT_VMAX, 04 R168. -/
def execShortVmax (e : EngId) (vd va vb : BitVec 3) (et : BitVec 4) (md : BitVec 3) (s : State) : Host.Outcome State Fault Refusal :=
  .next (s.shortVec e 0 5 vd va vb et 0 md)

/-- SHORT_VAND, 04 R168. -/
def execShortVand (e : EngId) (vd va vb : BitVec 3) (et : BitVec 4) (md : BitVec 3) (s : State) : Host.Outcome State Fault Refusal :=
  .next (s.shortVec e 0 8 vd va vb et 0 md)

/-- SHORT_VOR, 04 R168. -/
def execShortVor (e : EngId) (vd va vb : BitVec 3) (et : BitVec 4) (md : BitVec 3) (s : State) : Host.Outcome State Fault Refusal :=
  .next (s.shortVec e 0 9 vd va vb et 0 md)

/-- SHORT_VXOR, 04 R168. -/
def execShortVxor (e : EngId) (vd va vb : BitVec 3) (et : BitVec 4) (md : BitVec 3) (s : State) : Host.Outcome State Fault Refusal :=
  .next (s.shortVec e 0 10 vd va vb et 0 md)

/-- SHORT_VANDN, 04 R168. -/
def execShortVandn (e : EngId) (vd va vb : BitVec 3) (et : BitVec 4) (md : BitVec 3) (s : State) : Host.Outcome State Fault Refusal :=
  .next (s.shortVec e 0 11 vd va vb et 0 md)

/-- SHORT_VSHL, 04 R168. -/
def execShortVshl (e : EngId) (vd va vb : BitVec 3) (et : BitVec 4) (md : BitVec 3) (s : State) : Host.Outcome State Fault Refusal :=
  .next (s.shortVec e 0 12 vd va vb et 0 md)

/-- SHORT_VSHR, 04 R168. -/
def execShortVshr (e : EngId) (vd va vb : BitVec 3) (et : BitVec 4) (md : BitVec 3) (s : State) : Host.Outcome State Fault Refusal :=
  .next (s.shortVec e 0 13 vd va vb et 0 md)

/-- SHORT_VMUL, 04 R168. -/
def execShortVmul (e : EngId) (vd va vb : BitVec 3) (et : BitVec 4) (md : BitVec 3) (s : State) : Host.Outcome State Fault Refusal :=
  .next (s.shortVec e 1 0 vd va vb et 0 md)

/-- SHORT_VMULH, 04 R168. -/
def execShortVmulh (e : EngId) (vd va vb : BitVec 3) (et : BitVec 4) (md : BitVec 3) (s : State) : Host.Outcome State Fault Refusal :=
  .next (s.shortVec e 1 1 vd va vb et 0 md)

/-- SHORT_VFMA, 04 R168. -/
def execShortVfma (e : EngId) (vd va vb : BitVec 3) (et : BitVec 4) (md : BitVec 3) (s : State) : Host.Outcome State Fault Refusal :=
  .next (s.shortVec e 2 0 vd va vb et 0 md)

/-- SHORT_VDIV, 04 R168. -/
def execShortVdiv (e : EngId) (vd va vb : BitVec 3) (et : BitVec 4) (md : BitVec 3) (s : State) : Host.Outcome State Fault Refusal :=
  .next (s.shortVec e 2 1 vd va vb et 0 md)

/-- SHORT_VNEG, 04 R168. -/
def execShortVneg (e : EngId) (vd va : BitVec 3) (et : BitVec 4) (md : BitVec 3) (s : State) : Host.Outcome State Fault Refusal :=
  .next (s.shortVec e 0 2 vd va 0 et 0 md)

/-- SHORT_VABS, 04 R168. -/
def execShortVabs (e : EngId) (vd va : BitVec 3) (et : BitVec 4) (md : BitVec 3) (s : State) : Host.Outcome State Fault Refusal :=
  .next (s.shortVec e 0 3 vd va 0 et 0 md)

/-- SHORT_VDCHK, 04 R168. -/
def execShortVdchk (e : EngId) (vd va : BitVec 3) (et : BitVec 4) (md : BitVec 3) (s : State) : Host.Outcome State Fault Refusal :=
  .next (s.shortVec e 0 16 vd va 0 et 0 md)

/-- SHORT_VSQRT, 04 R168. -/
def execShortVsqrt (e : EngId) (vd va : BitVec 3) (et : BitVec 4) (md : BitVec 3) (s : State) : Host.Outcome State Fault Refusal :=
  .next (s.shortVec e 2 2 vd va 0 et 0 md)

/-- SHORT_VCVT, 04 R168. -/
def execShortVcvt (e : EngId) (vd va : BitVec 3) (et dt : BitVec 4) (md : BitVec 3) (s : State) : Host.Outcome State Fault Refusal :=
  .next (s.shortVec e 3 0x10 vd va 0 et dt.toNat md)

end Sys2Proof.Machine
end

