-- ==== Sys2Proof/Machine/LongVec.lean ====
section
/-! DEFINITION. The long-vector instructions, 03 R90 to R92: `md` is MOD, `rsv` the reserved bits of parcel 0 and `p1` parcel 1. -/
namespace Sys2Proof.Machine

/-- VADD, 04 R136. -/
def execVadd (e : EngId) (md : BitVec 6) (rsv : BitVec 8) (p1 : BitVec 32) (s : State) : Host.Outcome State Fault Refusal :=
  .next (s.lv e (.op ⟨0, 0, md.toNat⟩ rsv.toNat) p1)

/-- VSUB, 04 R136. -/
def execVsub (e : EngId) (md : BitVec 6) (rsv : BitVec 8) (p1 : BitVec 32) (s : State) : Host.Outcome State Fault Refusal :=
  .next (s.lv e (.op ⟨0, 1, md.toNat⟩ rsv.toNat) p1)

/-- VNEG, 04 R136. -/
def execVneg (e : EngId) (md : BitVec 6) (rsv : BitVec 8) (p1 : BitVec 32) (s : State) : Host.Outcome State Fault Refusal :=
  .next (s.lv e (.op ⟨0, 2, md.toNat⟩ rsv.toNat) p1)

/-- VABS, 04 R136. -/
def execVabs (e : EngId) (md : BitVec 6) (rsv : BitVec 8) (p1 : BitVec 32) (s : State) : Host.Outcome State Fault Refusal :=
  .next (s.lv e (.op ⟨0, 3, md.toNat⟩ rsv.toNat) p1)

/-- VMIN, 04 R136. -/
def execVmin (e : EngId) (md : BitVec 6) (rsv : BitVec 8) (p1 : BitVec 32) (s : State) : Host.Outcome State Fault Refusal :=
  .next (s.lv e (.op ⟨0, 4, md.toNat⟩ rsv.toNat) p1)

/-- VMAX, 04 R136. -/
def execVmax (e : EngId) (md : BitVec 6) (rsv : BitVec 8) (p1 : BitVec 32) (s : State) : Host.Outcome State Fault Refusal :=
  .next (s.lv e (.op ⟨0, 5, md.toNat⟩ rsv.toNat) p1)

/-- VCMP, 04 R136. -/
def execVcmp (e : EngId) (md : BitVec 6) (rsv : BitVec 8) (p1 : BitVec 32) (s : State) : Host.Outcome State Fault Refusal :=
  .next (s.lv e (.op ⟨0, 6, md.toNat⟩ rsv.toNat) p1)

/-- VSEL, 04 R136. -/
def execVsel (e : EngId) (md : BitVec 6) (rsv : BitVec 8) (p1 : BitVec 32) (s : State) : Host.Outcome State Fault Refusal :=
  .next (s.lv e (.op ⟨0, 7, md.toNat⟩ rsv.toNat) p1)

/-- VAND, 04 R136. -/
def execVand (e : EngId) (md : BitVec 6) (rsv : BitVec 8) (p1 : BitVec 32) (s : State) : Host.Outcome State Fault Refusal :=
  .next (s.lv e (.op ⟨0, 8, md.toNat⟩ rsv.toNat) p1)

/-- VOR, 04 R136. -/
def execVor (e : EngId) (md : BitVec 6) (rsv : BitVec 8) (p1 : BitVec 32) (s : State) : Host.Outcome State Fault Refusal :=
  .next (s.lv e (.op ⟨0, 9, md.toNat⟩ rsv.toNat) p1)

/-- VXOR, 04 R136. -/
def execVxor (e : EngId) (md : BitVec 6) (rsv : BitVec 8) (p1 : BitVec 32) (s : State) : Host.Outcome State Fault Refusal :=
  .next (s.lv e (.op ⟨0, 10, md.toNat⟩ rsv.toNat) p1)

/-- VANDN, 04 R136. -/
def execVandn (e : EngId) (md : BitVec 6) (rsv : BitVec 8) (p1 : BitVec 32) (s : State) : Host.Outcome State Fault Refusal :=
  .next (s.lv e (.op ⟨0, 11, md.toNat⟩ rsv.toNat) p1)

/-- VSHL, 04 R136. -/
def execVshl (e : EngId) (md : BitVec 6) (rsv : BitVec 8) (p1 : BitVec 32) (s : State) : Host.Outcome State Fault Refusal :=
  .next (s.lv e (.op ⟨0, 12, md.toNat⟩ rsv.toNat) p1)

/-- VSHR, 04 R136. -/
def execVshr (e : EngId) (md : BitVec 6) (rsv : BitVec 8) (p1 : BitVec 32) (s : State) : Host.Outcome State Fault Refusal :=
  .next (s.lv e (.op ⟨0, 13, md.toNat⟩ rsv.toNat) p1)

/-- VDCHK, 04 R136. -/
def execVdchk (e : EngId) (md : BitVec 6) (rsv : BitVec 8) (p1 : BitVec 32) (s : State) : Host.Outcome State Fault Refusal :=
  .next (s.lv e (.op ⟨0, 16, md.toNat⟩ rsv.toNat) p1)

/-- VDSHL, 04 R136. -/
def execVdshl (e : EngId) (md : BitVec 6) (rsv : BitVec 8) (p1 : BitVec 32) (s : State) : Host.Outcome State Fault Refusal :=
  .next (s.lv e (.op ⟨0, 17, md.toNat⟩ rsv.toNat) p1)

/-- VDSHR, 04 R136. -/
def execVdshr (e : EngId) (md : BitVec 6) (rsv : BitVec 8) (p1 : BitVec 32) (s : State) : Host.Outcome State Fault Refusal :=
  .next (s.lv e (.op ⟨0, 18, md.toNat⟩ rsv.toNat) p1)

/-- VMUL, 04 R137. -/
def execVmul (e : EngId) (md : BitVec 6) (rsv : BitVec 8) (p1 : BitVec 32) (s : State) : Host.Outcome State Fault Refusal :=
  .next (s.lv e (.op ⟨1, 0, md.toNat⟩ rsv.toNat) p1)

/-- VMULH, 04 R137. -/
def execVmulh (e : EngId) (md : BitVec 6) (rsv : BitVec 8) (p1 : BitVec 32) (s : State) : Host.Outcome State Fault Refusal :=
  .next (s.lv e (.op ⟨1, 1, md.toNat⟩ rsv.toNat) p1)

/-- VMULW, 04 R137. -/
def execVmulw (e : EngId) (md : BitVec 6) (rsv : BitVec 8) (p1 : BitVec 32) (s : State) : Host.Outcome State Fault Refusal :=
  .next (s.lv e (.op ⟨1, 2, md.toNat⟩ rsv.toNat) p1)

/-- VDOT, 04 R137. -/
def execVdot (e : EngId) (md : BitVec 6) (rsv : BitVec 8) (p1 : BitVec 32) (s : State) : Host.Outcome State Fault Refusal :=
  .next (s.lv e (.op ⟨1, 3, md.toNat⟩ rsv.toNat) p1)

/-- VFMA, 04 R138. -/
def execVfma (e : EngId) (md : BitVec 6) (rsv : BitVec 8) (p1 : BitVec 32) (s : State) : Host.Outcome State Fault Refusal :=
  .next (s.lv e (.op ⟨2, 0, md.toNat⟩ rsv.toNat) p1)

/-- VDIV, 04 R138. -/
def execVdiv (e : EngId) (md : BitVec 6) (rsv : BitVec 8) (p1 : BitVec 32) (s : State) : Host.Outcome State Fault Refusal :=
  .next (s.lv e (.op ⟨2, 1, md.toNat⟩ rsv.toNat) p1)

/-- VSQRT, 04 R138. -/
def execVsqrt (e : EngId) (md : BitVec 6) (rsv : BitVec 8) (p1 : BitVec 32) (s : State) : Host.Outcome State Fault Refusal :=
  .next (s.lv e (.op ⟨2, 2, md.toNat⟩ rsv.toNat) p1)

/-- VRSUM, 04 R139. -/
def execVrsum (e : EngId) (md : BitVec 6) (rsv : BitVec 8) (p1 : BitVec 32) (s : State) : Host.Outcome State Fault Refusal :=
  .next (s.lv e (.op ⟨3, 0, md.toNat⟩ rsv.toNat) p1)

/-- VRMIN, 04 R139. -/
def execVrmin (e : EngId) (md : BitVec 6) (rsv : BitVec 8) (p1 : BitVec 32) (s : State) : Host.Outcome State Fault Refusal :=
  .next (s.lv e (.op ⟨3, 1, md.toNat⟩ rsv.toNat) p1)

/-- VRMAX, 04 R139. -/
def execVrmax (e : EngId) (md : BitVec 6) (rsv : BitVec 8) (p1 : BitVec 32) (s : State) : Host.Outcome State Fault Refusal :=
  .next (s.lv e (.op ⟨3, 2, md.toNat⟩ rsv.toNat) p1)

/-- VSCAN, 04 R139. -/
def execVscan (e : EngId) (md : BitVec 6) (rsv : BitVec 8) (p1 : BitVec 32) (s : State) : Host.Outcome State Fault Refusal :=
  .next (s.lv e (.op ⟨3, 4, md.toNat⟩ rsv.toNat) p1)

/-- VZIP, 04 R139. -/
def execVzip (e : EngId) (md : BitVec 6) (rsv : BitVec 8) (p1 : BitVec 32) (s : State) : Host.Outcome State Fault Refusal :=
  .next (s.lv e (.op ⟨3, 8, md.toNat⟩ rsv.toNat) p1)

/-- VUNZIP, 04 R139. -/
def execVunzip (e : EngId) (md : BitVec 6) (rsv : BitVec 8) (p1 : BitVec 32) (s : State) : Host.Outcome State Fault Refusal :=
  .next (s.lv e (.op ⟨3, 9, md.toNat⟩ rsv.toNat) p1)

/-- VBFLY, 04 R139. -/
def execVbfly (e : EngId) (md : BitVec 6) (rsv : BitVec 8) (p1 : BitVec 32) (s : State) : Host.Outcome State Fault Refusal :=
  .next (s.lv e (.op ⟨3, 12, md.toNat⟩ rsv.toNat) p1)

/-- VCVT, 04 R139. -/
def execVcvt (e : EngId) (md : BitVec 6) (rsv : BitVec 8) (p1 : BitVec 32) (s : State) : Host.Outcome State Fault Refusal :=
  .next (s.lv e (.op ⟨3, 16, md.toNat⟩ rsv.toNat) p1)

/-- COPY: D ← A, on the mover when D has PFL, 03 R92. -/
def execCopy (e : EngId) (rsv : BitVec 22) (p1 : BitVec 32) (s : State) : Host.Outcome State Fault Refusal :=
  .next (s.lv e (.copy rsv.toNat) p1)

/-- FILL: D ← the scalar, 03 R92. -/
def execFill (e : EngId) (rsv : BitVec 22) (p1 : BitVec 32) (s : State) : Host.Outcome State Fault Refusal :=
  .next (s.lv e (.fill rsv.toNat) p1)

/-- CHAIN: up to four operations of the CHOP registers fused, 05 R171 to R177. -/
def execChain (e : EngId) (body : BitVec 24) (p1 : BitVec 32) (s : State) : Host.Outcome State Fault Refusal :=
  .next (s.lv e (.chain body.toNat) p1)

end Sys2Proof.Machine
end

