-- ==== Sys2Proof/Machine/Pcie.lean ====
section
/-! DEFINITION. PCIe: inbound and configuration requests, resets, the outbound window and the Steward mailbox (17 R538, 19 R582 to R588). -/
namespace Sys2Proof.Machine
open Reg

/-! Lines that a host request touches. -/

/-- The PCIe inbound master, 11 R387. -/
def midPcie : Nat := 17

/-- Completion of a crossbar response, 19 R585: its status and whether the data is poisoned. -/
def pciOf (resp : Nat) : PciStatus × Bool :=
  if resp = respOk then (.success, false)
  else if resp = errDecode then (.unsupported, false)
  else if resp = errPoison ∨ resp = errInteg then (.success, true)
  else (.abort, false)

/-- Parts of the byte range of `n` bytes from `a` by line: address and length. -/
def lineParts (a n : Nat) : List (Nat × Nat) :=
  if n = 0 then []
  else (List.range ((a % 64 + n + 63) / 64)).map fun i =>
    let lo := max a (a / 64 * 64 + 64 * i)
    (lo, min (a + n) (a / 64 * 64 + 64 * i + 64) - lo)

/-- Bytes `[k, k + n)` of a line's words. -/
def lineSlice (ws : List TWord) (k n : Nat) : List Byte := ((ws.flatMap fun w => bytesOf w.val).drop k).take n

/-- An open lock holds requests to the line of a physical address back, unless a reserved slot serves them, 06 R210 and 11 R398. -/
def State.heldBack (s : State) (pa : Nat) : Bool :=
  match s.target pa with
  | .dram | .firmware =>
    let u := s.lockUnit (s.sliceOf pa)
    u.held && !(s.reserved (pa / 64) && pa / 64 != u.line)
  | _ => false

/-- The PCIe master reads part of a line of DRAM or of an LVS. -/
def State.pciReadLine (s : State) (key pa n : Nat) : Nat × List Byte × State :=
  match s.target pa with
  | .dram =>
    let r := s.cohRead (pa / 64) key .clean
    (r.1, lineSlice r.2.1 (pa % 64) n, r.2.2)
  | .lvs e off =>
    let r := s.lvsRead e (off / 64)
    (r.1, lineSlice r.2.1 (pa % 64) n, r.2.2)
  | _ => (errDecode, [], s.defaultTarget pa midPcie 0)

/-- The PCIe master writes part of a line; the spec gives no tags to the words that a host writes (log entry 12). -/
def State.pciWriteLine (s : State) (key pa : Nat) (bs : List Byte) : Nat × State :=
  let data := bs.zipIdx.map fun p => (pa % 64 + p.2, p.1)
  let ws := (List.range 8).filter fun i => touches data [] i
  let f := s.takeFreeN ws.length
  let tags : List (Nat × Tag) := (ws.zip f.1).map fun p => (p.1, p.2.extractLsb' 0 4)
  match s.target pa with
  | .dram =>
    if bs.length = 64 then f.2.cohFull (pa / 64) key (mergeLine emptyLine (assoc data) (assoc tags))
    else f.2.cohPartial (pa / 64) key .clean (assoc data) (assoc tags)
  | .lvs e off => f.2.lvsWrite e (off / 64) data tags
  | _ => (errDecode, s.defaultTarget pa midPcie 0)

/-- Where a part of a request goes: a physical address, a page at an offset, or a response at once. -/
inductive PciTo where
  | pa (n : Nat)
  | page (off : Nat)
  | no (st : PciStatus)
  deriving DecidableEq, Repr

/-- The parts of a read in turn: the completion and the bytes. -/
def State.pciReadParts (s : State) (key : Nat) (parts : List (Nat × Nat)) (res : Nat → PciTo) : PciStatus × Bool × List Byte × State :=
  parts.foldl (fun (z : PciStatus × Bool × List Byte × State) p =>
    if z.1 ≠ .success then z
    else
      match res p.1 with
      | .no st => (st, z.2.1, z.2.2.1, z.2.2.2)
      | .page _ => (.abort, z.2.1, z.2.2.1, z.2.2.2)
      | .pa pa =>
        let r := z.2.2.2.pciReadLine key pa p.2
        ((pciOf r.1).1, z.2.1 || (pciOf r.1).2, z.2.2.1 ++ r.2.1, r.2.2)) (.success, false, [], s)

/-- The parts of a write in turn. -/
def State.pciWriteParts (s : State) (key : Nat) (a : Nat) (bs : List Byte) (res : Nat → PciTo) : PciStatus × State :=
  (lineParts a bs.length).foldl (fun (z : PciStatus × State) p =>
    if z.1 ≠ .success then z
    else
      match res p.1 with
      | .no st => (st, z.2)
      | .page _ => (.abort, z.2)
      | .pa pa =>
        let r := z.2.pciWriteLine key pa ((bs.drop (p.1 - a)).take p.2)
        ((pciOf r.1).1, r.2)) (.success, s)

/-! Inbound requests, 19 R584 and R585. -/

/-- The tenant bound to VF `n`. -/
def State.vfTenant (s : State) (n : Nat) : Option Nat := (List.range 8192).find? fun t => t != 0 && s.tenantDefined t && s.tenantVf t == n

/-- PCIe answers requests: from the end of step 7, and in RECOVERY and UNCONFIGURED, 17 R538. -/
def State.pciReady (s : State) : Bool :=
  !s.boot.inReset && (s.boot.upAt.isSome || s.rd UPD_BOOT UPD_BOOT_STATE == 2 || s.rd UPD_BOOT UPD_BOOT_STATE == 3)

/-- A completion is sent. -/
def State.sendCompletion (s : State) (st : PciStatus) (ep : Bool) (bs : List Byte) : State := s.emit (.completion st ep bs)

/-- The end of a posted write: one that is refused is logged as an uncorrectable error, HOST_ERR.AERU (log entry 14). -/
def State.posted (s : State) (st : PciStatus) : State :=
  if st = .success then s else (s.setErr HOST_ERR HOST_ERR_AERU 677).recordReg 677 unitSteward HOST_ERR

/-- The completion of a register read: an error carries no data. -/
def State.regCompletion (s : State) (r : Found) (n : Nat) : State :=
  match r with
  | none => s
  | some (resp, w) => s.sendCompletion (pciOf resp).1 (pciOf resp).2 (if resp = respOk then (bytesOf w).take n else [])

/-- A request to a tenant page through a BAR. -/
def State.pciPage (s : State) (t : Nat) (w : PageWho) (off : Nat) (q : PciReq) : State :=
  if q.write then
    let u := s.pageWrite t w off q.data.length (wordOf (q.data.take 8))
    u.posted (pciOf u.answer.resp).1
  else
    let r := s.pageRead t w off q.len
    r.2.regCompletion r.1 q.len

/-- A request to memory through a BAR. -/
def State.pciMem (s : State) (key a : Nat) (q : PciReq) (res : Nat → PciTo) : State :=
  let n := if q.write then q.data.length else q.len
  let wait := (lineParts a n).any fun p => match res p.1 with
    | .pa pa => s.heldBack pa
    | _ => false
  if wait then s
  else if q.write then
    let r := s.pciWriteParts key a q.data res
    r.2.posted r.1
  else
    let r := s.pciReadParts key (lineParts a n) res
    r.2.2.2.sendCompletion r.1 r.2.1 (if r.1 = .success then r.2.2.1 else [])

/-- Answer a request with Unsupported Request. -/
def State.pciRefuse (s : State) (q : PciReq) : State := if q.write then s.posted .unsupported else s.sendCompletion .unsupported false []

/-- Where tenant address `ta` of tenant `t` goes through VF BAR2, 19 R584: as an S-level access. -/
def State.vfTo (s : State) (t : Nat) (write : Bool) (ta : Nat) : PciTo :=
  match s.resolveTa t false [if write then .write else .read] ta with
  | .ok pa => .pa pa
  | .page off => .page off
  | _ => .no .abort

/-- PCIE_INBOUND_REQUEST: function 0 is the PF. A request that meets ERR_BUSY or an open lock has not been performed: the part retries it. -/
def execPcieInboundRequest (q : PciReq) (s : State) : Host.Outcome State Fault Refusal :=
  .next (let o := q.off.toNat
    let f := q.fn.val
    let ctx := ctxPf + f
    if !s.pciReady then s.pciRefuse q
    else if f = 0 then
      if q.bar = 0 ∧ o < 0x4000000 then
        if q.write then
          let u := s.platWrite .pf o q.data.length (wordOf (q.data.take 8))
          if u.answer.resp = errBusy then s else u.posted (pciOf u.answer.resp).1
        else
          let r := s.platRead .pf o q.len (.host q.len)
          r.2.regCompletion r.1 q.len
      else if q.bar = 2 ∧ o < 0x10000 then s.pciPage 0 ⟨some ctx, some f, .host q.len⟩ o q
      else if q.bar = 4 ∧ o < 2 ^ 38 then
        s.pciMem 0 o q fun pa => if pa < 0x002D00000000 then .pa pa else .no .unsupported
      else s.pciRefuse q
    else
      match s.vfTenant f with
      | none => s.pciRefuse q
      | some t =>
        if q.bar = 0 ∧ o < 0x10000 then s.pciPage t ⟨some ctx, some f, .host q.len⟩ o q
        else if q.bar = 2 ∧ o < 2 ^ 46 then
          match s.vfTo t q.write o with
          | .page off => s.pciPage t ⟨some ctx, some f, .host q.len⟩ off q
          | _ => s.pciMem t o q (s.vfTo t q.write)
        else s.pciRefuse q)

/-! Configuration and reset. -/

/-- PCIE_CONFIG_REQUEST, 17 R538. -/
def execPcieConfigRequest (q : CfgReq) (s : State) : Host.Outcome State Fault Refusal :=
  .next (if !s.pciReady then s.sendCompletion .retry false []
    else
      let d (k : Nat) : BitVec 32 := Config.pciConfig k
      match q with
      | .read f r =>
        let w := sget d s.host.config (1024 * f.val + r.toNat)
        s.sendCompletion .success false ((List.range 4).map fun i => w.extractLsb' (8 * i) 8)
      | .write f r w =>
        ({ s with host := { s.host with config := sset d s.host.config (1024 * f.val + r.toNat) w } } : State).sendCompletion .success false []
      | .numVfs n => (s.wr HOST_LINK HOST_LINK_NUMVF n.val).sendCompletion .success false [])

/-- The PCIe core state of function `f` is reset, 19 R586: a claim that waits completes towards nobody, and a message that was sent for a source still pending there waits for the unmasking of its vector (12 R422). -/
def State.pciResetFn (s : State) (f : Nat) : State :=
  let vs := fnVectors s.cfg f
  let c := ctxPf + f
  let t : State := { s with
    host := { s.host with config := s.host.config.filter (fun p => p.1 / 1024 != f), msix := s.host.msix.filter (fun p => p.1 / 2048 != f) },
    ic := { s.ic with unmasked := s.ic.unmasked.filter (fun p => !vs.contains p.1), pba := s.ic.pba.filter (fun p => !vs.contains p.1),
                      waiting := s.ic.waiting.map (fun q => if q.ctx = c then { q with dst := match q.dst with | .host _ => .nobody | d => d } else q),
                      sent := sset (fun _ => none) s.ic.sent c none } }
  let t := if f = 0 then t.wr HOST_LINK HOST_LINK_NUMVF 0 else t
  t.refreshHost c

/-- The functions whose state a reset of function `f` clears: the PF's reset clears those of its VFs (log entry 14). -/
def pciFns (f : Nat) : List Nat := if f = 0 then List.range 2049 else [f]

/-- Every function is reset. -/
def State.pciResetAll (s : State) : State := eachDo (pciFns 0) (fun f t => t.pciResetFn f) s

/-- The link goes down, 19 R581 and R600. -/
def State.pciDown (s : State) : State :=
  let t := ((s.wr HOST_LINK HOST_LINK_SPEED 0).wr HOST_LINK HOST_LINK_WIDTH 0).wr HOST_LINK HOST_LINK_FLIT 0
  if (s.src 676).cond then t else (t.setCond 676 true).recordReg 676 unitSteward HOST_LINK

/-- PCIE_RESET, 19 R586. -/
def execPcieReset (k : PciReset) (s : State) : Host.Outcome State Fault Refusal :=
  .next (match k with
    | .flr f => ((eachDo (pciFns f) (fun n t => t.pciResetFn n) s).setErr HOST_ERR HOST_ERR_FLR 678).recordReg 678 unitSteward HOST_ERR
    | .hot => s.pciResetAll
    | .linkDown => s.pciResetAll.pciDown
    | .perst => s.pciResetAll.pciDown)

/-- PCIE_LINK_UP: HOST_LINK shows speed and width and the condition of source 676 ends, 19 R581; speeds and widths outside R583, and 64 GT/s without FLIT mode, do not train. -/
def execPcieLinkUp (speed width : Nat) (flit : Bool) (s : State) : Host.Outcome State Fault Refusal :=
  .next (if 4 ≤ speed ∧ speed ≤ 6 ∧ (speed ≠ 6 ∨ flit) ∧ (width = 4 ∨ width = 8 ∨ width = 16) then
      (((s.wr HOST_LINK HOST_LINK_SPEED speed).wr HOST_LINK HOST_LINK_WIDTH width).wr HOST_LINK HOST_LINK_FLIT (b2n flit)).setCond 676 false
    else s)

/-! The outbound window. -/

/-- Who reaches the outbound window, 19 R577: P and M level, the Steward and the queue engines. -/
def State.outOk (s : State) (r : Requester) : Bool :=
  match r with
  | .engine e => decide (2 ≤ s.lev e)
  | .steward => true
  | .master m => m.val == 25
  | _ => false

/-- OUTBOUND_ACCESS: `host` is what host memory answers a read, none for an error, 19 R588; the spec gives no tag to that word. -/
def execOutboundAccess (r : Requester) (a : BitVec 48) (write : Bool) (data : List Byte) (host : Option Word) (s : State) :
    Host.Outcome State Fault Refusal :=
  .next (if a.toNat < 0xF80000000000 then s.reply errDecode []
    else if !s.outOk r then s.reply errPerm []
    else
      let x := s.hostAddr a.toNat
      if write then (s.emit (.hostWrite x data)).reply respOk []
      else
        let t := s.emit (.hostRead x)
        match host with
        | none => t.reply errTarget []
        | some w =>
          let f := t.takeFree
          f.2.reply respOk [⟨f.1.extractLsb' 0 4, w⟩])

/-! The Steward mailbox, 19 R582. -/

/-- MBX_DOOR: a write of the doorbell. -/
def execMbxDoor (r : Requester) (d : Word) (s : State) : Host.Outcome State Fault Refusal :=
  .next (s.plat r fun s => s.door d.toNat)

/-- MAILBOX_REPLY: the Steward writes words of the reply area and sets MBX_DOOR[1]; the request is done (log entry 15). -/
def execMailboxReply (rep : List (Fin 512 × Word)) (s : State) : Host.Outcome State Fault Refusal :=
  .next (if s.flag MBX_DOOR MBX_DOOR_REQ then
      let t := eachDo rep (fun p t => t.setReg (MBX_REP p.1.val) p.2) s
      let t := (t.wr MBX_DOOR MBX_DOOR_REQ 0).wr MBX_DOOR MBX_DOOR_REPLY 1
      (t.assert 680).recordReg 680 unitSteward MBX_DOOR
    else s)

/-- SVC_LINK_CHANGE: the link of the service port, 19 R600. -/
def execSvcLinkChange (up : Bool) (s : State) : Host.Outcome State Fault Refusal :=
  .next (if up then s.setCond 679 false
    else if (s.src 679).cond then s
    else (s.setCond 679 true).record 679 unitSteward 0 0 0)

end Sys2Proof.Machine
end

