-- ==== Sys2Proof/Machine/Rep.lean ====
section
/-! DEFINITION. The repeat prefixes, 07 R282 to R284. -/
namespace Sys2Proof.Machine

/-- FUNC of an operation whose rs2 must be 0, 07 R257. -/
def unaryFunc (o : AluOp) : Nat :=
  match o with
  | .mov => 0x10
  | .neg => 0x11
  | .clz => 0x12
  | .ctz => 0x13
  | .popc => 0x14
  | _ => 0x16

/-- The G registers that a body reads or writes; none where it may not be repeated, 07 R283. -/
def repRegs (b : RepBody) : Option (List RegNo) :=
  match b with
  | .alu op rd rs1 rs2 => some (if aluBinary op then [rd, rs1, rs2] else [rd, rs1])
  | .imm _ rd rs1 _ => some [rd, rs1]
  | .addc rd rs1 rs2 => some [rd, rs1, rs2]
  | .subb rd rs1 rs2 => some [rd, rs1, rs2]
  | .dadj rd rs1 => some [rd, rs1]
  | .ldp rd rs1 _ => some [rd, rs1]
  | .stp rs rs1 _ => some [rs, rs1]
  | .fldp _ rs1 _ => some [rs1]
  | .fsdp _ rs1 _ => some [rs1]
  | .other => none

/-- The F register that a body reads. -/
def repF (b : RepBody) : List RegRef :=
  match b with
  | .fsdp fs _ _ => [.f fs]
  | _ => []

/-- The fault of a prefix, 07 R282 and R283: the repeated instruction, the level, then the count register and its value. -/
def State.repTrap (s : State) (e n : Nat) (gc : RegNo) (b : RepBody) : Option Trap :=
  match repRegs b with
  | none => some (illegal (encRep n gc.toNat))
  | some l =>
    if l.contains gc then some (illegal (encRep n gc.toNat))
    else if n = 1 ∧ s.lev e < 2 then some (privOp (encRep n gc.toNat))
    else
      match tagTrap tagN 0 0 (s.g e gc).tag with
      | some t => some t
      | none => if n = 1 ∧ 256 < (s.g e gc).val.toNat then some (illegal (encRep n gc.toNat)) else none

/-- The count register with one iteration less. -/
def lessOne (x : TWord) : TWord := ⟨x.tag, x.val - 1⟩

/-- A register instruction as an iteration: Gc is decremented when it completes, 07 R282. -/
def regIter (e : Nat) (gc : RegNo) (r : Res) : Res :=
  match r with
  | .done t => .done (t.setG e gc (lessOne (t.g e gc)))
  | r => r

/-- One iteration of the prefix at `pc`; `next` is where execution continues when it completes. -/
def repIter (e : Nat) (gc : RegNo) (b : RepBody) (pc next : Nat) (s : State) : Res :=
  let post := [(gc.toNat, lessOne (s.g e gc))]
  match b with
  | .alu op rd rs1 rs2 =>
    if aluBinary op = false ∧ rs2 ≠ 0 then .fault (illegal (encReg 0 rd rs1 rs2 (unaryFunc op))) s else regIter e gc (aluRes e op rd rs1 rs2 s)
  | .imm op rd rs1 i => regIter e gc (immRes e op rd rs1 i s)
  | .addc rd rs1 rs2 => regIter e gc (addcRes e rd rs1 rs2 false s)
  | .subb rd rs1 rs2 => regIter e gc (subbRes e rd rs1 rs2 false s)
  | .dadj rd rs1 => regIter e gc (dadjRes e rd rs1 s)
  | .ldp rd rs1 i => ldpRes e rd rs1 i pc next post s
  | .stp rs rs1 i => stpRes e rs rs1 i pc next post s
  | .fldp fd rs1 i => fldpRes e fd rs1 i pc next post s
  | .fsdp fs rs1 i => fsdpRes e fs rs1 i pc next post s
  | .other => .fault (illegal (encRep 0 gc.toNat)) s

/-- At most `n` iterations of the prefix at `pc`, 07 R282 and R284. -/
def repRun (n e : Nat) (gc : RegNo) (b : RepBody) (pc : Nat) (s : State) : State :=
  match n with
  | 0 => s
  | k + 1 =>
    let v := (s.g e gc).val
    if v = 0 then s
    else
      let next := if v = 1 then (pc + 8) % 2 ^ 48 else pc
      match repIter e gc b pc next (s.setPc e next) with
      | .done t => repRun k e gc b pc (t.countInstr e)
      | .commit t => t.commitPoint e
      | .settle t => t.commitNow e
      | .fault t u => u.takeException e pc t
      | .stall => s
      | .wait t => t.setPc e pc
      | .kept t => t

/-- A REP.N that stands at its prefix `pc` with iterations to run is in progress: main-path entries wait until it ends, 07 R282. -/
def State.repBusy (s : State) (e n : Nat) (gc : RegNo) (pc : Nat) : State :=
  if n = 1 ∧ s.pc e = pc ∧ (s.g e gc).val ≠ 0 ∧ s.lev e ≥ 2 ∧ s.canIssue e then s.noteBusy e pc false else s.clearBusy e

/-- A prefix issues and runs `iters` iterations, or until Gc is 0; where Gc is not 0 then, the core is at the prefix again (07 R284). -/
def State.rep (s : State) (e n : Nat) (gc : RegNo) (b : RepBody) (iters : Nat) : State :=
  if s.canIssue e && !s.awaits e (.g gc :: ((repRegs b).getD []).map .g ++ repF b) then
    let pc := s.pc e
    match (s.fetchTrap e).orElse fun _ => (s.setPc e ((pc + 4) % 2 ^ 48)).fetchTrap e with
    | some t => s.takeException e pc t
    | none =>
      match s.repTrap e n gc b with
      | some t => s.takeException e pc t
      | none => if (s.g e gc).val = 0 then (s.setPc e ((pc + 8) % 2 ^ 48)).countInstr e else (repRun iters e gc b pc s).repBusy e n gc pc
  else s

/-- REP.I. -/
def execRepI (e : EngId) (gc : RegNo) (body : RepBody) (iters : Nat) (s : State) : Host.Outcome State Fault Refusal :=
  .next (s.rep e 0 gc body iters)

/-- REP.N: at P and M level, with a count of at most 256. -/
def execRepN (e : EngId) (gc : RegNo) (body : RepBody) (iters : Nat) (s : State) : Host.Outcome State Fault Refusal :=
  .next (s.rep e 1 gc body iters)

end Sys2Proof.Machine
end

