-- ==== Sys2Proof/Machine/Sideband.lean ====
section
/-! DEFINITION. The sideband interfaces: SMBus and JTAG (16 R532, 19 R589 and R590). -/
namespace Sys2Proof.Machine
open Reg

/-! SMBus: a Read Block answers a number, little-endian, from the release of power-on reset onward, 19 R589. -/

/-- The answer of a Read Block. -/
def State.smb (s : State) (v : Nat) : State := if s.boot.inReset then s else s.reply respOk [⟨tagU64, BitVec.ofNat 64 v⟩]

/-- SMBUS_HOTTEST_TJ: 0x01, signed 0.1 °C, as measured. -/
def execSmbusHottestTj (tj : BitVec 16) (s : State) : Host.Outcome State Fault Refusal := .next (s.smb tj.toNat)

/-- SMBUS_PACKAGE_POWER: 0x02, in W, as measured. -/
def execSmbusPackagePower (w : BitVec 16) (s : State) : Host.Outcome State Fault Refusal := .next (s.smb w.toNat)

/-- SMBUS_UPD_BOOT: 0x03, UPD_BOOT[8:0]. -/
def execSmbusUpdBoot (s : State) : Host.Outcome State Fault Refusal := .next (s.smb (bits (s.reg UPD_BOOT).toNat 0 9))

/-- SMBUS_GAV_STATE: 0x04, GAV_STAT[1:0]. -/
def execSmbusGavState (s : State) : Host.Outcome State Fault Refusal := .next (s.smb (s.rd GAV_STAT GAV_STAT_STATE))

/-- SMBUS_UPDATE_PHASE: 0x05, PHASE then RESULT. -/
def execSmbusUpdatePhase (s : State) : Host.Outcome State Fault Refusal :=
  .next (s.smb (s.rd UPD_STAT UPD_STAT_PHASE + s.rd UPD_STAT UPD_STAT_RESULT * 2 ^ 8))

/-- SMBUS_CRITICAL_COUNT: 0x06, CRITICAL and FATAL records written since reset. -/
def execSmbusCriticalCount (s : State) : Host.Outcome State Fault Refusal := .next (s.smb (min s.mgd.critical (2 ^ 32 - 1)))

/-- SMBUS_LOWEST_LIFE: 0x07, the lowest MRG_CLU.LIFE. -/
def execSmbusLowestLife (s : State) : Host.Outcome State Fault Refusal :=
  .next (s.smb (((List.range 16).map fun c => s.rd (MRG_CLU c) MRG_CLU_LIFE).foldl min 65535))

/-! JTAG, 19 R590. -/

/-- The JTAG instruction register. -/
def State.setJtag (s : State) (i : JInstr) : State := { s with host := { s.host with jtag := i } }

/-- An instruction that takes control of pins acts as BYPASS unless PORST_N is low. -/
def State.pinInstr (s : State) (i : JInstr) : State := s.setJtag (if s.boot.inReset then i else .bypass)

/-- BYPASS. -/
def execBypass (s : State) : Host.Outcome State Fault Refusal := .next (s.setJtag .bypass)

/-- IDCODE: 0xA019_2C55. -/
def execIdcode (s : State) : Host.Outcome State Fault Refusal := .next ((s.setJtag .idcode).reply respOk [⟨tagU64, 0xA0192C55⟩])

/-- SAMPLE/PRELOAD: the bits shifted in preload the boundary-scan register; it takes no control of pins. -/
def execSamplePreload (bits : List Bool) (s : State) : Host.Outcome State Fault Refusal :=
  .next (let t := s.setJtag .sample
    { t with host := { t.host with boundary := bits } })

/-- EXTEST: the preloaded bits drive the pins. -/
def execExtest (s : State) : Host.Outcome State Fault Refusal := .next (s.pinInstr .extest)

/-- EXTEST_PULSE of IEEE 1149.6. -/
def execExtestPulse (s : State) : Host.Outcome State Fault Refusal := .next (s.pinInstr .extestPulse)

/-- EXTEST_TRAIN of IEEE 1149.6. -/
def execExtestTrain (s : State) : Host.Outcome State Fault Refusal := .next (s.pinInstr .extestTrain)

/-- CLAMP. -/
def execClamp (s : State) : Host.Outcome State Fault Refusal := .next (s.pinInstr .clamp)

/-- HIGHZ. -/
def execHighz (s : State) : Host.Outcome State Fault Refusal := .next (s.pinInstr .highz)

/-- DEBUG: in OPEN_DEBUG it halts the pair of an engine at an instruction boundary or lets it run again; in FIELD JTAG reaches boundary scan only, 16 R532. -/
def execDebug (e : EngId) (halt : Bool) (s : State) : Host.Outcome State Fault Refusal :=
  .next (if s.flag ID_PART ID_PART_SECMODE then (s.setJtag .debug).modEngine e fun x => { x with halted := halt }
    else s.setJtag .bypass)

end Sys2Proof.Machine
end

