-- ==== Sys2Proof/Machine/Dispatch.lean ====
section
/-! DEFINITION. The meaning of every command, one arm per constructor of Instr. -/
namespace Sys2Proof.Machine

def exec (i : Instr) (s : State) : Host.Outcome State Fault Refusal :=
  match i with
  | .powerOnReset b => Sys2Proof.Machine.execPowerOnReset b s
  | .registerWrite r off sz d => Sys2Proof.Machine.execRegisterWrite r off sz d s
  | .slotStart e n => Sys2Proof.Machine.execSlotStart e n s
  | .usablePartEnd e => Sys2Proof.Machine.execUsablePartEnd e s
  | .slotEnd e => Sys2Proof.Machine.execSlotEnd e s
  | .angleWrap => Sys2Proof.Machine.execAngleWrap s
  | .voteMismatch => Sys2Proof.Machine.execVoteMismatch s
  | .phrefEdge p rising own => Sys2Proof.Machine.execPhrefEdge p rising own s
  | .ptpReferenceInstant => Sys2Proof.Machine.execPtpReferenceInstant s
  | .referenceLoss sv => Sys2Proof.Machine.execReferenceLoss sv s
  | .referenceRevert own => Sys2Proof.Machine.execReferenceRevert own s
  | .holdoverLimitExpiry => Sys2Proof.Machine.execHoldoverLimitExpiry s
  | .forceHold b => Sys2Proof.Machine.execForceHold b s
  | .gavTaiCtrl d v => Sys2Proof.Machine.execGavTaiCtrl d v s
  | .taiSet d => Sys2Proof.Machine.execTaiSet d s
  | .ppsInEdge => Sys2Proof.Machine.execPpsInEdge s
  | .taiLockTimeout => Sys2Proof.Machine.execTaiLockTimeout s
  | .ppsOutRise => Sys2Proof.Machine.execPpsOutRise s
  | .ppsOutFall => Sys2Proof.Machine.execPpsOutFall s
  | .gavTrigaWrite r n d => Sys2Proof.Machine.execGavTrigaWrite r n d s
  | .gavTrigbWrite r n d => Sys2Proof.Machine.execGavTrigbWrite r n d s
  | .triggerFire n late => Sys2Proof.Machine.execTriggerFire n late s
  | .matchDelayedFire n late => Sys2Proof.Machine.execMatchDelayedFire n late s
  | .timerExpiry t => Sys2Proof.Machine.execTimerExpiry t s
  | .edgeAccept e rising own => Sys2Proof.Machine.execEdgeAccept e rising own s
  | .pop e => Sys2Proof.Machine.execPop e s
  | .pinLevelChange n b => Sys2Proof.Machine.execPinLevelChange n b s
  | .pinGpioOut d => Sys2Proof.Machine.execPinGpioOut d s
  | .vadd e md rsv p1 => Sys2Proof.Machine.execVadd e md rsv p1 s
  | .vsub e md rsv p1 => Sys2Proof.Machine.execVsub e md rsv p1 s
  | .vneg e md rsv p1 => Sys2Proof.Machine.execVneg e md rsv p1 s
  | .vabs e md rsv p1 => Sys2Proof.Machine.execVabs e md rsv p1 s
  | .vmin e md rsv p1 => Sys2Proof.Machine.execVmin e md rsv p1 s
  | .vmax e md rsv p1 => Sys2Proof.Machine.execVmax e md rsv p1 s
  | .vcmp e md rsv p1 => Sys2Proof.Machine.execVcmp e md rsv p1 s
  | .vsel e md rsv p1 => Sys2Proof.Machine.execVsel e md rsv p1 s
  | .vand e md rsv p1 => Sys2Proof.Machine.execVand e md rsv p1 s
  | .vor e md rsv p1 => Sys2Proof.Machine.execVor e md rsv p1 s
  | .vxor e md rsv p1 => Sys2Proof.Machine.execVxor e md rsv p1 s
  | .vandn e md rsv p1 => Sys2Proof.Machine.execVandn e md rsv p1 s
  | .vshl e md rsv p1 => Sys2Proof.Machine.execVshl e md rsv p1 s
  | .vshr e md rsv p1 => Sys2Proof.Machine.execVshr e md rsv p1 s
  | .vdchk e md rsv p1 => Sys2Proof.Machine.execVdchk e md rsv p1 s
  | .vdshl e md rsv p1 => Sys2Proof.Machine.execVdshl e md rsv p1 s
  | .vdshr e md rsv p1 => Sys2Proof.Machine.execVdshr e md rsv p1 s
  | .vmul e md rsv p1 => Sys2Proof.Machine.execVmul e md rsv p1 s
  | .vmulh e md rsv p1 => Sys2Proof.Machine.execVmulh e md rsv p1 s
  | .vmulw e md rsv p1 => Sys2Proof.Machine.execVmulw e md rsv p1 s
  | .vdot e md rsv p1 => Sys2Proof.Machine.execVdot e md rsv p1 s
  | .vfma e md rsv p1 => Sys2Proof.Machine.execVfma e md rsv p1 s
  | .vdiv e md rsv p1 => Sys2Proof.Machine.execVdiv e md rsv p1 s
  | .vsqrt e md rsv p1 => Sys2Proof.Machine.execVsqrt e md rsv p1 s
  | .vrsum e md rsv p1 => Sys2Proof.Machine.execVrsum e md rsv p1 s
  | .vrmin e md rsv p1 => Sys2Proof.Machine.execVrmin e md rsv p1 s
  | .vrmax e md rsv p1 => Sys2Proof.Machine.execVrmax e md rsv p1 s
  | .vscan e md rsv p1 => Sys2Proof.Machine.execVscan e md rsv p1 s
  | .vzip e md rsv p1 => Sys2Proof.Machine.execVzip e md rsv p1 s
  | .vunzip e md rsv p1 => Sys2Proof.Machine.execVunzip e md rsv p1 s
  | .vbfly e md rsv p1 => Sys2Proof.Machine.execVbfly e md rsv p1 s
  | .vcvt e md rsv p1 => Sys2Proof.Machine.execVcvt e md rsv p1 s
  | .copy e rsv p1 => Sys2Proof.Machine.execCopy e rsv p1 s
  | .fill e rsv p1 => Sys2Proof.Machine.execFill e rsv p1 s
  | .chain e body p1 => Sys2Proof.Machine.execChain e body p1 s
  | .lvBlockCommit e q => Sys2Proof.Machine.execLvBlockCommit e q s
  | .residueRewind e q => Sys2Proof.Machine.execResidueRewind e q s
  | .lvComplete e b q => Sys2Proof.Machine.execLvComplete e b q s
  | .lvDeferredWriteError e b q blk resp => Sys2Proof.Machine.execLvDeferredWriteError e b q blk resp s
  | .clear e => Sys2Proof.Machine.execClear e s
  | .ringBeatReceive e bad => Sys2Proof.Machine.execRingBeatReceive e bad s
  | .endMarker e => Sys2Proof.Machine.execEndMarker e s
  | .blockDecide e => Sys2Proof.Machine.execBlockDecide e s
  | .commitSignal e => Sys2Proof.Machine.execCommitSignal e s
  | .rewindMarker e => Sys2Proof.Machine.execRewindMarker e s
  | .pauseMarker e => Sys2Proof.Machine.execPauseMarker e s
  | .creditReturn e => Sys2Proof.Machine.execCreditReturn e s
  | .freezeSignal e up => Sys2Proof.Machine.execFreezeSignal e up s
  | .freezeComplete e => Sys2Proof.Machine.execFreezeComplete e s
  | .lineRead x l ecc => Sys2Proof.Machine.execLineRead x l ecc s
  | .fullLineWrite x l ws => Sys2Proof.Machine.execFullLineWrite x l ws s
  | .partialLineWrite x l data tags ecc => Sys2Proof.Machine.execPartialLineWrite x l data tags ecc s
  | .scrubSlot p f => Sys2Proof.Machine.execScrubSlot p f s
  | .sanitise sl region => Sys2Proof.Machine.execSanitise sl region s
  | .sanitiseDone sl => Sys2Proof.Machine.execSanitiseDone sl s
  | .pcTrainingLoss p => Sys2Proof.Machine.execPcTrainingLoss p s
  | .pcRetire r p => Sys2Proof.Machine.execPcRetire r p s
  | .pcTest r p => Sys2Proof.Machine.execPcTest r p s
  | .pcReinstate r p => Sys2Proof.Machine.execPcReinstate r p s
  | .pcTestDone p good => Sys2Proof.Machine.execPcTestDone p good s
  | .migrationDone sl lost => Sys2Proof.Machine.execMigrationDone sl lost s
  | .lvsClusterAccess x e line write data tags port w ecc => Sys2Proof.Machine.execLvsClusterAccess x e line write data tags port w ecc s
  | .foxSave e => Sys2Proof.Machine.execFoxSave e s
  | .foxMarch e m => Sys2Proof.Machine.execFoxMarch e m s
  | .foxRestore e => Sys2Proof.Machine.execFoxRestore e s
  | .foxWaitEnd e => Sys2Proof.Machine.execFoxWaitEnd e s
  | .add e rd rs1 rs2 => Sys2Proof.Machine.execAdd e rd rs1 rs2 s
  | .sub e rd rs1 rs2 => Sys2Proof.Machine.execSub e rd rs1 rs2 s
  | .and e rd rs1 rs2 => Sys2Proof.Machine.execAnd e rd rs1 rs2 s
  | .or e rd rs1 rs2 => Sys2Proof.Machine.execOr e rd rs1 rs2 s
  | .xor e rd rs1 rs2 => Sys2Proof.Machine.execXor e rd rs1 rs2 s
  | .andn e rd rs1 rs2 => Sys2Proof.Machine.execAndn e rd rs1 rs2 s
  | .sll e rd rs1 rs2 => Sys2Proof.Machine.execSll e rd rs1 rs2 s
  | .srl e rd rs1 rs2 => Sys2Proof.Machine.execSrl e rd rs1 rs2 s
  | .sra e rd rs1 rs2 => Sys2Proof.Machine.execSra e rd rs1 rs2 s
  | .ror e rd rs1 rs2 => Sys2Proof.Machine.execRor e rd rs1 rs2 s
  | .slt e rd rs1 rs2 => Sys2Proof.Machine.execSlt e rd rs1 rs2 s
  | .sltu e rd rs1 rs2 => Sys2Proof.Machine.execSltu e rd rs1 rs2 s
  | .min e rd rs1 rs2 => Sys2Proof.Machine.execMin e rd rs1 rs2 s
  | .max e rd rs1 rs2 => Sys2Proof.Machine.execMax e rd rs1 rs2 s
  | .minu e rd rs1 rs2 => Sys2Proof.Machine.execMinu e rd rs1 rs2 s
  | .maxu e rd rs1 rs2 => Sys2Proof.Machine.execMaxu e rd rs1 rs2 s
  | .mov e rd rs1 => Sys2Proof.Machine.execMov e rd rs1 s
  | .neg e rd rs1 => Sys2Proof.Machine.execNeg e rd rs1 s
  | .clz e rd rs1 => Sys2Proof.Machine.execClz e rd rs1 s
  | .ctz e rd rs1 => Sys2Proof.Machine.execCtz e rd rs1 s
  | .popc e rd rs1 => Sys2Proof.Machine.execPopc e rd rs1 s
  | .tcmp e rd rs1 rs2 => Sys2Proof.Machine.execTcmp e rd rs1 rs2 s
  | .tagget e rd rs1 => Sys2Proof.Machine.execTagget e rd rs1 s
  | .addi e rd rs1 x => Sys2Proof.Machine.execAddi e rd rs1 x s
  | .andi e rd rs1 x => Sys2Proof.Machine.execAndi e rd rs1 x s
  | .ori e rd rs1 x => Sys2Proof.Machine.execOri e rd rs1 x s
  | .xori e rd rs1 x => Sys2Proof.Machine.execXori e rd rs1 x s
  | .slti e rd rs1 x => Sys2Proof.Machine.execSlti e rd rs1 x s
  | .sltiu e rd rs1 x => Sys2Proof.Machine.execSltiu e rd rs1 x s
  | .shi e rd rs1 x => Sys2Proof.Machine.execShi e rd rs1 x s
  | .movi e rd x => Sys2Proof.Machine.execMovi e rd x s
  | .movk e rd h x => Sys2Proof.Machine.execMovk e rd h x s
  | .tagset e rd rs1 x => Sys2Proof.Machine.execTagset e rd rs1 x s
  | .mul e rd rs1 rs2 => Sys2Proof.Machine.execMul e rd rs1 rs2 s
  | .mulh e rd rs1 rs2 => Sys2Proof.Machine.execMulh e rd rs1 rs2 s
  | .mulhu e rd rs1 rs2 => Sys2Proof.Machine.execMulhu e rd rs1 rs2 s
  | .mulw e rd rs1 rs2 => Sys2Proof.Machine.execMulw e rd rs1 rs2 s
  | .mulwu e rd rs1 rs2 => Sys2Proof.Machine.execMulwu e rd rs1 rs2 s
  | .div e rd rs1 rs2 => Sys2Proof.Machine.execDiv e rd rs1 rs2 s
  | .divu e rd rs1 rs2 => Sys2Proof.Machine.execDivu e rd rs1 rs2 s
  | .rem e rd rs1 rs2 => Sys2Proof.Machine.execRem e rd rs1 rs2 s
  | .remu e rd rs1 rs2 => Sys2Proof.Machine.execRemu e rd rs1 rs2 s
  | .addc e rd rs1 rs2 => Sys2Proof.Machine.execAddc e rd rs1 rs2 s
  | .addcz e rd rs1 rs2 => Sys2Proof.Machine.execAddcz e rd rs1 rs2 s
  | .subb e rd rs1 rs2 => Sys2Proof.Machine.execSubb e rd rs1 rs2 s
  | .subbz e rd rs1 rs2 => Sys2Proof.Machine.execSubbz e rd rs1 rs2 s
  | .dadj e rd rs1 => Sys2Proof.Machine.execDadj e rd rs1 s
  | .dadd e rd rs1 rs2 => Sys2Proof.Machine.execDadd e rd rs1 rs2 s
  | .dsub e rd rs1 rs2 => Sys2Proof.Machine.execDsub e rd rs1 rs2 s
  | .dcmp e rd rs1 rs2 => Sys2Proof.Machine.execDcmp e rd rs1 rs2 s
  | .cvbd e rd rs1 => Sys2Proof.Machine.execCvbd e rd rs1 s
  | .cvdb e rd rs1 => Sys2Proof.Machine.execCvdb e rd rs1 s
  | .dshl e rd rs1 k => Sys2Proof.Machine.execDshl e rd rs1 k s
  | .dshr e rd rs1 k => Sys2Proof.Machine.execDshr e rd rs1 k s
  | .ld e rd rs1 imm => Sys2Proof.Machine.execLd e rd rs1 imm s
  | .ldw e rd rs1 imm => Sys2Proof.Machine.execLdw e rd rs1 imm s
  | .ldwu e rd rs1 imm => Sys2Proof.Machine.execLdwu e rd rs1 imm s
  | .ldh e rd rs1 imm => Sys2Proof.Machine.execLdh e rd rs1 imm s
  | .ldhu e rd rs1 imm => Sys2Proof.Machine.execLdhu e rd rs1 imm s
  | .ldb e rd rs1 imm => Sys2Proof.Machine.execLdb e rd rs1 imm s
  | .ldbu e rd rs1 imm => Sys2Proof.Machine.execLdbu e rd rs1 imm s
  | .ldX e rd rs1 imm => Sys2Proof.Machine.execLdX e rd rs1 imm s
  | .ldp e rd rs1 imm => Sys2Proof.Machine.execLdp e rd rs1 imm s
  | .fld e fd rs1 imm => Sys2Proof.Machine.execFld e fd rs1 imm s
  | .fldp e fd rs1 imm => Sys2Proof.Machine.execFldp e fd rs1 imm s
  | .flw e fd rs1 imm => Sys2Proof.Machine.execFlw e fd rs1 imm s
  | .vld e vd et rs1 imm => Sys2Proof.Machine.execVld e vd et rs1 imm s
  | .st e rs rs1 imm => Sys2Proof.Machine.execSt e rs rs1 imm s
  | .stw e rs rs1 imm => Sys2Proof.Machine.execStw e rs rs1 imm s
  | .sth e rs rs1 imm => Sys2Proof.Machine.execSth e rs rs1 imm s
  | .stb e rs rs1 imm => Sys2Proof.Machine.execStb e rs rs1 imm s
  | .stp e rs rs1 imm => Sys2Proof.Machine.execStp e rs rs1 imm s
  | .fsd e fs rs1 imm => Sys2Proof.Machine.execFsd e fs rs1 imm s
  | .fsdp e fs rs1 imm => Sys2Proof.Machine.execFsdp e fs rs1 imm s
  | .fsw e fs rs1 imm => Sys2Proof.Machine.execFsw e fs rs1 imm s
  | .vst e vs et rs1 imm => Sys2Proof.Machine.execVst e vs et rs1 imm s
  | .storeDeferredError e => Sys2Proof.Machine.execStoreDeferredError e s
  | .cacheLineFill e line data => Sys2Proof.Machine.execCacheLineFill e line data s
  | .lkld e rd rs1 => Sys2Proof.Machine.execLkld e rd rs1 s
  | .lkst e rd rs1 rs2 => Sys2Proof.Machine.execLkst e rd rs1 rs2 s
  | .lkrel e rs1 => Sys2Proof.Machine.execLkrel e rs1 s
  | .lockBreak sl => Sys2Proof.Machine.execLockBreak sl s
  | .brcEq e rs1 rs2 off => Sys2Proof.Machine.execBrcEq e rs1 rs2 off s
  | .brcNe e rs1 rs2 off => Sys2Proof.Machine.execBrcNe e rs1 rs2 off s
  | .brcLt e rs1 rs2 off => Sys2Proof.Machine.execBrcLt e rs1 rs2 off s
  | .brcGe e rs1 rs2 off => Sys2Proof.Machine.execBrcGe e rs1 rs2 off s
  | .brcLo e rs1 rs2 off => Sys2Proof.Machine.execBrcLo e rs1 rs2 off s
  | .brcHs e rs1 rs2 off => Sys2Proof.Machine.execBrcHs e rs1 rs2 off s
  | .brcTeq e rs1 code off => Sys2Proof.Machine.execBrcTeq e rs1 code off s
  | .brcTne e rs1 code off => Sys2Proof.Machine.execBrcTne e rs1 code off s
  | .go e off => Sys2Proof.Machine.execGo e off s
  | .call e rl off => Sys2Proof.Machine.execCall e rl off s
  | .gor e rd rs1 x => Sys2Proof.Machine.execGor e rd rs1 x s
  | .syscall e code => Sys2Proof.Machine.execSyscall e code s
  | .break e => Sys2Proof.Machine.execBreak e s
  | .retx e => Sys2Proof.Machine.execRetx e s
  | .fence e => Sys2Proof.Machine.execFence e s
  | .fenceI e => Sys2Proof.Machine.execFenceI e s
  | .vwait e mask => Sys2Proof.Machine.execVwait e mask s
  | .slotyield e => Sys2Proof.Machine.execSlotyield e s
  | .rdtime e rd => Sys2Proof.Machine.execRdtime e rd s
  | .rdtimes e rd => Sys2Proof.Machine.execRdtimes e rd s
  | .rdtai e rd => Sys2Proof.Machine.execRdtai e rd s
  | .banksave e rs imm => Sys2Proof.Machine.execBanksave e rs imm s
  | .bankload e rs imm => Sys2Proof.Machine.execBankload e rs imm s
  | .nop e => Sys2Proof.Machine.execNop e s
  | .crr e rd crn => Sys2Proof.Machine.execCrr e rd crn s
  | .crw e rd rs1 crn => Sys2Proof.Machine.execCrw e rd rs1 crn s
  | .crs e rd rs1 crn => Sys2Proof.Machine.execCrs e rd rs1 crn s
  | .crc e rd rs1 crn => Sys2Proof.Machine.execCrc e rd rs1 crn s
  | .repI e gc body iters => Sys2Proof.Machine.execRepI e gc body iters s
  | .repN e gc body iters => Sys2Proof.Machine.execRepN e gc body iters s
  | .fadd e fd fa fb fmt rm => Sys2Proof.Machine.execFadd e fd fa fb fmt rm s
  | .fsub e fd fa fb fmt rm => Sys2Proof.Machine.execFsub e fd fa fb fmt rm s
  | .fmul e fd fa fb fmt rm => Sys2Proof.Machine.execFmul e fd fa fb fmt rm s
  | .fma e fd fa fb fmt rm => Sys2Proof.Machine.execFma e fd fa fb fmt rm s
  | .fdiv e fd fa fb fmt rm => Sys2Proof.Machine.execFdiv e fd fa fb fmt rm s
  | .fsqrt e fd fa fmt rm => Sys2Proof.Machine.execFsqrt e fd fa fmt rm s
  | .fmin e fd fa fb fmt num => Sys2Proof.Machine.execFmin e fd fa fb fmt num s
  | .fmax e fd fa fb fmt num => Sys2Proof.Machine.execFmax e fd fa fb fmt num s
  | .fcmp e gd fa fb fmt cond sig => Sys2Proof.Machine.execFcmp e gd fa fb fmt cond sig s
  | .fcvtFf e fd fa src fmt rm => Sys2Proof.Machine.execFcvtFf e fd fa src fmt rm s
  | .fcvtFi e fd ga uns fmt rm => Sys2Proof.Machine.execFcvtFi e fd ga uns fmt rm s
  | .fcvtIf e gd fa uns fmt rm => Sys2Proof.Machine.execFcvtIf e gd fa uns fmt rm s
  | .fmvGf e fd ga => Sys2Proof.Machine.execFmvGf e fd ga s
  | .fmvFg e gd fa fmt => Sys2Proof.Machine.execFmvFg e gd fa fmt s
  | .fneg e fd fa fmt => Sys2Proof.Machine.execFneg e fd fa fmt s
  | .fabs e fd fa fmt => Sys2Proof.Machine.execFabs e fd fa fmt s
  | .shortVadd e vd va vb et md => Sys2Proof.Machine.execShortVadd e vd va vb et md s
  | .shortVsub e vd va vb et md => Sys2Proof.Machine.execShortVsub e vd va vb et md s
  | .shortVneg e vd va et md => Sys2Proof.Machine.execShortVneg e vd va et md s
  | .shortVabs e vd va et md => Sys2Proof.Machine.execShortVabs e vd va et md s
  | .shortVmin e vd va vb et md => Sys2Proof.Machine.execShortVmin e vd va vb et md s
  | .shortVmax e vd va vb et md => Sys2Proof.Machine.execShortVmax e vd va vb et md s
  | .shortVand e vd va vb et md => Sys2Proof.Machine.execShortVand e vd va vb et md s
  | .shortVor e vd va vb et md => Sys2Proof.Machine.execShortVor e vd va vb et md s
  | .shortVxor e vd va vb et md => Sys2Proof.Machine.execShortVxor e vd va vb et md s
  | .shortVandn e vd va vb et md => Sys2Proof.Machine.execShortVandn e vd va vb et md s
  | .shortVshl e vd va vb et md => Sys2Proof.Machine.execShortVshl e vd va vb et md s
  | .shortVshr e vd va vb et md => Sys2Proof.Machine.execShortVshr e vd va vb et md s
  | .shortVdchk e vd va et md => Sys2Proof.Machine.execShortVdchk e vd va et md s
  | .shortVmul e vd va vb et md => Sys2Proof.Machine.execShortVmul e vd va vb et md s
  | .shortVmulh e vd va vb et md => Sys2Proof.Machine.execShortVmulh e vd va vb et md s
  | .shortVfma e vd va vb et md => Sys2Proof.Machine.execShortVfma e vd va vb et md s
  | .shortVdiv e vd va vb et md => Sys2Proof.Machine.execShortVdiv e vd va vb et md s
  | .shortVsqrt e vd va et md => Sys2Proof.Machine.execShortVsqrt e vd va et md s
  | .shortVcvt e vd va et dt md => Sys2Proof.Machine.execShortVcvt e vd va et dt md s
  | .customerInstruction e rd rs1 rs2 x sub => Sys2Proof.Machine.execCustomerInstruction e rd rs1 rs2 x sub s
  | .exceptionEntry e => Sys2Proof.Machine.execExceptionEntry e s
  | .fehTimeout e => Sys2Proof.Machine.execFehTimeout e s
  | .interruptEntry e => Sys2Proof.Machine.execInterruptEntry e s
  | .promptEntry e late => Sys2Proof.Machine.execPromptEntry e late s
  | .heldDelivery e => Sys2Proof.Machine.execHeldDelivery e s
  | .niTimeout e => Sys2Proof.Machine.execNiTimeout e s
  | .evecM e v => Sys2Proof.Machine.execEvecM e v s
  | .promptCopyDone e => Sys2Proof.Machine.execPromptCopyDone e s
  | .resume e => Sys2Proof.Machine.execResume e s
  | .vacate e => Sys2Proof.Machine.execVacate e s
  | .checkpointComplete e => Sys2Proof.Machine.execCheckpointComplete e s
  | .lockstepRecovery e kind grp ma bad lost => Sys2Proof.Machine.execLockstepRecovery e kind grp ma bad lost s
  | .recoveryEnd e late => Sys2Proof.Machine.execRecoveryEnd e late s
  | .takeoverSwap c => Sys2Proof.Machine.execTakeoverSwap c s
  | .handover r c x timeout => Sys2Proof.Machine.execHandover r c x timeout s
  | .retire r c x timeout => Sys2Proof.Machine.execRetire r c x timeout s
  | .test r c p => Sys2Proof.Machine.execTest r c p s
  | .reinstate r c p => Sys2Proof.Machine.execReinstate r c p s
  | .abort r c => Sys2Proof.Machine.execAbort r c s
  | .precopyDone c flags => Sys2Proof.Machine.execPrecopyDone c flags s
  | .handoverSwap c => Sys2Proof.Machine.execHandoverSwap c s
  | .handoverTimeout c => Sys2Proof.Machine.execHandoverTimeout c s
  | .engineTestDone c flags good => Sys2Proof.Machine.execEngineTestDone c flags good s
  | .defaultTargetAccess x addr => Sys2Proof.Machine.execDefaultTargetAccess x addr s
  | .rdS c pos key l d => Sys2Proof.Machine.execRdS c pos key l d s
  | .rdU c pos key l d => Sys2Proof.Machine.execRdU c pos key l d s
  | .upg c pos key l d => Sys2Proof.Machine.execUpg c pos key l d s
  | .wb c l ws => Sys2Proof.Machine.execWb c l ws s
  | .evc c l => Sys2Proof.Machine.execEvc c l s
  | .snpSh c l crossing => Sys2Proof.Machine.execSnpSh c l crossing s
  | .snpInv c l crossing => Sys2Proof.Machine.execSnpInv c l crossing s
  | .snpRd c l crossing => Sys2Proof.Machine.execSnpRd c l crossing s
  | .snpDrop c l crossing => Sys2Proof.Machine.execSnpDrop c l crossing s
  | .sourceAssert x => Sys2Proof.Machine.execSourceAssert x s
  | .msixUnmask v => Sys2Proof.Machine.execMsixUnmask v s
  | .claim c => Sys2Proof.Machine.execClaim c s
  | .complete c x => Sys2Proof.Machine.execComplete c x s
  | .holdoffExpiry g => Sys2Proof.Machine.execHoldoffExpiry g s
  | .icSgi r x => Sys2Proof.Machine.execIcSgi r x s
  | .tpDoorbell t x => Sys2Proof.Machine.execTpDoorbell t x s
  | .icSrcCfg r x d => Sys2Proof.Machine.execIcSrcCfg r x d s
  | .eventFire ch => Sys2Proof.Machine.execEventFire ch s
  | .evrFire r hi d => Sys2Proof.Machine.execEvrFire r hi d s
  | .evoutPulseEnd n => Sys2Proof.Machine.execEvoutPulseEnd n s
  | .deq t j bad => Sys2Proof.Machine.execDeq t j bad s
  | .enq t j d => Sys2Proof.Machine.execEnq t j d s
  | .alloc reqs => Sys2Proof.Machine.execAlloc reqs s
  | .free t j d => Sys2Proof.Machine.execFree t j d s
  | .ingressAdmit p full => Sys2Proof.Machine.execIngressAdmit p full s
  | .ingressRetry p lane => Sys2Proof.Machine.execIngressRetry p lane s
  | .ingressPost p => Sys2Proof.Machine.execIngressPost p s
  | .tokenRefill => Sys2Proof.Machine.execTokenRefill s
  | .shedEntry q => Sys2Proof.Machine.execShedEntry q s
  | .descRamUe q => Sys2Proof.Machine.execDescRamUe q s
  | .dropRecordSecond => Sys2Proof.Machine.execDropRecordSecond s
  | .flitReceive p f => Sys2Proof.Machine.execFlitReceive p f s
  | .ctrlFlit p f => Sys2Proof.Machine.execCtrlFlit p f s
  | .ackTimer p => Sys2Proof.Machine.execAckTimer p s
  | .discSend p => Sys2Proof.Machine.execDiscSend p s
  | .discFlit p f => Sys2Proof.Machine.execDiscFlit p f s
  | .neighbourLost p => Sys2Proof.Machine.execNeighbourLost p s
  | .ptpFlitSend p => Sys2Proof.Machine.execPtpFlitSend p s
  | .ptpFlit p f => Sys2Proof.Machine.execPtpFlit p f s
  | .messageReceive p vc => Sys2Proof.Machine.execMessageReceive p vc s
  | .transitStuckDrop p vc => Sys2Proof.Machine.execTransitStuckDrop p vc s
  | .ethFrameReceive p l frame => Sys2Proof.Machine.execEthFrameReceive p l frame s
  | .ptpFrameReceive p frame st => Sys2Proof.Machine.execPtpFrameReceive p frame st s
  | .portTransmit p ch bad => Sys2Proof.Machine.execPortTransmit p ch bad s
  | .laneFailure p k => Sys2Proof.Machine.execLaneFailure p k s
  | .laneRejoin p => Sys2Proof.Machine.execLaneRejoin p s
  | .linkDown p l => Sys2Proof.Machine.execLinkDown p l s
  | .linkRetrainDone p l ok => Sys2Proof.Machine.execLinkRetrainDone p l ok s
  | .release r p => Sys2Proof.Machine.execRelease r p s
  | .stage r b => Sys2Proof.Machine.execStage r b s
  | .discard r b => Sys2Proof.Machine.execDiscard r b s
  | .stageCheckDone => Sys2Proof.Machine.execStageCheckDone s
  | .fillDone => Sys2Proof.Machine.execFillDone s
  | .svcInfo seq => Sys2Proof.Machine.execSvcInfo seq s
  | .svcOpen seq kind len => Sys2Proof.Machine.execSvcOpen seq kind len s
  | .svcData seq off data => Sys2Proof.Machine.execSvcData seq off data s
  | .svcClose seq => Sys2Proof.Machine.execSvcClose seq s
  | .svcStatus seq => Sys2Proof.Machine.execSvcStatus seq s
  | .verify r => Sys2Proof.Machine.execVerify r s
  | .ecdh r ksel => Sys2Proof.Machine.execEcdh r ksel s
  | .sha384 r => Sys2Proof.Machine.execSha384 r s
  | .gcmDecrypt r kslot => Sys2Proof.Machine.execGcmDecrypt r kslot s
  | .gcmEncrypt r kslot => Sys2Proof.Machine.execGcmEncrypt r kslot s
  | .xts r kslot dir => Sys2Proof.Machine.execXts r kslot dir s
  | .derive r kslot => Sys2Proof.Machine.execDerive r kslot s
  | .keygen r => Sys2Proof.Machine.execKeygen r s
  | .random r => Sys2Proof.Machine.execRandom r s
  | .keDone => Sys2Proof.Machine.execKeDone s
  | .prepare r v => Sys2Proof.Machine.execPrepare r v s
  | .prepareDone => Sys2Proof.Machine.execPrepareDone s
  | .start r => Sys2Proof.Machine.execStart r s
  | .stop r => Sys2Proof.Machine.execStop r s
  | .raiseMin r => Sys2Proof.Machine.execRaiseMin r s
  | .revoke r k => Sys2Proof.Machine.execRevoke r k s
  | .spareLoadDone flags => Sys2Proof.Machine.execSpareLoadDone flags s
  | .stewardFirmwareSwitch => Sys2Proof.Machine.execStewardFirmwareSwitch s
  | .surveyStart => Sys2Proof.Machine.execSurveyStart s
  | .now r => Sys2Proof.Machine.execNow r s
  | .planDecide c raw => Sys2Proof.Machine.execPlanDecide c raw s
  | .eclkStep c nak => Sys2Proof.Machine.execEclkStep c nak s
  | .marigoldSubmit subs => Sys2Proof.Machine.execMarigoldSubmit subs s
  | .tjAlert => Sys2Proof.Machine.execTjAlert s
  | .tjThrottle => Sys2Proof.Machine.execTjThrottle s
  | .tjCool => Sys2Proof.Machine.execTjCool s
  | .thermtrip => Sys2Proof.Machine.execThermtrip s
  | .pcieInboundRequest q => Sys2Proof.Machine.execPcieInboundRequest q s
  | .pcieConfigRequest q => Sys2Proof.Machine.execPcieConfigRequest q s
  | .pcieReset k => Sys2Proof.Machine.execPcieReset k s
  | .outboundAccess r a write data host => Sys2Proof.Machine.execOutboundAccess r a write data host s
  | .mbxDoor r d => Sys2Proof.Machine.execMbxDoor r d s
  | .mailboxReply rep => Sys2Proof.Machine.execMailboxReply rep s
  | .smbusHottestTj tj => Sys2Proof.Machine.execSmbusHottestTj tj s
  | .smbusPackagePower w => Sys2Proof.Machine.execSmbusPackagePower w s
  | .smbusUpdBoot => Sys2Proof.Machine.execSmbusUpdBoot s
  | .smbusGavState => Sys2Proof.Machine.execSmbusGavState s
  | .smbusUpdatePhase => Sys2Proof.Machine.execSmbusUpdatePhase s
  | .smbusCriticalCount => Sys2Proof.Machine.execSmbusCriticalCount s
  | .smbusLowestLife => Sys2Proof.Machine.execSmbusLowestLife s
  | .bypass => Sys2Proof.Machine.execBypass s
  | .idcode => Sys2Proof.Machine.execIdcode s
  | .samplePreload bits => Sys2Proof.Machine.execSamplePreload bits s
  | .extest => Sys2Proof.Machine.execExtest s
  | .extestPulse => Sys2Proof.Machine.execExtestPulse s
  | .extestTrain => Sys2Proof.Machine.execExtestTrain s
  | .clamp => Sys2Proof.Machine.execClamp s
  | .highz => Sys2Proof.Machine.execHighz s
  | .debug e halt => Sys2Proof.Machine.execDebug e halt s
  | .engVsuCntclr e => Sys2Proof.Machine.execEngVsuCntclr e s
  | .engChnCntclr e => Sys2Proof.Machine.execEngChnCntclr e s
  | .slcCntclr sl => Sys2Proof.Machine.execSlcCntclr sl s
  | .lvsCntclr e => Sys2Proof.Machine.execLvsCntclr e s
  | .engExcCntclr e => Sys2Proof.Machine.execEngExcCntclr e s
  | .engTngCntclr e => Sys2Proof.Machine.execEngTngCntclr e s
  | .slcXcntclr sl => Sys2Proof.Machine.execSlcXcntclr sl s
  | .cluCcCntclr c => Sys2Proof.Machine.execCluCcCntclr c s
  | .qmCntclr r => Sys2Proof.Machine.execQmCntclr r s
  | .octCntclr r p => Sys2Proof.Machine.execOctCntclr r p s
  | .linkUp p l sizes => Sys2Proof.Machine.execLinkUp p l sizes s
  | .pcieLinkUp speed width flit => Sys2Proof.Machine.execPcieLinkUp speed width flit s
  | .svcLinkChange up => Sys2Proof.Machine.execSvcLinkChange up s
  | .porstNAssert => Sys2Proof.Machine.execPorstNAssert s
  | .accessResponse e host => Sys2Proof.Machine.execAccessResponse e host s
  | .platformTimeCutoff e => Sys2Proof.Machine.execPlatformTimeCutoff e s
  | .surveyComplete raw => Sys2Proof.Machine.execSurveyComplete raw s
  | .revokeDone => Sys2Proof.Machine.execRevokeDone s
  | .ptpMessageSend p => Sys2Proof.Machine.execPtpMessageSend p s

end Sys2Proof.Machine
end

