-- ==== Sys2Proof/Machine/Tick.lean ====
section
/-! DEFINITION. What one XCLK does of itself, when no command waits (log entry 1). -/
namespace Sys2Proof.Machine

/-- Engines with released stores that are not visible yet. -/
def State.drainers (s : State) : List Nat := (s.eng.filter fun p => !p.2.out.isEmpty).map (·.1)

/-- One XCLK: the timebase advances, a claim batch is settled (12 R427), the recorder takes the next submissions (18 R571), the matcher may fire again (02 R67),
locks whose timer has run break (11 R399), released stores become visible (R395), a new µs refills the buckets (13 R460), slices and Foxglove go on with what they copy and clean (06 R223, R228, R240), and an error may arise in a stored codeword.
While PORST_N is low nothing runs. -/
def State.tick (s : State) : State :=
  if s.boot.inReset then s
  else
    let t := (s.advance 1).submit []
    let t := eachDo ((List.range 32).filter fun sl => t.lockDue sl) (fun sl u => u.breakLock sl) t
    let t := eachDo t.drainers (fun e u => u.drainOut e) t
    let t := eachDo (List.range 32) (fun sl u => u.sliceTick sl) t
    let t := if t.usNow = s.usNow then t else t.refill
    t.foxTick.upset

end Sys2Proof.Machine
end

