-- ==== Sys2Proof/Safety.lean ====
section
/-! DEFINITION. What the statements are said in: the canonical form of memory, an engine that can issue, and the program counter past an instruction. -/
namespace Sys2Proof.Machine

/-- Every map of memory is in its one canonical form: keys rise strictly, and none is listed with what an unlisted key holds. -/
def Mem.wf (m : Mem) : Bool :=
  swf (fun _ => 0) m.bytes && swf (fun _ => tagEmpty) m.tags && swf (fun _ => LineMeta.clean) m.lines &&
    swf (fun _ => Ecc.clean) m.flaws && swf (fun _ => 0) m.keygen && swf (fun _ => DirEntry.none) m.dir &&
    swf (fun _ => []) m.copies && swf (fun _ => LockUnit.free) m.locks && swf (fun _ => 0) m.busy &&
    swf (fun _ => 0) m.scrub && swf (fun _ => []) m.ueTimes && swf (fun _ => 0) m.cePass &&
    swf (fun _ => 0) m.passDone && swf (fun _ => 0) m.remapBad && swf (fun _ => (0, 0)) m.slots &&
    swf (fun _ => []) m.resSlots && swf (fun _ => []) m.resOld && swf (fun _ => 0) m.sanitPos &&
    swf (fun _ => none) m.foxMarch && swf (fun _ => 0) m.foxSince && swf (fun _ => 0) m.foxStuck &&
    swf (fun _ => false) m.hoDirty && swf (fun _ => Ecc.clean) m.ucFlaws && swf (fun _ => Ecc.clean) m.ccFlaws &&
    swf (fun _ => none) m.images

/-- Engine `e` issues its next instruction now, of `n` bytes and reading the registers `rs`: no response is yet to write one of them, and the fetch of each of its parcels succeeds (07 R252
and R254, 09 R322). -/
def State.ready (s : State) (e n : Nat) (rs : List RegRef) : Prop :=
  s.canIssue e = true ∧ s.awaits e rs = false ∧ s.fetchTrap e = none ∧ (4 < n → (s.setPc e ((s.pc e + 4) % 2 ^ 48)).fetchTrap e = none)

/-- Engine `e` with its program counter past an instruction of `n` bytes, 07 R246. -/
def State.past (s : State) (e n : Nat) : State := s.setPc e ((s.pc e + n) % 2 ^ 48)

/-! Long vectors. -/

/-- The engine, the operation (PIPE, OPC and MOD of 03 R90 and 04) and parcel 1 of a long-vector instruction. -/
def longVector (i : Instr) : Option (EngId × LvAsk × BitVec 32) :=
  match i with
  | .vadd e md rsv p1 => some (e, .op ⟨0, 0, md.toNat⟩ rsv.toNat, p1)
  | .vsub e md rsv p1 => some (e, .op ⟨0, 1, md.toNat⟩ rsv.toNat, p1)
  | .vneg e md rsv p1 => some (e, .op ⟨0, 2, md.toNat⟩ rsv.toNat, p1)
  | .vabs e md rsv p1 => some (e, .op ⟨0, 3, md.toNat⟩ rsv.toNat, p1)
  | .vmin e md rsv p1 => some (e, .op ⟨0, 4, md.toNat⟩ rsv.toNat, p1)
  | .vmax e md rsv p1 => some (e, .op ⟨0, 5, md.toNat⟩ rsv.toNat, p1)
  | .vcmp e md rsv p1 => some (e, .op ⟨0, 6, md.toNat⟩ rsv.toNat, p1)
  | .vsel e md rsv p1 => some (e, .op ⟨0, 7, md.toNat⟩ rsv.toNat, p1)
  | .vand e md rsv p1 => some (e, .op ⟨0, 8, md.toNat⟩ rsv.toNat, p1)
  | .vor e md rsv p1 => some (e, .op ⟨0, 9, md.toNat⟩ rsv.toNat, p1)
  | .vxor e md rsv p1 => some (e, .op ⟨0, 10, md.toNat⟩ rsv.toNat, p1)
  | .vandn e md rsv p1 => some (e, .op ⟨0, 11, md.toNat⟩ rsv.toNat, p1)
  | .vshl e md rsv p1 => some (e, .op ⟨0, 12, md.toNat⟩ rsv.toNat, p1)
  | .vshr e md rsv p1 => some (e, .op ⟨0, 13, md.toNat⟩ rsv.toNat, p1)
  | .vdchk e md rsv p1 => some (e, .op ⟨0, 16, md.toNat⟩ rsv.toNat, p1)
  | .vdshl e md rsv p1 => some (e, .op ⟨0, 17, md.toNat⟩ rsv.toNat, p1)
  | .vdshr e md rsv p1 => some (e, .op ⟨0, 18, md.toNat⟩ rsv.toNat, p1)
  | .vmul e md rsv p1 => some (e, .op ⟨1, 0, md.toNat⟩ rsv.toNat, p1)
  | .vmulh e md rsv p1 => some (e, .op ⟨1, 1, md.toNat⟩ rsv.toNat, p1)
  | .vmulw e md rsv p1 => some (e, .op ⟨1, 2, md.toNat⟩ rsv.toNat, p1)
  | .vdot e md rsv p1 => some (e, .op ⟨1, 3, md.toNat⟩ rsv.toNat, p1)
  | .vfma e md rsv p1 => some (e, .op ⟨2, 0, md.toNat⟩ rsv.toNat, p1)
  | .vdiv e md rsv p1 => some (e, .op ⟨2, 1, md.toNat⟩ rsv.toNat, p1)
  | .vsqrt e md rsv p1 => some (e, .op ⟨2, 2, md.toNat⟩ rsv.toNat, p1)
  | .vrsum e md rsv p1 => some (e, .op ⟨3, 0, md.toNat⟩ rsv.toNat, p1)
  | .vrmin e md rsv p1 => some (e, .op ⟨3, 1, md.toNat⟩ rsv.toNat, p1)
  | .vrmax e md rsv p1 => some (e, .op ⟨3, 2, md.toNat⟩ rsv.toNat, p1)
  | .vscan e md rsv p1 => some (e, .op ⟨3, 4, md.toNat⟩ rsv.toNat, p1)
  | .vzip e md rsv p1 => some (e, .op ⟨3, 8, md.toNat⟩ rsv.toNat, p1)
  | .vunzip e md rsv p1 => some (e, .op ⟨3, 9, md.toNat⟩ rsv.toNat, p1)
  | .vbfly e md rsv p1 => some (e, .op ⟨3, 12, md.toNat⟩ rsv.toNat, p1)
  | .vcvt e md rsv p1 => some (e, .op ⟨3, 16, md.toNat⟩ rsv.toNat, p1)
  | .copy e rsv p1 => some (e, .copy rsv.toNat, p1)
  | .fill e rsv p1 => some (e, .fill rsv.toNat, p1)
  | .chain e body p1 => some (e, .chain body.toNat, p1)
  | _ => none

/-- Word `n` of the descriptor register pair that parcel 1 names for stream `k`, 03 R84. -/
def State.lvReg (s : State) (e p1 k n : Nat) : TWord := s.g e (BitVec.ofNat 5 (2 * bits p1 (4 * k) 4 + n))

/-- The descriptor of stream `k`, where parcel 1 uses it. -/
def State.lvDesc (s : State) (e p1 k : Nat) : Option Desc :=
  if useBit p1 k then some ((s.lvReg e p1 k 0).val, (s.lvReg e p1 k 1).val) else none

/-- The stream whose count governs, 03 R86: D of a FILL, otherwise A. -/
def LvAsk.governing (a : LvAsk) : Nat :=
  match a with
  | .fill _ => 3
  | _ => 0

/-- The scalar operand `sc` that an operation on elements of type `t` reads at issue, with an accepted tag and, for D15, valid digits (03 R93). -/
def State.lvScalarIs (s : State) (e p1 t : Nat) (sc : Option Nat) : Prop :=
  if bits p1 29 1 = 1 ∧ etDefined t = true then
    let r := s.lvScalar e t (BitVec.ofNat 5 (bits p1 24 5))
    r.2 = none ∧ sc = some r.1 ∧ (t = 11 → d15Valid r.1 = true)
  else sc = none

/-- The FORM and the scalar that an instruction asks for, with every scalar read accepted (03 R90 to R93, 05 R172). -/
def State.lvFormIs (s : State) (e p1 : Nat) (a : LvAsk) (f : LvForm) (sc : Option Nat) : Prop :=
  let ty (k : Nat) : Nat := ((s.lvDesc e p1 k).map dType).getD 0
  match a with
  | .op o _ => f = .op o ∧ s.lvScalarIs e p1 (ty 0) sc
  | .copy _ => f = .copy ∧ s.lvScalarIs e p1 (ty 0) sc
  | .fill _ => f = .fill ∧ s.lvScalarIs e p1 (ty 3) sc
  | .chain body =>
    let r := s.chainScalars e (s.chainSteps e body) (ty 0)
    r.2 = none ∧ f = .chain (r.1.map (·.1)) ∧ sc = none ∧
      ∀ c ∈ r.1, (c.1.sely = 3 ∨ c.1.selz = 3) → c.2 = 11 → d15Valid c.1.scalar = true

/-- The queue entry of an instruction at `pc`: its operands as the core holds them, nothing done yet (03 R84 and R89). -/
def State.lvEntry (s : State) (e pc p1 : Nat) (f : LvForm) (sc : Option Nat) : LvEntry :=
  let x : LvEntry :=
    { qe := 0, form := f, a := s.lvDesc e p1 0, b := s.lvDesc e p1 1, c := s.lvDesc e p1 2, d := s.lvDesc e p1 3, scalar := sc, vt := bits p1 20 4,
      pc := pc, lev := s.lev e, vfcsr := s.vfcsr e, elem := 0, rewinds := 0, carry := [], carryv := false, foff := 0, fstr := 0, cstep := 0, valid := false,
      deferred := false, ranges := [], unacked := [], inBase := none, outBase := none }
  { x with elem := x.start }

/-- Whether the mover carries out an instruction: COPY and FILL. -/
def LvAsk.moves (a : LvAsk) : Bool :=
  match a with
  | .copy _ | .fill _ => true
  | _ => false

/-! Frames. -/

/-- The engine and the destination of an instruction of 07 R257 and R258, which reads G registers and writes one. -/
def registerOnly (i : Instr) : Option (EngId × RegNo) :=
  match i with
  | .add e rd _ _ => some (e, rd)
  | .sub e rd _ _ => some (e, rd)
  | .and e rd _ _ => some (e, rd)
  | .or e rd _ _ => some (e, rd)
  | .xor e rd _ _ => some (e, rd)
  | .andn e rd _ _ => some (e, rd)
  | .sll e rd _ _ => some (e, rd)
  | .srl e rd _ _ => some (e, rd)
  | .sra e rd _ _ => some (e, rd)
  | .ror e rd _ _ => some (e, rd)
  | .slt e rd _ _ => some (e, rd)
  | .sltu e rd _ _ => some (e, rd)
  | .min e rd _ _ => some (e, rd)
  | .max e rd _ _ => some (e, rd)
  | .minu e rd _ _ => some (e, rd)
  | .maxu e rd _ _ => some (e, rd)
  | .mov e rd _ => some (e, rd)
  | .neg e rd _ => some (e, rd)
  | .clz e rd _ => some (e, rd)
  | .ctz e rd _ => some (e, rd)
  | .popc e rd _ => some (e, rd)
  | .tcmp e rd _ _ => some (e, rd)
  | .tagget e rd _ => some (e, rd)
  | .addi e rd _ _ => some (e, rd)
  | .andi e rd _ _ => some (e, rd)
  | .ori e rd _ _ => some (e, rd)
  | .xori e rd _ _ => some (e, rd)
  | .slti e rd _ _ => some (e, rd)
  | .sltiu e rd _ _ => some (e, rd)
  | .shi e rd _ _ => some (e, rd)
  | .movi e rd _ => some (e, rd)
  | .movk e rd _ _ => some (e, rd)
  | .tagset e rd _ _ => some (e, rd)
  | _ => none

end Sys2Proof.Machine
end

