-- ==== Sys2Proof/WellFormed.lean ====
section
/-! DEFINITION. Which operand lists a command can carry. -/
namespace Sys2Proof

/-- The bytes and tags that a write of a line names: each once. -/
def partsOk (data : List (Fin 64 × Byte)) (tags : List (Fin 8 × Tag)) : Bool := decide (data.map (·.1)).Nodup && decide (tags.map (·.1)).Nodup

/-- A host request reads 1 to 4,096 bytes, or writes as many as it carries. -/
def pciOk (q : PciReq) : Bool :=
  decide (0 < q.len) && decide (q.len ≤ 4096) && (if q.write then q.data.length == q.len else q.data.isEmpty)

/-- A flit has 248 body bytes, 14 R471. -/
def flitOk (f : Flit) : Bool := f.body.length == 248

/-- The operands of a command agree with one another; a command not listed takes any operands. -/
def wellFormed (i : Instr) : Bool :=
  match i with
  | .powerOnReset b => decide (b.flash.map (·.1)).Nodup && decide b.failing.Nodup
  | .triggerFire _ late => decide late.Nodup
  | .matchDelayedFire _ late => decide late.Nodup
  | .partialLineWrite _ _ data tags _ => partsOk data tags && !(data.isEmpty && tags.isEmpty)
  | .lvsClusterAccess _ _ _ write data tags _ _ _ => partsOk data tags && (write || data.isEmpty && tags.isEmpty)
  | .migrationDone _ lost => decide lost.Nodup
  | .lockstepRecovery _ _ _ _ bad _ => decide bad.Nodup
  | .alloc reqs => !reqs.isEmpty && decide (reqs.map fun r => (r.mid, r.pos)).Nodup
  | .flitReceive _ f => flitOk f
  | .ctrlFlit _ f => flitOk f
  | .marigoldSubmit subs => !subs.isEmpty
  | .pcieInboundRequest q => pciOk q
  | .outboundAccess _ _ write data _ => if write then !data.isEmpty else data.isEmpty
  | .mailboxReply rep => decide (rep.map (·.1)).Nodup
  | .pcieLinkUp speed width _ => decide (4 ≤ speed) && decide (speed ≤ 6) && [4, 8, 16].contains width
  | _ => true

end Sys2Proof
end

