-- ==== Sys2Proof/Certificates/Slice0/Obligations.lean ====
section
/-! DEFINITION. What the model is claimed to do: the statements for the provers. -/
open Sys2Proof Sys2Proof.Machine

/-- A step runs the command in front of the queue on the state with the queue's rest; on an empty queue one XCLK passes (log entry 1); and no word spells a command, since the table gives its rows no bits. -/
def Obligations.StepRunsTheFrontCommand : Prop :=
  ∀ (c : Instr) (rest : List Instr) (n w : Nat) (s : State),
    (s.pending = c :: rest → step s = exec c { s with pending := rest }) ∧ (s.pending = [] → step s = .next s.tick) ∧
    decodeTableWord n w = none ∧ s.withFetchWord n w = s

/-- 02 R41, R42, R58 and R60, log entry 1: an XCLK that does not wrap the angle adds the increment to the accumulator and, unless TAI slews or follows a 10 MHz input, one ns to TAI and the monotonic tick, and leaves the cycle count; in reset nothing moves. -/
def Obligations.TickAdvancesTheTimebase : Prop :=
  ∀ s : State, s.pending = [] →
    (s.boot.inReset = true → step s = .next s) ∧
    (s.boot.inReset = false → s.gav.acc + s.angleInc < 2 ^ 64 → ∃ t : State, step s = .next t ∧ t.gav.acc = s.gav.acc + s.angleInc ∧
      t.gav.tai = (s.gav.tai + (s.taiRun 1).1) % 2 ^ 64 ∧ t.gav.mono = s.gav.mono + (s.taiRun 1).1 ∧ (s.gav.slew = 0 → s.flag Reg.GAV_TAI_CTRL Reg.GAV_TAI_CTRL_TEN_MHZ = false → s.gav.frac < 1000000000 → (s.taiRun 1).1 = 1) ∧ t.gav.cyc = s.gav.cyc ∧ t.gav.fired = 0 ∧ t.pending = [])

/-- Every step keeps the canonical form of all of memory: storage, tags, line metadata, directory, locks and images (the model's own form, log entry 5). -/
def Obligations.MemoryStaysCanonical : Prop :=
  ∀ s t : State, s.mem.wf = true → step s = .next t → t.mem.wf = true

/-- No step adds a command to the queue: with a command in front it leaves exactly the rest, and so well-formed commands stay so (log entry 2). -/
def Obligations.QueueOnlyDrains : Prop :=
  ∀ s t : State, (∀ c ∈ s.pending, wellFormed c = true) → step s = .next t → t.pending = s.pending.tail ∧ ∀ c ∈ t.pending, wellFormed c = true

/-- 00 R8: after reset the queue is empty, memory lists nothing in its canonical form, and the registers hold the reset values that their tables state. Corners that the rules leave open are the model's choice: log entries 4 and 5. -/
def Obligations.ResetState : Prop :=
  let s := State.reset
  s.pending = [] ∧ s.mem = Mem.reset ∧ s.mem.wf = true ∧ s.gav.acc = 0 ∧ s.gav.cyc = 0 ∧ s.gav.tai = 0 ∧
  s.rd Reg.GAV_STAT Reg.GAV_STAT_STATE = 2 ∧ s.rd Reg.GAV_TRACK Reg.GAV_TRACK_FMIN = 4000 ∧ s.rd Reg.GAV_TRACK Reg.GAV_TRACK_FMAX = 7000 ∧
  s.rd Reg.GAV_TRACK Reg.GAV_TRACK_HOLD_LIMIT = 60 ∧ s.rd Reg.GAV_FNOM Reg.GAV_FNOM_FNOM = 5000 ∧ s.rd Reg.GAV_FREQ Reg.GAV_FREQ_FREQ = 50000000 ∧
  s.rd Reg.GAV_TAI_CTRL Reg.GAV_TAI_CTRL_PPS_WIDTH = 100000 ∧ s.rd Reg.EVR_OUTW Reg.EVR_OUTW_WIDTH = 10 ∧ s.rd Reg.UPD_BOOT Reg.UPD_BOOT_STEP = 1 ∧
  s.rd Reg.ID_PART Reg.ID_PART_PART = 402 ∧ s.reg Reg.HOST_OUTBASE = 0 ∧
  (∀ e < 208, s.rd (Reg.ENG_EXC_STAT e) Reg.ENG_EXC_STAT_BANK = 7 ∧ s.rd (Reg.FOX_CTRL e) Reg.FOX_CTRL_EN = 1) ∧
  (∀ c < 16, s.rd (Reg.CLU_RED c) Reg.CLU_RED_SPAREPOS = 12 ∧ s.rd (Reg.MRG_CLU c) Reg.MRG_CLU_VMV = 800) ∧
  (∀ p < 6, s.rd (Reg.OCT_CTRL p) Reg.OCT_CTRL_RETRYTHR = 1000 ∧ s.portReleased p = false)

/-- 07 R257: the result and its tag of every register ALU instruction on operands of the tags it accepts, with the program counter past it. -/
def Obligations.AluRegisterResults : Prop :=
  ∀ (e : EngId) (rd rs1 rs2 : RegNo) (s : State), s.ready e 4 [.g rs1, .g rs2] →
    let a := s.g e rs1
    let b := s.g e rs2
    let put (x : TWord) : Host.Outcome State Fault Refusal := .next (((s.past e 4).setG e rd x).countInstr e)
    (tagAddA a.tag = true → addB a.tag b.tag = true → exec (.add e rd rs1 rs2) s = put ⟨a.tag, a.val + b.val⟩) ∧
    (tagAddA a.tag = true → subB a.tag b.tag = true → exec (.sub e rd rs1 rs2) s =
      put ⟨if (a.tag = tagPtr ∨ a.tag = tagTime) ∧ b.tag = a.tag then tagI64 else a.tag, a.val - b.val⟩) ∧
    (tagNRawPtr a.tag = true → tagNRaw b.tag = true →
      exec (.and e rd rs1 rs2) s = put ⟨a.tag, a.val &&& b.val⟩ ∧ exec (.or e rd rs1 rs2) s = put ⟨a.tag, a.val ||| b.val⟩ ∧
      exec (.xor e rd rs1 rs2) s = put ⟨a.tag, a.val ^^^ b.val⟩ ∧ exec (.andn e rd rs1 rs2) s = put ⟨a.tag, a.val &&& ~~~b.val⟩) ∧
    (tagNRawFix a.tag = true → tagN b.tag = true →
      exec (.sll e rd rs1 rs2) s = put ⟨a.tag, a.val <<< (b.val.toNat % 64)⟩ ∧
      exec (.srl e rd rs1 rs2) s = put ⟨a.tag, a.val >>> (b.val.toNat % 64)⟩ ∧
      exec (.sra e rd rs1 rs2) s = put ⟨a.tag, a.val.sshiftRight (b.val.toNat % 64)⟩ ∧
      exec (.ror e rd rs1 rs2) s = put ⟨a.tag, a.val.rotateRight (b.val.toNat % 64)⟩) ∧
    (tagNFixPtr a.tag = true → sameClass a.tag b.tag = true →
      exec (.slt e rd rs1 rs2) s = put ⟨tagI64, if a.val.toInt < b.val.toInt then 1 else 0⟩ ∧
      exec (.sltu e rd rs1 rs2) s = put ⟨tagI64, if a.val.toNat < b.val.toNat then 1 else 0⟩ ∧
      exec (.min e rd rs1 rs2) s = put ⟨a.tag, if a.val.toInt < b.val.toInt then a.val else b.val⟩ ∧
      exec (.max e rd rs1 rs2) s = put ⟨a.tag, if a.val.toInt < b.val.toInt then b.val else a.val⟩ ∧
      exec (.minu e rd rs1 rs2) s = put ⟨a.tag, if a.val.toNat < b.val.toNat then a.val else b.val⟩ ∧
      exec (.maxu e rd rs1 rs2) s = put ⟨a.tag, if a.val.toNat < b.val.toNat then b.val else a.val⟩) ∧
    (a.tag ≠ tagPoison → a.tag ≠ tagEmpty → exec (.mov e rd rs1) s = put a) ∧
    (tagNFix a.tag = true → exec (.neg e rd rs1) s = put ⟨a.tag, 0 - a.val⟩) ∧
    (tagNRaw a.tag = true →
      (∃ n ≤ 64, (∀ i < 64, 64 - n ≤ i → a.val.getLsbD i = false) ∧ (n < 64 → a.val.getLsbD (63 - n) = true) ∧
        exec (.clz e rd rs1) s = put ⟨tagI64, BitVec.ofNat 64 n⟩) ∧
      (∃ n ≤ 64, (∀ i < n, a.val.getLsbD i = false) ∧ (n < 64 → a.val.getLsbD n = true) ∧
        exec (.ctz e rd rs1) s = put ⟨tagI64, BitVec.ofNat 64 n⟩) ∧
      exec (.popc e rd rs1) s = put ⟨tagI64, BitVec.ofNat 64 ((List.range 64).countP fun i => a.val.getLsbD i)⟩) ∧
    (a.tag = tagTime → b.tag = tagTime → exec (.tcmp e rd rs1 rs2) s =
      put ⟨tagI64, if a.val = b.val then 0 else if (a.val - b.val).toInt > 0 then 1 else -1⟩) ∧
    exec (.tagget e rd rs1) s = put ⟨tagU64, a.tag.setWidth 64⟩

/-- 07 R258: the result and its tag of every immediate instruction on operands it accepts, with the program counter past it. -/
def Obligations.ImmediateResults : Prop :=
  ∀ (e : EngId) (rd rs1 : RegNo) (i : BitVec 16) (h : Fin 4) (s : State), s.ready e 4 [.g rs1] →
    let a := s.g e rs1
    let put (x : TWord) : Host.Outcome State Fault Refusal := .next (((s.past e 4).setG e rd x).countInstr e)
    (tagAddA a.tag = true → exec (.addi e rd rs1 i) s = put ⟨a.tag, a.val + i.signExtend 64⟩) ∧
    (tagNRawPtr a.tag = true →
      exec (.andi e rd rs1 i) s = put ⟨a.tag, a.val &&& i.setWidth 64⟩ ∧ exec (.ori e rd rs1 i) s = put ⟨a.tag, a.val ||| i.setWidth 64⟩ ∧
      exec (.xori e rd rs1 i) s = put ⟨a.tag, a.val ^^^ i.setWidth 64⟩) ∧
    (tagN a.tag = true →
      exec (.slti e rd rs1 i) s = put ⟨tagI64, if a.val.toInt < (i.signExtend 64).toInt then 1 else 0⟩ ∧
      exec (.sltiu e rd rs1 i) s = put ⟨tagI64, if a.val.toNat < (i.signExtend 64).toNat then 1 else 0⟩) ∧
    (tagNRawFix a.tag = true → i.toNat < 256 → exec (.shi e rd rs1 i) s =
      put ⟨a.tag, if i.toNat < 64 then a.val <<< (i.toNat % 64) else if i.toNat < 128 then a.val >>> (i.toNat % 64)
        else if i.toNat < 192 then a.val.sshiftRight (i.toNat % 64) else a.val.rotateRight (i.toNat % 64)⟩) ∧
    exec (.movi e rd i) s = put ⟨tagI64, i.signExtend 64⟩ ∧
    (s.awaits e [.g rd] = false → (s.g e rd).tag ≠ tagPoison → (s.g e rd).tag ≠ tagEmpty → ∃ w : Word, (∀ k : Nat, k < 64 →
        w.getLsbD k = if 16 * h.val ≤ k ∧ k < 16 * h.val + 16 then i.getLsbD (k - 16 * h.val) else (s.g e rd).val.getLsbD k) ∧
      exec (.movk e rd h i) s = put ⟨(s.g e rd).tag, w⟩) ∧
    (i.toNat < 16 → exec (.tagset e rd rs1 i) s = put ⟨i.setWidth 4, a.val⟩)

/-- 07 R259 and R260: products, quotients and remainders; a widening multiply with an odd rd is illegal. -/
def Obligations.MultiplyDivideResults : Prop :=
  ∀ (e : EngId) (rd rs1 rs2 : RegNo) (s : State), s.ready e 4 [.g rs1, .g rs2] →
    let a := (s.g e rs1).val
    let b := (s.g e rs2).val
    let t := (s.g e rs1).tag
    let put (x : Word) : Host.Outcome State Fault Refusal := .next (((s.past e 4).setG e rd ⟨t, x⟩).countInstr e)
    let put2 (lo hi : Word) : Host.Outcome State Fault Refusal := .next ((((s.past e 4).setG e rd ⟨t, lo⟩).setG e (rd + 1) ⟨t, hi⟩).countInstr e)
    (tagN t = true → tagN (s.g e rs2).tag = true →
      exec (.mul e rd rs1 rs2) s = put (a * b) ∧
      exec (.mulh e rd rs1 rs2) s = put (BitVec.ofInt 64 (a.toInt * b.toInt / 2 ^ 64)) ∧
      exec (.mulhu e rd rs1 rs2) s = put (BitVec.ofNat 64 (a.toNat * b.toNat / 2 ^ 64)) ∧
      exec (.div e rd rs1 rs2) s = put (if b = 0 then BitVec.allOnes 64 else BitVec.ofInt 64 (a.toInt.tdiv b.toInt)) ∧
      exec (.divu e rd rs1 rs2) s = put (if b = 0 then BitVec.allOnes 64 else a / b) ∧
      exec (.rem e rd rs1 rs2) s = put (if b = 0 then a else BitVec.ofInt 64 (a.toInt.tmod b.toInt)) ∧
      exec (.remu e rd rs1 rs2) s = put (if b = 0 then a else a % b) ∧
      (rd.toNat % 2 = 0 →
        exec (.mulw e rd rs1 rs2) s = put2 (a * b) (BitVec.ofInt 64 (a.toInt * b.toInt / 2 ^ 64)) ∧
        exec (.mulwu e rd rs1 rs2) s = put2 (a * b) (BitVec.ofNat 64 (a.toNat * b.toNat / 2 ^ 64)))) ∧
    (rd.toNat % 2 = 1 →
      exec (.mulw e rd rs1 rs2) s = .next ((s.past e 4).takeException e (s.pc e) (illegal (encReg 0x0A rd rs1 rs2 3))) ∧
      exec (.mulwu e rd rs1 rs2) s = .next ((s.past e 4).takeException e (s.pc e) (illegal (encReg 0x0A rd rs1 rs2 4))))

/-- 07 R261 to R263: the word and ASTAT after ADDC, ADDCZ, SUBB, SUBBZ and DADJ. 07 R262 and R264: DADD, DSUB, DCMP, CVBD, CVDB, DSHL and DSHR on valid operands whose overflow, if any, does not trap. -/
def Obligations.DecimalArithmetic : Prop :=
  (∀ (e : EngId) (rd rs1 rs2 : RegNo) (s : State), s.ready e 4 [.g rs1, .g rs2] → tagNRaw (s.g e rs1).tag = true →
      let a := (s.g e rs1).val.toNat
      let b := (s.g e rs2).val.toNat
      let c := s.astat e % 2
      let put (x : Nat) (w : Nat) : Host.Outcome State Fault Refusal :=
        .next ((((s.past e 4).setG e rd ⟨tagU64, BitVec.ofNat 64 x⟩).setAstat e w).countInstr e)
      (tagNRaw (s.g e rs2).tag = true →
        exec (.addc e rd rs1 rs2) s = put (a + b + c) (astatOf (nibCarry a b c) false) ∧
        exec (.addcz e rd rs1 rs2) s = put (a + b) (astatOf (nibCarry a b 0) false) ∧
        exec (.subb e rd rs1 rs2) s = put (a + 2 ^ 65 - b - c) (astatOf (nibBorrow a b c) true) ∧
        exec (.subbz e rd rs1 rs2) s = put (a + 2 ^ 65 - b) (astatOf (nibBorrow a b 0) true)) ∧
      exec (.dadj e rd rs1) s = put (dadj a (s.astat e)).1 (setBits (s.astat e) 0 1 (dadj a (s.astat e)).2)) ∧
  (∀ (e : EngId) (rd rs1 rs2 : RegNo) (k : BitVec 4) (s : State), s.ready e 4 [.g rs1, .g rs2] →
      let a := (s.g e rs1).val.toNat
      let b := (s.g e rs2).val.toNat
      let put (t : Tag) (r : FRes) : Host.Outcome State Fault Refusal :=
        .next ((if r.2 = 0 then (s.past e 4).setG e rd ⟨t, BitVec.ofNat 64 r.1⟩
          else ((s.past e 4).setG e rd ⟨t, BitVec.ofNat 64 r.1⟩).setVfcsr e (orFlags (s.vfcsr e) r.2)).countInstr e)
      let quiet (r : FRes) : Prop := r.2 = 0 ∨ bits (s.vfcsr e) 16 1 = 0
      ((s.g e rs1).tag = tagDec → (s.g e rs2).tag = tagDec → d15Valid a = true → d15Valid b = true →
        (quiet (d15Res (d15Val a + d15Val b)) → exec (.dadd e rd rs1 rs2) s = put tagDec (d15Res (d15Val a + d15Val b))) ∧
        (quiet (d15Res (d15Val a - d15Val b)) → exec (.dsub e rd rs1 rs2) s = put tagDec (d15Res (d15Val a - d15Val b))) ∧
        exec (.dcmp e rd rs1 rs2) s = .next (((s.past e 4).setG e rd
          ⟨tagI64, if d15Val a < d15Val b then -1 else if d15Val a = d15Val b then 0 else 1⟩).countInstr e)) ∧
      ((s.g e rs1).tag = tagI64 → quiet (d15Res (s.g e rs1).val.toInt) → exec (.cvbd e rd rs1) s = put tagDec (d15Res (s.g e rs1).val.toInt)) ∧
      ((s.g e rs1).tag = tagDec → d15Valid a = true →
        exec (.cvdb e rd rs1) s = .next (((s.past e 4).setG e rd ⟨tagI64, BitVec.ofInt 64 (d15Val a)⟩).countInstr e) ∧
        (quiet (d15Shl k.toNat a) → exec (.dshl e rd rs1 k) s = put tagDec (d15Shl k.toNat a)) ∧
        (quiet (d15Shr k.toNat a) → exec (.dshr e rd rs1 k) s = put tagDec (d15Shr k.toNat a))))

/-- 07 R273 and R274: where every branch and jump goes, taken or not, and the link it writes. -/
def Obligations.BranchesAndJumps : Prop :=
  ∀ (e : EngId) (rs1 rs2 rl : RegNo) (code : BitVec 5) (off : BitVec 13) (off26 : BitVec 26) (off21 : BitVec 21) (i : BitVec 16) (s : State),
    s.ready e 4 [.g rs1, .g rs2] →
    let a := s.g e rs1
    let b := s.g e rs2
    let next := (s.pc e + 4) % 2 ^ 48
    let br (c : Bool) : Host.Outcome State Fault Refusal :=
      .next ((if c then (s.past e 4).setPc e (jumpTarget next off) else s.past e 4).countInstr e)
    (a.tag ≠ tagPoison → a.tag ≠ tagEmpty → b.tag ≠ tagPoison → b.tag ≠ tagEmpty →
      exec (.brcEq e rs1 rs2 off) s = br (decide (a.val = b.val)) ∧ exec (.brcNe e rs1 rs2 off) s = br (decide (a.val ≠ b.val))) ∧
    (tagNFixPtr a.tag = true → sameClass a.tag b.tag = true →
      exec (.brcLt e rs1 rs2 off) s = br (decide (a.val.toInt < b.val.toInt)) ∧ exec (.brcGe e rs1 rs2 off) s = br (decide (b.val.toInt ≤ a.val.toInt)) ∧
      exec (.brcLo e rs1 rs2 off) s = br (decide (a.val.toNat < b.val.toNat)) ∧ exec (.brcHs e rs1 rs2 off) s = br (decide (b.val.toNat ≤ a.val.toNat))) ∧
    (code.toNat < 16 →
      exec (.brcTeq e rs1 code off) s = br (decide (a.tag.toNat = code.toNat)) ∧ exec (.brcTne e rs1 code off) s = br (decide (a.tag.toNat ≠ code.toNat))) ∧
    exec (.go e off26) s = .next (((s.past e 4).setPc e (jumpTarget next off26)).countInstr e) ∧
    exec (.call e rl off21) s =
      .next ((((s.past e 4).setG e rl ⟨tagPtr, BitVec.ofNat 64 next⟩).setPc e (jumpTarget next off21)).countInstr e) ∧
    (a.tag = tagPtr → (a.val + i.signExtend 64).toNat % 4 = 0 → (a.val + i.signExtend 64).toNat < 2 ^ 48 →
      exec (.gor e rl rs1 i) s =
        .next ((((s.past e 4).setG e rl ⟨tagPtr, BitVec.ofNat 64 next⟩).setPc e (a.val + i.signExtend 64).toNat).countInstr e)) ∧
    exec (.nop e) s = .next ((s.past e 4).countInstr e)

/-- 07 R275 to R277: the system instructions that write a register, enter a handler, wait for stores or long vectors, or close a slot. 09 R326: RETX at S, P or M outside the escalation handler restores level, bank, program counter and idleness from ESTAT and EPC; at U it is privileged. Corners that the rules leave open are the model's choice: log entries 16 and 31. -/
def Obligations.SystemAndReturn : Prop :=
  (∀ (e : EngId) (rd : RegNo) (code mask : BitVec 16) (s : State), s.ready e 4 [] →
      let p := s.past e 4
      exec (.syscall e code) s = .next (p.takeException e ((s.pc e + 4) % 2 ^ 48) ⟨0x12, 0, code.toNat, 0, true⟩) ∧
      exec (.break e) s = .next (p.takeException e ((s.pc e + 4) % 2 ^ 48) ⟨0x13, 0, 0, 0, true⟩) ∧
      (p.atFence e = false → ((p.commitNow e).drainOut e).outBusy e = false →
        exec (.fence e) s = .next ((p.commitNow e).drainOut e) ∧ exec (.fenceI e) s = .next ((p.commitNow e).drainOut e)) ∧
      (p.atFence e = true → (p.drainOut e).outBusy e = false → ∃ t, t.regs = (p.drainOut e).regs ∧ (t.engine e).core = ((p.drainOut e).engine e).core ∧
        exec (.fence e) s = .next t ∧ exec (.fenceI e) s = .next t) ∧
      ((s.vsu e (s.core e).run).busy &&& mask.toNat = 0 → exec (.vwait e mask) s = .next (p.countInstr e)) ∧
      ((s.vsu e (s.core e).run).busy &&& mask.toNat ≠ 0 → exec (.vwait e mask) s = .next s) ∧
      (s.lev e ≤ 1 → exec (.slotyield e) s = .next ((p.closing e).countInstr e)) ∧
      (s.lev e = 3 → exec (.slotyield e) s = .next (p.takeException e (s.pc e) ⟨0x07, 0, 0xC4C00000, 0, false⟩)) ∧
      exec (.rdtime e rd) s = .next ((p.setG e rd ⟨tagTime, BitVec.ofNat 64 ((s.gav.cyc % 2 ^ 32) * 2 ^ 32 + s.gav.acc / 2 ^ 32 % 2 ^ 32)⟩).countInstr e) ∧
      (rd.toNat % 2 = 0 → exec (.rdtimes e rd) s =
        .next (((p.setG e rd ⟨tagTime, BitVec.ofNat 64 ((s.gav.cyc % 2 ^ 32) * 2 ^ 32 + s.gav.acc / 2 ^ 32 % 2 ^ 32)⟩).setG e (rd + 1)
          ⟨tagU64, BitVec.ofNat 64 (s.rd Reg.GAV_STAT Reg.GAV_STAT_STATE + s.rd Reg.GAV_STAT Reg.GAV_STAT_ACQ * 4 +
            s.rd Reg.GAV_STAT Reg.GAV_STAT_TAI_LOCK * 8)⟩).countInstr e)) ∧
      exec (.rdtai e rd) s = .next ((p.setG e rd ⟨tagU64, BitVec.ofNat 64 s.gav.tai⟩).countInstr e)) ∧
  (∀ (e : EngId) (s : State), s.ready e 4 [] →
      let l := s.lev e
      let sv := ((s.core e).bank (s.levBank e l)).save
      let st := sv.estat.toNat
      (l = 0 → exec (.retx e) s = .next ((s.past e 4).takeException e (s.pc e) ⟨0x08, 0, 0xC4400000, 0, false⟩)) ∧
      (1 ≤ l → (s.core e).feh = false → bits sv.eprog.toNat 45 1 = 0 → ∃ t : State,
        exec (.retx e) s = .next ((t.returned e).countInstr e) ∧
        (t.core e).lev = bits st 0 2 ∧ (t.core e).run = bits st 2 3 ∧ (t.core e).pc = sv.epc.toNat % 2 ^ 48 ∧
        (t.core e).idle = decide (bits st 5 1 = 1) ∧ bits ((t.core e).bank (s.levBank e l)).save.estat.toNat 14 1 = 1 ∧
        (l = 3 → bits ((t.core e).bank 7).save.estat.toNat 15 1 = 0) ∧
        (l < 3 → bits ((t.core e).bank (s.levBank e l)).save.estat.toNat 10 4 = bits st 6 4) ∧
        t.regs = s.regs ∧ t.mem = s.mem))

/-- 07 R252, R278 and R279, 00 R7, 09 R325: what CRR, CRW, CRS and CRC put into rd, and that they go on, at a level that may make the access; NITIME stands still while NI = 0 and goes on by a free count, short of 512, while NI = 1; a write of a register without a writable field is illegal, an access below the level is privileged, and a write of the locked FEHVEC answers ERR_PERM. Corners that the rules leave open are the model's choice: log entries 26 and 31. -/
def Obligations.ControlRegisterAccess : Prop :=
  ∀ (e : EngId) (rd rs1 : RegNo) (crn : BitVec 12) (i : CrInfo) (s : State), s.ready e 4 [.g rs1] → crInfo crn.toNat = some i →
    let p := s.past e 4
    let old := s.crRead e crn.toNat
    let v := (s.g e rs1).val.toNat
    let w1c (x : Nat) : Nat := x &&& (2 ^ 64 - 1 - (i.w1c &&& v))
    let keep := old &&& (2 ^ 64 - 1 - i.rw)
    let put (t : State) : Host.Outcome State Fault Refusal := .next ((if rd = rs1 then t else t.setG e rd ⟨tagU64, BitVec.ofNat 64 old⟩).countInstr e)
    let vsuAtU : Prop := s.lev e = 0 ∧ 0x010 ≤ crn.toNat ∧ crn.toNat ≤ 0x014
    (i.rl ≤ s.lev e → (crn = 0x145 → s.niM e = false) → exec (.crr e rd crn) s = .next ((p.setG e rd ⟨tagU64, BitVec.ofNat 64 old⟩).countInstr e)) ∧
    (i.rl ≤ s.lev e → crn = 0x145 → s.niM e = true → ∃ n, old ≤ n ∧ (old < 512 → n < 512) ∧ (512 ≤ old → n = old) ∧
      exec (.crr e rd crn) s = .next (((({ p with free := p.free + 1 } : State).modCore e fun c => { c with nitime := n }).setG e rd
        ⟨tagU64, BitVec.ofNat 64 n⟩).countInstr e)) ∧
    (i.wl ≤ s.lev e → i.wl < 4 → tagN (s.g e rs1).tag = true →
      (¬ (crn = 0x146 ∧ (s.core e).fehLocked = true) →
        (¬ (crn = 1 ∧ w1c (keep ||| (v &&& i.rw)) % 8 > 4) →
          exec (.crw e rd rs1 crn) s = put (p.crStore e crn.toNat (w1c (keep ||| (v &&& i.rw))))) ∧
        (i.wo = false → ¬ (crn = 1 ∧ (old ||| (v &&& i.rw)) % 8 > 4) →
          exec (.crs e rd rs1 crn) s = put (p.crStore e crn.toNat (old ||| (v &&& i.rw)))) ∧
        (i.wo = false →
          exec (.crc e rd rs1 crn) s = put (p.crStore e crn.toNat (w1c (keep ||| (old &&& i.rw &&& (2 ^ 64 - 1 - v))))))) ∧
      (crn = 0x146 → (s.core e).fehLocked = true → ∃ a, ∀ c ∈ [Instr.crw e rd rs1 crn, .crs e rd rs1 crn, .crc e rd rs1 crn], exec c s =
        .next (({ p with free := p.free + 1 } : State).takeException e (s.pc e) (trap cPerm a (accEscr 1 errPerm))))) ∧
    (s.lev e < i.rl → exec (.crr e rd crn) s = .next (p.takeException e (s.pc e) (privOp (encCtl rd 0 crn 0)))) ∧
    (i.wl = 4 → ¬ vsuAtU → exec (.crw e rd rs1 crn) s = .next (p.takeException e (s.pc e) (illegal (encCtl rd rs1 crn 1)))) ∧
    (s.lev e < i.wl → (i.wl < 4 ∨ vsuAtU) → exec (.crw e rd rs1 crn) s = .next (p.takeException e (s.pc e) (privOp (encCtl rd rs1 crn 1))))

/-- 07 R281 and 04 R169: FADD, FSUB, FMUL, FMA, FDIV, FSQRT, FMIN, FMAX, FNEG and FABS write FD and OR the flags of the result into VFCSR when no enabled trap is raised. 07 R281: FCMP, the conversions and the moves between the files. Corners that the rules leave open are the model's choice: log entry 28. -/
def Obligations.FloatingPoint : Prop :=
  (∀ (e : EngId) (fd fa fb : RegNo) (fmt : BitVec 2) (rm : BitVec 3) (num : Bool) (g : Fmt) (s : State), s.ready e 4 [.f fa, .f fb, .f fd] → fmtOf fmt = some g →
      let a := (s.f e fa).toNat % 2 ^ g.width
      let b := (s.f e fb).toNat % 2 ^ g.width
      let d := (s.f e fd).toNat % 2 ^ g.width
      let r := s.rmOf e rm
      let put (x : FRes) : Host.Outcome State Fault Refusal :=
        .next ((if x.2 = 0 then (s.past e 4).setF e fd (BitVec.ofNat 64 x.1)
          else ((s.past e 4).setF e fd (BitVec.ofNat 64 x.1)).setVfcsr e (orFlags (s.vfcsr e) x.2)).countInstr e)
      let quiet (x : FRes) : Prop := trapCause x.2 (s.vfcsr e) = 0
      (rm.toNat ≤ 5 →
        (quiet (g.add r a b) → exec (.fadd e fd fa fb fmt rm) s = put (g.add r a b)) ∧
        (quiet (g.sub r a b) → exec (.fsub e fd fa fb fmt rm) s = put (g.sub r a b)) ∧
        (quiet (g.mul r a b) → exec (.fmul e fd fa fb fmt rm) s = put (g.mul r a b)) ∧
        (quiet (g.fma r false false a b d) → exec (.fma e fd fa fb fmt rm) s = put (g.fma r false false a b d)) ∧
        (quiet (g.div r a b) → exec (.fdiv e fd fa fb fmt rm) s = put (g.div r a b)) ∧
        (quiet (g.sqrt r a) → exec (.fsqrt e fd fa fmt rm) s = put (g.sqrt r a))) ∧
      (quiet (g.minmax false num a b) → exec (.fmin e fd fa fb fmt num) s = put (g.minmax false num a b)) ∧
      (quiet (g.minmax true num a b) → exec (.fmax e fd fa fb fmt num) s = put (g.minmax true num a b)) ∧
      exec (.fneg e fd fa fmt) s = .next (((s.past e 4).setF e fd (BitVec.ofNat 64 (a ^^^ 2 ^ (g.width - 1)))).countInstr e) ∧
      exec (.fabs e fd fa fmt) s = .next (((s.past e 4).setF e fd (BitVec.ofNat 64 (a % 2 ^ (g.width - 1)))).countInstr e)) ∧
  (∀ (e : EngId) (rd fd fa fb : RegNo) (src fmt : BitVec 2) (rm cond : BitVec 3) (sig uns : Bool) (g : Fmt) (s : State), s.ready e 4 [.f fa, .f fb, .g fa] → fmtOf fmt = some g →
      let a := (s.f e fa).toNat % 2 ^ g.width
      let b := (s.f e fb).toNat % 2 ^ g.width
      let r := s.rmOf e rm
      let flags (x : FRes) (t : State) : Host.Outcome State Fault Refusal := .next ((if x.2 = 0 then t else t.setVfcsr e (orFlags (s.vfcsr e) x.2)).countInstr e)
      let quiet (x : FRes) : Prop := trapCause x.2 (s.vfcsr e) = 0
      let p := s.past e 4
      (cond ≠ 7 → quiet (g.cmp cond.toNat sig a b) → exec (.fcmp e rd fa fb fmt cond sig) s =
        flags (g.cmp cond.toNat sig a b) (p.setG e rd ⟨tagI64, BitVec.ofNat 64 (g.cmp cond.toNat sig a b).1⟩)) ∧
      (∀ q, fmtOf src = some q → src ≠ fmt → rm.toNat ≤ 5 → quiet (q.toFmt g r ((s.f e fa).toNat % 2 ^ q.width)) →
        exec (.fcvtFf e fd fa src fmt rm) s = flags (q.toFmt g r ((s.f e fa).toNat % 2 ^ q.width))
          (p.setF e fd (BitVec.ofNat 64 (q.toFmt g r ((s.f e fa).toNat % 2 ^ q.width)).1))) ∧
      (rm.toNat ≤ 5 → tagN (s.g e fa).tag = true →
        quiet (g.ofInt r (if uns then ((s.g e fa).val.toNat : Int) else (s.g e fa).val.toInt) 0) → exec (.fcvtFi e fd fa uns fmt rm) s =
          flags (g.ofInt r (if uns then ((s.g e fa).val.toNat : Int) else (s.g e fa).val.toInt) 0)
            (p.setF e fd (BitVec.ofNat 64 (g.ofInt r (if uns then ((s.g e fa).val.toNat : Int) else (s.g e fa).val.toInt) 0).1))) ∧
      (rm.toNat ≤ 5 → quiet (g.toIntRes r 0 (intLo (!uns) 64) (intHi (!uns) 64) 64 a) → exec (.fcvtIf e rd fa uns fmt rm) s =
        flags (g.toIntRes r 0 (intLo (!uns) 64) (intHi (!uns) 64) 64 a)
          (p.setG e rd ⟨if uns then tagU64 else tagI64, BitVec.ofNat 64 (g.toIntRes r 0 (intLo (!uns) 64) (intHi (!uns) 64) 64 a).1⟩)) ∧
      ((s.g e fa).tag ≠ tagPoison → (s.g e fa).tag ≠ tagEmpty → exec (.fmvGf e fd fa) s = .next ((p.setF e fd (s.g e fa).val).countInstr e)) ∧
      exec (.fmvFg e rd fa fmt) s =
        .next ((p.setG e rd ⟨if fmt = 2 then tagF64 else if fmt = 1 then tagF32x2 else tagI16x4, s.f e fa⟩).countInstr e))

/-- 04 R167 and R168: every short-vector operation on operands it accepts writes each element of VD from the elements of its sources. Corners that the rules leave open are the model's choice: log entry 28. -/
def Obligations.ShortVectorResults : Prop :=
  ∀ (e : EngId) (vd va vb : BitVec 3) (et dt : BitVec 4) (md : BitVec 3) (s : State), s.ready e 4 [.v va, .v vb, .v vd] →
    let n := 32 / etSize et.toNat
    let res (p o d : Nat) (y : BitVec 3) (i : Nat) : FRes :=
      pipeElem p o md.toNat (s.vfcsr e % 8) et.toNat (shortDest p o et.toNat d) (vElem et.toNat (s.vreg e va.toNat) i)
        (vElem et.toNat (s.vreg e y.toNat) i) (vElem et.toNat (s.vreg e vd.toNat) i)
    let fits (p o d : Nat) (y : BitVec 3) : Prop :=
      typesOk p o et.toNat et.toNat et.toNat (shortDest p o et.toNat d) true = true ∧ modOk p o et.toNat (shortDest p o et.toNat d) md.toNat false = true ∧
      etSize (shortDest p o et.toNat d) = etSize et.toNat ∧
      (checksDec p o et.toNat = true → ∀ i < n, d15Valid (vElem et.toNat (s.vreg e va.toNat) i) = true ∧
        (2 ≤ opArity p o → d15Valid (vElem et.toNat (s.vreg e y.toNat) i) = true)) ∧
      ∀ i < n, trapCause (res p o d y i).2 (s.vfcsr e) = 0
    let put (p o d : Nat) (y : BitVec 3) : Host.Outcome State Fault Refusal :=
      let rs := (List.range n).map (res p o d y)
      let v := (rs.zipIdx.map fun q => q.1.1 * 2 ^ (etBits (shortDest p o et.toNat d) * q.2)).sum
      let fl := rs.foldl (fun x r => x ||| r.2) 0
      .next ((if fl = 0 then (s.past e 4).setVreg e vd.toNat v else ((s.past e 4).setVreg e vd.toNat v).setVfcsr e (orFlags (s.vfcsr e) fl)).countInstr e)
    (fits 0 0 0 vb → exec (.shortVadd e vd va vb et md) s = put 0 0 0 vb) ∧
    (fits 0 1 0 vb → exec (.shortVsub e vd va vb et md) s = put 0 1 0 vb) ∧
    (fits 0 2 0 0 → exec (.shortVneg e vd va et md) s = put 0 2 0 0) ∧
    (fits 0 3 0 0 → exec (.shortVabs e vd va et md) s = put 0 3 0 0) ∧
    (fits 0 4 0 vb → exec (.shortVmin e vd va vb et md) s = put 0 4 0 vb) ∧
    (fits 0 5 0 vb → exec (.shortVmax e vd va vb et md) s = put 0 5 0 vb) ∧
    (fits 0 8 0 vb → exec (.shortVand e vd va vb et md) s = put 0 8 0 vb) ∧
    (fits 0 9 0 vb → exec (.shortVor e vd va vb et md) s = put 0 9 0 vb) ∧
    (fits 0 10 0 vb → exec (.shortVxor e vd va vb et md) s = put 0 10 0 vb) ∧
    (fits 0 11 0 vb → exec (.shortVandn e vd va vb et md) s = put 0 11 0 vb) ∧
    (fits 0 12 0 vb → exec (.shortVshl e vd va vb et md) s = put 0 12 0 vb) ∧
    (fits 0 13 0 vb → exec (.shortVshr e vd va vb et md) s = put 0 13 0 vb) ∧
    (fits 0 16 0 0 → exec (.shortVdchk e vd va et md) s = put 0 16 0 0) ∧
    (fits 1 0 0 vb → exec (.shortVmul e vd va vb et md) s = put 1 0 0 vb) ∧
    (fits 1 1 0 vb → exec (.shortVmulh e vd va vb et md) s = put 1 1 0 vb) ∧
    (fits 2 0 0 vb → exec (.shortVfma e vd va vb et md) s = put 2 0 0 vb) ∧
    (fits 2 1 0 vb → exec (.shortVdiv e vd va vb et md) s = put 2 1 0 vb) ∧
    (fits 2 2 0 0 → exec (.shortVsqrt e vd va et md) s = put 2 2 0 0) ∧
    (fits 3 16 dt.toNat 0 → exec (.shortVcvt e vd va et dt md) s = put 3 16 dt.toNat 0)

/-- 09 R318, R319, R321 and R327: what an exception that enters level l saves, and where the core goes on. Corners that the rules leave open are the model's choice: log entry 31. -/
def Obligations.ExceptionEntrySavesAndVectors : Prop :=
  ∀ (e : EngId) (epc : Nat) (x : Trap) (s : State),
    let c := s.core e
    let l := (s.route e x.cause).1
    let b := if l = 3 then 7 else if l = 2 then 6 else c.run
    let old := (c.bank b).save.estat.toNat
    c.feh = false → c.run < 8 → c.lev < 4 → ¬ (c.run < 6 ∧ 2 ≤ l) → (l = 3 → s.saved e 3 = true) →
    ∃ t : State, s.takeException e epc x = t ∧
      (t.core e).lev = l ∧ (t.core e).run = b ∧ (t.core e).pc = (c.bank b).evec.toNat % 2 ^ 48 ∧ (t.core e).idle = false ∧
      ((t.core e).bank b).save.epc = BitVec.ofNat 64 epc ∧ ((t.core e).bank b).save.ecause = BitVec.ofNat 64 (s.route e x.cause).2 ∧
      ((t.core e).bank b).save.eaddr = BitVec.ofNat 64 x.eaddr ∧ ((t.core e).bank b).save.eprog = BitVec.ofNat 64 x.eprog ∧
      ((t.core e).bank b).save.escr = BitVec.ofNat 64 x.escr ∧
      bits ((t.core e).bank b).save.estat.toNat 0 2 = c.lev ∧ bits ((t.core e).bank b).save.estat.toNat 2 3 = c.run ∧
      bits ((t.core e).bank b).save.estat.toNat 5 1 = b2n c.idle ∧ bits ((t.core e).bank b).save.estat.toNat 14 1 = 0 ∧
      (l < 3 → bits ((t.core e).bank b).save.estat.toNat 6 4 = bits old 10 4 ∧ bits ((t.core e).bank b).save.estat.toNat 10 4 = 15) ∧
      (l = 3 → bits ((t.core e).bank b).save.estat.toNat 15 1 = 1) ∧ (l = 3 → c.lev < 3 → (t.core e).nitime = 0) ∧
      (∀ k, k ≠ b → (t.core e).bank k = c.bank k) ∧ (∀ r, ((t.core e).bank b).getG r = (c.bank b).getG r) ∧
      (∀ d, d ≠ e.val → t.engine d = s.engine d) ∧ t.mem = s.mem ∧ t.regs = s.regs

/-- 09 R312: a tenant exception whose target is P or M is held in the tenant's bank, and the slot closes. Corners that the rules leave open are the model's choice: log entry 31. -/
def Obligations.TenantExceptionIsHeld : Prop :=
  ∀ (e : EngId) (epc : Nat) (x : Trap) (s : State),
    (s.core e).feh = false → (s.core e).run < 6 → 2 ≤ (s.route e x.cause).1 → ∃ t : State,
      s.takeException e epc x = t.closing e ∧
      ((t.core e).bank (s.core e).run).held = some ⟨BitVec.ofNat 64 (s.route e x.cause).2, BitVec.ofNat 64 x.eaddr, BitVec.ofNat 64 x.eprog,
        BitVec.ofNat 64 x.escr, (s.route e x.cause).1, false⟩ ∧
      ((t.core e).bank (s.core e).run).heldpc = (if x.next then (epc + 2 ^ 48 - 4) % 2 ^ 48 else epc) ∧ ((t.core e).bank (s.core e).run).heldlev = s.lev e ∧
      t.rd (Reg.ENG_EXC_HELDCNT e) Reg.ENG_EXC_HELDCNT_COUNT = min (s.rd (Reg.ENG_EXC_HELDCNT e) Reg.ENG_EXC_HELDCNT_COUNT + 1) (2 ^ Reg.ENG_EXC_HELDCNT_COUNT.w - 1)

/-- 09 R313 to R325, R328 and R330: each entry, and each command of the handlers, when its condition holds. 09 R314 and R319, 03 R115: the writes of EVEC_M, BANKCMD and VCTRL.CLEAR at a level that may make them. Corners that the rules leave open are the model's choice: log entries 16 and 31. -/
def Obligations.EntriesHandlersAndCommands : Prop :=
  (∀ (e : EngId) (late : Bool) (s : State), s.canEnter e = true →
      let c := s.core e
      let settled : Prop := s.promptDue e = none ∧ s.inProgress e = none ∧ (c.idle = false → (c.bank c.run).slotExp = none)
      let quiet : Prop := settled ∧ (c.idle = false → (∀ d ∈ c.deferred, d.bank ≠ c.run) ∧ s.faultWaits e = none)
      (∀ t, s.canIssue e = true → s.fetchTrap e = some t → exec (.exceptionEntry e) s = .next (s.takeException e c.pc t)) ∧
      (∀ n, s.promptDue e = none → s.inProgress e = none → c.idle = false → (c.bank c.run).slotExp = some n → exec (.exceptionEntry e) s =
        .next (((s.modBank e c.run fun x => { x with slotExp := none }).takeException e c.pc ⟨0x0E, 0, n, 0, false⟩).modBank e c.run fun x =>
          { x with gate := .behind 0 })) ∧
      (∀ d, settled → c.idle = false → c.deferred.find? (fun d => d.bank == c.run) = some d → exec (.storeDeferredError e) s =
        .next ((s.modAsync e fun c => { c with deferred := c.deferred.erase d }).takeException e c.pc ⟨d.cause, d.ea, d.escr, 2 ^ 46, false⟩)) ∧
      (∀ f, settled → c.idle = false → (∀ d ∈ c.deferred, d.bank ≠ c.run) → (∀ n, (c.bank c.run).gate ≠ .behind n) → s.faultWaits e = some f →
        (s.canIssue e = true → s.fetchTrap e = none) → exec (.exceptionEntry e) s =
          .next ((s.modBank e c.run fun x => { x with faultTaken := true, gate := .free }).takeException e c.pc ⟨f.cause, f.eaddr, f.escr, f.eprog.toNat, false⟩)) ∧
      (c.feh = true → exec (.fehTimeout e) s = .next (s.retireEngine e 3)) ∧
      (∀ l i, quiet → c.feh = false → s.heldReady e = none → s.irqTaken e = some (l, i) → exec (.interruptEntry e) s =
        .next (s.enter e l 0x80 c.pc (0x20 + s.prio i / 2) 0 0 0)) ∧
      (∀ p, c.promptHeld = some p → p.inRec = false → s.promptHold e (s.tenantSlot e && (p.late || late)) = false → exec (.promptEntry e late) s =
        .next (((s.modCore e fun c => { c with promptHeld := none }).enter e 3 0x100 c.pc (0x20 + s.prio p.src / 2 + 2 ^ 20) 0 0 0).modCore e fun c =>
          { c with prompting := some (c.prompting.getD 0) })) ∧
      (∀ p, c.promptHeld = some p → (p.inRec = true ∨ s.promptHold e (s.tenantSlot e && (p.late || late)) = true) → exec (.promptEntry e late) s =
        .next (s.modAsync e fun c => { c with promptHeld := some { p with late := s.tenantSlot e && (p.late || late) } })) ∧
      (∀ b h, quiet → c.heldWaits = some (b, h) → s.platformTime e = true → c.feh = false →
        (if h.target = 3 then s.saved e 3 = true ∧ s.niM e = false else c.lev ≤ 2 ∧ s.saved e 2 = true ∧ s.iml e 2 ≠ 15) →
        exec (.heldDelivery e) s = .next ((s.modBank e b fun x => { x with held := some { h with sent := true } }).enter e h.target 0 c.pc
          (h.ecause.toNat + 2 ^ 16 + b * 2 ^ 17) h.eaddr.toNat h.eprog.toNat h.escr.toNat)) ∧
      (s.niM e = true → ∃ t : State, bits ((t.core e).bank 7).save.estat.toNat 15 1 = 0 ∧ (t.core e).nitime = 512 ∧
        t.rd (Reg.ENG_EXC_NIOVR e) Reg.ENG_EXC_NIOVR_COUNT = min (s.rd (Reg.ENG_EXC_NIOVR e) Reg.ENG_EXC_NIOVR_COUNT + 1) (2 ^ Reg.ENG_EXC_NIOVR_COUNT.w - 1) ∧
        exec (.niTimeout e) s = .next (t.recordCode 0x1C04 sevWarning (unitEngine e) ((c.bank 7).save.ecause.toNat % 2 ^ 32)
          ((c.bank 7).save.epc.toNat % 2 ^ 32) 0)) ∧
      (∀ a, (s.engine e).promptCopy = some a →
        let r0 := s.lvReadLine e 3 0 ((a + 0x100) % 2 ^ 48) none
        let r1 := r0.2.2.lvReadLine e 3 0 ((a + 0x140) % 2 ^ 48) none
        let r2 := r1.2.2.lvReadLine e 3 0 ((a + 0x180) % 2 ^ 48) none
        let r3 := r2.2.2.lvReadLine e 3 0 ((a + 0x1C0) % 2 ^ 48) none
        exec (.promptCopyDone e) s =
          .next (r3.2.2.modEngine e fun x => { x with prompt := r0.2.1 ++ r1.2.1 ++ r2.2.1 ++ r3.2.1, promptCopy := none }))) ∧
  (∀ (e : EngId) (v : Word) (s : State), s.ready e 4 [] →
      let p := s.past e 4
      let b := (s.core e).banksel
      (s.lev e = 3 → exec (.evecM e v) s = .next ((p.setEvecM e (v.toNat % 2 ^ 48 / 256 * 256)).countInstr e)) ∧
      (2 ≤ s.lev e → b < 6 → ((s.core e).bank b).held.isSome = true →
        exec (.resume e) s = .next ((p.modBank e b fun x => { x with held := none, rpc := x.heldpc, rlev := x.heldlev }.mark 8).countInstr e) ∧
        exec (.vacate e) s = .next ((p.vacateBank e b).countInstr e)) ∧
      (1 ≤ s.lev e → exec (.clear e) s = .next ((p.lvClearRun e).countInstr e)) ∧
      (s.lev e = 0 → exec (.clear e) s = .next (p.takeException e (s.pc e) (privOp (encCtl 0 0 0x011 1)))))

/-- 01 R28 to R38, 10 R363: a slot starts, its usable part ends, it ends, and platform time is cut off before the next delivery. Corners that the rules leave open are the model's choice: log entries 32 and 34. -/
def Obligations.SlotDelivery : Prop :=
  ∀ (e : EngId) (n : Fin 64) (s : State),
    let k := (s.engine e).inSlot
    (s.slotEnabled e n = true → ¬ (s.hoPhase (clusterOf e) = 4 ∧ s.hoSrc (clusterOf e) = e) → (s.engine e).stopped = false → k = none →
      s.flag (Reg.ENG_TNG_STAT e) Reg.ENG_TNG_STAT_RECOV = false → (s.core e).feh = false → (s.core e).idle = true →
      ∃ t : State, exec (.slotStart e n) s = .next (t.beginSlot e n) ∧ t.rd (Reg.ENG_SLOT_STAT e) Reg.ENG_SLOT_STAT_CUR = n ∧
        t.rd (Reg.ENG_SLOT_STAT e) Reg.ENG_SLOT_STAT_REMAIN = s.rd (Reg.ENG_SLOTB e n) Reg.ENG_SLOTB_BUDGET ∧ (t.engine e).cutoff = false ∧ t.core e = s.core e) ∧
    (s.slotEnabled e n = false → exec (.slotStart e n) s = .next s) ∧
    (∀ t : State, t = s.wr (Reg.ENG_SLOT_STAT e) Reg.ENG_SLOT_STAT_REMAIN 2000 → k.isSome = true →
      t.flag (Reg.ENG_TNG_STAT e) Reg.ENG_TNG_STAT_RECOV = false → t.slotPhase e = 1 → t.holdsOn e = false →
      exec (.usablePartEnd e) s = .next (t.preempt e)) ∧
    (∀ t : State, t = s.wr (Reg.ENG_SLOT_STAT e) Reg.ENG_SLOT_STAT_REMAIN 2000 → k.isSome = true → t.slotPhase e = 1 →
      (t.flag (Reg.ENG_TNG_STAT e) Reg.ENG_TNG_STAT_RECOV = true ∨ t.holdsOn e = true) →
      exec (.usablePartEnd e) s = .next (t.modEngine e fun x => { x with closePending := true })) ∧
    (∀ t : State, t = s.wr (Reg.ENG_SLOT_STAT e) Reg.ENG_SLOT_STAT_REMAIN 0 → k.isSome = true →
      ((t.leaveSlot e).engine e).inSlot = none ∧
      (t.flag (Reg.ENG_TNG_STAT e) Reg.ENG_TNG_STAT_RECOV = false → t.holdsOn e = false →
        exec (.slotEnd e) s = .next ((if t.slotPhase e = 1 then t.preempt e else t).leaveSlot e)) ∧
      (t.flag (Reg.ENG_TNG_STAT e) Reg.ENG_TNG_STAT_RECOV = true → 2 ≤ (s.engine e).reserveRec → exec (.slotEnd e) s =
        .next (((t.modAsync e fun c => c.park (t.curBank e)).wr (Reg.ENG_TNG_STAT e) Reg.ENG_TNG_STAT_RECOV 0).leaveSlot e))) ∧
    ((s.tenantSlot e = true ∨ (s.core e).idle = true) → exec (.platformTimeCutoff e) s = .next (s.modEngine e fun x => { x with cutoff := true })) ∧
    (s.tenantSlot e = false → (s.core e).idle = false → (s.core e).feh = false → (s.core e).prompting = none → (s.engine e).stopped = false →
      s.flag (Reg.ENG_TNG_STAT e) Reg.ENG_TNG_STAT_RECOV = false → k = none →
      exec (.platformTimeCutoff e) s = .next ((s.modEngine e fun x => { x with cutoff := true }).parkPlat e))

/-- 10 R353 to R367 and R383: a checkpoint completes, a recovery rolls an engine back to its checkpoint, and it ends. Corners that the rules leave open are the model's choice: log entry 33. -/
def Obligations.CheckpointAndRecovery : Prop :=
  ∀ (e : EngId) (kind : Fin 5) (grp : Fin 24) (ma : BitVec 15) (late : Bool) (s : State),
    let x := s.engine e
    (∀ c, x.commit = some c → ∃ t : State,
      t = (s.modEngine e fun y => { y with ckpt := c.core, commit := none, out := y.out ++ y.stores.take c.nstores, stores := y.stores.drop c.nstores }).drainOut e ∧
      exec (.checkpointComplete e) s = .next (t.setReg (Reg.ENG_TNG_CKPT e) (t.reg (Reg.ENG_TNG_CKPT e) + 1))) ∧
    (x.commit = none → exec (.checkpointComplete e) s = .next s) ∧
    (x.stopped = false → s.flag (Reg.ENG_TNG_STAT e) Reg.ENG_TNG_STAT_RECOV = false → (recent s.gav.mono x.recHist).length < 3 → x.inSlot = none →
      ¬ (s.hoPhase (clusterOf e) = 1 ∨ s.hoPhase (clusterOf e) = 2) → s.heldSlice (clusterOf e) (posOf e) = none → kindGrp kind grp = true → ∃ t : State,
      exec (.lockstepRecovery (some e) kind grp ma [] false) s = .next t ∧ t.core e = x.ckpt ∧ (t.engine e).stores = [] ∧ (t.engine e).commit = none ∧
      (t.engine e).lock = none ∧ (t.engine e).icount = 0 ∧ t.flag (Reg.ENG_TNG_STAT e) Reg.ENG_TNG_STAT_RECOV = true) ∧
    ((recent s.gav.mono s.upd.stw).length < 3 → exec (.lockstepRecovery none kind grp ma [] false) s =
      .next ({ s with upd := { s.upd with stw := (recent s.gav.mono s.upd.stw).take 3 } } : State)) ∧
    (∀ t : State, t = s.wr (Reg.ENG_TNG_STAT e) Reg.ENG_TNG_STAT_RECOV 0 → s.flag (Reg.ENG_TNG_STAT e) Reg.ENG_TNG_STAT_RECOV = true → x.inSlot = none → t.slotPhase e ≠ 2 →
      ∀ u : State, u = (((t.assert (848 + clusterOf e)).recordReg (848 + clusterOf e) (unitEngine e) (Reg.ENG_TNG_MISM e)).resumeSlots e).stopPlat e →
      (u.core e).promptHeld = none → exec (.recoveryEnd (some e) late) s = .next u) ∧
    exec (.recoveryEnd none late) s = .next ((s.assert 896).record 896 unitSteward 0 0 0)

/-- 10 R372, R377 to R382 and 17 R549: the commands of CLU_HOCMD from the Steward in the states that allow them, and the events of a takeover, a handover and a test. Corners that the rules leave open are the model's choice: log entry 33. -/
def Obligations.ClusterRedundancy : Prop :=
  ∀ (c i p : Fin 16) (timeout : BitVec 16) (flags : BitVec 24) (good : Bool) (s : State),
    let e := c.val * 13 + p.val
    let idle := s.hoPhase c = 0 ∨ s.hoPhase c = 6 ∨ s.hoPhase c = 7
    (s.hoCan c i = true →
      exec (.handover .steward c i timeout) s = .next ((s.hoStart c i false timeout.toNat).reply respOk []) ∧
      exec (.retire .steward c i timeout) s = .next ((s.hoStart c i true timeout.toNat).reply respOk [])) ∧
    (p.val < 13 → (s.role e = 2 ∨ s.role e = 3) → s.rd (Reg.ENG_TNG_STAT e) Reg.ENG_TNG_STAT_RETCNT ≠ 3 → idle →
      exec (.test .steward c p) s = .next ((((s.wr (Reg.CLU_HOSTAT c) Reg.CLU_HOSTAT_SRC p).setRole e 4).setHoPhase c 5).reply respOk [])) ∧
    (∀ k, p.val < 13 → s.role e = 5 → s.rd (Reg.CLU_RED c) Reg.CLU_RED_MODE ≠ 0 → ((List.range 12).find? fun i => s.spmap c i == 15) = some k →
      exec (.reinstate .steward c p) s = .next ((((((((s.freshIndex e (c.val * 12 + k)).setSpmap c k p).setRole e 0).modEngine e
        fun x => { x with ring := { x.ring with lost := true } })).showRed c).refreshAll).reply respOk [])) ∧
    (p.val < 13 → s.role e = 5 → s.rd (Reg.CLU_RED c) Reg.CLU_RED_MODE ≠ 0 → ((List.range 12).find? fun i => s.spmap c i == 15) = none →
      exec (.reinstate .steward c p) s = .next (((((s.modEngine e Engine.emptied).setRole e 1).setSpare c p).showRed c).reply respOk [])) ∧
    ((s.hoPhase c = 1 ∨ s.hoPhase c = 2) → exec (.abort .steward c) s = .next ((s.hoAbandon c).reply respOk [])) ∧
    (∀ r : Requester, r ≠ .steward → exec (.abort r c) s = .next (s.reply errPerm []) ∧ exec (.handover r c i timeout) s = .next (s.reply errPerm [])) ∧
    (s.hoPhase c = 1 → flags = BitVec.allOnes 24 → ∀ t : State, t = s.selfTest (s.hoDst c) flags →
      exec (.precopyDone c flags) s = .next (((t.foxAbandon (t.hoSrc c)).copyLvs (t.hoSrc c) (t.hoDst c)).waitGap c)) ∧
    (s.hoPhase c = 1 → flags ≠ BitVec.allOnes 24 → ∀ t : State, t = s.selfTest (s.hoDst c) flags →
      exec (.precopyDone c flags) s = .next (t.retireEngine (t.hoDst c) 3)) ∧
    (s.hoPhase c = 2 → s.gapTimedOut c = true → exec (.handoverTimeout c) s = .next (s.hoAbandon c)) ∧
    (s.hoPhase c = 5 → exec (.engineTestDone c flags good) s =
      .next (((s.selfTest (s.hoSrc c) flags).setRole (s.hoSrc c) (if good = true ∧ s.storesGood (s.hoSrc c) = true ∧ flags = BitVec.allOnes 24 then 5 else 6)).setHoPhase c 6)) ∧
    (∀ t u v : State, s.hoPhase c = 2 → (s.engine (s.hoSrc c)).inSlot = none →
      s.flag (Reg.ENG_TNG_STAT (s.hoSrc c)) Reg.ENG_TNG_STAT_RECOV = false → (s.engine (s.hoSrc c)).stopped = false → (s.engine (s.hoSrc c)).pend = [] →
      (s.core (s.hoSrc c)).feh = false → s.gapFits c = true → (s.handover c).1 = false →
      t = ((s.parkPlat (s.hoSrc c)).setHoPhase c 3).swapIndex c 1 → u = t.resumePlat (t.hoDst c) →
      v = ((u.count (Reg.CLU_HOCNT c) Reg.CLU_HOCNT_HANDOVERS 1).setHoPhase c 6) → v.updRuns c = false → exec (.handoverSwap c) s = .next v.updGo) ∧
    (∀ t : State, s.hoPhase c = 4 → s.role (s.hoDst c) ≠ 7 → s.rd (Reg.ENG_CHN_CFG (s.hoSrc c)) Reg.ENG_CHN_CFG_POS = 0 →
      t = ((s.swapIndex c (s.engine (s.hoSrc c)).retireRole).count (Reg.CLU_HOCNT c) Reg.CLU_HOCNT_TAKEOVERS 1).setHoPhase c 6 →
      exec (.takeoverSwap c) s = .next ((t.retireEvent c).updLost c))

/-- 03 R89 to R95, R119 to R121 and 05 R171: a long-vector operation (VADD, VSUB, VNEG, VABS, VMIN, VMAX, VCMP, VSEL, VAND, VOR, VXOR, VANDN, VSHL, VSHR, VDCHK, VDSHL, VDSHR, VMUL, VMULH, VMULW, VDOT, VFMA, VDIV, VSQRT, VRSUM, VRMIN, VRMAX, VSCAN, VZIP, VUNZIP, VBFLY, VCVT), CHAIN, COPY or FILL that passes the checks of issue enters a free queue entry with its operands copied, and its issue is a commit point; one with no element completes. Corners that the rules leave open are the model's choice: log entry 29. -/
def Obligations.LongVectorIssue : Prop :=
  ∀ (i : Instr) (e : EngId) (a : LvAsk) (p1w : BitVec 32) (s p : State), longVector i = some (e, a, p1w) → s.ready e 8 (s.lvReads e a p1w.toNat) → p = s.past e 8 →
    s.pc e < 2 ^ 48 →
    let p1 := p1w.toNat
    let b := (s.core e).run
    let named (k : Nat) : Prop := useBit p1 k = true → (s.lvReg e p1 k 0).tag = tagDesc ∧ (s.lvReg e p1 k 1).tag = tagDesc
    (named a.governing → ((s.lvDesc e p1 a.governing).any fun d => decide (dLen d ≤ dStart d)) = true → exec i s = .next (p.commitPoint e)) ∧
    (∀ (f : LvForm) (sc : Option Nat) (q : Nat), (∀ k < 4, named k) →
      ((s.lvDesc e p1 a.governing).any fun d => decide (dLen d ≤ dStart d)) = false → s.lvFormIs e p1 a f sc →
      let x := s.lvEntry e (s.pc e) p1 f sc
      p.lvIllegal e a p1 x a.moves = false → p.pflAway e x = false → p.lvAddrTrap e x = none →
      ((if x.d.any dPfl then [4, 5] else [0, 1, 2, 3]).find? fun q => ((s.vsu e b).ent q).isNone) = some q →
      exec i s = .next (((p.modVsu e b fun v => { v with ents := v.ents ++ [{ x with qe := q, ranges := p.lvRanges e x }] }).modEngine e
        fun z => { z with newLv := some (b, q) }).commitPoint e))

/-- 03 R97, R109, R115, R116, R121 and R129, 10 R366: a block of an instruction outside a chain of engines commits, faults or rewinds, and the last acknowledgement or a late error ends its write. Corners that the rules leave open are the model's choice: log entry 29. -/
def Obligations.LongVectorProgress : Prop :=
  ∀ (e : EngId) (b : Fin 8) (q : Fin 6) (blk : BitVec 18) (resp : BitVec 3) (x : LvEntry) (s : State),
    (∀ lo hi c : _, (s.vsu e (s.vsuBank e)).ent q = some x → s.lvReady e (s.vsuBank e) x = true → x.ring = false →
      lo = x.elem → hi = min ((lo / 64 + 1) * 64) x.len → c = s.lvCompute e (s.vsuBank e) x lo hi x.carry [] → c.1.wait = false →
      (c.1.fault = none → s.lineRoom e c.1.writes = true → exec (.lvBlockCommit e q) s =
        .next (c.2.lvCommit e (s.vsuBank e) q lo hi c.1.writes c.1.stage.or c.1.stage.carry (c.1.stage.carry != []))) ∧
      (∀ f, c.1.fault = some f → exec (.lvBlockCommit e q) s = .next (c.2.freezeLv e (s.vsuBank e) q (f.elem % 64) f.st (s.cstepOf e x f.step) false
        f.cause f.eaddr (s.lvEscr e x f) f.xc))) ∧
    ((s.vsu e (s.vsuBank e)).ent q = some x → s.lvReady e (s.vsuBank e) x = true → x.ringDst = false →
      ∀ t : State, t = (s.count (Reg.ENG_VSU_REWIND e) Reg.ENG_VSU_REWIND_COUNT 1).modEnt e (s.vsuBank e) q (fun y => { y with rewinds := y.rewinds + 1 }) →
      exec (.residueRewind e (some q)) s = .next (if x.rewinds < 7 then t else t.retireEngine e 2)) ∧
    exec (.residueRewind e none) s = .next (s.count (Reg.ENG_TNG_SVRETRY e) Reg.ENG_TNG_SVRETRY_COUNT 1) ∧
    ((s.vsu e b).ent q = some x → exec (.lvComplete e b q) s =
      .next ((s.modEnt e b q fun y => { y with unacked := y.unacked.filter fun p => p.2 != respOk }).lvRetire e b q)) ∧
    ((s.vsu e b).ent q = none → exec (.lvComplete e b q) s =
      .next (s.modVsu e b fun v => { v with drain := v.drain.filter fun x => x.qe != q.val })) ∧
    (∀ p r, (s.vsu e b).ent q = some x →
      (((x.unacked.filter fun p => p.1 / 64 == blk.toNat).find? fun p => p.2 != respOk).or (x.unacked.filter fun p => p.1 / 64 == blk.toNat).head?) = some p →
      r = (if p.2 = respOk then resp.toNat else p.2) → r ≠ respOk → (s.vsu e b).frozen = false →
      exec (.lvDeferredWriteError e b q blk resp) s =
        .next (((s.modEnt e b q fun y => { y with elem := p.1, unacked := y.unacked.filter fun z => z.1 != p.1 }).freezeLv e b q 0 3 (s.cstepOf e x 0) true
          (if r = errInteg then cInteg else if r = errPerm then cPerm else cBus)
          (dElem (x.d.getD (0, 0)) (x.dposOf (p.1 - x.start))) (accEscr 3 r) 0).count (Reg.ENG_VSU_DEFER e) Reg.ENG_VSU_DEFER_COUNT 1))

/-- 05 R181 to R192: what each item of a ring link does on arrival, and how the tail decides a block and a member completes its freeze. Corners that the rules leave open are the model's choice: log entry 30. -/
def Obligations.RingLinks : Prop :=
  ∀ (e : EngId) (bad g more : Bool) (n st k : Nat) (tag : Tag) (bs : List Byte) (i : FreezeInfo) (r : RingBlock) (rest : List RingBlock)
    (down : List LinkItem) (up : List UpItem) (s : State),
    ((s.ring e).inLink = .header n st :: down → exec (.ringBeatReceive e bad) s =
      .next (s.modRing e fun r => { r with inLink := r.inLink.drop 1, cin := r.cin ++ [.header n st], synced := true })) ∧
    ((s.ring e).inLink = .beat tag bs more :: down → (s.ring e).synced = true → exec (.ringBeatReceive e false) s =
      .next (s.modRing e fun r => { r with inLink := r.inLink.drop 1, cin := r.cin ++ [.beat tag bs more] })) ∧
    ((s.ring e).inLink = .beat tag bs more :: down → (s.ring e).synced = false → exec (.ringBeatReceive e false) s =
      .next ((s.modRing e fun r => { r with inLink := r.inLink.drop 1 }).returnCredit e (if more then 0 else 1))) ∧
    ((s.ring e).inLink = .endMarker g :: down → (s.ring e).synced = true → exec (.endMarker e) s =
      .next (s.modRing e fun r => { r with inLink := down, cin := r.cin ++ [.endMarker g] })) ∧
    ((s.ring e).inLink = .rewindMarker :: down → exec (.rewindMarker e) s =
      .next (((s.dropBeats e).count (Reg.ENG_VSU_REWIND e) Reg.ENG_VSU_REWIND_COUNT 1).sendDown e [.rewindMarker])) ∧
    ((s.ring e).inLink = .pauseMarker :: down → exec (.pauseMarker e) s = .next ((s.dropBeats e).sendDown e [.pauseMarker])) ∧
    ((s.ring e).upLink = .credit n :: up → exec (.creditReturn e) s =
      .next (s.modRing e fun r => { r with upLink := up, credit := min 64 (r.credit + n) })) ∧
    ((s.ring e).blocks = r :: rest → r.good = true → s.lineRoom e r.writes = true → (((s.vsu e r.bank).ent r.qe).any fun x => x.ringDst) = false →
      exec (.blockDecide e) s = .next ((s.ringCommit e r rest).sendUp e (.commit r.blk))) ∧
    ((s.ring e).upLink = .commit k :: up → (s.ring e).blocks = r :: rest → s.lineRoom e r.writes = true → exec (.commitSignal e) s =
      .next (((s.modRing e fun r => { r with upLink := up }).ringCommit e r rest).sendUp e (.commit r.blk))) ∧
    ((s.ring e).upLink = .freeze i :: up → exec (.freezeSignal e true) s =
      .next (((s.modRing e fun r => { r with upLink := up }).takeFreeze e i false none).sendUp e (.freeze i))) ∧
    ((s.ring e).inLink = .freeze i :: down → exec (.freezeSignal e false) s =
      .next (((s.modRing e fun r => { r with inLink := down }).takeFreeze e i true none).sendDown e [.freeze i])) ∧
    (∀ b x, (s.ring e).freeze = some i → s.ringEnt e = some (b, x) → i.blk ≤ x.elem / 64 → (s.ring e).blocks = [] → (s.ring e).own = none →
      exec (.freezeComplete e) s = .next (((s.freezeLv e b x.qe 0 0 (s.cstepOf e x 0) false cChainFault 0 i.escr 0).modRing e
        fun r => { r with freeze := none, own := none, cleared := none }).count (Reg.ENG_CHN_FREEZE e) Reg.ENG_CHN_FREEZE_COUNT 1))

/-- 06 R200, R218 to R220 and 11 R387, R398, R407: a master that may not reach the line is refused; another's request at a slice with no open lock, to a line that no master holds dirty, whose remap entry stands and whose codeword is sound, reads the line, replaces it, or merges into it. Corners that the rules leave open are the model's choice: log entries 10, 12, 42 and 48. -/
def Obligations.LineReadsAndWrites : Prop :=
  ∀ (x : Xact) (l : LineNo) (ws : Line) (data : List (Fin 64 × Byte)) (tags : List (Fin 8 × Tag)) (s p : State),
    let key := if x.mid.val = 24 ∨ 26 ≤ x.mid.val then 0 else x.key.toNat
    let new := assoc (data.map fun p => (p.1.val, p.2))
    let tg := assoc (tags.map fun p => (p.1.val, p.2))
    (s.dramBarred x.mid x.pos l = true → exec (.lineRead x l .clean) s = .next (s.reply errPerm poisonLine) ∧
      exec (.fullLineWrite x l ws) s = .next (s.reply errPerm []) ∧ exec (.partialLineWrite x l data tags .clean) s = .next (s.reply errPerm [])) ∧
    (s.dramBarred x.mid x.pos l = false → s.place (l * 64) ≠ none → (s.lockUnit (s.sliceOf (l * 64))).held = false → s.keyErr l key = false →
      s.remapLost l .clean = false →
    (p = s.takeSlots l 1 → s.dirtyLine l = none → s.finds l .clean = .clean →
      ((s.line l).st = 0 → s.itagOk l key = true → exec (.lineRead x l .clean) s = .next (p.reply respOk (s.lineWords l))) ∧
      ((s.line l).st = 1 → exec (.lineRead x l .clean) s = .next (p.reply respOk emptyLine)) ∧
      (2 ≤ (s.line l).st → exec (.lineRead x l .clean) s = .next ((p.slcLog (p.sliceOf (l * 64)) 4 l key).reply errPoison poisonLine)) ∧
      ((s.line l).st = 0 → s.itagOk l key = false → exec (.lineRead x l .clean) s = .next ((p.integEvent l key).reply errInteg poisonLine))) ∧
    (p = s.takeSlots l 1 → s.dirtyLine l = none → s.finds l .clean = .uncorrectable →
      exec (.lineRead x l .clean) s = .next ((p.lineUe l key).reply errPoison poisonLine)) ∧
    (p = s.takeSlots l 1 → exec (.fullLineWrite x l ws) s = .next (((p.setDir l DirEntry.none).storeLine l key ws.toList).reply respOk [])) ∧
    (p = s.takeSlots l 2 → s.dirtyLine l = none → s.finds l .clean = .clean →
      coversLine (data.map fun p => (p.1.val, p.2)) (tags.map fun p => (p.1.val, p.2)) = false →
      ((s.line l).st = 0 → s.itagOk l key = true → exec (.partialLineWrite x l data tags .clean) s =
        .next (((p.setDir l DirEntry.none).storeLine l key (mergeLine (s.lineWords l) new tg)).reply respOk [])) ∧
      ((s.line l).st = 1 → exec (.partialLineWrite x l data tags .clean) s =
        .next (((p.setDir l DirEntry.none).storeLine l key (mergeLine emptyLine new tg)).reply respOk []))))

/-- 06 R218 and R219: a line read after a full-line write under the same KEYID answers the words written, with their tags. -/
def Obligations.ReadAfterFullLineWrite : Prop :=
  ∀ (x y : Xact) (l : LineNo) (ws : Line) (s : State),
    let key := if x.mid.val = 24 ∨ 26 ≤ x.mid.val then 0 else x.key.toNat
    s.place (l * 64) ≠ none → (s.lockUnit (s.sliceOf (l * 64))).held = false → s.keyErr l key = false → s.remapLost l .clean = false →
    (if y.mid.val = 24 ∨ 26 ≤ y.mid.val then 0 else y.key.toNat) = key → s.dramBarred x.mid x.pos l = false → s.dramBarred y.mid y.pos l = false →
    ∃ t u : State, exec (.fullLineWrite x l ws) s = .next t ∧ t.answer.resp = 0 ∧ exec (.lineRead y l .clean) t = .next u ∧
      u.answer.resp = 0 ∧ u.answer.data = ws.toList

/-- 11 R387, R393, R407 to R412: the default target's answer, the requests of caching masters, evictions and snoops. Corners that the rules leave open are the model's choice: log entries 42 and 48. -/
def Obligations.CoherenceAndDefaultTarget : Prop :=
  ∀ (x : Xact) (a : BitVec 48) (c : Fin 17) (pos : Fin 13) (key : BitVec 13) (l : LineNo) (ws : Line) (s p : State),
    let d := s.dirEntry l
    let alone : DirEntry := ⟨3, setBits 0 c 1 1, key.toNat, 0, keepCores d.cores (setBits 0 c 1 1)⟩
    (27 ≤ x.mid.val → exec (.defaultTargetAccess x a) s = .next (s.reply 5 [⟨0xF, 0⟩])) ∧
    (x.mid.val < 27 → ∃ t : State, exec (.defaultTargetAccess x a) s = .next t ∧ t.answer = ⟨1, [⟨0xF, 0⟩]⟩ ∧
      t = ((((s.setReg Reg.XB_DEFLOG (BitVec.ofNat 64 (a.toNat % 2 ^ 48 + (x.mid.val % 64) * 2 ^ 48 + (x.pos.val % 16) * 2 ^ 54))).count Reg.XB_DEFCNT
        Reg.XB_DEFCNT_COUNT 1).setErr Reg.XB_ERR Reg.XB_ERR_DECODE 816).reply 1 [⟨0xF, 0⟩])) ∧
    (s.dramBarred c pos l = true → exec (.rdS c pos key l .clean) s = .next (s.reply errPerm poisonLine) ∧
      exec (.rdU c pos key l .clean) s = .next (s.reply errPerm poisonLine) ∧ exec (.upg c pos key l .clean) s = .next (s.reply errPerm poisonLine)) ∧
    (s.dramBarred c pos l = false → s.place (l * 64) ≠ none → (s.lockUnit (s.sliceOf (l * 64))).held = false → s.keyErr l key.toNat = false →
      (bits d.sharers c 1 = 1 → d.st ≠ 0 →
        exec (.rdS c pos key l .clean) s = .next (s.reply respOk (s.copyOf l)) ∧
        exec (.rdU c pos key l .clean) s = .next (((s.setDir l alone).setCopy l (s.copyOf l)).reply respOk (s.copyOf l)) ∧
        exec (.upg c pos key l .clean) s = .next ((s.setDir l alone).reply respOk [])) ∧
      (∀ m, bits d.sharers c 1 = 0 → s.dirtyLine l = some m → p = ((s.takeSlots l 1).cacheRoom c).setDir l alone →
        exec (.rdU c pos key l .clean) s = .next ((p.setCopy l m).reply respOk m) ∧
        exec (.upg c pos key l .clean) s = .next ((p.setCopy l m).reply respOk m))) ∧
    (d.st = 3 → bits d.sharers c 1 = 1 → s.remapLost l .clean = false → d.evicting ≠ 4 → exec (.wb c l ws) s =
      .next ((((s.takeSlots l 1).storeLine l d.keyid ws.toList).setDir l DirEntry.none).reply respOk [])) ∧
    (d.st = 3 → bits d.sharers c 1 = 1 → s.remapLost l .clean = false → d.evicting = 4 → exec (.wb c l ws) s =
      .next ((s.setDir l DirEntry.none).reply respOk [])) ∧
    (d.st ≠ 3 → exec (.evc c l) s = .next (s.dropHolder l c)) ∧
    (s.holds l c = true →
      (2 ≤ d.st → exec (.snpSh c l false) s = .next (((s.collect l).setDir l { d with st := 1 }).emit (.snoop 0 (s.copyOf l)))) ∧
      (∀ m, s.dirtyLine l = some m → exec (.snpInv c l false) s = .next (((s.collect l).dropHolder l c).emit (.snoop 0 m)) ∧
        exec (.snpRd c l false) s = .next (s.emit (.snoop 0 m))) ∧
      (s.dirtyLine l = none → exec (.snpInv c l false) s = .next ((s.dropHolder l c).emit (.snoop 1 [])) ∧
        exec (.snpRd c l false) s = .next (s.emit (.snoop 1 []))) ∧
      exec (.snpDrop c l false) s = .next ((s.dropHolder l c).emit (.snoop 1 []))) ∧
    (s.holds l c = false → exec (.snpSh c l false) s = .next ((s.dropHolder l c).emit (.snoop 2 [])) ∧
      exec (.snpDrop c l false) s = .next ((s.dropHolder l c).emit (.snoop 2 []))) ∧
    exec (.snpRd c l true) s =
      .next (((s.setDir l { d with evicting := 3 }).count (Reg.SLC_DIR_EVX (s.sliceOf (l * 64))) Reg.SLC_DIR_EVX_COUNT 1).emit (.snoop 3 []))

/-- 06 R223 to R231: scrubbing, sanitising, and the retirement, test and reinstatement of pseudo-channels by the Steward. Corners that the rules leave open are the model's choice: log entry 10. -/
def Obligations.MemoryMaintenance : Prop :=
  ∀ (p : Fin 256) (sl : Fin 32) (region : Fin 256) (good : Bool) (r : Region) (lost : List LineNo) (s : State),
    let k := sget (fun _ => 0) s.mem.scrub p
    let c := p.val * 2 ^ 24 + k
    (s.mem.flaw c = .clean → exec (.scrubSlot p .clean) s = .next (s.scrubStep p)) ∧
    (∀ t : State, t = s.pcCe p → s.mem.flaw c ≠ .uncorrectable →
      exec (.scrubSlot p .corrected) s = .next (({ t with mem := t.mem.setFlaw c .clean } : State).scrubStep p)) ∧
    (∀ a, s.paOfCell p k = some a → exec (.scrubSlot p .uncorrectable) s = .next ((s.cellUe (p / 8) c (a / 64) (s.mem.side c).keyid).scrubStep p)) ∧
    (s.sliceRegion sl region = some r → s.flag (Reg.SLC_STAT sl) Reg.SLC_STAT_SANIT_BUSY = false →
      ∀ t : State, t = { s with mem := { s.mem with sanitPos := s.mem.sanitPos.filter fun x => x.1 / 8 != sl.val } } → exec (.sanitise sl region) s =
      .next (((t.wr (Reg.SLC_SANIT sl) Reg.SLC_SANIT_REGION region).wr (Reg.SLC_STAT sl) Reg.SLC_STAT_SANIT_BUSY 1).reply respOk [])) ∧
    ((s.flag (Reg.SLC_STAT sl) Reg.SLC_STAT_SANIT_BUSY = true ∨ s.sliceRegion sl region = none) → exec (.sanitise sl region) s = .next (s.reply errTarget [])) ∧
    (∀ t : State, s.flag (Reg.SLC_STAT sl) Reg.SLC_STAT_SANIT_BUSY = true →
      t = eachDo (List.range 8) (fun n t => t.sanitLines sl (8 * sl.val + n) 12582912) s → exec (.sanitiseDone sl) s =
        .next ((t.wr (Reg.SLC_STAT sl) Reg.SLC_STAT_SANIT_BUSY 0).slcEvent sl Reg.SLC_ERR_SANIT_DONE sevNotice 0)) ∧
    ((s.pcState p = 0 ∨ s.pcState p = 7 ∧ s.stackHolds p = false) → exec (.pcTrainingLoss p) s = .next (s.retirePc p)) ∧
    ((s.pcState p = 0 ∨ s.pcState p = 7) → exec (.pcRetire .steward p) s = .next ((s.retirePc p).reply respOk [])) ∧
    (s.pcState p = 2 → exec (.pcTest .steward p) s = .next (((s.setPcState p 3).rewriteRemap p).reply respOk [])) ∧
    (s.pcState p = 4 → exec (.pcReinstate .steward p) s = .next (((s.setPcState p 6).startMig p 1).reply respOk [])) ∧
    (∀ q : Requester, q ≠ .steward → exec (.pcRetire q p) s = .next (s.reply errPerm []) ∧ exec (.pcTest q p) s = .next (s.reply errPerm []) ∧
      exec (.pcReinstate q p) s = .next (s.reply errPerm [])) ∧
    (s.pcState p = 3 → exec (.pcTestDone p good) s = .next (s.setPcState p (if good then 4 else 5))) ∧
    (∀ n t, s.flag (Reg.SLC_STAT sl) Reg.SLC_STAT_MIG_ACTIVE = true → n = s.rd (Reg.SLC_STAT sl) Reg.SLC_STAT_MIG_PC →
      t = (eachDo (lost.filterMap fun l => match s.place (l.val * 64) with
          | some h => if h.1 = sl.val * 8 + n ∧ s.rd (Reg.SLC_MIGPOS sl) Reg.SLC_MIGPOS_LINE ≤ h.2 then some h.2 else none
          | none => none) (fun l t => t.copyLine (sl.val * 8 + n) l true) (s.migrateTo sl 12058624)).wr (Reg.SLC_STAT sl) Reg.SLC_STAT_MIG_ACTIVE 0 →
      (s.pcState (sl.val * 8 + n) = 1 → exec (.migrationDone sl lost) s =
        .next (((t.setPcState (sl.val * 8 + n) 2).wr (Reg.SLC_STAT sl) ⟨n, 1, .ro, 0⟩ 1).slcEvent sl Reg.SLC_ERR_MIG_DONE sevNotice 0)) ∧
      (s.pcState (sl.val * 8 + n) ≠ 1 → exec (.migrationDone sl lost) s =
        .next ((((t.setPcState (sl.val * 8 + n) 0).wr (Reg.SLC_STAT sl) ⟨n, 1, .ro, 0⟩ 0).setRemap (sl.val * 8 + n) false).slcEvent sl
          Reg.SLC_ERR_MIG_DONE sevNotice 0)))

/-- 06 R235 to R243: the cluster port of a local vector store, and the steps of its background test. Corners that the rules leave open are the model's choice: log entries 7 and 43. -/
def Obligations.LocalStorePortAndTest : Prop :=
  ∀ (x : Xact) (e : EngId) (line : Fin 16384) (data : List (Fin 64 × Byte)) (tags : List (Fin 8 × Tag)) (w : Fin 8) (s : State),
    let k := busyKey x.mid x.pos e (line.val * 8 + w)
    let base := line.val * 64
    let ds := data.map fun p => (p.1.val, p.2)
    let ts := tags.map fun p => (p.1.val, p.2)
    (∀ t : State, x.mid.val < 27 → t = (s.setBusy k 0).lvsFinds e (base + 8 * w) .clean → (∀ i < 8, t.lvsFlaw e (base + 8 * i) = .clean) →
      exec (.lvsClusterAccess x e line false data tags .idle w .clean) s =
        .next (t.reply respOk ((List.range 8).map fun i => t.lvsWord e (base + 8 * i)))) ∧
    (∀ r : Nat × State, x.mid.val < 27 → w.val ∉ mergedWords ds ts → r = (s.setBusy k 0).lvsWrite e line ds ts →
      exec (.lvsClusterAccess x e line true data tags .idle w .clean) s = .next (r.2.reply r.1 [])) ∧
    (27 ≤ x.mid.val → x.mid.val - 27 ≠ clusterOf e → exec (.lvsClusterAccess x e line false data tags .idle w .clean) s = .next (s.reply errPerm [])) ∧
    (x.mid.val < 27 → s.busyRun k < 8 → exec (.lvsClusterAccess x e line true data tags .writes w .clean) s =
      .next ((((s.setBusy k (s.busyRun k + 1)).count (Reg.LVS_BUSY e) Reg.LVS_BUSY_CLU 1).lvsConflict e 4).reply errBusy [])) ∧
    (∀ t : State, s.flag (Reg.FOX_CTRL e) Reg.FOX_CTRL_EN = true → s.foxPhase e = 0 → s.flag (Reg.FOX_STAT e) Reg.FOX_STAT_EXHAUSTED = false →
      t = s.foxCopy e (s.foxRegion e) 4128 →
      exec (.foxSave e) s = .next (({ t with mem := { t.mem with foxSince := sset (fun _ => 0) t.mem.foxSince e s.gav.mono } } : State).setFoxPhase e 1)) ∧
    (s.foxPhase e = 1 → exec (.foxMarch e .pass) s = .next (((s.setFoxPhase e 2).count (Reg.FOX_FAILS e) Reg.FOX_FAILS_COUNT 0).setMarch e (some 0)) ∧
      exec (.foxMarch e .failOnce) s = .next (((s.setFoxPhase e 2).count (Reg.FOX_FAILS e) Reg.FOX_FAILS_COUNT 1).setMarch e (some 1))) ∧
    (s.foxPhase e = 2 → exec (.foxRestore e) s = .next ((s.foxBegin e).foxEnd e)) ∧
    (s.foxPhase e = 3 → exec (.foxRestore e) s = .next (s.foxEnd e)) ∧
    (∀ t : State, s.foxPhase e = 4 → t = (s.passTo (sget (fun _ => 0) s.mem.foxSince e + 1000 * s.rd (Reg.FOX_CTRL e) Reg.FOX_CTRL_PACE)).setFoxPhase e 0 →
      (s.foxRegion e + 1 < 4128 → exec (.foxWaitEnd e) s = .next (t.wr (Reg.FOX_STAT e) Reg.FOX_STAT_REGION (s.foxRegion e + 1))) ∧
      (4128 ≤ s.foxRegion e + 1 → exec (.foxWaitEnd e) s =
        .next ((t.wr (Reg.FOX_STAT e) Reg.FOX_STAT_REGION 0).count (Reg.FOX_STAT e) Reg.FOX_STAT_PASSES 1)))

/-- 03 R130, 05 R199, 06 R232 and R244, 09 R344, 10 R384, 11 R415 and R416: each counter-clear sets the counters it names to 0 and leaves every other register. -/
def Obligations.CounterClears : Prop :=
  ∀ (e : EngId) (sl : Fin 32) (c : Fin 16) (s : State),
    let clears (i : Instr) (offs : List Nat) : Prop :=
      ∃ t : State, exec i s = .next t ∧ t.answer = ⟨0, []⟩ ∧ (∀ o ∈ offs, t.reg o = 0) ∧ (∀ o, o ∉ offs → t.reg o = s.reg o) ∧ t.mem = s.mem ∧ t.eng = s.eng
    clears (.engVsuCntclr e) [Reg.ENG_VSU_BLOCKS e, Reg.ENG_VSU_REWIND e, Reg.ENG_VSU_TAGFLT e, Reg.ENG_VSU_HAZSTALL e, Reg.ENG_VSU_DEFER e] ∧
    clears (.engChnCntclr e) [Reg.ENG_CHN_WAITIN e, Reg.ENG_CHN_WAITOUT e, Reg.ENG_CHN_FREEZE e, Reg.ENG_CHN_LINKERR e] ∧
    clears (.slcCntclr sl) [Reg.SLC_CE sl, Reg.SLC_UE sl, Reg.SLC_INTEG sl, Reg.SLC_PWPOISON sl] ∧
    clears (.lvsCntclr e) [Reg.LVS_CONFLICT e 0, Reg.LVS_CONFLICT e 1, Reg.LVS_CONFLICT e 2, Reg.LVS_CONFLICT e 3, Reg.LVS_CONFLICT e 4,
      Reg.LVS_BUSY e, Reg.LVS_CE e, Reg.LVS_UE e] ∧
    clears (.engExcCntclr e) [Reg.ENG_EXC_HELDCNT e, Reg.ENG_EXC_NIOVR e, Reg.ENG_EXC_FEH e, Reg.ENG_EXC_PROMPTHOLD e] ∧
    clears (.slcXcntclr sl) [Reg.SLC_LOCK_GRANT sl, Reg.SLC_LOCK_BRK sl, Reg.SLC_LOCK_REFUSED sl, Reg.SLC_DIR_BACKINV sl, Reg.SLC_DIR_CE sl,
      Reg.SLC_DIR_UE sl, Reg.SLC_DIR_EVX sl, Reg.SLC_DIR_KEYERR sl] ∧
    clears (.cluCcCntclr c) [Reg.CLU_CC_HIT c, Reg.CLU_CC_MISS c, Reg.CLU_CC_CE c, Reg.CLU_CC_UE c] ∧
    (∃ t : State, exec (.engTngCntclr e) s = .next t ∧ t.answer = ⟨0, []⟩ ∧ t.rd (Reg.ENG_TNG_MISM e) Reg.ENG_TNG_MISM_COUNT = 0 ∧
      t.reg (Reg.ENG_TNG_SVRETRY e) = 0 ∧ t.rd (Reg.ENG_TNG_MISM e) Reg.ENG_TNG_MISM_LASTKIND = s.rd (Reg.ENG_TNG_MISM e) Reg.ENG_TNG_MISM_LASTKIND ∧
      t.rd (Reg.ENG_TNG_MISM e) Reg.ENG_TNG_MISM_LASTGRP = s.rd (Reg.ENG_TNG_MISM e) Reg.ENG_TNG_MISM_LASTGRP ∧
      (∀ o, o ≠ Reg.ENG_TNG_MISM e → o ≠ Reg.ENG_TNG_SVRETRY e → t.reg o = s.reg o))

/-- 07 R265, R266, R269 and R281: the result of every load whose line answers OK with a word of an accepted tag. Corners that the rules leave open are the model's choice: log entry 16. -/
def Obligations.LoadResults : Prop :=
  ∀ (e : EngId) (rd fd rs1 : RegNo) (imm : BitVec 16) (imm14 : BitVec 14) (vd : BitVec 3) (et : BitVec 4) (pa : Nat) (ws rest : List TWord) (w : TWord)
    (s p t : State), s.ready e 4 [.g rs1] → p = s.past e 4 → tagBase (s.g e rs1).tag = true →
    let base := s.g e rs1
    let ea := base.val + imm.signExtend 64
    let reads (a : Word) (n : Nat) : Prop := p.dataAddr e a n 0 = .pa pa ∧ p.uncached pa = false ∧ p.loadLine e pa (p.keyid e) = some (respOk, ws, t) ∧
      ws.drop (pa % 64 / 8) = w :: rest
    let part (n : Nat) : Nat := bits w.val.toNat (8 * (pa % 8)) (8 * n)
    let put (f : Bank → Bank) : Host.Outcome State Fault Refusal := .next ((t.modRun e f).countInstr e)
    let putG (x : TWord) := put fun b => b.setG rd.toNat x
    let plain : Prop := w.tag ≠ tagPoison ∧ w.tag ≠ tagEmpty
    let post (b : Bank) : Bank := b.setG rs1.toNat ⟨base.tag, base.val + imm.signExtend 64⟩
    (reads ea 8 → plain → exec (.ld e rd rs1 imm) s = putG w) ∧
    (reads ea 8 → exec (.ldX e rd rs1 imm) s = putG w) ∧
    (reads ea 4 → plain → exec (.ldw e rd rs1 imm) s = putG ⟨tagI64, BitVec.ofInt 64 (toSigned 32 (part 4))⟩ ∧
      exec (.ldwu e rd rs1 imm) s = putG ⟨tagU64, BitVec.ofNat 64 (part 4)⟩) ∧
    (reads ea 2 → plain → exec (.ldh e rd rs1 imm) s = putG ⟨tagI64, BitVec.ofInt 64 (toSigned 16 (part 2))⟩ ∧
      exec (.ldhu e rd rs1 imm) s = putG ⟨tagU64, BitVec.ofNat 64 (part 2)⟩) ∧
    (reads ea 1 → plain → exec (.ldb e rd rs1 imm) s = putG ⟨tagI64, BitVec.ofInt 64 (toSigned 8 (part 1))⟩ ∧
      exec (.ldbu e rd rs1 imm) s = putG ⟨tagU64, BitVec.ofNat 64 (part 1)⟩) ∧
    (reads base.val 8 → plain → rd ≠ rs1 → exec (.ldp e rd rs1 imm) s = put fun b => post (b.setG rd.toNat w)) ∧
    (rd = rs1 → exec (.ldp e rd rs1 imm) s = .next (p.takeException e (s.pc e) (illegal (encImm 0x24 rd rs1 imm)))) ∧
    (fd = rs1 → exec (.fldp e fd rs1 imm) s = .next (p.takeException e (s.pc e) (illegal (encImm 0x26 fd rs1 imm)))) ∧
    ((w.tag = tagF64 ∨ w.tag = tagRaw) → (reads ea 8 → exec (.fld e fd rs1 imm) s = put fun b => b.setF fd.toNat w.val) ∧
      (reads base.val 8 → fd ≠ rs1 → exec (.fldp e fd rs1 imm) s = put fun b => post (b.setF fd.toNat w.val))) ∧
    ((w.tag = tagF32x2 ∨ w.tag = tagRaw) → reads ea 4 → exec (.flw e fd rs1 imm) s = put fun b => b.setF fd.toNat (BitVec.ofNat 64 (part 4))) ∧
    (∀ w1 w2 w3 r, et.toNat < 14 → rest = w1 :: w2 :: w3 :: r → (∀ x ∈ [w, w1, w2, w3], x.tag.toNat = etTag et.toNat ∧ x.tag ≠ tagPoison ∧ x.tag ≠ tagEmpty) →
      reads (base.val + imm14.signExtend 64 * 32) 32 → exec (.vld e vd et rs1 imm14) s =
        put fun b => (((b.setF (4 * vd.toNat) w.val).setF (4 * vd.toNat + 1) w1.val).setF (4 * vd.toNat + 2) w2.val).setF (4 * vd.toNat + 3) w3.val)

/-- 07 R265, R267 to R269 and 10 R353: a store to memory enters the gated store buffer with the address its operands give, the bytes of its register and the tag of each word. Corners that the rules leave open are the model's choice: log entry 20. -/
def Obligations.StoreEffects : Prop :=
  ∀ (e : EngId) (rs fs rs1 : RegNo) (imm : BitVec 16) (imm14 : BitVec 14) (vs : BitVec 3) (et : BitVec 4) (pa : Nat) (ws : List TWord) (old : TWord)
    (s p t : State), s.ready e 4 [.g rs, .f fs, .v vs, .g rs1] → p = s.past e 4 → tagBase (s.g e rs1).tag = true → (s.engine e).stores.length < 64 →
    let base := s.g e rs1
    let d := s.g e rs
    let ea := base.val + imm.signExtend 64
    let goes (a : Word) (n : Nat) : Prop := p.dataAddr e a n 1 = .pa pa ∧ p.uncached pa = false ∧ p.lvHazard e (pa / 64) true = false
    let put (u : State) (a : Word) (bs : List Byte) (ts : List Tag) (f : Bank → Bank) : Host.Outcome State Fault Refusal :=
      .next (((u.modEngine e fun x => { x with stores := x.stores ++ [⟨(u.core e).run, pa, a.toNat % 2 ^ 48, bs, ts, u.keyid e⟩] }).modRun e f).countInstr e)
    let post (b : Bank) : Bank := b.setG rs1.toNat ⟨base.tag, base.val + imm.signExtend 64⟩
    let merged (n : Nat) (packed : Tag) : Prop := goes ea n ∧ p.loadLine e pa (p.keyid e) = some (respOk, ws, t) ∧ (t.engine e).stores.length < 64 ∧
      ws.getD (pa % 64 / 8) twPoison = old ∧ (old.tag = tagRaw ∨ old.tag = tagEmpty ∨ old.tag = packed)
    let tg (packed : Tag) : Tag := if old.tag = tagRaw then tagRaw else packed
    (d.tag ≠ tagPoison → d.tag ≠ tagEmpty →
      (goes ea 8 → exec (.st e rs rs1 imm) s = put p ea (bytesOf d.val) [d.tag] id) ∧
      (goes base.val 8 → rs ≠ rs1 → exec (.stp e rs rs1 imm) s = put p base.val (bytesOf d.val) [d.tag] post)) ∧
    (tagNRaw d.tag = true →
      (merged 4 tagI32x2 → exec (.stw e rs rs1 imm) s = put t ea ((bytesOf d.val).take 4) [tg tagI32x2] id) ∧
      (merged 2 tagI16x4 → exec (.sth e rs rs1 imm) s = put t ea ((bytesOf d.val).take 2) [tg tagI16x4] id) ∧
      (merged 1 tagI8x8 → exec (.stb e rs rs1 imm) s = put t ea ((bytesOf d.val).take 1) [tg tagI8x8] id)) ∧
    (goes ea 8 → exec (.fsd e fs rs1 imm) s = put p ea (bytesOf (s.f e fs)) [tagF64] id) ∧
    (goes base.val 8 → fs ≠ rs1 → exec (.fsdp e fs rs1 imm) s = put p base.val (bytesOf (s.f e fs)) [tagF64] post) ∧
    (rs = rs1 → exec (.stp e rs rs1 imm) s = .next (p.takeException e (s.pc e) (illegal (encImm 0x25 rs rs1 imm)))) ∧
    (fs = rs1 → exec (.fsdp e fs rs1 imm) s = .next (p.takeException e (s.pc e) (illegal (encImm 0x27 fs rs1 imm)))) ∧
    (merged 4 tagF32x2 → exec (.fsw e fs rs1 imm) s = put t ea ((bytesOf (s.f e fs)).take 4) [tg tagF32x2] id) ∧
    (et.toNat < 14 → goes (base.val + imm14.signExtend 64 * 32) 32 → exec (.vst e vs et rs1 imm14) s =
      put p (base.val + imm14.signExtend 64 * 32) ((List.range 4).flatMap fun i => bytesOf ((s.runBank e).getF (4 * vs.toNat + i)))
        (List.replicate 4 (BitVec.ofNat 4 (etTag et.toNat))) id)

/-- 07 R270 to R272, 10 R354 and 11 R397 to R403: locked loads and stores, and the responses that the core waits for. Corners that the rules leave open are the model's choice: log entry 19. -/
def Obligations.LocksAndResponses : Prop :=
  ∀ (e : EngId) (rd rs1 rs2 : RegNo) (pa : Nat) (sl : Fin 32) (line : LineNo) (data : Bool) (host : Option (Vector Word 4)) (s p u v : State),
    (s.ready e 4 [.g rs1, .g rs2] → p = s.past e 4 → p.atFence e = false → u = (p.commitNow e).drainOut e → u.outBusy e = false → tagBase (s.g e rs1).tag = true →
      let ea := (s.g e rs1).val
      let a : MemOp := ⟨ea, s.pc e, (s.pc e + 4) % 2 ^ 48, []⟩
      (p.dataAddr e ea 8 0 = .pa pa → p.sliceServes e pa = true → p.lvHazard e (pa / 64) false = false → exec (.lkld e rd rs1) s =
        .next ((u.sent e a .lkld rd.toNat pa none).arrive
          { mid := clusterOf e, pos := posOf e, id := 510, key := p.keyid e, line := pa / 64, op := .lkld })) ∧
      (∀ k r d, p.dataAddr e ea 8 1 = .pa pa → p.sliceServes e pa = true → p.lvHazard e (pa / 64) true = false → d = s.g e rs2 →
        d.tag ≠ tagPoison → d.tag ≠ tagEmpty → u.heldSlice (clusterOf e) (posOf e) = some k →
        r = u.lkst k (clusterOf e) (posOf e) (pa / 64) (p.keyid e) ((bytesOf d.val).zipIdx.map fun p => (pa % 64 + p.2, p.1)) [(pa % 64 / 8, d.tag)] →
        exec (.lkst e rd rs1 rs2) s = .next ((r.2.modEngine e fun x => { x with lock := none }).sent e a .lkst rd.toNat pa (some (r.1, [])))) ∧
      (p.dataAddr e ea 8 0 = .pa pa → exec (.lkrel e rs1) s =
        .next (((u.lkrel (clusterOf e) (posOf e)).modEngine e fun x => { x with lock := none }).sent e a .ack 0 pa (some (respOk, []))))) ∧
    ((s.lockUnit sl).held = true → v = s.pass ((s.lockUnit sl).since + 32 - s.gav.xclk) ((s.lockUnit sl).since + 32 - s.gav.xclk) → exec (.lockBreak sl) s =
      .next ((((v.count (Reg.SLC_LOCK_BRK sl) Reg.SLC_LOCK_BRK_COUNT 1).assert (768 + sl)).recordSev (768 + sl) sevWarning (unitSlice sl)
        (v.lockStat sl) 0 0).closeLock sl)) ∧
    (∀ d, s.canEnter e = true → s.boundary e = some (.deferred d) → exec (.storeDeferredError e) s =
      .next ((s.modAsync e fun c => { c with deferred := c.deferred.erase d }).takeException e (s.pc e) ⟨d.cause, d.ea, d.escr, 2 ^ 46, false⟩)) ∧
    (s.inCore (clusterOf e) (posOf e) data line = false → s.dramBarred (clusterOf e) (posOf e) line = false →
      (s.cached e line = true → s.ccFlaw (clusterOf e) line = .clean → exec (.cacheLineFill e line data) s =
        .next ((s.count (Reg.CLU_CC_HIT (clusterOf e)) Reg.CLU_CC_HIT_COUNT 1).fillCore (clusterOf e) (posOf e) data line)) ∧
      (s.cached e line = false → exec (.cacheLineFill e line data) s =
        .next (((s.count (Reg.CLU_CC_MISS (clusterOf e)) Reg.CLU_CC_MISS_COUNT 1).setCcFlaw (clusterOf e) line .clean).arrive
          { mid := clusterOf e, pos := posOf e, id := 509, key := s.keyid e, line := line, op := .rdS (some data) }))) ∧
    (∀ x ws n sg any, (s.engine e).pend.find? PendAccess.ready = some x → x.kind = .load n sg any → x.result = some (respOk, ws) → loadTrap (.load n sg any) x.ea ws = none →
      s.flag (Reg.ENG_TNG_STAT e) Reg.ENG_TNG_STAT_RECOV = false → exec (.accessResponse e host) s =
        .next (((s.modEngine e fun y => { y with pend := y.pend.erase x }).modAsync e fun c =>
          c.setBank x.bank (((c.bank x.bank).putLoad (.load n sg any) x.rd 0 ws).setGs x.post)).commitPoint e)) ∧
    (∀ x ws, (s.engine e).pend.find? PendAccess.ready = some x → x.kind = .lkld → x.result = some (errLock, ws) → (s.core e).run ≠ x.bank → exec (.accessResponse e host) s =
      .next ((s.modEngine e fun y => { y with pend := y.pend.erase x }).deferErr e ⟨x.bank, cBus, x.ea % 2 ^ 48, accEscr 0 errLock⟩))

/-- 07 R282 to R284: a repeat prefix whose count is 0 goes past itself and its body; one iteration of a register body runs the body, takes 1 from the count, and leaves the core at the prefix until the count is 0. 08 R289 to R297: a customer instruction of one microword that checks its tags, writes a G register and dispatches; and an entry that is not valid or above the level. Corners that the rules leave open are the model's choice: log entries 22 and 23. -/
def Obligations.RepeatAndCustomerInstructions : Prop :=
  (∀ (e : EngId) (gc rd rs1 rs2 : RegNo) (op : AluOp) (n : Nat) (s t : State), s.ready e 8 [.g gc, .g rd, .g rs1, .g rs2] →
      tagN (s.g e gc).tag = true → gc ≠ rd → gc ≠ rs1 → gc ≠ rs2 → aluBinary op = true →
      let goes : State := if (s.g e gc).val = 1 then s.past e 8 else s.setPc e (s.pc e)
      let less : State := (t.setG e gc ⟨(t.g e gc).tag, (t.g e gc).val - 1⟩).countInstr e
      ((s.g e gc).val = 0 → exec (.repI e gc (.alu op rd rs1 rs2) n) s = .next ((s.past e 8).countInstr e)) ∧
      ((s.g e gc).val ≠ 0 → aluRes e op rd rs1 rs2 goes = .done t → exec (.repI e gc (.alu op rd rs1 rs2) 1) s = .next (less.clearBusy e)) ∧
      (2 ≤ s.lev e → (s.g e gc).val.toNat ≤ 256 →
        ((s.g e gc).val = 0 → exec (.repN e gc (.alu op rd rs1 rs2) n) s = .next ((s.past e 8).countInstr e)) ∧
        ((s.g e gc).val ≠ 0 → aluRes e op rd rs1 rs2 goes = .done t → exec (.repN e gc (.alu op rd rs1 rs2) 1) s = .next (less.repBusy e 1 gc (s.pc e)))) ∧
      (s.lev e < 2 → exec (.repN e gc (.alu op rd rs1 rs2) n) s = .next (s.takeException e (s.pc e) (privOp (encRep 1 gc.toNat)))) ∧
      exec (.repI e gc .other n) s = .next (s.takeException e (s.pc e) (illegal (encRep 0 gc.toNat)))) ∧
  (∀ (e : EngId) (rd rs1 rs2 : RegNo) (x : BitVec 7) (sub : Fin 16) (w : Mw) (m : MRun) (s p : State), s.ready e 4 allRegs → p = s.past e 4 →
      let parcel := 0x3F * 2 ^ 26 + rd.toNat * 2 ^ 21 + rs1.toNat * 2 ^ 16 + rs2.toNat * 2 ^ 11 + x.toNat * 2 ^ 4 + sub.val
      let go := exec (.customerInstruction e rd rs1 rs2 x sub) s
      let o : CustOp := ⟨rd.toNat, rs1.toNat, rs2.toNat, x.toNat, parcel, s.pc e⟩
      let free := p.takeFree
      let a := microSrc free.2 e o m w (mwAsel w)
      let b := microSrc free.2 e o m w (mwBsel w)
      let out := microAlu w a.val b.val (s.astat e) free.2.takeFree.1.toNat
      (p.flag (Reg.ENG_UDEC e sub) Reg.ENG_UDEC_VALID = false → go = .next (p.takeException e (s.pc e) (illegal parcel))) ∧
      (p.flag (Reg.ENG_UDEC e sub) Reg.ENG_UDEC_VALID = true → s.lev e < p.rd (Reg.ENG_UDEC e sub) Reg.ENG_UDEC_MINLEV →
        go = .next (p.takeException e (s.pc e) (privOp parcel))) ∧
      (p.flag (Reg.ENG_UDEC e sub) Reg.ENG_UDEC_VALID = true → p.rd (Reg.ENG_UDEC e sub) Reg.ENG_UDEC_MINLEV ≤ s.lev e →
        m = ⟨0x5000 + p.rd (Reg.ENG_UDEC e sub) Reg.ENG_UDEC_ENTRY, [], 0, List.replicate 8 ⟨tagRaw, 0⟩, ⟨free.1.extractLsb' 0 4, free.1⟩, 0, [], []⟩ →
        p.microFetch e ((p.engine e).ustore.trapped m.ma) = .ok w → p.ucFinds e ((p.engine e).ustore.trapped m.ma) = .clean → mwCkpt w = 0 →
        microTags m w a b = none → mwDop w = 0 → mwRdst w = 1 → mwRsel w = 0 → mwRtm w = 2 → mwAstw w = 0 → mwCnt w = 0 → mwExc w = 0 → mwSeq w = 4 →
        go = .next ((free.2.takeFree.2.microDisp e o
          { m with held := [.g rd.toNat ⟨BitVec.ofNat 4 (mwRtag w), microShift w (BitVec.ofNat 64 out.v) b.val⟩] }).countInstr e)))

/-- 09 R335 to R341: a bank image is written at its address and the bank holds it clean; a fresh bank is made; an image of the right format, tenant, engine and generation is loaded. Corners that the rules leave open are the model's choice: log entry 24. -/
def Obligations.BankSaveAndLoad : Prop :=
  ∀ (e : EngId) (rs : RegNo) (imm : BitVec 16) (s p q : State), s.ready e 4 [.g rs] → p = s.past e 4 → p.atFence e = false → tagAny (s.g e rs).tag = true →
    (s.g e rs).tag ≠ tagPoison → (s.g e rs).tag ≠ tagEmpty → 3 ≤ s.lev e → q = (p.commitNow e).drainOut e → q.outBusy e = false →
    let pa := (s.g e rs).val.toNat
    let b := imm.toNat % 8
    let n := imm.toNat / 8
    (imm.toNat < 8 → b ≤ 6 → p.vacant e b = false → p.interrupted e b = false → (p.vsu e b).ents = [] → (p.vsu e b).drain = [] →
      p.genFull e (p.bankTenant e b) = false → pa % 2048 = 0 → p.imageLocked e pa = false →
      (q.imagePlace pa = true → ∀ u, q.bankSave e b pa (s.pc e) false = .commit u → exec (.banksave e rs imm) s = .next ((u.clearBusy e).commitPoint e)) ∧
      (q.imagePlace pa = false → b < 6 → exec (.banksave e rs imm) s =
        .next ((((q.vacateBank e b).takeException e (s.pc e) (trap cBus (pa % 2 ^ 48) 5)).commitPoint e).clearBusy e))) ∧
    (b < 6 → p.vacant e b = true → n ≠ 0 → (∀ k < 6, p.bankTenant e k ≠ n) → p.shadowBars n = false →
      (pa = 0 → p.genFull e n = false → exec (.bankload e rs imm) s = .next (((q.freshBank e b n).clearBusy e).commitPoint e)) ∧
      (pa ≠ 0 → pa % 2048 = 0 → p.imageLocked e pa = false → q.imagePlace pa = true → ∀ u, q.bankLoad e b n pa (s.pc e) = .commit u →
        exec (.bankload e rs imm) s = .next ((u.clearBusy e).commitPoint e)))

/-- 02 R41 to R44, R57, R58 and R65: ANGLE_WRAP advances to the XCLK in which the accumulator passes 2^64; the cycle count counts by one or takes an armed cycle set whose time has come, and TAI and the monotonic tick count every XCLK, one ns each unless TAI slews or follows a 10 MHz input. Corners that the rules leave open are the model's choice: log entries 1 and 47. -/
def Obligations.AngleWrapCountsTheCycle : Prop :=
  ∀ (s : State), 0 < s.angleInc → s.gav.acc < 2 ^ 64 → s.pins.settle / 10 ≤ s.gav.xclk / 10 →
    let n := s.toWrap
    2 ^ 64 ≤ s.gav.acc + n * s.angleInc ∧ s.gav.acc + (n - 1) * s.angleInc < 2 ^ 64 ∧
    ∃ t : State, exec .angleWrap s = .next t ∧ t.gav.acc = (s.gav.acc + n * s.angleInc) % 2 ^ 64 ∧ t.gav.xclk = s.gav.xclk + n ∧
      t.gav.tai = (s.gav.tai + (s.taiRun n).1) % 2 ^ 64 ∧ t.gav.mono = s.gav.mono + (s.taiRun n).1 ∧
      (s.gav.slew = 0 → s.flag Reg.GAV_TAI_CTRL Reg.GAV_TAI_CTRL_TEN_MHZ = false → s.gav.frac < 1000000000 → (s.taiRun n).1 = n) ∧
      (s.flag Reg.GAV_CYCSET_VAL Reg.GAV_CYCSET_VAL_ARM = false → t.gav.cyc = (s.gav.cyc + 1) % 2 ^ 32) ∧
      (s.flag Reg.GAV_CYCSET_VAL Reg.GAV_CYCSET_VAL_ARM = true → s.rd Reg.GAV_CYCSET_AT Reg.GAV_CYCSET_AT_AT ≤ t.gav.tai →
        t.gav.cyc = s.rd Reg.GAV_CYCSET_VAL Reg.GAV_CYCSET_VAL_VAL ∧ t.rd Reg.GAV_CYCSET_VAL Reg.GAV_CYCSET_VAL_ARM = 0)

/-- 02 R46 to R56: a counter vote, an edge on a phase reference, a PTP instant, loss and return of a reference, the limit of holdover and FORCE_HOLD. 02 R58 to R60 and 16 R524: the control and the armed load of TAI, the PPS input and output, and the loss of the followed port. Corners that the rules leave open are the model's choice: log entries 1, 7, 9 and 47. -/
def Obligations.ReferencesAndTai : Prop :=
  (∀ (p : Fin 3) (own : Bool) (s : State),
      exec .voteMismatch s = .next ((s.ownXclk.gavErr Reg.GAV_ERR_VOTE).recordReg 257 unitGavotte Reg.GAV_ERR) ∧
      (s.phaseQual p = false → exec (.phrefEdge p false own) s =
        .next ((s.inXclk own).setPhase p { s.phase p with far := (s.phase p).far || !depOk (s.departure p false) })) ∧
      (∀ x y t, x = s.phase p → x.rise = some t → s.definingPhase ≠ some p → s.phaseQual p = false → s.periodOk (s.gav.mono - t) = true → x.good < 15 →
        y = { x with rise := some s.gav.mono, period := s.gav.mono - t, far := false, good := x.good + 1, near := if !(x.far || !depOk (s.departure p true)) then min 16 (x.near + 1) else 0, bad := if (x.far || !depOk (s.departure p true)) then min 4 (x.bad + 1) else 0 } →
        exec (.phrefEdge p true own) s = .next ((s.inXclk own).setPhase p y)) ∧
      (s.refQual 3 = false → exec .ptpReferenceInstant s = .next s) ∧
      (s.refQual 3 = true → exec .ptpReferenceInstant s =
        .next (s.toPtpZero.ownXclk.measure 3 (s.toPtpZero.phaseErr s.toPtpZero.ptpAngle) s.toPtpZero.rateNominal)) ∧
      (∀ x u : State, x = s.passTo (s.gav.svAt + s.twoCycles) → u = x.ownXclk.unqualify 2 → x.refQual 2 = true → x.rd Reg.GAV_STAT Reg.GAV_STAT_REF = 2 →
        u.rd Reg.GAV_STAT Reg.GAV_STAT_STATE = 0 →
        (u.refWanted ≠ 0 → u.refAgrees u.refWanted = true → exec (.referenceLoss true) s = .next (u.setRef u.refWanted)) ∧
        (u.refWanted = 0 ∨ u.refAgrees u.refWanted = false → exec (.referenceLoss true) s = .next u.enterHoldover)) ∧
      (s.refQual 1 = true → exec (.referenceLoss false) s = .next ((s.passTo (s.gav.edgeAt + s.twoCycles)).ownXclk.loseRef 1)) ∧
      (∀ x : State, x = (s.passTo (sget (fun _ => 0) s.gav.qualAt s.refWanted + 60000000000)).inXclk own → s.flag Reg.GAV_CTRL Reg.GAV_CTRL_REVERT = true →
        s.refWanted ≠ 0 → s.refWanted ≠ s.rd Reg.GAV_STAT Reg.GAV_STAT_REF → s.rd Reg.GAV_STAT Reg.GAV_STAT_REF ≠ 0 → x.rd Reg.GAV_STAT Reg.GAV_STAT_STATE = 0 →
        (x.refWanted ≠ 0 → x.refAgrees x.refWanted = true → exec (.referenceRevert own) s = .next (x.setRef x.refWanted)) ∧
        (x.refWanted = 0 ∨ x.refAgrees x.refWanted = false → exec (.referenceRevert own) s = .next x.enterHoldover)) ∧
      (∀ c x u : State, c = x.enterHoldover → u = ({ x with gav := { x.gav with streak := 0, holdSince := some x.gav.mono } } : State).setRate x.rateMean →
        c = (u.setRef x.refWanted).gavState 1 (u.setRef x.refWanted).mayAcquire) ∧
      (∀ h x, s.gav.holdSince = some h → s.rd Reg.GAV_STAT Reg.GAV_STAT_STATE = 1 → s.rd Reg.GAV_TRACK Reg.GAV_TRACK_HOLD_LIMIT ≠ 0 →
        x = s.passTo (h + s.rd Reg.GAV_TRACK Reg.GAV_TRACK_HOLD_LIMIT * 60000000000) → exec .holdoverLimitExpiry s =
        .next (({ x with gav := { x.gav with holdSince := none } }.setRate x.rateNominal).gavState 2 x.mayAcquire)) ∧
      (∀ b : Bool, ∃ t : State, exec (.forceHold b) s = .next t ∧ t.answer = ⟨0, []⟩) ∧
      (∀ b x, x = s.ownXclk.wr Reg.GAV_CTRL Reg.GAV_CTRL_FORCE_HOLD (b2n b) →
        (b = true → x.rd Reg.GAV_STAT Reg.GAV_STAT_STATE = 0 → exec (.forceHold b) s = .next (x.enterHoldover.reply respOk [])) ∧
        (b = false → x.rd Reg.GAV_STAT Reg.GAV_STAT_STATE = 0 → exec (.forceHold b) s = .next (x.reply respOk [])))) ∧
  (∀ (d : Word) (v : Option (BitVec 64)) (s : State),
      let w := bits d.toNat 12 20
      let near := (s.gav.tai + 500000000) / 1000000000 * 1000000000
      ((w = 0 ∨ 999999 < w ∨ bits d.toNat 0 2 = 3) → exec (.gavTaiCtrl d v) s = .next (s.ownXclk.reply errTarget [])) ∧
      (0 < w → w ≤ 999999 → bits d.toNat 0 2 ≠ 3 → ∃ t : State, exec (.gavTaiCtrl d v) s = .next t ∧ t.answer = ⟨0, []⟩ ∧
        (bits d.toNat 0 2 = s.rd Reg.GAV_TAI_CTRL Reg.GAV_TAI_CTRL_SRC →
          t = (s.ownXclk.setReg Reg.GAV_TAI_CTRL (BitVec.ofNat 64 (d.toNat % 2 ^ 6 + w * 2 ^ 12 + bits d.toNat 32 1 * 2 ^ 32))).reply respOk [])) ∧
      exec (.taiSet d) s = .next ({ s with gav := { s.gav with taiSet := some d.toNat } }.reply respOk []) ∧
      (s.rd Reg.GAV_TAI_CTRL Reg.GAV_TAI_CTRL_SRC = 2 →
        (∀ x, s.gav.taiSet = some x → exec .ppsInEdge s =
          .next (({ s.ownXclk with gav := { s.ownXclk.gav with taiSet := none, taiAt := s.gav.mono } }.stepTai x).setTaiLock true)) ∧
        (∀ u : State, u = { s.ownXclk with gav := { s.ownXclk.gav with taiAt := s.gav.mono } } → s.gav.taiSet = none →
          (absDiff near s.gav.tai ≤ 1000 → exec .ppsInEdge s = .next ((u.slewTai near).setTaiLock true)) ∧
          (1000 < absDiff near s.gav.tai → exec .ppsInEdge s = .next ((u.stepTai near).setTaiLock true)))) ∧
      (∀ x, (s.stepTai x).gav.tai = x % 2 ^ 64 ∧ (s.stepTai x).flag Reg.GAV_ERR Reg.GAV_ERR_TAI_STEP = true) ∧
      (∀ x, (s.slewTai x).gav.tai = s.gav.tai ∧ (s.slewTai x).gav.slew.natAbs ≤ 100) ∧
      (s.rd Reg.GAV_TAI_CTRL Reg.GAV_TAI_CTRL_SRC ≠ 0 → exec .taiLockTimeout s = .next ((s.passTo (s.gav.taiAt + 3000000000)).ownXclk.setTaiLock false)) ∧
      (∀ u : State, u = s.passTo (s.gav.mono + (1000000000 - s.gav.tai % 1000000000)) → s.flag Reg.GAV_TAI_CTRL Reg.GAV_TAI_CTRL_PPS_EN = true →
        u.flag Reg.GAV_TAI_CTRL Reg.GAV_TAI_CTRL_PPS_EN = true → exec .ppsOutRise s =
        .next { u with gav := { u.gav with ppsOut := true, ppsFall := u.gav.mono + u.rd Reg.GAV_TAI_CTRL Reg.GAV_TAI_CTRL_PPS_WIDTH * 1000 } }) ∧
      (∀ u : State, u = s.passTo s.gav.ppsFall → s.gav.ppsOut = true → exec .ppsOutFall s = .next { u with gav := { u.gav with ppsOut := false } }))

/-- 02 R61 to R71 and R603: writes of trigger entries, the fields that refuse them, when an entry is due, and what a firing does. Corners that the rules leave open are the model's choice: log entry 35. -/
def Obligations.TriggerEntries : Prop :=
  ∀ (r : Requester) (n : Fin 8192) (d : Word) (late : List EngId) (s : State),
    let a := (s.reg (Reg.GAV_TRIGA n)).toNat
    let b := (s.reg (Reg.GAV_TRIGB n)).toNat
    let act := Reg.GAV_TRIGB_ACTION.of b
    let new := bits d.toNat 0 6 + bits d.toNat 8 14 * 2 ^ 8 + bits d.toNat 32 32 * 2 ^ 32
    let u := s.restartCount n a b
    (s.platOk r = false → exec (.gavTrigaWrite r n d) s = .next (s.reply errPerm []) ∧ exec (.gavTrigbWrite r n d) s = .next (s.reply errPerm [])) ∧
    (s.platOk r = true → n < s.rd Reg.GAV_TRIG_SPLIT Reg.GAV_TRIG_SPLIT_SPLIT →
      exec (.gavTrigaWrite r n d) s = .next (s.reply errPerm []) ∧ exec (.gavTrigbWrite r n d) s = .next (s.reply errPerm [])) ∧
    (s.platOk r = true → s.rd Reg.GAV_TRIG_SPLIT Reg.GAV_TRIG_SPLIT_SPLIT ≤ n →
      (s.trigAction n = 0 → exec (.gavTrigaWrite r n d) s = .next (((s.setReg (Reg.GAV_TRIGA n) d).noteWrite n).reply respOk [])) ∧
      (s.trigAction n ≠ 0 → exec (.gavTrigaWrite r n d) s = .next (s.reply errPerm [])) ∧
      (s.trigFieldBad a new = true → exec (.gavTrigbWrite r n d) s = .next (s.reply errTarget [])) ∧
      (s.trigFieldBad a new = false → Reg.GAV_TRIGB_ACTION.of new ≠ 5 → exec (.gavTrigbWrite r n d) s = .next ((s.trigSet n new).reply respOk []))) ∧
    (s.trigAction n = 0 → exec (.triggerFire n late) s = .next s) ∧
    (Reg.GAV_TRIGB_ABS.of b = 1 → s.dueNow n = true → 0 ≤ timeDiff (s.trigTime n) s.time) ∧
    (Reg.GAV_TRIGB_ABS.of b = 0 → s.dueNow n = true → s.angleNow (Reg.GAV_TRIGA_ANGLE.of a) = true ∧
      (sget (fun _ => none) s.gav.next n = some 0 ∨ (sget (fun _ => none) s.gav.next n = none ∧ s.gav.cyc % Reg.GAV_TRIGA_PERIOD.of a = Reg.GAV_TRIGA_PHASE.of a))) ∧
    (s.dueNow n = true → (16 ≤ s.gav.fired ∨ s.gav.delayed.any (·.old) = true ∨ (act = 5 ∧ s.otherDue n = true)) → exec (.triggerFire n late) s =
      .next { u with gav := { u.gav with delayed := u.gav.delayed ++ [⟨n, s.reg (Reg.GAV_TRIGA n), s.reg (Reg.GAV_TRIGB n), false, false, s.rd Reg.GAV_STAT Reg.GAV_STAT_STATE == 0⟩] } }) ∧
    (∀ t : State, s.dueNow n = true → s.gav.fired < 16 → s.gav.delayed.any (·.old) = false → t = ({ u with gav := { u.gav with fired := u.gav.fired + 1 } } : State).afterFire n b →
      (act = 2 → exec (.triggerFire n late) s = .next (t.gavPulse (Reg.GAV_TRIGB_TARGET.of b))) ∧
      (act = 3 → Reg.GAV_TRIGB_PROMPT.of b = 0 → exec (.triggerFire n late) s = .next (t.assert (258 + Reg.GAV_TRIGB_TARGET.of b))) ∧
      (act = 4 → exec (.triggerFire n late) s = .next (t.timerStart (Reg.GAV_TRIGB_TARGET.of b)))) ∧
    (∀ x rest t v, s.gav.delayed = x :: rest → x.n = n.val → s.gav.fired < 16 → x.written = true → Reg.GAV_TRIGB_ACTION.of x.trigb.toNat = 2 →
      v = ({ s with gav := { s.gav with delayed := rest, fired := s.gav.fired + 1 } } : State) →
      t = (if x.old = true then (v.count Reg.GAV_MATCH_DELAY Reg.GAV_MATCH_DELAY_COUNT 1).gavErr Reg.GAV_ERR_MATCH_DELAY else v) →
      exec (.matchDelayedFire n late) s = .next (t.gavPulse (Reg.GAV_TRIGB_TARGET.of x.trigb.toNat)))

/-- 02 R72 to R75 and 19 R592, R605: timers, edge detectors and pins. Corners that the rules leave open are the model's choice: log entries 1 and 45. -/
def Obligations.TimersEdgesAndPins : Prop :=
  ∀ (t : Fin 64) (e : Fin 32) (high own : Bool) (n : Fin 36) (d : Word) (s : State),
    (∀ u x y : State, u = s.toExpiry t → s.flag (Reg.GAV_TMR_CTRL t) Reg.GAV_TMR_CTRL_RUN = true → u.flag (Reg.GAV_TMR_CTRL t) Reg.GAV_TMR_CTRL_RUN = true →
      x = (if u.flag (Reg.GAV_TMR_CTRL t) Reg.GAV_TMR_CTRL_IRQ = true then u.assert (448 + t) else u) →
      y = (if u.flag (Reg.GAV_TMR_CTRL t) Reg.GAV_TMR_CTRL_EVT = true then x.gavPulse (u.rd (Reg.GAV_TMR_CTRL t) Reg.GAV_TMR_CTRL_CHAN) else x) →
      (u.flag (Reg.GAV_TMR_CTRL t) Reg.GAV_TMR_CTRL_PERIODIC = true → exec (.timerExpiry t) s = .next (y.timerStart t)) ∧
      (u.flag (Reg.GAV_TMR_CTRL t) Reg.GAV_TMR_CTRL_PERIODIC = false → exec (.timerExpiry t) s =
        .next ((y.wr (Reg.GAV_TMR_CTRL t) Reg.GAV_TMR_CTRL_RUN 0).wr (Reg.GAV_TMR_CNT t) Reg.GAV_TMR_CNT_COUNT 0))) ∧
    (s.flag (Reg.GAV_TMR_CTRL t) Reg.GAV_TMR_CTRL_RUN = false → exec (.timerExpiry t) s = .next s) ∧
    (sget (fun _ => none) s.gav.cands e = none → exec (.edgeAccept e high own) s = .next s) ∧
    (∀ c : EdgeCand, sget (fun _ => none) s.gav.cands e = some c → c.level ≠ high → exec (.edgeAccept e high own) s = .next s) ∧
    (∀ (c : EdgeCand) (k : Nat) (u v : State), sget (fun _ => none) s.gav.cands e = some c → c.level = high → k = c.xclk + 10 * s.rd (Reg.GAV_EDGE_CTRL e) Reg.GAV_EDGE_CTRL_FILT - s.gav.xclk →
      u = (s.pass k k).inXclk own → v = ({ u with gav := { u.gav with cands := sset (fun _ => none) u.gav.cands e none } } : State).wr (Reg.GAV_EDGE_STAT e) Reg.GAV_EDGE_STAT_LEVEL (b2n c.level) →
      (bits (v.rd (Reg.GAV_EDGE_CTRL e) Reg.GAV_EDGE_CTRL_POL) (if c.level then 0 else 1) 1 ≠ 1 → exec (.edgeAccept e high own) s = .next v) ∧
      (bits (v.rd (Reg.GAV_EDGE_CTRL e) Reg.GAV_EDGE_CTRL_POL) (if c.level then 0 else 1) 1 = 1 → (v.captures e).length < 4 →
        v.flag (Reg.GAV_EDGE_CTRL e) Reg.GAV_EDGE_CTRL_IRQ = false → v.flag (Reg.GAV_EDGE_CTRL e) Reg.GAV_EDGE_CTRL_EVT = false →
        exec (.edgeAccept e high own) s = .next ((v.count (Reg.GAV_EDGE_STAT e) Reg.GAV_EDGE_STAT_EDGES 1).setCaptures e (v.captures e ++
          [(BitVec.ofNat 64 c.time, BitVec.ofNat 64 c.tai)])))) ∧
    exec (.pop e) s = .next ((s.setCaptures e ((s.captures e).drop 1)).reply respOk []) ∧
    (n.val < 32 → exec (.pinLevelChange n high) s =
      .next ((({ s with pins := { s.pins with ext := sset (fun _ => false) s.pins.ext n high } } : State).edgesSee n).unsettled s.nextPclk)) ∧
    (32 ≤ n.val → exec (.pinLevelChange n high) s =
      .next (({ s with pins := { s.pins with level := sset (fun _ => false) s.pins.level n high } } : State).edgesSee n)) ∧
    exec (.pinGpioOut d) s = .next (((s.wr Reg.PIN_GPIO_OUT Reg.PIN_GPIO_OUT_LEVEL (d.toNat % 2 ^ 32)).unsettled s.nextPclk).reply respOk [])

/-- 12 R420 to R432: assertion, claim, completion, the end of a hold-off, the unmasking of a vector, and IC_SGI from outside the platform view. 12 R422, R436 to R441: writes of a source's configuration, pulses of the event router and the end of an output pulse. Corners that the rules leave open are the model's choice: log entry 39. -/
def Obligations.InterruptsAndEvents : Prop :=
  (∀ (i : Fin 1024) (c : Fin 3586) (id : BitVec 10) (g : Fin 64) (v : Fin 2048) (r : Requester) (s : State),
      let x := s.src i
      let y := s.src id.toNat
      let never : Prop := i.val = 681 ∨ i.val = 682 ∨ (686 ≤ i.val ∧ i.val ≤ 719) ∨ (817 ≤ i.val ∧ i.val ≤ 847) ∨ (900 ≤ i.val ∧ i.val ≤ 911) ∨
        i.val = 918 ∨ i.val = 919 ∨ (940 ≤ i.val ∧ i.val ≤ 959) ∨ 1020 ≤ i.val
      (never → exec (.sourceAssert i) s = .next s) ∧
      (¬ never → srcIsState i = false →
        (s.flag (Reg.IC_SRC_CFG i) Reg.IC_SRC_CFG_EN = false → exec (.sourceAssert i) s = .next s) ∧
        (s.flag (Reg.IC_SRC_CFG i) Reg.IC_SRC_CFG_EN = true → x.count = 15 → exec (.sourceAssert i) s =
          .next ((s.setSrc i { x with ovf := true }).wr Reg.IC_ERR Reg.IC_ERR_OVF 1)) ∧
        (s.flag (Reg.IC_SRC_CFG i) Reg.IC_SRC_CFG_EN = true → x.count ≠ 15 → exec (.sourceAssert i) s =
          .next ((s.setSrc i { x with count := x.count + 1 }).refreshSrc i))) ∧
      (¬ never → srcIsState i = true → exec (.sourceAssert i) s = .next (s.setCond i true)) ∧
      (s.ic.waiting = [] → s.ic.settled < 16 → ∃ t : State, exec (.claim c) s = .next t ∧ t.ic.settled = s.ic.settled + 1 ∧ t.ic.waiting = [] ∧
        (s.candidate c true = none → t = { s.reply respOk [⟨tagU64, 0x3FF⟩] with ic := { s.ic with settled := s.ic.settled + 1 } }) ∧
        (∀ k, s.candidate c true = some k → t.answer = ⟨0, [⟨tagU64, BitVec.ofNat 64 (k + s.prio k * 2 ^ 10 + (s.src k).count * 2 ^ 16)⟩]⟩ ∧
          (t.src k).count = 0 ∧ (t.src k).active = true ∧ (t.src k).ctx = c.val)) ∧
      ((s.ic.waiting ≠ [] ∨ 16 ≤ s.ic.settled) → exec (.claim c) s =
          .next { s with ic := { s.ic with waiting := insClaim ⟨c, s.gav.xclk, .sender, 2 ^ 64 - 1⟩ s.ic.waiting } } ∧
        ((∀ z ∈ s.ic.waiting, z.at' = s.gav.xclk → z.ctx ≤ c.val) → insClaim ⟨c, s.gav.xclk, .sender, 2 ^ 64 - 1⟩ s.ic.waiting =
          s.ic.waiting ++ [⟨c, s.gav.xclk, .sender, 2 ^ 64 - 1⟩])) ∧
      (id = 0x3FF → exec (.complete c id) s = .next (s.reply respOk [])) ∧
      (id ≠ 0x3FF → (y.active = false ∨ y.ctx ≠ c.val) → exec (.complete c id) s =
        .next (((s.wr Reg.IC_ERR Reg.IC_ERR_BADCOMPLETE 1).count Reg.IC_BADCPL Reg.IC_BADCPL_COUNT 1).reply respOk [])) ∧
      (id ≠ 0x3FF → y.active = true → y.ctx = c.val → ∃ t : State, exec (.complete c id) s = .next t ∧ (t.src id.toNat).active = false ∧
        t.answer = ⟨0, []⟩) ∧
      (sget (fun _ => none) s.ic.holdoff g = none → exec (.holdoffExpiry g) s = .next s) ∧
      (∀ e, sget (fun _ => none) s.ic.holdoff g = some e → exec (.holdoffExpiry g) s = .next (s.passTo e).endHoldoffs) ∧
      (∀ u : State, u.ic.holdoff.any (fun p => !p.2.any fun k => decide (u.gav.mono < k)) = true →
          u.endHoldoffs = State.refreshAll { u with ic := { u.ic with holdoff := u.ic.holdoff.filter fun p => p.2.any fun k => decide (u.gav.mono < k) } }) ∧
      (sget (fun _ => false) s.ic.pba v = false → exec (.msixUnmask v) s =
        .next { s with ic := { s.ic with unmasked := sset (fun _ => false) s.ic.unmasked v true, pba := sset (fun _ => false) s.ic.pba v false } }) ∧
      (s.platOk r = false → exec (.icSgi r id) s = .next (s.reply errPerm []))) ∧
  (∀ (r : Requester) (i : Fin 1024) (d : Word) (ch : Fin 128) (hi : Bool) (n : Fin 32) (s : State),
      let w := BitVec.ofNat 64 (bits d.toNat 0 22 + bits d.toNat 32 11 * 2 ^ 32 + bits d.toNat 48 13 * 2 ^ 48)
      let t := s.setReg (Reg.IC_SRC_CFG i) w
      (s.platOk r = false → exec (.icSrcCfg r i d) s = .next (s.reply errPerm []) ∧ exec (.evrFire r hi d) s = .next (s.reply errPerm [])) ∧
      (s.platOk r = true →
        (bits d.toNat 7 2 = 3 → exec (.icSrcCfg r i d) s = .next (s.reply errTarget [])) ∧
        (bits d.toNat 7 2 ≠ 3 → bits d.toNat 0 1 = 1 → exec (.icSrcCfg r i d) s = .next (t.refreshAll.reply respOk [])) ∧
        (bits d.toNat 7 2 ≠ 3 → bits d.toNat 0 1 = 0 → exec (.icSrcCfg r i d) s =
          .next ((t.setSrc i { s.src i with count := 0 }).refreshAll.reply respOk [])) ∧
        exec (.evrFire r hi d) s = .next ((s.pulses (((List.range 64).filter fun k => bits d.toNat k 1 == 1 &&
          s.flag (Reg.EVR_CH_CFG ((if hi then 64 else 0) + k)) Reg.EVR_CH_CFG_FIRE).map fun k => (if hi then 64 else 0) + k)).reply respOk [])) ∧
      exec (.eventFire ch) s = .next (s.pulse ch) ∧
      (sget (fun _ => false) s.ic.gpHigh (32 + n.val) = false → exec (.evoutPulseEnd n) s = .next s) ∧
      (∀ k, sget (fun _ => false) s.ic.gpHigh (32 + n.val) = true → k = sget (fun _ => 0) s.ic.gpEnd (32 + n.val) - s.gav.xclk →
        exec (.evoutPulseEnd n) s = .next (s.pass k k)) ∧
      (sget (fun _ => 0) s.ic.gpEnd (32 + n.val) ≤ s.gav.xclk → sget (fun _ => false) (s.pinEdge1 n).ic.gpHigh (32 + n.val) = false) ∧
      (∀ c, s.gav.pulsed.contains c = true → s.gavPulse c = s))

/-- 13 R446 to R456: reads and writes of a tenant's queue window dequeue, enqueue, free and allocate; offsets without a valid queue answer ERR_DECODE; an ALLOC of any requests through valid queues answers one descriptor each, and a FREE through a valid queue answers OK. Corners that the rules leave open are the model's choice: log entries 27 and 40. -/
def Obligations.QueueOperations : Prop :=
  ∀ (tn : BitVec 13) (j : Fin 1024) (d : Word) (a : AllocReq) (s : State),
    let t := tn.toNat
    let h := dHandle d
    (s.qAt t j = none → exec (.deq tn j 0) s = .next (s.reply errDecode []) ∧ exec (.enq tn j d) s = .next (s.reply errDecode []) ∧
      exec (.free tn j d) s = .next (s.reply errDecode [])) ∧
    (∀ q, s.qAt t j = some q →
      let x := s.queue q
      (x.fault = true → exec (.deq tn j 0) s = .next (s.replyWord (descNone 2)) ∧ exec (.enq tn j d) s = .next ((s.qmFaultOp h q t).reply respOk []) ∧
        exec (.free tn j d) s = .next ((s.qmFaultOp h q t).reply respOk [])) ∧
      (x.fault = false →
        (x.ring = [] → exec (.deq tn j 0) s = .next (s.replyWord (descNone 0))) ∧
        (∀ w rest, x.ring = w :: rest → exec (.deq tn j 0) s =
          .next ((((s.setQueue q { x with ring := rest }).setOwner (dHandle w) (some (.held t q))).qDequeued q).replyWord w)) ∧
        (∀ k, s.owner h = some (.held t k) → x.ring.length < s.qCapacity q → exec (.enq tn j d) s =
          .next (((s.setOwner h (some (.queued t q))).qEnqueued q d).reply respOk [])) ∧
        (∀ k, s.owner h = some (.held t k) → s.qCapacity q ≤ x.ring.length → exec (.enq tn j d) s =
          .next (((s.freeBuffer h).qDrop q 5).reply respOk [])) ∧
        ((∀ k, s.owner h ≠ some (.held t k)) → exec (.enq tn j d) s = .next ((s.qmErr 2 h q t).reply respOk [])) ∧
        (∀ k, (s.poolOf h).isSome = true → s.owner h = some (.held t k) → exec (.free tn j d) s = .next ((s.freeBuffer h).reply respOk [])) ∧
        (s.poolOf h = none → exec (.free tn j d) s = .next ((s.qmErr 1 h q t).reply respOk [])) ∧
        ((s.poolOf h).isSome = true → s.owner h = none → exec (.free tn j d) s = .next ((s.qmErr 0 h q t).reply respOk [])))) ∧
    (s.qAt a.t.toNat a.j = none → exec (.alloc [a]) s = .next (s.reply errDecode [])) ∧
    (∀ q, s.qAt a.t.toNat a.j = some q →
      ((s.queue q).fault = true → exec (.alloc [a]) s = .next (s.replyWord (descNone 2))) ∧
      ((s.queue q).fault = false → s.shareFor a.t.toNat (s.qPool q) = none → exec (.alloc [a]) s = .next (s.replyWord (descNone 1))) ∧
      (∀ x, (s.queue q).fault = false → s.shareFor a.t.toNat (s.qPool q) = some x →
        (s.nextFree x = none → exec (.alloc [a]) s = .next ((s.countEmpty x).replyWord (descNone 1))) ∧
        (∀ b, s.freeCount x ≠ 0 → s.nextFree x = some b → exec (.alloc [a]) s = .next ((s.takeBuffer x b (.held a.t.toNat q)).replyWord (descOf b 0 0 0))))) ∧
    (∀ reqs : List AllocReq, (∀ z ∈ reqs, (s.qAt z.t.toNat z.j).isSome = true) →
      ∃ u : State, exec (.alloc reqs) s = .next u ∧ u.answer.resp = 0 ∧ u.answer.data.length = reqs.length) ∧
    ((s.qAt t j).isSome = true → ∃ u : State, exec (.free tn j d) s = .next u ∧ u.answer = ⟨0, []⟩)

/-- 13 R446 and R450: a descriptor enqueued to an empty queue is the one that the next DEQ returns, and its buffer is then held by the tenant. -/
def Obligations.DequeueReturnsWhatWasEnqueued : Prop :=
  ∀ (tn : BitVec 13) (j : Fin 1024) (d : Word) (q k : Nat) (s : State), s.qAt tn.toNat j = some q → (s.queue q).fault = false → (s.queue q).ring = [] →
    s.owner (dHandle d) = some (.held tn.toNat k) →
    ∃ t u : State, exec (.enq tn j d) s = .next t ∧ exec (.deq tn j 0) t = .next u ∧ u.answer = ⟨0, [⟨tagU64, d⟩]⟩ ∧
      (u.queue q).ring = [] ∧ u.owner (dHandle d) = some (.held tn.toNat q)

/-- 13 R456 to R467: admission, backpressure and posting of frames, refill, SHED, FAULT, the records of a second and the clearing of counters. Corners that the rules leave open are the model's choice: log entry 40. -/
def Obligations.IngressAndOverload : Prop :=
  ∀ (p : Fin 6) (lane : Fin 16) (full : Bool) (q : BitVec 17) (r : Requester) (s : State),
    let qn := q.toNat
    let x := s.queue qn
    (∀ f0 f u, (s.qm.classified.find? fun f => f.port == p.val) = some f0 → u = { s with qm := { s.qm with classified := s.qm.classified.erase f0 } } →
      f = { f0 with lane := u.laneOf f0 } → u.waitingAt p f.lane = [] →
      ((u.judgeFrame f).1 ≠ .wait → exec (.ingressAdmit p full) s = .next ((u.judgeFrame f).2.leave f)) ∧
      ((u.judgeFrame f).1 = .wait → (full = false ∨ 8 ≤ f.lane) → exec (.ingressAdmit p full) s =
        .next (((u.judgeFrame f).2.setWaiting p f.lane ((u.judgeFrame f).2.waitingAt p f.lane ++ [u.markTok f])).pfcOf (u.markTok f) true)) ∧
      ((u.judgeFrame f).1 = .wait → full = true → f.lane < 8 → exec (.ingressAdmit p full) s =
        .next ((u.judgeFrame f).2.count (Reg.OCT_RXCNT2 p) Reg.OCT_RXCNT2_PFCOVF 1))) ∧
    (∀ (f : IFrame) (u : State), u.qValid f.q = false → u.judgeFrame f = (.gone, u.count Reg.QM_NOQ Reg.QM_NOQ_COUNT 1)) ∧
    (s.waitingAt p lane = [] → exec (.ingressRetry p lane) s = .next s) ∧
    (∀ f, s.waitingAt p lane = [f] → (s.judgeFrame f).1 = .wait → exec (.ingressRetry p lane) s = .next ((s.judgeFrame f).2.setWaiting p lane [s.markTok f])) ∧
    (∀ f, s.waitingAt p lane = [f] → (s.judgeFrame f).1 ≠ .wait → exec (.ingressRetry p lane) s =
      .next (((((s.judgeFrame f).2.setWaiting p lane []).unback f.q).leave f).pfcOf f false)) ∧
    (∀ f h t, (s.qm.admitted.find? fun x => x.1.port == p.val) = some (f, h) → s.writeWaits f h = false →
      t = { s with qm := { s.qm with admitted := s.qm.admitted.erase (f, h) } } →
      ((t.queue f.q).fault = true → exec (.ingressPost p) s = .next t) ∧
      ((t.queue f.q).fault = false → (t.queue f.q).ring.length < t.qCapacity f.q → exec (.ingressPost p) s =
        .next (t.qEnqueued f.q (descOf h f.data.length f.kind (f.port + f.entry * 8)))) ∧
      ((t.queue f.q).fault = false → t.qCapacity f.q ≤ (t.queue f.q).ring.length → exec (.ingressPost p) s = .next ((t.freeBuffer h).qDrop f.q 1))) ∧
    (∀ u : State, u = s.passTo ((s.usNow + 1) * 1000) → exec .tokenRefill s = .next u.refill ∧ (u.qm.queues = [] → u.refill = u)) ∧
    (∀ (tn : Nat) (u : State), u.qm = s.qm → u.cfg = s.cfg → u.usNow = s.usNow + 1 → (sget (fun _ => (0, 0)) s.qm.deficit tn).2 ≤ s.usNow →
      s.deficit tn ≤ Reg.QM_TB_BURST.of (s.tbWord tn) * 8000 →
      u.tokens8000 tn = min (Reg.QM_TB_BURST.of (s.tbWord tn) * 8000) (s.tokens8000 tn + Reg.QM_TB_RATE.of (s.tbWord tn))) ∧
    (∀ b u, s.qClass qn ≠ 0 → x.back = some b → Reg.QM_QCFG2_LLTIME.of (s.qcfg2 qn) ≠ 0 → x.shed = false →
      u = s.passTo (b + 1000 * Reg.QM_QCFG2_LLTIME.of (s.qcfg2 qn)) → exec (.shedEntry q) s =
      .next ((u.setQueue qn { u.queue qn with shed := true }).qmErrFree 5 qn (s.qTenant qn))) ∧
    (x.shed = true → exec (.shedEntry q) s = .next s) ∧
    exec (.descRamUe q) s = .next ((s.setQueue qn { x with fault := true }).qmErrFree 3 qn (s.qTenant qn)) ∧
    (∀ u : State, u = s.passTo (s.gav.mono + (1000000000 - s.gav.tai % 1000000000)) →
      ((∀ z ∈ u.qm.queues, z.2.second = 0) → exec .dropRecordSecond s = .next u) ∧
      (∀ n z, u.qm.queues = [(n, z)] → z.second ≠ 0 → exec .dropRecordSecond s =
        .next ((u.setQueue n { z with second := 0 }).submit
          [{ u.msub 0x5C07 sevWarning unitQueue n z.second (u.qTenant n) with tai := u.gav.tai - u.gav.tai % 1000000000, mono := u.gav.mono - u.gav.tai % 1000000000 }]))) ∧
    (s.platOk r = false → exec (.qmCntclr r) s = .next (s.reply errPerm [])) ∧
    (s.platOk r = true → ∃ t : State, exec (.qmCntclr r) s = .next t ∧ t.answer = ⟨0, []⟩ ∧ (t.queue (s.rd Reg.QM_QSEL Reg.QM_QSEL_QUEUE)).drops = [] ∧
      sget (fun _ => 0) t.qm.refused (s.rd Reg.QM_TSEL Reg.QM_TSEL_TENANT) = 0 ∧ t.qm.own = s.qm.own ∧ t.regs = s.regs)

/-- 14 R473 to R476, R482 and R490: what a port of MODE OCT with its link up does with each kind of flit that arrives, and what its timers send. 14 R482 and 16 R531: the neighbour state of a port moves by its DISC flits: NONE or MISMATCH to SEEN, three of the same identity to UP, and a version more than one away to MISMATCH. Corners that the rules leave open are the model's choice: log entries 36 and 41. -/
def Obligations.FlitsAndNeighbours : Prop :=
  (∀ (p : Fin 6) (f : Flit) (fd : DiscFlit) (fp : PtpFlit) (s : State), s.portMode p = 0 → s.rd (Reg.OCT_STAT p) Reg.OCT_STAT_NSTATE ≠ 3 →
      let x := s.oport p
      let h := f.hdr.toNat
      let good : Prop := f.crc.toNat = crc32 (leBytes 4 h ++ natsOf f.body)
      let acked : State := if bits h 30 1 = 1 then s.takeAck p (bits h 20 10) else s
      let took : State := acked.modPort p fun y => { y with rxSeq := (y.rxSeq + 1) % 1024, naked := false, unacked := y.unacked + 1 }
      (s.linkUp p 0 = false → exec (.flitReceive p f) s = .next s ∧ exec (.discFlit p fd) s = .next s ∧ exec (.ptpFlit p fp) s = .next s) ∧
      (s.linkUp p 0 = true →
        (¬ good → bits h 0 4 = 1 → x.naked = false → exec (.flitReceive p f) s =
          .next ((((s.count (Reg.OCT_RETRY p) Reg.OCT_RETRY_CRCERR 1).modPort p fun y => { y with naked := true, nak := some y.rxSeq }).pumpAll).ackMany p)) ∧
        (¬ good → bits h 0 4 = 1 → x.naked = true → exec (.flitReceive p f) s = .next ((s.count (Reg.OCT_RETRY p) Reg.OCT_RETRY_CRCERR 1).pumpAll.ackMany p)) ∧
        (good → bits h 0 4 = 0 → exec (.flitReceive p f) s = .next (acked.pumpAll.ackMany p)) ∧
        (good → bits h 0 4 = 1 → bits h 10 10 ≠ (acked.oport p).rxSeq → exec (.flitReceive p f) s = .next ((acked.discardFlit p true).pumpAll.ackMany p)) ∧
        (good → bits h 0 4 = 1 → bits h 10 10 = (acked.oport p).rxSeq → exec (.flitReceive p f) s =
          .next ((took.modPort p fun y => { y with rx := sset (fun _ => []) y.rx (bits h 4 3) (sget (fun _ => []) y.rx (bits h 4 3) ++ [(h, f.body)]) }).pumpAll.ackMany p)) ∧
        (good → bits h 0 4 = 2 → bits h 10 10 = (acked.oport p).rxSeq → exec (.ctrlFlit p f) s = .next ((took.takeCtrl p f.body).pumpAll.ackMany p)) ∧
        exec (.ackTimer p) s = .next ((s.passTo x.ackDue).sendAck p) ∧
        (s.portReleased p = true → ∀ u : State, u = s.passTo x.discDue → exec (.discSend p) s =
          .next ((u.modPort p fun y => { y with discDue := u.gav.mono + 1000000, unacked := 0, ackDue := u.gav.mono + 100 }).emit
            (.disc p x.rxSeq (s.rd Reg.OCT_DID Reg.OCT_DID_DID) s.discPart s.runVer))) ∧
        (fd.good = false → exec (.discFlit p fd) s = .next (s.count (Reg.OCT_RETRY p) Reg.OCT_RETRY_CRCERR 1)) ∧
        (∀ u : State, u = s.passTo x.ptpDue → exec (.ptpFlitSend p) s =
          .next ((u.setPort p { x with ptpOut := some u.gav.tai, ptpDue := u.gav.mono + 125000000, unacked := 0, ackDue := u.gav.mono + 100 }).emit
            (.ptpFlit p x.rxSeq (x.ptpOut.getD 0) (x.ptpIn.getD 0)))) ∧
        (fp.good = true → fp.ack = none → (x.ptpIn = none → exec (.ptpFlit p fp) s = .next (s.setPort p { x with ptpIn := some s.gav.tai })) ∧
          (∀ i o, x.ptpIn = some i → x.ptpOut = some o → exec (.ptpFlit p fp) s = .next ((s.setPort p { x with ptpIn := some s.gav.tai }).followOff p
            ((((fp.ingress.toNat : Int) - o) - ((i : Int) - fp.egress.toNat)) / 2))))) ∧
      (∀ u : State, (u.sendAck p = (u.setPort p { u.oport p with unacked := 0, ackDue := u.gav.mono + 100 }).emitFlit p (u.oport p).ackBits (List.replicate 248 0)) ∧
        ((u.oport p).unacked < 32 → u.ackMany p = u) ∧ (32 ≤ (u.oport p).unacked → u.ackMany p = u.sendAck p)) ∧
      (∀ u : State, u = s.passTo (x.discIn + 5000000) →
        (s.rd (Reg.OCT_STAT p) Reg.OCT_STAT_NSTATE = 2 → exec (.neighbourLost p) s = .next ((u.modPort p fun y => { y with disc := 0 }).setNState p 0)) ∧
        (s.rd (Reg.OCT_STAT p) Reg.OCT_STAT_NSTATE = 1 → exec (.neighbourLost p) s = .next (u.modPort p fun y => { y with disc := 0 })) ∧
        (s.rd (Reg.OCT_STAT p) Reg.OCT_STAT_NSTATE = 0 → exec (.neighbourLost p) s = .next s))) ∧
  (∀ (p : Fin 6) (f : DiscFlit) (s t : State), s.portMode p = 0 → s.linkUp p 0 = true → f.good = true → f.ack = none →
      t = (s.setReg (Reg.OCT_NBR p) (BitVec.ofNat 64 (f.did.toNat + f.port.toNat * 2 ^ 18 + f.ver.toNat * 2 ^ 32))).modPort p (fun x => { x with discIn := s.gav.mono }) →
      let far : Prop := 1 < absDiff f.ver.toNat s.runVer ∨ bits f.part.toNat 15 1 ≠ s.rd Reg.ID_PART Reg.ID_PART_SECMODE
      let same : Prop := s.rd (Reg.OCT_NBR p) Reg.OCT_NBR_DID = f.did.toNat ∧ s.rd (Reg.OCT_NBR p) Reg.OCT_NBR_PORT = f.port.toNat
      let st := s.rd (Reg.OCT_STAT p) Reg.OCT_STAT_NSTATE
      let disc (n : Nat) : State := t.modPort p fun x => { x with disc := n }
      (far → exec (.discFlit p f) s = .next ((disc 0).setNState p 3).pumpAll) ∧
      (¬ far → (st = 0 ∨ st = 3) → exec (.discFlit p f) s = .next ((disc 1).setNState p 1).pumpAll) ∧
      (¬ far → st = 1 → same → (s.oport p).disc + 1 < 3 → exec (.discFlit p f) s = .next (disc ((s.oport p).disc + 1)).pumpAll) ∧
      (¬ far → st = 1 → same → 3 ≤ (s.oport p).disc + 1 → exec (.discFlit p f) s = .next ((disc ((s.oport p).disc + 1)).setNState p 2).pumpAll) ∧
      (¬ far → st = 1 → ¬ same → exec (.discFlit p f) s = .next (disc 1).pumpAll) ∧
      (¬ far → st = 2 → same → exec (.discFlit p f) s = .next t.pumpAll) ∧
      (¬ far → st = 2 → ¬ same → exec (.discFlit p f) s = .next ((disc 0).setNState p 0).pumpAll))

/-- 14 R478 to R484: a whole message is delivered to the classifier's queue, forwarded, or dropped and counted. Corners that the rules leave open are the model's choice: log entry 41. -/
def Obligations.MessagesOfAPort : Prop :=
  ∀ (p : Fin 6) (vc : Fin 8) (fl rest : List (Nat × List Byte)) (s : State),
    headMsg (sget (fun _ => []) (s.oport p).rx vc) = some (fl, rest) →
    let bs := fl.flatMap (·.2)
    let h := msgHdr bs
    let own := s.rd Reg.OCT_DID Reg.OCT_DID_DID
    let take (s : State) : State := s.modPort p fun x => { x with rx := sset (fun _ => []) x.rx vc rest, stuck := sset (fun _ => none) x.stuck vc none }
    (vc.val ≠ 3 → h.dst = own → exec (.messageReceive p vc) s = .next ((take s).deliver p vc fl.length bs).pumpAll) ∧
    (vc.val ≠ 3 → h.dst ≠ own → h.hops = 31 → exec (.messageReceive p vc) s =
      .next ((((take (s.count (Reg.OCT_FWDCNT p) Reg.OCT_FWDCNT_HOPDROP 1)).owe p vc fl.length).octErr p Reg.OCT_ERR_HOPS).pumpAll)) ∧
    (vc.val ≠ 3 → h.dst ≠ own → h.hops ≠ 31 → s.routeMsg h = none → exec (.messageReceive p vc) s =
      .next (((take (s.count (Reg.OCT_FWDCNT p) Reg.OCT_FWDCNT_NOROUTE 1)).owe p vc fl.length).pumpAll)) ∧
    (∀ o, vc.val ≠ 3 → h.dst ≠ own → h.hops ≠ 31 → s.routeMsg h = some o → sget (fun _ => 0) (s.oport o).credit vc ≠ 0 → sget (fun _ => []) (s.oport o).tx vc = [] →
      ∃ w out, w = toBytes (leBytes 8 (ofLeBytes (natsOf (bs.take 8)) + 2 ^ 53)) ∧
        out = fl.zipIdx.map (fun f => (⟨f.1.1 % 2 ^ 9, if f.2 = 0 then w ++ f.1.2.drop 8 else f.1.2, some (p.val, vc.val)⟩ : TxFlit)) ∧
        exec (.messageReceive p vc) s = .next (((take s).modPort o fun z => { z with tx := sset (fun _ => []) z.tx vc out }).pumpAll)) ∧
    (∀ o, h.dst ≠ own → h.hops ≠ 31 → s.routeMsg h = some o → (sget (fun _ => 0) (s.oport o).credit vc = 0 ∨ sget (fun _ => []) (s.oport o).tx vc ≠ []) →
      exec (.messageReceive p vc) s =
        .next (s.modPort p fun x => { x with stuck := sset (fun _ => none) x.stuck vc ((sget (fun _ => none) x.stuck vc).or (some s.gav.mono)) }).pumpAll) ∧
    (vc.val = 3 → h.dst = own → s.rd Reg.UPD_STAT Reg.UPD_STAT_PHASE = 5 → exec (.messageReceive p vc) s = .next s.pumpAll) ∧
    (vc.val = 3 → h.dst = own → s.rd Reg.UPD_STAT Reg.UPD_STAT_PHASE ≠ 5 →
      ((s.admitMgmt p false).1 = true → exec (.messageReceive p vc) s =
        .next ((take ((s.admitMgmt p false).2.emit (.mgmt p (bs.take (16 + h.plen))))).owe p vc fl.length).pumpAll) ∧
      ((s.admitMgmt p false).1 = false → exec (.messageReceive p vc) s = .next ((take (s.admitMgmt p false).2).owe p vc fl.length).pumpAll)) ∧
    (sget (fun _ => none) (s.oport p).stuck vc = none → exec (.transitStuckDrop p vc) s = .next s) ∧
    (∀ b u, sget (fun _ => none) (s.oport p).stuck vc = some b → u = s.passTo (b + 10000000) → exec (.transitStuckDrop p vc) s =
      .next (((((take u).owe p vc fl.length).count (Reg.OCT_TXCNT p) Reg.OCT_TXCNT_STUCK 1).octErr p Reg.OCT_ERR_STUCK).pumpAll))

/-- 14 R469, R476 and R492 to R497: release, training, a failed lane, its return, a lost link and its retraining, and the clearing of a port's counters. Corners that the rules leave open are the model's choice: log entry 41. -/
def Obligations.LanesAndLinks : Prop :=
  ∀ (p : Fin 6) (k : Fin 8) (sizes : Vector (BitVec 11) 8) (r : Requester) (s : State), s.portMode p = 0 →
    (exec (.release .steward p) s = .next ((s.releasePort p).reply respOk []) ∧ (r ≠ .steward → exec (.release r p) s = .next (s.reply errPerm []))) ∧
    (∀ u : State, u = (s.dropHeld p).raiseLink p 0 → s.portReleased p = true → s.linkUp p 0 = false → exec (.linkUp p 0 sizes) s =
      .next ((u.modPort p fun x => { OPort.reset with credit := (sizes.toList.zipIdx).foldl (fun m v => sset (fun _ => 0) m v.2 v.1.toNat) [], released := x.released, mgmt := x.mgmt, mgmtOut := x.mgmtOut, replays := x.replays, clock := x.clock, ackDue := u.gav.mono + 100, discDue := u.gav.mono, ptpDue := u.gav.mono }).pumpAll)) ∧
    (s.portReleased p = false → exec (.linkUp p 0 sizes) s = .next s) ∧
    (∀ u : State, u = s.wr (Reg.OCT_LANE p k) Reg.OCT_LANE_LOCK 0 → u.portMode p = 0 → u.linkUp p 0 = true →
      (u.flag (Reg.OCT_STAT p) Reg.OCT_STAT_DEGRADED = false → exec (.laneFailure p k) s = .next (u.degrade p k true).pumpAll) ∧
      (u.flag (Reg.OCT_STAT p) Reg.OCT_STAT_DEGRADED = true → u.rd (Reg.OCT_STAT p) Reg.OCT_STAT_DLANE ≠ k.val → exec (.laneFailure p k) s =
        .next (u.dropLink p 0))) ∧
    (s.flag (Reg.OCT_STAT p) Reg.OCT_STAT_DEGRADED = true → (s.oport p).laneOwn = true → exec (.laneRejoin p) s =
      .next ((s.passTo (s.oport p).laneDue).rejoin p true).pumpAll) ∧
    ((s.oport p).laneOwn = false → exec (.laneRejoin p) s = .next s) ∧
    (s.linkUp p 0 = true → exec (.linkDown p 0) s =
      .next ((((((eachDo (s.linkLanes p 0) (fun k u => u.wr (Reg.OCT_LANE p k) Reg.OCT_LANE_ACTIVE 0) s).setLinkUp p 0 false).countLanes p).octErr p
        Reg.OCT_ERR_LINKDOWN).modPort p fun x => { x with downAt := sset (fun _ => 0) x.downAt 0 s.gav.mono }).wr (Reg.OCT_STAT p) Reg.OCT_STAT_DEGRADED 0 |>.loseNeighbour p)) ∧
    (s.linkUp p 0 = false → exec (.linkDown p 0) s = .next s ∧ (s.portReleased p = true →
      (∀ f rest, ((s.raiseLink p 0).oport p).retry = f :: rest →
        exec (.linkRetrainDone p 0 true) s = .next ((s.raiseLink p 0).replay p f.seq).pumpAll) ∧
      exec (.linkRetrainDone p 0 false) s = .next ((s.passTo (sget (fun _ => 0) (s.oport p).downAt 0 + 1000000000)).dropHeld p).pumpAll)) ∧
    (s.platOk r = false → exec (.octCntclr r p) s = .next (s.reply errPerm [])) ∧
    (s.platOk r = true → ∃ t : State, exec (.octCntclr r p) s = .next t ∧ t.answer = ⟨0, []⟩ ∧ (∀ l < 8, t.reg (Reg.OCT_MACCNT p l) = 0) ∧
      t.reg (Reg.OCT_RETRY p) = 0 ∧ t.reg (Reg.OCT_RXCNT p) = 0 ∧ t.reg (Reg.OCT_RXCNT2 p) = 0 ∧ t.reg (Reg.OCT_TXCNT p) = 0 ∧ t.reg (Reg.OCT_FWDCNT p) = 0)

/-- 14 R484 to R491: what becomes of an Ethernet frame, the clock unit's messages, and the transmission of a channel's oldest descriptor. Corners that the rules leave open are the model's choice: log entries 36, 37 and 38. -/
def Obligations.FramesAndTransmission : Prop :=
  ∀ (p : Fin 6) (l : Fin 8) (ch : Fin 16384) (f : List Byte) (st : Option (Fin 6)) (s : State),
    let g := f.take (f.length - 4)
    let a := elemWord (s.elem 10 1 ch) 0
    let b := elemWord (s.elem 10 1 ch) 1
    let q := Reg.OCT_CHA_TXQ.of a
    ((s.portMode p = 0 ∨ s.linkUp p l = false) → exec (.ethFrameReceive p l f) s = .next s) ∧
    (s.portMode p ≠ 0 → s.linkUp p l = true →
      (s.flag (Reg.OCT_CTRL p) Reg.OCT_CTRL_MACEN = false → exec (.ethFrameReceive p l f) s =
        .next (s.count (Reg.OCT_RXCNT2 p) Reg.OCT_RXCNT2_RXOFF 1)) ∧
      (s.flag (Reg.OCT_CTRL p) Reg.OCT_CTRL_MACEN = true → macOk f = false → exec (.ethFrameReceive p l f) s =
        .next (s.count (Reg.OCT_MACCNT p l) Reg.OCT_MACCNT_RXBAD 1)) ∧
      (s.flag (Reg.OCT_CTRL p) Reg.OCT_CTRL_MACEN = true → macOk f = true → (ethHdr f).ety = 0x8808 →
        (beNat (slice f (ethHdr f).body 2) = 1 → exec (.ethFrameReceive p l f) s = .next (s.count (Reg.OCT_MACCNT p l) Reg.OCT_MACCNT_PAUSE 1)) ∧
        (beNat (slice f (ethHdr f).body 2) = 0x0101 → exec (.ethFrameReceive p l f) s = .next (s.pfcFrame p l f))) ∧
      (s.flag (Reg.OCT_CTRL p) Reg.OCT_CTRL_MACEN = true → macOk f = true → (ethHdr f).ety ≠ 0x8808 → s.ptpTaken p f = true →
        exec (.ethFrameReceive p l f) s = .next (if l = 0 then s.ptpFrame p f else s)) ∧
      (s.flag (Reg.OCT_CTRL p) Reg.OCT_CTRL_MACEN = true → macOk f = true → (ethHdr f).ety ≠ 0x8808 → s.ptpTaken p f = false →
        (s.classEth p l g = none → exec (.ethFrameReceive p l f) s = .next (s.count (Reg.OCT_RXCNT p) Reg.OCT_RXCNT_NOCLASS 1)) ∧
        (∀ n, s.classEth p l g = some n → s.rd (Reg.OCT_CLSA p n) Reg.OCT_CLSA_MATCH ≠ 1 → exec (.ethFrameReceive p l f) s =
          .next (s.classify ⟨p, n, ethKind (ethHdr g).ety, s.rd (Reg.OCT_CLSB p n) Reg.OCT_CLSB_QUEUE, s.ethBuffer g, 0, 0, l, ((ethHdr g).tci.getD 0) / 2 ^ 13, false⟩)) ∧
        (∀ n, s.classEth p l g = some n → s.rd (Reg.OCT_CLSA p n) Reg.OCT_CLSA_MATCH = 1 → beNat (slice g ((ethHdr g).body + 4) 2) % 4096 = 0 →
          beNat (slice g ((ethHdr g).body + 6) 2) = 0 → svApdu (g.drop ((ethHdr g).body + 8)) = none →
          exec (.ethFrameReceive p l f) s = .next (s.count (Reg.OCT_RXCNT p) Reg.OCT_RXCNT_SVBAD 1)))) ∧
    (s.ethUp p 0 = true →
      (s.ptpTaken p f = true → exec (.ptpFrameReceive p f none) s = .next (s.ptpFrame p f) ∧
        (∀ v, st = some v → exec (.ptpFrameReceive p f st) s = .next ((s.ptpFrame p f).ptpState p v))) ∧
      (s.rd (Reg.OCT_PTP p) Reg.OCT_PTP_STATE ≠ 2 → ∃ n, n = ((s.oport p).clock.reqSeq + 1) % 65536 ∧ exec (.ptpMessageSend p) s =
        .next ((s.modClock p fun c => { c with reqSeq := n, reqAt := some s.gav.tai, respRx := none, respIn := none }).emit (.ptpMsg p 2 n 0)))) ∧
    ((Reg.OCT_CHA_VALID.of a = 0 ∨ Reg.OCT_CHA_PORT.of a ≠ p.val ∨ (s.queue q).fault = true) → exec (.portTransmit p ch 0) s = .next s) ∧
    (Reg.OCT_CHA_VALID.of a = 1 → Reg.OCT_CHA_PORT.of a = p.val → (s.queue q).fault = false →
      ((s.queue q).ring = [] → exec (.portTransmit p ch 0) s = .next s) ∧
      (∀ d rest pool x t, (s.queue q).ring = d :: rest → s.poolOf (dHandle d) = some pool →
        x = s.readBuffer (s.bufferPa pool (dHandle d)) (bits d.toNat 24 17) (Reg.OCT_CHA_TENANT.of a) →
        (if s.portMode p = 0 then x.2.sendOct p a b (s.qClass q) x.1 else x.2.sendEth p a b x.1) = some t →
        exec (.portTransmit p ch 0) s = .next (((t.setQueue q { t.queue q with ring := rest }).freeBuffer (dHandle d)).qDequeued q)))

/-- 15 R508 to R512: staging, checking, filling and discarding of a bitstream buffer. Corners that the rules leave open are the model's choice: log entry 67. -/
def Obligations.BitstreamStaging : Prop :=
  ∀ (r : Requester) (b : Fin 4) (s : State),
    let v := s.stgState b
    (s.platOk r = false → exec (.stage r b) s = .next (s.reply errPerm []) ∧ exec (.discard r b) s = .next (s.reply errPerm [])) ∧
    (s.platOk r = true →
      ((v = 1 ∨ v = 4 ∨ v = 5) → exec (.stage r b) s = .next (s.reply errTarget [])) ∧
      (∀ t : State, v ≠ 1 → v ≠ 4 → v ≠ 5 → t = (s.setStgCode b (rej 0)).setStg b 1 → exec (.stage r b) s =
        .next (({ t with bsl := { t.bsl with stages := t.bsl.stages ++ [b.val] } } : State).reply respOk [])) ∧
      ((s.commitEntry.any fun k => s.rd (Reg.GAV_TRIGB k) Reg.GAV_TRIGB_TARGET == b.val) = true → exec (.discard r b) s = .next (s.reply errPerm [])) ∧
      ((s.commitEntry.any fun k => s.rd (Reg.GAV_TRIGB k) Reg.GAV_TRIGB_TARGET == b.val) = false →
        (v = 1 → exec (.discard r b) s = .next (s.reply errTarget [])) ∧
        (v ≠ 1 → v ≠ 4 → v ≠ 5 → exec (.discard r b) s = .next (((s.setStgCode b (rej 0)).setStg b 0).reply respOk [])) ∧
        (∀ u : State, u = ((({ s with bsl := { s.bsl with shadow := [], shadowSeq := 0 } } : State).setStgCode b (rej 0)).setStg b 0) →
          (v = 5 → exec (.discard r b) s = .next (u.reply respOk [])) ∧
          (v = 4 → exec (.discard r b) s = .next (((u.assert 912).recordReg 912 unitLoader (Reg.BSL_STGSTAT b)).reply respOk []))))) ∧
    (s.bsl.stages = [] → exec .stageCheckDone s = .next s) ∧
    (∀ n rest x t, s.bsl.stages = n :: rest → x = s.stgBytes n →
      t = ({ x.2 with bsl := { x.2.bsl with stages := rest } } : State).setReg (Reg.BSL_STGSEQ n) (BitVec.ofNat 64 (leAt x.1 24 8)) →
      (∀ e, t.checkStream x.1 (s.stgCap n) true false = .error e → exec .stageCheckDone s =
        .next (((t.rejectStg n e).assert 912).recordReg 912 unitLoader (Reg.BSL_STGSTAT n))) ∧
      (∀ c, t.checkStream x.1 (s.stgCap n) true false = .ok c → exec .stageCheckDone s =
        .next (((t.setStg n 2).assert 912).recordReg 912 unitLoader (Reg.BSL_STGSTAT n)))) ∧
    (s.filling = none → exec .fillDone s = .next s) ∧
    (∀ n x, s.filling = some n → x = s.stgBytes n →
      (∀ e, x.2.checkStream x.1 (s.stgCap n) true false = .error e → exec .fillDone s =
        .next (((x.2.rejectStg n e).assert 912).recordReg 912 unitLoader (Reg.BSL_STGSTAT n))) ∧
      (∀ c, x.2.checkStream x.1 (s.stgCap n) true false = .ok c → exec .fillDone s = .next (((({ x.2 with bsl := { x.2.bsl with
        shadow := c.recs, shadowSeq := c.seq } } : State).setStg n 5).assert 912).recordReg 912 unitLoader (Reg.BSL_STGSTAT n))))

/-- 17 R534 to R545: PORST_N, start-up from power-on, and the requests of the service port; a repeated request is answered again and not performed, and CLOSE stores the image that its checks pass or answers why not. Corners that the rules leave open are the model's choice: log entries 6, 60 to 64. -/
def Obligations.StartUpAndServicePort : Prop :=
  ∀ (bd : Board) (seq : BitVec 16) (kind : Byte) (len off : BitVec 32) (data : List Byte) (s : State),
    let q := seq.toNat
    let k := kind.toNat
    exec .porstNAssert s = .next s.porst ∧
    (∃ t : State, exec (.powerOnReset bd) s = .next t ∧ t = (s.porst.boot1 bd).boot2) ∧
    (∀ u : State, u = (s.porst.boot1 bd).wr Reg.UPD_BOOT Reg.UPD_BOOT_STEP 2 → (u.pickImage 1 fun img => u.imageCheck 1 img == 0).1 = none →
      exec (.powerOnReset bd) s = .next ((u.pickImage 1 fun img => u.imageCheck 1 img == 0).2.wr Reg.UPD_BOOT Reg.UPD_BOOT_STATE 2)) ∧
    (s.boot.inReset = true → exec (.svcInfo seq) s = .next s ∧ exec (.svcOpen seq kind len) s = .next s ∧ exec (.svcData seq off data) s = .next s ∧
      exec (.svcClose seq) s = .next s ∧ exec (.svcStatus seq) s = .next s) ∧
    (∀ r, s.boot.inReset = false → (s.boot.replies.find? fun r => r.seq == q) = some r →
      exec (.svcInfo seq) s = .next (s.emit (.svc r)) ∧ exec (.svcOpen seq kind len) s = .next (s.emit (.svc r)) ∧
      exec (.svcData seq off data) s = .next (s.emit (.svc r)) ∧ exec (.svcClose seq) s = .next (s.emit (.svc r)) ∧
      exec (.svcStatus seq) s = .next (s.emit (.svc r))) ∧
    (s.boot.inReset = false → (s.boot.replies.find? fun r => r.seq == q) = none →
      (∃ d, exec (.svcInfo seq) s = .next (s.svcReply 1 svcOk q d)) ∧
      exec (.svcStatus seq) s = .next (s.svcReply 5 svcOk q []) ∧
      (s.boot.session.isSome = true → exec (.svcOpen seq kind len) s = .next (s.svcReply 2 svcBusy q [])) ∧
      (s.boot.session = none → (k = 0 ∨ 3 < k) → exec (.svcOpen seq kind len) s = .next (s.svcReply 2 svcBadOp q [])) ∧
      (∀ e, s.boot.session = none → 1 ≤ k → k ≤ 3 → (∀ u, s.boot.upAt = some u → u + 10 ^ 10 ≤ s.gav.mono) → len.toNat ≤ 2 ^ 25 → s.freeSlot k = some e →
        len.toNat ≤ e.size → exec (.svcOpen seq kind len) s =
          .next (({ s with boot := { s.boot with session := some (k, len.toNat), image := [] } } : State).svcReply 2 svcOk q [])) ∧
      (s.boot.session = none → exec (.svcData seq off data) s = .next (s.svcReply 3 svcNotOpen q []) ∧
        exec (.svcClose seq) s = .next (s.svcReply 4 svcNotOpen q [])) ∧
      (∀ m n, s.boot.session = some (m, n) →
        (n < off.toNat + data.length → exec (.svcData seq off data) s = .next (s.svcReply 3 svcBadOffset q [])) ∧
        (off.toNat + data.length ≤ n → exec (.svcData seq off data) s = .next (({ s with boot := { s.boot with
          image := data.zipIdx.foldl (fun m p => sset (fun _ => (0 : Byte)) m (off.toNat + p.2) p.1) s.boot.image } } : State).svcReply 3 svcOk q [])) ∧
        (∀ img v t, img = (List.range n).map (fun i => sget (fun _ => (0 : Byte)) s.boot.image i) → v = s.svcVerdict m img →
          t = ({ s with boot := { s.boot with session := none, image := [] } } : State) → exec (.svcClose seq) s =
            .next (if v = 0 then
                ((((t.storeImage m img).assert 916).recordReg 916 unitSteward Reg.UPD_BOOT).svcReply 4 svcOk q []).svcResume m (((s.freeSlot m).map (·.slot)).getD 0)
              else ((t.assert 916).recordReg 916 unitSteward Reg.UPD_BOOT).svcReply 4 svcRejected q (toBytes [v])))))

/-- 17 R546, R547 and R558: only the Steward starts an operation of the key engine, one at a time; its end writes CODE and KE_CYCLES, clears BUSY and sets DONE. Corners that the rules leave open are the model's choice: log entries 60 and 65. -/
def Obligations.KeyEngineOperations : Prop :=
  ∀ (r : Requester) (k : Fin 4) (flag : Bool) (s : State),
    let starts (i : Instr) (w : Nat) : Prop :=
      exec i s = .next (if r ≠ .steward then s.reply errPerm []
        else if s.flag Reg.KE_STAT Reg.KE_STAT_BUSY = true then s.reply errTarget []
        else ((({ s with ke := { s.ke with cmd := w, began := s.gav.xclk } } : State).wr Reg.KE_STAT Reg.KE_STAT_BUSY 1).reply respOk []))
    let left := s.ke.began + 2 * s.keKclk - s.gav.xclk
    let u := s.pass left left
    let done (x : Nat × State) : Prop := exec .keDone s =
      .next ((((x.2.wr Reg.KE_STAT Reg.KE_STAT_BUSY 0).wr Reg.KE_STAT Reg.KE_STAT_CODE x.1).wr Reg.KE_CYCLES Reg.KE_CYCLES_COUNT u.keKclk).setErr Reg.KE_STAT
        Reg.KE_STAT_DONE 917)
    let op := bits u.ke.cmd 0 4
    let len := u.rd Reg.KE_LEN Reg.KE_LEN_LEN
    let src (n : Nat) := u.busBytes (u.rd Reg.KE_SRC Reg.KE_SRC_PA) n
    starts (.verify r) 1 ∧ starts (.ecdh r flag) (2 + 16 * b2n flag) ∧ starts (.sha384 r) 3 ∧ starts (.gcmDecrypt r k) (4 + 32 * k.val) ∧
    starts (.gcmEncrypt r k) (5 + 32 * k.val) ∧ starts (.xts r k flag) (6 + 32 * k.val + 128 * b2n flag) ∧ starts (.derive r k) (7 + 32 * k.val) ∧
    starts (.keygen r) 8 ∧ starts (.random r) 9 ∧
    (s.flag Reg.KE_STAT Reg.KE_STAT_BUSY = false → exec .keDone s = .next s) ∧
    (s.flag Reg.KE_STAT Reg.KE_STAT_BUSY = true →
      (∀ b t, op = 3 → src len = (respOk, b, t) → done (0, t.kePut (sha384 b)) ∧ u.keKclk = 40 * ((len + 144) / 128) + 80) ∧
      (∀ c b t, op = 3 → src len = (c, b, t) → c ≠ respOk → done (6, t)) ∧
      (∀ b t, op = 1 → src 240 = (respOk, b, t) → done (ecdsaCode (beVal (b.take 48)) (beVal ((b.drop 48).take 48)) (beVal ((b.drop 96).take 48))
        (beVal ((b.drop 144).take 48)) (beVal ((b.drop 192).take 48)), t) ∧ u.keKclk = 920000) ∧
      (op = 9 → done (0, (u.keRandom 32).2.kePut (u.keRandom 32).1) ∧ u.keKclk = 600))

/-- 17 R548 to R556: the commands of the update controller by what stands in the way of each, and the ends of its steps: the preparation ends READY, or with the result that says what failed. Corners that the rules leave open are the model's choice: log entry 66. -/
def Obligations.UpdateController : Prop :=
  ∀ (r : Requester) (v : BitVec 16) (k : Fin 4) (s : State),
    let phase := s.rd Reg.UPD_STAT Reg.UPD_STAT_PHASE
    let mode := s.flag Reg.UPD_STAT Reg.UPD_STAT_MODE
    (s.platOk r = false → exec (.prepare r v) s = .next (s.reply errPerm []) ∧ exec (.start r) s = .next (s.reply errPerm []) ∧
      exec (.stop r) s = .next (s.reply errPerm []) ∧ exec (.raiseMin r) s = .next (s.reply errPerm []) ∧ exec (.revoke r k) s = .next (s.reply errPerm [])) ∧
    (s.platOk r = true →
      ((v.toNat = s.runVer ∨ v.toNat = s.runVer + 1) → mode = false → phase ≠ 1 → phase ≠ 5 → exec (.prepare r v) s =
        .next ((((s.wr Reg.UPD_STAT Reg.UPD_STAT_NEXTVER v.toNat).wr Reg.UPD_STAT Reg.UPD_STAT_RESULT 0).updPhase 1).reply respOk [])) ∧
      (v.toNat ≠ s.runVer → v.toNat ≠ s.runVer + 1 → exec (.prepare r v) s = .next (s.reply errTarget [])) ∧
      (s.rd Reg.UPD_BOOT Reg.UPD_BOOT_SECMODE = 1 → exec (.start r) s = .next (s.reply errPerm [])) ∧
      (s.rd Reg.UPD_BOOT Reg.UPD_BOOT_SECMODE ≠ 1 → phase ≠ 2 → exec (.start r) s = .next (s.reply errTarget [])) ∧
      (s.rd Reg.UPD_BOOT Reg.UPD_BOOT_SECMODE ≠ 1 → phase = 2 → s.flag Reg.BSL_STAT Reg.BSL_STAT_CONFIG = false →
        s.versionsFit (s.rd Reg.UPD_STAT Reg.UPD_STAT_NEXTVER) = true → exec (.start r) s =
          .next ((((s.wr Reg.UPD_STAT Reg.UPD_STAT_MODE 1).wr Reg.UPD_STAT Reg.UPD_STAT_SKIPMASK 0).updTurn 16).reply respOk [])) ∧
      (phase = 5 → exec (.stop r) s = .next (s.reply errTarget [])) ∧
      (1 ≤ phase → phase ≤ 3 → exec (.stop r) s = .next ((s.updStop 5).reply respOk [])) ∧
      ((phase = 0 ∨ phase = 6 ∨ phase = 7) → exec (.stop r) s = .next (s.reply respOk [])) ∧
      (mode = true → exec (.raiseMin r) s = .next (s.reply errTarget [])) ∧
      (∀ here t, mode = false → here = ((List.range 208).filter fun e => s.role e == 0 || s.role e == 1) →
        (∀ e ∈ here, s.rd (Reg.UPD_ENGVER e) Reg.UPD_ENGVER_VERSION = s.runVer) → (∀ n ∈ s.boot.fuses.rows, n < 16) →
        t = ({ s with boot := { s.boot with fuses := { s.boot.fuses with rows := s.boot.fuses.rows.map (· + 1) } } } : State) →
        exec (.raiseMin r) s = .next (((((t.wr Reg.UPD_MIN Reg.UPD_MIN_FWMIN s.runVer).wr Reg.UPD_MIN Reg.UPD_MIN_PATCHMIN
          (s.rd (Reg.ENG_UC_STAT (here.headD 0)) Reg.ENG_UC_STAT_PATCH_LEVEL)).setReg Reg.UPD_SEQMIN (s.reg Reg.BSL_SEQ)).showRows).reply respOk [])) ∧
      ((phase = 0 ∨ phase = 6 ∨ phase = 7) → s.rd Reg.UPD_REVSTAT Reg.UPD_REVSTAT_STATE ≠ 1 → exec (.revoke r k) s =
        .next (((({ s with upd := { s.upd with revoking := some k.val } } : State).wr Reg.UPD_REVSTAT Reg.UPD_REVSTAT_STATE 1).wr Reg.UPD_REVSTAT
          Reg.UPD_REVSTAT_CODE 0).reply respOk [])) ∧
      ((1 ≤ phase ∧ phase ≤ 5) → exec (.revoke r k) s = .next (s.reply errTarget []))) ∧
    (phase ≠ 1 → exec .prepareDone s = .next s) ∧
    (phase = 1 → s.setSlot 1 = none → exec .prepareDone s = .next (s.updStop 1)) ∧
    (phase = 1 → ∃ t : State, exec .prepareDone s = .next t ∧ (t = s.updStop 1 ∨ t = s.updStop 2 ∨ t = s.updStop 3 ∨
      ∃ f p b x, s.setSlot 1 = some f ∧ s.setSlot 2 = some p ∧ s.setSlot 3 = some b ∧ s.checkBytes (s.imageIn b) (2 ^ 25) false = .ok x ∧
        s.imageCheck 1 (s.imageIn f) = 0 ∧ s.imageCheck 2 (s.imageIn p) = 0 ∧ leAt (s.imageIn f) 20 2 = s.rd Reg.UPD_STAT Reg.UPD_STAT_NEXTVER ∧
        x.delta = false ∧ x.seq = (s.reg Reg.BSL_SEQ).toNat ∧ t.upd.slots = [f.slot, p.slot, b.slot] ∧
        t.rd Reg.UPD_STAT Reg.UPD_STAT_PHASE = 2 ∧ t.rd Reg.UPD_STAT Reg.UPD_STAT_RESULT = 0)) ∧
    (s.upd.revoking = none → exec .revokeDone s = .next s) ∧
    (∀ n x t c, s.upd.revoking = some n → x = s.readBytes true (s.rd Reg.UPD_REVSRC Reg.UPD_REVSRC_PA) 256 0 → c = s.revokeCheck n x.1 →
      t = ({ x.2 with upd := { x.2.upd with revoking := none } } : State) →
      (c = 0 → exec .revokeDone s = .next ((t.wr Reg.ID_FUSE Reg.ID_FUSE_REVOKED (setBits (t.rd Reg.ID_FUSE Reg.ID_FUSE_REVOKED) n 1 1)).wr
        Reg.UPD_REVSTAT Reg.UPD_REVSTAT_STATE 2)) ∧
      (c ≠ 0 → exec .revokeDone s = .next (((t.wr Reg.UPD_REVSTAT Reg.UPD_REVSTAT_STATE 3).wr Reg.UPD_REVSTAT Reg.UPD_REVSTAT_CODE c).updErr
        Reg.UPD_ERR_REVOKE))) ∧
    (phase = 5 → s.upd.slots = [] → exec .stewardFirmwareSwitch s = .next (((s.wr Reg.UPD_STAT Reg.UPD_STAT_RUNVER (s.rd Reg.UPD_STAT
      Reg.UPD_STAT_NEXTVER)).wr Reg.UPD_STAT Reg.UPD_STAT_MODE 0).updPhase 6)) ∧
    (phase ≠ 5 → exec .stewardFirmwareSwitch s = .next s) ∧
    (∀ e u, s.fitSpare (s.rd Reg.UPD_STAT Reg.UPD_STAT_CLUSTER) = some e → s.role e = 7 →
      u = ((s.loadStore e).wr (Reg.UPD_ENGVER e) Reg.UPD_ENGVER_VERSION (s.rd Reg.UPD_STAT Reg.UPD_STAT_NEXTVER)) →
      (∀ f : BitVec 24, f.toNat ≠ 2 ^ 24 - 1 → exec (.spareLoadDone f) s = .next (((u.selfTest e f).setRole e 1).retireEngine e 3)) ∧
      (∀ w : State, w = (u.selfTest e 0xFFFFFF).setRole e 1 → w.flag Reg.UPD_STAT Reg.UPD_STAT_MODE = false → exec (.spareLoadDone 0xFFFFFF) s = .next w))

/-- 18 R560 to R569, 19 R597 and R599: the survey, the decision of a plan, the steps of ECLK and what the junction temperature does. Corners that the rules leave open are the model's choice: log entry 70. -/
def Obligations.MarginsAndTemperature : Prop :=
  ∀ (c : Fin 16) (r : Requester) (raw : Vector (BitVec 16) 64) (out : Vector (BitVec 16) 128) (s : State),
    let busy := s.flag Reg.MRG_STAT Reg.MRG_STAT_BUSY
    let updating := s.rd Reg.UPD_STAT Reg.UPD_STAT_PHASE = 5
    (s.gav.mono < s.mrg.started + 86400000000000 → exec .surveyStart s = .next s) ∧
    (s.mrg.started + 86400000000000 ≤ s.gav.mono → busy = true → exec .surveyStart s = .next { s with mrg := { s.mrg with due := true } }) ∧
    (∀ t : State, s.mrg.started + 86400000000000 ≤ s.gav.mono → busy = false → t = ((s.wr Reg.MRG_STAT Reg.MRG_STAT_BUSY 1).wr Reg.MRG_STAT Reg.MRG_STAT_CLUSTER 0).setReg Reg.MRG_LASTTAI
      (BitVec.ofNat 64 s.gav.tai) → exec .surveyStart s = .next { t with mrg := { t.mrg with due := false, started := s.gav.mono, read := 0 } }) ∧
    (s.platOk r = true → exec (.now r) s = .next (s.startSurvey.reply respOk [])) ∧
    (s.platOk r = false → exec (.now r) s = .next (s.reply errPerm [])) ∧
    (updating → exec (.planDecide c raw) s = .next s) ∧
    (∀ t : State, ¬ updating → busy = true → s.mrg.read = c.val →
      t = (s.decidePlan c (fun k => raw.toList.getD k 0) true).wr Reg.MRG_STAT Reg.MRG_STAT_CLUSTER (min 15 (c.val + 1)) →
      exec (.planDecide c raw) s = .next { t with mrg := { t.mrg with read := c.val + 1 } }) ∧
    (¬ updating → (busy = false ∨ s.mrg.read ≠ c.val) → sget (fun _ => false) s.mrg.again c = true → (s.hoPhase c = 0 ∨ 5 ≤ s.hoPhase c) → exec (.planDecide c raw) s =
      .next (s.decidePlan c (fun k => raw.toList.getD k 0) false)) ∧
    (busy = true → s.mrg.read = 16 → ∃ t : State, exec (.surveyComplete out) s = .next t ∧ (s.mrg.due = false → t.rd Reg.MRG_STAT Reg.MRG_STAT_BUSY = 0)) ∧
    ((busy = false ∨ s.mrg.read ≠ 16) → exec (.surveyComplete out) s = .next s) ∧
    (∀ u t : State, u = s.passTo (sget (fun _ => 0) s.mrg.stepAt c) → t = { u with mrg := { u.mrg with avsFail := sset (fun _ => false) u.mrg.avsFail c true } } → exec (.eclkStep c true) s =
      .next (((t.wr (Reg.MRG_CFL c) Reg.MRG_CFL_HELD 1).assert 684).recordReg 684 (unitMargin c) (Reg.MRG_CLU c))) ∧
    (∀ u t : State, u = s.passTo (sget (fun _ => 0) s.mrg.stepAt c) → sget (fun _ => none) u.mrg.held c = none → sget (fun _ => false) u.mrg.avsFail c = false →
      u.planHeld c = false → u.mrg.hot = false →
      t = { u with mrg := { u.mrg with eclk := sset (fun _ => 1500) u.mrg.eclk c (stepTo (u.eclkNow c) (u.rd (Reg.MRG_CLU c) Reg.MRG_CLU_ECLK)), stepAt := sset (fun _ => 0) u.mrg.stepAt c (u.gav.mono + 10000) } } →
      exec (.eclkStep c false) s = .next (t.setDomain (c / 4))) ∧
    ((s.src 683).cond = true → exec .tjAlert s = .next s) ∧
    ((s.src 683).cond = false → exec .tjAlert s = .next ((s.setCond 683 true).recordReg 683 unitSteward Reg.MRG_STAT)) ∧
    (∃ t : State, exec .tjThrottle s = .next t ∧ t.mrg.hot = true ∧ (∀ n < 16, t.rd (Reg.MRG_CFL n) Reg.MRG_CFL_HELD = 1)) ∧
    (∃ t : State, exec .tjCool s = .next t ∧ t.mrg.hot = false ∧ (t.src 683).cond = false ∧ (t.src 685).cond = false) ∧
    exec .thermtrip s = .next { s with mrg := { s.mrg with trip := true } }

/-- 18 R570 to R573: every submission goes on; a first submission of an XCLK, below CRITICAL and not of the flash ring, writes the record after the head; a repeat within a second counts REP; a lost one is counted. Corners that the rules leave open are the model's choice: log entry 44. -/
def Obligations.EventRecorder : Prop :=
  ∀ (q : SubReq) (qs : List SubReq) (x : MSub) (s : State),
    exec (.marigoldSubmit qs) s = .next (s.submit (qs.map fun q => s.msub q.code.toNat q.sev.val q.unit.toNat q.p0.toNat q.p1.toNat q.tenant.toNat)) ∧
    (x = s.msub q.code.toNat q.sev.val q.unit.toNat q.p0.toNat q.p1.toNat q.tenant.toNat →
    exec (.marigoldSubmit []) s = .next (s.submit []) ∧
    (s.mgd.buffer = [] → exec (.marigoldSubmit [q]) s = .next (({ s with mgd := { s.mgd with buffer := [] } } : State).writeRec x)) ∧
    (∀ h r, s.mgd.buffer = [] → s.foldOf x = none → toFlash x.sev x.code = false → x.sev < 5 →
      h = (s.rd Reg.MGD_STAT Reg.MGD_STAT_HEAD + 1) % 8192 →
      r = (⟨x.code, x.sev, x.flags + (if s.mgd.lost then 4 else 0), x.unit, 1, x.tai, x.angle, x.p0, x.p1, x.tenant⟩ : MRec) →
      ∃ u : State, exec (.marigoldSubmit [q]) s = .next u ∧ u.mrec h = r ∧ u.rd Reg.MGD_STAT Reg.MGD_STAT_HEAD = h) ∧
    (∀ f, s.mgd.buffer = [] → s.foldOf x = some f → s.folds x f = true →
      ∃ u : State, exec (.marigoldSubmit [q]) s = .next u ∧ (u.mrec f.slot).rep = satAdd 16 (s.mrec f.slot).rep 1 ∧
        u.rd Reg.MGD_STAT Reg.MGD_STAT_HEAD = s.rd Reg.MGD_STAT Reg.MGD_STAT_HEAD))

/-- 19 R577, R581 to R588 and R600: requests through the BARs, configuration, resets and the link of PCIe, who is refused the outbound window, the mailbox and the service link. Corners that the rules leave open are the model's choice: log entries 12 to 15 and 50. -/
def Obligations.HostInterface : Prop :=
  ∀ (q : PciReq) (c : CfgReq) (f : Fin 2049) (reg : BitVec 10) (w : BitVec 32) (speed width : Nat) (flit : Bool) (r : Requester) (a : BitVec 48) (d : Word)
    (data : List Byte) (rep : List (Fin 512 × Word)) (s : State),
    let o := q.off.toNat
    (s.pciReady = false → exec (.pcieConfigRequest c) s = .next (s.sendCompletion .retry false []) ∧
      (q.write = false → exec (.pcieInboundRequest q) s = .next (s.sendCompletion .unsupported false [])) ∧
      (q.write = true → exec (.pcieInboundRequest q) s = .next (s.posted .unsupported))) ∧
    (s.pciReady = true →
      (q.fn = 0 → q.bar = 0 → o < 0x4000000 → ∀ u : State, q.write = true → u = s.platWrite .pf o q.data.length (wordOf (q.data.take 8)) →
        (u.answer.resp ≠ errBusy → exec (.pcieInboundRequest q) s = .next (u.posted (pciOf u.answer.resp).1)) ∧
        (u.answer.resp = errBusy → exec (.pcieInboundRequest q) s = .next s)) ∧
      (q.fn = 0 → q.bar = 0 → o < 0x4000000 → ∀ u v, q.write = false → s.platRead .pf o q.len (.host q.len) = (some (respOk, v), u) →
        exec (.pcieInboundRequest q) s = .next (u.sendCompletion (pciOf respOk).1 (pciOf respOk).2 ((bytesOf v).take q.len))) ∧
      (q.fn = 0 → q.bar = 2 → o < 0x10000 → exec (.pcieInboundRequest q) s = .next (s.pciPage 0 ⟨some ctxPf, some 0, .host q.len⟩ o q)) ∧
      (q.fn = 0 → q.bar = 4 → o < 2 ^ 38 → exec (.pcieInboundRequest q) s =
        .next (s.pciMem 0 o q fun pa => if pa < 0x002D00000000 then .pa pa else .no .unsupported)) ∧
      (∀ t, q.fn ≠ 0 → s.vfTenant q.fn.val = some t → q.bar = 2 → o < 2 ^ 46 → (∀ n, s.vfTo t q.write o ≠ .page n) → exec (.pcieInboundRequest q) s =
        .next (s.pciMem t o q (s.vfTo t q.write))) ∧
      (q.fn ≠ 0 → s.vfTenant q.fn.val = none → exec (.pcieInboundRequest q) s = .next (s.pciRefuse q)) ∧
      (∀ t, q.fn ≠ 0 → s.vfTenant q.fn.val = some t → q.bar = 0 → o < 0x10000 → exec (.pcieInboundRequest q) s =
        .next (s.pciPage t ⟨some (ctxPf + q.fn.val), some q.fn.val, .host q.len⟩ o q)) ∧
      exec (.pcieConfigRequest (.read f reg)) s = .next (s.sendCompletion .success false ((List.range 4).map fun i =>
        (sget (fun k => Config.pciConfig k) s.host.config (1024 * f.val + reg.toNat)).extractLsb' (8 * i) 8)) ∧
      (∃ t u : State, exec (.pcieConfigRequest (.write f reg w)) s = .next t ∧ exec (.pcieConfigRequest (.read f reg)) t = .next u ∧
        u.outbox = t.outbox ++ [.completion .success false ((List.range 4).map fun i => w.extractLsb' (8 * i) 8)])) ∧
    exec (.pcieReset (.flr f)) s = .next (((eachDo (pciFns f) (fun n t => t.pciResetFn n) s).setErr Reg.HOST_ERR Reg.HOST_ERR_FLR 678).recordReg 678
      unitSteward Reg.HOST_ERR) ∧
    exec (.pcieReset .hot) s = .next s.pciResetAll ∧ exec (.pcieReset .linkDown) s = .next s.pciResetAll.pciDown ∧
    exec (.pcieReset .perst) s = .next s.pciResetAll.pciDown ∧
    (4 ≤ speed → speed ≤ 6 → (speed = 6 → flit = true) → (width = 4 ∨ width = 8 ∨ width = 16) → exec (.pcieLinkUp speed width flit) s =
      .next ((((s.wr Reg.HOST_LINK Reg.HOST_LINK_SPEED speed).wr Reg.HOST_LINK Reg.HOST_LINK_WIDTH width).wr Reg.HOST_LINK Reg.HOST_LINK_FLIT
        (b2n flit)).setCond 676 false)) ∧
    ((speed < 4 ∨ 6 < speed ∨ (speed = 6 ∧ flit = false) ∨ (width ≠ 4 ∧ width ≠ 8 ∧ width ≠ 16)) → exec (.pcieLinkUp speed width flit) s = .next s) ∧
    (a.toNat < 0xF80000000000 → exec (.outboundAccess r a true data none) s = .next (s.reply errDecode [])) ∧
    (0xF80000000000 ≤ a.toNat → s.outOk r = false → exec (.outboundAccess r a true data none) s = .next (s.reply errPerm [])) ∧
    (s.platOk r = false → exec (.mbxDoor r d) s = .next (s.reply errPerm [])) ∧
    (s.platOk r = true → s.rd Reg.UPD_STAT Reg.UPD_STAT_PHASE = 5 → exec (.mbxDoor r d) s = .next (s.reply errBusy [])) ∧
    (s.platOk r = true → s.rd Reg.UPD_STAT Reg.UPD_STAT_PHASE ≠ 5 → s.flag Reg.MBX_DOOR Reg.MBX_DOOR_REQ = false → exec (.mbxDoor r d) s =
      .next (((s.wr Reg.MBX_DOOR Reg.MBX_DOOR_REQ (bits d.toNat 0 1)).wr Reg.MBX_DOOR Reg.MBX_DOOR_REPLY (bits d.toNat 1 1)).reply respOk [])) ∧
    (s.flag Reg.MBX_DOOR Reg.MBX_DOOR_REQ = true → exec (.mailboxReply rep) s = .next ((((((eachDo rep (fun p t => t.setReg (Reg.MBX_REP p.1.val) p.2) s).wr
      Reg.MBX_DOOR Reg.MBX_DOOR_REQ 0).wr Reg.MBX_DOOR Reg.MBX_DOOR_REPLY 1).assert 680).recordReg 680 unitSteward Reg.MBX_DOOR))) ∧
    (s.flag Reg.MBX_DOOR Reg.MBX_DOOR_REQ = false → exec (.mailboxReply rep) s = .next s) ∧
    exec (.svcLinkChange true) s = .next (s.setCond 679 false) ∧
    ((s.src 679).cond = false → exec (.svcLinkChange false) s = .next ((s.setCond 679 true).record 679 unitSteward 0 0 0))

/-- 16 R532, 19 R589 and R590: what a Read Block of SMBus answers and what each JTAG instruction does, in reset and out of it. Corners that the rules leave open are the model's choice: log entry 46. -/
def Obligations.SidebandInterfaces : Prop :=
  ∀ (x : BitVec 16) (pins : List Bool) (e : EngId) (halt : Bool) (s : State),
    let answers (i : Instr) (v : Nat) : Prop := (s.boot.inReset = false → exec i s = .next (s.reply respOk [⟨tagU64, BitVec.ofNat 64 v⟩])) ∧
      (s.boot.inReset = true → exec i s = .next s)
    let pinsOf (i : Instr) (j : JInstr) : Prop := (s.boot.inReset = true → exec i s = .next (s.setJtag j)) ∧
      (s.boot.inReset = false → exec i s = .next (s.setJtag .bypass))
    answers (.smbusHottestTj x) x.toNat ∧ answers (.smbusPackagePower x) x.toNat ∧
    answers .smbusUpdBoot (bits (s.reg Reg.UPD_BOOT).toNat 0 9) ∧ answers .smbusGavState (s.rd Reg.GAV_STAT Reg.GAV_STAT_STATE) ∧
    answers .smbusUpdatePhase (s.rd Reg.UPD_STAT Reg.UPD_STAT_PHASE + s.rd Reg.UPD_STAT Reg.UPD_STAT_RESULT * 2 ^ 8) ∧
    answers .smbusCriticalCount (min s.mgd.critical (2 ^ 32 - 1)) ∧
    answers .smbusLowestLife (((List.range 16).map fun c => s.rd (Reg.MRG_CLU c) Reg.MRG_CLU_LIFE).foldl min 65535) ∧
    exec .bypass s = .next (s.setJtag .bypass) ∧
    exec .idcode s = .next ((s.setJtag .idcode).reply respOk [⟨tagU64, 0xA0192C55⟩]) ∧
    (∃ t : State, exec (.samplePreload pins) s = .next t ∧ t.host.boundary = pins ∧ t.host.jtag = .sample ∧ t.pins = s.pins ∧ t.regs = s.regs) ∧
    pinsOf .extest .extest ∧ pinsOf .extestPulse .extestPulse ∧ pinsOf .extestTrain .extestTrain ∧ pinsOf .clamp .clamp ∧ pinsOf .highz .highz ∧
    (s.flag Reg.ID_PART Reg.ID_PART_SECMODE = true → exec (.debug e halt) s =
      .next ((s.setJtag .debug).modEngine e fun y => { y with halted := halt })) ∧
    (s.flag Reg.ID_PART Reg.ID_PART_SECMODE = false → exec (.debug e halt) s = .next (s.setJtag .bypass))

/-- 00 R4 to R9 and 19 R577: a write of the platform view is refused by requester, then by size and alignment, then by an offset without a register; a register without a writable or write-one-to-clear field keeps its word. Corners that the rules leave open are the model's choice: log entry 25. -/
def Obligations.RegisterWrites : Prop :=
  ∀ (r : Requester) (off : BitVec 26) (sz : AccSz) (d : Word) (s : State),
    let at_ := off.toNat + accAdd sz
    let o := at_ / 8 * 8
    (s.platOk r = false → exec (.registerWrite r off sz d) s = .next (s.reply errPerm [])) ∧
    (s.platOk r = true → accMask at_ (accBytes sz) = none → exec (.registerWrite r off sz d) s = .next (s.reply errTarget [])) ∧
    (∀ m, s.platOk r = true → accMask at_ (accBytes sz) = some m →
      (s.barOk r o = false → exec (.registerWrite r off sz d) s = .next (s.reply errDecode [])) ∧
      (s.barOk r o = true → regAt o = none → exec (.registerWrite r off sz d) s = .next (s.reply errDecode [])) ∧
      (∀ g, s.barOk r o = true → regAt o = some g → exec (.registerWrite r off sz d) s =
        .next (s.wrReg r g o (if at_ % 8 = 4 then d.toNat * 2 ^ 32 else d.toNat) m)) ∧
      (∀ g, s.barOk r o = true → regAt o = some g → g.mask .rw = 0 → g.mask .wo = 0 → g.mask .w1c = 0 → g.base ≠ Reg.KE_STAT → g.base ≠ Reg.KE_CYCLES →
        g.base ≠ Reg.IC_SRC_TGT 0 0 → g.base ≠ Reg.IC_SRC_TGT3 0 → g.base ≠ Reg.IC_SRC_STAT 0 →
        ∃ t : State, exec (.registerWrite r off sz d) s = .next t ∧ t.answer = ⟨0, []⟩ ∧ ∀ k, t.reg k = s.reg k))

/-- 07 R246, R257 and R258: an instruction that reads G registers and writes one waits, takes an exception at its fetch or its execution, or changes nothing but its destination, the program counter, the count toward a checkpoint and the count of corrected ROM words. -/
def Obligations.RegisterInstructionsFrame : Prop :=
  ∀ (i : Instr) (e : EngId) (rd : RegNo) (s t : State), registerOnly i = some (e, rd) → (s.engine e).icount < 1023 → exec i s = .next t →
    t = s ∨ (∃ n x, t = s.takeException e n x ∨ t = (s.past e 4).takeException e n x) ∨
    ((∀ r : RegNo, r ≠ rd → t.g e r = s.g e r) ∧ (∀ r : RegNo, t.f e r = s.f e r) ∧ t.astat e = s.astat e ∧ t.lev e = s.lev e ∧
      (∀ b : Nat, ((t.core e).bank b).save = ((s.core e).bank b).save) ∧ t.pc e = (s.pc e + 4) % 2 ^ 48 ∧
      (∀ k : Nat, k ≠ e.val → t.engine k = s.engine k) ∧ (t.engine e).stores = (s.engine e).stores ∧ (∀ a, t.mem.byte a = s.mem.byte a) ∧ t.mem = s.mem ∧
      (∀ k, k ≠ Reg.ENG_UC_CE e → t.reg k = s.reg k) ∧ (s.mem.ucFlaws = [] → t.regs = s.regs) ∧ t.ic = s.ic ∧ t.gav = s.gav ∧ t.pending = s.pending)

/-- 06 R206 and R217 to R220: a write of a DRAM line changes no byte, no tag and no line state of storage outside that line's place, and a partial write of a VALID line no byte of it that the write does not name. -/
def Obligations.LineWritesFrame : Prop :=
  ∀ (x : Xact) (l : LineNo) (ws : Line) (data : List (Fin 64 × Byte)) (tags : List (Fin 8 × Tag)) (s t : State),
    let key := if x.mid.val = 24 ∨ 26 ≤ x.mid.val then 0 else x.key.toNat
    let c := s.cell l
    s.place (l * 64) ≠ none → (s.lockUnit (s.sliceOf (l * 64))).held = false → s.keyErr l key = false →
    let outside : Prop := (∀ m, t.cell m = s.cell m) ∧ (∀ a, (a < c * 64 ∨ c * 64 + 64 ≤ a) → t.mem.byte a = s.mem.byte a) ∧
      (∀ k, (k < c * 8 ∨ c * 8 + 8 ≤ k) → t.mem.tag k = s.mem.tag k) ∧ (∀ m, m ≠ c → t.mem.side m = s.mem.side m) ∧
      (∀ m, s.cell m ≠ c → t.lineWords m = s.lineWords m) ∧ t.eng = s.eng ∧ t.pending = s.pending
    (s.remapLost l .clean = false → exec (.fullLineWrite x l ws) s = .next t → outside) ∧
    (s.dirtyLine l = none → s.remapLost l .clean = false → s.finds l .clean = .clean → (s.line l).st = 0 → s.itagOk l key = true →
      exec (.partialLineWrite x l data tags .clean) s = .next t →
      outside ∧ ∀ k : Fin 64, (∀ p ∈ data, p.1 ≠ k) → t.mem.byte (c * 64 + k) = s.mem.byte (c * 64 + k))

/-- 12 R432: a write of an ID from 960 to 1,019 to IC_SGI asserts that source once, a tenant page write only when the source's OWNER is the tenant and otherwise does nothing, and any other ID written to IC_SGI sets IC_ERR.BADSGI alone. -/
def Obligations.SoftwareInterrupts : Prop :=
  ∀ (r : Requester) (id : BitVec 10) (tn : BitVec 13) (s : State), s.platOk r = true →
    let n := id.toNat
    (960 ≤ n → n ≤ 1019 → exec (.icSgi r id) s = .next ((s.assert n).reply respOk []) ∧
      (s.rd (Reg.IC_SRC_CFG n) Reg.IC_SRC_CFG_OWNER = tn.toNat → exec (.tpDoorbell tn id) s = .next ((s.assert n).reply respOk [])) ∧
      (s.rd (Reg.IC_SRC_CFG n) Reg.IC_SRC_CFG_OWNER ≠ tn.toNat → exec (.tpDoorbell tn id) s = .next (s.reply respOk []))) ∧
    ((n < 960 ∨ 1019 < n) → exec (.icSgi r id) s = .next ((s.wr Reg.IC_ERR Reg.IC_ERR_BADSGI 1).reply respOk []) ∧
      exec (.tpDoorbell tn id) s = .next (s.reply respOk []))

/-- 13 R449: a DEQ or ALLOC on a queue in FAULT returns VALID 0 with CODE 2 and changes nothing else; an ENQ or FREE through it leaves every queue and buffer as it is and is counted in QM_ERRLOG. -/
def Obligations.QueueInFault : Prop :=
  ∀ (tn : BitVec 13) (j : Fin 1024) (d : Word) (a : AllocReq) (bad q : Nat) (s : State), s.qAt tn.toNat j = some q → (s.queue q).fault = true →
    exec (.deq tn j bad) s = .next (s.reply respOk [⟨tagU64, BitVec.ofNat 64 (2 * 2 ^ 59)⟩]) ∧
    (a.t = tn → a.j = j → exec (.alloc [a]) s = .next (s.reply respOk [⟨tagU64, BitVec.ofNat 64 (2 * 2 ^ 59)⟩])) ∧
    (∀ i ∈ [Instr.enq tn j d, Instr.free tn j d], ∃ t : State, exec i s = .next t ∧ t.qm = s.qm ∧ t.mem = s.mem ∧
      t.reg Reg.QM_ERRLOG = BitVec.ofNat 64 (dHandle d % 2 ^ 24 + (q % 2 ^ 17) * 2 ^ 24 + tn.toNat * 2 ^ 41 + 7 * 2 ^ 54))

/-- 19 R588: an access to the outbound window at address a becomes a host memory access at HOST_OUTBASE + (a − 0xF800_0000_0000); a write is posted, a read that completes with an error answers ERR_TARGET, and HOST_OUTBASE is the RW register at offset 0x0210 with reset value 0. -/
def Obligations.OutboundWindow : Prop :=
  ∀ (r : Requester) (a : BitVec 48) (d x : Word) (ho : Option Word) (data : List Byte) (s : State), 0xF80000000000 ≤ a.toNat → s.outOk r = true →
    let h := ((s.reg 0x210).toNat + (a.toNat - 0xF80000000000)) % 2 ^ 64
    exec (.outboundAccess r a true data ho) s = .next ((s.emit (.hostWrite h data)).reply respOk []) ∧
    exec (.outboundAccess r a false [] none) s = .next ((s.emit (.hostRead h)).reply errTarget []) ∧
    (∃ t : State, exec (.outboundAccess r a false [] (some x)) s = .next t ∧ t.answer.resp = 0 ∧ t.answer.data.map (·.val) = [x] ∧
      t.outbox = s.outbox ++ [.hostRead h] ∧ t.mem = s.mem ∧ t.regs = s.regs) ∧
    State.reset.reg 0x210 = 0 ∧
    (∃ t : State, exec (.registerWrite .steward 0x210 .w64 d) s = .next t ∧ t.answer = ⟨0, []⟩ ∧ t.reg 0x210 = d)
end

