-- ==== Sys2Proof/Laws/Sparse.lean ====
section
/-! SUPPORT. Laws of sparse maps: read after write, and the canonical form. -/
namespace Sys2Proof.Machine
variable {α : Type} [DecidableEq α] (d : Nat → α)

omit [DecidableEq α] in
theorem sget_sdel_same (m : Sparse α) (k : Nat) : sget d (sdel m k) k = d k := by
  induction m with
  | nil => rfl
  | cons p r ih =>
    obtain ⟨a, v⟩ := p
    by_cases h : a = k
    · simpa [sdel, h] using ih
    · simpa [sdel, h, sget] using ih

omit [DecidableEq α] in
theorem sget_sdel_ne (m : Sparse α) (k j : Nat) (hj : j ≠ k) : sget d (sdel m k) j = sget d m j := by
  induction m with
  | nil => rfl
  | cons p r ih =>
    obtain ⟨a, v⟩ := p
    by_cases h : a = k
    · have : ¬ k = j := fun h => hj h.symm
      simpa [sdel, h, sget, this] using ih
    · by_cases h2 : a = j
      · simp [sdel, sget, h2, hj]
      · simpa [sdel, h, sget, h2] using ih

omit [DecidableEq α] in
theorem sget_sins_same (m : Sparse α) (k : Nat) (v : α) (h : sget d m k = d k) (hk : ∀ p ∈ m, p.1 ≠ k) :
    sget d (sins m k v) k = v := by
  induction m with
  | nil => simp [sins, sget]
  | cons p r ih =>
    obtain ⟨a, w⟩ := p
    have ha : a ≠ k := hk (a, w) (by simp)
    by_cases hlt : k < a
    · simp [sins, hlt, sget]
    · simp only [sins, hlt, if_false, sget, ha]
      exact ih (by simpa [sget, ha] using h) fun q hq => hk q (by simp [hq])

omit [DecidableEq α] in
theorem sget_sins_ne (m : Sparse α) (k j : Nat) (v : α) (hj : j ≠ k) : sget d (sins m k v) j = sget d m j := by
  induction m with
  | nil => simp [sins, sget, Ne.symm hj]
  | cons p r ih =>
    obtain ⟨a, w⟩ := p
    by_cases hlt : k < a
    · simp [sins, hlt, sget, Ne.symm hj]
    · simp [sins, hlt, sget, ih]

omit [DecidableEq α] in
theorem sdel_keys (m : Sparse α) (k : Nat) : ∀ p ∈ sdel m k, p.1 ≠ k := by
  intro p hp; simpa [sdel] using (List.mem_filter.mp hp).2

/-- Read after write: the key written reads the value written. -/
@[simp] theorem sget_sset_same (m : Sparse α) (k : Nat) (v : α) : sget d (sset d m k v) k = v := by
  unfold sset
  split
  · rename_i h; rw [sget_sdel_same, h]
  · exact sget_sins_same d _ _ _ (sget_sdel_same d m k) (sdel_keys m k)

/-- A write leaves every other key alone. -/
theorem sget_sset_ne (m : Sparse α) (k j : Nat) (v : α) (h : j ≠ k) : sget d (sset d m k v) j = sget d m j := by
  unfold sset
  split
  · exact sget_sdel_ne d m k j h
  · rw [sget_sins_ne d _ _ _ _ h, sget_sdel_ne d m k j h]

theorem sget_sset (m : Sparse α) (k j : Nat) (v : α) : sget d (sset d m k v) j = if j = k then v else sget d m j := by
  split
  · rename_i h; rw [h, sget_sset_same]
  · rename_i h; exact sget_sset_ne d m k j v h

theorem swf_iff (m : Sparse α) : swf d m = true ↔ (m.Pairwise fun p q => p.1 < q.1) ∧ ∀ p ∈ m, p.2 ≠ d p.1 := by
  simp [swf, List.all_eq_true]

@[simp] theorem swf_nil : swf d ([] : Sparse α) = true := by simp [swf]

/-- Taking entries out keeps the canonical form. -/
theorem swf_filter (m : Sparse α) (f : Nat × α → Bool) (h : swf d m = true) : swf d (m.filter f) = true := by
  rw [swf_iff] at *
  exact ⟨h.1.filter _, fun p hp => h.2 p (List.mem_filter.mp hp).1⟩

omit [DecidableEq α] in
theorem sins_mem (m : Sparse α) (k : Nat) (v : α) (p : Nat × α) (h : p ∈ sins m k v) : p = (k, v) ∨ p ∈ m := by
  induction m with
  | nil => left; simpa [sins] using h
  | cons q r ih =>
    obtain ⟨a, w⟩ := q
    by_cases hlt : k < a
    · simpa [sins, hlt] using h
    · simp only [sins, hlt, if_false, List.mem_cons] at h
      rcases h with h | h
      · right; simp [h]
      · rcases ih h with h | h
        · exact .inl h
        · right; simp [h]

omit [DecidableEq α] in
theorem sins_sorted (m : Sparse α) (k : Nat) (v : α) (h : m.Pairwise fun p q => p.1 < q.1) (hk : ∀ p ∈ m, p.1 ≠ k) :
    (sins m k v).Pairwise fun p q => p.1 < q.1 := by
  induction m with
  | nil => simp [sins]
  | cons q r ih =>
    obtain ⟨a, w⟩ := q
    rw [List.pairwise_cons] at h
    have ha : a ≠ k := hk (a, w) (by simp)
    by_cases hlt : k < a
    · simp only [sins, hlt, if_true]
      refine List.pairwise_cons.mpr ⟨fun p hp => ?_, List.pairwise_cons.mpr h⟩
      rcases List.mem_cons.mp hp with rfl | hp
      · exact hlt
      · exact lt_trans hlt (h.1 p hp)
    · simp only [sins, hlt, if_false]
      refine List.pairwise_cons.mpr ⟨fun p hp => ?_, ih h.2 fun p hp => hk p (by simp [hp])⟩
      rcases sins_mem r k v p hp with rfl | hp
      · show a < k; omega
      · exact h.1 p hp

/-- A write keeps the canonical form. -/
theorem swf_sset (m : Sparse α) (k : Nat) (v : α) (h : swf d m = true) : swf d (sset d m k v) = true := by
  have hd : swf d (sdel m k) = true := swf_filter d m _ h
  unfold sset
  split
  · exact hd
  · rename_i hv
    rw [swf_iff] at hd ⊢
    refine ⟨sins_sorted _ k v hd.1 (sdel_keys m k), fun p hp => ?_⟩
    rcases sins_mem _ k v p hp with rfl | hp
    · exact hv
    · exact hd.2 p hp

end Sys2Proof.Machine
end

