-- ==== Sys2Proof/Laws/Keeps.lean ====
section
/-! SUPPORT. What an operation leaves alone: the queue of commands, and the canonical form of memory. -/
namespace Sys2Proof.Machine

/-! The canonical form of memory. -/

theorem Mem.wf_iff (m : Mem) : m.wf = true ↔
    swf (fun _ => 0) m.bytes = true ∧ swf (fun _ => tagEmpty) m.tags = true ∧
    swf (fun _ => LineMeta.clean) m.lines = true ∧ swf (fun _ => Ecc.clean) m.flaws = true ∧
    swf (fun _ => 0) m.keygen = true ∧ swf (fun _ => DirEntry.none) m.dir = true ∧
    swf (fun _ => []) m.copies = true ∧ swf (fun _ => LockUnit.free) m.locks = true ∧
    swf (fun _ => 0) m.busy = true ∧ swf (fun _ => 0) m.scrub = true ∧
    swf (fun _ => []) m.ueTimes = true ∧ swf (fun _ => 0) m.cePass = true ∧
    swf (fun _ => 0) m.passDone = true ∧ swf (fun _ => 0) m.remapBad = true ∧
    swf (fun _ => (0, 0)) m.slots = true ∧ swf (fun _ => []) m.resSlots = true ∧
    swf (fun _ => []) m.resOld = true ∧ swf (fun _ => 0) m.sanitPos = true ∧
    swf (fun _ => none) m.foxMarch = true ∧ swf (fun _ => 0) m.foxSince = true ∧
    swf (fun _ => 0) m.foxStuck = true ∧ swf (fun _ => false) m.hoDirty = true ∧
    swf (fun _ => Ecc.clean) m.ucFlaws = true ∧ swf (fun _ => Ecc.clean) m.ccFlaws = true ∧
    swf (fun _ => none) m.images = true := by
  simp [Mem.wf, and_assoc]

theorem Mem.reset_wf : Mem.reset.wf = true := by decide

theorem swf_sdrop {α : Type} [DecidableEq α] (d : Nat → α) (m : Sparse α) (f : Nat → Bool) (h : swf d m = true) : swf d (sdrop m f) = true :=
  swf_filter d m _ h

theorem swf_sdel {α : Type} [DecidableEq α] (d : Nat → α) (m : Sparse α) (k : Nat) (h : swf d m = true) : swf d (sdel m k) = true :=
  swf_filter d m _ h

theorem Mem.bytes_wf (m : Mem) (k : Nat) (v : Byte) (h : m.wf = true) : ({ m with bytes := sset (fun _ => 0) m.bytes k v } : Mem).wf = true := by
  simp only [Mem.wf_iff] at *; simp_all [swf_sset]

theorem Mem.tags_wf (m : Mem) (k : Nat) (v : Tag) (h : m.wf = true) : ({ m with tags := sset (fun _ => tagEmpty) m.tags k v } : Mem).wf = true := by
  simp only [Mem.wf_iff] at *; simp_all [swf_sset]

theorem Mem.lines_wf (m : Mem) (k : Nat) (v : LineMeta) (h : m.wf = true) : ({ m with lines := sset (fun _ => LineMeta.clean) m.lines k v } : Mem).wf = true := by
  simp only [Mem.wf_iff] at *; simp_all [swf_sset]

theorem Mem.flaws_wf (m : Mem) (k : Nat) (v : Ecc) (h : m.wf = true) : ({ m with flaws := sset (fun _ => Ecc.clean) m.flaws k v } : Mem).wf = true := by
  simp only [Mem.wf_iff] at *; simp_all [swf_sset]

theorem Mem.keygen_wf (m : Mem) (k : Nat) (v : Nat) (h : m.wf = true) : ({ m with keygen := sset (fun _ => 0) m.keygen k v } : Mem).wf = true := by
  simp only [Mem.wf_iff] at *; simp_all [swf_sset]

theorem Mem.dir_wf (m : Mem) (k : Nat) (v : DirEntry) (h : m.wf = true) : ({ m with dir := sset (fun _ => DirEntry.none) m.dir k v } : Mem).wf = true := by
  simp only [Mem.wf_iff] at *; simp_all [swf_sset]

theorem Mem.copies_wf (m : Mem) (k : Nat) (v : List TWord) (h : m.wf = true) : ({ m with copies := sset (fun _ => []) m.copies k v } : Mem).wf = true := by
  simp only [Mem.wf_iff] at *; simp_all [swf_sset]

theorem Mem.locks_wf (m : Mem) (k : Nat) (v : LockUnit) (h : m.wf = true) : ({ m with locks := sset (fun _ => LockUnit.free) m.locks k v } : Mem).wf = true := by
  simp only [Mem.wf_iff] at *; simp_all [swf_sset]

theorem Mem.busy_wf (m : Mem) (k : Nat) (v : Nat) (h : m.wf = true) : ({ m with busy := sset (fun _ => 0) m.busy k v } : Mem).wf = true := by
  simp only [Mem.wf_iff] at *; simp_all [swf_sset]

theorem Mem.scrub_wf (m : Mem) (k : Nat) (v : Nat) (h : m.wf = true) : ({ m with scrub := sset (fun _ => 0) m.scrub k v } : Mem).wf = true := by
  simp only [Mem.wf_iff] at *; simp_all [swf_sset]

theorem Mem.ueTimes_wf (m : Mem) (k : Nat) (v : List Nat) (h : m.wf = true) : ({ m with ueTimes := sset (fun _ => []) m.ueTimes k v } : Mem).wf = true := by
  simp only [Mem.wf_iff] at *; simp_all [swf_sset]

theorem Mem.cePass_wf (m : Mem) (k : Nat) (v : Nat) (h : m.wf = true) : ({ m with cePass := sset (fun _ => 0) m.cePass k v } : Mem).wf = true := by
  simp only [Mem.wf_iff] at *; simp_all [swf_sset]

theorem Mem.passDone_wf (m : Mem) (k : Nat) (v : Nat) (h : m.wf = true) : ({ m with passDone := sset (fun _ => 0) m.passDone k v } : Mem).wf = true := by
  simp only [Mem.wf_iff] at *; simp_all [swf_sset]

theorem Mem.remapBad_wf (m : Mem) (k : Nat) (v : Nat) (h : m.wf = true) : ({ m with remapBad := sset (fun _ => 0) m.remapBad k v } : Mem).wf = true := by
  simp only [Mem.wf_iff] at *; simp_all [swf_sset]

theorem Mem.slots_wf (m : Mem) (k : Nat) (v : Nat × Nat) (h : m.wf = true) : ({ m with slots := sset (fun _ => (0, 0)) m.slots k v } : Mem).wf = true := by
  simp only [Mem.wf_iff] at *; simp_all [swf_sset]

theorem Mem.resSlots_wf (m : Mem) (k : Nat) (v : List (Nat × Nat)) (h : m.wf = true) : ({ m with resSlots := sset (fun _ => []) m.resSlots k v } : Mem).wf = true := by
  simp only [Mem.wf_iff] at *; simp_all [swf_sset]

theorem Mem.resOld_wf (m : Mem) (k : Nat) (v : List (Nat × Nat)) (h : m.wf = true) : ({ m with resOld := sset (fun _ => []) m.resOld k v } : Mem).wf = true := by
  simp only [Mem.wf_iff] at *; simp_all [swf_sset]

theorem Mem.sanitPos_wf (m : Mem) (k : Nat) (v : Nat) (h : m.wf = true) : ({ m with sanitPos := sset (fun _ => 0) m.sanitPos k v } : Mem).wf = true := by
  simp only [Mem.wf_iff] at *; simp_all [swf_sset]

theorem Mem.foxMarch_wf (m : Mem) (k : Nat) (v : Option Nat) (h : m.wf = true) : ({ m with foxMarch := sset (fun _ => none) m.foxMarch k v } : Mem).wf = true := by
  simp only [Mem.wf_iff] at *; simp_all [swf_sset]

theorem Mem.foxSince_wf (m : Mem) (k : Nat) (v : Nat) (h : m.wf = true) : ({ m with foxSince := sset (fun _ => 0) m.foxSince k v } : Mem).wf = true := by
  simp only [Mem.wf_iff] at *; simp_all [swf_sset]

theorem Mem.foxStuck_wf (m : Mem) (k : Nat) (v : Nat) (h : m.wf = true) : ({ m with foxStuck := sset (fun _ => 0) m.foxStuck k v } : Mem).wf = true := by
  simp only [Mem.wf_iff] at *; simp_all [swf_sset]

theorem Mem.hoDirty_wf (m : Mem) (k : Nat) (v : Bool) (h : m.wf = true) : ({ m with hoDirty := sset (fun _ => false) m.hoDirty k v } : Mem).wf = true := by
  simp only [Mem.wf_iff] at *; simp_all [swf_sset]

theorem Mem.ucFlaws_wf (m : Mem) (k : Nat) (v : Ecc) (h : m.wf = true) : ({ m with ucFlaws := sset (fun _ => Ecc.clean) m.ucFlaws k v } : Mem).wf = true := by
  simp only [Mem.wf_iff] at *; simp_all [swf_sset]

theorem Mem.ccFlaws_wf (m : Mem) (k : Nat) (v : Ecc) (h : m.wf = true) : ({ m with ccFlaws := sset (fun _ => Ecc.clean) m.ccFlaws k v } : Mem).wf = true := by
  simp only [Mem.wf_iff] at *; simp_all [swf_sset]

theorem Mem.images_wf (m : Mem) (k : Nat) (v : Option BankImage) (h : m.wf = true) : ({ m with images := sset (fun _ => none) m.images k v } : Mem).wf = true := by
  simp only [Mem.wf_iff] at *; simp_all [swf_sset]

theorem Mem.setByte_wf (m : Mem) (a : Nat) (b : Byte) (h : m.wf = true) : (m.setByte a b).wf = true := Mem.bytes_wf m a b h

theorem Mem.setTag_wf (m : Mem) (k : Nat) (t : Tag) (h : m.wf = true) : (m.setTag k t).wf = true := Mem.tags_wf m k t h

theorem Mem.setFlaw_wf (m : Mem) (k : Nat) (x : Ecc) (h : m.wf = true) : (m.setFlaw k x).wf = true := Mem.flaws_wf m k x h

theorem Mem.setBytes_wf (m : Mem) (a : Nat) (bs : List Byte) (h : m.wf = true) : (m.setBytes a bs).wf = true := by
  induction bs generalizing m a with
  | nil => exact h
  | cons b r ih => exact ih _ _ (m.setByte_wf a b h)

theorem Mem.setWord_wf (m : Mem) (a : Nat) (x : TWord) (h : m.wf = true) : (m.setWord a x).wf = true :=
  Mem.setTag_wf _ _ _ (Mem.setBytes_wf _ _ _ h)

theorem Mem.putWord_wf (m : Mem) (a : Nat) (x : TWord) (h : m.wf = true) : (m.putWord a x).wf = true :=
  Mem.setFlaw_wf _ _ _ (Mem.setWord_wf _ _ _ h)

theorem Mem.setWords_wf (m : Mem) (a : Nat) (xs : List TWord) (h : m.wf = true) : (m.setWords a xs).wf = true := by
  induction xs generalizing m a with
  | nil => exact h
  | cons x r ih => exact ih _ _ (m.setWord_wf a x h)

theorem Mem.putCell_wf (m : Mem) (c : Nat) (ws : List TWord) (x : LineMeta) (h : m.wf = true) : (m.putCell c ws x).wf = true :=
  Mem.lines_wf _ _ _ (Mem.setFlaw_wf _ _ _ (Mem.setWords_wf _ _ _ h))

theorem Mem.strike_wf (m : Mem) (w : Nat) (h : m.wf = true) : (m.strike w).wf = true := by
  unfold Mem.strike
  simp only [Mem.wf_iff] at *
  have g {α : Type} [DecidableEq α] {d : Nat → α} {x y : Sparse α} {p : Prop} [Decidable p] (hx : swf d x = true) (hy : swf d y = true) :
      swf d (if p then x else y) = true := by split <;> assumption
  simp_all [swf_sset]

theorem Mem.setDir_wf (m : Mem) (l : Nat) (d : DirEntry) (p : Prop) [Decidable p] (h : m.wf = true) :
    ({ m with dir := sset (fun _ => DirEntry.none) m.dir l d, copies := if p then sdel m.copies l else m.copies } : Mem).wf = true := by
  simp only [Mem.wf_iff] at *; split <;> simp_all [swf_sset, swf_sdel]

theorem Mem.scrub_pass_wf (m : Mem) (k v w x : Nat) (h : m.wf = true) :
    ({ m with scrub := sset (fun _ => 0) m.scrub k v, cePass := sset (fun _ => 0) m.cePass k w, passDone := sset (fun _ => 0) m.passDone k x } : Mem).wf = true := by
  simp only [Mem.wf_iff] at *; simp_all [swf_sset]

theorem Mem.drop_wf (m : Mem) (f g k n l o : Nat → Bool) (h : m.wf = true) :
    ({ m with bytes := sdrop m.bytes f, tags := sdrop m.tags g, lines := sdrop m.lines k, flaws := sdrop m.flaws n, dir := sdrop m.dir l, copies := sdrop m.copies o } : Mem).wf = true := by
  simp only [Mem.wf_iff] at *; simp_all [swf_sdrop]

theorem Mem.handover_wf (m : Mem) (f : Nat × Bool → Bool) (h : m.wf = true) : ({ m with hoDirty := m.hoDirty.filter f } : Mem).wf = true := by
  simp only [Mem.wf_iff] at *; simp_all [swf_filter]

theorem Mem.sanit_wf (m : Mem) (f : Nat × Nat → Bool) (h : m.wf = true) : ({ m with sanitPos := m.sanitPos.filter f } : Mem).wf = true := by
  simp only [Mem.wf_iff] at *; simp_all [swf_filter]

theorem Mem.remap_wf (m : Mem) (f : Nat × Nat → Bool) (h : m.wf = true) : ({ m with remapBad := m.remapBad.filter f } : Mem).wf = true := by
  simp only [Mem.wf_iff] at *; simp_all [swf_filter]

theorem Mem.ucDrop_wf (m : Mem) (f : Nat × Ecc → Bool) (h : m.wf = true) : ({ m with ucFlaws := m.ucFlaws.filter f } : Mem).wf = true := by
  simp only [Mem.wf_iff] at *; simp_all [swf_filter]

theorem Mem.flawDrop_wf (m : Mem) (f : Nat × Ecc → Bool) (h : m.wf = true) : ({ m with flaws := m.flaws.filter f } : Mem).wf = true := by
  simp only [Mem.wf_iff] at *; simp_all [swf_filter]

theorem Mem.strip_wf (m : Mem) (f : Host.Cell → Bool) (g : Nat × Tag → Bool) (h : m.wf = true) :
    ({ m with bytes := m.bytes.filter f, tags := m.tags.filter g } : Mem).wf = true := by
  simp only [Mem.wf_iff] at *
  exact ⟨swf_filter _ _ _ h.1, swf_filter _ _ _ h.2.1, h.2.2⟩

theorem Mem.reserve_wf (m : Mem) (x y : Sparse (List (Nat × Nat))) (n : Nat) (h : m.wf = true) (hx : swf (fun _ => []) x = true)
    (hy : swf (fun _ => []) y = true) : ({ m with resSlots := x, resOld := y, resAt := n } : Mem).wf = true := by
  simp only [Mem.wf_iff] at *; simp_all

theorem eachDo_wf {β : Type} (xs : List β) (f : β → Mem → Mem) (m : Mem) (hf : ∀ x m, m.wf = true → (f x m).wf = true)
    (h : m.wf = true) : (eachDo xs f m).wf = true := by
  unfold eachDo
  induction xs generalizing m with
  | nil => exact h
  | cons x r ih => exact ih _ (hf x m h)

theorem eachDo_swf {α β : Type} [DecidableEq α] {d : Nat → α} (xs : List β) (f : β → Sparse α → Sparse α) (m : Sparse α)
    (hf : ∀ x m, swf d m = true → swf d (f x m) = true) (h : swf d m = true) : swf d (eachDo xs f m) = true := by
  unfold eachDo
  induction xs generalizing m with
  | nil => exact h
  | cons x r ih => exact ih _ (hf x m h)

/-! What an operation keeps. -/

/-- From `s` to `t` the queue is as it was, and memory in its canonical form stays so. -/
def Keeps (s t : State) : Prop := t.pending = s.pending ∧ (s.mem.wf = true → t.mem.wf = true)

/-- Every state that an instruction leaves keeps the queue and the form of memory. -/
@[irreducible] def ResKeeps (s : State) (r : Res) : Prop :=
  match r with
  | .done t | .commit t | .settle t | .fault _ t | .wait t | .kept t => Keeps s t
  | .stall => True

/-- The state of an answer, where there is one, keeps the queue and the form of memory. -/
@[irreducible] def OptKeeps (s : State) (r : Option State) : Prop := ∀ t, r = some t → Keeps s t

/-- The next state of an outcome keeps the queue and the form of memory. -/
@[irreducible] def OutKeeps (s : State) (o : Host.Outcome State Fault Refusal) : Prop := ∀ t, o = .next t → Keeps s t

/-- The state of an answer with two results keeps the queue and the form of memory. -/
@[irreducible] def Opt2Keeps {α β : Type} (s : State) (r : Option (α × β × State)) : Prop := ∀ x, r = some x → Keeps s x.2.2

variable {s0 s t : State}

theorem keeps_refl (s : State) : Keeps s s := ⟨rfl, id⟩
theorem keeps_trans {a b c : State} (h : Keeps a b) (g : Keeps b c) : Keeps a c := ⟨g.1.trans h.1, g.2 ∘ h.2⟩

/-- An update of fields beside the queue and memory. -/
theorem keeps_mk (h : Keeps s0 t) {r c g e i m p u q o b k bo mr ho fr an ou} :
    Keeps s0 ⟨t.pending, r, c, g, t.mem, e, i, m, p, u, q, o, b, k, bo, mr, ho, fr, an, ou⟩ := h

/-- An update of memory that keeps its form. -/
theorem keeps_mem {x : Mem} (h : Keeps s0 t) (hx : t.mem.wf = true → x.wf = true) {r c g e i m p u q o b k bo mr ho fr an ou} :
    Keeps s0 ⟨t.pending, r, c, g, x, e, i, m, p, u, q, o, b, k, bo, mr, ho, fr, an, ou⟩ := ⟨h.1, fun w => hx (h.2 w)⟩

theorem keeps_of_eq {α : Type} {r : α × State} {a : α} (e : r = (a, t)) (h : Keeps s0 r.2) : Keeps s0 t := by rw [e] at h; exact h
theorem keeps_of_eq2 {α β : Type} {r : α × β × State} {a : α} {b : β} (e : r = (a, b, t)) (h : Keeps s0 r.2.2) : Keeps s0 t := by
  rw [e] at h; exact h
theorem keeps_of_eq3 {α β γ : Type} {r : α × β × γ × State} {a : α} {b : β} {c : γ} (e : r = (a, b, c, t)) (h : Keeps s0 r.2.2.2) :
    Keeps s0 t := by
  rw [e] at h; exact h
theorem keeps_of_some {r : Option State} (e : r = some t) (h : OptKeeps s0 r) : Keeps s0 t := by unfold OptKeeps at h; exact h t e
theorem keeps_of_next {r : Host.Outcome State Fault Refusal} (e : r = .next t) (h : OutKeeps s0 r) : Keeps s0 t := by
  unfold OutKeeps at h; exact h t e
theorem keeps_of_done {r : Res} (e : r = .done t) (h : ResKeeps s0 r) : Keeps s0 t := by rw [e] at h; unfold ResKeeps at h; exact h
theorem keeps_of_commit {r : Res} (e : r = .commit t) (h : ResKeeps s0 r) : Keeps s0 t := by rw [e] at h; unfold ResKeeps at h; exact h
theorem keeps_of_settle {r : Res} (e : r = .settle t) (h : ResKeeps s0 r) : Keeps s0 t := by rw [e] at h; unfold ResKeeps at h; exact h
theorem keeps_of_fault {r : Res} {x : Trap} (e : r = .fault x t) (h : ResKeeps s0 r) : Keeps s0 t := by rw [e] at h; unfold ResKeeps at h; exact h
theorem keeps_of_wait {r : Res} (e : r = .wait t) (h : ResKeeps s0 r) : Keeps s0 t := by rw [e] at h; unfold ResKeeps at h; exact h
theorem keeps_of_kept {r : Res} (e : r = .kept t) (h : ResKeeps s0 r) : Keeps s0 t := by rw [e] at h; unfold ResKeeps at h; exact h


theorem keeps_ite {p : Prop} [Decidable p] (h : Keeps s0 s) (g : Keeps s0 t) : Keeps s0 (if p then s else t) := by split <;> assumption
theorem keeps_ite1 {α : Type} {x y : α × State} {p : Prop} [Decidable p] (h : Keeps s0 x.2) (g : Keeps s0 y.2) :
    Keeps s0 (if p then x else y).2 := by
  split <;> assumption
theorem keeps_ite2 {α β : Type} {x y : α × β × State} {p : Prop} [Decidable p] (h : Keeps s0 x.2.2) (g : Keeps s0 y.2.2) :
    Keeps s0 (if p then x else y).2.2 := by
  split <;> assumption
theorem res_ite {x y : Res} {p : Prop} [Decidable p] (h : ResKeeps s0 x) (g : ResKeeps s0 y) : ResKeeps s0 (if p then x else y) := by
  split <;> assumption
theorem opt_ite {x y : Option State} {p : Prop} [Decidable p] (h : OptKeeps s0 x) (g : OptKeeps s0 y) : OptKeeps s0 (if p then x else y) := by
  split <;> assumption

theorem res_done (h : Keeps s0 t) : ResKeeps s0 (.done t) := by unfold ResKeeps; exact h
theorem res_commit (h : Keeps s0 t) : ResKeeps s0 (.commit t) := by unfold ResKeeps; exact h
theorem res_settle (h : Keeps s0 t) : ResKeeps s0 (.settle t) := by unfold ResKeeps; exact h
theorem res_fault {x : Trap} (h : Keeps s0 t) : ResKeeps s0 (.fault x t) := by unfold ResKeeps; exact h
theorem res_wait (h : Keeps s0 t) : ResKeeps s0 (.wait t) := by unfold ResKeeps; exact h
theorem res_kept (h : Keeps s0 t) : ResKeeps s0 (.kept t) := by unfold ResKeeps; exact h
theorem res_stall : ResKeeps s0 .stall := by unfold ResKeeps; trivial
theorem opt_some (h : Keeps s0 t) : OptKeeps s0 (some t) := by unfold OptKeeps; rintro _ ⟨⟩; exact h
theorem opt_none : OptKeeps s0 none := by unfold OptKeeps; rintro _ ⟨⟩
theorem opt_orElse {x : Option State} {y : Unit → Option State} (h : OptKeeps s0 x) (g : OptKeeps s0 (y ())) : OptKeeps s0 (x.orElse y) := by
  cases x with
  | none => exact g
  | some t => exact h
theorem opt2_some {α β : Type} {x : α × β × State} (h : Keeps s0 x.2.2) : Opt2Keeps s0 (some x) := by unfold Opt2Keeps; rintro _ ⟨⟩; exact h
theorem opt2_none {α β : Type} : Opt2Keeps s0 (none : Option (α × β × State)) := by unfold Opt2Keeps; rintro _ ⟨⟩
theorem opt2_ite {α β : Type} {x y : Option (α × β × State)} {p : Prop} [Decidable p] (h : Opt2Keeps s0 x) (g : Opt2Keeps s0 y) :
    Opt2Keeps s0 (if p then x else y) := by split <;> assumption
theorem opt2_map {α β γ δ : Type} {x : Option (α × β × State)} {f : α × β × State → γ × δ × State} (h : Opt2Keeps s0 x)
    (hf : ∀ z, Keeps s0 z.2.2 → Keeps s0 (f z).2.2) : Opt2Keeps s0 (x.map f) := by
  unfold Opt2Keeps at *
  intro z hz
  obtain ⟨y, hy, rfl⟩ := Option.map_eq_some_iff.mp hz
  exact hf y (h y hy)
theorem keeps_of_some2 {α β : Type} {r : Option (α × β × State)} {a : α} {b : β} (e : r = some (a, b, t)) (h : Opt2Keeps s0 r) :
    Keeps s0 t := by
  unfold Opt2Keeps at h; exact h _ e
theorem out_next (h : Keeps s0 t) : OutKeeps s0 (.next t) := by unfold OutKeeps; rintro _ ⟨⟩; exact h

theorem keeps_fold {β : Type} {l : List β} {f : State → β → State} (hf : ∀ t b, Keeps s0 t → Keeps s0 (f t b)) (h : Keeps s0 s) :
    Keeps s0 (l.foldl f s) := by
  induction l generalizing s with
  | nil => exact h
  | cons x r ih => exact ih (hf s x h)

theorem keeps_fold1 {α β : Type} {l : List β} {f : α × State → β → α × State} {z : α × State}
    (hf : ∀ z b, Keeps s0 z.2 → Keeps s0 (f z b).2) (h : Keeps s0 z.2) : Keeps s0 (l.foldl f z).2 := by
  induction l generalizing z with
  | nil => exact h
  | cons x r ih => exact ih (hf z x h)

theorem keeps_fold2 {α γ β : Type} {l : List β} {f : α × γ × State → β → α × γ × State} {z : α × γ × State}
    (hf : ∀ z b, Keeps s0 z.2.2 → Keeps s0 (f z b).2.2) (h : Keeps s0 z.2.2) : Keeps s0 (l.foldl f z).2.2 := by
  induction l generalizing z with
  | nil => exact h
  | cons x r ih => exact ih (hf z x h)

theorem keeps_fold3 {α γ δ β : Type} {l : List β} {f : α × γ × δ × State → β → α × γ × δ × State} {z : α × γ × δ × State}
    (hf : ∀ z b, Keeps s0 z.2.2.2 → Keeps s0 (f z b).2.2.2) (h : Keeps s0 z.2.2.2) : Keeps s0 (l.foldl f z).2.2.2 := by
  induction l generalizing z with
  | nil => exact h
  | cons x r ih => exact ih (hf z x h)

theorem keeps_each {β : Type} {l : List β} {f : β → State → State} (hf : ∀ b t, Keeps s0 t → Keeps s0 (f b t)) (h : Keeps s0 s) :
    Keeps s0 (eachDo l f s) := keeps_fold (fun t b => hf b t) h

end Sys2Proof.Machine
end

