-- ==== Sys2Proof/Laws/KeepsMemory.lean ====
section
/-! SUPPORT. What the operations of the platform registers, interrupts, the recorder, memory, control stores, the timebase, slices, LVS, clusters and engines keep: the queue and the canonical form of memory. -/
set_option linter.unreachableTactic false
set_option linter.unusedTactic false
namespace Sys2Proof.Machine
open Reg

/-! Ops -/

theorem State.setReg_keeps {s0 : State} {s : State} {off : Nat} {w : Word} (hs : Keeps s0 s) :
    Keeps s0 (State.setReg s off w) := by
  unfold State.setReg
  repeat'
    first
    | intro _
    | with_reducible (
      first
      | assumption | fail_if_no_progress apply keeps_mk)
    | split | dsimp only

theorem State.wr_keeps {s0 : State} {s : State} {off : Nat} {f : Fld} {v : Nat} (hs : Keeps s0 s) :
    Keeps s0 (State.wr s off f v) := by
  unfold State.wr
  repeat'
    first
    | intro _
    | with_reducible (
      first
      | assumption | apply State.setReg_keeps | fail_if_no_progress apply keeps_mk)
    | split | dsimp only

theorem State.count_keeps {s0 : State} {s : State} {off : Nat} {f : Fld} {n : Nat} (hs : Keeps s0 s) :
    Keeps s0 (State.count s off f n) := by
  unfold State.count
  repeat'
    first
    | intro _
    | with_reducible (
      first
      | assumption | apply State.wr_keeps | fail_if_no_progress apply keeps_mk)
    | split | dsimp only

theorem State.setEngine_keeps {s0 : State} {s : State} {e : Nat} {x : Engine} (hs : Keeps s0 s) :
    Keeps s0 (State.setEngine s e x) := by
  unfold State.setEngine
  repeat'
    first
    | intro _
    | with_reducible (
      first
      | assumption | fail_if_no_progress apply keeps_mk)
    | split | dsimp only

theorem State.modEngine_keeps {s0 : State} {s : State} {e : Nat} {f : Engine → Engine} (hs : Keeps s0 s) :
    Keeps s0 (State.modEngine s e f) := by
  unfold State.modEngine
  repeat'
    first
    | intro _
    | with_reducible (
      first
      | assumption | apply State.setEngine_keeps | fail_if_no_progress apply keeps_mk)
    | split | dsimp only

theorem State.takeFree_keeps {s0 : State} {s : State} (hs : Keeps s0 s) :
    Keeps s0 (State.takeFree s).2 := by
  unfold State.takeFree
  repeat'
    first
    | intro _
    | with_reducible (
      first
      | assumption | fail_if_no_progress apply keeps_mk | refine keeps_of_eq (by assumption) ?_ | refine keeps_of_eq2 (by assumption) ?_
      | refine keeps_of_eq3 (by assumption) ?_)
    | split | dsimp only

theorem State.takeFreeN_keeps {s0 : State} {s : State} {n : Nat} (hs : Keeps s0 s) :
    Keeps s0 (State.takeFreeN s n).2 := by
  unfold State.takeFreeN
  repeat'
    first
    | intro _
    | with_reducible (
      first
      | assumption | fail_if_no_progress apply keeps_mk | refine keeps_of_eq (by assumption) ?_ | refine keeps_of_eq2 (by assumption) ?_
      | refine keeps_of_eq3 (by assumption) ?_)
    | split | dsimp only

theorem State.reply_keeps {s0 : State} {s : State} {resp : Nat} {data : List TWord} (hs : Keeps s0 s) :
    Keeps s0 (State.reply s resp data) := by
  unfold State.reply
  repeat'
    first
    | intro _
    | with_reducible (
      first
      | assumption | fail_if_no_progress apply keeps_mk)
    | split | dsimp only

theorem State.emit_keeps {s0 : State} {s : State} {m : Emit} (hs : Keeps s0 s) :
    Keeps s0 (State.emit s m) := by
  unfold State.emit
  repeat'
    first
    | intro _
    | with_reducible (
      first
      | assumption | fail_if_no_progress apply keeps_mk)
    | split | dsimp only

theorem State.setBankTenant_keeps {s0 : State} {s : State} {e : Nat} {b : Nat} {t : Nat} (hs : Keeps s0 s) :
    Keeps s0 (State.setBankTenant s e b t) := by
  unfold State.setBankTenant
  repeat'
    first
    | intro _
    | with_reducible (
      first
      | assumption | apply State.wr_keeps | fail_if_no_progress apply keeps_mk | apply keeps_ite)
    | split | dsimp only

/-! Interrupt -/

theorem State.setSrc_keeps {s0 : State} {s : State} {i : Nat} {x : Src} (hs : Keeps s0 s) :
    Keeps s0 (State.setSrc s i x) := by
  unfold State.setSrc
  repeat'
    first
    | intro _
    | with_reducible (
      first
      | assumption | fail_if_no_progress apply keeps_mk)
    | split | dsimp only

theorem State.sendMsix_keeps {s0 : State} {s : State} {vec : Nat} (hs : Keeps s0 s) :
    Keeps s0 (State.sendMsix s vec) := by
  unfold State.sendMsix
  repeat'
    first
    | intro _
    | with_reducible (
      first
      | assumption | apply State.emit_keeps | fail_if_no_progress apply keeps_mk | apply keeps_ite)
    | split | dsimp only

theorem State.refreshHost_keeps {s0 : State} {s : State} {c : Nat} (hs : Keeps s0 s) :
    Keeps s0 (State.refreshHost s c) := by
  unfold State.refreshHost
  repeat'
    first
    | intro _
    | with_reducible (
      first
      | assumption | apply State.sendMsix_keeps | fail_if_no_progress apply keeps_mk | apply keeps_ite)
    | split | dsimp only

theorem State.refreshSrc_keeps {s0 : State} {s : State} {i : Nat} (hs : Keeps s0 s) :
    Keeps s0 (State.refreshSrc s i) := by
  unfold State.refreshSrc
  repeat'
    first
    | intro _
    | with_reducible (
      first
      | assumption | apply State.refreshHost_keeps | fail_if_no_progress apply keeps_mk)
    | split | dsimp only

theorem State.refreshAll_keeps {s0 : State} {s : State} (hs : Keeps s0 s) :
    Keeps s0 (State.refreshAll s) := by
  unfold State.refreshAll
  repeat'
    first
    | intro _
    | with_reducible (
      first
      | assumption | apply State.refreshSrc_keeps | apply State.refreshHost_keeps | fail_if_no_progress apply keeps_mk | apply keeps_each)
    | split | dsimp only

theorem State.endHoldoffs_keeps {s0 : State} {s : State} (hs : Keeps s0 s) :
    Keeps s0 (State.endHoldoffs s) := by
  unfold State.endHoldoffs
  repeat'
    first
    | intro _
    | with_reducible (
      first
      | assumption | apply State.refreshAll_keeps | fail_if_no_progress apply keeps_mk | apply keeps_ite)
    | split | dsimp only

theorem State.assert_keeps {s0 : State} {s : State} {i : Nat} (hs : Keeps s0 s) :
    Keeps s0 (State.assert s i) := by
  unfold State.assert
  repeat'
    first
    | intro _
    | with_reducible (
      first
      | assumption | apply State.wr_keeps | apply State.setSrc_keeps | apply State.refreshSrc_keeps | fail_if_no_progress apply keeps_mk
      | apply keeps_ite)
    | split | dsimp only

theorem State.setCond_keeps {s0 : State} {s : State} {i : Nat} {b : Bool} (hs : Keeps s0 s) :
    Keeps s0 (State.setCond s i b) := by
  unfold State.setCond
  repeat'
    first
    | intro _
    | with_reducible (
      first
      | assumption | apply State.setSrc_keeps | apply State.assert_keeps | fail_if_no_progress apply keeps_mk | apply keeps_ite)
    | split | dsimp only

theorem State.startHoldoff_keeps {s0 : State} {s : State} {i : Nat} (hs : Keeps s0 s) :
    Keeps s0 (State.startHoldoff s i) := by
  unfold State.startHoldoff
  repeat'
    first
    | intro _
    | with_reducible (
      first
      | assumption | fail_if_no_progress apply keeps_mk | apply keeps_ite)
    | split | dsimp only

theorem State.claim1_keeps {s0 : State} {s : State} {c : Nat} (hs : Keeps s0 s) :
    Keeps s0 (State.claim1 s c).2 := by
  unfold State.claim1
  repeat'
    first
    | intro _
    | with_reducible (
      first
      | assumption | apply State.startHoldoff_keeps | apply State.setSrc_keeps | apply State.refreshAll_keeps | fail_if_no_progress apply keeps_mk
      | refine keeps_of_eq (by assumption) ?_ | refine keeps_of_eq2 (by assumption) ?_ | refine keeps_of_eq3 (by assumption) ?_)
    | split | dsimp only

theorem State.settleClaim_keeps {s0 : State} {s : State} {r : ClaimReq} (hs : Keeps s0 s) :
    Keeps s0 (State.settleClaim s r) := by
  unfold State.settleClaim
  repeat'
    first
    | intro _
    | with_reducible (
      first
      | assumption | apply State.claim1_keeps | apply State.reply_keeps | apply State.modEngine_keeps | apply State.emit_keeps
      | fail_if_no_progress apply keeps_mk | refine keeps_of_eq (by assumption) ?_ | refine keeps_of_eq2 (by assumption) ?_
      | refine keeps_of_eq3 (by assumption) ?_)
    | split | dsimp only

theorem State.waitClaim_keeps {s0 : State} {s : State} {c : Nat} {dst : ClaimBy} {m : Nat} (hs : Keeps s0 s) :
    Keeps s0 (State.waitClaim s c dst m) := by
  unfold State.waitClaim
  repeat'
    first
    | intro _
    | with_reducible (
      first
      | assumption | fail_if_no_progress apply keeps_mk)
    | split | dsimp only

theorem State.claim_keeps {s0 : State} {s : State} {c : Nat} {dst : ClaimBy} {m : Nat} (hs : Keeps s0 s) :
    Keeps s0 (State.claim s c dst m) := by
  unfold State.claim
  repeat'
    first
    | intro _
    | with_reducible (
      first
      | assumption | apply State.settleClaim_keeps | apply State.waitClaim_keeps | fail_if_no_progress apply keeps_mk | apply keeps_ite)
    | split | dsimp only

theorem State.tickClaims_keeps {s0 : State} {s : State} (hs : Keeps s0 s) :
    Keeps s0 (State.tickClaims s) := by
  unfold State.tickClaims
  repeat'
    first
    | intro _
    | with_reducible (
      first
      | assumption | apply State.settleClaim_keeps | fail_if_no_progress apply keeps_mk | apply keeps_each)
    | split | dsimp only

theorem State.runClaims_keeps {s0 : State} {x0 : Nat} {x1 : State} (hs : Keeps s0 x1) :
    Keeps s0 (State.runClaims x0 x1) := by
  induction x0 generalizing x1 with
  | zero =>
    unfold State.runClaims
    repeat'
      first
      | intro _
      | with_reducible (
        first
        | assumption | apply State.tickClaims_keeps | fail_if_no_progress apply keeps_mk)
      | split | dsimp only
  | succ k ih =>
    unfold State.runClaims
    repeat'
      first
      | intro _
      | with_reducible (
        first
        | assumption | apply State.tickClaims_keeps | fail_if_no_progress apply keeps_mk)
      | with_reducible apply ih | split | dsimp only

theorem State.complete_keeps {s0 : State} {s : State} {c : Nat} {i : Nat} (hs : Keeps s0 s) :
    Keeps s0 (State.complete s c i) := by
  unfold State.complete
  repeat'
    first
    | intro _
    | with_reducible (
      first
      | assumption | apply State.count_keeps | apply State.wr_keeps | apply State.setSrc_keeps | apply State.assert_keeps
      | apply State.refreshAll_keeps | apply State.refreshHost_keeps | fail_if_no_progress apply keeps_mk | apply keeps_ite)
    | split | dsimp only

theorem State.sgi_keeps {s0 : State} {s : State} {i : Nat} (hs : Keeps s0 s) :
    Keeps s0 (State.sgi s i) := by
  unfold State.sgi
  repeat'
    first
    | intro _
    | with_reducible (
      first
      | assumption | apply State.assert_keeps | apply State.wr_keeps | fail_if_no_progress apply keeps_mk | apply keeps_ite)
    | split | dsimp only

theorem State.doorbell_keeps {s0 : State} {s : State} {t : Nat} {i : Nat} (hs : Keeps s0 s) :
    Keeps s0 (State.doorbell s t i) := by
  unfold State.doorbell
  repeat'
    first
    | intro _
    | with_reducible (
      first
      | assumption | apply State.assert_keeps | fail_if_no_progress apply keeps_mk | apply keeps_ite)
    | split | dsimp only

theorem State.setErr_keeps {s0 : State} {s : State} {off : Nat} {f : Fld} {src : Nat} (hs : Keeps s0 s) :
    Keeps s0 (State.setErr s off f src) := by
  unfold State.setErr
  repeat'
    first
    | intro _
    | with_reducible (
      first
      | assumption | apply State.assert_keeps | apply State.wr_keeps | fail_if_no_progress apply keeps_mk)
    | split | dsimp only

/-! Recorder -/

theorem State.flashCopy_keeps {s0 : State} {s : State} {r : MRec} (hs : Keeps s0 s) :
    Keeps s0 (State.flashCopy s r) := by
  unfold State.flashCopy
  repeat'
    first
    | intro _
    | with_reducible (
      first
      | assumption | apply State.wr_keeps | fail_if_no_progress apply keeps_mk)
    | split | dsimp only

theorem State.dramCopy_keeps {s0 : State} {s : State} {r : MRec} (hs : Keeps s0 s) :
    Keeps s0 (State.dramCopy s r) := by
  unfold State.dramCopy
  repeat'
    first
    | intro _
    | with_reducible (
      first
      | assumption | apply State.wr_keeps | apply State.count_keeps | fail_if_no_progress apply keeps_mk | apply keeps_ite)
    | split | dsimp only

theorem State.spill_keeps {s0 : State} {s : State} (hs : Keeps s0 s) :
    Keeps s0 (State.spill s) := by
  unfold State.spill
  repeat'
    first
    | intro _
    | with_reducible (
      first
      | assumption | apply State.dramCopy_keeps | apply State.wr_keeps | fail_if_no_progress apply keeps_mk | apply keeps_each | apply keeps_ite)
    | split | dsimp only

theorem State.writeRec_keeps {s0 : State} {s : State} {x : MSub} (hs : Keeps s0 s) :
    Keeps s0 (State.writeRec s x) := by
  unfold State.writeRec
  repeat'
    first
    | intro _
    | with_reducible (
      first
      | assumption | apply State.wr_keeps | apply State.flashCopy_keeps | apply State.assert_keeps | apply State.spill_keeps
      | fail_if_no_progress apply keeps_mk | apply keeps_ite)
    | split | dsimp only

theorem State.loseRec_keeps {s0 : State} {s : State} (hs : Keeps s0 s) :
    Keeps s0 (State.loseRec s) := by
  unfold State.loseRec
  repeat'
    first
    | intro _
    | with_reducible (
      first
      | assumption | apply State.assert_keeps | apply State.count_keeps | fail_if_no_progress apply keeps_mk)
    | split | dsimp only

theorem State.submit_keeps {s0 : State} {s : State} {arr : List MSub} (hs : Keeps s0 s) :
    Keeps s0 (State.submit s arr) := by
  unfold State.submit
  repeat'
    first
    | intro _
    | with_reducible (
      first
      | assumption | apply State.writeRec_keeps | apply State.loseRec_keeps | fail_if_no_progress apply keeps_mk | apply keeps_each | apply keeps_fold
      | apply keeps_fold1 | apply keeps_fold2 | apply keeps_fold3 | refine keeps_of_eq (by assumption) ?_ | refine keeps_of_eq2 (by assumption) ?_
      | refine keeps_of_eq3 (by assumption) ?_)
    | split | dsimp only

theorem State.record_keeps {s0 : State} {s : State} {i : Nat} {unit : Nat} {p0 : Nat} {p1 : Nat} {tenant : Nat} (hs : Keeps s0 s) :
    Keeps s0 (State.record s i unit p0 p1 tenant) := by
  unfold State.record
  repeat'
    first
    | intro _
    | with_reducible (
      first
      | assumption | apply State.submit_keeps | fail_if_no_progress apply keeps_mk)
    | split | dsimp only

theorem State.recordSev_keeps {s0 : State} {s : State} {i : Nat} {sev : Nat} {unit : Nat} {p0 : Nat} {p1 : Nat} {tenant : Nat} (hs : Keeps s0 s) :
    Keeps s0 (State.recordSev s i sev unit p0 p1 tenant) := by
  unfold State.recordSev
  repeat'
    first
    | intro _
    | with_reducible (
      first
      | assumption | apply State.submit_keeps | fail_if_no_progress apply keeps_mk)
    | split | dsimp only

theorem State.recordCode_keeps {s0 : State} {s : State} {code : Nat} {sev : Nat} {unit : Nat} {p0 : Nat} {p1 : Nat} {tenant : Nat} (hs : Keeps s0 s) :
    Keeps s0 (State.recordCode s code sev unit p0 p1 tenant) := by
  unfold State.recordCode
  repeat'
    first
    | intro _
    | with_reducible (
      first
      | assumption | apply State.submit_keeps | fail_if_no_progress apply keeps_mk)
    | split | dsimp only

theorem State.pulse0_keeps {s0 : State} {s : State} {ch : Nat} (hs : Keeps s0 s) :
    Keeps s0 (State.pulse0 s ch) := by
  unfold State.pulse0
  repeat'
    first
    | intro _
    | with_reducible (
      first
      | assumption | apply State.assert_keeps | apply State.count_keeps | fail_if_no_progress apply keeps_mk | apply keeps_ite)
    | split | dsimp only

theorem State.edgeSample_keeps {s0 : State} {s : State} {e : Nat} {b : Bool} (hs : Keeps s0 s) :
    Keeps s0 (State.edgeSample s e b) := by
  unfold State.edgeSample
  repeat'
    first
    | intro _
    | with_reducible (
      first
      | assumption | fail_if_no_progress apply keeps_mk | apply keeps_ite)
    | split | dsimp only

theorem State.edgeRefer_keeps {s0 : State} {s : State} {e : Nat} {b : Bool} (hs : Keeps s0 s) :
    Keeps s0 (State.edgeRefer s e b) := by
  unfold State.edgeRefer
  repeat'
    first
    | intro _
    | with_reducible (
      first
      | assumption | apply State.wr_keeps | fail_if_no_progress apply keeps_mk)
    | split | dsimp only

theorem State.unsettled_keeps {s0 : State} {s : State} {x : Nat} (hs : Keeps s0 s) :
    Keeps s0 (State.unsettled s x) := by
  unfold State.unsettled
  repeat'
    first
    | intro _
    | with_reducible (
      first
      | assumption | fail_if_no_progress apply keeps_mk)
    | split | dsimp only

theorem State.edgesSee_keeps {s0 : State} {s : State} {n : Nat} (hs : Keeps s0 s) :
    Keeps s0 (State.edgesSee s n) := by
  unfold State.edgesSee
  repeat'
    first
    | intro _
    | with_reducible (
      first
      | assumption | apply State.edgeRefer_keeps | apply State.edgeSample_keeps | fail_if_no_progress apply keeps_mk | apply keeps_each
      | apply keeps_ite)
    | split | dsimp only

theorem State.drivePin_keeps {s0 : State} {s : State} {n : Nat} (hs : Keeps s0 s) :
    Keeps s0 (State.drivePin s n) := by
  unfold State.drivePin
  repeat'
    first
    | intro _
    | with_reducible (
      first
      | assumption | fail_if_no_progress apply keeps_mk | apply keeps_ite)
    | split | dsimp only

theorem State.pulse_keeps {s0 : State} {s : State} {ch : Nat} (hs : Keeps s0 s) :
    Keeps s0 (State.pulse s ch) := by
  unfold State.pulse
  repeat'
    first
    | intro _
    | with_reducible (
      first
      | assumption | apply State.pulse0_keeps | apply State.unsettled_keeps | fail_if_no_progress apply keeps_mk | apply keeps_ite)
    | split | dsimp only

theorem State.wirePulse_keeps {s0 : State} {s : State} {ch : Nat} {en : Fld} (hs : Keeps s0 s) :
    Keeps s0 (State.wirePulse s ch en) := by
  unfold State.wirePulse
  repeat'
    first
    | intro _
    | with_reducible (
      first
      | assumption | apply State.pulse_keeps | fail_if_no_progress apply keeps_mk | apply keeps_ite)
    | split | dsimp only

theorem State.gavPulse_keeps {s0 : State} {s : State} {ch : Nat} (hs : Keeps s0 s) :
    Keeps s0 (State.gavPulse s ch) := by
  unfold State.gavPulse
  repeat'
    first
    | intro _
    | with_reducible (
      first
      | assumption | apply State.pulse_keeps | fail_if_no_progress apply keeps_mk | apply keeps_ite)
    | split | dsimp only

theorem State.pinEdge1_keeps {s0 : State} {s : State} {n : Nat} (hs : Keeps s0 s) :
    Keeps s0 (State.pinEdge1 s n) := by
  unfold State.pinEdge1
  repeat'
    first
    | intro _
    | with_reducible (
      first
      | assumption | apply State.edgesSee_keeps | apply State.drivePin_keeps | apply State.takeFree_keeps | apply State.unsettled_keeps
      | apply State.wr_keeps | apply State.gavPulse_keeps | fail_if_no_progress apply keeps_mk | apply keeps_ite | apply keeps_ite1 | apply keeps_ite2
      | refine keeps_of_eq (by assumption) ?_ | refine keeps_of_eq2 (by assumption) ?_ | refine keeps_of_eq3 (by assumption) ?_)
    | split | dsimp only

theorem State.pinEdge_keeps {s0 : State} {s : State} (hs : Keeps s0 s) :
    Keeps s0 (State.pinEdge s) := by
  unfold State.pinEdge
  repeat'
    first
    | intro _
    | with_reducible (
      first
      | assumption | apply State.pinEdge1_keeps | fail_if_no_progress apply keeps_mk | apply keeps_each)
    | split | dsimp only

theorem State.pulses_keeps {s0 : State} {s : State} {chs : List Nat} (hs : Keeps s0 s) :
    Keeps s0 (State.pulses s chs) := by
  unfold State.pulses
  repeat'
    first
    | intro _
    | with_reducible (
      first
      | assumption | apply State.pulse_keeps | fail_if_no_progress apply keeps_mk | apply keeps_each)
    | split | dsimp only

theorem State.recordReg_keeps {s0 : State} {s : State} {i : Nat} {unit : Nat} {off : Nat} (hs : Keeps s0 s) :
    Keeps s0 (State.recordReg s i unit off) := by
  unfold State.recordReg
  repeat'
    first
    | intro _
    | with_reducible (
      first
      | assumption | apply State.record_keeps | fail_if_no_progress apply keeps_mk)
    | split | dsimp only

/-! Memory -/

theorem State.setPcState_keeps {s0 : State} {s : State} {p : Nat} {v : Nat} (hs : Keeps s0 s) :
    Keeps s0 (State.setPcState s p v) := by
  unfold State.setPcState
  repeat'
    first
    | intro _
    | with_reducible (
      first
      | assumption | apply State.wr_keeps | fail_if_no_progress apply keeps_mk)
    | split | dsimp only

theorem State.stale_keeps {s0 : State} {s : State} {l : Nat} (hs : Keeps s0 s) :
    Keeps s0 (State.stale s l) := by
  unfold State.stale
  repeat'
    first
    | intro _
    | with_reducible (
      first
      | assumption | refine keeps_mem ?_ (fun hm => Mem.setFlaw_wf _ _ _ hm) | fail_if_no_progress apply keeps_mk)
    | split | dsimp only

theorem State.slcLog_keeps {s0 : State} {s : State} {sl : Nat} {kind : Nat} {l : Nat} {key : Nat} (hs : Keeps s0 s) :
    Keeps s0 (State.slcLog s sl kind l key) := by
  unfold State.slcLog
  repeat'
    first
    | intro _
    | with_reducible (
      first
      | assumption | apply State.setReg_keeps | fail_if_no_progress apply keeps_mk)
    | split | dsimp only

theorem State.slcEvent_keeps {s0 : State} {s : State} {sl : Nat} {f : Fld} {sev : Nat} {key : Nat} (hs : Keeps s0 s) :
    Keeps s0 (State.slcEvent s sl f sev key) := by
  unfold State.slcEvent
  repeat'
    first
    | intro _
    | with_reducible (
      first
      | assumption | apply State.recordSev_keeps | apply State.setErr_keeps | fail_if_no_progress apply keeps_mk)
    | split | dsimp only

theorem State.setRemap_keeps {s0 : State} {s : State} {p : Nat} {b : Bool} (hs : Keeps s0 s) :
    Keeps s0 (State.setRemap s p b) := by
  unfold State.setRemap
  repeat'
    first
    | intro _
    | with_reducible (
      first
      | assumption | apply State.wr_keeps | fail_if_no_progress apply keeps_mk | apply keeps_each | apply keeps_ite)
    | split | dsimp only

theorem State.rewriteRemap_keeps {s0 : State} {s : State} {p : Nat} (hs : Keeps s0 s) :
    Keeps s0 (State.rewriteRemap s p) := by
  unfold State.rewriteRemap
  repeat'
    first
    | intro _
    | with_reducible (
      first
      | assumption | refine keeps_mem ?_ (fun hm => Mem.remap_wf _ _ hm) | fail_if_no_progress apply keeps_mk)
    | split | dsimp only

theorem State.startMig_keeps {s0 : State} {s : State} {p : Nat} {dir : Nat} (hs : Keeps s0 s) :
    Keeps s0 (State.startMig s p dir) := by
  unfold State.startMig
  repeat'
    first
    | intro _
    | with_reducible (
      first
      | assumption | apply State.rewriteRemap_keeps | apply State.wr_keeps | fail_if_no_progress apply keeps_mk)
    | split | dsimp only

theorem State.retirePc_keeps {s0 : State} {s : State} {p : Nat} (hs : Keeps s0 s) :
    Keeps s0 (State.retirePc s p) := by
  unfold State.retirePc
  repeat'
    first
    | intro _
    | with_reducible (
      first
      | assumption | apply State.slcEvent_keeps | apply State.setPcState_keeps | apply State.startMig_keeps | apply State.setRemap_keeps
      | fail_if_no_progress apply keeps_mk | apply keeps_ite)
    | split | dsimp only

theorem State.meetsLimit_keeps {s0 : State} {s : State} {p : Nat} (hs : Keeps s0 s) :
    Keeps s0 (State.meetsLimit s p) := by
  unfold State.meetsLimit
  repeat'
    first
    | intro _
    | with_reducible (
      first
      | assumption | apply State.retirePc_keeps | fail_if_no_progress apply keeps_mk | apply keeps_ite)
    | split | dsimp only

theorem State.pcUe_keeps {s0 : State} {s : State} {p : Nat} (hs : Keeps s0 s) :
    Keeps s0 (State.pcUe s p) := by
  unfold State.pcUe
  repeat'
    first
    | intro _
    | with_reducible (
      first
      | assumption | apply State.count_keeps | apply State.meetsLimit_keeps | refine keeps_mem ?_ (fun hm => Mem.ueTimes_wf _ _ _ hm)
      | fail_if_no_progress apply keeps_mk | apply keeps_ite)
    | refine keeps_mem ?_ (fun hm => Mem.ueTimes_wf s.mem _ _ hm) | split | dsimp only

theorem State.pcCe_keeps {s0 : State} {s : State} {p : Nat} (hs : Keeps s0 s) :
    Keeps s0 (State.pcCe s p) := by
  unfold State.pcCe
  repeat'
    first
    | intro _
    | with_reducible (
      first
      | assumption | apply State.count_keeps | apply State.meetsLimit_keeps | refine keeps_mem ?_ (fun hm => Mem.cePass_wf _ _ _ hm)
      | fail_if_no_progress apply keeps_mk | apply keeps_ite)
    | split | dsimp only

theorem State.poisonCell_keeps {s0 : State} {s : State} {c : Nat} {reason : Nat} (hs : Keeps s0 s) :
    Keeps s0 (State.poisonCell s c reason) := by
  unfold State.poisonCell
  repeat'
    first
    | intro _
    | with_reducible (
      first
      | assumption | refine keeps_mem ?_ (fun hm => Mem.putCell_wf _ _ _ _ hm) | fail_if_no_progress apply keeps_mk)
    | split | dsimp only

theorem State.poisonMeta_keeps {s0 : State} {s : State} {l : Nat} {reason : Nat} (hs : Keeps s0 s) :
    Keeps s0 (State.poisonMeta s l reason) := by
  unfold State.poisonMeta
  repeat'
    first
    | intro _
    | with_reducible (
      first
      | assumption | refine keeps_mem ?_ (fun hm => Mem.putCell_wf _ _ _ _ hm) | fail_if_no_progress apply keeps_mk)
    | split | dsimp only

theorem State.cellUe_keeps {s0 : State} {s : State} {sl : Nat} {c : Nat} {l : Nat} {key : Nat} (hs : Keeps s0 s) :
    Keeps s0 (State.cellUe s sl c l key) := by
  unfold State.cellUe
  repeat'
    first
    | intro _
    | with_reducible (
      first
      | assumption | apply State.count_keeps | apply State.slcLog_keeps | apply State.poisonCell_keeps | apply State.pcUe_keeps
      | apply State.slcEvent_keeps | fail_if_no_progress apply keeps_mk)
    | split | dsimp only

theorem State.lineUe_keeps {s0 : State} {s : State} {l : Nat} {key : Nat} (hs : Keeps s0 s) :
    Keeps s0 (State.lineUe s l key) := by
  unfold State.lineUe
  repeat'
    first
    | intro _
    | with_reducible (
      first
      | assumption | apply State.cellUe_keeps | fail_if_no_progress apply keeps_mk)
    | split | dsimp only

theorem State.integEvent_keeps {s0 : State} {s : State} {l : Nat} {key : Nat} (hs : Keeps s0 s) :
    Keeps s0 (State.integEvent s l key) := by
  unfold State.integEvent
  repeat'
    first
    | intro _
    | with_reducible (
      first
      | assumption | apply State.slcEvent_keeps | apply State.count_keeps | apply State.slcLog_keeps | fail_if_no_progress apply keeps_mk)
    | split | dsimp only

theorem State.eccCe_keeps {s0 : State} {s : State} {l : Nat} {ecc : Ecc} (hs : Keeps s0 s) :
    Keeps s0 (State.eccCe s l ecc) := by
  unfold State.eccCe
  repeat'
    first
    | intro _
    | with_reducible (
      first
      | assumption | apply State.pcCe_keeps | apply State.stale_keeps | fail_if_no_progress apply keeps_mk | apply keeps_ite)
    | split | dsimp only

theorem State.remapEcc_keeps {s0 : State} {s : State} {l : Nat} {key : Nat} (hs : Keeps s0 s) :
    Keeps s0 (State.remapEcc s l key) := by
  unfold State.remapEcc
  repeat'
    first
    | intro _
    | with_reducible (
      first
      | assumption | apply State.slcEvent_keeps | refine keeps_mem ?_ (fun hm => Mem.remapBad_wf _ _ _ hm) | fail_if_no_progress apply keeps_mk
      | apply keeps_ite)
    | split | dsimp only

theorem State.sliceRead_keeps {s0 : State} {s : State} {l : Nat} {key : Nat} {ecc : Ecc} (hs : Keeps s0 s) :
    Keeps s0 (State.sliceRead s l key ecc).2.2 := by
  unfold State.sliceRead
  repeat'
    first
    | intro _
    | with_reducible (
      first
      | assumption | apply State.remapEcc_keeps | apply State.lineUe_keeps | apply State.slcLog_keeps | apply State.eccCe_keeps
      | apply State.integEvent_keeps | fail_if_no_progress apply keeps_mk | apply keeps_ite | apply keeps_ite1 | apply keeps_ite2
      | refine keeps_of_eq (by assumption) ?_ | refine keeps_of_eq2 (by assumption) ?_ | refine keeps_of_eq3 (by assumption) ?_)
    | split | dsimp only

theorem State.storeLine_keeps {s0 : State} {s : State} {l : Nat} {key : Nat} {ws : List TWord} (hs : Keeps s0 s) :
    Keeps s0 (State.storeLine s l key ws) := by
  unfold State.storeLine
  repeat'
    first
    | intro _
    | with_reducible (
      first
      | assumption | refine keeps_mem ?_ (fun hm => Mem.putCell_wf _ _ _ _ hm) | fail_if_no_progress apply keeps_mk)
    | split | dsimp only

theorem State.slicePartial_keeps {s0 : State} {s : State} {l : Nat} {key : Nat} {ecc : Ecc} {new : Nat → Option Byte} {tg : Nat → Option Tag} (hs : Keeps s0 s) :
    Keeps s0 (State.slicePartial s l key ecc new tg).2 := by
  unfold State.slicePartial
  repeat'
    first
    | intro _
    | with_reducible (
      first
      | assumption | apply State.remapEcc_keeps | apply State.lineUe_keeps | apply State.slcLog_keeps | apply State.eccCe_keeps
      | apply State.storeLine_keeps | apply State.count_keeps | apply State.poisonMeta_keeps | apply State.slcEvent_keeps
      | fail_if_no_progress apply keeps_mk | apply keeps_ite | apply keeps_ite1 | apply keeps_ite2 | refine keeps_of_eq (by assumption) ?_
      | refine keeps_of_eq2 (by assumption) ?_ | refine keeps_of_eq3 (by assumption) ?_)
    | split | dsimp only

theorem State.takeSlot_keeps {s0 : State} {s : State} {r : Nat} {p : Nat} (hs : Keeps s0 s) :
    Keeps s0 (State.takeSlot s r p) := by
  unfold State.takeSlot
  repeat'
    first
    | intro _
    | with_reducible (
      first
      | assumption | refine keeps_mem ?_ (fun hm => Mem.slots_wf _ _ _ hm) | fail_if_no_progress apply keeps_mk)
    | split | dsimp only

theorem State.takeSlots_keeps {s0 : State} {s : State} {l : Nat} {n : Nat} (hs : Keeps s0 s) :
    Keeps s0 (State.takeSlots s l n) := by
  unfold State.takeSlots
  repeat'
    first
    | intro _
    | with_reducible (
      first
      | assumption | apply State.takeSlot_keeps | fail_if_no_progress apply keeps_mk | apply keeps_each)
    | split | dsimp only

theorem State.reserveSlots_keeps {s0 : State} {s : State} {commit : Bool} (hs : Keeps s0 s) :
    Keeps s0 (State.reserveSlots s commit) := by
  unfold State.reserveSlots
  repeat'
    first
    | intro _
    | with_reducible (
      first
      | assumption | refine keeps_mem ?_ (fun hm => Mem.reserve_wf _ _ _ _ hm ?_ ?_) | fail_if_no_progress apply keeps_mk | apply keeps_each
      | apply keeps_ite)
    | exact eachDo_swf _ _ _ (fun _ _ h => swf_sset _ _ _ _ h) (swf_nil _) | split | dsimp only

theorem State.setDir_keeps {s0 : State} {s : State} {l : Nat} {d : DirEntry} (hs : Keeps s0 s) :
    Keeps s0 (State.setDir s l d) := by
  unfold State.setDir
  repeat'
    first
    | intro _
    | with_reducible (
      first
      | assumption | refine keeps_mem ?_ (fun hm => Mem.setDir_wf _ _ _ _ hm) | refine keeps_mem ?_ (fun hm => Mem.dir_wf _ _ _ hm)
      | fail_if_no_progress apply keeps_mk | apply keeps_ite)
    | split | dsimp only

theorem State.setCopy_keeps {s0 : State} {s : State} {l : Nat} {x : List TWord} (hs : Keeps s0 s) :
    Keeps s0 (State.setCopy s l x) := by
  unfold State.setCopy
  repeat'
    first
    | intro _
    | with_reducible (
      first
      | assumption | refine keeps_mem ?_ (fun hm => Mem.copies_wf _ _ _ hm) | fail_if_no_progress apply keeps_mk)
    | split | dsimp only

theorem State.keyErrEvent_keeps {s0 : State} {s : State} {l : Nat} {key : Nat} (hs : Keeps s0 s) :
    Keeps s0 (State.keyErrEvent s l key) := by
  unfold State.keyErrEvent
  repeat'
    first
    | intro _
    | with_reducible (
      first
      | assumption | apply State.count_keeps | apply State.integEvent_keeps | fail_if_no_progress apply keeps_mk)
    | split | dsimp only

theorem State.collect_keeps {s0 : State} {s : State} {l : Nat} (hs : Keeps s0 s) :
    Keeps s0 (State.collect s l) := by
  unfold State.collect
  repeat'
    first
    | intro _
    | with_reducible (
      first
      | assumption | apply State.storeLine_keeps | apply State.takeSlots_keeps | fail_if_no_progress apply keeps_mk)
    | split | dsimp only

theorem State.cohRead_keeps {s0 : State} {s : State} {l : Nat} {key : Nat} {ecc : Ecc} (hs : Keeps s0 s) :
    Keeps s0 (State.cohRead s l key ecc).2.2 := by
  unfold State.cohRead
  repeat'
    first
    | intro _
    | with_reducible (
      first
      | assumption | apply State.keyErrEvent_keeps | apply State.takeSlots_keeps | apply State.sliceRead_keeps | fail_if_no_progress apply keeps_mk
      | apply keeps_ite | apply keeps_ite1 | apply keeps_ite2 | refine keeps_of_eq (by assumption) ?_ | refine keeps_of_eq2 (by assumption) ?_
      | refine keeps_of_eq3 (by assumption) ?_)
    | split | dsimp only

theorem State.cohFull_keeps {s0 : State} {s : State} {l : Nat} {key : Nat} {ws : List TWord} (hs : Keeps s0 s) :
    Keeps s0 (State.cohFull s l key ws).2 := by
  unfold State.cohFull
  repeat'
    first
    | intro _
    | with_reducible (
      first
      | assumption | apply State.keyErrEvent_keeps | apply State.remapEcc_keeps | apply State.storeLine_keeps | apply State.setDir_keeps
      | apply State.takeSlots_keeps | fail_if_no_progress apply keeps_mk | apply keeps_ite | apply keeps_ite1 | apply keeps_ite2
      | refine keeps_of_eq (by assumption) ?_ | refine keeps_of_eq2 (by assumption) ?_ | refine keeps_of_eq3 (by assumption) ?_)
    | split | dsimp only

theorem State.cohPartial_keeps {s0 : State} {s : State} {l : Nat} {key : Nat} {ecc : Ecc} {new : Nat → Option Byte} {tg : Nat → Option Tag} (hs : Keeps s0 s) :
    Keeps s0 (State.cohPartial s l key ecc new tg).2 := by
  unfold State.cohPartial
  repeat'
    first
    | intro _
    | with_reducible (
      first
      | assumption | apply State.keyErrEvent_keeps | apply State.slicePartial_keeps | apply State.setDir_keeps | apply State.collect_keeps
      | apply State.takeSlots_keeps | fail_if_no_progress apply keeps_mk | apply keeps_ite | apply keeps_ite1 | apply keeps_ite2
      | refine keeps_of_eq (by assumption) ?_ | refine keeps_of_eq2 (by assumption) ?_ | refine keeps_of_eq3 (by assumption) ?_)
    | split | dsimp only

theorem State.dirRoom_keeps {s0 : State} {s : State} {l : Nat} (hs : Keeps s0 s) :
    Keeps s0 (State.dirRoom s l) := by
  unfold State.dirRoom
  repeat'
    first
    | intro _
    | with_reducible (
      first
      | assumption | apply State.takeFree_keeps | apply State.count_keeps | apply State.setDir_keeps | apply State.collect_keeps
      | fail_if_no_progress apply keeps_mk | apply keeps_ite | apply keeps_ite1 | apply keeps_ite2 | refine keeps_of_eq (by assumption) ?_
      | refine keeps_of_eq2 (by assumption) ?_ | refine keeps_of_eq3 (by assumption) ?_)
    | split | dsimp only

theorem State.dropHolder_keeps {s0 : State} {s : State} {l : Nat} {c : Nat} (hs : Keeps s0 s) :
    Keeps s0 (State.dropHolder s l c) := by
  unfold State.dropHolder
  repeat'
    first
    | intro _
    | with_reducible (
      first
      | assumption | apply State.setDir_keeps | fail_if_no_progress apply keeps_mk | apply keeps_ite)
    | split | dsimp only

theorem State.cacheRoom_keeps {s0 : State} {s : State} {c : Nat} (hs : Keeps s0 s) :
    Keeps s0 (State.cacheRoom s c) := by
  unfold State.cacheRoom
  repeat'
    first
    | intro _
    | with_reducible (
      first
      | assumption | apply State.takeFree_keeps | apply State.dropHolder_keeps | apply State.collect_keeps | fail_if_no_progress apply keeps_mk
      | apply keeps_ite | apply keeps_ite1 | apply keeps_ite2 | refine keeps_of_eq (by assumption) ?_ | refine keeps_of_eq2 (by assumption) ?_
      | refine keeps_of_eq3 (by assumption) ?_)
    | split | dsimp only

theorem State.fillCore_keeps {s0 : State} {s : State} {c : Nat} {pos : Nat} {data : Bool} {l : Nat} (hs : Keeps s0 s) :
    Keeps s0 (State.fillCore s c pos data l) := by
  unfold State.fillCore
  repeat'
    first
    | intro _
    | with_reducible (
      first
      | assumption | apply State.setDir_keeps | apply State.takeFree_keeps | fail_if_no_progress apply keeps_mk | apply keeps_ite | apply keeps_ite1
      | apply keeps_ite2 | refine keeps_of_eq (by assumption) ?_ | refine keeps_of_eq2 (by assumption) ?_ | refine keeps_of_eq3 (by assumption) ?_)
    | split | dsimp only

theorem State.dropCores_keeps {s0 : State} {s : State} {e : Nat} {instr : Bool} {data : Bool} {all : Bool} (hs : Keeps s0 s) :
    Keeps s0 (State.dropCores s e instr data all) := by
  unfold State.dropCores
  repeat'
    first
    | intro _
    | with_reducible (
      first
      | assumption | apply State.setDir_keeps | fail_if_no_progress apply keeps_mk | apply keeps_each | apply keeps_ite)
    | split | dsimp only

theorem State.flushCores_keeps {s0 : State} {s : State} {e : Nat} (hs : Keeps s0 s) :
    Keeps s0 (State.flushCores s e) := by
  unfold State.flushCores
  repeat'
    first
    | intro _
    | with_reducible (
      first
      | assumption | apply State.dropCores_keeps | fail_if_no_progress apply keeps_mk)
    | split | dsimp only

theorem State.setCcFlaw_keeps {s0 : State} {s : State} {c : Nat} {l : Nat} {e : Ecc} (hs : Keeps s0 s) :
    Keeps s0 (State.setCcFlaw s c l e) := by
  unfold State.setCcFlaw
  repeat'
    first
    | intro _
    | with_reducible (
      first
      | assumption | refine keeps_mem ?_ (fun hm => Mem.ccFlaws_wf _ _ _ hm) | fail_if_no_progress apply keeps_mk)
    | split | dsimp only

theorem State.ccCheck_keeps {s0 : State} {s : State} {c : Nat} {l : Nat} (hs : Keeps s0 s) :
    Keeps s0 (State.ccCheck s c l) := by
  unfold State.ccCheck
  repeat'
    first
    | intro _
    | with_reducible (
      first
      | assumption | apply State.setCcFlaw_keeps | apply State.count_keeps | apply State.record_keeps | apply State.assert_keeps
      | fail_if_no_progress apply keeps_mk)
    | split | dsimp only

theorem State.dirRdS_keeps {s0 : State} {s : State} {c : Nat} {l : Nat} {key : Nat} (hs : Keeps s0 s) :
    Keeps s0 (State.dirRdS s c l key).2.2 := by
  unfold State.dirRdS
  repeat'
    first
    | intro _
    | with_reducible (
      first
      | assumption | apply State.keyErrEvent_keeps | apply State.takeSlots_keeps | apply State.collect_keeps | apply State.sliceRead_keeps
      | apply State.cacheRoom_keeps | apply State.dirRoom_keeps | apply State.setCopy_keeps | apply State.setDir_keeps
      | fail_if_no_progress apply keeps_mk | apply keeps_ite | apply keeps_ite1 | apply keeps_ite2 | refine keeps_of_eq (by assumption) ?_
      | refine keeps_of_eq2 (by assumption) ?_ | refine keeps_of_eq3 (by assumption) ?_)
    | split | dsimp only

theorem State.dirRdU_keeps {s0 : State} {s : State} {c : Nat} {l : Nat} {key : Nat} (hs : Keeps s0 s) :
    Keeps s0 (State.dirRdU s c l key).2.2 := by
  unfold State.dirRdU
  repeat'
    first
    | intro _
    | with_reducible (
      first
      | assumption | apply State.keyErrEvent_keeps | apply State.takeSlots_keeps | apply State.sliceRead_keeps | apply State.dirRoom_keeps
      | apply State.cacheRoom_keeps | apply State.setCopy_keeps | apply State.setDir_keeps | fail_if_no_progress apply keeps_mk | apply keeps_ite
      | apply keeps_ite1 | apply keeps_ite2 | refine keeps_of_eq (by assumption) ?_ | refine keeps_of_eq2 (by assumption) ?_
      | refine keeps_of_eq3 (by assumption) ?_)
    | split | dsimp only

theorem State.markDirty_keeps {s0 : State} {s : State} {e : Nat} {r : Nat} (hs : Keeps s0 s) :
    Keeps s0 (State.markDirty s e r) := by
  unfold State.markDirty
  repeat'
    first
    | intro _
    | with_reducible (
      first
      | assumption | apply State.wr_keeps | refine keeps_mem ?_ (fun hm => Mem.hoDirty_wf _ _ _ hm) | fail_if_no_progress apply keeps_mk
      | apply keeps_ite)
    | split | dsimp only

theorem State.setLvsWord_keeps {s0 : State} {s : State} {e : Nat} {o : Nat} {x : TWord} (hs : Keeps s0 s) :
    Keeps s0 (State.setLvsWord s e o x) := by
  unfold State.setLvsWord
  repeat'
    first
    | intro _
    | with_reducible (
      first
      | assumption | apply State.markDirty_keeps | refine keeps_mem ?_ (fun hm => Mem.putWord_wf _ _ _ hm) | fail_if_no_progress apply keeps_mk
      | apply keeps_ite)
    | split | dsimp only

theorem State.lvsUe_keeps {s0 : State} {s : State} {e : Nat} {r : Nat} {o : Nat} (hs : Keeps s0 s) :
    Keeps s0 (State.lvsUe s e r o) := by
  unfold State.lvsUe
  repeat'
    first
    | intro _
    | with_reducible (
      first
      | assumption | apply State.setReg_keeps | apply State.count_keeps | apply State.recordReg_keeps | apply State.assert_keeps
      | fail_if_no_progress apply keeps_mk | apply keeps_ite)
    | split | dsimp only

/-! Micro -/

theorem State.dropUcFlaws_keeps {s0 : State} {s : State} {f : Nat → Bool} (hs : Keeps s0 s) :
    Keeps s0 (State.dropUcFlaws s f) := by
  unfold State.dropUcFlaws
  repeat'
    first
    | intro _
    | with_reducible (
      first
      | assumption | refine keeps_mem ?_ (fun hm => Mem.ucDrop_wf _ _ hm) | fail_if_no_progress apply keeps_mk)
    | split | dsimp only

theorem State.freshStore_keeps {s0 : State} {s : State} {e : Nat} (hs : Keeps s0 s) :
    Keeps s0 (State.freshStore s e) := by
  unfold State.freshStore
  repeat'
    first
    | intro _
    | with_reducible (
      first
      | assumption | apply State.dropUcFlaws_keeps | fail_if_no_progress apply keeps_mk)
    | split | dsimp only

theorem State.mendStore_keeps {s0 : State} {s : State} {e : Nat} {ma : Nat} (hs : Keeps s0 s) :
    Keeps s0 (State.mendStore s e ma) := by
  unfold State.mendStore
  repeat'
    first
    | intro _
    | with_reducible (
      first
      | assumption | apply State.dropUcFlaws_keeps | fail_if_no_progress apply keeps_mk | apply keeps_ite)
    | split | dsimp only

theorem State.romFetch_keeps {s0 : State} {s : State} {e : Nat} (hs : Keeps s0 s) :
    Keeps s0 (State.romFetch s e) := by
  unfold State.romFetch
  repeat'
    first
    | intro _
    | with_reducible (
      first
      | assumption | apply State.takeFree_keeps | apply State.count_keeps | fail_if_no_progress apply keeps_mk | apply keeps_ite | apply keeps_ite1
      | apply keeps_ite2 | refine keeps_of_eq (by assumption) ?_ | refine keeps_of_eq2 (by assumption) ?_ | refine keeps_of_eq3 (by assumption) ?_)
    | split | dsimp only

/-! Gavotte -/

theorem State.trigOff_keeps {s0 : State} {s : State} {n : Nat} (hs : Keeps s0 s) :
    Keeps s0 (State.trigOff s n) := by
  unfold State.trigOff
  repeat'
    first
    | intro _
    | with_reducible (
      first
      | assumption | apply State.wr_keeps | fail_if_no_progress apply keeps_mk)
    | split | dsimp only

theorem State.gavErr_keeps {s0 : State} {s : State} {f : Fld} (hs : Keeps s0 s) :
    Keeps s0 (State.gavErr s f) := by
  unfold State.gavErr
  repeat'
    first
    | intro _
    | with_reducible (
      first
      | assumption | apply State.wr_keeps | apply State.setErr_keeps | fail_if_no_progress apply keeps_mk | apply keeps_ite)
    | split | dsimp only

theorem State.ownXclk_keeps {s0 : State} {s : State} (hs : Keeps s0 s) :
    Keeps s0 (State.ownXclk s) := by
  unfold State.ownXclk
  repeat'
    first
    | intro _
    | with_reducible (
      first
      | assumption | fail_if_no_progress apply keeps_mk)
    | split | dsimp only

theorem State.inXclk_keeps {s0 : State} {own : Bool} {s : State} (hs : Keeps s0 s) :
    Keeps s0 (State.inXclk own s) := by
  unfold State.inXclk
  repeat'
    first
    | intro _
    | with_reducible (
      first
      | assumption | apply State.ownXclk_keeps | fail_if_no_progress apply keeps_mk | apply keeps_ite)
    | split | dsimp only

theorem State.lateCheck_keeps {s0 : State} {s : State} {n : Nat} (hs : Keeps s0 s) :
    Keeps s0 (State.lateCheck s n) := by
  unfold State.lateCheck
  repeat'
    first
    | intro _
    | with_reducible (
      first
      | assumption | apply State.gavErr_keeps | apply State.trigOff_keeps | fail_if_no_progress apply keeps_mk | apply keeps_ite)
    | split | dsimp only

theorem State.wrapEntry_keeps {s0 : State} {s : State} {n : Nat} (hs : Keeps s0 s) :
    Keeps s0 (State.wrapEntry s n) := by
  unfold State.wrapEntry
  repeat'
    first
    | intro _
    | with_reducible (
      first
      | assumption | fail_if_no_progress apply keeps_mk | apply keeps_ite)
    | split | dsimp only

theorem State.timerDown_keeps {s0 : State} {s : State} {t : Nat} {k : Nat} (hs : Keeps s0 s) :
    Keeps s0 (State.timerDown s t k) := by
  unfold State.timerDown
  repeat'
    first
    | intro _
    | with_reducible (
      first
      | assumption | apply State.wr_keeps | fail_if_no_progress apply keeps_mk)
    | split | dsimp only

theorem State.timersDown_keeps {s0 : State} {s : State} {unit : Nat} {k : Nat} (hs : Keeps s0 s) :
    Keeps s0 (State.timersDown s unit k) := by
  unfold State.timersDown
  repeat'
    first
    | intro _
    | with_reducible (
      first
      | assumption | apply State.timerDown_keeps | fail_if_no_progress apply keeps_mk | apply keeps_each | apply keeps_ite)
    | split | dsimp only

theorem State.wrapCycle_keeps {s0 : State} {s : State} (hs : Keeps s0 s) :
    Keeps s0 (State.wrapCycle s) := by
  unfold State.wrapCycle
  repeat'
    first
    | intro _
    | with_reducible (
      first
      | assumption | apply State.wr_keeps | apply State.lateCheck_keeps | apply State.timersDown_keeps | apply State.wrapEntry_keeps
      | fail_if_no_progress apply keeps_mk | apply keeps_each | apply keeps_ite)
    | split | dsimp only

theorem State.clock_keeps {s0 : State} {s : State} {n : Nat} (hs : Keeps s0 s) :
    Keeps s0 (State.clock s n) := by
  unfold State.clock
  repeat'
    first
    | intro _
    | with_reducible (
      first
      | assumption | fail_if_no_progress apply keeps_mk)
    | split | dsimp only

theorem State.stride_keeps {s0 : State} {s : State} {n : Nat} (hs : Keeps s0 s) :
    Keeps s0 (State.stride s n) := by
  unfold State.stride
  repeat'
    first
    | intro _
    | with_reducible (
      first
      | assumption | apply State.timersDown_keeps | apply State.clock_keeps | apply State.runClaims_keeps | apply State.endHoldoffs_keeps
      | apply State.wrapCycle_keeps | fail_if_no_progress apply keeps_mk | apply keeps_ite)
    | split | dsimp only

theorem State.strides_keeps {s0 : State} {x0 : Nat} {x1 : Nat} {x2 : State} (hs : Keeps s0 x2) :
    Keeps s0 (State.strides x0 x1 x2) := by
  induction x0 generalizing x1 x2 with
  | zero =>
    unfold State.strides
    repeat'
      first
      | intro _
      | with_reducible (
        first
        | assumption | apply State.stride_keeps | apply State.pinEdge_keeps | fail_if_no_progress apply keeps_mk)
      | split | dsimp only
  | succ k ih =>
    unfold State.strides
    repeat'
      first
      | intro _
      | with_reducible (
        first
        | assumption | apply State.stride_keeps | apply State.pinEdge_keeps | fail_if_no_progress apply keeps_mk)
      | with_reducible apply ih | split | dsimp only

theorem State.advance_keeps {s0 : State} {s : State} {n : Nat} (hs : Keeps s0 s) :
    Keeps s0 (State.advance s n) := by
  unfold State.advance
  repeat'
    first
    | intro _
    | with_reducible (
      first
      | assumption | apply State.strides_keeps | fail_if_no_progress apply keeps_mk)
    | split | dsimp only

theorem execAngleWrap_keeps {s0 : State} {s : State} (hs : Keeps s0 s) :
    OutKeeps s0 (execAngleWrap s) := by
  unfold execAngleWrap
  repeat'
    first
    | intro _
    | with_reducible (
      first
      | assumption | apply State.advance_keeps | fail_if_no_progress apply keeps_mk | apply out_next)
    | split | dsimp only

theorem State.pass_keeps {s0 : State} {f n : Nat} {s : State} (hs : Keeps s0 s) : Keeps s0 (State.pass f n s) := by
  induction f generalizing n s with
  | zero => exact hs
  | succ k ih =>
    cases n with
    | zero => exact hs
    | succ n => exact ih (State.advance_keeps hs)


theorem State.passWraps_keeps {s0 : State} {x0 : Nat} {x1 : State} (hs : Keeps s0 x1) :
    Keeps s0 (State.passWraps x0 x1) := by
  induction x0 generalizing x1 with
  | zero =>
    unfold State.passWraps
    repeat'
      first
      | intro _
      | with_reducible (
        first
        | assumption | apply State.advance_keeps | fail_if_no_progress apply keeps_mk)
      | split | dsimp only
  | succ k ih =>
    unfold State.passWraps
    repeat'
      first
      | intro _
      | with_reducible (
        first
        | assumption | apply State.advance_keeps | fail_if_no_progress apply keeps_mk)
      | with_reducible apply ih | split | dsimp only

theorem State.passTo_keeps {s0 : State} {s : State} {mono : Nat} (hs : Keeps s0 s) :
    Keeps s0 (State.passTo s mono) := by
  unfold State.passTo
  repeat'
    first
    | intro _
    | with_reducible (
      first
      | assumption | apply State.pass_keeps | fail_if_no_progress apply keeps_mk)
    | split | dsimp only

theorem execVoteMismatch_keeps {s0 : State} {s : State} (hs : Keeps s0 s) :
    OutKeeps s0 (execVoteMismatch s) := by
  unfold execVoteMismatch
  repeat'
    first
    | intro _
    | with_reducible (
      first
      | assumption | apply State.recordReg_keeps | apply State.gavErr_keeps | apply State.ownXclk_keeps | fail_if_no_progress apply keeps_mk
      | apply out_next)
    | split | dsimp only

theorem State.setQual_keeps {s0 : State} {s : State} {c : Nat} {b : Bool} (hs : Keeps s0 s) :
    Keeps s0 (State.setQual s c b) := by
  unfold State.setQual
  repeat'
    first
    | intro _
    | with_reducible (
      first
      | assumption | apply State.wr_keeps | fail_if_no_progress apply keeps_mk | apply keeps_ite)
    | split | dsimp only

theorem State.gavState_keeps {s0 : State} {s : State} {st : Nat} {acq : Bool} (hs : Keeps s0 s) :
    Keeps s0 (State.gavState s st acq) := by
  unfold State.gavState
  repeat'
    first
    | intro _
    | with_reducible (
      first
      | assumption | apply State.wr_keeps | apply State.recordReg_keeps | apply State.assert_keeps | fail_if_no_progress apply keeps_mk
      | apply keeps_ite)
    | split | dsimp only

theorem State.setRate_keeps {s0 : State} {s : State} {f : Nat} (hs : Keeps s0 s) :
    Keeps s0 (State.setRate s f) := by
  unfold State.setRate
  repeat'
    first
    | intro _
    | with_reducible (
      first
      | assumption | apply State.wr_keeps | fail_if_no_progress apply keeps_mk)
    | split | dsimp only

theorem State.steer_keeps {s0 : State} {s : State} {err : ℤ} {tracked : Nat} (hs : Keeps s0 s) :
    Keeps s0 (State.steer s err tracked) := by
  unfold State.steer
  repeat'
    first
    | intro _
    | with_reducible (
      first
      | assumption | apply State.setRate_keeps | fail_if_no_progress apply keeps_mk | apply keeps_ite)
    | split | dsimp only

theorem State.setRef_keeps {s0 : State} {s : State} {c : Nat} (hs : Keeps s0 s) :
    Keeps s0 (State.setRef s c) := by
  unfold State.setRef
  repeat'
    first
    | intro _
    | with_reducible (
      first
      | assumption | apply State.wr_keeps | apply State.gavErr_keeps | fail_if_no_progress apply keeps_mk | apply keeps_ite)
    | split | dsimp only

theorem State.restRate_keeps {s0 : State} {s : State} (hs : Keeps s0 s) :
    Keeps s0 (State.restRate s) := by
  unfold State.restRate
  repeat'
    first
    | intro _
    | with_reducible (
      first
      | assumption | apply State.setRate_keeps | fail_if_no_progress apply keeps_mk | apply keeps_ite)
    | split | dsimp only

theorem State.enterHoldover_keeps {s0 : State} {s : State} (hs : Keeps s0 s) :
    Keeps s0 (State.enterHoldover s) := by
  unfold State.enterHoldover
  repeat'
    first
    | intro _
    | with_reducible (
      first
      | assumption | apply State.setRef_keeps | apply State.setRate_keeps | apply State.gavState_keeps | fail_if_no_progress apply keeps_mk)
    | split | dsimp only

theorem State.reacquire_keeps {s0 : State} {s : State} (hs : Keeps s0 s) :
    Keeps s0 (State.reacquire s) := by
  unfold State.reacquire
  repeat'
    first
    | intro _
    | with_reducible (
      first
      | assumption | apply State.setRef_keeps | apply State.restRate_keeps | apply State.gavState_keeps | fail_if_no_progress apply keeps_mk
      | apply keeps_ite)
    | split | dsimp only

theorem State.switchRef_keeps {s0 : State} {s : State} (hs : Keeps s0 s) :
    Keeps s0 (State.switchRef s) := by
  unfold State.switchRef
  repeat'
    first
    | intro _
    | with_reducible (
      first
      | assumption | apply State.setRef_keeps | apply State.enterHoldover_keeps | fail_if_no_progress apply keeps_mk | apply keeps_ite)
    | split | dsimp only

theorem State.refLost_keeps {s0 : State} {s : State} (hs : Keeps s0 s) :
    Keeps s0 (State.refLost s) := by
  unfold State.refLost
  repeat'
    first
    | intro _
    | with_reducible (
      first
      | assumption | apply State.switchRef_keeps | apply State.reacquire_keeps | fail_if_no_progress apply keeps_mk | apply keeps_ite)
    | split | dsimp only

theorem State.measure_keeps {s0 : State} {s : State} {c : Nat} {err : ℤ} {tracked : Nat} (hs : Keeps s0 s) :
    Keeps s0 (State.measure s c err tracked) := by
  unfold State.measure
  repeat'
    first
    | intro _
    | with_reducible (
      first
      | assumption | apply State.wr_keeps | apply State.steer_keeps | apply State.enterHoldover_keeps | apply State.gavState_keeps
      | fail_if_no_progress apply keeps_mk | apply keeps_ite)
    | split | dsimp only

theorem State.setPhase_keeps {s0 : State} {s : State} {p : Nat} {x : Phase} (hs : Keeps s0 s) :
    Keeps s0 (State.setPhase s p x) := by
  unfold State.setPhase
  repeat'
    first
    | intro _
    | with_reducible (
      first
      | assumption | fail_if_no_progress apply keeps_mk)
    | split | dsimp only

theorem State.setPhaseQual_keeps {s0 : State} {s : State} {p : Nat} {b : Bool} (hs : Keeps s0 s) :
    Keeps s0 (State.setPhaseQual s p b) := by
  unfold State.setPhaseQual
  repeat'
    first
    | intro _
    | with_reducible (
      first
      | assumption | apply State.wr_keeps | apply State.setQual_keeps | fail_if_no_progress apply keeps_mk)
    | split | dsimp only

theorem State.qualifyOthers_keeps {s0 : State} {s : State} (hs : Keeps s0 s) :
    Keeps s0 (State.qualifyOthers s) := by
  unfold State.qualifyOthers
  repeat'
    first
    | intro _
    | with_reducible (
      first
      | assumption | apply State.setPhaseQual_keeps | fail_if_no_progress apply keeps_mk | apply keeps_each | apply keeps_ite)
    | split | dsimp only

theorem State.judgeCycle_keeps {s0 : State} {s : State} {p : Nat} {dep : ℤ} {fresh : Bool} (hs : Keeps s0 s) :
    Keeps s0 (State.judgeCycle s p dep fresh) := by
  unfold State.judgeCycle
  repeat'
    first
    | intro _
    | with_reducible (
      first
      | assumption | apply State.setPhaseQual_keeps | apply State.setPhase_keeps | apply State.recordCode_keeps | apply State.refLost_keeps
      | apply State.reacquire_keeps | apply State.qualifyOthers_keeps | fail_if_no_progress apply keeps_mk | apply keeps_ite)
    | split | dsimp only

theorem State.phrefEdge_keeps {s0 : State} {s : State} {p : Nat} {rising : Bool} (hs : Keeps s0 s) :
    Keeps s0 (State.phrefEdge s p rising) := by
  unfold State.phrefEdge
  repeat'
    first
    | intro _
    | with_reducible (
      first
      | assumption | apply State.setPhase_keeps | apply State.measure_keeps | apply State.judgeCycle_keeps | fail_if_no_progress apply keeps_mk
      | apply keeps_ite)
    | split | dsimp only

theorem execPhrefEdge_keeps {s0 : State} {p : Fin 3} {rising own : Bool} {s : State} (hs : Keeps s0 s) :
    OutKeeps s0 (execPhrefEdge p rising own s) := by
  unfold execPhrefEdge
  repeat'
    first
    | intro _
    | with_reducible (
      first
      | assumption | apply State.phrefEdge_keeps | apply State.inXclk_keeps | fail_if_no_progress apply keeps_mk | apply out_next)
    | split | dsimp only

theorem State.toPtpZero_keeps {s0 : State} {s : State} (hs : Keeps s0 s) :
    Keeps s0 (State.toPtpZero s) := by
  unfold State.toPtpZero
  repeat'
    first
    | intro _
    | with_reducible (
      first
      | assumption | apply State.passTo_keeps | fail_if_no_progress apply keeps_mk)
    | split | dsimp only

theorem execPtpReferenceInstant_keeps {s0 : State} {s : State} (hs : Keeps s0 s) :
    OutKeeps s0 (execPtpReferenceInstant s) := by
  unfold execPtpReferenceInstant
  repeat'
    first
    | intro _
    | with_reducible (
      first
      | assumption | apply State.toPtpZero_keeps | apply State.measure_keeps | apply State.ownXclk_keeps | fail_if_no_progress apply keeps_mk
      | apply out_next | apply keeps_ite)
    | split | dsimp only

theorem State.unqualify_keeps {s0 : State} {s : State} {c : Nat} (hs : Keeps s0 s) :
    Keeps s0 (State.unqualify s c) := by
  unfold State.unqualify
  repeat'
    first
    | intro _
    | with_reducible (
      first
      | assumption | apply State.setPhase_keeps | apply State.setQual_keeps | apply State.wr_keeps | fail_if_no_progress apply keeps_mk
      | apply keeps_each | apply keeps_ite)
    | split | dsimp only

theorem State.loseRef_keeps {s0 : State} {s : State} {c : Nat} (hs : Keeps s0 s) :
    Keeps s0 (State.loseRef s c) := by
  unfold State.loseRef
  repeat'
    first
    | intro _
    | with_reducible (
      first
      | assumption | apply State.unqualify_keeps | apply State.refLost_keeps | apply State.reacquire_keeps | fail_if_no_progress apply keeps_mk
      | apply keeps_ite)
    | split | dsimp only

theorem execReferenceLoss_keeps {s0 : State} {sv : Bool} {s : State} (hs : Keeps s0 s) :
    OutKeeps s0 (execReferenceLoss sv s) := by
  unfold execReferenceLoss
  repeat'
    first
    | intro _
    | with_reducible (
      first
      | assumption | apply State.passTo_keeps | apply State.loseRef_keeps | apply State.ownXclk_keeps | apply State.unqualify_keeps
      | fail_if_no_progress apply keeps_mk | apply out_next | apply keeps_ite)
    | split | dsimp only

theorem execReferenceRevert_keeps {s0 : State} {own : Bool} {s : State} (hs : Keeps s0 s) :
    OutKeeps s0 (execReferenceRevert own s) := by
  unfold execReferenceRevert
  repeat'
    first
    | intro _
    | with_reducible (
      first
      | assumption | apply State.inXclk_keeps | apply State.passTo_keeps | apply State.refLost_keeps | fail_if_no_progress apply keeps_mk
      | apply out_next | apply keeps_ite)
    | split | dsimp only

theorem execHoldoverLimitExpiry_keeps {s0 : State} {s : State} (hs : Keeps s0 s) :
    OutKeeps s0 (execHoldoverLimitExpiry s) := by
  unfold execHoldoverLimitExpiry
  repeat'
    first
    | intro _
    | with_reducible (
      first
      | assumption | apply State.passTo_keeps | apply State.gavState_keeps | apply State.setRate_keeps | fail_if_no_progress apply keeps_mk
      | apply out_next | apply keeps_ite)
    | split | dsimp only

theorem State.forceHold_keeps {s0 : State} {s : State} {b : Bool} (hs : Keeps s0 s) :
    Keeps s0 (State.forceHold s b) := by
  unfold State.forceHold
  repeat'
    first
    | intro _
    | with_reducible (
      first
      | assumption | apply State.wr_keeps | apply State.enterHoldover_keeps | apply State.reacquire_keeps | fail_if_no_progress apply keeps_mk
      | apply keeps_ite)
    | split | dsimp only

theorem execForceHold_keeps {s0 : State} {b : Bool} {s : State} (hs : Keeps s0 s) :
    OutKeeps s0 (execForceHold b s) := by
  unfold execForceHold
  repeat'
    first
    | intro _
    | with_reducible (
      first
      | assumption | apply State.reply_keeps | apply State.forceHold_keeps | apply State.ownXclk_keeps | fail_if_no_progress apply keeps_mk
      | apply out_next)
    | split | dsimp only

theorem State.setTaiLock_keeps {s0 : State} {s : State} {b : Bool} (hs : Keeps s0 s) :
    Keeps s0 (State.setTaiLock s b) := by
  unfold State.setTaiLock
  repeat'
    first
    | intro _
    | with_reducible (
      first
      | assumption | apply State.setQual_keeps | apply State.wr_keeps | apply State.refLost_keeps | apply State.reacquire_keeps
      | fail_if_no_progress apply keeps_mk | apply keeps_ite)
    | split | dsimp only

theorem State.ppsRise_keeps {s0 : State} {s : State} (hs : Keeps s0 s) :
    Keeps s0 (State.ppsRise s) := by
  unfold State.ppsRise
  repeat'
    first
    | intro _
    | with_reducible (
      first
      | assumption | fail_if_no_progress apply keeps_mk | apply keeps_ite)
    | split | dsimp only

theorem State.stepTai_keeps {s0 : State} {s : State} {v : Nat} (hs : Keeps s0 s) :
    Keeps s0 (State.stepTai s v) := by
  unfold State.stepTai
  repeat'
    first
    | intro _
    | with_reducible (
      first
      | assumption | apply State.record_keeps | apply State.gavErr_keeps | apply State.ppsRise_keeps | fail_if_no_progress apply keeps_mk
      | apply keeps_ite)
    | split | dsimp only

theorem State.slewTai_keeps {s0 : State} {s : State} {v : Nat} (hs : Keeps s0 s) :
    Keeps s0 (State.slewTai s v) := by
  unfold State.slewTai
  repeat'
    first
    | intro _
    | with_reducible (
      first
      | assumption | apply State.takeFree_keeps | fail_if_no_progress apply keeps_mk | apply keeps_ite | apply keeps_ite1 | apply keeps_ite2
      | refine keeps_of_eq (by assumption) ?_ | refine keeps_of_eq2 (by assumption) ?_ | refine keeps_of_eq3 (by assumption) ?_)
    | split | dsimp only

theorem State.followTai_keeps {s0 : State} {s : State} {v : Nat} (hs : Keeps s0 s) :
    Keeps s0 (State.followTai s v) := by
  unfold State.followTai
  repeat'
    first
    | intro _
    | with_reducible (
      first
      | assumption | apply State.setTaiLock_keeps | apply State.slewTai_keeps | apply State.stepTai_keeps | fail_if_no_progress apply keeps_mk
      | apply keeps_ite)
    | split | dsimp only

theorem State.taiCtrl_keeps {s0 : State} {s : State} {d : Word} {v : Option (BitVec 64)} (hs : Keeps s0 s) :
    Keeps s0 (State.taiCtrl s d v) := by
  unfold State.taiCtrl
  repeat'
    first
    | intro _
    | with_reducible (
      first
      | assumption | apply State.reply_keeps | apply State.setReg_keeps | apply State.setTaiLock_keeps | apply State.stepTai_keeps
      | apply State.takeFree_keeps | fail_if_no_progress apply keeps_mk | apply keeps_ite | apply keeps_ite1 | apply keeps_ite2
      | refine keeps_of_eq (by assumption) ?_ | refine keeps_of_eq2 (by assumption) ?_ | refine keeps_of_eq3 (by assumption) ?_)
    | split | dsimp only

theorem execGavTaiCtrl_keeps {s0 : State} {d : Word} {v : Option (BitVec 64)} {s : State} (hs : Keeps s0 s) :
    OutKeeps s0 (execGavTaiCtrl d v s) := by
  unfold execGavTaiCtrl
  repeat'
    first
    | intro _
    | with_reducible (
      first
      | assumption | apply State.taiCtrl_keeps | apply State.ownXclk_keeps | fail_if_no_progress apply keeps_mk | apply out_next)
    | split | dsimp only

theorem execTaiSet_keeps {s0 : State} {d : Word} {s : State} (hs : Keeps s0 s) :
    OutKeeps s0 (execTaiSet d s) := by
  unfold execTaiSet
  repeat'
    first
    | intro _
    | with_reducible (
      first
      | assumption | apply State.reply_keeps | fail_if_no_progress apply keeps_mk | apply out_next)
    | split | dsimp only

theorem State.ppsIn_keeps {s0 : State} {s : State} (hs : Keeps s0 s) :
    Keeps s0 (State.ppsIn s) := by
  unfold State.ppsIn
  repeat'
    first
    | intro _
    | with_reducible (
      first
      | assumption | apply State.setTaiLock_keeps | apply State.stepTai_keeps | apply State.followTai_keeps | fail_if_no_progress apply keeps_mk
      | apply keeps_ite)
    | split | dsimp only

theorem execPpsInEdge_keeps {s0 : State} {s : State} (hs : Keeps s0 s) :
    OutKeeps s0 (execPpsInEdge s) := by
  unfold execPpsInEdge
  repeat'
    first
    | intro _
    | with_reducible (
      first
      | assumption | apply State.ppsIn_keeps | apply State.ownXclk_keeps | fail_if_no_progress apply keeps_mk | apply out_next)
    | split | dsimp only

theorem execTaiLockTimeout_keeps {s0 : State} {s : State} (hs : Keeps s0 s) :
    OutKeeps s0 (execTaiLockTimeout s) := by
  unfold execTaiLockTimeout
  repeat'
    first
    | intro _
    | with_reducible (
      first
      | assumption | apply State.setTaiLock_keeps | apply State.ownXclk_keeps | apply State.passTo_keeps | fail_if_no_progress apply keeps_mk
      | apply out_next | apply keeps_ite)
    | split | dsimp only

theorem execPpsOutRise_keeps {s0 : State} {s : State} (hs : Keeps s0 s) :
    OutKeeps s0 (execPpsOutRise s) := by
  unfold execPpsOutRise
  repeat'
    first
    | intro _
    | with_reducible (
      first
      | assumption | apply State.ppsRise_keeps | apply State.passTo_keeps | fail_if_no_progress apply keeps_mk | apply out_next | apply keeps_ite)
    | split | dsimp only

theorem execPpsOutFall_keeps {s0 : State} {s : State} (hs : Keeps s0 s) :
    OutKeeps s0 (execPpsOutFall s) := by
  unfold execPpsOutFall
  repeat'
    first
    | intro _
    | with_reducible (
      first
      | assumption | apply State.passTo_keeps | fail_if_no_progress apply keeps_mk | apply out_next | apply keeps_ite)
    | split | dsimp only

theorem State.timerStart_keeps {s0 : State} {s : State} {t : Nat} (hs : Keeps s0 s) :
    Keeps s0 (State.timerStart s t) := by
  unfold State.timerStart
  repeat'
    first
    | intro _
    | with_reducible (
      first
      | assumption | apply State.wr_keeps | fail_if_no_progress apply keeps_mk)
    | split | dsimp only

theorem State.timerExpiry_keeps {s0 : State} {s : State} {t : Nat} (hs : Keeps s0 s) :
    Keeps s0 (State.timerExpiry s t) := by
  unfold State.timerExpiry
  repeat'
    first
    | intro _
    | with_reducible (
      first
      | assumption | apply State.assert_keeps | apply State.gavPulse_keeps | apply State.timerStart_keeps | apply State.wr_keeps
      | fail_if_no_progress apply keeps_mk | apply keeps_ite)
    | split | dsimp only

theorem State.toExpiry_keeps {s0 : State} {s : State} {t : Nat} (hs : Keeps s0 s) :
    Keeps s0 (State.toExpiry s t) := by
  unfold State.toExpiry
  repeat'
    first
    | intro _
    | with_reducible (
      first
      | assumption | apply State.passTo_keeps | apply State.passWraps_keeps | apply State.pass_keeps | fail_if_no_progress apply keeps_mk
      | apply keeps_ite)
    | split | dsimp only

theorem execTimerExpiry_keeps {s0 : State} {t : Fin 64} {s : State} (hs : Keeps s0 s) :
    OutKeeps s0 (execTimerExpiry t s) := by
  unfold execTimerExpiry
  repeat'
    first
    | intro _
    | with_reducible (
      first
      | assumption | apply State.timerExpiry_keeps | apply State.toExpiry_keeps | fail_if_no_progress apply keeps_mk | apply out_next
      | apply keeps_ite)
    | split | dsimp only

theorem State.timerCtrl_keeps {s0 : State} {s : State} {t : Nat} {d : Word} (hs : Keeps s0 s) :
    Keeps s0 (State.timerCtrl s t d) := by
  unfold State.timerCtrl
  repeat'
    first
    | intro _
    | with_reducible (
      first
      | assumption | apply State.reply_keeps | apply State.setReg_keeps | apply State.timerStart_keeps | fail_if_no_progress apply keeps_mk
      | apply keeps_ite)
    | split | dsimp only

theorem State.setCaptures_keeps {s0 : State} {s : State} {e : Nat} {l : List (Word × Word)} (hs : Keeps s0 s) :
    Keeps s0 (State.setCaptures s e l) := by
  unfold State.setCaptures
  repeat'
    first
    | intro _
    | with_reducible (
      first
      | assumption | fail_if_no_progress apply keeps_mk)
    | split | dsimp only

theorem State.edgeAccept_keeps {s0 : State} {s : State} {e : Nat} {c : EdgeCand} (hs : Keeps s0 s) :
    Keeps s0 (State.edgeAccept s e c) := by
  unfold State.edgeAccept
  repeat'
    first
    | intro _
    | with_reducible (
      first
      | assumption | apply State.wr_keeps | apply State.count_keeps | apply State.setCaptures_keeps | apply State.recordReg_keeps
      | apply State.gavErr_keeps | apply State.assert_keeps | apply State.gavPulse_keeps | fail_if_no_progress apply keeps_mk | apply keeps_ite)
    | split | dsimp only

theorem execEdgeAccept_keeps {s0 : State} {e : Fin 32} {rising own : Bool} {s : State} (hs : Keeps s0 s) :
    OutKeeps s0 (execEdgeAccept e rising own s) := by
  unfold execEdgeAccept
  repeat'
    first
    | intro _
    | with_reducible (
      first
      | assumption | apply State.edgeAccept_keeps | apply State.inXclk_keeps | apply State.pass_keeps | fail_if_no_progress apply keeps_mk
      | apply out_next | apply keeps_ite)
    | split | dsimp only

theorem execPop_keeps {s0 : State} {e : Fin 32} {s : State} (hs : Keeps s0 s) :
    OutKeeps s0 (execPop e s) := by
  unfold execPop
  repeat'
    first
    | intro _
    | with_reducible (
      first
      | assumption | apply State.reply_keeps | apply State.setCaptures_keeps | fail_if_no_progress apply keeps_mk | apply out_next)
    | split | dsimp only

theorem State.edgeCtrl_keeps {s0 : State} {s : State} {e : Nat} {d : Word} (hs : Keeps s0 s) :
    Keeps s0 (State.edgeCtrl s e d) := by
  unfold State.edgeCtrl
  repeat'
    first
    | intro _
    | with_reducible (
      first
      | assumption | apply State.reply_keeps | apply State.setReg_keeps | apply State.edgeSample_keeps | fail_if_no_progress apply keeps_mk
      | apply keeps_ite)
    | split | dsimp only

theorem execPinLevelChange_keeps {s0 : State} {n : Fin 36} {b : Bool} {s : State} (hs : Keeps s0 s) :
    OutKeeps s0 (execPinLevelChange n b s) := by
  unfold execPinLevelChange
  repeat'
    first
    | intro _
    | with_reducible (
      first
      | assumption | apply State.unsettled_keeps | apply State.edgesSee_keeps | fail_if_no_progress apply keeps_mk | apply out_next | apply keeps_ite)
    | split | dsimp only

theorem State.gpioOut_keeps {s0 : State} {s : State} {d : Word} (hs : Keeps s0 s) :
    Keeps s0 (State.gpioOut s d) := by
  unfold State.gpioOut
  repeat'
    first
    | intro _
    | with_reducible (
      first
      | assumption | apply State.reply_keeps | apply State.unsettled_keeps | apply State.wr_keeps | fail_if_no_progress apply keeps_mk)
    | split | dsimp only

theorem execPinGpioOut_keeps {s0 : State} {d : Word} {s : State} (hs : Keeps s0 s) :
    OutKeeps s0 (execPinGpioOut d s) := by
  unfold execPinGpioOut
  repeat'
    first
    | intro _
    | with_reducible (
      first
      | assumption | apply State.gpioOut_keeps | fail_if_no_progress apply keeps_mk | apply out_next)
    | split | dsimp only

theorem execEvoutPulseEnd_keeps {s0 : State} {n : Fin 32} {s : State} (hs : Keeps s0 s) :
    OutKeeps s0 (execEvoutPulseEnd n s) := by
  unfold execEvoutPulseEnd
  repeat'
    first
    | intro _
    | with_reducible (
      first
      | assumption | apply State.pass_keeps | fail_if_no_progress apply keeps_mk | apply out_next | apply keeps_ite)
    | split | dsimp only

/-! Slices -/

theorem State.defaultTarget_keeps {s0 : State} {s : State} {addr : Nat} {mid : Nat} {pos : Nat} (hs : Keeps s0 s) :
    Keeps s0 (State.defaultTarget s addr mid pos) := by
  unfold State.defaultTarget
  repeat'
    first
    | intro _
    | with_reducible (
      first
      | assumption | apply State.reply_keeps | apply State.setErr_keeps | apply State.count_keeps | apply State.setReg_keeps
      | fail_if_no_progress apply keeps_mk)
    | split | dsimp only

theorem State.setLock_keeps {s0 : State} {s : State} {sl : Nat} {u : LockUnit} (hs : Keeps s0 s) :
    Keeps s0 (State.setLock s sl u) := by
  unfold State.setLock
  repeat'
    first
    | intro _
    | with_reducible (
      first
      | assumption | refine keeps_mem ?_ (fun hm => Mem.locks_wf _ _ _ hm) | fail_if_no_progress apply keeps_mk)
    | split | dsimp only

theorem State.modAsync_keeps {s0 : State} {s : State} {e : Nat} {f : Core → Core} (hs : Keeps s0 s) :
    Keeps s0 (State.modAsync s e f) := by
  unfold State.modAsync
  repeat'
    first
    | intro _
    | with_reducible (
      first
      | assumption | apply State.modEngine_keeps | fail_if_no_progress apply keeps_mk)
    | split | dsimp only

theorem State.deferErr_keeps {s0 : State} {s : State} {e : Nat} {d : DefErr} (hs : Keeps s0 s) :
    Keeps s0 (State.deferErr s e d) := by
  unfold State.deferErr
  repeat'
    first
    | intro _
    | with_reducible (
      first
      | assumption | apply State.modAsync_keeps | fail_if_no_progress apply keeps_mk)
    | split | dsimp only

theorem State.deferStore_keeps {s0 : State} {s : State} {e : Nat} {resp : Nat} {g : GStore} (hs : Keeps s0 s) :
    Keeps s0 (State.deferStore s e resp g) := by
  unfold State.deferStore
  repeat'
    first
    | intro _
    | with_reducible (
      first
      | assumption | apply State.deferErr_keeps | fail_if_no_progress apply keeps_mk | apply keeps_ite)
    | split | dsimp only

theorem State.storeAnswered_keeps {s0 : State} {s : State} {e : Nat} {resp : Nat} (hs : Keeps s0 s) :
    Keeps s0 (State.storeAnswered s e resp) := by
  unfold State.storeAnswered
  repeat'
    first
    | intro _
    | with_reducible (
      first
      | assumption | apply State.deferStore_keeps | apply State.modEngine_keeps | fail_if_no_progress apply keeps_mk)
    | split | dsimp only

theorem State.cacheStore_keeps {s0 : State} {s : State} {c : Nat} {l : Nat} {key : Nat} {data : List (Nat × Byte)} {tags : List (Nat × Tag)} (hs : Keeps s0 s) :
    Keeps s0 (State.cacheStore s c l key data tags).2 := by
  unfold State.cacheStore
  repeat'
    first
    | intro _
    | with_reducible (
      first
      | assumption | apply State.dirRdU_keeps | apply State.setCopy_keeps | fail_if_no_progress apply keeps_mk | apply keeps_ite | apply keeps_ite1
      | apply keeps_ite2 | refine keeps_of_eq (by assumption) ?_ | refine keeps_of_eq2 (by assumption) ?_ | refine keeps_of_eq3 (by assumption) ?_)
    | split | dsimp only

theorem State.respond_keeps {s0 : State} {s : State} {mid : Nat} {pos : Nat} {resp : Nat} {ws : List TWord} (hs : Keeps s0 s) :
    Keeps s0 (State.respond s mid pos resp ws) := by
  unfold State.respond
  repeat'
    first
    | intro _
    | with_reducible (
      first
      | assumption | apply State.reply_keeps | apply State.modEngine_keeps | fail_if_no_progress apply keeps_mk | apply keeps_ite)
    | split | dsimp only

theorem State.lkldServe_keeps {s0 : State} {s : State} {r : SliceReq} (hs : Keeps s0 s) :
    Keeps s0 (State.lkldServe s r) := by
  unfold State.lkldServe
  repeat'
    first
    | intro _
    | with_reducible (
      first
      | assumption | apply State.respond_keeps | apply State.keyErrEvent_keeps | apply State.setDir_keeps | apply State.collect_keeps
      | apply State.takeSlots_keeps | apply State.sliceRead_keeps | apply State.count_keeps | apply State.setLock_keeps
      | fail_if_no_progress apply keeps_mk | apply keeps_ite | apply keeps_ite1 | apply keeps_ite2 | refine keeps_of_eq (by assumption) ?_
      | refine keeps_of_eq2 (by assumption) ?_ | refine keeps_of_eq3 (by assumption) ?_)
    | split | dsimp only

theorem State.serve_keeps {s0 : State} {s : State} {r : SliceReq} (hs : Keeps s0 s) :
    Keeps s0 (State.serve s r) := by
  unfold State.serve
  repeat'
    first
    | intro _
    | with_reducible (
      first
      | assumption | apply State.cohRead_keeps | apply State.reply_keeps | apply State.cohFull_keeps | apply State.cohPartial_keeps
      | apply State.cacheStore_keeps | apply State.storeAnswered_keeps | apply State.fillCore_keeps | apply State.dirRdS_keeps
      | apply State.dirRdU_keeps | apply State.keyErrEvent_keeps | apply State.setDir_keeps | apply State.lkldServe_keeps
      | fail_if_no_progress apply keeps_mk | apply keeps_ite | apply keeps_ite1 | apply keeps_ite2 | refine keeps_of_eq (by assumption) ?_
      | refine keeps_of_eq2 (by assumption) ?_ | refine keeps_of_eq3 (by assumption) ?_)
    | split | dsimp only

theorem State.arrive_keeps {s0 : State} {s : State} {r : SliceReq} (hs : Keeps s0 s) :
    Keeps s0 (State.arrive s r) := by
  unfold State.arrive
  repeat'
    first
    | intro _
    | with_reducible (
      first
      | assumption | apply State.respond_keeps | apply State.storeAnswered_keeps | apply State.defaultTarget_keeps | apply State.count_keeps
      | apply State.setLock_keeps | apply State.serve_keeps | fail_if_no_progress apply keeps_mk | apply keeps_ite)
    | split | dsimp only

theorem State.closeLock_keeps {s0 : State} {s : State} {sl : Nat} (hs : Keeps s0 s) :
    Keeps s0 (State.closeLock s sl) := by
  unfold State.closeLock
  repeat'
    first
    | intro _
    | with_reducible (
      first
      | assumption | apply State.setLock_keeps | apply State.arrive_keeps | fail_if_no_progress apply keeps_mk | apply keeps_each)
    | split | dsimp only

theorem State.breakLock_keeps {s0 : State} {s : State} {sl : Nat} (hs : Keeps s0 s) :
    Keeps s0 (State.breakLock s sl) := by
  unfold State.breakLock
  repeat'
    first
    | intro _
    | with_reducible (
      first
      | assumption | apply State.assert_keeps | apply State.count_keeps | apply State.recordSev_keeps | apply State.closeLock_keeps
      | fail_if_no_progress apply keeps_mk)
    | split | dsimp only

theorem State.lkst_keeps {s0 : State} {s : State} {sl : Nat} {mid : Nat} {pos : Nat} {line : Nat} {key : Nat} {data : List (Nat × Byte)} {tags : List (Nat × Tag)} (hs : Keeps s0 s) :
    Keeps s0 (State.lkst s sl mid pos line key data tags).2 := by
  unfold State.lkst
  repeat'
    first
    | intro _
    | with_reducible (
      first
      | assumption | apply State.breakLock_keeps | apply State.cohPartial_keeps | apply State.closeLock_keeps | fail_if_no_progress apply keeps_mk
      | apply keeps_ite | apply keeps_ite1 | apply keeps_ite2 | refine keeps_of_eq (by assumption) ?_ | refine keeps_of_eq2 (by assumption) ?_
      | refine keeps_of_eq3 (by assumption) ?_)
    | split | dsimp only

theorem State.lkrel_keeps {s0 : State} {s : State} {mid : Nat} {pos : Nat} (hs : Keeps s0 s) :
    Keeps s0 (State.lkrel s mid pos) := by
  unfold State.lkrel
  repeat'
    first
    | intro _
    | with_reducible (
      first
      | assumption | apply State.closeLock_keeps | fail_if_no_progress apply keeps_mk)
    | split | dsimp only

theorem execLockBreak_keeps {s0 : State} {sl : Fin 32} {s : State} (hs : Keeps s0 s) :
    OutKeeps s0 (execLockBreak sl s) := by
  unfold execLockBreak
  repeat'
    first
    | intro _
    | with_reducible (
      first
      | assumption | apply State.breakLock_keeps | apply State.pass_keeps | fail_if_no_progress apply keeps_mk | apply out_next | apply keeps_ite)
    | split | dsimp only

theorem State.parityError_keeps {s0 : State} {s : State} {ws : List TWord} (hs : Keeps s0 s) :
    Keeps s0 (State.parityError s ws) := by
  unfold State.parityError
  repeat'
    first
    | intro _
    | with_reducible (
      first
      | assumption | apply State.reply_keeps | apply State.setErr_keeps | fail_if_no_progress apply keeps_mk)
    | split | dsimp only

theorem execLineRead_keeps {s0 : State} {x : Xact} {l : LineNo} {ecc : Ecc} {s : State} (hs : Keeps s0 s) :
    OutKeeps s0 (execLineRead x l ecc s) := by
  unfold execLineRead
  repeat'
    first
    | intro _
    | with_reducible (
      first
      | assumption | apply State.parityError_keeps | apply State.reply_keeps | apply State.arrive_keeps | fail_if_no_progress apply keeps_mk
      | apply out_next | apply keeps_ite)
    | split | dsimp only

theorem execFullLineWrite_keeps {s0 : State} {x : Xact} {l : LineNo} {ws : Line} {s : State} (hs : Keeps s0 s) :
    OutKeeps s0 (execFullLineWrite x l ws s) := by
  unfold execFullLineWrite
  repeat'
    first
    | intro _
    | with_reducible (
      first
      | assumption | apply State.reply_keeps | apply State.arrive_keeps | fail_if_no_progress apply keeps_mk | apply out_next | apply keeps_ite)
    | split | dsimp only

theorem execPartialLineWrite_keeps {s0 : State} {x : Xact} {l : LineNo} {data : List (Fin 64 × Byte)} {tags : List (Fin 8 × Tag)} {ecc : Ecc} {s : State} (hs : Keeps s0 s) :
    OutKeeps s0 (execPartialLineWrite x l data tags ecc s) := by
  unfold execPartialLineWrite
  repeat'
    first
    | intro _
    | with_reducible (
      first
      | assumption | apply State.parityError_keeps | apply State.reply_keeps | apply State.arrive_keeps | fail_if_no_progress apply keeps_mk
      | apply out_next | apply keeps_ite)
    | split | dsimp only

theorem State.dirRebuild_keeps {s0 : State} {s : State} {l : Nat} {differing : Bool} (hs : Keeps s0 s) :
    Keeps s0 (State.dirRebuild s l differing) := by
  unfold State.dirRebuild
  repeat'
    first
    | intro _
    | with_reducible (
      first
      | assumption | apply State.storeLine_keeps | apply State.collect_keeps | apply State.assert_keeps | apply State.count_keeps
      | apply State.setDir_keeps | apply State.recordSev_keeps | fail_if_no_progress apply keeps_mk | apply keeps_ite)
    | split | dsimp only

theorem State.dirCheck_keeps {s0 : State} {s : State} {l : Nat} {e : DirEcc} (hs : Keeps s0 s) :
    Keeps s0 (State.dirCheck s l e) := by
  unfold State.dirCheck
  repeat'
    first
    | intro _
    | with_reducible (
      first
      | assumption | apply State.count_keeps | apply State.dirRebuild_keeps | fail_if_no_progress apply keeps_mk)
    | split | dsimp only

theorem State.cacheArrive_keeps {s0 : State} {s : State} {c : Fin 17} {pos : Fin 13} {key : BitVec 13} {l : LineNo} {d : DirEcc} {op : SliceOp} (hs : Keeps s0 s) :
    Keeps s0 (State.cacheArrive s c pos key l d op) := by
  unfold State.cacheArrive
  repeat'
    first
    | intro _
    | with_reducible (
      first
      | assumption | apply State.reply_keeps | apply State.arrive_keeps | apply State.dirCheck_keeps | fail_if_no_progress apply keeps_mk
      | apply keeps_ite)
    | split | dsimp only

theorem execRdS_keeps {s0 : State} {c : Fin 17} {pos : Fin 13} {key : BitVec 13} {l : LineNo} {d : DirEcc} {s : State} (hs : Keeps s0 s) :
    OutKeeps s0 (execRdS c pos key l d s) := by
  unfold execRdS
  repeat'
    first
    | intro _
    | with_reducible (
      first
      | assumption | apply State.cacheArrive_keeps | fail_if_no_progress apply keeps_mk | apply out_next)
    | split | dsimp only

theorem execRdU_keeps {s0 : State} {c : Fin 17} {pos : Fin 13} {key : BitVec 13} {l : LineNo} {d : DirEcc} {s : State} (hs : Keeps s0 s) :
    OutKeeps s0 (execRdU c pos key l d s) := by
  unfold execRdU
  repeat'
    first
    | intro _
    | with_reducible (
      first
      | assumption | apply State.cacheArrive_keeps | fail_if_no_progress apply keeps_mk | apply out_next)
    | split | dsimp only

theorem execUpg_keeps {s0 : State} {c : Fin 17} {pos : Fin 13} {key : BitVec 13} {l : LineNo} {d : DirEcc} {s : State} (hs : Keeps s0 s) :
    OutKeeps s0 (execUpg c pos key l d s) := by
  unfold execUpg
  repeat'
    first
    | intro _
    | with_reducible (
      first
      | assumption | apply State.cacheArrive_keeps | fail_if_no_progress apply keeps_mk | apply out_next)
    | split | dsimp only

theorem execWb_keeps {s0 : State} {c : Fin 17} {l : LineNo} {ws : Line} {s : State} (hs : Keeps s0 s) :
    OutKeeps s0 (execWb c l ws s) := by
  unfold execWb
  repeat'
    first
    | intro _
    | with_reducible (
      first
      | assumption | apply State.reply_keeps | apply State.setDir_keeps | apply State.remapEcc_keeps | apply State.storeLine_keeps
      | apply State.takeSlots_keeps | fail_if_no_progress apply keeps_mk | apply out_next | apply keeps_ite)
    | split | dsimp only

theorem execEvc_keeps {s0 : State} {c : Fin 17} {l : LineNo} {s : State} (hs : Keeps s0 s) :
    OutKeeps s0 (execEvc c l s) := by
  unfold execEvc
  repeat'
    first
    | intro _
    | with_reducible (
      first
      | assumption | apply State.dropHolder_keeps | fail_if_no_progress apply keeps_mk | apply out_next | apply keeps_ite)
    | split | dsimp only

theorem State.snpEvicting_keeps {s0 : State} {s : State} {l : Nat} {k : Nat} (hs : Keeps s0 s) :
    Keeps s0 (State.snpEvicting s l k) := by
  unfold State.snpEvicting
  repeat'
    first
    | intro _
    | with_reducible (
      first
      | assumption | apply State.emit_keeps | apply State.count_keeps | apply State.setDir_keeps | fail_if_no_progress apply keeps_mk)
    | split | dsimp only

theorem State.snpMiss_keeps {s0 : State} {s : State} {l : Nat} {c : Nat} (hs : Keeps s0 s) :
    Keeps s0 (State.snpMiss s l c) := by
  unfold State.snpMiss
  repeat'
    first
    | intro _
    | with_reducible (
      first
      | assumption | apply State.emit_keeps | apply State.dropHolder_keeps | fail_if_no_progress apply keeps_mk)
    | split | dsimp only

theorem execSnpSh_keeps {s0 : State} {c : Fin 17} {l : LineNo} {crossing : Bool} {s : State} (hs : Keeps s0 s) :
    OutKeeps s0 (execSnpSh c l crossing s) := by
  unfold execSnpSh
  repeat'
    first
    | intro _
    | with_reducible (
      first
      | assumption | apply State.snpEvicting_keeps | apply State.snpMiss_keeps | apply State.emit_keeps | apply State.setDir_keeps
      | apply State.collect_keeps | fail_if_no_progress apply keeps_mk | apply out_next | apply keeps_ite)
    | split | dsimp only

theorem execSnpInv_keeps {s0 : State} {c : Fin 17} {l : LineNo} {crossing : Bool} {s : State} (hs : Keeps s0 s) :
    OutKeeps s0 (execSnpInv c l crossing s) := by
  unfold execSnpInv
  repeat'
    first
    | intro _
    | with_reducible (
      first
      | assumption | apply State.snpEvicting_keeps | apply State.snpMiss_keeps | apply State.emit_keeps | apply State.dropHolder_keeps
      | apply State.collect_keeps | fail_if_no_progress apply keeps_mk | apply out_next | apply keeps_ite)
    | split | dsimp only

theorem execSnpRd_keeps {s0 : State} {c : Fin 17} {l : LineNo} {crossing : Bool} {s : State} (hs : Keeps s0 s) :
    OutKeeps s0 (execSnpRd c l crossing s) := by
  unfold execSnpRd
  repeat'
    first
    | intro _
    | with_reducible (
      first
      | assumption | apply State.snpEvicting_keeps | apply State.snpMiss_keeps | apply State.emit_keeps | fail_if_no_progress apply keeps_mk
      | apply out_next | apply keeps_ite)
    | split | dsimp only

theorem execSnpDrop_keeps {s0 : State} {c : Fin 17} {l : LineNo} {crossing : Bool} {s : State} (hs : Keeps s0 s) :
    OutKeeps s0 (execSnpDrop c l crossing s) := by
  unfold execSnpDrop
  repeat'
    first
    | intro _
    | with_reducible (
      first
      | assumption | apply State.snpEvicting_keeps | apply State.snpMiss_keeps | apply State.emit_keeps | apply State.dropHolder_keeps
      | fail_if_no_progress apply keeps_mk | apply out_next | apply keeps_ite)
    | split | dsimp only

theorem execDefaultTargetAccess_keeps {s0 : State} {x : Xact} {addr : BitVec 48} {s : State} (hs : Keeps s0 s) :
    OutKeeps s0 (execDefaultTargetAccess x addr s) := by
  unfold execDefaultTargetAccess
  repeat'
    first
    | intro _
    | with_reducible (
      first
      | assumption | apply State.reply_keeps | apply State.defaultTarget_keeps | fail_if_no_progress apply keeps_mk | apply out_next | apply keeps_ite)
    | split | dsimp only

theorem State.scrubStep_keeps {s0 : State} {s : State} {p : Nat} (hs : Keeps s0 s) :
    Keeps s0 (State.scrubStep s p) := by
  unfold State.scrubStep
  repeat'
    first
    | intro _
    | with_reducible (
      first
      | assumption | refine keeps_mem ?_ (fun hm => Mem.scrub_pass_wf _ _ _ _ _ hm) | apply State.wr_keeps
      | refine keeps_mem ?_ (fun hm => Mem.cePass_wf _ _ _ hm) | refine keeps_mem ?_ (fun hm => Mem.scrub_wf _ _ _ hm)
      | fail_if_no_progress apply keeps_mk | apply keeps_fold | apply keeps_fold1 | apply keeps_fold2 | apply keeps_fold3 | apply keeps_ite
      | refine keeps_of_eq (by assumption) ?_ | refine keeps_of_eq2 (by assumption) ?_ | refine keeps_of_eq3 (by assumption) ?_)
    | split | dsimp only

theorem State.scrubLine_keeps {s0 : State} {s : State} {p : Nat} {l : Nat} {f : ScrubFind} (hs : Keeps s0 s) :
    Keeps s0 (State.scrubLine s p l f) := by
  unfold State.scrubLine
  repeat'
    first
    | intro _
    | with_reducible (
      first
      | assumption | apply State.cellUe_keeps | apply State.takeFree_keeps | apply State.pcCe_keeps
      | refine keeps_mem ?_ (fun hm => Mem.setFlaw_wf _ _ _ hm) | fail_if_no_progress apply keeps_mk | apply keeps_ite | apply keeps_ite1
      | apply keeps_ite2 | refine keeps_of_eq (by assumption) ?_ | refine keeps_of_eq2 (by assumption) ?_ | refine keeps_of_eq3 (by assumption) ?_)
    | split | dsimp only

theorem execScrubSlot_keeps {s0 : State} {p : Fin 256} {f : ScrubFind} {s : State} (hs : Keeps s0 s) :
    OutKeeps s0 (execScrubSlot p f s) := by
  unfold execScrubSlot
  repeat'
    first
    | intro _
    | with_reducible (
      first
      | assumption | apply State.scrubStep_keeps | apply State.scrubLine_keeps | fail_if_no_progress apply keeps_mk | apply out_next)
    | split | dsimp only

theorem State.sanit_keeps {s0 : State} {s : State} {sl : Nat} {region : Nat} {go : Bool} (hs : Keeps s0 s) :
    Keeps s0 (State.sanit s sl region go) := by
  unfold State.sanit
  repeat'
    first
    | intro _
    | with_reducible (
      first
      | assumption | refine keeps_mem ?_ (fun hm => Mem.sanit_wf _ _ hm) | apply State.reply_keeps | apply State.wr_keeps
      | fail_if_no_progress apply keeps_mk | apply keeps_ite)
    | split | dsimp only

theorem execSanitise_keeps {s0 : State} {sl : Fin 32} {region : Fin 256} {s : State} (hs : Keeps s0 s) :
    OutKeeps s0 (execSanitise sl region s) := by
  unfold execSanitise
  repeat'
    first
    | intro _
    | with_reducible (
      first
      | assumption | apply State.sanit_keeps | fail_if_no_progress apply keeps_mk | apply out_next)
    | split | dsimp only

theorem State.cleanLines_keeps {s0 : State} {s : State} {p : Nat} {a : Nat} {b : Nat} (hs : Keeps s0 s) :
    Keeps s0 (State.cleanLines s p a b) := by
  unfold State.cleanLines
  repeat'
    first
    | intro _
    | with_reducible (
      first
      | assumption | refine keeps_mem ?_ (fun hm => Mem.drop_wf _ _ _ _ _ _ _ hm) | fail_if_no_progress apply keeps_mk)
    | split | dsimp only

theorem State.sanitLines_keeps {s0 : State} {s : State} {sl : Nat} {p : Nat} {n : Nat} (hs : Keeps s0 s) :
    Keeps s0 (State.sanitLines s sl p n) := by
  unfold State.sanitLines
  repeat'
    first
    | intro _
    | with_reducible (
      first
      | assumption | apply State.cleanLines_keeps | refine keeps_mem ?_ (fun hm => Mem.sanitPos_wf _ _ _ hm) | fail_if_no_progress apply keeps_mk)
    | split | dsimp only

theorem execSanitiseDone_keeps {s0 : State} {sl : Fin 32} {s : State} (hs : Keeps s0 s) :
    OutKeeps s0 (execSanitiseDone sl s) := by
  unfold execSanitiseDone
  repeat'
    first
    | intro _
    | with_reducible (
      first
      | assumption | apply State.sanitLines_keeps | apply State.slcEvent_keeps | apply State.wr_keeps | fail_if_no_progress apply keeps_mk
      | apply keeps_each | apply out_next | apply keeps_ite)
    | split | dsimp only

theorem execPcTrainingLoss_keeps {s0 : State} {p : Fin 256} {s : State} (hs : Keeps s0 s) :
    OutKeeps s0 (execPcTrainingLoss p s) := by
  unfold execPcTrainingLoss
  repeat'
    first
    | intro _
    | with_reducible (
      first
      | assumption | apply State.meetsLimit_keeps | fail_if_no_progress apply keeps_mk | apply out_next)
    | split | dsimp only

theorem State.pcCmd_keeps {s0 : State} {s : State} {r : Requester} {p : Nat} {op : Nat} (hs : Keeps s0 s) :
    Keeps s0 (State.pcCmd s r p op) := by
  unfold State.pcCmd
  repeat'
    first
    | intro _
    | with_reducible (
      first
      | assumption | apply State.reply_keeps | apply State.retirePc_keeps | apply State.rewriteRemap_keeps | apply State.setPcState_keeps
      | apply State.startMig_keeps | fail_if_no_progress apply keeps_mk | apply keeps_ite)
    | split | dsimp only

theorem execPcRetire_keeps {s0 : State} {r : Requester} {p : Fin 256} {s : State} (hs : Keeps s0 s) :
    OutKeeps s0 (execPcRetire r p s) := by
  unfold execPcRetire
  repeat'
    first
    | intro _
    | with_reducible (
      first
      | assumption | apply State.pcCmd_keeps | fail_if_no_progress apply keeps_mk | apply out_next)
    | split | dsimp only

theorem execPcTest_keeps {s0 : State} {r : Requester} {p : Fin 256} {s : State} (hs : Keeps s0 s) :
    OutKeeps s0 (execPcTest r p s) := by
  unfold execPcTest
  repeat'
    first
    | intro _
    | with_reducible (
      first
      | assumption | apply State.pcCmd_keeps | fail_if_no_progress apply keeps_mk | apply out_next)
    | split | dsimp only

theorem execPcReinstate_keeps {s0 : State} {r : Requester} {p : Fin 256} {s : State} (hs : Keeps s0 s) :
    OutKeeps s0 (execPcReinstate r p s) := by
  unfold execPcReinstate
  repeat'
    first
    | intro _
    | with_reducible (
      first
      | assumption | apply State.pcCmd_keeps | fail_if_no_progress apply keeps_mk | apply out_next)
    | split | dsimp only

theorem execPcTestDone_keeps {s0 : State} {p : Fin 256} {good : Bool} {s : State} (hs : Keeps s0 s) :
    OutKeeps s0 (execPcTestDone p good s) := by
  unfold execPcTestDone
  repeat'
    first
    | intro _
    | with_reducible (
      first
      | assumption | apply State.setPcState_keeps | fail_if_no_progress apply keeps_mk | apply out_next | apply keeps_ite)
    | split | dsimp only

theorem State.copyLine_keeps {s0 : State} {s : State} {p : Nat} {l : Nat} {lost : Bool} (hs : Keeps s0 s) :
    Keeps s0 (State.copyLine s p l lost) := by
  unfold State.copyLine
  repeat'
    first
    | intro _
    | with_reducible (
      first
      | assumption | refine keeps_mem ?_ (fun hm => Mem.putCell_wf _ _ _ _ hm) | fail_if_no_progress apply keeps_mk | apply keeps_ite)
    | split | dsimp only

theorem State.migrateTo_keeps {s0 : State} {s : State} {sl : Nat} {b : Nat} (hs : Keeps s0 s) :
    Keeps s0 (State.migrateTo s sl b) := by
  unfold State.migrateTo
  repeat'
    first
    | intro _
    | with_reducible (
      first
      | assumption | apply State.copyLine_keeps | apply State.wr_keeps | fail_if_no_progress apply keeps_mk | apply keeps_each)
    | split | dsimp only

theorem execMigrationDone_keeps {s0 : State} {sl : Fin 32} {lost : List LineNo} {s : State} (hs : Keeps s0 s) :
    OutKeeps s0 (execMigrationDone sl lost s) := by
  unfold execMigrationDone
  repeat'
    first
    | intro _
    | with_reducible (
      first
      | assumption | apply State.migrateTo_keeps | apply State.copyLine_keeps | apply State.wr_keeps | apply State.setPcState_keeps
      | apply State.setRemap_keeps | apply State.slcEvent_keeps | fail_if_no_progress apply keeps_mk | apply keeps_each | apply out_next
      | apply keeps_ite)
    | split | dsimp only

theorem State.sliceTick_keeps {s0 : State} {s : State} {sl : Nat} (hs : Keeps s0 s) :
    Keeps s0 (State.sliceTick s sl) := by
  unfold State.sliceTick
  repeat'
    first
    | intro _
    | with_reducible (
      first
      | assumption | apply State.takeFree_keeps | apply State.migrateTo_keeps | apply State.sanitLines_keeps | fail_if_no_progress apply keeps_mk
      | apply keeps_each | apply keeps_ite | apply keeps_ite1 | apply keeps_ite2 | refine keeps_of_eq (by assumption) ?_
      | refine keeps_of_eq2 (by assumption) ?_ | refine keeps_of_eq3 (by assumption) ?_)
    | split | dsimp only

theorem State.clearRegs_keeps {s0 : State} {s : State} {offs : List Nat} (hs : Keeps s0 s) :
    Keeps s0 (State.clearRegs s offs) := by
  unfold State.clearRegs
  repeat'
    first
    | intro _
    | with_reducible (
      first
      | assumption | apply State.setReg_keeps | fail_if_no_progress apply keeps_mk | apply keeps_each)
    | split | dsimp only

theorem execSlcCntclr_keeps {s0 : State} {sl : Fin 32} {s : State} (hs : Keeps s0 s) :
    OutKeeps s0 (execSlcCntclr sl s) := by
  unfold execSlcCntclr
  repeat'
    first
    | intro _
    | with_reducible (
      first
      | assumption | apply State.reply_keeps | apply State.clearRegs_keeps | fail_if_no_progress apply keeps_mk | apply out_next)
    | split | dsimp only

theorem execSlcXcntclr_keeps {s0 : State} {sl : Fin 32} {s : State} (hs : Keeps s0 s) :
    OutKeeps s0 (execSlcXcntclr sl s) := by
  unfold execSlcXcntclr
  repeat'
    first
    | intro _
    | with_reducible (
      first
      | assumption | apply State.reply_keeps | apply State.clearRegs_keeps | fail_if_no_progress apply keeps_mk | apply out_next)
    | split | dsimp only

theorem execCluCcCntclr_keeps {s0 : State} {c : Fin 16} {s : State} (hs : Keeps s0 s) :
    OutKeeps s0 (execCluCcCntclr c s) := by
  unfold execCluCcCntclr
  repeat'
    first
    | intro _
    | with_reducible (
      first
      | assumption | apply State.reply_keeps | apply State.clearRegs_keeps | fail_if_no_progress apply keeps_mk | apply out_next)
    | split | dsimp only

/-! Lvs -/

theorem State.lvsConflict_keeps {s0 : State} {s : State} {e : Nat} {k : Nat} (hs : Keeps s0 s) :
    Keeps s0 (State.lvsConflict s e k) := by
  unfold State.lvsConflict
  repeat'
    first
    | intro _
    | with_reducible (
      first
      | assumption | apply State.count_keeps | fail_if_no_progress apply keeps_mk)
    | split | dsimp only

theorem State.setBusy_keeps {s0 : State} {s : State} {k : Nat} {n : Nat} (hs : Keeps s0 s) :
    Keeps s0 (State.setBusy s k n) := by
  unfold State.setBusy
  repeat'
    first
    | intro _
    | with_reducible (
      first
      | assumption | refine keeps_mem ?_ (fun hm => Mem.busy_wf _ _ _ hm) | fail_if_no_progress apply keeps_mk)
    | split | dsimp only

theorem State.lvsFinds_keeps {s0 : State} {s : State} {e : Nat} {o : Nat} {ecc : Ecc} (hs : Keeps s0 s) :
    Keeps s0 (State.lvsFinds s e o ecc) := by
  unfold State.lvsFinds
  repeat'
    first
    | intro _
    | with_reducible (
      first
      | assumption | refine keeps_mem ?_ (fun hm => Mem.setFlaw_wf _ _ _ hm) | fail_if_no_progress apply keeps_mk)
    | split | dsimp only

theorem State.lvsCheck_keeps {s0 : State} {s : State} {e : Nat} {o : Nat} (hs : Keeps s0 s) :
    Keeps s0 (State.lvsCheck s e o) := by
  unfold State.lvsCheck
  repeat'
    first
    | intro _
    | with_reducible (
      first
      | assumption | apply State.count_keeps | apply State.lvsUe_keeps | apply State.setLvsWord_keeps
      | refine keeps_mem ?_ (fun hm => Mem.setFlaw_wf _ _ _ hm) | fail_if_no_progress apply keeps_mk)
    | split | dsimp only

theorem State.lvsFetch_keeps {s0 : State} {s : State} {e : Nat} {line : Nat} {ws : List Nat} (hs : Keeps s0 s) :
    Keeps s0 (State.lvsFetch s e line ws).2.2 := by
  unfold State.lvsFetch
  repeat'
    first
    | intro _
    | with_reducible (
      first
      | assumption | apply State.lvsCheck_keeps | fail_if_no_progress apply keeps_mk | apply keeps_each | refine keeps_of_eq (by assumption) ?_
      | refine keeps_of_eq2 (by assumption) ?_ | refine keeps_of_eq3 (by assumption) ?_)
    | split | dsimp only

theorem State.lvsRead_keeps {s0 : State} {s : State} {e : Nat} {line : Nat} (hs : Keeps s0 s) :
    Keeps s0 (State.lvsRead s e line).2.2 := by
  unfold State.lvsRead
  repeat'
    first
    | intro _
    | with_reducible (
      first
      | assumption | apply State.lvsFetch_keeps | fail_if_no_progress apply keeps_mk | apply keeps_ite | apply keeps_ite1 | apply keeps_ite2
      | refine keeps_of_eq (by assumption) ?_ | refine keeps_of_eq2 (by assumption) ?_ | refine keeps_of_eq3 (by assumption) ?_)
    | split | dsimp only

theorem State.lvsPut_keeps {s0 : State} {s : State} {e : Nat} {line : Nat} {data : List (Nat × Byte)} {tags : List (Nat × Tag)} (hs : Keeps s0 s) :
    Keeps s0 (State.lvsPut s e line data tags) := by
  unfold State.lvsPut
  repeat'
    first
    | intro _
    | with_reducible (
      first
      | assumption | apply State.setLvsWord_keeps | fail_if_no_progress apply keeps_mk | apply keeps_each)
    | split | dsimp only

theorem State.lvsEnginePut_keeps {s0 : State} {s : State} {e : Nat} {line : Nat} {data : List (Nat × Byte)} {tags : List (Nat × Tag)} (hs : Keeps s0 s) :
    Keeps s0 (State.lvsEnginePut s e line data tags) := by
  unfold State.lvsEnginePut
  repeat'
    first
    | intro _
    | with_reducible (
      first
      | assumption | apply State.lvsPut_keeps | apply State.lvsCheck_keeps | fail_if_no_progress apply keeps_mk | apply keeps_each)
    | split | dsimp only

theorem State.lvsWrite_keeps {s0 : State} {s : State} {e : Nat} {line : Nat} {data : List (Nat × Byte)} {tags : List (Nat × Tag)} (hs : Keeps s0 s) :
    Keeps s0 (State.lvsWrite s e line data tags).2 := by
  unfold State.lvsWrite
  repeat'
    first
    | intro _
    | with_reducible (
      first
      | assumption | apply State.lvsCheck_keeps | apply State.lvsPut_keeps | fail_if_no_progress apply keeps_mk | apply keeps_each | apply keeps_ite
      | apply keeps_ite1 | apply keeps_ite2 | refine keeps_of_eq (by assumption) ?_ | refine keeps_of_eq2 (by assumption) ?_
      | refine keeps_of_eq3 (by assumption) ?_)
    | split | dsimp only

theorem State.lvsAccess_keeps {s0 : State} {s : State} {mid : Nat} {pos : Nat} {e : Nat} {line : Nat} {write : Bool} {data : List (Nat × Byte)} {tags : List (Nat × Tag)} {port : PortUse} {w : Nat} {ecc : Ecc} (hs : Keeps s0 s) :
    Keeps s0 (State.lvsAccess s mid pos e line write data tags port w ecc) := by
  unfold State.lvsAccess
  repeat'
    first
    | intro _
    | with_reducible (
      first
      | assumption | apply State.setBusy_keeps | apply State.lvsFinds_keeps | apply State.lvsWrite_keeps | apply State.reply_keeps
      | apply State.lvsRead_keeps | apply State.lvsConflict_keeps | apply State.count_keeps | apply State.takeFreeN_keeps
      | fail_if_no_progress apply keeps_mk | apply keeps_ite | apply keeps_ite1 | apply keeps_ite2 | refine keeps_of_eq (by assumption) ?_
      | refine keeps_of_eq2 (by assumption) ?_ | refine keeps_of_eq3 (by assumption) ?_)
    | split | dsimp only

theorem execLvsClusterAccess_keeps {s0 : State} {x : Xact} {e : EngId} {line : Fin 16384} {write : Bool} {data : List (Fin 64 × Byte)} {tags : List (Fin 8 × Tag)} {port : PortUse} {w : Fin 8} {ecc : Ecc} {s : State} (hs : Keeps s0 s) :
    OutKeeps s0 (execLvsClusterAccess x e line write data tags port w ecc s) := by
  unfold execLvsClusterAccess
  repeat'
    first
    | intro _
    | with_reducible (
      first
      | assumption | apply State.parityError_keeps | apply State.reply_keeps | apply State.lvsAccess_keeps | fail_if_no_progress apply keeps_mk
      | apply out_next | apply keeps_ite)
    | split | dsimp only

theorem State.foxWord_keeps {s0 : State} {s : State} {e : Nat} {r : Nat} {q : Nat} {o : Nat} (hs : Keeps s0 s) :
    Keeps s0 (State.foxWord s e r q o) := by
  unfold State.foxWord
  repeat'
    first
    | intro _
    | with_reducible (
      first
      | assumption | apply State.lvsUe_keeps | apply State.count_keeps | refine keeps_mem ?_ (fun hm => Mem.setFlaw_wf _ _ _ hm)
      | refine keeps_mem ?_ (fun hm => Mem.putWord_wf _ _ _ hm) | fail_if_no_progress apply keeps_mk)
    | split | dsimp only

theorem State.foxCopy_keeps {s0 : State} {s : State} {e : Nat} {r : Nat} {q : Nat} (hs : Keeps s0 s) :
    Keeps s0 (State.foxCopy s e r q) := by
  unfold State.foxCopy
  repeat'
    first
    | intro _
    | with_reducible (
      first
      | assumption | apply State.foxWord_keeps | fail_if_no_progress apply keeps_mk | apply keeps_each)
    | split | dsimp only

theorem State.setFoxPhase_keeps {s0 : State} {s : State} {e : Nat} {p : Nat} (hs : Keeps s0 s) :
    Keeps s0 (State.setFoxPhase s e p) := by
  unfold State.setFoxPhase
  repeat'
    first
    | intro _
    | with_reducible (
      first
      | assumption | apply State.wr_keeps | fail_if_no_progress apply keeps_mk)
    | split | dsimp only

theorem execFoxSave_keeps {s0 : State} {e : EngId} {s : State} (hs : Keeps s0 s) :
    OutKeeps s0 (execFoxSave e s) := by
  unfold execFoxSave
  repeat'
    first
    | intro _
    | with_reducible (
      first
      | assumption | apply State.foxCopy_keeps | apply State.setFoxPhase_keeps | refine keeps_mem ?_ (fun hm => Mem.foxSince_wf _ _ _ hm)
      | fail_if_no_progress apply keeps_mk | apply out_next | apply keeps_ite)
    | split | dsimp only

theorem State.setMarch_keeps {s0 : State} {s : State} {e : Nat} {n : Option Nat} (hs : Keeps s0 s) :
    Keeps s0 (State.setMarch s e n) := by
  unfold State.setMarch
  repeat'
    first
    | intro _
    | with_reducible (
      first
      | assumption | refine keeps_mem ?_ (fun hm => Mem.foxMarch_wf _ _ _ hm) | fail_if_no_progress apply keeps_mk)
    | split | dsimp only

theorem execFoxMarch_keeps {s0 : State} {e : EngId} {m : March} {s : State} (hs : Keeps s0 s) :
    OutKeeps s0 (execFoxMarch e m s) := by
  unfold execFoxMarch
  repeat'
    first
    | intro _
    | with_reducible (
      first
      | assumption | apply State.setFoxPhase_keeps | apply State.count_keeps | apply State.setMarch_keeps | apply State.wr_keeps
      | apply State.assert_keeps | apply State.recordSev_keeps | refine keeps_mem ?_ (fun hm => Mem.foxStuck_wf _ _ _ hm)
      | fail_if_no_progress apply keeps_mk | apply out_next | apply keeps_ite)
    | split | dsimp only

theorem State.foxBegin_keeps {s0 : State} {s : State} {e : Nat} (hs : Keeps s0 s) :
    Keeps s0 (State.foxBegin s e) := by
  unfold State.foxBegin
  repeat'
    first
    | intro _
    | with_reducible (
      first
      | assumption | apply State.setFoxPhase_keeps | apply State.foxCopy_keeps | fail_if_no_progress apply keeps_mk)
    | split | dsimp only

theorem State.foxEnd_keeps {s0 : State} {s : State} {e : Nat} (hs : Keeps s0 s) :
    Keeps s0 (State.foxEnd s e) := by
  unfold State.foxEnd
  repeat'
    first
    | intro _
    | with_reducible (
      first
      | assumption | apply State.setReg_keeps | apply State.wr_keeps | apply State.setFoxPhase_keeps | apply State.setMarch_keeps
      | fail_if_no_progress apply keeps_mk | apply keeps_ite)
    | split | dsimp only

theorem State.foxRestore_keeps {s0 : State} {s : State} {e : Nat} (hs : Keeps s0 s) :
    Keeps s0 (State.foxRestore s e) := by
  unfold State.foxRestore
  repeat'
    first
    | intro _
    | with_reducible (
      first
      | assumption | apply State.foxEnd_keeps | apply State.foxBegin_keeps | fail_if_no_progress apply keeps_mk | apply keeps_ite)
    | split | dsimp only

theorem execFoxRestore_keeps {s0 : State} {e : EngId} {s : State} (hs : Keeps s0 s) :
    OutKeeps s0 (execFoxRestore e s) := by
  unfold execFoxRestore
  repeat'
    first
    | intro _
    | with_reducible (
      first
      | assumption | apply State.foxRestore_keeps | fail_if_no_progress apply keeps_mk | apply out_next)
    | split | dsimp only

theorem State.foxTick_keeps {s0 : State} {s : State} (hs : Keeps s0 s) :
    Keeps s0 (State.foxTick s) := by
  unfold State.foxTick
  repeat'
    first
    | intro _
    | with_reducible (
      first
      | assumption | apply State.foxBegin_keeps | fail_if_no_progress apply keeps_mk | apply keeps_each | apply keeps_ite)
    | split | dsimp only

theorem execFoxWaitEnd_keeps {s0 : State} {e : EngId} {s : State} (hs : Keeps s0 s) :
    OutKeeps s0 (execFoxWaitEnd e s) := by
  unfold execFoxWaitEnd
  repeat'
    first
    | intro _
    | with_reducible (
      first
      | assumption | apply State.setFoxPhase_keeps | apply State.passTo_keeps | apply State.wr_keeps | apply State.count_keeps
      | fail_if_no_progress apply keeps_mk | apply out_next | apply keeps_ite)
    | split | dsimp only

theorem State.foxAbandon_keeps {s0 : State} {s : State} {e : Nat} (hs : Keeps s0 s) :
    Keeps s0 (State.foxAbandon s e) := by
  unfold State.foxAbandon
  repeat'
    first
    | intro _
    | with_reducible (
      first
      | assumption | apply State.setFoxPhase_keeps | apply State.foxRestore_keeps | fail_if_no_progress apply keeps_mk | apply keeps_ite)
    | split | dsimp only

theorem State.foxFollow_keeps {s0 : State} {s : State} {e : Nat} (hs : Keeps s0 s) :
    Keeps s0 (State.foxFollow s e) := by
  unfold State.foxFollow
  repeat'
    first
    | intro _
    | with_reducible (
      first
      | assumption | apply State.foxCopy_keeps | fail_if_no_progress apply keeps_mk | apply keeps_ite)
    | split | dsimp only

theorem State.upset_keeps {s0 : State} {s : State} (hs : Keeps s0 s) :
    Keeps s0 (State.upset s) := by
  unfold State.upset
  repeat'
    first
    | intro _
    | with_reducible (
      first
      | assumption | apply State.takeFree_keeps | refine keeps_mem ?_ (fun hm => Mem.strike_wf _ _ hm) | fail_if_no_progress apply keeps_mk
      | refine keeps_of_eq (by assumption) ?_ | refine keeps_of_eq2 (by assumption) ?_ | refine keeps_of_eq3 (by assumption) ?_)
    | split | dsimp only

theorem execLvsCntclr_keeps {s0 : State} {e : EngId} {s : State} (hs : Keeps s0 s) :
    OutKeeps s0 (execLvsCntclr e s) := by
  unfold execLvsCntclr
  repeat'
    first
    | intro _
    | with_reducible (
      first
      | assumption | apply State.reply_keeps | apply State.clearRegs_keeps | fail_if_no_progress apply keeps_mk | apply out_next)
    | split | dsimp only

theorem execEngVsuCntclr_keeps {s0 : State} {e : EngId} {s : State} (hs : Keeps s0 s) :
    OutKeeps s0 (execEngVsuCntclr e s) := by
  unfold execEngVsuCntclr
  repeat'
    first
    | intro _
    | with_reducible (
      first
      | assumption | apply State.reply_keeps | apply State.clearRegs_keeps | fail_if_no_progress apply keeps_mk | apply out_next)
    | split | dsimp only

theorem execEngChnCntclr_keeps {s0 : State} {e : EngId} {s : State} (hs : Keeps s0 s) :
    OutKeeps s0 (execEngChnCntclr e s) := by
  unfold execEngChnCntclr
  repeat'
    first
    | intro _
    | with_reducible (
      first
      | assumption | apply State.reply_keeps | apply State.clearRegs_keeps | fail_if_no_progress apply keeps_mk | apply out_next)
    | split | dsimp only

theorem execEngExcCntclr_keeps {s0 : State} {e : EngId} {s : State} (hs : Keeps s0 s) :
    OutKeeps s0 (execEngExcCntclr e s) := by
  unfold execEngExcCntclr
  repeat'
    first
    | intro _
    | with_reducible (
      first
      | assumption | apply State.reply_keeps | apply State.clearRegs_keeps | fail_if_no_progress apply keeps_mk | apply out_next)
    | split | dsimp only

theorem execEngTngCntclr_keeps {s0 : State} {e : EngId} {s : State} (hs : Keeps s0 s) :
    OutKeeps s0 (execEngTngCntclr e s) := by
  unfold execEngTngCntclr
  repeat'
    first
    | intro _
    | with_reducible (
      first
      | assumption | apply State.reply_keeps | apply State.setReg_keeps | apply State.wr_keeps | fail_if_no_progress apply keeps_mk | apply out_next)
    | split | dsimp only

/-! Ring -/

theorem State.modRing_keeps {s0 : State} {s : State} {e : Nat} {f : Ring → Ring} (hs : Keeps s0 s) :
    Keeps s0 (State.modRing s e f) := by
  unfold State.modRing
  repeat'
    first
    | intro _
    | with_reducible (
      first
      | assumption | apply State.modEngine_keeps | fail_if_no_progress apply keeps_mk)
    | split | dsimp only

theorem State.sendDown_keeps {s0 : State} {s : State} {e : Nat} {l : List LinkItem} (hs : Keeps s0 s) :
    Keeps s0 (State.sendDown s e l) := by
  unfold State.sendDown
  repeat'
    first
    | intro _
    | with_reducible (
      first
      | assumption | apply State.modRing_keeps | fail_if_no_progress apply keeps_mk)
    | split | dsimp only

theorem State.modVsu_keeps {s0 : State} {s : State} {e : Nat} {b : Nat} {f : BankVsu → BankVsu} (hs : Keeps s0 s) :
    Keeps s0 (State.modVsu s e b f) := by
  unfold State.modVsu
  repeat'
    first
    | intro _
    | with_reducible (
      first
      | assumption | apply State.modEngine_keeps | fail_if_no_progress apply keeps_mk)
    | split | dsimp only

theorem State.modEnt_keeps {s0 : State} {s : State} {e : Nat} {b : Nat} {q : Nat} {f : LvEntry → LvEntry} (hs : Keeps s0 s) :
    Keeps s0 (State.modEnt s e b q f) := by
  unfold State.modEnt
  repeat'
    first
    | intro _
    | with_reducible (
      first
      | assumption | apply State.modVsu_keeps | fail_if_no_progress apply keeps_mk | apply keeps_ite)
    | split | dsimp only

theorem State.sendUp_keeps {s0 : State} {s : State} {e : Nat} {x : UpItem} (hs : Keeps s0 s) :
    Keeps s0 (State.sendUp s e x) := by
  unfold State.sendUp
  repeat'
    first
    | intro _
    | with_reducible (
      first
      | assumption | apply State.modRing_keeps | fail_if_no_progress apply keeps_mk)
    | split | dsimp only

theorem State.returnCredit_keeps {s0 : State} {s : State} {e : Nat} {n : Nat} (hs : Keeps s0 s) :
    Keeps s0 (State.returnCredit s e n) := by
  unfold State.returnCredit
  repeat'
    first
    | intro _
    | with_reducible (
      first
      | assumption | apply State.sendUp_keeps | fail_if_no_progress apply keeps_mk | apply keeps_ite)
    | split | dsimp only

theorem State.takeFreeze_keeps {s0 : State} {s : State} {e : Nat} {i : FreezeInfo} {down : Bool} {own : Option VFault} (hs : Keeps s0 s) :
    Keeps s0 (State.takeFreeze s e i down own) := by
  unfold State.takeFreeze
  repeat'
    first
    | intro _
    | with_reducible (
      first
      | assumption | apply State.returnCredit_keeps | apply State.modRing_keeps | fail_if_no_progress apply keeps_mk | apply keeps_ite)
    | split | dsimp only

theorem State.originate_keeps {s0 : State} {s : State} {e : Nat} {k : Nat} {cause : Nat} {reason : Nat} {own : Option VFault} (hs : Keeps s0 s) :
    Keeps s0 (State.originate s e k cause reason own) := by
  unfold State.originate
  repeat'
    first
    | intro _
    | with_reducible (
      first
      | assumption | apply State.takeFreeze_keeps | apply State.sendUp_keeps | apply State.sendDown_keeps | apply State.recordCode_keeps
      | fail_if_no_progress apply keeps_mk | apply keeps_ite)
    | split | dsimp only

/-! Cluster -/

theorem State.setRole_keeps {s0 : State} {s : State} {e : Nat} {r : Nat} (hs : Keeps s0 s) :
    Keeps s0 (State.setRole s e r) := by
  unfold State.setRole
  repeat'
    first
    | intro _
    | with_reducible (
      first
      | assumption | apply State.modEngine_keeps | apply State.wr_keeps | fail_if_no_progress apply keeps_mk)
    | split | dsimp only

theorem State.setHoPhase_keeps {s0 : State} {s : State} {c : Nat} {p : Nat} (hs : Keeps s0 s) :
    Keeps s0 (State.setHoPhase s c p) := by
  unfold State.setHoPhase
  repeat'
    first
    | intro _
    | with_reducible (
      first
      | assumption | apply State.wr_keeps | apply State.recordReg_keeps | apply State.assert_keeps | fail_if_no_progress apply keeps_mk
      | apply keeps_ite)
    | split | dsimp only

theorem State.retireEvent_keeps {s0 : State} {s : State} {c : Nat} (hs : Keeps s0 s) :
    Keeps s0 (State.retireEvent s c) := by
  unfold State.retireEvent
  repeat'
    first
    | intro _
    | with_reducible (
      first
      | assumption | apply State.recordReg_keeps | apply State.assert_keeps | fail_if_no_progress apply keeps_mk)
    | split | dsimp only

theorem State.showRed_keeps {s0 : State} {s : State} {c : Nat} (hs : Keeps s0 s) :
    Keeps s0 (State.showRed s c) := by
  unfold State.showRed
  repeat'
    first
    | intro _
    | with_reducible (
      first
      | assumption | apply State.wr_keeps | fail_if_no_progress apply keeps_mk | apply keeps_ite)
    | split | dsimp only

theorem State.setSpmap_keeps {s0 : State} {s : State} {c : Nat} {i : Nat} {p : Nat} (hs : Keeps s0 s) :
    Keeps s0 (State.setSpmap s c i p) := by
  unfold State.setSpmap
  repeat'
    first
    | intro _
    | with_reducible (
      first
      | assumption | apply State.wr_keeps | fail_if_no_progress apply keeps_mk)
    | split | dsimp only

theorem State.setSpare_keeps {s0 : State} {s : State} {c : Nat} {p : Nat} (hs : Keeps s0 s) :
    Keeps s0 (State.setSpare s c p) := by
  unfold State.setSpare
  repeat'
    first
    | intro _
    | with_reducible (
      first
      | assumption | apply State.wr_keeps | fail_if_no_progress apply keeps_mk)
    | split | dsimp only

theorem State.countRetire_keeps {s0 : State} {s : State} {e : Nat} (hs : Keeps s0 s) :
    Keeps s0 (State.countRetire s e) := by
  unfold State.countRetire
  repeat'
    first
    | intro _
    | with_reducible (
      first
      | assumption | apply State.count_keeps | fail_if_no_progress apply keeps_mk)
    | split | dsimp only

theorem State.updPhase_keeps {s0 : State} {s : State} {p : Nat} (hs : Keeps s0 s) :
    Keeps s0 (State.updPhase s p) := by
  unfold State.updPhase
  repeat'
    first
    | intro _
    | with_reducible (
      first
      | assumption | apply State.recordReg_keeps | apply State.assert_keeps | apply State.wr_keeps | fail_if_no_progress apply keeps_mk
      | apply keeps_ite)
    | split | dsimp only

theorem State.updErr_keeps {s0 : State} {s : State} {f : Fld} (hs : Keeps s0 s) :
    Keeps s0 (State.updErr s f) := by
  unfold State.updErr
  repeat'
    first
    | intro _
    | with_reducible (
      first
      | assumption | apply State.recordReg_keeps | apply State.setErr_keeps | fail_if_no_progress apply keeps_mk)
    | split | dsimp only

theorem State.updStop_keeps {s0 : State} {s : State} {r : Nat} (hs : Keeps s0 s) :
    Keeps s0 (State.updStop s r) := by
  unfold State.updStop
  repeat'
    first
    | intro _
    | with_reducible (
      first
      | assumption | apply State.updErr_keeps | apply State.updPhase_keeps | apply State.wr_keeps | fail_if_no_progress apply keeps_mk)
    | split | dsimp only

theorem State.updSkip_keeps {s0 : State} {s : State} {c : Nat} (hs : Keeps s0 s) :
    Keeps s0 (State.updSkip s c) := by
  unfold State.updSkip
  repeat'
    first
    | intro _
    | with_reducible (
      first
      | assumption | apply State.updErr_keeps | apply State.wr_keeps | fail_if_no_progress apply keeps_mk)
    | split | dsimp only

theorem State.updLoad_keeps {s0 : State} {s : State} {c : Nat} (hs : Keeps s0 s) :
    Keeps s0 (State.updLoad s c) := by
  unfold State.updLoad
  repeat'
    first
    | intro _
    | with_reducible (
      first
      | assumption | apply State.updPhase_keeps | apply State.setRole_keeps | fail_if_no_progress apply keeps_mk)
    | split | dsimp only

theorem State.updTurn_keeps {s0 : State} {s : State} {n : Nat} (hs : Keeps s0 s) :
    Keeps s0 (State.updTurn s n) := by
  induction n generalizing s with
  | zero =>
    unfold State.updTurn
    repeat'
      first
      | intro _
      | with_reducible (
        first
        | assumption | apply State.updSkip_keeps | apply State.updPhase_keeps | apply State.wr_keeps | apply State.updLoad_keeps
        | fail_if_no_progress apply keeps_mk)
      | split | dsimp only
  | succ k ih =>
    unfold State.updTurn
    repeat'
      first
      | intro _
      | with_reducible (
        first
        | assumption | apply State.updSkip_keeps | apply State.updPhase_keeps | apply State.wr_keeps | apply State.updLoad_keeps
        | fail_if_no_progress apply keeps_mk)
      | with_reducible apply ih | split | dsimp only

theorem State.updAfter_keeps {s0 : State} {s : State} {c : Nat} (hs : Keeps s0 s) :
    Keeps s0 (State.updAfter s c) := by
  unfold State.updAfter
  repeat'
    first
    | intro _
    | with_reducible (
      first
      | assumption | apply State.updTurn_keeps | fail_if_no_progress apply keeps_mk)
    | split | dsimp only

theorem State.waitGap_keeps {s0 : State} {s : State} {c : Nat} (hs : Keeps s0 s) :
    Keeps s0 (State.waitGap s c) := by
  unfold State.waitGap
  repeat'
    first
    | intro _
    | with_reducible (
      first
      | assumption | apply State.setHoPhase_keeps | fail_if_no_progress apply keeps_mk)
    | split | dsimp only

theorem State.hoStart_keeps {s0 : State} {s : State} {c : Nat} {i : Nat} {retire : Bool} {timeout : Nat} (hs : Keeps s0 s) :
    Keeps s0 (State.hoStart s c i retire timeout) := by
  unfold State.hoStart
  repeat'
    first
    | intro _
    | with_reducible (
      first
      | assumption | refine keeps_mem ?_ (fun hm => Mem.handover_wf _ _ hm) | apply State.wr_keeps | apply State.setHoPhase_keeps
      | fail_if_no_progress apply keeps_mk)
    | split | dsimp only

theorem State.updIndex_keeps {s0 : State} {s : State} {c : Nat} (hs : Keeps s0 s) :
    Keeps s0 (State.updIndex s c) := by
  unfold State.updIndex
  repeat'
    first
    | intro _
    | with_reducible (
      first
      | assumption | apply State.updAfter_keeps | apply State.hoStart_keeps | apply State.updPhase_keeps | apply State.wr_keeps
      | apply State.updSkip_keeps | fail_if_no_progress apply keeps_mk | apply keeps_ite)
    | split | dsimp only

theorem State.updGo_keeps {s0 : State} {s : State} (hs : Keeps s0 s) :
    Keeps s0 (State.updGo s) := by
  unfold State.updGo
  repeat'
    first
    | intro _
    | with_reducible (
      first
      | assumption | apply State.updIndex_keeps | fail_if_no_progress apply keeps_mk | apply keeps_ite)
    | split | dsimp only

theorem State.hoAbort_keeps {s0 : State} {s : State} {c : Nat} (hs : Keeps s0 s) :
    Keeps s0 (State.hoAbort s c) := by
  unfold State.hoAbort
  repeat'
    first
    | intro _
    | with_reducible (
      first
      | assumption | apply State.setHoPhase_keeps | apply State.updErr_keeps | apply State.updStop_keeps | apply State.updGo_keeps
      | fail_if_no_progress apply keeps_mk | apply keeps_ite)
    | split | dsimp only

theorem State.hoAbandon_keeps {s0 : State} {s : State} {c : Nat} (hs : Keeps s0 s) :
    Keeps s0 (State.hoAbandon s c) := by
  unfold State.hoAbandon
  repeat'
    first
    | intro _
    | with_reducible (
      first
      | assumption | apply State.hoAbort_keeps | apply State.updIndex_keeps | fail_if_no_progress apply keeps_mk | apply keeps_ite)
    | split | dsimp only

theorem State.updLost_keeps {s0 : State} {s : State} {c : Nat} (hs : Keeps s0 s) :
    Keeps s0 (State.updLost s c) := by
  unfold State.updLost
  repeat'
    first
    | intro _
    | with_reducible (
      first
      | assumption | apply State.updAfter_keeps | apply State.updSkip_keeps | fail_if_no_progress apply keeps_mk | apply keeps_ite)
    | split | dsimp only

theorem State.loseChain_keeps {s0 : State} {s : State} {e : Nat} (hs : Keeps s0 s) :
    Keeps s0 (State.loseChain s e) := by
  unfold State.loseChain
  repeat'
    first
    | intro _
    | with_reducible (
      first
      | assumption | apply State.takeFreeze_keeps | apply State.modRing_keeps | apply State.recordCode_keeps | fail_if_no_progress apply keeps_mk
      | apply keeps_each | apply keeps_ite)
    | split | dsimp only

theorem State.loseIndex_keeps {s0 : State} {s : State} {e : Nat} {role : Nat} (hs : Keeps s0 s) :
    Keeps s0 (State.loseIndex s e role) := by
  unfold State.loseIndex
  repeat'
    first
    | intro _
    | with_reducible (
      first
      | assumption | apply State.setRole_keeps | apply State.setSpmap_keeps | apply State.loseChain_keeps | apply State.retireEvent_keeps
      | apply State.showRed_keeps | apply State.countRetire_keeps | apply State.recordSev_keeps | fail_if_no_progress apply keeps_mk
      | apply keeps_each)
    | split | dsimp only

theorem State.retireEngine_keeps {s0 : State} {s : State} {e : Nat} {role : Nat} (hs : Keeps s0 s) :
    Keeps s0 (State.retireEngine s e role) := by
  unfold State.retireEngine
  repeat'
    first
    | intro _
    | with_reducible (
      first
      | assumption | apply State.lkrel_keeps | apply State.hoAbort_keeps | apply State.modEngine_keeps | apply State.wr_keeps
      | apply State.countRetire_keeps | apply State.setRole_keeps | apply State.setSpare_keeps | apply State.retireEvent_keeps
      | apply State.showRed_keeps | apply State.updLost_keeps | apply State.loseIndex_keeps | apply State.setHoPhase_keeps
      | fail_if_no_progress apply keeps_mk | apply keeps_ite)
    | split | dsimp only

theorem State.copyLvs_keeps {s0 : State} {s : State} {src : Nat} {dst : Nat} (hs : Keeps s0 s) :
    Keeps s0 (State.copyLvs s src dst) := by
  unfold State.copyLvs
  repeat'
    first
    | intro _
    | with_reducible (
      first
      | assumption
      | refine keeps_mem ?_ (fun hm => eachDo_wf _ _ _ (fun _ _ hx => Mem.setTag_wf _ _ _ hx) (eachDo_wf _ _ _ (fun _ _ hx => Mem.setByte_wf _ _ _ hx) (Mem.strip_wf _ _ _ hm)))
      | refine keeps_mem ?_ (fun hm => Mem.setByte_wf _ _ _ hm) | refine keeps_mem ?_ (fun hm => Mem.setTag_wf _ _ _ hm)
      | fail_if_no_progress apply keeps_mk | apply keeps_each)
    | split | dsimp only

theorem State.checkLvs_keeps {s0 : State} {s : State} {src : Nat} (hs : Keeps s0 s) :
    Keeps s0 (State.checkLvs s src) := by
  unfold State.checkLvs
  repeat'
    first
    | intro _
    | with_reducible (
      first
      | assumption | apply State.lvsCheck_keeps | fail_if_no_progress apply keeps_mk | apply keeps_each)
    | split | dsimp only

theorem State.cleanLvs_keeps {s0 : State} {s : State} {dst : Nat} (hs : Keeps s0 s) :
    Keeps s0 (State.cleanLvs s dst) := by
  unfold State.cleanLvs
  repeat'
    first
    | intro _
    | with_reducible (
      first
      | assumption | refine keeps_mem ?_ (fun hm => Mem.flawDrop_wf _ _ hm) | fail_if_no_progress apply keeps_mk)
    | split | dsimp only

theorem State.moveIndex_keeps {s0 : State} {s : State} {src : Nat} {dst : Nat} (hs : Keeps s0 s) :
    Keeps s0 (State.moveIndex s src dst) := by
  unfold State.moveIndex
  repeat'
    first
    | intro _
    | with_reducible (
      first
      | assumption | apply State.setReg_keeps | apply State.setEngine_keeps | fail_if_no_progress apply keeps_mk | apply keeps_each)
    | split | dsimp only

theorem State.swapIndex_keeps {s0 : State} {s : State} {c : Nat} {r : Nat} (hs : Keeps s0 s) :
    Keeps s0 (State.swapIndex s c r) := by
  unfold State.swapIndex
  repeat'
    first
    | intro _
    | with_reducible (
      first
      | assumption | apply State.flushCores_keeps | apply State.foxFollow_keeps | apply State.cleanLvs_keeps | apply State.copyLvs_keeps
      | apply State.checkLvs_keeps | apply State.foxAbandon_keeps | apply State.moveIndex_keeps | apply State.setRole_keeps
      | apply State.setSpmap_keeps | apply State.setSpare_keeps | apply State.countRetire_keeps | apply State.refreshAll_keeps
      | apply State.showRed_keeps | fail_if_no_progress apply keeps_mk | apply keeps_ite)
    | split | dsimp only

/-! Engine -/

theorem State.modCore_keeps {s0 : State} {s : State} {e : Nat} {f : Core → Core} (hs : Keeps s0 s) :
    Keeps s0 (State.modCore s e f) := by
  unfold State.modCore
  repeat'
    first
    | intro _
    | with_reducible (
      first
      | assumption | apply State.modEngine_keeps | fail_if_no_progress apply keeps_mk)
    | split | dsimp only

theorem State.modBank_keeps {s0 : State} {s : State} {e : Nat} {b : Nat} {f : Bank → Bank} (hs : Keeps s0 s) :
    Keeps s0 (State.modBank s e b f) := by
  unfold State.modBank
  repeat'
    first
    | intro _
    | with_reducible (
      first
      | assumption | apply State.modCore_keeps | fail_if_no_progress apply keeps_mk)
    | split | dsimp only

theorem State.modRun_keeps {s0 : State} {s : State} {e : Nat} {f : Bank → Bank} (hs : Keeps s0 s) :
    Keeps s0 (State.modRun s e f) := by
  unfold State.modRun
  repeat'
    first
    | intro _
    | with_reducible (
      first
      | assumption | apply State.modBank_keeps | fail_if_no_progress apply keeps_mk)
    | split | dsimp only

theorem State.setG_keeps {s0 : State} {s : State} {e : Nat} {r : RegNo} {v : TWord} (hs : Keeps s0 s) :
    Keeps s0 (State.setG s e r v) := by
  unfold State.setG
  repeat'
    first
    | intro _
    | with_reducible (
      first
      | assumption | apply State.modRun_keeps | fail_if_no_progress apply keeps_mk)
    | split | dsimp only

theorem State.setF_keeps {s0 : State} {s : State} {e : Nat} {r : RegNo} {v : Word} (hs : Keeps s0 s) :
    Keeps s0 (State.setF s e r v) := by
  unfold State.setF
  repeat'
    first
    | intro _
    | with_reducible (
      first
      | assumption | apply State.modRun_keeps | fail_if_no_progress apply keeps_mk)
    | split | dsimp only

theorem State.setAstat_keeps {s0 : State} {s : State} {e : Nat} {v : Nat} (hs : Keeps s0 s) :
    Keeps s0 (State.setAstat s e v) := by
  unfold State.setAstat
  repeat'
    first
    | intro _
    | with_reducible (
      first
      | assumption | apply State.modRun_keeps | fail_if_no_progress apply keeps_mk)
    | split | dsimp only

theorem State.setVfcsr_keeps {s0 : State} {s : State} {e : Nat} {v : Nat} (hs : Keeps s0 s) :
    Keeps s0 (State.setVfcsr s e v) := by
  unfold State.setVfcsr
  repeat'
    first
    | intro _
    | with_reducible (
      first
      | assumption | apply State.modRun_keeps | fail_if_no_progress apply keeps_mk)
    | split | dsimp only

theorem State.setPc_keeps {s0 : State} {s : State} {e : Nat} {pc : Nat} (hs : Keeps s0 s) :
    Keeps s0 (State.setPc s e pc) := by
  unfold State.setPc
  repeat'
    first
    | intro _
    | with_reducible (
      first
      | assumption | apply State.modCore_keeps | fail_if_no_progress apply keeps_mk)
    | split | dsimp only

theorem State.releaseStore_keeps {s0 : State} {s : State} {e : Nat} {g : GStore} (hs : Keeps s0 s) :
    Keeps s0 (State.releaseStore s e g) := by
  unfold State.releaseStore
  repeat'
    first
    | intro _
    | with_reducible (
      first
      | assumption | apply State.count_keeps | apply State.cacheStore_keeps | apply State.storeAnswered_keeps | apply State.fillCore_keeps
      | apply State.arrive_keeps | apply State.modEngine_keeps | apply State.lvsWrite_keeps | apply State.defaultTarget_keeps
      | fail_if_no_progress apply keeps_mk | apply keeps_ite | apply keeps_ite1 | apply keeps_ite2 | refine keeps_of_eq (by assumption) ?_
      | refine keeps_of_eq2 (by assumption) ?_ | refine keeps_of_eq3 (by assumption) ?_)
    | split | dsimp only

theorem State.drainSteps_keeps {s0 : State} {n : Nat} {e : Nat} {s : State} (hs : Keeps s0 s) :
    Keeps s0 (State.drainSteps n e s) := by
  induction n generalizing s with
  | zero =>
    unfold State.drainSteps
    repeat'
      first
      | intro _
      | with_reducible (
        first
        | assumption | apply State.releaseStore_keeps | fail_if_no_progress apply keeps_mk)
      | split | dsimp only
  | succ k ih =>
    unfold State.drainSteps
    repeat'
      first
      | intro _
      | with_reducible (
        first
        | assumption | apply State.releaseStore_keeps | fail_if_no_progress apply keeps_mk)
      | with_reducible apply ih | split | dsimp only

theorem State.drainOut_keeps {s0 : State} {s : State} {e : Nat} (hs : Keeps s0 s) :
    Keeps s0 (State.drainOut s e) := by
  unfold State.drainOut
  repeat'
    first
    | intro _
    | with_reducible (
      first
      | assumption | apply State.drainSteps_keeps | fail_if_no_progress apply keeps_mk)
    | split | dsimp only

theorem State.completeCommit_keeps {s0 : State} {s : State} {e : Nat} (hs : Keeps s0 s) :
    Keeps s0 (State.completeCommit s e) := by
  unfold State.completeCommit
  repeat'
    first
    | intro _
    | with_reducible (
      first
      | assumption | apply State.modEngine_keeps | apply State.drainOut_keeps | apply State.setReg_keeps | fail_if_no_progress apply keeps_mk)
    | split | dsimp only

theorem State.commitPoint_keeps {s0 : State} {s : State} {e : Nat} (hs : Keeps s0 s) :
    Keeps s0 (State.commitPoint s e) := by
  unfold State.commitPoint
  repeat'
    first
    | intro _
    | with_reducible (
      first
      | assumption | apply State.modEngine_keeps | apply State.completeCommit_keeps | fail_if_no_progress apply keeps_mk)
    | split | dsimp only

theorem State.commitNow_keeps {s0 : State} {s : State} {e : Nat} (hs : Keeps s0 s) :
    Keeps s0 (State.commitNow s e) := by
  unfold State.commitNow
  repeat'
    first
    | intro _
    | with_reducible (
      first
      | assumption | apply State.completeCommit_keeps | apply State.commitPoint_keeps | fail_if_no_progress apply keeps_mk)
    | split | dsimp only

theorem State.gate_keeps {s0 : State} {s : State} {e : Nat} {pc : Nat} {g : GStore} (hs : Keeps s0 s) :
    Keeps s0 (State.gate s e pc g) := by
  unfold State.gate
  repeat'
    first
    | intro _
    | with_reducible (
      first
      | assumption | apply State.setPc_keeps | apply State.commitNow_keeps | apply State.modEngine_keeps | fail_if_no_progress apply keeps_mk
      | apply keeps_ite)
    | split | dsimp only

theorem State.countInstr_keeps {s0 : State} {s : State} {e : Nat} (hs : Keeps s0 s) :
    Keeps s0 (State.countInstr s e) := by
  unfold State.countInstr
  repeat'
    first
    | intro _
    | with_reducible (
      first
      | assumption | apply State.romFetch_keeps | apply State.commitPoint_keeps | apply State.modEngine_keeps | fail_if_no_progress apply keeps_mk
      | apply keeps_ite)
    | split | dsimp only

theorem execCheckpointComplete_keeps {s0 : State} {e : EngId} {s : State} (hs : Keeps s0 s) :
    OutKeeps s0 (execCheckpointComplete e s) := by
  unfold execCheckpointComplete
  repeat'
    first
    | intro _
    | with_reducible (
      first
      | assumption | apply State.completeCommit_keeps | fail_if_no_progress apply keeps_mk | apply out_next)
    | split | dsimp only

theorem State.setSlotPhase_keeps {s0 : State} {s : State} {e : Nat} {p : Nat} (hs : Keeps s0 s) :
    Keeps s0 (State.setSlotPhase s e p) := by
  unfold State.setSlotPhase
  repeat'
    first
    | intro _
    | with_reducible (
      first
      | assumption | apply State.wr_keeps | fail_if_no_progress apply keeps_mk)
    | split | dsimp only

theorem State.startClosing_keeps {s0 : State} {s : State} {e : Nat} (hs : Keeps s0 s) :
    Keeps s0 (State.startClosing s e) := by
  unfold State.startClosing
  repeat'
    first
    | intro _
    | with_reducible (
      first
      | assumption | apply State.modEngine_keeps | apply State.setSlotPhase_keeps | fail_if_no_progress apply keeps_mk)
    | split | dsimp only

theorem State.ringPause_keeps {s0 : State} {s : State} {e : Nat} {b : Nat} (hs : Keeps s0 s) :
    Keeps s0 (State.ringPause s e b) := by
  unfold State.ringPause
  repeat'
    first
    | intro _
    | with_reducible (
      first
      | assumption | apply State.sendDown_keeps | fail_if_no_progress apply keeps_mk | apply keeps_ite)
    | split | dsimp only

theorem State.closing_keeps {s0 : State} {s : State} {e : Nat} (hs : Keeps s0 s) :
    Keeps s0 (State.closing s e) := by
  unfold State.closing
  repeat'
    first
    | intro _
    | with_reducible (
      first
      | assumption | apply State.modCore_keeps | apply State.commitNow_keeps | apply State.ringPause_keeps | apply State.startClosing_keeps
      | fail_if_no_progress apply keeps_mk)
    | split | dsimp only

theorem State.unfit_keeps {s0 : State} {s : State} {e : Nat} (hs : Keeps s0 s) :
    Keeps s0 (State.unfit s e) := by
  unfold State.unfit
  repeat'
    first
    | intro _
    | with_reducible (
      first
      | assumption | apply State.retireEngine_keeps | fail_if_no_progress apply keeps_mk)
    | split | dsimp only

theorem State.countNi_keeps {s0 : State} {s : State} {e : Nat} (hs : Keeps s0 s) :
    Keeps s0 (State.countNi s e) := by
  unfold State.countNi
  repeat'
    first
    | intro _
    | with_reducible (
      first
      | assumption | apply State.takeFree_keeps | apply State.modCore_keeps | fail_if_no_progress apply keeps_mk | apply keeps_ite | apply keeps_ite1
      | apply keeps_ite2 | refine keeps_of_eq (by assumption) ?_ | refine keeps_of_eq2 (by assumption) ?_ | refine keeps_of_eq3 (by assumption) ?_)
    | split | dsimp only

theorem State.enter_keeps {s0 : State} {s : State} {e : Nat} {l : Nat} {off : Nat} {epc : Nat} {ecause : Nat} {eaddr : Nat} {eprog : Nat} {escr : Nat} (hs : Keeps s0 s) :
    Keeps s0 (State.enter s e l off epc ecause eaddr eprog escr) := by
  unfold State.enter
  repeat'
    first
    | intro _
    | with_reducible (
      first
      | assumption | apply State.modCore_keeps | apply State.modEngine_keeps | fail_if_no_progress apply keeps_mk | apply keeps_ite)
    | split | dsimp only

theorem State.setEscWords_keeps {s0 : State} {s : State} {e : Nat} {pa : Nat} {ws : List TWord} (hs : Keeps s0 s) :
    Keeps s0 (State.setEscWords s e pa ws) := by
  unfold State.setEscWords
  repeat'
    first
    | intro _
    | with_reducible (
      first
      | assumption | apply State.setLvsWord_keeps | fail_if_no_progress apply keeps_mk | apply keeps_each)
    | split | dsimp only

theorem State.enterFeh_keeps {s0 : State} {s : State} {e : Nat} {epc : Nat} {ecause : Nat} {eaddr : Nat} {eprog : Nat} {escr : Nat} (hs : Keeps s0 s) :
    Keeps s0 (State.enterFeh s e epc ecause eaddr eprog escr) := by
  unfold State.enterFeh
  repeat'
    first
    | intro _
    | with_reducible (
      first
      | assumption | apply State.unfit_keeps | apply State.setEscWords_keeps | apply State.modCore_keeps | apply State.modEngine_keeps
      | apply State.count_keeps | apply State.recordCode_keeps | fail_if_no_progress apply keeps_mk | apply keeps_ite)
    | split | dsimp only

theorem State.hold_keeps {s0 : State} {s : State} {e : Nat} {target : Nat} {pc : Nat} {ecause : Nat} {eaddr : Nat} {eprog : Nat} {escr : Nat} (hs : Keeps s0 s) :
    Keeps s0 (State.hold s e target pc ecause eaddr eprog escr) := by
  unfold State.hold
  repeat'
    first
    | intro _
    | with_reducible (
      first
      | assumption | apply State.modRun_keeps | apply State.closing_keeps | apply State.modEngine_keeps | apply State.setPc_keeps
      | apply State.count_keeps | fail_if_no_progress apply keeps_mk)
    | split | dsimp only

theorem State.takeException_keeps {s0 : State} {s : State} {e : Nat} {epc : Nat} {t : Trap} (hs : Keeps s0 s) :
    Keeps s0 (State.takeException s e epc t) := by
  unfold State.takeException
  repeat'
    first
    | intro _
    | with_reducible (
      first
      | assumption | apply State.enterFeh_keeps | apply State.hold_keeps | apply State.enter_keeps | fail_if_no_progress apply keeps_mk
      | apply keeps_ite)
    | split | dsimp only

theorem State.noteBusy_keeps {s0 : State} {s : State} {e : Nat} {pc : Nat} {cmd : Bool} (hs : Keeps s0 s) :
    Keeps s0 (State.noteBusy s e pc cmd) := by
  unfold State.noteBusy
  repeat'
    first
    | intro _
    | with_reducible (
      first
      | assumption | apply State.modEngine_keeps | fail_if_no_progress apply keeps_mk)
    | split | dsimp only

theorem State.clearBusy_keeps {s0 : State} {s : State} {e : Nat} (hs : Keeps s0 s) :
    Keeps s0 (State.clearBusy s e) := by
  unfold State.clearBusy
  repeat'
    first
    | intro _
    | with_reducible (
      first
      | assumption | apply State.modEngine_keeps | fail_if_no_progress apply keeps_mk)
    | split | dsimp only

theorem State.issue_keeps {s0 : State} {s : State} {e : Nat} {len : Nat} {rs : List RegRef} {f : State → Res} (hf : ∀ t, Keeps s0 t → ResKeeps s0 (f t)) (hs : Keeps s0 s) :
    Keeps s0 (State.issue s e len rs f) := by
  unfold State.issue
  repeat'
    first
    | intro _
    | with_reducible (
      first
      | assumption | apply hf | refine keeps_of_done (by assumption) ?_ | refine keeps_of_commit (by assumption) ?_
      | refine keeps_of_settle (by assumption) ?_ | refine keeps_of_fault (by assumption) ?_ | refine keeps_of_wait (by assumption) ?_
      | refine keeps_of_kept (by assumption) ?_ | apply State.setPc_keeps | apply State.takeException_keeps | apply State.countInstr_keeps
      | apply State.commitPoint_keeps | apply State.commitNow_keeps | fail_if_no_progress apply keeps_mk | apply keeps_ite)
    | split | dsimp only

theorem State.drained_keeps {s0 : State} {s : State} {e : Nat} {pc : Nat} {f : State → Res} (hf : ∀ t, Keeps s0 t → ResKeeps s0 (f t)) (hs : Keeps s0 s) :
    ResKeeps s0 (State.drained s e pc f) := by
  unfold State.drained
  repeat'
    first
    | intro _
    | with_reducible (
      first
      | assumption | apply hf | refine keeps_of_done (by assumption) ?_ | refine keeps_of_commit (by assumption) ?_
      | refine keeps_of_settle (by assumption) ?_ | refine keeps_of_fault (by assumption) ?_ | refine keeps_of_wait (by assumption) ?_
      | refine keeps_of_kept (by assumption) ?_ | apply State.modEngine_keeps | apply State.drainOut_keeps | apply State.commitNow_keeps
      | apply State.setPc_keeps | fail_if_no_progress apply keeps_mk | apply res_done | apply res_commit | apply res_settle | apply res_fault
      | apply res_wait | apply res_kept | apply res_stall | apply keeps_ite | apply res_ite)
    | split | dsimp only

end Sys2Proof.Machine
end

