-- ==== Sys2Proof/Laws/KeepsIo.lean ====
section
/-! SUPPORT. What the operations of interrupt rows, queues and ports keep: the queue and the canonical form of memory. -/
set_option linter.unreachableTactic false
set_option linter.unusedTactic false
namespace Sys2Proof.Machine
open Reg

/-! IrqRows -/

theorem State.plat_keeps {s0 : State} {s : State} {r : Requester} {f : State → State} (hf : ∀ t, Keeps s0 t → Keeps s0 (f t)) (hs : Keeps s0 s) :
    Keeps s0 (State.plat s r f) := by
  unfold State.plat
  repeat'
    first
    | intro _
    | with_reducible (
      first
      | assumption | apply hf | apply State.reply_keeps | fail_if_no_progress apply keeps_mk | apply keeps_ite)
    | split | dsimp only

theorem execSourceAssert_keeps {s0 : State} {i : Fin 1024} {s : State} (hs : Keeps s0 s) :
    OutKeeps s0 (execSourceAssert i s) := by
  unfold execSourceAssert
  repeat'
    first
    | intro _
    | with_reducible (
      first
      | assumption | apply State.setCond_keeps | apply State.assert_keeps | fail_if_no_progress apply keeps_mk | apply out_next | apply keeps_ite)
    | split | dsimp only

theorem State.msixUnmask_keeps {s0 : State} {s : State} {v : Nat} (hs : Keeps s0 s) :
    Keeps s0 (State.msixUnmask s v) := by
  unfold State.msixUnmask
  repeat'
    first
    | intro _
    | with_reducible (
      first
      | assumption | apply State.emit_keeps | fail_if_no_progress apply keeps_mk | apply keeps_ite)
    | split | dsimp only

theorem execMsixUnmask_keeps {s0 : State} {v : Fin 2048} {s : State} (hs : Keeps s0 s) :
    OutKeeps s0 (execMsixUnmask v s) := by
  unfold execMsixUnmask
  repeat'
    first
    | intro _
    | with_reducible (
      first
      | assumption | apply State.msixUnmask_keeps | fail_if_no_progress apply keeps_mk | apply out_next)
    | split | dsimp only

theorem execClaim_keeps {s0 : State} {c : Fin 3586} {s : State} (hs : Keeps s0 s) :
    OutKeeps s0 (execClaim c s) := by
  unfold execClaim
  repeat'
    first
    | intro _
    | with_reducible (
      first
      | assumption | apply State.claim_keeps | fail_if_no_progress apply keeps_mk | apply out_next)
    | split | dsimp only

theorem execComplete_keeps {s0 : State} {c : Fin 3586} {i : BitVec 10} {s : State} (hs : Keeps s0 s) :
    OutKeeps s0 (execComplete c i s) := by
  unfold execComplete
  repeat'
    first
    | intro _
    | with_reducible (
      first
      | assumption | apply State.reply_keeps | apply State.complete_keeps | fail_if_no_progress apply keeps_mk | apply out_next)
    | split | dsimp only

theorem execHoldoffExpiry_keeps {s0 : State} {g : Fin 64} {s : State} (hs : Keeps s0 s) :
    OutKeeps s0 (execHoldoffExpiry g s) := by
  unfold execHoldoffExpiry
  repeat'
    first
    | intro _
    | with_reducible (
      first
      | assumption | apply State.endHoldoffs_keeps | apply State.passTo_keeps | fail_if_no_progress apply keeps_mk | apply out_next)
    | split | dsimp only

theorem execIcSgi_keeps {s0 : State} {r : Requester} {i : BitVec 10} {s : State} (hs : Keeps s0 s) :
    OutKeeps s0 (execIcSgi r i s) := by
  unfold execIcSgi
  repeat'
    first
    | intro _
    | with_reducible (
      first
      | assumption | apply State.plat_keeps | apply State.reply_keeps | apply State.sgi_keeps | fail_if_no_progress apply keeps_mk | apply out_next)
    | split | dsimp only

theorem execTpDoorbell_keeps {s0 : State} {t : BitVec 13} {i : BitVec 10} {s : State} (hs : Keeps s0 s) :
    OutKeeps s0 (execTpDoorbell t i s) := by
  unfold execTpDoorbell
  repeat'
    first
    | intro _
    | with_reducible (
      first
      | assumption | apply State.reply_keeps | apply State.doorbell_keeps | fail_if_no_progress apply keeps_mk | apply out_next)
    | split | dsimp only

theorem State.setSrcCfg_keeps {s0 : State} {s : State} {i : Nat} {d : Word} (hs : Keeps s0 s) :
    Keeps s0 (State.setSrcCfg s i d) := by
  unfold State.setSrcCfg
  repeat'
    first
    | intro _
    | with_reducible (
      first
      | assumption | apply State.setReg_keeps | apply State.setSrc_keeps | fail_if_no_progress apply keeps_mk | apply keeps_ite)
    | split | dsimp only

theorem State.srcCfg_keeps {s0 : State} {s : State} {i : Nat} {d : Word} (hs : Keeps s0 s) :
    Keeps s0 (State.srcCfg s i d) := by
  unfold State.srcCfg
  repeat'
    first
    | intro _
    | with_reducible (
      first
      | assumption | apply State.reply_keeps | apply State.refreshAll_keeps | apply State.setSrcCfg_keeps | fail_if_no_progress apply keeps_mk
      | apply keeps_ite)
    | split | dsimp only

theorem execIcSrcCfg_keeps {s0 : State} {r : Requester} {i : Fin 1024} {d : Word} {s : State} (hs : Keeps s0 s) :
    OutKeeps s0 (execIcSrcCfg r i d s) := by
  unfold execIcSrcCfg
  repeat'
    first
    | intro _
    | with_reducible (
      first
      | assumption | apply State.plat_keeps | apply State.srcCfg_keeps | fail_if_no_progress apply keeps_mk | apply out_next)
    | split | dsimp only

theorem execEventFire_keeps {s0 : State} {ch : Fin 128} {s : State} (hs : Keeps s0 s) :
    OutKeeps s0 (execEventFire ch s) := by
  unfold execEventFire
  repeat'
    first
    | intro _
    | with_reducible (
      first
      | assumption | apply State.pulse_keeps | fail_if_no_progress apply keeps_mk | apply out_next)
    | split | dsimp only

theorem State.evrFire_keeps {s0 : State} {s : State} {hi : Bool} {d : Word} (hs : Keeps s0 s) :
    Keeps s0 (State.evrFire s hi d) := by
  unfold State.evrFire
  repeat'
    first
    | intro _
    | with_reducible (
      first
      | assumption | apply State.reply_keeps | apply State.pulses_keeps | fail_if_no_progress apply keeps_mk | apply keeps_ite)
    | split | dsimp only

theorem execEvrFire_keeps {s0 : State} {r : Requester} {hi : Bool} {d : Word} {s : State} (hs : Keeps s0 s) :
    OutKeeps s0 (execEvrFire r hi d s) := by
  unfold execEvrFire
  repeat'
    first
    | intro _
    | with_reducible (
      first
      | assumption | apply State.plat_keeps | apply State.evrFire_keeps | fail_if_no_progress apply keeps_mk | apply out_next)
    | split | dsimp only

/-! Queues -/

theorem State.setQueue_keeps {s0 : State} {s : State} {q : Nat} {x : QState} (hs : Keeps s0 s) :
    Keeps s0 (State.setQueue s q x) := by
  unfold State.setQueue
  repeat'
    first
    | intro _
    | with_reducible (
      first
      | assumption | fail_if_no_progress apply keeps_mk)
    | split | dsimp only

theorem State.setOwner_keeps {s0 : State} {s : State} {h : Nat} {o : Option Own} (hs : Keeps s0 s) :
    Keeps s0 (State.setOwner s h o) := by
  unfold State.setOwner
  repeat'
    first
    | intro _
    | with_reducible (
      first
      | assumption | fail_if_no_progress apply keeps_mk)
    | split | dsimp only

theorem State.freeBuffer_keeps {s0 : State} {s : State} {h : Nat} (hs : Keeps s0 s) :
    Keeps s0 (State.freeBuffer s h) := by
  unfold State.freeBuffer
  repeat'
    first
    | intro _
    | with_reducible (
      first
      | assumption | apply State.setOwner_keeps | fail_if_no_progress apply keeps_mk)
    | split | dsimp only

theorem State.takeBuffer_keeps {s0 : State} {s : State} {x : Share} {h : Nat} {o : Own} (hs : Keeps s0 s) :
    Keeps s0 (State.takeBuffer s x h o) := by
  unfold State.takeBuffer
  repeat'
    first
    | intro _
    | with_reducible (
      first
      | assumption | apply State.setOwner_keeps | fail_if_no_progress apply keeps_mk)
    | split | dsimp only

theorem State.countEmpty_keeps {s0 : State} {s : State} {x : Share} (hs : Keeps s0 s) :
    Keeps s0 (State.countEmpty s x) := by
  unfold State.countEmpty
  repeat'
    first
    | intro _
    | with_reducible (
      first
      | assumption | fail_if_no_progress apply keeps_mk)
    | split | dsimp only

theorem State.qmLog_keeps {s0 : State} {s : State} {h : Nat} {q : Nat} {t : Nat} {kind : Nat} (hs : Keeps s0 s) :
    Keeps s0 (State.qmLog s h q t kind) := by
  unfold State.qmLog
  repeat'
    first
    | intro _
    | with_reducible (
      first
      | assumption | apply State.setReg_keeps | fail_if_no_progress apply keeps_mk)
    | split | dsimp only

theorem State.qmErr_keeps {s0 : State} {s : State} {k : Nat} {h : Nat} {q : Nat} {t : Nat} (hs : Keeps s0 s) :
    Keeps s0 (State.qmErr s k h q t) := by
  unfold State.qmErr
  repeat'
    first
    | intro _
    | with_reducible (
      first
      | assumption | apply State.setErr_keeps | apply State.qmLog_keeps | apply State.record_keeps | fail_if_no_progress apply keeps_mk)
    | split | dsimp only

theorem State.qmErrFree_keeps {s0 : State} {s : State} {k : Nat} {q : Nat} {t : Nat} (hs : Keeps s0 s) :
    Keeps s0 (State.qmErrFree s k q t) := by
  unfold State.qmErrFree
  repeat'
    first
    | intro _
    | with_reducible (
      first
      | assumption | apply State.takeFree_keeps | apply State.qmErr_keeps | fail_if_no_progress apply keeps_mk | refine keeps_of_eq (by assumption) ?_
      | refine keeps_of_eq2 (by assumption) ?_ | refine keeps_of_eq3 (by assumption) ?_)
    | split | dsimp only

theorem State.qmFaultOp_keeps {s0 : State} {s : State} {h : Nat} {q : Nat} {t : Nat} (hs : Keeps s0 s) :
    Keeps s0 (State.qmFaultOp s h q t) := by
  unfold State.qmFaultOp
  repeat'
    first
    | intro _
    | with_reducible (
      first
      | assumption | apply State.qmLog_keeps | apply State.recordCode_keeps | fail_if_no_progress apply keeps_mk)
    | split | dsimp only

theorem State.qDrop_keeps {s0 : State} {s : State} {q : Nat} {k : Nat} (hs : Keeps s0 s) :
    Keeps s0 (State.qDrop s q k) := by
  unfold State.qDrop
  repeat'
    first
    | intro _
    | with_reducible (
      first
      | assumption | apply State.setQueue_keeps | fail_if_no_progress apply keeps_mk)
    | split | dsimp only

theorem State.takeTokens_keeps {s0 : State} {s : State} {t : Nat} {len : Nat} (hs : Keeps s0 s) :
    Keeps s0 (State.takeTokens s t len) := by
  unfold State.takeTokens
  repeat'
    first
    | intro _
    | with_reducible (
      first
      | assumption | fail_if_no_progress apply keeps_mk | apply keeps_ite)
    | split | dsimp only

theorem State.shedExit_keeps {s0 : State} {s : State} {q : Nat} (hs : Keeps s0 s) :
    Keeps s0 (State.shedExit s q) := by
  unfold State.shedExit
  repeat'
    first
    | intro _
    | with_reducible (
      first
      | assumption | apply State.setQueue_keeps | fail_if_no_progress apply keeps_mk | apply keeps_ite)
    | split | dsimp only

theorem State.refill_keeps {s0 : State} {s : State} (hs : Keeps s0 s) :
    Keeps s0 (State.refill s) := by
  unfold State.refill
  repeat'
    first
    | intro _
    | with_reducible (
      first
      | assumption | apply State.shedExit_keeps | fail_if_no_progress apply keeps_mk | apply keeps_each)
    | split | dsimp only

theorem execTokenRefill_keeps {s0 : State} {s : State} (hs : Keeps s0 s) :
    OutKeeps s0 (execTokenRefill s) := by
  unfold execTokenRefill
  repeat'
    first
    | intro _
    | with_reducible (
      first
      | assumption | apply State.refill_keeps | apply State.passTo_keeps | fail_if_no_progress apply keeps_mk | apply out_next)
    | split | dsimp only

theorem State.qEnqueued_keeps {s0 : State} {s : State} {q : Nat} {d : Word} (hs : Keeps s0 s) :
    Keeps s0 (State.qEnqueued s q d) := by
  unfold State.qEnqueued
  repeat'
    first
    | intro _
    | with_reducible (
      first
      | assumption | apply State.setQueue_keeps | apply State.wirePulse_keeps | apply State.assert_keeps | fail_if_no_progress apply keeps_mk
      | apply keeps_ite)
    | split | dsimp only

theorem State.qSkip_keeps {s0 : State} {s : State} {q : Nat} {n : Nat} {t : Nat} (hs : Keeps s0 s) :
    Keeps s0 (State.qSkip s q n t) := by
  unfold State.qSkip
  repeat'
    first
    | intro _
    | with_reducible (
      first
      | assumption | apply State.qmErrFree_keeps | apply State.setQueue_keeps | fail_if_no_progress apply keeps_mk | apply keeps_each
      | apply keeps_ite)
    | split | dsimp only

theorem State.qDequeued_keeps {s0 : State} {s : State} {q : Nat} (hs : Keeps s0 s) :
    Keeps s0 (State.qDequeued s q) := by
  unfold State.qDequeued
  repeat'
    first
    | intro _
    | with_reducible (
      first
      | assumption | apply State.setQueue_keeps | apply State.shedExit_keeps | fail_if_no_progress apply keeps_mk | apply keeps_ite)
    | split | dsimp only

theorem State.deq_keeps {s0 : State} {s : State} {t : Nat} {q : Nat} {bad : Nat} (hs : Keeps s0 s) :
    Keeps s0 (State.deq s t q bad).2 := by
  unfold State.deq
  repeat'
    first
    | intro _
    | with_reducible (
      first
      | assumption | apply State.qSkip_keeps | apply State.qDequeued_keeps | apply State.setOwner_keeps | apply State.setQueue_keeps
      | fail_if_no_progress apply keeps_mk | apply keeps_ite | apply keeps_ite1 | apply keeps_ite2 | refine keeps_of_eq (by assumption) ?_
      | refine keeps_of_eq2 (by assumption) ?_ | refine keeps_of_eq3 (by assumption) ?_)
    | split | dsimp only

theorem State.enq_keeps {s0 : State} {s : State} {t : Nat} {q : Nat} {d : Word} (hs : Keeps s0 s) :
    Keeps s0 (State.enq s t q d) := by
  unfold State.enq
  repeat'
    first
    | intro _
    | with_reducible (
      first
      | assumption | apply State.qmFaultOp_keeps | apply State.qmErr_keeps | apply State.qDrop_keeps | apply State.freeBuffer_keeps
      | apply State.qEnqueued_keeps | apply State.setOwner_keeps | fail_if_no_progress apply keeps_mk | apply keeps_ite)
    | split | dsimp only

theorem State.allocBuf_keeps {s0 : State} {s : State} {t : Nat} {q : Nat} (hs : Keeps s0 s) :
    Keeps s0 (State.allocBuf s t q).2 := by
  unfold State.allocBuf
  repeat'
    first
    | intro _
    | with_reducible (
      first
      | assumption | apply State.countEmpty_keeps | apply State.takeBuffer_keeps | fail_if_no_progress apply keeps_mk | apply keeps_ite
      | apply keeps_ite1 | apply keeps_ite2 | refine keeps_of_eq (by assumption) ?_ | refine keeps_of_eq2 (by assumption) ?_
      | refine keeps_of_eq3 (by assumption) ?_)
    | split | dsimp only

theorem State.freeOp_keeps {s0 : State} {s : State} {t : Nat} {q : Nat} {h : Nat} (hs : Keeps s0 s) :
    Keeps s0 (State.freeOp s t q h) := by
  unfold State.freeOp
  repeat'
    first
    | intro _
    | with_reducible (
      first
      | assumption | apply State.qmFaultOp_keeps | apply State.qmErr_keeps | apply State.freeBuffer_keeps | fail_if_no_progress apply keeps_mk
      | apply keeps_ite)
    | split | dsimp only

theorem State.replyWord_keeps {s0 : State} {s : State} {w : Word} (hs : Keeps s0 s) :
    Keeps s0 (State.replyWord s w) := by
  unfold State.replyWord
  repeat'
    first
    | intro _
    | with_reducible (
      first
      | assumption | apply State.reply_keeps | fail_if_no_progress apply keeps_mk)
    | split | dsimp only

theorem execDeq_keeps {s0 : State} {t : BitVec 13} {j : Fin 1024} {bad : Nat} {s : State} (hs : Keeps s0 s) :
    OutKeeps s0 (execDeq t j bad s) := by
  unfold execDeq
  repeat'
    first
    | intro _
    | with_reducible (
      first
      | assumption | apply State.reply_keeps | apply State.deq_keeps | apply State.replyWord_keeps | fail_if_no_progress apply keeps_mk
      | apply out_next | refine keeps_of_eq (by assumption) ?_ | refine keeps_of_eq2 (by assumption) ?_ | refine keeps_of_eq3 (by assumption) ?_)
    | split | dsimp only

theorem execEnq_keeps {s0 : State} {t : BitVec 13} {j : Fin 1024} {d : Word} {s : State} (hs : Keeps s0 s) :
    OutKeeps s0 (execEnq t j d s) := by
  unfold execEnq
  repeat'
    first
    | intro _
    | with_reducible (
      first
      | assumption | apply State.reply_keeps | apply State.enq_keeps | fail_if_no_progress apply keeps_mk | apply out_next)
    | split | dsimp only

theorem execFree_keeps {s0 : State} {t : BitVec 13} {j : Fin 1024} {d : Word} {s : State} (hs : Keeps s0 s) :
    OutKeeps s0 (execFree t j d s) := by
  unfold execFree
  repeat'
    first
    | intro _
    | with_reducible (
      first
      | assumption | apply State.reply_keeps | apply State.freeOp_keeps | fail_if_no_progress apply keeps_mk | apply out_next)
    | split | dsimp only

theorem State.allocMany_keeps {s0 : State} {s : State} {reqs : List AllocReq} (hs : Keeps s0 s) :
    Keeps s0 (State.allocMany s reqs).2 := by
  unfold State.allocMany
  repeat'
    first
    | intro _
    | with_reducible (
      first
      | assumption | apply State.allocBuf_keeps | fail_if_no_progress apply keeps_mk | apply keeps_fold | apply keeps_fold1 | apply keeps_fold2
      | apply keeps_fold3 | apply keeps_ite | apply keeps_ite1 | apply keeps_ite2 | refine keeps_of_eq (by assumption) ?_
      | refine keeps_of_eq2 (by assumption) ?_ | refine keeps_of_eq3 (by assumption) ?_)
    | split | dsimp only

theorem execAlloc_keeps {s0 : State} {reqs : List AllocReq} {s : State} (hs : Keeps s0 s) :
    OutKeeps s0 (execAlloc reqs s) := by
  unfold execAlloc
  repeat'
    first
    | intro _
    | with_reducible (
      first
      | assumption | apply State.allocMany_keeps | apply State.reply_keeps | fail_if_no_progress apply keeps_mk | apply keeps_fold | apply keeps_fold1
      | apply keeps_fold2 | apply keeps_fold3 | apply out_next | refine keeps_of_eq (by assumption) ?_ | refine keeps_of_eq2 (by assumption) ?_
      | refine keeps_of_eq3 (by assumption) ?_)
    | split | dsimp only

theorem State.owe_keeps {s0 : State} {s : State} {p : Nat} {vc : Nat} {n : Nat} (hs : Keeps s0 s) :
    Keeps s0 (State.owe s p vc n) := by
  unfold State.owe
  repeat'
    first
    | intro _
    | with_reducible (
      first
      | assumption | fail_if_no_progress apply keeps_mk)
    | split | dsimp only

theorem State.leave_keeps {s0 : State} {s : State} {f : IFrame} (hs : Keeps s0 s) :
    Keeps s0 (State.leave s f) := by
  unfold State.leave
  repeat'
    first
    | intro _
    | with_reducible (
      first
      | assumption | apply State.owe_keeps | fail_if_no_progress apply keeps_mk | apply keeps_ite)
    | split | dsimp only

theorem State.admitStop_keeps {s0 : State} {s : State} {q : Nat} {k : Nat} (hs : Keeps s0 s) :
    Keeps s0 (State.admitStop s q k).2 := by
  unfold State.admitStop
  repeat'
    first
    | intro _
    | with_reducible (
      first
      | assumption | apply State.qDrop_keeps | apply State.setQueue_keeps | fail_if_no_progress apply keeps_mk | apply keeps_ite | apply keeps_ite1
      | apply keeps_ite2 | refine keeps_of_eq (by assumption) ?_ | refine keeps_of_eq2 (by assumption) ?_ | refine keeps_of_eq3 (by assumption) ?_)
    | split | dsimp only

theorem State.admitTake_keeps {s0 : State} {s : State} {f : IFrame} (hs : Keeps s0 s) :
    Keeps s0 (State.admitTake s f).2 := by
  unfold State.admitTake
  repeat'
    first
    | intro _
    | with_reducible (
      first
      | assumption | apply State.admitStop_keeps | apply State.countEmpty_keeps | apply State.takeTokens_keeps | apply State.takeBuffer_keeps
      | apply State.arrive_keeps | fail_if_no_progress apply keeps_mk | apply keeps_each | apply keeps_ite | apply keeps_ite1 | apply keeps_ite2
      | refine keeps_of_eq (by assumption) ?_ | refine keeps_of_eq2 (by assumption) ?_ | refine keeps_of_eq3 (by assumption) ?_)
    | split | dsimp only

theorem State.dropHead_keeps {s0 : State} {s : State} {q : Nat} (hs : Keeps s0 s) :
    Keeps s0 (State.dropHead s q) := by
  unfold State.dropHead
  repeat'
    first
    | intro _
    | with_reducible (
      first
      | assumption | apply State.qDrop_keeps | apply State.freeBuffer_keeps | apply State.setQueue_keeps | fail_if_no_progress apply keeps_mk)
    | split | dsimp only

theorem State.judgeFrame_keeps {s0 : State} {s : State} {f : IFrame} (hs : Keeps s0 s) :
    Keeps s0 (State.judgeFrame s f).2 := by
  unfold State.judgeFrame
  repeat'
    first
    | intro _
    | with_reducible (
      first
      | assumption | apply State.count_keeps | apply State.qDrop_keeps | apply State.admitStop_keeps | apply State.admitTake_keeps
      | apply State.dropHead_keeps | fail_if_no_progress apply keeps_mk | apply keeps_ite | apply keeps_ite1 | apply keeps_ite2
      | refine keeps_of_eq (by assumption) ?_ | refine keeps_of_eq2 (by assumption) ?_ | refine keeps_of_eq3 (by assumption) ?_)
    | split | dsimp only

theorem State.unback_keeps {s0 : State} {s : State} {q : Nat} (hs : Keeps s0 s) :
    Keeps s0 (State.unback s q) := by
  unfold State.unback
  repeat'
    first
    | intro _
    | with_reducible (
      first
      | assumption | apply State.setQueue_keeps | fail_if_no_progress apply keeps_mk | apply keeps_ite)
    | split | dsimp only

theorem State.setWaiting_keeps {s0 : State} {s : State} {p : Nat} {lane : Nat} {l : List IFrame} (hs : Keeps s0 s) :
    Keeps s0 (State.setWaiting s p lane l) := by
  unfold State.setWaiting
  repeat'
    first
    | intro _
    | with_reducible (
      first
      | assumption | fail_if_no_progress apply keeps_mk)
    | split | dsimp only

theorem State.pfcOf_keeps {s0 : State} {s : State} {f : IFrame} {on : Bool} (hs : Keeps s0 s) :
    Keeps s0 (State.pfcOf s f on) := by
  unfold State.pfcOf
  repeat'
    first
    | intro _
    | with_reducible (
      first
      | assumption | apply State.emit_keeps | fail_if_no_progress apply keeps_mk | apply keeps_ite)
    | split | dsimp only

theorem State.retryLane_keeps {s0 : State} {s : State} {p : Nat} {lane : Nat} {n : Nat} (hs : Keeps s0 s) :
    Keeps s0 (State.retryLane s p lane n) := by
  induction n generalizing s with
  | zero =>
    unfold State.retryLane
    repeat'
      first
      | intro _
      | with_reducible (
        first
        | assumption | apply State.leave_keeps | apply State.judgeFrame_keeps | apply State.setWaiting_keeps | apply State.unback_keeps
        | apply State.pfcOf_keeps | fail_if_no_progress apply keeps_mk | refine keeps_of_eq (by assumption) ?_
        | refine keeps_of_eq2 (by assumption) ?_ | refine keeps_of_eq3 (by assumption) ?_)
      | split | dsimp only
  | succ k ih =>
    unfold State.retryLane
    repeat'
      first
      | intro _
      | with_reducible (
        first
        | assumption | apply State.leave_keeps | apply State.judgeFrame_keeps | apply State.setWaiting_keeps | apply State.unback_keeps
        | apply State.pfcOf_keeps | fail_if_no_progress apply keeps_mk | refine keeps_of_eq (by assumption) ?_
        | refine keeps_of_eq2 (by assumption) ?_ | refine keeps_of_eq3 (by assumption) ?_)
      | with_reducible apply ih | split | dsimp only

theorem execIngressRetry_keeps {s0 : State} {p : Fin 6} {lane : Fin 16} {s : State} (hs : Keeps s0 s) :
    OutKeeps s0 (execIngressRetry p lane s) := by
  unfold execIngressRetry
  repeat'
    first
    | intro _
    | with_reducible (
      first
      | assumption | apply State.retryLane_keeps | fail_if_no_progress apply keeps_mk | apply out_next)
    | split | dsimp only

theorem State.ingressAdmit_keeps {s0 : State} {s : State} {p : Nat} {full : Bool} (hs : Keeps s0 s) :
    Keeps s0 (State.ingressAdmit s p full) := by
  unfold State.ingressAdmit
  repeat'
    first
    | intro _
    | with_reducible (
      first
      | assumption | apply State.count_keeps | apply State.pfcOf_keeps | apply State.setWaiting_keeps | apply State.judgeFrame_keeps
      | apply State.leave_keeps | fail_if_no_progress apply keeps_mk | apply keeps_ite | apply keeps_ite1 | apply keeps_ite2
      | refine keeps_of_eq (by assumption) ?_ | refine keeps_of_eq2 (by assumption) ?_ | refine keeps_of_eq3 (by assumption) ?_)
    | split | dsimp only

theorem execIngressAdmit_keeps {s0 : State} {p : Fin 6} {full : Bool} {s : State} (hs : Keeps s0 s) :
    OutKeeps s0 (execIngressAdmit p full s) := by
  unfold execIngressAdmit
  repeat'
    first
    | intro _
    | with_reducible (
      first
      | assumption | apply State.ingressAdmit_keeps | fail_if_no_progress apply keeps_mk | apply out_next)
    | split | dsimp only

theorem State.ingressPost_keeps {s0 : State} {s : State} {p : Nat} (hs : Keeps s0 s) :
    Keeps s0 (State.ingressPost s p) := by
  unfold State.ingressPost
  repeat'
    first
    | intro _
    | with_reducible (
      first
      | assumption | apply State.qDrop_keeps | apply State.freeBuffer_keeps | apply State.qEnqueued_keeps | fail_if_no_progress apply keeps_mk
      | apply keeps_ite)
    | split | dsimp only

theorem execIngressPost_keeps {s0 : State} {p : Fin 6} {s : State} (hs : Keeps s0 s) :
    OutKeeps s0 (execIngressPost p s) := by
  unfold execIngressPost
  repeat'
    first
    | intro _
    | with_reducible (
      first
      | assumption | apply State.ingressPost_keeps | fail_if_no_progress apply keeps_mk | apply out_next)
    | split | dsimp only

theorem State.shedEntry_keeps {s0 : State} {s : State} {q : Nat} (hs : Keeps s0 s) :
    Keeps s0 (State.shedEntry s q) := by
  unfold State.shedEntry
  repeat'
    first
    | intro _
    | with_reducible (
      first
      | assumption | apply State.passTo_keeps | apply State.qmErrFree_keeps | apply State.setQueue_keeps | fail_if_no_progress apply keeps_mk
      | apply keeps_ite)
    | split | dsimp only

theorem execShedEntry_keeps {s0 : State} {q : BitVec 17} {s : State} (hs : Keeps s0 s) :
    OutKeeps s0 (execShedEntry q s) := by
  unfold execShedEntry
  repeat'
    first
    | intro _
    | with_reducible (
      first
      | assumption | apply State.shedEntry_keeps | fail_if_no_progress apply keeps_mk | apply out_next)
    | split | dsimp only

theorem execDescRamUe_keeps {s0 : State} {q : BitVec 17} {s : State} (hs : Keeps s0 s) :
    OutKeeps s0 (execDescRamUe q s) := by
  unfold execDescRamUe
  repeat'
    first
    | intro _
    | with_reducible (
      first
      | assumption | apply State.qmErrFree_keeps | apply State.setQueue_keeps | fail_if_no_progress apply keeps_mk | apply out_next)
    | split | dsimp only

theorem State.dropRecords_keeps {s0 : State} {s : State} (hs : Keeps s0 s) :
    Keeps s0 (State.dropRecords s) := by
  unfold State.dropRecords
  repeat'
    first
    | intro _
    | with_reducible (
      first
      | assumption | apply State.setQueue_keeps | apply State.submit_keeps | fail_if_no_progress apply keeps_mk | apply keeps_each | apply keeps_ite)
    | split | dsimp only

theorem execDropRecordSecond_keeps {s0 : State} {s : State} (hs : Keeps s0 s) :
    OutKeeps s0 (execDropRecordSecond s) := by
  unfold execDropRecordSecond
  repeat'
    first
    | intro _
    | with_reducible (
      first
      | assumption | apply State.dropRecords_keeps | apply State.passTo_keeps | fail_if_no_progress apply keeps_mk | apply out_next)
    | split | dsimp only

theorem execQmCntclr_keeps {s0 : State} {r : Requester} {s : State} (hs : Keeps s0 s) :
    OutKeeps s0 (execQmCntclr r s) := by
  unfold execQmCntclr
  repeat'
    first
    | intro _
    | with_reducible (
      first
      | assumption | apply State.plat_keeps | apply State.setQueue_keeps | apply State.reply_keeps | fail_if_no_progress apply keeps_mk
      | apply out_next)
    | split | dsimp only

theorem State.freeStray_keeps {s0 : State} {s : State} {q : Nat} (hs : Keeps s0 s) :
    Keeps s0 (State.freeStray s q) := by
  unfold State.freeStray
  repeat'
    first
    | intro _
    | with_reducible (
      first
      | assumption | apply State.freeBuffer_keeps | fail_if_no_progress apply keeps_mk | apply keeps_each)
    | split | dsimp only

theorem State.requeue_keeps {s0 : State} {s : State} {q : Nat} {removed : Bool} (hs : Keeps s0 s) :
    Keeps s0 (State.requeue s q removed) := by
  unfold State.requeue
  repeat'
    first
    | intro _
    | with_reducible (
      first
      | assumption | apply State.freeStray_keeps | apply State.setQueue_keeps | fail_if_no_progress apply keeps_mk | apply keeps_ite)
    | split | dsimp only

theorem State.reshare_keeps {s0 : State} {s : State} {n : Nat} (hs : Keeps s0 s) :
    Keeps s0 (State.reshare s n) := by
  unfold State.reshare
  repeat'
    first
    | intro _
    | with_reducible (
      first
      | assumption | fail_if_no_progress apply keeps_mk)
    | split | dsimp only

theorem State.rebucket_keeps {s0 : State} {s : State} {t : Nat} (hs : Keeps s0 s) :
    Keeps s0 (State.rebucket s t) := by
  unfold State.rebucket
  repeat'
    first
    | intro _
    | with_reducible (
      first
      | assumption | fail_if_no_progress apply keeps_mk)
    | split | dsimp only

/-! Octotte -/

theorem State.setPort_keeps {s0 : State} {s : State} {p : Nat} {x : OPort} (hs : Keeps s0 s) :
    Keeps s0 (State.setPort s p x) := by
  unfold State.setPort
  repeat'
    first
    | intro _
    | with_reducible (
      first
      | assumption | fail_if_no_progress apply keeps_mk)
    | split | dsimp only

theorem State.modPort_keeps {s0 : State} {s : State} {p : Nat} {f : OPort → OPort} (hs : Keeps s0 s) :
    Keeps s0 (State.modPort s p f) := by
  unfold State.modPort
  repeat'
    first
    | intro _
    | with_reducible (
      first
      | assumption | apply State.setPort_keeps | fail_if_no_progress apply keeps_mk)
    | split | dsimp only

theorem State.octErr_keeps {s0 : State} {s : State} {p : Nat} {f : Fld} (hs : Keeps s0 s) :
    Keeps s0 (State.octErr s p f) := by
  unfold State.octErr
  repeat'
    first
    | intro _
    | with_reducible (
      first
      | assumption | apply State.setErr_keeps | fail_if_no_progress apply keeps_mk)
    | split | dsimp only

theorem State.linkCond_keeps {s0 : State} {s : State} {p : Nat} (hs : Keeps s0 s) :
    Keeps s0 (State.linkCond s p) := by
  unfold State.linkCond
  repeat'
    first
    | intro _
    | with_reducible (
      first
      | assumption | apply State.setCond_keeps | fail_if_no_progress apply keeps_mk)
    | split | dsimp only

theorem State.setLinkUp_keeps {s0 : State} {s : State} {p : Nat} {l : Nat} {b : Bool} (hs : Keeps s0 s) :
    Keeps s0 (State.setLinkUp s p l b) := by
  unfold State.setLinkUp
  repeat'
    first
    | intro _
    | with_reducible (
      first
      | assumption | apply State.linkCond_keeps | apply State.wirePulse_keeps | apply State.wr_keeps | fail_if_no_progress apply keeps_mk
      | apply keeps_ite)
    | split | dsimp only

theorem State.setLane_keeps {s0 : State} {s : State} {p : Nat} {k : Nat} {b : Bool} (hs : Keeps s0 s) :
    Keeps s0 (State.setLane s p k b) := by
  unfold State.setLane
  repeat'
    first
    | intro _
    | with_reducible (
      first
      | assumption | apply State.wr_keeps | fail_if_no_progress apply keeps_mk)
    | split | dsimp only

theorem State.countLanes_keeps {s0 : State} {s : State} {p : Nat} (hs : Keeps s0 s) :
    Keeps s0 (State.countLanes s p) := by
  unfold State.countLanes
  repeat'
    first
    | intro _
    | with_reducible (
      first
      | assumption | apply State.wr_keeps | fail_if_no_progress apply keeps_mk)
    | split | dsimp only

theorem State.setNState_keeps {s0 : State} {s : State} {p : Nat} {v : Nat} (hs : Keeps s0 s) :
    Keeps s0 (State.setNState s p v) := by
  unfold State.setNState
  repeat'
    first
    | intro _
    | with_reducible (
      first
      | assumption | apply State.wr_keeps | apply State.octErr_keeps | apply State.recordReg_keeps | apply State.assert_keeps
      | fail_if_no_progress apply keeps_mk | apply keeps_ite)
    | split | dsimp only

theorem State.emitFlit_keeps {s0 : State} {s : State} {p : Nat} {hdr : Nat} {body : List Byte} (hs : Keeps s0 s) :
    Keeps s0 (State.emitFlit s p hdr body) := by
  unfold State.emitFlit
  repeat'
    first
    | intro _
    | with_reducible (
      first
      | assumption | apply State.emit_keeps | fail_if_no_progress apply keeps_mk)
    | split | dsimp only

theorem State.sendSeq_keeps {s0 : State} {s : State} {p : Nat} {hdr : Nat} {body : List Byte} (hs : Keeps s0 s) :
    Keeps s0 (State.sendSeq s p hdr body) := by
  unfold State.sendSeq
  repeat'
    first
    | intro _
    | with_reducible (
      first
      | assumption | apply State.emitFlit_keeps | apply State.setPort_keeps | fail_if_no_progress apply keeps_mk)
    | split | dsimp only

theorem State.replay_keeps {s0 : State} {s : State} {p : Nat} {seq : Nat} (hs : Keeps s0 s) :
    Keeps s0 (State.replay s p seq) := by
  unfold State.replay
  repeat'
    first
    | intro _
    | with_reducible (
      first
      | assumption | apply State.emitFlit_keeps | apply State.count_keeps | apply State.modPort_keeps | apply State.recordReg_keeps
      | apply State.assert_keeps | fail_if_no_progress apply keeps_mk | apply keeps_each | apply keeps_ite)
    | split | dsimp only

theorem State.sendData_keeps {s0 : State} {s : State} {p : Nat} {v : Nat} (hs : Keeps s0 s) :
    Keeps s0 (State.sendData s p v) := by
  unfold State.sendData
  repeat'
    first
    | intro _
    | with_reducible (
      first
      | assumption | apply State.sendSeq_keeps | apply State.setPort_keeps | apply State.owe_keeps | fail_if_no_progress apply keeps_mk
      | apply keeps_ite)
    | split | dsimp only

theorem State.pump_keeps {s0 : State} {s : State} {p : Nat} {n : Nat} (hs : Keeps s0 s) :
    Keeps s0 (State.pump s p n) := by
  induction n generalizing s with
  | zero =>
    unfold State.pump
    repeat'
      first
      | intro _
      | with_reducible (
        first
        | assumption | apply State.sendSeq_keeps | apply State.setPort_keeps | apply State.sendData_keeps | fail_if_no_progress apply keeps_mk)
      | split | dsimp only
  | succ k ih =>
    unfold State.pump
    repeat'
      first
      | intro _
      | with_reducible (
        first
        | assumption | apply State.sendSeq_keeps | apply State.setPort_keeps | apply State.sendData_keeps | fail_if_no_progress apply keeps_mk)
      | with_reducible apply ih | split | dsimp only

theorem State.pumpAll_keeps {s0 : State} {s : State} (hs : Keeps s0 s) :
    Keeps s0 (State.pumpAll s) := by
  unfold State.pumpAll
  repeat'
    first
    | intro _
    | with_reducible (
      first
      | assumption | apply State.pump_keeps | fail_if_no_progress apply keeps_mk | apply keeps_each)
    | split | dsimp only

theorem State.takeAck_keeps {s0 : State} {s : State} {p : Nat} {ack : Nat} (hs : Keeps s0 s) :
    Keeps s0 (State.takeAck s p ack) := by
  unfold State.takeAck
  repeat'
    first
    | intro _
    | with_reducible (
      first
      | assumption | apply State.setPort_keeps | fail_if_no_progress apply keeps_mk | apply keeps_ite)
    | split | dsimp only

theorem State.discardFlit_keeps {s0 : State} {s : State} {p : Nat} {seqd : Bool} (hs : Keeps s0 s) :
    Keeps s0 (State.discardFlit s p seqd) := by
  unfold State.discardFlit
  repeat'
    first
    | intro _
    | with_reducible (
      first
      | assumption | apply State.count_keeps | apply State.modPort_keeps | fail_if_no_progress apply keeps_mk | apply keeps_ite)
    | split | dsimp only

theorem State.loseNeighbour_keeps {s0 : State} {s : State} {p : Nat} (hs : Keeps s0 s) :
    Keeps s0 (State.loseNeighbour s p) := by
  unfold State.loseNeighbour
  repeat'
    first
    | intro _
    | with_reducible (
      first
      | assumption | apply State.setNState_keeps | apply State.modPort_keeps | fail_if_no_progress apply keeps_mk)
    | split | dsimp only

theorem State.degrade_keeps {s0 : State} {s : State} {p : Nat} {k : Nat} {tell : Bool} (hs : Keeps s0 s) :
    Keeps s0 (State.degrade s p k tell) := by
  unfold State.degrade
  repeat'
    first
    | intro _
    | with_reducible (
      first
      | assumption | apply State.wr_keeps | apply State.countLanes_keeps | apply State.modPort_keeps | apply State.recordReg_keeps
      | apply State.assert_keeps | apply State.octErr_keeps | fail_if_no_progress apply keeps_mk | apply keeps_ite)
    | split | dsimp only

theorem State.rejoin_keeps {s0 : State} {s : State} {p : Nat} {tell : Bool} (hs : Keeps s0 s) :
    Keeps s0 (State.rejoin s p tell) := by
  unfold State.rejoin
  repeat'
    first
    | intro _
    | with_reducible (
      first
      | assumption | apply State.countLanes_keeps | apply State.wr_keeps | apply State.setLane_keeps | apply State.modPort_keeps
      | apply State.recordReg_keeps | apply State.assert_keeps | fail_if_no_progress apply keeps_mk | apply keeps_ite)
    | split | dsimp only

theorem State.dropLink_keeps {s0 : State} {s : State} {p : Nat} {l : Nat} (hs : Keeps s0 s) :
    Keeps s0 (State.dropLink s p l) := by
  unfold State.dropLink
  repeat'
    first
    | intro _
    | with_reducible (
      first
      | assumption | apply State.wr_keeps | apply State.octErr_keeps | apply State.countLanes_keeps | apply State.setLinkUp_keeps
      | apply State.modPort_keeps | apply State.loseNeighbour_keeps | fail_if_no_progress apply keeps_mk | apply keeps_each | apply keeps_ite)
    | split | dsimp only

theorem State.partnerDegrade_keeps {s0 : State} {s : State} {p : Nat} {k : Nat} (hs : Keeps s0 s) :
    Keeps s0 (State.partnerDegrade s p k) := by
  unfold State.partnerDegrade
  repeat'
    first
    | intro _
    | with_reducible (
      first
      | assumption | apply State.degrade_keeps | apply State.dropLink_keeps | fail_if_no_progress apply keeps_mk | apply keeps_ite)
    | split | dsimp only

theorem State.takeCtrl_keeps {s0 : State} {s : State} {p : Nat} {body : List Byte} (hs : Keeps s0 s) :
    Keeps s0 (State.takeCtrl s p body) := by
  unfold State.takeCtrl
  repeat'
    first
    | intro _
    | with_reducible (
      first
      | assumption | apply State.modPort_keeps | apply State.replay_keeps | apply State.partnerDegrade_keeps | apply State.rejoin_keeps
      | fail_if_no_progress apply keeps_mk | apply keeps_fold | apply keeps_fold1 | apply keeps_fold2 | apply keeps_fold3 | apply keeps_ite
      | refine keeps_of_eq (by assumption) ?_ | refine keeps_of_eq2 (by assumption) ?_ | refine keeps_of_eq3 (by assumption) ?_)
    | split | dsimp only

theorem State.sendAck_keeps {s0 : State} {s : State} {p : Nat} (hs : Keeps s0 s) :
    Keeps s0 (State.sendAck s p) := by
  unfold State.sendAck
  repeat'
    first
    | intro _
    | with_reducible (
      first
      | assumption | apply State.emitFlit_keeps | apply State.setPort_keeps | fail_if_no_progress apply keeps_mk)
    | split | dsimp only

theorem State.ackMany_keeps {s0 : State} {s : State} {p : Nat} (hs : Keeps s0 s) :
    Keeps s0 (State.ackMany s p) := by
  unfold State.ackMany
  repeat'
    first
    | intro _
    | with_reducible (
      first
      | assumption | apply State.sendAck_keeps | fail_if_no_progress apply keeps_mk | apply keeps_ite)
    | split | dsimp only

theorem State.rxFlit_keeps {s0 : State} {s : State} {p : Nat} {f : Flit} (hs : Keeps s0 s) :
    Keeps s0 (State.rxFlit s p f) := by
  unfold State.rxFlit
  repeat'
    first
    | intro _
    | with_reducible (
      first
      | assumption | apply State.discardFlit_keeps | apply State.takeAck_keeps | apply State.modPort_keeps | apply State.takeCtrl_keeps
      | apply State.ackMany_keeps | apply State.pumpAll_keeps | fail_if_no_progress apply keeps_mk | apply keeps_ite)
    | split | dsimp only

theorem execFlitReceive_keeps {s0 : State} {p : Fin 6} {f : Flit} {s : State} (hs : Keeps s0 s) :
    OutKeeps s0 (execFlitReceive p f s) := by
  unfold execFlitReceive
  repeat'
    first
    | intro _
    | with_reducible (
      first
      | assumption | apply State.rxFlit_keeps | fail_if_no_progress apply keeps_mk | apply out_next)
    | split | dsimp only

theorem execCtrlFlit_keeps {s0 : State} {p : Fin 6} {f : Flit} {s : State} (hs : Keeps s0 s) :
    OutKeeps s0 (execCtrlFlit p f s) := by
  unfold execCtrlFlit
  repeat'
    first
    | intro _
    | with_reducible (
      first
      | assumption | apply State.rxFlit_keeps | fail_if_no_progress apply keeps_mk | apply out_next)
    | split | dsimp only

theorem execAckTimer_keeps {s0 : State} {p : Fin 6} {s : State} (hs : Keeps s0 s) :
    OutKeeps s0 (execAckTimer p s) := by
  unfold execAckTimer
  repeat'
    first
    | intro _
    | with_reducible (
      first
      | assumption | apply State.sendAck_keeps | apply State.passTo_keeps | fail_if_no_progress apply keeps_mk | apply out_next | apply keeps_ite)
    | split | dsimp only

theorem execDiscSend_keeps {s0 : State} {p : Fin 6} {s : State} (hs : Keeps s0 s) :
    OutKeeps s0 (execDiscSend p s) := by
  unfold execDiscSend
  repeat'
    first
    | intro _
    | with_reducible (
      first
      | assumption | apply State.passTo_keeps | apply State.emit_keeps | apply State.modPort_keeps | fail_if_no_progress apply keeps_mk
      | apply out_next | apply keeps_ite)
    | split | dsimp only

theorem State.discFlit_keeps {s0 : State} {s : State} {p : Nat} {f : DiscFlit} (hs : Keeps s0 s) :
    Keeps s0 (State.discFlit s p f) := by
  unfold State.discFlit
  repeat'
    first
    | intro _
    | with_reducible (
      first
      | assumption | apply State.discardFlit_keeps | apply State.takeAck_keeps | apply State.setReg_keeps | apply State.modPort_keeps
      | apply State.setNState_keeps | apply State.pumpAll_keeps | fail_if_no_progress apply keeps_mk | apply keeps_ite)
    | split | dsimp only

theorem execDiscFlit_keeps {s0 : State} {p : Fin 6} {f : DiscFlit} {s : State} (hs : Keeps s0 s) :
    OutKeeps s0 (execDiscFlit p f s) := by
  unfold execDiscFlit
  repeat'
    first
    | intro _
    | with_reducible (
      first
      | assumption | apply State.discFlit_keeps | fail_if_no_progress apply keeps_mk | apply out_next)
    | split | dsimp only

theorem execNeighbourLost_keeps {s0 : State} {p : Fin 6} {s : State} (hs : Keeps s0 s) :
    OutKeeps s0 (execNeighbourLost p s) := by
  unfold execNeighbourLost
  repeat'
    first
    | intro _
    | with_reducible (
      first
      | assumption | apply State.passTo_keeps | apply State.loseNeighbour_keeps | apply State.modPort_keeps | fail_if_no_progress apply keeps_mk
      | apply out_next)
    | split | dsimp only

theorem execPtpFlitSend_keeps {s0 : State} {p : Fin 6} {s : State} (hs : Keeps s0 s) :
    OutKeeps s0 (execPtpFlitSend p s) := by
  unfold execPtpFlitSend
  repeat'
    first
    | intro _
    | with_reducible (
      first
      | assumption | apply State.passTo_keeps | apply State.emit_keeps | apply State.setPort_keeps | fail_if_no_progress apply keeps_mk
      | apply out_next | apply keeps_ite)
    | split | dsimp only

theorem State.followOff_keeps {s0 : State} {s : State} {p : Nat} {off : ℤ} (hs : Keeps s0 s) :
    Keeps s0 (State.followOff s p off) := by
  unfold State.followOff
  repeat'
    first
    | intro _
    | with_reducible (
      first
      | assumption | apply State.followTai_keeps | fail_if_no_progress apply keeps_mk | apply keeps_ite)
    | split | dsimp only

theorem State.ptpFlit_keeps {s0 : State} {s : State} {p : Nat} {f : PtpFlit} (hs : Keeps s0 s) :
    Keeps s0 (State.ptpFlit s p f) := by
  unfold State.ptpFlit
  repeat'
    first
    | intro _
    | with_reducible (
      first
      | assumption | apply State.discardFlit_keeps | apply State.takeAck_keeps | apply State.setPort_keeps | apply State.followOff_keeps
      | fail_if_no_progress apply keeps_mk | apply keeps_ite)
    | split | dsimp only

theorem execPtpFlit_keeps {s0 : State} {p : Fin 6} {f : PtpFlit} {s : State} (hs : Keeps s0 s) :
    OutKeeps s0 (execPtpFlit p f s) := by
  unfold execPtpFlit
  repeat'
    first
    | intro _
    | with_reducible (
      first
      | assumption | apply State.ptpFlit_keeps | fail_if_no_progress apply keeps_mk | apply out_next)
    | split | dsimp only

theorem State.classify_keeps {s0 : State} {s : State} {f : IFrame} (hs : Keeps s0 s) :
    Keeps s0 (State.classify s f) := by
  unfold State.classify
  repeat'
    first
    | intro _
    | with_reducible (
      first
      | assumption | fail_if_no_progress apply keeps_mk)
    | split | dsimp only

theorem State.deliver_keeps {s0 : State} {s : State} {p : Nat} {vc : Nat} {n : Nat} {bs : List Byte} (hs : Keeps s0 s) :
    Keeps s0 (State.deliver s p vc n bs) := by
  unfold State.deliver
  repeat'
    first
    | intro _
    | with_reducible (
      first
      | assumption | apply State.classify_keeps | apply State.owe_keeps | apply State.count_keeps | fail_if_no_progress apply keeps_mk)
    | split | dsimp only

theorem State.admitMgmt_keeps {s0 : State} {s : State} {p : Nat} {out : Bool} (hs : Keeps s0 s) :
    Keeps s0 (State.admitMgmt s p out).2 := by
  unfold State.admitMgmt
  generalize 10000000000 = big
  extract_lets +onlyGivenNames x sec k n rate lim t
  have ht : Keeps s0 t := State.setPort_keeps hs
  clear_value lim t
  split
  · exact ht
  · dsimp only
    split
    · exact State.octErr_keeps (State.count_keeps ht)
    · exact State.count_keeps ht

theorem State.message_keeps {s0 : State} {s : State} {p : Nat} {vc : Nat} (hs : Keeps s0 s) :
    Keeps s0 (State.message s p vc) := by
  unfold State.message
  repeat'
    first
    | intro _
    | with_reducible (
      first
      | assumption | apply State.modPort_keeps | apply State.owe_keeps | apply State.admitMgmt_keeps | apply State.octErr_keeps
      | apply State.count_keeps | apply State.emit_keeps | apply State.deliver_keeps | apply State.pumpAll_keeps | fail_if_no_progress apply keeps_mk
      | apply keeps_ite | apply keeps_ite1 | apply keeps_ite2 | refine keeps_of_eq (by assumption) ?_ | refine keeps_of_eq2 (by assumption) ?_
      | refine keeps_of_eq3 (by assumption) ?_)
    | split | dsimp only

theorem execMessageReceive_keeps {s0 : State} {p : Fin 6} {vc : Fin 8} {s : State} (hs : Keeps s0 s) :
    OutKeeps s0 (execMessageReceive p vc s) := by
  unfold execMessageReceive
  repeat'
    first
    | intro _
    | with_reducible (
      first
      | assumption | apply State.message_keeps | fail_if_no_progress apply keeps_mk | apply out_next)
    | split | dsimp only

theorem State.stuckDrop_keeps {s0 : State} {s : State} {p : Nat} {vc : Nat} (hs : Keeps s0 s) :
    Keeps s0 (State.stuckDrop s p vc) := by
  unfold State.stuckDrop
  repeat'
    first
    | intro _
    | with_reducible (
      first
      | assumption | apply State.passTo_keeps | apply State.owe_keeps | apply State.modPort_keeps | apply State.pumpAll_keeps
      | apply State.octErr_keeps | apply State.count_keeps | fail_if_no_progress apply keeps_mk)
    | split | dsimp only

theorem execTransitStuckDrop_keeps {s0 : State} {p : Fin 6} {vc : Fin 8} {s : State} (hs : Keeps s0 s) :
    OutKeeps s0 (execTransitStuckDrop p vc s) := by
  unfold execTransitStuckDrop
  repeat'
    first
    | intro _
    | with_reducible (
      first
      | assumption | apply State.stuckDrop_keeps | fail_if_no_progress apply keeps_mk | apply out_next)
    | split | dsimp only

theorem State.laneFail_keeps {s0 : State} {s : State} {p : Nat} {k : Nat} (hs : Keeps s0 s) :
    Keeps s0 (State.laneFail s p k) := by
  unfold State.laneFail
  repeat'
    first
    | intro _
    | with_reducible (
      first
      | assumption | apply State.wr_keeps | apply State.dropLink_keeps | apply State.pumpAll_keeps | apply State.degrade_keeps
      | fail_if_no_progress apply keeps_mk | apply keeps_ite)
    | split | dsimp only

theorem execLaneFailure_keeps {s0 : State} {p : Fin 6} {k : Fin 8} {s : State} (hs : Keeps s0 s) :
    OutKeeps s0 (execLaneFailure p k s) := by
  unfold execLaneFailure
  repeat'
    first
    | intro _
    | with_reducible (
      first
      | assumption | apply State.laneFail_keeps | fail_if_no_progress apply keeps_mk | apply out_next)
    | split | dsimp only

theorem execLaneRejoin_keeps {s0 : State} {p : Fin 6} {s : State} (hs : Keeps s0 s) :
    OutKeeps s0 (execLaneRejoin p s) := by
  unfold execLaneRejoin
  repeat'
    first
    | intro _
    | with_reducible (
      first
      | assumption | apply State.pumpAll_keeps | apply State.rejoin_keeps | apply State.passTo_keeps | fail_if_no_progress apply keeps_mk
      | apply out_next | apply keeps_ite)
    | split | dsimp only

theorem execLinkDown_keeps {s0 : State} {p : Fin 6} {l : Fin 8} {s : State} (hs : Keeps s0 s) :
    OutKeeps s0 (execLinkDown p l s) := by
  unfold execLinkDown
  repeat'
    first
    | intro _
    | with_reducible (
      first
      | assumption | apply State.dropLink_keeps | fail_if_no_progress apply keeps_mk | apply out_next)
    | split | dsimp only

theorem State.raiseLink_keeps {s0 : State} {s : State} {p : Nat} {l : Nat} (hs : Keeps s0 s) :
    Keeps s0 (State.raiseLink s p l) := by
  unfold State.raiseLink
  repeat'
    first
    | intro _
    | with_reducible (
      first
      | assumption | apply State.setLane_keeps | apply State.setLinkUp_keeps | apply State.countLanes_keeps | fail_if_no_progress apply keeps_mk
      | apply keeps_each)
    | split | dsimp only

theorem State.dropFrames_keeps {s0 : State} {s : State} {p : Nat} (hs : Keeps s0 s) :
    Keeps s0 (State.dropFrames s p) := by
  unfold State.dropFrames
  repeat'
    first
    | intro _
    | with_reducible (
      first
      | assumption | apply State.setWaiting_keeps | apply State.unback_keeps | fail_if_no_progress apply keeps_mk | apply keeps_each)
    | split | dsimp only

theorem State.dropHeld_keeps {s0 : State} {s : State} {p : Nat} (hs : Keeps s0 s) :
    Keeps s0 (State.dropHeld s p) := by
  unfold State.dropHeld
  repeat'
    first
    | intro _
    | with_reducible (
      first
      | assumption | apply State.dropFrames_keeps | apply State.setPort_keeps | apply State.owe_keeps | apply State.octErr_keeps
      | apply State.count_keeps | fail_if_no_progress apply keeps_mk | apply keeps_each | apply keeps_ite)
    | split | dsimp only

theorem execLinkRetrainDone_keeps {s0 : State} {p : Fin 6} {l : Fin 8} {ok : Bool} {s : State} (hs : Keeps s0 s) :
    OutKeeps s0 (execLinkRetrainDone p l ok s) := by
  unfold execLinkRetrainDone
  repeat'
    first
    | intro _
    | with_reducible (
      first
      | assumption | apply State.raiseLink_keeps | apply State.pumpAll_keeps | apply State.replay_keeps | apply State.passTo_keeps
      | apply State.dropHeld_keeps | fail_if_no_progress apply keeps_mk | apply out_next | apply keeps_ite)
    | split | dsimp only

theorem execLinkUp_keeps {s0 : State} {p : Fin 6} {l : Fin 8} {sizes : Vector (BitVec 11) 8} {s : State} (hs : Keeps s0 s) :
    OutKeeps s0 (execLinkUp p l sizes s) := by
  unfold execLinkUp
  repeat'
    first
    | intro _
    | with_reducible (
      first
      | assumption | apply State.raiseLink_keeps | apply State.dropHeld_keeps | apply State.pumpAll_keeps | apply State.modPort_keeps
      | fail_if_no_progress apply keeps_mk | apply keeps_fold | apply keeps_fold1 | apply keeps_fold2 | apply keeps_fold3 | apply out_next
      | apply keeps_ite | refine keeps_of_eq (by assumption) ?_ | refine keeps_of_eq2 (by assumption) ?_ | refine keeps_of_eq3 (by assumption) ?_)
    | split | dsimp only

theorem State.releasePort_keeps {s0 : State} {s : State} {p : Nat} (hs : Keeps s0 s) :
    Keeps s0 (State.releasePort s p) := by
  unfold State.releasePort
  repeat'
    first
    | intro _
    | with_reducible (
      first
      | assumption | apply State.linkCond_keeps | apply State.modPort_keeps | apply State.wr_keeps | fail_if_no_progress apply keeps_mk)
    | split | dsimp only

theorem execRelease_keeps {s0 : State} {r : Requester} {p : Fin 6} {s : State} (hs : Keeps s0 s) :
    OutKeeps s0 (execRelease r p s) := by
  unfold execRelease
  repeat'
    first
    | intro _
    | with_reducible (
      first
      | assumption | apply State.reply_keeps | apply State.releasePort_keeps | fail_if_no_progress apply keeps_mk | apply out_next | apply keeps_ite)
    | split | dsimp only

theorem State.newMode_keeps {s0 : State} {s : State} {p : Nat} {m : Nat} (hs : Keeps s0 s) :
    Keeps s0 (State.newMode s p m) := by
  unfold State.newMode
  repeat'
    first
    | intro _
    | with_reducible (
      first
      | assumption | apply State.dropLink_keeps | apply State.wr_keeps | apply State.dropHeld_keeps | apply State.linkCond_keeps
      | apply State.setPort_keeps | fail_if_no_progress apply keeps_mk | apply keeps_each)
    | split | dsimp only

theorem execOctCntclr_keeps {s0 : State} {r : Requester} {p : Fin 6} {s : State} (hs : Keeps s0 s) :
    OutKeeps s0 (execOctCntclr r p s) := by
  unfold execOctCntclr
  repeat'
    first
    | intro _
    | with_reducible (
      first
      | assumption | apply State.plat_keeps | apply State.reply_keeps | apply State.clearRegs_keeps | fail_if_no_progress apply keeps_mk
      | apply out_next)
    | split | dsimp only

end Sys2Proof.Machine
end

