-- ==== Sys2Proof/Laws/KeepsControl.lean ====
section
/-! SUPPORT. What the operations of the vector unit, slots, the loader, boot, keys, update, margin, triggers, Ethernet and register views keep: the queue and the canonical form of memory. -/
set_option linter.unreachableTactic false
set_option linter.unusedTactic false
namespace Sys2Proof.Machine
open Reg

/-! Vsu -/

theorem State.lvReadLine_keeps {s0 : State} {s : State} {e : Nat} {lev : Nat} {key : Nat} {pa : Nat} {port : Option (List Nat)} (hs : Keeps s0 s) :
    Keeps s0 (State.lvReadLine s e lev key pa port).2.2 := by
  unfold State.lvReadLine
  repeat'
    first
    | intro _
    | with_reducible (
      first
      | assumption | apply State.cohRead_keeps | apply State.lvsFetch_keeps | apply State.lvsRead_keeps | apply State.defaultTarget_keeps
      | fail_if_no_progress apply keeps_mk | apply keeps_ite | apply keeps_ite1 | apply keeps_ite2 | refine keeps_of_eq (by assumption) ?_
      | refine keeps_of_eq2 (by assumption) ?_ | refine keeps_of_eq3 (by assumption) ?_)
    | split | dsimp only

theorem State.lvGet_keeps {s0 : State} {s : State} {e : Nat} {b : Nat} {y : LvEntry} {w : Bool} {line : Nat} {ws : List Nat} (hs : Keeps s0 s) :
    Keeps s0 (State.lvGet s e b y w line ws).2 := by
  unfold State.lvGet
  repeat'
    first
    | intro _
    | with_reducible (
      first
      | assumption | apply State.lvReadLine_keeps | fail_if_no_progress apply keeps_mk | apply keeps_ite | apply keeps_ite1 | apply keeps_ite2
      | refine keeps_of_eq (by assumption) ?_ | refine keeps_of_eq2 (by assumption) ?_ | refine keeps_of_eq3 (by assumption) ?_)
    | split | dsimp only

theorem State.lvGets_keeps {s0 : State} {s : State} {e : Nat} {b : Nat} {y : LvEntry} {w : Bool} {ws : List Nat} (hs : Keeps s0 s) :
    Keeps s0 (State.lvGets s e b y w ws).2 := by
  unfold State.lvGets
  repeat'
    first
    | intro _
    | with_reducible (
      first
      | assumption | apply State.lvGet_keeps | fail_if_no_progress apply keeps_mk | apply keeps_fold | apply keeps_fold1 | apply keeps_fold2
      | apply keeps_fold3 | refine keeps_of_eq (by assumption) ?_ | refine keeps_of_eq2 (by assumption) ?_ | refine keeps_of_eq3 (by assumption) ?_)
    | split | dsimp only

theorem State.lvLineWrite_keeps {s0 : State} {s : State} {e : Nat} {b : Nat} {x : LvEntry} {d : Desc} {bs : List (Nat × Byte × LvOut)} {lo : Nat} {hi : Nat} {line : Nat} (hs : Keeps s0 s) :
    Keeps s0 (State.lvLineWrite s e b x d bs lo hi line).2.2 := by
  unfold State.lvLineWrite
  repeat'
    first
    | intro _
    | with_reducible (
      first
      | assumption | apply State.lvGet_keeps | fail_if_no_progress apply keeps_mk | apply keeps_ite | apply keeps_ite1 | apply keeps_ite2
      | refine keeps_of_eq (by assumption) ?_ | refine keeps_of_eq2 (by assumption) ?_ | refine keeps_of_eq3 (by assumption) ?_)
    | split | dsimp only

theorem State.putLine_keeps {s0 : State} {s : State} {w : HeldWrite} (hs : Keeps s0 s) :
    Keeps s0 (State.putLine s w).2 := by
  unfold State.putLine
  repeat'
    first
    | intro _
    | with_reducible (
      first
      | assumption | apply State.cohFull_keeps | apply State.cohPartial_keeps | fail_if_no_progress apply keeps_mk | apply keeps_ite
      | apply keeps_ite1 | apply keeps_ite2 | refine keeps_of_eq (by assumption) ?_ | refine keeps_of_eq2 (by assumption) ?_
      | refine keeps_of_eq3 (by assumption) ?_)
    | split | dsimp only

theorem State.applyWrite_keeps {s0 : State} {s : State} {e : Nat} {lev : Nat} {port : Bool} {w : HeldWrite} (hs : Keeps s0 s) :
    Keeps s0 (State.applyWrite s e lev port w).2 := by
  unfold State.applyWrite
  repeat'
    first
    | intro _
    | with_reducible (
      first
      | assumption | apply State.lvsEnginePut_keeps | apply State.lvsWrite_keeps | apply State.putLine_keeps | apply State.defaultTarget_keeps
      | fail_if_no_progress apply keeps_mk | apply keeps_ite | apply keeps_ite1 | apply keeps_ite2 | refine keeps_of_eq (by assumption) ?_
      | refine keeps_of_eq2 (by assumption) ?_ | refine keeps_of_eq3 (by assumption) ?_)
    | split | dsimp only

theorem State.freezeLv_keeps {s0 : State} {s : State} {e : Nat} {b : Nat} {q : Nat} {foff : Nat} {fstr : Nat} {cstep : Nat} {deferred : Bool} {cause : Nat} {eaddr : Nat} {escr : Nat} {xc : Nat} (hs : Keeps s0 s) :
    Keeps s0 (State.freezeLv s e b q foff fstr cstep deferred cause eaddr escr xc) := by
  unfold State.freezeLv
  repeat'
    first
    | intro _
    | with_reducible (
      first
      | assumption | apply State.modEnt_keeps | apply State.modVsu_keeps | apply State.modAsync_keeps | apply State.count_keeps
      | fail_if_no_progress apply keeps_mk | apply keeps_ite)
    | split | dsimp only

theorem State.lvCompute_keeps {s0 : State} {s : State} {e : Nat} {b : Nat} {x : LvEntry} {lo : Nat} {hi : Nat} {carry : List Nat} {ringIn : List (Tag × Byte)} (hs : Keeps s0 s) :
    Keeps s0 (State.lvCompute s e b x lo hi carry ringIn).2 := by
  unfold State.lvCompute
  repeat'
    first
    | intro _
    | with_reducible (
      first
      | assumption | apply State.lvGets_keeps | apply State.lvLineWrite_keeps | fail_if_no_progress apply keeps_mk | apply keeps_fold
      | apply keeps_fold1 | apply keeps_fold2 | apply keeps_fold3 | apply keeps_ite | apply keeps_ite1 | apply keeps_ite2
      | refine keeps_of_eq (by assumption) ?_ | refine keeps_of_eq2 (by assumption) ?_ | refine keeps_of_eq3 (by assumption) ?_)
    | split | dsimp only

theorem State.orVfcsr_keeps {s0 : State} {s : State} {e : Nat} {b : Nat} {fl : Nat} (hs : Keeps s0 s) :
    Keeps s0 (State.orVfcsr s e b fl) := by
  unfold State.orVfcsr
  repeat'
    first
    | intro _
    | with_reducible (
      first
      | assumption | apply State.modAsync_keeps | fail_if_no_progress apply keeps_mk | apply keeps_ite)
    | split | dsimp only

theorem State.lvRetire_keeps {s0 : State} {s : State} {e : Nat} {b : Nat} {q : Nat} (hs : Keeps s0 s) :
    Keeps s0 (State.lvRetire s e b q) := by
  unfold State.lvRetire
  repeat'
    first
    | intro _
    | with_reducible (
      first
      | assumption | apply State.modVsu_keeps | fail_if_no_progress apply keeps_mk)
    | split | dsimp only

theorem State.lvCommit_keeps {s0 : State} {s : State} {e : Nat} {b : Nat} {q : Nat} {lo : Nat} {next : Nat} {ws : List HeldWrite} {fl : Nat} {carry : List Nat} {carryv : Bool} (hs : Keeps s0 s) :
    Keeps s0 (State.lvCommit s e b q lo next ws fl carry carryv) := by
  unfold State.lvCommit
  repeat'
    first
    | intro _
    | with_reducible (
      first
      | assumption | apply State.applyWrite_keeps | apply State.modEnt_keeps | apply State.orVfcsr_keeps | apply State.setReg_keeps
      | apply State.lvRetire_keeps | fail_if_no_progress apply keeps_mk | apply keeps_fold | apply keeps_fold1 | apply keeps_fold2 | apply keeps_fold3
      | apply keeps_ite | apply keeps_ite1 | apply keeps_ite2 | refine keeps_of_eq (by assumption) ?_ | refine keeps_of_eq2 (by assumption) ?_
      | refine keeps_of_eq3 (by assumption) ?_)
    | split | dsimp only

theorem State.ringBlock_keeps {s0 : State} {s : State} {e : Nat} {b : Nat} {x : LvEntry} (hs : Keeps s0 s) :
    Keeps s0 (State.ringBlock s e b x) := by
  unfold State.ringBlock
  extract_lets +onlyGivenNames r lo hi frozen earlier hdr
  have hh : Keeps s0 hdr.2.2 := by
    unfold hdr
    split
    · exact hs
    · exact hs
    · split
      · exact State.modEnt_keeps (State.modRing_keeps hs)
      · exact hs
  clear_value r lo hi frozen earlier hdr
  obtain ⟨h1, h2, u⟩ := hdr
  dsimp only at hh
  split
  · exact hs
  split
  · exact hs
  split
  · exact State.originate_keeps hh
  extract_lets +onlyGivenNames s1 seg mark bytes ready dd osz base nout
  change Keeps s0 s1 at hh
  clear_value s1 seg mark bytes ready dd osz base nout
  split
  · exact hh
  extract_lets +onlyGivenNames carry c held
  have hc : Keeps s0 c.2 := State.lvCompute_keeps hh
  clear_value carry c held
  split
  · exact hh
  extract_lets +onlyGivenNames t1
  have ht : Keeps s0 t1 := State.modRing_keeps hc
  clear_value t1
  split
  · exact State.originate_keeps ht
  extract_lets +onlyGivenNames nin good rb obs t2 t3
  have h2 : Keeps s0 t2 := State.modRing_keeps ht
  have h3 : Keeps s0 t3 := by
    unfold t3
    split
    · exact State.modEnt_keeps (State.sendDown_keeps h2)
    · exact h2
  clear_value t2 t3
  split
  · exact State.returnCredit_keeps h3
  · exact h3


theorem State.lvBlock_keeps {s0 : State} {s : State} {e : Nat} {q : Nat} (hs : Keeps s0 s) :
    Keeps s0 (State.lvBlock s e q) := by
  unfold State.lvBlock
  repeat'
    first
    | intro _
    | with_reducible (
      first
      | assumption | apply State.ringBlock_keeps | apply State.lvCompute_keeps | apply State.freezeLv_keeps | apply State.lvCommit_keeps
      | fail_if_no_progress apply keeps_mk | apply keeps_ite | apply keeps_ite1 | apply keeps_ite2 | refine keeps_of_eq (by assumption) ?_
      | refine keeps_of_eq2 (by assumption) ?_ | refine keeps_of_eq3 (by assumption) ?_)
    | split | dsimp only

theorem execLvBlockCommit_keeps {s0 : State} {e : EngId} {q : Fin 6} {s : State} (hs : Keeps s0 s) :
    OutKeeps s0 (execLvBlockCommit e q s) := by
  unfold execLvBlockCommit
  repeat'
    first
    | intro _
    | with_reducible (
      first
      | assumption | apply State.lvBlock_keeps | fail_if_no_progress apply keeps_mk | apply out_next)
    | split | dsimp only

theorem execLvComplete_keeps {s0 : State} {e : EngId} {b : Fin 8} {q : Fin 6} {s : State} (hs : Keeps s0 s) :
    OutKeeps s0 (execLvComplete e b q s) := by
  unfold execLvComplete
  repeat'
    first
    | intro _
    | with_reducible (
      first
      | assumption | apply State.lvRetire_keeps | apply State.modEnt_keeps | apply State.modVsu_keeps | fail_if_no_progress apply keeps_mk
      | apply out_next)
    | split | dsimp only

theorem execLvDeferredWriteError_keeps {s0 : State} {e : EngId} {b : Fin 8} {q : Fin 6} {blk : BitVec 18} {resp : BitVec 3} {s : State} (hs : Keeps s0 s) :
    OutKeeps s0 (execLvDeferredWriteError e b q blk resp s) := by
  unfold execLvDeferredWriteError
  repeat'
    first
    | intro _
    | with_reducible (
      first
      | assumption | apply State.modEnt_keeps | apply State.count_keeps | apply State.freezeLv_keeps | apply State.modVsu_keeps
      | fail_if_no_progress apply keeps_mk | apply out_next | apply keeps_ite)
    | split | dsimp only

theorem State.lvClear_keeps {s0 : State} {s : State} {e : Nat} {b : Nat} (hs : Keeps s0 s) :
    Keeps s0 (State.lvClear s e b) := by
  unfold State.lvClear
  repeat'
    first
    | intro _
    | with_reducible (
      first
      | assumption | apply State.modRing_keeps | apply State.originate_keeps | apply State.modVsu_keeps | apply State.modBank_keeps
      | fail_if_no_progress apply keeps_mk | apply keeps_ite)
    | split | dsimp only

theorem State.lvClearRun_keeps {s0 : State} {s : State} {e : Nat} (hs : Keeps s0 s) :
    Keeps s0 (State.lvClearRun s e) := by
  unfold State.lvClearRun
  repeat'
    first
    | intro _
    | with_reducible (
      first
      | assumption | apply State.lvClear_keeps | fail_if_no_progress apply keeps_mk)
    | split | dsimp only

theorem State.lvResume_keeps {s0 : State} {s : State} {e : Nat} {b : Nat} {elem : Nat} (hs : Keeps s0 s) :
    Keeps s0 (State.lvResume s e b elem) := by
  unfold State.lvResume
  repeat'
    first
    | intro _
    | with_reducible (
      first
      | assumption | apply State.modVsu_keeps | fail_if_no_progress apply keeps_mk | apply keeps_ite)
    | split | dsimp only

theorem execRingBeatReceive_keeps {s0 : State} {e : EngId} {bad : Bool} {s : State} (hs : Keeps s0 s) :
    OutKeeps s0 (execRingBeatReceive e bad s) := by
  unfold execRingBeatReceive
  repeat'
    first
    | intro _
    | with_reducible (
      first
      | assumption | apply State.modRing_keeps | apply State.originate_keeps | apply State.count_keeps | apply State.returnCredit_keeps
      | fail_if_no_progress apply keeps_mk | apply out_next | apply keeps_ite)
    | split | dsimp only

theorem execEndMarker_keeps {s0 : State} {e : EngId} {s : State} (hs : Keeps s0 s) :
    OutKeeps s0 (execEndMarker e s) := by
  unfold execEndMarker
  repeat'
    first
    | intro _
    | with_reducible (
      first
      | assumption | apply State.modRing_keeps | fail_if_no_progress apply keeps_mk | apply out_next | apply keeps_ite)
    | split | dsimp only

theorem State.dropBeats_keeps {s0 : State} {s : State} {e : Nat} (hs : Keeps s0 s) :
    Keeps s0 (State.dropBeats s e) := by
  unfold State.dropBeats
  repeat'
    first
    | intro _
    | with_reducible (
      first
      | assumption | apply State.returnCredit_keeps | apply State.modRing_keeps | fail_if_no_progress apply keeps_mk)
    | split | dsimp only

theorem execRewindMarker_keeps {s0 : State} {e : EngId} {s : State} (hs : Keeps s0 s) :
    OutKeeps s0 (execRewindMarker e s) := by
  unfold execRewindMarker
  repeat'
    first
    | intro _
    | with_reducible (
      first
      | assumption | apply State.sendDown_keeps | apply State.count_keeps | apply State.dropBeats_keeps | fail_if_no_progress apply keeps_mk
      | apply out_next)
    | split | dsimp only

theorem execPauseMarker_keeps {s0 : State} {e : EngId} {s : State} (hs : Keeps s0 s) :
    OutKeeps s0 (execPauseMarker e s) := by
  unfold execPauseMarker
  repeat'
    first
    | intro _
    | with_reducible (
      first
      | assumption | apply State.sendDown_keeps | apply State.dropBeats_keeps | fail_if_no_progress apply keeps_mk | apply out_next)
    | split | dsimp only

theorem State.ringCommit_keeps {s0 : State} {s : State} {e : Nat} {r : RingBlock} {rest : List RingBlock} (hs : Keeps s0 s) :
    Keeps s0 (State.ringCommit s e r rest) := by
  unfold State.ringCommit
  repeat'
    first
    | intro _
    | with_reducible (
      first
      | assumption | apply State.returnCredit_keeps | apply State.lvCommit_keeps | apply State.modRing_keeps | fail_if_no_progress apply keeps_mk)
    | split | dsimp only

theorem execBlockDecide_keeps {s0 : State} {e : EngId} {s : State} (hs : Keeps s0 s) :
    OutKeeps s0 (execBlockDecide e s) := by
  unfold execBlockDecide
  repeat'
    first
    | intro _
    | with_reducible (
      first
      | assumption | apply State.sendUp_keeps | apply State.ringCommit_keeps | fail_if_no_progress apply keeps_mk | apply out_next | apply keeps_ite)
    | split | dsimp only

theorem execCommitSignal_keeps {s0 : State} {e : EngId} {s : State} (hs : Keeps s0 s) :
    OutKeeps s0 (execCommitSignal e s) := by
  unfold execCommitSignal
  repeat'
    first
    | intro _
    | with_reducible (
      first
      | assumption | apply State.modRing_keeps | apply State.sendUp_keeps | apply State.ringCommit_keeps | fail_if_no_progress apply keeps_mk
      | apply out_next | apply keeps_ite)
    | split | dsimp only

theorem execCreditReturn_keeps {s0 : State} {e : EngId} {s : State} (hs : Keeps s0 s) :
    OutKeeps s0 (execCreditReturn e s) := by
  unfold execCreditReturn
  repeat'
    first
    | intro _
    | with_reducible (
      first
      | assumption | apply State.modRing_keeps | fail_if_no_progress apply keeps_mk | apply out_next)
    | split | dsimp only

theorem execFreezeSignal_keeps {s0 : State} {e : EngId} {up : Bool} {s : State} (hs : Keeps s0 s) :
    OutKeeps s0 (execFreezeSignal e up s) := by
  unfold execFreezeSignal
  repeat'
    first
    | intro _
    | with_reducible (
      first
      | assumption | apply State.sendUp_keeps | apply State.takeFreeze_keeps | apply State.modRing_keeps | apply State.sendDown_keeps
      | fail_if_no_progress apply keeps_mk | apply out_next | apply keeps_ite)
    | split | dsimp only

theorem State.freezeBare_keeps {s0 : State} {s : State} {e : Nat} {i : FreezeInfo} (hs : Keeps s0 s) :
    Keeps s0 (State.freezeBare s e i) := by
  unfold State.freezeBare
  repeat'
    first
    | intro _
    | with_reducible (
      first
      | assumption | apply State.modVsu_keeps | apply State.modAsync_keeps | fail_if_no_progress apply keeps_mk | apply keeps_ite)
    | split | dsimp only

theorem execFreezeComplete_keeps {s0 : State} {e : EngId} {s : State} (hs : Keeps s0 s) :
    OutKeeps s0 (execFreezeComplete e s) := by
  unfold execFreezeComplete
  repeat'
    first
    | intro _
    | with_reducible (
      first
      | assumption | apply State.count_keeps | apply State.modRing_keeps | apply State.freezeBare_keeps | apply State.freezeLv_keeps
      | fail_if_no_progress apply keeps_mk | apply out_next | apply keeps_ite)
    | split | dsimp only

theorem lvIssue_keeps {s0 : State} {e : Nat} {a : LvAsk} {p1w : BitVec 32} {s : State} (hs : Keeps s0 s) : ResKeeps s0 (lvIssue e a p1w s) := by
  unfold lvIssue
  extract_lets +onlyGivenNames p1 b reg named desc isDesc gk empty
  clear_value empty gk isDesc named
  split
  · exact res_commit hs
  split
  · exact res_fault hs
  extract_lets +onlyGivenNames ty scl sreg st one ch badTag badDec
  clear_value badDec badTag ch one
  split
  · exact res_fault hs
  split
  · exact res_fault (State.setVfcsr_keeps hs)
  extract_lets +onlyGivenNames form mv x y
  clear_value y x mv form
  split
  · exact res_fault hs
  split
  · exact res_fault hs
  extract_lets +onlyGivenNames v slots
  clear_value v slots
  split
  · exact res_stall
  · exact res_commit (State.modEngine_keeps (State.modVsu_keeps hs))


theorem State.lv_keeps {s0 : State} {s : State} {e : Nat} {a : LvAsk} {p1 : BitVec 32} (hs : Keeps s0 s) :
    Keeps s0 (State.lv s e a p1) := by
  unfold State.lv
  repeat'
    first
    | intro _
    | with_reducible (
      first
      | assumption | apply State.issue_keeps | apply lvIssue_keeps | fail_if_no_progress apply keeps_mk | apply res_done | apply res_commit
      | apply res_settle | apply res_fault | apply res_wait | apply res_kept | apply res_stall | refine keeps_of_done (by assumption) ?_
      | refine keeps_of_commit (by assumption) ?_ | refine keeps_of_settle (by assumption) ?_ | refine keeps_of_fault (by assumption) ?_
      | refine keeps_of_wait (by assumption) ?_ | refine keeps_of_kept (by assumption) ?_)
    | split | dsimp only

/-! Slots -/

theorem State.preempt_keeps {s0 : State} {s : State} {e : Nat} (hs : Keeps s0 s) :
    Keeps s0 (State.preempt s e) := by
  unfold State.preempt
  repeat'
    first
    | intro _
    | with_reducible (
      first
      | assumption | apply State.count_keeps | apply State.modBank_keeps | apply State.closing_keeps | apply State.modEngine_keeps
      | fail_if_no_progress apply keeps_mk | apply keeps_ite)
    | split | dsimp only

theorem State.takeSlotExpired_keeps {s0 : State} {s : State} {e : Nat} (hs : Keeps s0 s) :
    Keeps s0 (State.takeSlotExpired s e) := by
  unfold State.takeSlotExpired
  repeat'
    first
    | intro _
    | with_reducible (
      first
      | assumption | apply State.modBank_keeps | apply State.takeException_keeps | apply State.modRun_keeps | fail_if_no_progress apply keeps_mk)
    | split | dsimp only

theorem State.resumePlat_keeps {s0 : State} {s : State} {e : Nat} (hs : Keeps s0 s) :
    Keeps s0 (State.resumePlat s e) := by
  unfold State.resumePlat
  repeat'
    first
    | intro _
    | with_reducible (
      first
      | assumption | apply State.modAsync_keeps | fail_if_no_progress apply keeps_mk | apply keeps_ite)
    | split | dsimp only

theorem State.parkPlat_keeps {s0 : State} {s : State} {e : Nat} (hs : Keeps s0 s) :
    Keeps s0 (State.parkPlat s e) := by
  unfold State.parkPlat
  repeat'
    first
    | intro _
    | with_reducible (
      first
      | assumption | apply State.commitNow_keeps | apply State.modCore_keeps | fail_if_no_progress apply keeps_mk)
    | split | dsimp only

theorem State.beginSlot_keeps {s0 : State} {s : State} {e : Nat} {n : Nat} (hs : Keeps s0 s) :
    Keeps s0 (State.beginSlot s e n) := by
  unfold State.beginSlot
  repeat'
    first
    | intro _
    | with_reducible (
      first
      | assumption | apply State.modEngine_keeps | apply State.setSlotPhase_keeps | apply State.recordReg_keeps | apply State.assert_keeps
      | apply State.count_keeps | apply State.modAsync_keeps | apply State.takeSlotExpired_keeps | fail_if_no_progress apply keeps_mk
      | apply keeps_ite)
    | split | dsimp only

theorem State.slotOverrun_keeps {s0 : State} {s : State} {e : Nat} (hs : Keeps s0 s) :
    Keeps s0 (State.slotOverrun s e) := by
  unfold State.slotOverrun
  repeat'
    first
    | intro _
    | with_reducible (
      first
      | assumption | apply State.recordReg_keeps | apply State.assert_keeps | apply State.count_keeps | fail_if_no_progress apply keeps_mk)
    | split | dsimp only

theorem State.slotStart_keeps {s0 : State} {s : State} {e : Nat} {n : Nat} (hs : Keeps s0 s) :
    Keeps s0 (State.slotStart s e n) := by
  unfold State.slotStart
  split
  · exact hs
  extract_lets +onlyGivenNames c src s1
  have h1 : Keeps s0 s1 := keeps_mk hs
  clear_value c src s1
  split
  · exact State.count_keeps h1
  split
  · exact h1
  extract_lets +onlyGivenNames s2 s3 recov s4
  have h3 : Keeps s0 s3 := State.modEngine_keeps (State.wr_keeps (State.wr_keeps h1))
  have h4 : Keeps s0 s4 := by
    unfold s4
    split
    · exact State.slotOverrun_keeps h3
    · exact h3
  clear_value s4 s3 s2 recov
  split
  · exact State.modEngine_keeps h4
  extract_lets +onlyGivenNames t
  have ht : Keeps s0 t := by
    unfold t
    split
    · split
      · exact State.preempt_keeps h4
      · exact h4
    · split
      · exact h4
      · exact State.parkPlat_keeps h4
  exact State.beginSlot_keeps ht


theorem execSlotStart_keeps {s0 : State} {e : EngId} {n : Fin 64} {s : State} (hs : Keeps s0 s) :
    OutKeeps s0 (execSlotStart e n s) := by
  unfold execSlotStart
  repeat'
    first
    | intro _
    | with_reducible (
      first
      | assumption | apply State.slotStart_keeps | fail_if_no_progress apply keeps_mk | apply out_next)
    | split | dsimp only

theorem execUsablePartEnd_keeps {s0 : State} {e : EngId} {s : State} (hs : Keeps s0 s) :
    OutKeeps s0 (execUsablePartEnd e s) := by
  unfold execUsablePartEnd
  repeat'
    first
    | intro _
    | with_reducible (
      first
      | assumption | apply State.wr_keeps | apply State.modEngine_keeps | apply State.preempt_keeps | fail_if_no_progress apply keeps_mk
      | apply out_next | apply keeps_ite)
    | split | dsimp only

theorem State.leaveSlot_keeps {s0 : State} {s : State} {e : Nat} (hs : Keeps s0 s) :
    Keeps s0 (State.leaveSlot s e) := by
  unfold State.leaveSlot
  repeat'
    first
    | intro _
    | with_reducible (
      first
      | assumption | apply State.resumePlat_keeps | apply State.modAsync_keeps | apply State.modEngine_keeps | apply State.setSlotPhase_keeps
      | fail_if_no_progress apply keeps_mk)
    | split | dsimp only

theorem execSlotEnd_keeps {s0 : State} {e : EngId} {s : State} (hs : Keeps s0 s) :
    OutKeeps s0 (execSlotEnd e s) := by
  unfold execSlotEnd
  repeat'
    first
    | intro _
    | with_reducible (
      first
      | assumption | apply State.wr_keeps | apply State.modAsync_keeps | apply State.leaveSlot_keeps | apply State.preempt_keeps
      | fail_if_no_progress apply keeps_mk | apply out_next | apply keeps_ite)
    | split | dsimp only

theorem State.resumeSlots_keeps {s0 : State} {s : State} {e : Nat} (hs : Keeps s0 s) :
    Keeps s0 (State.resumeSlots s e) := by
  unfold State.resumeSlots
  repeat'
    first
    | intro _
    | with_reducible (
      first
      | assumption | apply State.preempt_keeps | apply State.leaveSlot_keeps | apply State.beginSlot_keeps | apply State.parkPlat_keeps
      | fail_if_no_progress apply keeps_mk | apply keeps_ite)
    | split | dsimp only

theorem State.stopPlat_keeps {s0 : State} {s : State} {e : Nat} (hs : Keeps s0 s) :
    Keeps s0 (State.stopPlat s e) := by
  unfold State.stopPlat
  repeat'
    first
    | intro _
    | with_reducible (
      first
      | assumption | apply State.parkPlat_keeps | apply State.startClosing_keeps | fail_if_no_progress apply keeps_mk | apply keeps_ite)
    | split | dsimp only

theorem execPlatformTimeCutoff_keeps {s0 : State} {e : EngId} {s : State} (hs : Keeps s0 s) :
    OutKeeps s0 (execPlatformTimeCutoff e s) := by
  unfold execPlatformTimeCutoff
  repeat'
    first
    | intro _
    | with_reducible (
      first
      | assumption | apply State.stopPlat_keeps | apply State.modEngine_keeps | fail_if_no_progress apply keeps_mk | apply out_next)
    | split | dsimp only

/-! Sys -/

theorem execSyscall_keeps {s0 : State} {e : EngId} {code : BitVec 16} {s : State} (hs : Keeps s0 s) :
    OutKeeps s0 (execSyscall e code s) := by
  unfold execSyscall
  repeat'
    first
    | intro _
    | with_reducible (
      first
      | assumption | apply State.issue_keeps | fail_if_no_progress apply keeps_mk | apply out_next | apply res_done | apply res_commit
      | apply res_settle | apply res_fault | apply res_wait | apply res_kept | apply res_stall)
    | split | dsimp only

theorem execBreak_keeps {s0 : State} {e : EngId} {s : State} (hs : Keeps s0 s) :
    OutKeeps s0 (execBreak e s) := by
  unfold execBreak
  repeat'
    first
    | intro _
    | with_reducible (
      first
      | assumption | apply State.issue_keeps | fail_if_no_progress apply keeps_mk | apply out_next | apply res_done | apply res_commit
      | apply res_settle | apply res_fault | apply res_wait | apply res_kept | apply res_stall)
    | split | dsimp only

theorem execFence_keeps {s0 : State} {e : EngId} {s : State} (hs : Keeps s0 s) :
    OutKeeps s0 (execFence e s) := by
  unfold execFence
  repeat'
    first
    | intro _
    | with_reducible (
      first
      | assumption | apply State.issue_keeps | apply State.drained_keeps | fail_if_no_progress apply keeps_mk | apply out_next | apply res_done
      | apply res_commit | apply res_settle | apply res_fault | apply res_wait | apply res_kept | apply res_stall
      | refine keeps_of_done (by assumption) ?_ | refine keeps_of_commit (by assumption) ?_ | refine keeps_of_settle (by assumption) ?_
      | refine keeps_of_fault (by assumption) ?_ | refine keeps_of_wait (by assumption) ?_ | refine keeps_of_kept (by assumption) ?_)
    | split | dsimp only

theorem execFenceI_keeps {s0 : State} {e : EngId} {s : State} (hs : Keeps s0 s) :
    OutKeeps s0 (execFenceI e s) := by
  unfold execFenceI
  repeat'
    first
    | intro _
    | with_reducible (
      first
      | assumption | apply State.issue_keeps | apply State.drained_keeps | fail_if_no_progress apply keeps_mk | apply out_next | apply res_done
      | apply res_commit | apply res_settle | apply res_fault | apply res_wait | apply res_kept | apply res_stall
      | refine keeps_of_done (by assumption) ?_ | refine keeps_of_commit (by assumption) ?_ | refine keeps_of_settle (by assumption) ?_
      | refine keeps_of_fault (by assumption) ?_ | refine keeps_of_wait (by assumption) ?_ | refine keeps_of_kept (by assumption) ?_)
    | split | dsimp only

theorem execVwait_keeps {s0 : State} {e : EngId} {mask : BitVec 16} {s : State} (hs : Keeps s0 s) :
    OutKeeps s0 (execVwait e mask s) := by
  unfold execVwait
  repeat'
    first
    | intro _
    | with_reducible (
      first
      | assumption | apply State.issue_keeps | fail_if_no_progress apply keeps_mk | apply out_next | apply res_done | apply res_commit
      | apply res_settle | apply res_fault | apply res_wait | apply res_kept | apply res_stall | apply keeps_ite)
    | split | dsimp only

theorem execSlotyield_keeps {s0 : State} {e : EngId} {s : State} (hs : Keeps s0 s) :
    OutKeeps s0 (execSlotyield e s) := by
  unfold execSlotyield
  repeat'
    first
    | intro _
    | with_reducible (
      first
      | assumption | apply State.issue_keeps | apply State.closing_keeps | fail_if_no_progress apply keeps_mk | apply out_next | apply res_done
      | apply res_commit | apply res_settle | apply res_fault | apply res_wait | apply res_kept | apply res_stall | apply keeps_ite)
    | split | dsimp only

theorem execRdtime_keeps {s0 : State} {e : EngId} {rd : RegNo} {s : State} (hs : Keeps s0 s) :
    OutKeeps s0 (execRdtime e rd s) := by
  unfold execRdtime
  repeat'
    first
    | intro _
    | with_reducible (
      first
      | assumption | apply State.issue_keeps | apply State.setG_keeps | fail_if_no_progress apply keeps_mk | apply out_next | apply res_done
      | apply res_commit | apply res_settle | apply res_fault | apply res_wait | apply res_kept | apply res_stall)
    | split | dsimp only

theorem execRdtimes_keeps {s0 : State} {e : EngId} {rd : RegNo} {s : State} (hs : Keeps s0 s) :
    OutKeeps s0 (execRdtimes e rd s) := by
  unfold execRdtimes
  repeat'
    first
    | intro _
    | with_reducible (
      first
      | assumption | apply State.issue_keeps | apply State.setG_keeps | fail_if_no_progress apply keeps_mk | apply out_next | apply res_done
      | apply res_commit | apply res_settle | apply res_fault | apply res_wait | apply res_kept | apply res_stall | apply keeps_ite)
    | split | dsimp only

theorem execRdtai_keeps {s0 : State} {e : EngId} {rd : RegNo} {s : State} (hs : Keeps s0 s) :
    OutKeeps s0 (execRdtai e rd s) := by
  unfold execRdtai
  repeat'
    first
    | intro _
    | with_reducible (
      first
      | assumption | apply State.issue_keeps | apply State.setG_keeps | fail_if_no_progress apply keeps_mk | apply out_next | apply res_done
      | apply res_commit | apply res_settle | apply res_fault | apply res_wait | apply res_kept | apply res_stall)
    | split | dsimp only

theorem State.fehReturn_keeps {s0 : State} {s : State} {e : Nat} (hs : Keeps s0 s) :
    Keeps s0 (State.fehReturn s e) := by
  unfold State.fehReturn
  repeat'
    first
    | intro _
    | with_reducible (
      first
      | assumption | apply State.unfit_keeps | apply State.modCore_keeps | fail_if_no_progress apply keeps_mk | apply keeps_ite)
    | split | dsimp only

theorem State.returned_keeps {s0 : State} {s : State} {e : Nat} (hs : Keeps s0 s) :
    Keeps s0 (State.returned s e) := by
  unfold State.returned
  repeat'
    first
    | intro _
    | with_reducible (
      first
      | assumption | apply State.stopPlat_keeps | apply State.resumeSlots_keeps | apply State.modCore_keeps | fail_if_no_progress apply keeps_mk
      | apply keeps_ite)
    | split | dsimp only

theorem retxRes_keeps {s0 : State} {e : Nat} {s : State} (hs : Keeps s0 s) :
    ResKeeps s0 (retxRes e s) := by
  unfold retxRes
  repeat'
    first
    | intro _
    | with_reducible (
      first
      | assumption | apply State.returned_keeps | apply State.fehReturn_keeps | apply State.countNi_keeps | apply State.modCore_keeps
      | apply State.lvResume_keeps | fail_if_no_progress apply keeps_mk | apply res_done | apply res_commit | apply res_settle | apply res_fault
      | apply res_wait | apply res_kept | apply res_stall | apply keeps_ite | apply res_ite)
    | split | dsimp only

theorem execRetx_keeps {s0 : State} {e : EngId} {s : State} (hs : Keeps s0 s) :
    OutKeeps s0 (execRetx e s) := by
  unfold execRetx
  repeat'
    first
    | intro _
    | with_reducible (
      first
      | assumption | apply State.issue_keeps | apply retxRes_keeps | fail_if_no_progress apply keeps_mk | apply out_next | apply res_done
      | apply res_commit | apply res_settle | apply res_fault | apply res_wait | apply res_kept | apply res_stall
      | refine keeps_of_done (by assumption) ?_ | refine keeps_of_commit (by assumption) ?_ | refine keeps_of_settle (by assumption) ?_
      | refine keeps_of_fault (by assumption) ?_ | refine keeps_of_wait (by assumption) ?_ | refine keeps_of_kept (by assumption) ?_)
    | split | dsimp only

theorem State.vacateBank_keeps {s0 : State} {s : State} {e : Nat} {b : Nat} (hs : Keeps s0 s) :
    Keeps s0 (State.vacateBank s e b) := by
  unfold State.vacateBank
  repeat'
    first
    | intro _
    | with_reducible (
      first
      | assumption | apply State.modCore_keeps | apply State.setBankTenant_keeps | apply State.modVsu_keeps | fail_if_no_progress apply keeps_mk)
    | split | dsimp only

theorem State.bankCmd_keeps {s0 : State} {s : State} {e : Nat} {op : Nat} (hs : Keeps s0 s) :
    Keeps s0 (State.bankCmd s e op) := by
  unfold State.bankCmd
  repeat'
    first
    | intro _
    | with_reducible (
      first
      | assumption | apply State.modBank_keeps | apply State.vacateBank_keeps | fail_if_no_progress apply keeps_mk | apply keeps_ite)
    | split | dsimp only

theorem State.setEvecM_keeps {s0 : State} {s : State} {e : Nat} {v : Nat} (hs : Keeps s0 s) :
    Keeps s0 (State.setEvecM s e v) := by
  unfold State.setEvecM
  repeat'
    first
    | intro _
    | with_reducible (
      first
      | assumption | apply State.modEngine_keeps | apply State.modBank_keeps | fail_if_no_progress apply keeps_mk)
    | split | dsimp only

theorem State.crStore_keeps {s0 : State} {s : State} {e : Nat} {n : Nat} {v : Nat} (hs : Keeps s0 s) :
    Keeps s0 (State.crStore s e n v) := by
  unfold State.crStore
  repeat'
    first
    | intro _
    | with_reducible (
      first
      | assumption | apply State.modBank_keeps | apply State.setAstat_keeps | apply State.setVfcsr_keeps | apply State.modRun_keeps
      | apply State.lvClearRun_keeps | apply State.modVsu_keeps | apply State.countNi_keeps | apply State.modCore_keeps | apply State.setEvecM_keeps
      | apply State.bankCmd_keeps | fail_if_no_progress apply keeps_mk | apply keeps_ite)
    | split | dsimp only

theorem fehLockedRes_keeps {s0 : State} {s : State} (hs : Keeps s0 s) :
    ResKeeps s0 (fehLockedRes s) := by
  unfold fehLockedRes
  repeat'
    first
    | intro _
    | with_reducible (
      first
      | assumption | apply State.takeFree_keeps | fail_if_no_progress apply keeps_mk | apply res_done | apply res_commit | apply res_settle
      | apply res_fault | apply res_wait | apply res_kept | apply res_stall | refine keeps_of_eq (by assumption) ?_
      | refine keeps_of_eq2 (by assumption) ?_ | refine keeps_of_eq3 (by assumption) ?_)
    | split | dsimp only

theorem crRes_keeps {s0 : State} {e : Nat} {op : Nat} {rd : RegNo} {rs1 : RegNo} {crn : BitVec 12} {s : State} (hs : Keeps s0 s) :
    ResKeeps s0 (crRes e op rd rs1 crn s) := by
  unfold crRes
  repeat'
    first
    | intro _
    | with_reducible (
      first
      | assumption | apply State.countNi_keeps | apply State.setG_keeps | apply fehLockedRes_keeps | apply State.crStore_keeps
      | fail_if_no_progress apply keeps_mk | apply res_done | apply res_commit | apply res_settle | apply res_fault | apply res_wait | apply res_kept
      | apply res_stall | apply keeps_ite | apply res_ite | refine keeps_of_done (by assumption) ?_ | refine keeps_of_commit (by assumption) ?_
      | refine keeps_of_settle (by assumption) ?_ | refine keeps_of_fault (by assumption) ?_ | refine keeps_of_wait (by assumption) ?_
      | refine keeps_of_kept (by assumption) ?_)
    | split | dsimp only

theorem execCrr_keeps {s0 : State} {e : EngId} {rd : RegNo} {crn : BitVec 12} {s : State} (hs : Keeps s0 s) :
    OutKeeps s0 (execCrr e rd crn s) := by
  unfold execCrr
  repeat'
    first
    | intro _
    | with_reducible (
      first
      | assumption | apply State.issue_keeps | apply crRes_keeps | fail_if_no_progress apply keeps_mk | apply out_next | apply res_done
      | apply res_commit | apply res_settle | apply res_fault | apply res_wait | apply res_kept | apply res_stall
      | refine keeps_of_done (by assumption) ?_ | refine keeps_of_commit (by assumption) ?_ | refine keeps_of_settle (by assumption) ?_
      | refine keeps_of_fault (by assumption) ?_ | refine keeps_of_wait (by assumption) ?_ | refine keeps_of_kept (by assumption) ?_)
    | split | dsimp only

theorem execCrw_keeps {s0 : State} {e : EngId} {rd : RegNo} {rs1 : RegNo} {crn : BitVec 12} {s : State} (hs : Keeps s0 s) :
    OutKeeps s0 (execCrw e rd rs1 crn s) := by
  unfold execCrw
  repeat'
    first
    | intro _
    | with_reducible (
      first
      | assumption | apply State.issue_keeps | apply crRes_keeps | fail_if_no_progress apply keeps_mk | apply out_next | apply res_done
      | apply res_commit | apply res_settle | apply res_fault | apply res_wait | apply res_kept | apply res_stall
      | refine keeps_of_done (by assumption) ?_ | refine keeps_of_commit (by assumption) ?_ | refine keeps_of_settle (by assumption) ?_
      | refine keeps_of_fault (by assumption) ?_ | refine keeps_of_wait (by assumption) ?_ | refine keeps_of_kept (by assumption) ?_)
    | split | dsimp only

theorem execCrs_keeps {s0 : State} {e : EngId} {rd : RegNo} {rs1 : RegNo} {crn : BitVec 12} {s : State} (hs : Keeps s0 s) :
    OutKeeps s0 (execCrs e rd rs1 crn s) := by
  unfold execCrs
  repeat'
    first
    | intro _
    | with_reducible (
      first
      | assumption | apply State.issue_keeps | apply crRes_keeps | fail_if_no_progress apply keeps_mk | apply out_next | apply res_done
      | apply res_commit | apply res_settle | apply res_fault | apply res_wait | apply res_kept | apply res_stall
      | refine keeps_of_done (by assumption) ?_ | refine keeps_of_commit (by assumption) ?_ | refine keeps_of_settle (by assumption) ?_
      | refine keeps_of_fault (by assumption) ?_ | refine keeps_of_wait (by assumption) ?_ | refine keeps_of_kept (by assumption) ?_)
    | split | dsimp only

theorem execCrc_keeps {s0 : State} {e : EngId} {rd : RegNo} {rs1 : RegNo} {crn : BitVec 12} {s : State} (hs : Keeps s0 s) :
    OutKeeps s0 (execCrc e rd rs1 crn s) := by
  unfold execCrc
  repeat'
    first
    | intro _
    | with_reducible (
      first
      | assumption | apply State.issue_keeps | apply crRes_keeps | fail_if_no_progress apply keeps_mk | apply out_next | apply res_done
      | apply res_commit | apply res_settle | apply res_fault | apply res_wait | apply res_kept | apply res_stall
      | refine keeps_of_done (by assumption) ?_ | refine keeps_of_commit (by assumption) ?_ | refine keeps_of_settle (by assumption) ?_
      | refine keeps_of_fault (by assumption) ?_ | refine keeps_of_wait (by assumption) ?_ | refine keeps_of_kept (by assumption) ?_)
    | split | dsimp only

theorem State.crCommand_keeps {s0 : State} {s : State} {e : Nat} {lev : Nat} {crn : BitVec 12} {f : State → State} (hf : ∀ t, Keeps s0 t → Keeps s0 (f t)) (hs : Keeps s0 s) :
    Keeps s0 (State.crCommand s e lev crn f) := by
  unfold State.crCommand
  repeat'
    first
    | intro _
    | with_reducible (
      first
      | assumption | apply hf | apply State.issue_keeps | fail_if_no_progress apply keeps_mk | apply res_done | apply res_commit | apply res_settle
      | apply res_fault | apply res_wait | apply res_kept | apply res_stall | apply keeps_ite)
    | split | dsimp only

theorem execClear_keeps {s0 : State} {e : EngId} {s : State} (hs : Keeps s0 s) :
    OutKeeps s0 (execClear e s) := by
  unfold execClear
  repeat'
    first
    | intro _
    | with_reducible (
      first
      | assumption | apply State.crCommand_keeps | apply State.lvClearRun_keeps | fail_if_no_progress apply keeps_mk | apply out_next)
    | split | dsimp only

theorem execEvecM_keeps {s0 : State} {e : EngId} {v : Word} {s : State} (hs : Keeps s0 s) :
    OutKeeps s0 (execEvecM e v s) := by
  unfold execEvecM
  repeat'
    first
    | intro _
    | with_reducible (
      first
      | assumption | apply State.crCommand_keeps | apply State.setEvecM_keeps | fail_if_no_progress apply keeps_mk | apply out_next)
    | split | dsimp only

theorem execResume_keeps {s0 : State} {e : EngId} {s : State} (hs : Keeps s0 s) :
    OutKeeps s0 (execResume e s) := by
  unfold execResume
  repeat'
    first
    | intro _
    | with_reducible (
      first
      | assumption | apply State.crCommand_keeps | apply State.bankCmd_keeps | fail_if_no_progress apply keeps_mk | apply out_next)
    | split | dsimp only

theorem execVacate_keeps {s0 : State} {e : EngId} {s : State} (hs : Keeps s0 s) :
    OutKeeps s0 (execVacate e s) := by
  unfold execVacate
  repeat'
    first
    | intro _
    | with_reducible (
      first
      | assumption | apply State.crCommand_keeps | apply State.bankCmd_keeps | fail_if_no_progress apply keeps_mk | apply out_next)
    | split | dsimp only

theorem State.takeVector_keeps {s0 : State} {s : State} {e : Nat} {f : VFault} (hs : Keeps s0 s) :
    Keeps s0 (State.takeVector s e f) := by
  unfold State.takeVector
  repeat'
    first
    | intro _
    | with_reducible (
      first
      | assumption | apply State.takeException_keeps | apply State.modRun_keeps | fail_if_no_progress apply keeps_mk)
    | split | dsimp only

theorem execExceptionEntry_keeps {s0 : State} {e : EngId} {s : State} (hs : Keeps s0 s) :
    OutKeeps s0 (execExceptionEntry e s) := by
  unfold execExceptionEntry
  repeat'
    first
    | intro _
    | with_reducible (
      first
      | assumption | apply State.takeException_keeps | apply State.takeSlotExpired_keeps | apply State.takeVector_keeps
      | fail_if_no_progress apply keeps_mk | apply out_next | apply keeps_ite)
    | split | dsimp only

theorem execStoreDeferredError_keeps {s0 : State} {e : EngId} {s : State} (hs : Keeps s0 s) :
    OutKeeps s0 (execStoreDeferredError e s) := by
  unfold execStoreDeferredError
  repeat'
    first
    | intro _
    | with_reducible (
      first
      | assumption | apply State.takeException_keeps | apply State.modAsync_keeps | fail_if_no_progress apply keeps_mk | apply out_next
      | apply keeps_ite)
    | split | dsimp only

theorem execInterruptEntry_keeps {s0 : State} {e : EngId} {s : State} (hs : Keeps s0 s) :
    OutKeeps s0 (execInterruptEntry e s) := by
  unfold execInterruptEntry
  repeat'
    first
    | intro _
    | with_reducible (
      first
      | assumption | apply State.enter_keeps | fail_if_no_progress apply keeps_mk | apply out_next | apply keeps_ite)
    | split | dsimp only

theorem execHeldDelivery_keeps {s0 : State} {e : EngId} {s : State} (hs : Keeps s0 s) :
    OutKeeps s0 (execHeldDelivery e s) := by
  unfold execHeldDelivery
  repeat'
    first
    | intro _
    | with_reducible (
      first
      | assumption | apply State.modBank_keeps | apply State.enter_keeps | fail_if_no_progress apply keeps_mk | apply out_next | apply keeps_ite)
    | split | dsimp only

theorem State.promptDeliver_keeps {s0 : State} {s : State} {e : Nat} {i : Nat} {late : Bool} (hs : Keeps s0 s) :
    Keeps s0 (State.promptDeliver s e i late) := by
  unfold State.promptDeliver
  repeat'
    first
    | intro _
    | with_reducible (
      first
      | assumption | apply State.modAsync_keeps | apply State.count_keeps | fail_if_no_progress apply keeps_mk | apply keeps_ite)
    | split | dsimp only

theorem execPromptEntry_keeps {s0 : State} {e : EngId} {late : Bool} {s : State} (hs : Keeps s0 s) :
    OutKeeps s0 (execPromptEntry e late s) := by
  unfold execPromptEntry
  repeat'
    first
    | intro _
    | with_reducible (
      first
      | assumption | apply State.modAsync_keeps | apply State.modCore_keeps | apply State.enter_keeps | fail_if_no_progress apply keeps_mk
      | apply out_next | apply keeps_ite)
    | split | dsimp only

theorem execNiTimeout_keeps {s0 : State} {e : EngId} {s : State} (hs : Keeps s0 s) :
    OutKeeps s0 (execNiTimeout e s) := by
  unfold execNiTimeout
  repeat'
    first
    | intro _
    | with_reducible (
      first
      | assumption | apply State.modBank_keeps | apply State.count_keeps | apply State.modCore_keeps | apply State.recordCode_keeps
      | fail_if_no_progress apply keeps_mk | apply out_next | apply keeps_ite)
    | split | dsimp only

theorem execPromptCopyDone_keeps {s0 : State} {e : EngId} {s : State} (hs : Keeps s0 s) :
    OutKeeps s0 (execPromptCopyDone e s) := by
  unfold execPromptCopyDone
  repeat'
    first
    | intro _
    | with_reducible (
      first
      | assumption | apply State.lvReadLine_keeps | apply State.modEngine_keeps | fail_if_no_progress apply keeps_mk | apply keeps_fold
      | apply keeps_fold1 | apply keeps_fold2 | apply keeps_fold3 | apply out_next | refine keeps_of_eq (by assumption) ?_
      | refine keeps_of_eq2 (by assumption) ?_ | refine keeps_of_eq3 (by assumption) ?_)
    | split | dsimp only

/-! Tango -/

theorem State.scrubBad_keeps {s0 : State} {s : State} {e : Nat} {l : Nat} (hs : Keeps s0 s) :
    Keeps s0 (State.scrubBad s e l) := by
  unfold State.scrubBad
  repeat'
    first
    | intro _
    | with_reducible (
      first
      | assumption | apply State.slcEvent_keeps | apply State.count_keeps | apply State.slcLog_keeps | apply State.cohFull_keeps
      | fail_if_no_progress apply keeps_mk | apply keeps_ite | apply keeps_ite1 | apply keeps_ite2 | refine keeps_of_eq (by assumption) ?_
      | refine keeps_of_eq2 (by assumption) ?_ | refine keeps_of_eq3 (by assumption) ?_)
    | split | dsimp only

theorem State.stewardRecovery_keeps {s0 : State} {s : State} (hs : Keeps s0 s) :
    Keeps s0 (State.stewardRecovery s) := by
  unfold State.stewardRecovery
  repeat'
    first
    | intro _
    | with_reducible (
      first
      | assumption | apply State.recordSev_keeps | apply State.assert_keeps | fail_if_no_progress apply keeps_mk | apply keeps_ite)
    | split | dsimp only

theorem State.countMismatch_keeps {s0 : State} {s : State} {e : Nat} {kind : Nat} {grp : Nat} (hs : Keeps s0 s) :
    Keeps s0 (State.countMismatch s e kind grp) := by
  unfold State.countMismatch
  repeat'
    first
    | intro _
    | with_reducible (
      first
      | assumption | apply State.wr_keeps | apply State.count_keeps | apply State.setReg_keeps | fail_if_no_progress apply keeps_mk | apply keeps_ite)
    | split | dsimp only

theorem State.countUe_keeps {s0 : State} {s : State} {e : Nat} {kind : Nat} {ma : Nat} (hs : Keeps s0 s) :
    Keeps s0 (State.countUe s e kind ma) := by
  unfold State.countUe
  repeat'
    first
    | intro _
    | with_reducible (
      first
      | assumption | apply State.wr_keeps | apply State.count_keeps | fail_if_no_progress apply keeps_mk | apply keeps_ite)
    | split | dsimp only

theorem State.cancelIssue_keeps {s0 : State} {s : State} {e : Nat} {x : Option (Nat × Nat)} (hs : Keeps s0 s) :
    Keeps s0 (State.cancelIssue s e x) := by
  unfold State.cancelIssue
  repeat'
    first
    | intro _
    | with_reducible (
      first
      | assumption | apply State.modVsu_keeps | fail_if_no_progress apply keeps_mk)
    | split | dsimp only

theorem State.rollBack_keeps {s0 : State} {s : State} {e : Nat} (hs : Keeps s0 s) :
    Keeps s0 (State.rollBack s e) := by
  unfold State.rollBack
  repeat'
    first
    | intro _
    | with_reducible (
      first
      | assumption | apply State.cancelIssue_keeps | apply State.modEngine_keeps | apply State.lkrel_keeps | fail_if_no_progress apply keeps_mk)
    | split | dsimp only

theorem State.recovery_keeps {s0 : State} {s : State} {e : Nat} {kind : Nat} {grp : Nat} {ma : Nat} {bad : List Nat} {lost : Bool} (hs : Keeps s0 s) :
    Keeps s0 (State.recovery s e kind grp ma bad lost) := by
  unfold State.recovery
  repeat'
    first
    | intro _
    | with_reducible (
      first
      | assumption | apply State.modEngine_keeps | apply State.rollBack_keeps | apply State.countUe_keeps | apply State.countMismatch_keeps
      | apply State.mendStore_keeps | apply State.dropCores_keeps | apply State.scrubBad_keeps | apply State.retireEngine_keeps
      | apply State.hoAbandon_keeps | apply State.wr_keeps | fail_if_no_progress apply keeps_mk | apply keeps_each | apply keeps_ite)
    | split | dsimp only

theorem execLockstepRecovery_keeps {s0 : State} {e : Option EngId} {kind : Fin 5} {grp : Fin 24} {ma : BitVec 15} {bad : List LineNo} {lost : Bool} {s : State} (hs : Keeps s0 s) :
    OutKeeps s0 (execLockstepRecovery e kind grp ma bad lost s) := by
  unfold execLockstepRecovery
  repeat'
    first
    | intro _
    | with_reducible (
      first
      | assumption | apply State.stewardRecovery_keeps | apply State.recovery_keeps | fail_if_no_progress apply keeps_mk | apply out_next
      | apply keeps_ite)
    | split | dsimp only

theorem execRecoveryEnd_keeps {s0 : State} {e : Option EngId} {late : Bool} {s : State} (hs : Keeps s0 s) :
    OutKeeps s0 (execRecoveryEnd e late s) := by
  unfold execRecoveryEnd
  repeat'
    first
    | intro _
    | with_reducible (
      first
      | assumption | apply State.record_keeps | apply State.assert_keeps | apply State.wr_keeps | apply State.modEngine_keeps
      | apply State.recordReg_keeps | apply State.stopPlat_keeps | apply State.resumeSlots_keeps | apply State.modAsync_keeps
      | apply State.count_keeps | fail_if_no_progress apply keeps_mk | apply out_next | apply keeps_ite)
    | split | dsimp only

theorem execFehTimeout_keeps {s0 : State} {e : EngId} {s : State} (hs : Keeps s0 s) :
    OutKeeps s0 (execFehTimeout e s) := by
  unfold execFehTimeout
  repeat'
    first
    | intro _
    | with_reducible (
      first
      | assumption | apply State.unfit_keeps | fail_if_no_progress apply keeps_mk | apply out_next | apply keeps_ite)
    | split | dsimp only

theorem execResidueRewind_keeps {s0 : State} {e : EngId} {q : Option (Fin 6)} {s : State} (hs : Keeps s0 s) :
    OutKeeps s0 (execResidueRewind e q s) := by
  unfold execResidueRewind
  repeat'
    first
    | intro _
    | with_reducible (
      first
      | assumption | apply State.count_keeps | apply State.modEnt_keeps | apply State.sendDown_keeps | apply State.retireEngine_keeps
      | fail_if_no_progress apply keeps_mk | apply out_next | apply keeps_ite)
    | split | dsimp only

theorem execTakeoverSwap_keeps {s0 : State} {c : Fin 16} {s : State} (hs : Keeps s0 s) :
    OutKeeps s0 (execTakeoverSwap c s) := by
  unfold execTakeoverSwap
  repeat'
    first
    | intro _
    | with_reducible (
      first
      | assumption | apply State.swapIndex_keeps | apply State.count_keeps | apply State.originate_keeps | apply State.updLost_keeps
      | apply State.retireEvent_keeps | apply State.setHoPhase_keeps | fail_if_no_progress apply keeps_mk | apply out_next | apply keeps_ite)
    | split | dsimp only

theorem State.hoCmd_keeps {s0 : State} {s : State} {r : Requester} {ok : Bool} {f : State → State} (hf : ∀ t, Keeps s0 t → Keeps s0 (f t)) (hs : Keeps s0 s) :
    Keeps s0 (State.hoCmd s r ok f) := by
  unfold State.hoCmd
  repeat'
    first
    | intro _
    | with_reducible (
      first
      | assumption | apply hf | apply State.reply_keeps | fail_if_no_progress apply keeps_mk | apply keeps_ite)
    | split | dsimp only

theorem execHandover_keeps {s0 : State} {r : Requester} {c : Fin 16} {i : Fin 16} {timeout : BitVec 16} {s : State} (hs : Keeps s0 s) :
    OutKeeps s0 (execHandover r c i timeout s) := by
  unfold execHandover
  repeat'
    first
    | intro _
    | with_reducible (
      first
      | assumption | apply State.hoCmd_keeps | apply State.hoStart_keeps | fail_if_no_progress apply keeps_mk | apply out_next)
    | split | dsimp only

theorem execRetire_keeps {s0 : State} {r : Requester} {c : Fin 16} {i : Fin 16} {timeout : BitVec 16} {s : State} (hs : Keeps s0 s) :
    OutKeeps s0 (execRetire r c i timeout s) := by
  unfold execRetire
  repeat'
    first
    | intro _
    | with_reducible (
      first
      | assumption | apply State.hoCmd_keeps | apply State.hoStart_keeps | fail_if_no_progress apply keeps_mk | apply out_next)
    | split | dsimp only

theorem execTest_keeps {s0 : State} {r : Requester} {c : Fin 16} {p : Fin 16} {s : State} (hs : Keeps s0 s) :
    OutKeeps s0 (execTest r c p s) := by
  unfold execTest
  repeat'
    first
    | intro _
    | with_reducible (
      first
      | assumption | apply State.hoCmd_keeps | apply State.setHoPhase_keeps | apply State.setRole_keeps | apply State.wr_keeps
      | fail_if_no_progress apply keeps_mk | apply out_next)
    | split | dsimp only

theorem State.freshIndex_keeps {s0 : State} {s : State} {e : Nat} {l : Nat} (hs : Keeps s0 s) :
    Keeps s0 (State.freshIndex s e l) := by
  unfold State.freshIndex
  repeat'
    first
    | intro _
    | with_reducible (
      first
      | assumption | apply State.modEngine_keeps | apply State.setReg_keeps | fail_if_no_progress apply keeps_mk | apply keeps_each)
    | split | dsimp only

theorem execReinstate_keeps {s0 : State} {r : Requester} {c : Fin 16} {p : Fin 16} {s : State} (hs : Keeps s0 s) :
    OutKeeps s0 (execReinstate r c p s) := by
  unfold execReinstate
  repeat'
    first
    | intro _
    | with_reducible (
      first
      | assumption | apply State.hoCmd_keeps | apply State.showRed_keeps | apply State.setSpare_keeps | apply State.setRole_keeps
      | apply State.modEngine_keeps | apply State.setSpmap_keeps | apply State.freshIndex_keeps | apply State.refreshAll_keeps
      | fail_if_no_progress apply keeps_mk | apply out_next)
    | split | dsimp only

theorem execAbort_keeps {s0 : State} {r : Requester} {c : Fin 16} {s : State} (hs : Keeps s0 s) :
    OutKeeps s0 (execAbort r c s) := by
  unfold execAbort
  repeat'
    first
    | intro _
    | with_reducible (
      first
      | assumption | apply State.hoCmd_keeps | apply State.hoAbandon_keeps | fail_if_no_progress apply keeps_mk | apply out_next)
    | split | dsimp only

theorem State.selfTest_keeps {s0 : State} {s : State} {e : Nat} {flags : BitVec 24} (hs : Keeps s0 s) :
    Keeps s0 (State.selfTest s e flags) := by
  unfold State.selfTest
  repeat'
    first
    | intro _
    | with_reducible (
      first
      | assumption | apply State.setReg_keeps | fail_if_no_progress apply keeps_mk | apply keeps_ite)
    | split | dsimp only

theorem execPrecopyDone_keeps {s0 : State} {c : Fin 16} {flags : BitVec 24} {s : State} (hs : Keeps s0 s) :
    OutKeeps s0 (execPrecopyDone c flags s) := by
  unfold execPrecopyDone
  repeat'
    first
    | intro _
    | with_reducible (
      first
      | assumption | apply State.selfTest_keeps | apply State.waitGap_keeps | apply State.copyLvs_keeps | apply State.foxAbandon_keeps
      | apply State.retireEngine_keeps | fail_if_no_progress apply keeps_mk | apply out_next | apply keeps_ite)
    | split | dsimp only

theorem execHandoverSwap_keeps {s0 : State} {c : Fin 16} {s : State} (hs : Keeps s0 s) :
    OutKeeps s0 (execHandoverSwap c s) := by
  unfold execHandoverSwap
  repeat'
    first
    | intro _
    | with_reducible (
      first
      | assumption | apply State.parkPlat_keeps | apply State.swapIndex_keeps | apply State.setHoPhase_keeps | apply State.resumePlat_keeps
      | apply State.count_keeps | apply State.retireEvent_keeps | apply State.updLoad_keeps | apply State.updGo_keeps
      | fail_if_no_progress apply keeps_mk | apply out_next | apply keeps_ite)
    | split | dsimp only

theorem execHandoverTimeout_keeps {s0 : State} {c : Fin 16} {s : State} (hs : Keeps s0 s) :
    OutKeeps s0 (execHandoverTimeout c s) := by
  unfold execHandoverTimeout
  repeat'
    first
    | intro _
    | with_reducible (
      first
      | assumption | apply State.hoAbandon_keeps | fail_if_no_progress apply keeps_mk | apply out_next | apply keeps_ite)
    | split | dsimp only

theorem execEngineTestDone_keeps {s0 : State} {c : Fin 16} {flags : BitVec 24} {good : Bool} {s : State} (hs : Keeps s0 s) :
    OutKeeps s0 (execEngineTestDone c flags good s) := by
  unfold execEngineTestDone
  repeat'
    first
    | intro _
    | with_reducible (
      first
      | assumption | apply State.setHoPhase_keeps | apply State.setRole_keeps | apply State.selfTest_keeps | fail_if_no_progress apply keeps_mk
      | apply out_next | apply keeps_ite)
    | split | dsimp only

theorem State.loadStore_keeps {s0 : State} {s : State} {e : Nat} (hs : Keeps s0 s) :
    Keeps s0 (State.loadStore s e) := by
  unfold State.loadStore
  repeat'
    first
    | intro _
    | with_reducible (
      first
      | assumption | apply State.freshStore_keeps | apply State.modEngine_keeps | apply State.setReg_keeps | apply State.wr_keeps
      | fail_if_no_progress apply keeps_mk | apply keeps_each)
    | split | dsimp only

theorem execSpareLoadDone_keeps {s0 : State} {flags : BitVec 24} {s : State} (hs : Keeps s0 s) :
    OutKeeps s0 (execSpareLoadDone flags s) := by
  unfold execSpareLoadDone
  repeat'
    first
    | intro _
    | with_reducible (
      first
      | assumption | apply State.selfTest_keeps | apply State.wr_keeps | apply State.loadStore_keeps | apply State.retireEngine_keeps
      | apply State.setRole_keeps | apply State.updIndex_keeps | fail_if_no_progress apply keeps_mk | apply out_next | apply keeps_ite)
    | split | dsimp only

/-! Loader -/

theorem State.setElem_keeps {s0 : State} {s : State} {ws : List Word} {offs : List Nat} (hs : Keeps s0 s) :
    Keeps s0 (State.setElem s ws offs) := by
  unfold State.setElem
  repeat'
    first
    | intro _
    | with_reducible (
      first
      | assumption | apply State.setReg_keeps | fail_if_no_progress apply keeps_mk | apply keeps_each)
    | split | dsimp only

theorem State.takeSlotTable_keeps {s0 : State} {s : State} {l : Nat} {ws : List Word} (hs : Keeps s0 s) :
    Keeps s0 (State.takeSlotTable s l ws) := by
  unfold State.takeSlotTable
  repeat'
    first
    | intro _
    | with_reducible (
      first
      | assumption | apply State.setElem_keeps | fail_if_no_progress apply keeps_mk | apply keeps_each)
    | split | dsimp only

theorem State.clearChain_keeps {s0 : State} {s : State} {c : Nat} {h : Nat} {ms : List Nat} (hs : Keeps s0 s) :
    Keeps s0 (State.clearChain s c h ms) := by
  unfold State.clearChain
  repeat'
    first
    | intro _
    | with_reducible (
      first
      | assumption | apply State.takeFreeze_keeps | apply State.recordCode_keeps | fail_if_no_progress apply keeps_mk | apply keeps_each)
    | split | dsimp only

theorem State.takeChains_keeps {s0 : State} {s : State} {c : Nat} {old : List Word} {ws : List Word} {commit : Bool} (hs : Keeps s0 s) :
    Keeps s0 (State.takeChains s c old ws commit) := by
  unfold State.takeChains
  repeat'
    first
    | intro _
    | with_reducible (
      first
      | assumption | apply State.clearChain_keeps | apply State.setReg_keeps | apply State.modRing_keeps | fail_if_no_progress apply keeps_mk
      | apply keeps_each | apply keeps_ite)
    | split | dsimp only

theorem State.takePin_keeps {s0 : State} {s : State} {n : Nat} {ws : List Word} {commit : Bool} (hs : Keeps s0 s) :
    Keeps s0 (State.takePin s n ws commit) := by
  unfold State.takePin
  repeat'
    first
    | intro _
    | with_reducible (
      first
      | assumption | apply State.setElem_keeps | apply State.unsettled_keeps | apply State.edgesSee_keeps | apply State.drivePin_keeps
      | fail_if_no_progress apply keeps_mk | apply keeps_ite)
    | split | dsimp only

theorem State.takePort_keeps {s0 : State} {s : State} {p : Nat} {ws : List Word} (hs : Keeps s0 s) :
    Keeps s0 (State.takePort s p ws) := by
  unfold State.takePort
  repeat'
    first
    | intro _
    | with_reducible (
      first
      | assumption | apply State.newMode_keeps | apply State.setElem_keeps | fail_if_no_progress apply keeps_mk | apply keeps_ite)
    | split | dsimp only

theorem State.takeGav_keeps {s0 : State} {s : State} {ws : List Word} (hs : Keeps s0 s) :
    Keeps s0 (State.takeGav s ws) := by
  unfold State.takeGav
  repeat'
    first
    | intro _
    | with_reducible (
      first
      | assumption | apply State.wr_keeps | apply State.setElem_keeps | apply State.setRate_keeps | apply State.reacquire_keeps
      | apply State.refLost_keeps | fail_if_no_progress apply keeps_mk | apply keeps_ite)
    | split | dsimp only

theorem State.takeTrigger_keeps {s0 : State} {s : State} {n : Nat} {ws : List Word} (hs : Keeps s0 s) :
    Keeps s0 (State.takeTrigger s n ws) := by
  unfold State.takeTrigger
  repeat'
    first
    | intro _
    | with_reducible (
      first
      | assumption | apply State.setElem_keeps | apply State.lateCheck_keeps | fail_if_no_progress apply keeps_mk)
    | split | dsimp only

theorem State.takeSource_keeps {s0 : State} {s : State} {i : Nat} {ws : List Word} (hs : Keeps s0 s) :
    Keeps s0 (State.takeSource s i ws) := by
  unfold State.takeSource
  repeat'
    first
    | intro _
    | with_reducible (
      first
      | assumption | apply State.setSrcCfg_keeps | apply State.setElem_keeps | fail_if_no_progress apply keeps_mk)
    | split | dsimp only

theorem State.newKeys_keeps {s0 : State} {s : State} {t : Nat} (hs : Keeps s0 s) :
    Keeps s0 (State.newKeys s t) := by
  unfold State.newKeys
  repeat'
    first
    | intro _
    | with_reducible (
      first
      | assumption | refine keeps_mem ?_ (fun hm => Mem.keygen_wf _ _ _ hm) | fail_if_no_progress apply keeps_mk)
    | split | dsimp only

theorem State.takeMicro_keeps {s0 : State} {s : State} {k : Nat} {ws : List Word} (hs : Keeps s0 s) :
    Keeps s0 (State.takeMicro s k ws) := by
  unfold State.takeMicro
  repeat'
    first
    | intro _
    | with_reducible (
      first
      | assumption | apply State.modEngine_keeps | fail_if_no_progress apply keeps_mk | apply keeps_each)
    | split | dsimp only

theorem State.takeDecode_keeps {s0 : State} {s : State} {n : Nat} {ws : List Word} (hs : Keeps s0 s) :
    Keeps s0 (State.takeDecode s n ws) := by
  unfold State.takeDecode
  repeat'
    first
    | intro _
    | with_reducible (
      first
      | assumption | apply State.setReg_keeps | fail_if_no_progress apply keeps_mk | apply keeps_each)
    | split | dsimp only

theorem State.takeRec_keeps {s0 : State} {s : State} {old : Sparse (List Word)} {commit : Bool} {r : Rec} (hs : Keeps s0 s) :
    Keeps s0 (State.takeRec s old commit r) := by
  unfold State.takeRec
  repeat'
    first
    | intro _
    | with_reducible (
      first
      | assumption | apply State.takeSlotTable_keeps | apply State.takeChains_keeps | apply State.newKeys_keeps | apply State.requeue_keeps
      | apply State.setElem_keeps | apply State.takeSource_keeps | apply State.takePin_keeps | apply State.takePort_keeps | apply State.takeGav_keeps
      | apply State.takeTrigger_keeps | apply State.takeMicro_keeps | apply State.takeDecode_keeps | apply State.reshare_keeps
      | apply State.rebucket_keeps | fail_if_no_progress apply keeps_mk | apply keeps_each | apply keeps_ite)
    | split | dsimp only

theorem State.takeRecs_keeps {s0 : State} {s : State} {rs : List Rec} {commit : Bool} (hs : Keeps s0 s) :
    Keeps s0 (State.takeRecs s rs commit) := by
  unfold State.takeRecs
  repeat'
    first
    | intro _
    | with_reducible (
      first
      | assumption | apply State.takeRec_keeps | apply State.reserveSlots_keeps | apply State.refreshAll_keeps | fail_if_no_progress apply keeps_mk
      | apply keeps_each | apply keeps_ite)
    | split | dsimp only

theorem State.showCust_keeps {s0 : State} {s : State} {tys : List Nat} (hs : Keeps s0 s) :
    Keeps s0 (State.showCust s tys) := by
  unfold State.showCust
  repeat'
    first
    | intro _
    | with_reducible (
      first
      | assumption | apply State.wr_keeps | fail_if_no_progress apply keeps_mk | apply keeps_each | apply keeps_ite)
    | split | dsimp only

theorem State.fullLoad_keeps {s0 : State} {s : State} {p : PStream} (hs : Keeps s0 s) :
    Keeps s0 (State.fullLoad s p) := by
  unfold State.fullLoad
  repeat'
    first
    | intro _
    | with_reducible (
      first
      | assumption | apply State.wr_keeps | apply State.setReg_keeps | apply State.showCust_keeps | apply State.takeRecs_keeps
      | fail_if_no_progress apply keeps_mk | apply keeps_each)
    | split | dsimp only

theorem State.setStg_keeps {s0 : State} {s : State} {n : Nat} {v : Nat} (hs : Keeps s0 s) :
    Keeps s0 (State.setStg s n v) := by
  unfold State.setStg
  repeat'
    first
    | intro _
    | with_reducible (
      first
      | assumption | apply State.wr_keeps | fail_if_no_progress apply keeps_mk)
    | split | dsimp only

theorem State.setStgCode_keeps {s0 : State} {s : State} {n : Nat} {e : Reject} (hs : Keeps s0 s) :
    Keeps s0 (State.setStgCode s n e) := by
  unfold State.setStgCode
  repeat'
    first
    | intro _
    | with_reducible (
      first
      | assumption | apply State.wr_keeps | fail_if_no_progress apply keeps_mk)
    | split | dsimp only

theorem State.rejectStg_keeps {s0 : State} {s : State} {n : Nat} {e : Reject} (hs : Keeps s0 s) :
    Keeps s0 (State.rejectStg s n e) := by
  unfold State.rejectStg
  repeat'
    first
    | intro _
    | with_reducible (
      first
      | assumption | apply State.wr_keeps | apply State.setStg_keeps | apply State.setStgCode_keeps | fail_if_no_progress apply keeps_mk
      | apply keeps_ite)
    | split | dsimp only

theorem State.readLines_keeps {s0 : State} {s : State} {fw : Bool} {pa : Nat} {key : Nat} {x4 : Nat} (hs : Keeps s0 s) :
    Keeps s0 (State.readLines s fw pa key x4).2 := by
  induction x4 generalizing s fw pa key with
  | zero =>
    unfold State.readLines
    repeat'
      first
      | intro _
      | with_reducible (
        first
        | assumption | apply State.cohRead_keeps | fail_if_no_progress apply keeps_mk | refine keeps_of_eq (by assumption) ?_
        | refine keeps_of_eq2 (by assumption) ?_ | refine keeps_of_eq3 (by assumption) ?_)
      | split | dsimp only
  | succ k ih =>
    unfold State.readLines
    repeat'
      first
      | intro _
      | with_reducible (
        first
        | assumption | apply State.cohRead_keeps | fail_if_no_progress apply keeps_mk | refine keeps_of_eq (by assumption) ?_
        | refine keeps_of_eq2 (by assumption) ?_ | refine keeps_of_eq3 (by assumption) ?_)
      | with_reducible apply ih | split | dsimp only

theorem State.readBytes_keeps {s0 : State} {s : State} {fw : Bool} {pa : Nat} {n : Nat} {key : Nat} (hs : Keeps s0 s) :
    Keeps s0 (State.readBytes s fw pa n key).2 := by
  unfold State.readBytes
  repeat'
    first
    | intro _
    | with_reducible (
      first
      | assumption | apply State.readLines_keeps | fail_if_no_progress apply keeps_mk | refine keeps_of_eq (by assumption) ?_
      | refine keeps_of_eq2 (by assumption) ?_ | refine keeps_of_eq3 (by assumption) ?_)
    | split | dsimp only

theorem State.stgBytes_keeps {s0 : State} {s : State} {n : Nat} (hs : Keeps s0 s) :
    Keeps s0 (State.stgBytes s n).2 := by
  unfold State.stgBytes
  repeat'
    first
    | intro _
    | with_reducible (
      first
      | assumption | apply State.readBytes_keeps | fail_if_no_progress apply keeps_mk | refine keeps_of_eq (by assumption) ?_
      | refine keeps_of_eq2 (by assumption) ?_ | refine keeps_of_eq3 (by assumption) ?_)
    | split | dsimp only

theorem State.stage_keeps {s0 : State} {s : State} {n : Nat} (hs : Keeps s0 s) :
    Keeps s0 (State.stage s n) := by
  unfold State.stage
  repeat'
    first
    | intro _
    | with_reducible (
      first
      | assumption | apply State.reply_keeps | apply State.setStg_keeps | apply State.setStgCode_keeps | fail_if_no_progress apply keeps_mk
      | apply keeps_ite)
    | split | dsimp only

theorem execStage_keeps {s0 : State} {r : Requester} {b : Fin 4} {s : State} (hs : Keeps s0 s) :
    OutKeeps s0 (execStage r b s) := by
  unfold execStage
  repeat'
    first
    | intro _
    | with_reducible (
      first
      | assumption | apply State.plat_keeps | apply State.stage_keeps | fail_if_no_progress apply keeps_mk | apply out_next)
    | split | dsimp only

theorem State.discard_keeps {s0 : State} {s : State} {n : Nat} (hs : Keeps s0 s) :
    Keeps s0 (State.discard s n) := by
  unfold State.discard
  repeat'
    first
    | intro _
    | with_reducible (
      first
      | assumption | apply State.reply_keeps | apply State.setStg_keeps | apply State.setStgCode_keeps | apply State.recordReg_keeps
      | apply State.assert_keeps | fail_if_no_progress apply keeps_mk | apply keeps_ite)
    | split | dsimp only

theorem execDiscard_keeps {s0 : State} {r : Requester} {b : Fin 4} {s : State} (hs : Keeps s0 s) :
    OutKeeps s0 (execDiscard r b s) := by
  unfold execDiscard
  repeat'
    first
    | intro _
    | with_reducible (
      first
      | assumption | apply State.plat_keeps | apply State.discard_keeps | fail_if_no_progress apply keeps_mk | apply out_next)
    | split | dsimp only

theorem State.stageDone_keeps {s0 : State} {s : State} (hs : Keeps s0 s) :
    Keeps s0 (State.stageDone s) := by
  unfold State.stageDone
  repeat'
    first
    | intro _
    | with_reducible (
      first
      | assumption | apply State.stgBytes_keeps | apply State.setReg_keeps | apply State.rejectStg_keeps | apply State.setStg_keeps
      | apply State.recordReg_keeps | apply State.assert_keeps | fail_if_no_progress apply keeps_mk | refine keeps_of_eq (by assumption) ?_
      | refine keeps_of_eq2 (by assumption) ?_ | refine keeps_of_eq3 (by assumption) ?_)
    | split | dsimp only

theorem execStageCheckDone_keeps {s0 : State} {s : State} (hs : Keeps s0 s) :
    OutKeeps s0 (execStageCheckDone s) := by
  unfold execStageCheckDone
  repeat'
    first
    | intro _
    | with_reducible (
      first
      | assumption | apply State.stageDone_keeps | fail_if_no_progress apply keeps_mk | apply out_next)
    | split | dsimp only

theorem State.armBuffer_keeps {s0 : State} {s : State} {n : Nat} {angle : Nat} (hs : Keeps s0 s) :
    Keeps s0 (State.armBuffer s n angle).2 := by
  unfold State.armBuffer
  repeat'
    first
    | intro _
    | with_reducible (
      first
      | assumption | apply State.rejectStg_keeps | apply State.stgBytes_keeps | fail_if_no_progress apply keeps_mk | apply keeps_ite
      | apply keeps_ite1 | apply keeps_ite2 | refine keeps_of_eq (by assumption) ?_ | refine keeps_of_eq2 (by assumption) ?_
      | refine keeps_of_eq3 (by assumption) ?_)
    | split | dsimp only

theorem State.startFill_keeps {s0 : State} {s : State} {n : Nat} (hs : Keeps s0 s) :
    Keeps s0 (State.startFill s n) := by
  unfold State.startFill
  repeat'
    first
    | intro _
    | with_reducible (
      first
      | assumption | apply State.setStg_keeps | fail_if_no_progress apply keeps_mk | apply keeps_ite)
    | split | dsimp only

theorem State.fillDone_keeps {s0 : State} {s : State} (hs : Keeps s0 s) :
    Keeps s0 (State.fillDone s) := by
  unfold State.fillDone
  repeat'
    first
    | intro _
    | with_reducible (
      first
      | assumption | apply State.stgBytes_keeps | apply State.rejectStg_keeps | apply State.setStg_keeps | apply State.recordReg_keeps
      | apply State.assert_keeps | fail_if_no_progress apply keeps_mk | refine keeps_of_eq (by assumption) ?_ | refine keeps_of_eq2 (by assumption) ?_
      | refine keeps_of_eq3 (by assumption) ?_)
    | split | dsimp only

theorem execFillDone_keeps {s0 : State} {s : State} (hs : Keeps s0 s) :
    OutKeeps s0 (execFillDone s) := by
  unfold execFillDone
  repeat'
    first
    | intro _
    | with_reducible (
      first
      | assumption | apply State.fillDone_keeps | fail_if_no_progress apply keeps_mk | apply out_next)
    | split | dsimp only

theorem State.dispOff_keeps {s0 : State} {s : State} (hs : Keeps s0 s) :
    Keeps s0 (State.dispOff s) := by
  unfold State.dispOff
  repeat'
    first
    | intro _
    | with_reducible (
      first
      | assumption | apply State.submit_keeps | apply State.gavErr_keeps | apply State.trigOff_keeps | fail_if_no_progress apply keeps_mk
      | apply keeps_each | apply keeps_ite)
    | split | dsimp only

theorem State.refuseCommit_keeps {s0 : State} {s : State} (hs : Keeps s0 s) :
    Keeps s0 (State.refuseCommit s) := by
  unfold State.refuseCommit
  repeat'
    first
    | intro _
    | with_reducible (
      first
      | assumption | apply State.gavErr_keeps | apply State.assert_keeps | apply State.recordReg_keeps | fail_if_no_progress apply keeps_mk)
    | split | dsimp only

theorem State.commitFire_keeps {s0 : State} {s : State} {n : Nat} {refuse : Bool} (hs : Keeps s0 s) :
    Keeps s0 (State.commitFire s n refuse) := by
  unfold State.commitFire
  repeat'
    first
    | intro _
    | with_reducible (
      first
      | assumption | apply State.refuseCommit_keeps | apply State.takeRecs_keeps | apply State.setReg_keeps | apply State.dispOff_keeps
      | apply State.wr_keeps | apply State.setStg_keeps | apply State.recordReg_keeps | apply State.assert_keeps | fail_if_no_progress apply keeps_mk
      | apply keeps_ite)
    | split | dsimp only

/-! Images -/

theorem State.flashWrite_keeps {s0 : State} {s : State} {a : Nat} {bs : List Byte} (hs : Keeps s0 s) :
    Keeps s0 (State.flashWrite s a bs) := by
  unfold State.flashWrite
  repeat'
    first
    | intro _
    | with_reducible (
      first
      | assumption | fail_if_no_progress apply keeps_mk | apply keeps_fold | apply keeps_fold1 | apply keeps_fold2 | apply keeps_fold3
      | refine keeps_of_eq (by assumption) ?_ | refine keeps_of_eq2 (by assumption) ?_ | refine keeps_of_eq3 (by assumption) ?_)
    | split | dsimp only

theorem State.writeDir_keeps {s0 : State} {s : State} {es : List DirEnt} (hs : Keeps s0 s) :
    Keeps s0 (State.writeDir s es) := by
  unfold State.writeDir
  repeat'
    first
    | intro _
    | with_reducible (
      first
      | assumption | apply State.flashWrite_keeps | fail_if_no_progress apply keeps_mk)
    | split | dsimp only

theorem State.markSlots_keeps {s0 : State} {s : State} {f : DirEnt → Option Nat} (hs : Keeps s0 s) :
    Keeps s0 (State.markSlots s f) := by
  unfold State.markSlots
  repeat'
    first
    | intro _
    | with_reducible (
      first
      | assumption | apply State.writeDir_keeps | fail_if_no_progress apply keeps_mk | apply keeps_ite)
    | split | dsimp only

theorem State.prefer_keeps {s0 : State} {s : State} {kind : Nat} {slot : Nat} (hs : Keeps s0 s) :
    Keeps s0 (State.prefer s kind slot) := by
  unfold State.prefer
  repeat'
    first
    | intro _
    | with_reducible (
      first
      | assumption | apply State.markSlots_keeps | fail_if_no_progress apply keeps_mk | apply keeps_ite)
    | split | dsimp only

theorem State.pickImage_keeps {s0 : State} {s : State} {kind : Nat} {good : List Byte → Bool} (hs : Keeps s0 s) :
    Keeps s0 (State.pickImage s kind good).2 := by
  unfold State.pickImage
  repeat'
    first
    | intro _
    | with_reducible (
      first
      | assumption | apply State.markSlots_keeps | fail_if_no_progress apply keeps_mk | apply keeps_ite | apply keeps_ite1 | apply keeps_ite2
      | refine keeps_of_eq (by assumption) ?_ | refine keeps_of_eq2 (by assumption) ?_ | refine keeps_of_eq3 (by assumption) ?_)
    | split | dsimp only

theorem State.placeDrailo_keeps {s0 : State} {s : State} {pl : List Byte} {ver : Nat} (hs : Keeps s0 s) :
    Keeps s0 (State.placeDrailo s pl ver) := by
  unfold State.placeDrailo
  repeat'
    first
    | intro _
    | with_reducible (
      first
      | assumption | apply State.cohPartial_keeps | fail_if_no_progress apply keeps_mk | apply keeps_each | apply keeps_ite | apply keeps_ite1
      | apply keeps_ite2 | refine keeps_of_eq (by assumption) ?_ | refine keeps_of_eq2 (by assumption) ?_ | refine keeps_of_eq3 (by assumption) ?_)
    | refine keeps_mem ?_ (fun hm => eachDo_wf _ (fun p m => m.setByte _ _) _ (fun _ _ hx => Mem.setByte_wf _ _ _ hx) hm) | split | dsimp only

theorem State.storeImage_keeps {s0 : State} {s : State} {kind : Nat} {img : List Byte} (hs : Keeps s0 s) : Keeps s0 (State.storeImage s kind img) := by
  rw [State.storeImage]
  generalize s.freeSlot kind = o
  cases o with
  | none => exact hs
  | some x => exact State.writeDir_keeps (State.flashWrite_keeps hs)

/-! Boot -/

theorem State.porst_keeps {s0 : State} {s : State} (hs : Keeps s0 s) : Keeps s0 (State.porst s) :=
  ⟨hs.1, fun _ => Mem.reset_wf⟩

theorem execPorstNAssert_keeps {s0 : State} {s : State} (hs : Keeps s0 s) :
    OutKeeps s0 (execPorstNAssert s) := by
  unfold execPorstNAssert
  repeat'
    first
    | intro _
    | with_reducible (
      first
      | assumption | apply State.porst_keeps | fail_if_no_progress apply keeps_mk | apply out_next)
    | split | dsimp only

theorem State.startSurvey_keeps {s0 : State} {s : State} (hs : Keeps s0 s) :
    Keeps s0 (State.startSurvey s) := by
  unfold State.startSurvey
  repeat'
    first
    | intro _
    | with_reducible (
      first
      | assumption | apply State.setReg_keeps | apply State.wr_keeps | fail_if_no_progress apply keeps_mk | apply keeps_ite)
    | split | dsimp only

theorem State.boot7_keeps {s0 : State} {s : State} (hs : Keeps s0 s) :
    Keeps s0 (State.boot7 s) := by
  unfold State.boot7
  repeat'
    first
    | intro _
    | with_reducible (
      first
      | assumption | apply State.releasePort_keeps | apply State.wr_keeps | apply State.modEngine_keeps | apply State.recordReg_keeps
      | apply State.assert_keeps | apply State.emit_keeps | fail_if_no_progress apply keeps_mk | apply keeps_each)
    | split | dsimp only

theorem State.boot6_keeps {s0 : State} {s : State} (hs : Keeps s0 s) :
    Keeps s0 (State.boot6 s) := by
  rw [State.boot6]
  repeat'
    first
    | intro _
    | with_reducible (
      first
      | assumption | apply State.wr_keeps | apply State.pickImage_keeps | apply State.boot7_keeps | apply State.fullLoad_keeps
      | fail_if_no_progress apply keeps_mk | refine keeps_of_eq (by assumption) ?_ | refine keeps_of_eq2 (by assumption) ?_
      | refine keeps_of_eq3 (by assumption) ?_)
    | split | dsimp only

theorem State.firstMap_keeps {s0 : State} {s : State} {failing : List Nat} {c : Nat} (hs : Keeps s0 s) :
    Keeps s0 (State.firstMap s failing c) := by
  unfold State.firstMap
  repeat'
    first
    | intro _
    | with_reducible (
      first
      | assumption | apply State.wr_keeps | apply State.setSpmap_keeps | apply State.showRed_keeps | apply State.setSpare_keeps
      | fail_if_no_progress apply keeps_mk | apply keeps_each | apply keeps_ite)
    | split | dsimp only

theorem State.restoreHours_keeps {s0 : State} {s : State} (hs : Keeps s0 s) :
    Keeps s0 (State.restoreHours s) := by
  unfold State.restoreHours
  repeat'
    first
    | intro _
    | with_reducible (
      first
      | assumption | apply State.wr_keeps | fail_if_no_progress apply keeps_mk | apply keeps_each | apply keeps_fold | apply keeps_fold1
      | apply keeps_fold2 | apply keeps_fold3 | refine keeps_of_eq (by assumption) ?_ | refine keeps_of_eq2 (by assumption) ?_
      | refine keeps_of_eq3 (by assumption) ?_)
    | split | dsimp only

theorem State.boot5_keeps {s0 : State} {s : State} (hs : Keeps s0 s) :
    Keeps s0 (State.boot5 s) := by
  unfold State.boot5
  repeat'
    first
    | intro _
    | with_reducible (
      first
      | assumption | apply State.wr_keeps | apply State.takeFree_keeps | apply State.recordReg_keeps | apply State.assert_keeps
      | apply State.selfTest_keeps | apply State.firstMap_keeps | apply State.boot6_keeps | apply State.startSurvey_keeps
      | apply State.restoreHours_keeps | fail_if_no_progress apply keeps_mk | apply keeps_each | apply keeps_ite | apply keeps_ite1 | apply keeps_ite2
      | refine keeps_of_eq (by assumption) ?_ | refine keeps_of_eq2 (by assumption) ?_ | refine keeps_of_eq3 (by assumption) ?_)
    | split | dsimp only

theorem State.patchRecords_keeps {s0 : State} {s : State} (hs : Keeps s0 s) :
    Keeps s0 (State.patchRecords s) := by
  unfold State.patchRecords
  repeat'
    first
    | intro _
    | with_reducible (
      first
      | assumption | apply State.recordCode_keeps | fail_if_no_progress apply keeps_mk | apply keeps_each)
    | split | dsimp only

theorem State.boot4_keeps {s0 : State} {s : State} (hs : Keeps s0 s) :
    Keeps s0 (State.boot4 s) := by
  rw [State.boot4]
  repeat'
    first
    | intro _
    | with_reducible (
      first
      | assumption | apply State.wr_keeps | apply State.pickImage_keeps | apply State.patchRecords_keeps | apply State.boot5_keeps
      | apply State.setReg_keeps | apply State.modEngine_keeps | fail_if_no_progress apply keeps_mk | apply keeps_each | apply keeps_ite
      | apply keeps_ite1 | apply keeps_ite2 | refine keeps_of_eq (by assumption) ?_ | refine keeps_of_eq2 (by assumption) ?_
      | refine keeps_of_eq3 (by assumption) ?_)
    | split | dsimp only

theorem State.boot3_keeps {s0 : State} {s : State} {pl : List Byte} (hs : Keeps s0 s) :
    Keeps s0 (State.boot3 s pl) := by
  unfold State.boot3
  repeat'
    first
    | intro _
    | with_reducible (
      first
      | assumption | apply State.wr_keeps | apply State.boot4_keeps | apply State.placeDrailo_keeps | fail_if_no_progress apply keeps_mk
      | apply keeps_each)
    | refine keeps_mem ?_ (fun _ => Mem.reset_wf) | split | dsimp only

theorem State.boot2_keeps {s0 : State} {s : State} (hs : Keeps s0 s) :
    Keeps s0 (State.boot2 s) := by
  rw [State.boot2]
  repeat'
    first
    | intro _
    | with_reducible (
      first
      | assumption | apply State.wr_keeps | apply State.pickImage_keeps | apply State.boot3_keeps | fail_if_no_progress apply keeps_mk
      | refine keeps_of_eq (by assumption) ?_ | refine keeps_of_eq2 (by assumption) ?_ | refine keeps_of_eq3 (by assumption) ?_)
    | split | dsimp only

theorem State.showRows_keeps {s0 : State} {s : State} (hs : Keeps s0 s) :
    Keeps s0 (State.showRows s) := by
  unfold State.showRows
  repeat'
    first
    | intro _
    | with_reducible (
      first
      | assumption | apply State.wr_keeps | fail_if_no_progress apply keeps_mk | apply keeps_fold | apply keeps_fold1 | apply keeps_fold2
      | apply keeps_fold3 | refine keeps_of_eq (by assumption) ?_ | refine keeps_of_eq2 (by assumption) ?_ | refine keeps_of_eq3 (by assumption) ?_)
    | split | dsimp only

theorem State.boot1_keeps {s0 : State} {s : State} {b : Board} (hs : Keeps s0 s) :
    Keeps s0 (State.boot1 s b) := by
  unfold State.boot1
  repeat'
    first
    | intro _
    | with_reducible (
      first
      | assumption | apply State.flashWrite_keeps | apply State.wr_keeps | apply State.setReg_keeps | apply State.showRows_keeps
      | fail_if_no_progress apply keeps_mk | apply keeps_each | apply keeps_fold | apply keeps_fold1 | apply keeps_fold2 | apply keeps_fold3
      | apply keeps_ite | refine keeps_of_eq (by assumption) ?_ | refine keeps_of_eq2 (by assumption) ?_ | refine keeps_of_eq3 (by assumption) ?_)
    | split | dsimp only

theorem execPowerOnReset_keeps {s0 : State} {b : Board} {s : State} (hs : Keeps s0 s) :
    OutKeeps s0 (execPowerOnReset b s) := by
  unfold execPowerOnReset
  repeat'
    first
    | intro _
    | with_reducible (
      first
      | assumption | apply State.boot2_keeps | apply State.boot1_keeps | apply State.porst_keeps | fail_if_no_progress apply keeps_mk | apply out_next)
    | split | dsimp only

theorem State.svcReply_keeps {s0 : State} {s : State} {op : Nat} {code : Nat} {seq : Nat} {data : List Byte} (hs : Keeps s0 s) :
    Keeps s0 (State.svcReply s op code seq data) := by
  unfold State.svcReply
  repeat'
    first
    | intro _
    | with_reducible (
      first
      | assumption | apply State.emit_keeps | fail_if_no_progress apply keeps_mk)
    | split | dsimp only

theorem State.svcOnce_keeps {s0 : State} {s : State} {seq : Nat} {f : State → State} (hf : ∀ t, Keeps s0 t → Keeps s0 (f t)) (hs : Keeps s0 s) :
    Keeps s0 (State.svcOnce s seq f) := by
  unfold State.svcOnce
  repeat'
    first
    | intro _
    | with_reducible (
      first
      | assumption | apply hf | apply State.emit_keeps | fail_if_no_progress apply keeps_mk | apply keeps_ite)
    | split | dsimp only

theorem execSvcInfo_keeps {s0 : State} {seq : BitVec 16} {s : State} (hs : Keeps s0 s) :
    OutKeeps s0 (execSvcInfo seq s) := by
  unfold execSvcInfo
  repeat'
    first
    | intro _
    | with_reducible (
      first
      | assumption | apply State.svcOnce_keeps | apply State.svcReply_keeps | fail_if_no_progress apply keeps_mk | apply out_next)
    | split | dsimp only

theorem execSvcOpen_keeps {s0 : State} {seq : BitVec 16} {kind : Byte} {len : BitVec 32} {s : State} (hs : Keeps s0 s) :
    OutKeeps s0 (execSvcOpen seq kind len s) := by
  unfold execSvcOpen
  repeat'
    first
    | intro _
    | with_reducible (
      first
      | assumption | apply State.svcOnce_keeps | apply State.svcReply_keeps | fail_if_no_progress apply keeps_mk | apply out_next | apply keeps_ite)
    | split | dsimp only

theorem execSvcData_keeps {s0 : State} {seq : BitVec 16} {off : BitVec 32} {data : List Byte} {s : State} (hs : Keeps s0 s) :
    OutKeeps s0 (execSvcData seq off data s) := by
  unfold execSvcData
  repeat'
    first
    | intro _
    | with_reducible (
      first
      | assumption | apply State.svcOnce_keeps | apply State.svcReply_keeps | fail_if_no_progress apply keeps_mk | apply keeps_fold
      | apply keeps_fold1 | apply keeps_fold2 | apply keeps_fold3 | apply out_next | apply keeps_ite | refine keeps_of_eq (by assumption) ?_
      | refine keeps_of_eq2 (by assumption) ?_ | refine keeps_of_eq3 (by assumption) ?_)
    | split | dsimp only

theorem execSvcStatus_keeps {s0 : State} {seq : BitVec 16} {s : State} (hs : Keeps s0 s) :
    OutKeeps s0 (execSvcStatus seq s) := by
  unfold execSvcStatus
  repeat'
    first
    | intro _
    | with_reducible (
      first
      | assumption | apply State.svcOnce_keeps | apply State.svcReply_keeps | fail_if_no_progress apply keeps_mk | apply out_next)
    | split | dsimp only

theorem State.svcResume_keeps {s0 : State} {s : State} {kind : Nat} {slot : Nat} (hs : Keeps s0 s) :
    Keeps s0 (State.svcResume s kind slot) := by
  unfold State.svcResume
  repeat'
    first
    | intro _
    | with_reducible (
      first
      | assumption | apply State.wr_keeps | apply State.prefer_keeps | apply State.boot2_keeps | apply State.boot4_keeps | apply State.boot6_keeps
      | fail_if_no_progress apply keeps_mk | apply keeps_ite)
    | split | dsimp only

theorem execSvcClose_keeps {s0 : State} {seq : BitVec 16} {s : State} (hs : Keeps s0 s) :
    OutKeeps s0 (execSvcClose seq s) := by
  unfold execSvcClose
  repeat'
    first
    | intro _
    | with_reducible (
      first
      | assumption | apply State.svcOnce_keeps | apply State.svcReply_keeps | apply State.storeImage_keeps | apply State.recordReg_keeps
      | apply State.assert_keeps | apply State.svcResume_keeps | fail_if_no_progress apply keeps_mk | apply out_next | apply keeps_ite)
    | split | dsimp only

/-! Keys -/

theorem State.busRead_keeps {s0 : State} {s : State} {pa : Nat} {key : Nat} (hs : Keeps s0 s) :
    Keeps s0 (State.busRead s pa key).2.2 := by
  unfold State.busRead
  repeat'
    first
    | intro _
    | with_reducible (
      first
      | assumption | apply State.cohRead_keeps | apply State.lvsRead_keeps | fail_if_no_progress apply keeps_mk
      | refine keeps_of_eq (by assumption) ?_ | refine keeps_of_eq2 (by assumption) ?_ | refine keeps_of_eq3 (by assumption) ?_)
    | split | dsimp only

theorem State.busWrite_keeps {s0 : State} {s : State} {pa : Nat} {key : Nat} {bs : List Byte} (hs : Keeps s0 s) :
    Keeps s0 (State.busWrite s pa key bs).2 := by
  unfold State.busWrite
  repeat'
    first
    | intro _
    | with_reducible (
      first
      | assumption | apply State.cohPartial_keeps | apply State.lvsWrite_keeps | fail_if_no_progress apply keeps_mk
      | refine keeps_of_eq (by assumption) ?_ | refine keeps_of_eq2 (by assumption) ?_ | refine keeps_of_eq3 (by assumption) ?_)
    | split | dsimp only

theorem State.busLines_keeps {s0 : State} {s : State} {pa : Nat} {x2 : Nat} (hs : Keeps s0 s) :
    Keeps s0 (State.busLines s pa x2).2.2 := by
  induction x2 generalizing s pa with
  | zero =>
    unfold State.busLines
    repeat'
      first
      | intro _
      | with_reducible (
        first
        | assumption | apply State.busRead_keeps | fail_if_no_progress apply keeps_mk | refine keeps_of_eq (by assumption) ?_
        | refine keeps_of_eq2 (by assumption) ?_ | refine keeps_of_eq3 (by assumption) ?_)
      | split | dsimp only
  | succ k ih =>
    unfold State.busLines
    repeat'
      first
      | intro _
      | with_reducible (
        first
        | assumption | apply State.busRead_keeps | fail_if_no_progress apply keeps_mk | refine keeps_of_eq (by assumption) ?_
        | refine keeps_of_eq2 (by assumption) ?_ | refine keeps_of_eq3 (by assumption) ?_)
      | with_reducible apply ih | split | dsimp only

theorem State.busBytes_keeps {s0 : State} {s : State} {pa : Nat} {n : Nat} (hs : Keeps s0 s) :
    Keeps s0 (State.busBytes s pa n).2.2 := by
  unfold State.busBytes
  repeat'
    first
    | intro _
    | with_reducible (
      first
      | assumption | apply State.busLines_keeps | fail_if_no_progress apply keeps_mk | apply keeps_ite | apply keeps_ite1 | apply keeps_ite2
      | refine keeps_of_eq (by assumption) ?_ | refine keeps_of_eq2 (by assumption) ?_ | refine keeps_of_eq3 (by assumption) ?_)
    | split | dsimp only

theorem State.busPut_keeps {s0 : State} {s : State} {pa : Nat} {bs : List Byte} {x3 : Nat} (hs : Keeps s0 s) :
    Keeps s0 (State.busPut s pa bs x3) := by
  induction x3 generalizing s pa bs with
  | zero =>
    unfold State.busPut
    repeat'
      first
      | intro _
      | with_reducible (
        first
        | assumption | apply State.busWrite_keeps | fail_if_no_progress apply keeps_mk | refine keeps_of_eq (by assumption) ?_
        | refine keeps_of_eq2 (by assumption) ?_ | refine keeps_of_eq3 (by assumption) ?_)
      | split | dsimp only
  | succ k ih =>
    unfold State.busPut
    repeat'
      first
      | intro _
      | with_reducible (
        first
        | assumption | apply State.busWrite_keeps | fail_if_no_progress apply keeps_mk | refine keeps_of_eq (by assumption) ?_
        | refine keeps_of_eq2 (by assumption) ?_ | refine keeps_of_eq3 (by assumption) ?_)
      | with_reducible apply ih | split | dsimp only

theorem State.kePut_keeps {s0 : State} {s : State} {bs : List Byte} (hs : Keeps s0 s) :
    Keeps s0 (State.kePut s bs) := by
  unfold State.kePut
  repeat'
    first
    | intro _
    | with_reducible (
      first
      | assumption | apply State.busPut_keeps | fail_if_no_progress apply keeps_mk)
    | split | dsimp only

theorem State.keStart_keeps {s0 : State} {s : State} {r : Requester} {w : Nat} (hs : Keeps s0 s) :
    Keeps s0 (State.keStart s r w) := by
  unfold State.keStart
  repeat'
    first
    | intro _
    | with_reducible (
      first
      | assumption | apply State.reply_keeps | apply State.wr_keeps | fail_if_no_progress apply keeps_mk | apply keeps_ite)
    | split | dsimp only

theorem execVerify_keeps {s0 : State} {r : Requester} {s : State} (hs : Keeps s0 s) :
    OutKeeps s0 (execVerify r s) := by
  unfold execVerify
  repeat'
    first
    | intro _
    | with_reducible (
      first
      | assumption | apply State.keStart_keeps | fail_if_no_progress apply keeps_mk | apply out_next)
    | split | dsimp only

theorem execEcdh_keeps {s0 : State} {r : Requester} {ksel : Bool} {s : State} (hs : Keeps s0 s) :
    OutKeeps s0 (execEcdh r ksel s) := by
  unfold execEcdh
  repeat'
    first
    | intro _
    | with_reducible (
      first
      | assumption | apply State.keStart_keeps | fail_if_no_progress apply keeps_mk | apply out_next)
    | split | dsimp only

theorem execSha384_keeps {s0 : State} {r : Requester} {s : State} (hs : Keeps s0 s) :
    OutKeeps s0 (execSha384 r s) := by
  unfold execSha384
  repeat'
    first
    | intro _
    | with_reducible (
      first
      | assumption | apply State.keStart_keeps | fail_if_no_progress apply keeps_mk | apply out_next)
    | split | dsimp only

theorem execGcmDecrypt_keeps {s0 : State} {r : Requester} {kslot : Fin 4} {s : State} (hs : Keeps s0 s) :
    OutKeeps s0 (execGcmDecrypt r kslot s) := by
  unfold execGcmDecrypt
  repeat'
    first
    | intro _
    | with_reducible (
      first
      | assumption | apply State.keStart_keeps | fail_if_no_progress apply keeps_mk | apply out_next)
    | split | dsimp only

theorem execGcmEncrypt_keeps {s0 : State} {r : Requester} {kslot : Fin 4} {s : State} (hs : Keeps s0 s) :
    OutKeeps s0 (execGcmEncrypt r kslot s) := by
  unfold execGcmEncrypt
  repeat'
    first
    | intro _
    | with_reducible (
      first
      | assumption | apply State.keStart_keeps | fail_if_no_progress apply keeps_mk | apply out_next)
    | split | dsimp only

theorem execXts_keeps {s0 : State} {r : Requester} {kslot : Fin 4} {dir : Bool} {s : State} (hs : Keeps s0 s) :
    OutKeeps s0 (execXts r kslot dir s) := by
  unfold execXts
  repeat'
    first
    | intro _
    | with_reducible (
      first
      | assumption | apply State.keStart_keeps | fail_if_no_progress apply keeps_mk | apply out_next)
    | split | dsimp only

theorem execDerive_keeps {s0 : State} {r : Requester} {kslot : Fin 4} {s : State} (hs : Keeps s0 s) :
    OutKeeps s0 (execDerive r kslot s) := by
  unfold execDerive
  repeat'
    first
    | intro _
    | with_reducible (
      first
      | assumption | apply State.keStart_keeps | fail_if_no_progress apply keeps_mk | apply out_next)
    | split | dsimp only

theorem execKeygen_keeps {s0 : State} {r : Requester} {s : State} (hs : Keeps s0 s) :
    OutKeeps s0 (execKeygen r s) := by
  unfold execKeygen
  repeat'
    first
    | intro _
    | with_reducible (
      first
      | assumption | apply State.keStart_keeps | fail_if_no_progress apply keeps_mk | apply out_next)
    | split | dsimp only

theorem execRandom_keeps {s0 : State} {r : Requester} {s : State} (hs : Keeps s0 s) :
    OutKeeps s0 (execRandom r s) := by
  unfold execRandom
  repeat'
    first
    | intro _
    | with_reducible (
      first
      | assumption | apply State.keStart_keeps | fail_if_no_progress apply keeps_mk | apply out_next)
    | split | dsimp only

theorem State.keRandom_keeps {s0 : State} {s : State} {n : Nat} (hs : Keeps s0 s) :
    Keeps s0 (State.keRandom s n).2 := by
  unfold State.keRandom
  repeat'
    first
    | intro _
    | with_reducible (
      first
      | assumption | apply State.takeFreeN_keeps | fail_if_no_progress apply keeps_mk | refine keeps_of_eq (by assumption) ?_
      | refine keeps_of_eq2 (by assumption) ?_ | refine keeps_of_eq3 (by assumption) ?_)
    | split | dsimp only

theorem State.keRun_keeps {s0 : State} {s : State} {op : Nat} {len : Nat} {bs : List Byte} (hs : Keeps s0 s) :
    Keeps s0 (State.keRun s op len bs).2 := by
  unfold State.keRun
  repeat'
    first
    | intro _
    | with_reducible (
      first
      | assumption | apply State.keRandom_keeps | apply State.kePut_keeps | apply State.newKeys_keeps | fail_if_no_progress apply keeps_mk
      | apply keeps_ite | apply keeps_ite1 | apply keeps_ite2 | refine keeps_of_eq (by assumption) ?_ | refine keeps_of_eq2 (by assumption) ?_
      | refine keeps_of_eq3 (by assumption) ?_)
    | split | dsimp only

theorem State.keDone_keeps {s0 : State} {s : State} (hs : Keeps s0 s) :
    Keeps s0 (State.keDone s) := by
  unfold State.keDone
  repeat'
    first
    | intro _
    | with_reducible (
      first
      | assumption | apply State.pass_keeps | apply State.busBytes_keeps | apply State.keRun_keeps | apply State.wr_keeps | apply State.setErr_keeps
      | fail_if_no_progress apply keeps_mk | apply keeps_ite | apply keeps_ite1 | apply keeps_ite2 | refine keeps_of_eq (by assumption) ?_
      | refine keeps_of_eq2 (by assumption) ?_ | refine keeps_of_eq3 (by assumption) ?_)
    | split | dsimp only

theorem execKeDone_keeps {s0 : State} {s : State} (hs : Keeps s0 s) :
    OutKeeps s0 (execKeDone s) := by
  unfold execKeDone
  repeat'
    first
    | intro _
    | with_reducible (
      first
      | assumption | apply State.keDone_keeps | fail_if_no_progress apply keeps_mk | apply out_next)
    | split | dsimp only

/-! Update -/

theorem State.updPrepare_keeps {s0 : State} {s : State} {v : Nat} (hs : Keeps s0 s) :
    Keeps s0 (State.updPrepare s v) := by
  unfold State.updPrepare
  repeat'
    first
    | intro _
    | with_reducible (
      first
      | assumption | apply State.reply_keeps | apply State.updPhase_keeps | apply State.wr_keeps | fail_if_no_progress apply keeps_mk
      | apply keeps_ite)
    | split | dsimp only

theorem execPrepare_keeps {s0 : State} {r : Requester} {v : BitVec 16} {s : State} (hs : Keeps s0 s) :
    OutKeeps s0 (execPrepare r v s) := by
  unfold execPrepare
  repeat'
    first
    | intro _
    | with_reducible (
      first
      | assumption | apply State.plat_keeps | apply State.updPrepare_keeps | fail_if_no_progress apply keeps_mk | apply out_next)
    | split | dsimp only

theorem State.prepareDone_keeps {s0 : State} {s : State} (hs : Keeps s0 s) :
    Keeps s0 (State.prepareDone s) := by
  unfold State.prepareDone
  repeat'
    first
    | intro _
    | with_reducible (
      first
      | assumption | apply State.updStop_keeps | apply State.updPhase_keeps | apply State.wr_keeps | apply State.placeDrailo_keeps
      | fail_if_no_progress apply keeps_mk | apply keeps_fold | apply keeps_fold1 | apply keeps_fold2 | apply keeps_fold3 | apply keeps_ite
      | refine keeps_of_eq (by assumption) ?_ | refine keeps_of_eq2 (by assumption) ?_ | refine keeps_of_eq3 (by assumption) ?_)
    | split | dsimp only

theorem execPrepareDone_keeps {s0 : State} {s : State} (hs : Keeps s0 s) :
    OutKeeps s0 (execPrepareDone s) := by
  unfold execPrepareDone
  repeat'
    first
    | intro _
    | with_reducible (
      first
      | assumption | apply State.prepareDone_keeps | fail_if_no_progress apply keeps_mk | apply out_next)
    | split | dsimp only

theorem State.updStart_keeps {s0 : State} {s : State} (hs : Keeps s0 s) :
    Keeps s0 (State.updStart s) := by
  unfold State.updStart
  repeat'
    first
    | intro _
    | with_reducible (
      first
      | assumption | apply State.reply_keeps | apply State.updTurn_keeps | apply State.wr_keeps | fail_if_no_progress apply keeps_mk | apply keeps_ite)
    | split | dsimp only

theorem execStart_keeps {s0 : State} {r : Requester} {s : State} (hs : Keeps s0 s) :
    OutKeeps s0 (execStart r s) := by
  unfold execStart
  repeat'
    first
    | intro _
    | with_reducible (
      first
      | assumption | apply State.plat_keeps | apply State.updStart_keeps | fail_if_no_progress apply keeps_mk | apply out_next)
    | split | dsimp only

theorem State.updStopCmd_keeps {s0 : State} {s : State} (hs : Keeps s0 s) :
    Keeps s0 (State.updStopCmd s) := by
  unfold State.updStopCmd
  repeat'
    first
    | intro _
    | with_reducible (
      first
      | assumption | apply State.reply_keeps | apply State.hoAbort_keeps | apply State.updStop_keeps | fail_if_no_progress apply keeps_mk
      | apply keeps_ite)
    | split | dsimp only

theorem execStop_keeps {s0 : State} {r : Requester} {s : State} (hs : Keeps s0 s) :
    OutKeeps s0 (execStop r s) := by
  unfold execStop
  repeat'
    first
    | intro _
    | with_reducible (
      first
      | assumption | apply State.plat_keeps | apply State.updStopCmd_keeps | fail_if_no_progress apply keeps_mk | apply out_next)
    | split | dsimp only

theorem State.updRaise_keeps {s0 : State} {s : State} (hs : Keeps s0 s) :
    Keeps s0 (State.updRaise s) := by
  unfold State.updRaise
  repeat'
    first
    | intro _
    | with_reducible (
      first
      | assumption | apply State.reply_keeps | apply State.wr_keeps | apply State.showRows_keeps | apply State.setReg_keeps
      | fail_if_no_progress apply keeps_mk | apply keeps_ite)
    | split | dsimp only

theorem execRaiseMin_keeps {s0 : State} {r : Requester} {s : State} (hs : Keeps s0 s) :
    OutKeeps s0 (execRaiseMin r s) := by
  unfold execRaiseMin
  repeat'
    first
    | intro _
    | with_reducible (
      first
      | assumption | apply State.plat_keeps | apply State.updRaise_keeps | fail_if_no_progress apply keeps_mk | apply out_next)
    | split | dsimp only

theorem State.updRevoke_keeps {s0 : State} {s : State} {k : Nat} (hs : Keeps s0 s) :
    Keeps s0 (State.updRevoke s k) := by
  unfold State.updRevoke
  repeat'
    first
    | intro _
    | with_reducible (
      first
      | assumption | apply State.reply_keeps | apply State.wr_keeps | fail_if_no_progress apply keeps_mk | apply keeps_ite)
    | split | dsimp only

theorem execRevoke_keeps {s0 : State} {r : Requester} {k : Fin 4} {s : State} (hs : Keeps s0 s) :
    OutKeeps s0 (execRevoke r k s) := by
  unfold execRevoke
  repeat'
    first
    | intro _
    | with_reducible (
      first
      | assumption | apply State.plat_keeps | apply State.updRevoke_keeps | fail_if_no_progress apply keeps_mk | apply out_next)
    | split | dsimp only

theorem State.revokeDone_keeps {s0 : State} {s : State} (hs : Keeps s0 s) :
    Keeps s0 (State.revokeDone s) := by
  unfold State.revokeDone
  repeat'
    first
    | intro _
    | with_reducible (
      first
      | assumption | apply State.readBytes_keeps | apply State.wr_keeps | apply State.updErr_keeps | fail_if_no_progress apply keeps_mk
      | apply keeps_ite | apply keeps_ite1 | apply keeps_ite2 | refine keeps_of_eq (by assumption) ?_ | refine keeps_of_eq2 (by assumption) ?_
      | refine keeps_of_eq3 (by assumption) ?_)
    | split | dsimp only

theorem execRevokeDone_keeps {s0 : State} {s : State} (hs : Keeps s0 s) :
    OutKeeps s0 (execRevokeDone s) := by
  unfold execRevokeDone
  repeat'
    first
    | intro _
    | with_reducible (
      first
      | assumption | apply State.revokeDone_keeps | fail_if_no_progress apply keeps_mk | apply out_next)
    | split | dsimp only

theorem execStewardFirmwareSwitch_keeps {s0 : State} {s : State} (hs : Keeps s0 s) :
    OutKeeps s0 (execStewardFirmwareSwitch s) := by
  unfold execStewardFirmwareSwitch
  repeat'
    first
    | intro _
    | with_reducible (
      first
      | assumption | apply State.wr_keeps | apply State.prefer_keeps | apply State.updPhase_keeps | fail_if_no_progress apply keeps_mk
      | apply keeps_each | apply out_next | apply keeps_ite)
    | split | dsimp only

/-! Margin -/

theorem State.setDomain_keeps {s0 : State} {s : State} {d : Nat} (hs : Keeps s0 s) :
    Keeps s0 (State.setDomain s d) := by
  unfold State.setDomain
  repeat'
    first
    | intro _
    | with_reducible (
      first
      | assumption | apply State.wr_keeps | fail_if_no_progress apply keeps_mk | apply keeps_each | apply keeps_fold | apply keeps_fold1
      | apply keeps_fold2 | apply keeps_fold3 | apply keeps_ite | refine keeps_of_eq (by assumption) ?_ | refine keeps_of_eq2 (by assumption) ?_
      | refine keeps_of_eq3 (by assumption) ?_)
    | split | dsimp only

theorem State.takePlan_keeps {s0 : State} {s : State} {c : Nat} {f : Nat} {v : Nat} (hs : Keeps s0 s) :
    Keeps s0 (State.takePlan s c f v) := by
  unfold State.takePlan
  repeat'
    first
    | intro _
    | with_reducible (
      first
      | assumption | apply State.wr_keeps | apply State.setDomain_keeps | fail_if_no_progress apply keeps_mk)
    | split | dsimp only

theorem State.offerPlan_keeps {s0 : State} {s : State} {c : Nat} {f : Nat} {v : Nat} (hs : Keeps s0 s) :
    Keeps s0 (State.offerPlan s c f v) := by
  unfold State.offerPlan
  repeat'
    first
    | intro _
    | with_reducible (
      first
      | assumption | apply State.wr_keeps | apply State.takePlan_keeps | fail_if_no_progress apply keeps_mk | apply keeps_ite)
    | split | dsimp only

theorem State.marginCond_keeps {s0 : State} {s : State} {c : Nat} (hs : Keeps s0 s) :
    Keeps s0 (State.marginCond s c) := by
  unfold State.marginCond
  repeat'
    first
    | intro _
    | with_reducible (
      first
      | assumption | apply State.setCond_keeps | fail_if_no_progress apply keeps_mk)
    | split | dsimp only

theorem State.exhaust_keeps {s0 : State} {s : State} {c : Nat} {spareOk : Bool} (hs : Keeps s0 s) :
    Keeps s0 (State.exhaust s c spareOk) := by
  unfold State.exhaust
  repeat'
    first
    | intro _
    | with_reducible (
      first
      | assumption | apply State.wr_keeps | apply State.hoStart_keeps | apply State.recordReg_keeps | apply State.marginCond_keeps
      | fail_if_no_progress apply keeps_mk | apply keeps_ite)
    | split | dsimp only

theorem State.decidePlan_keeps {s0 : State} {s : State} {c : Nat} {raw : Nat → BitVec 16} {survey : Bool} (hs : Keeps s0 s) :
    Keeps s0 (State.decidePlan s c raw survey) := by
  unfold State.decidePlan
  repeat'
    first
    | intro _
    | with_reducible (
      first
      | assumption | apply State.offerPlan_keeps | apply State.wr_keeps | apply State.exhaust_keeps | apply State.marginCond_keeps
      | apply State.recordCode_keeps | fail_if_no_progress apply keeps_mk | apply keeps_fold | apply keeps_fold1 | apply keeps_fold2
      | apply keeps_fold3 | apply keeps_ite | refine keeps_of_eq (by assumption) ?_ | refine keeps_of_eq2 (by assumption) ?_
      | refine keeps_of_eq3 (by assumption) ?_)
    | split | dsimp only

theorem State.project_keeps {s0 : State} {s : State} {c : Nat} (hs : Keeps s0 s) :
    Keeps s0 (State.project s c) := by
  unfold State.project
  repeat'
    first
    | intro _
    | with_reducible (
      first
      | assumption | apply State.takeFree_keeps | apply State.wr_keeps | fail_if_no_progress apply keeps_mk | refine keeps_of_eq (by assumption) ?_
      | refine keeps_of_eq2 (by assumption) ?_ | refine keeps_of_eq3 (by assumption) ?_)
    | split | dsimp only

theorem execPlanDecide_keeps {s0 : State} {c : Fin 16} {raw : Vector (BitVec 16) 64} {s : State} (hs : Keeps s0 s) :
    OutKeeps s0 (execPlanDecide c raw s) := by
  unfold execPlanDecide
  repeat'
    first
    | intro _
    | with_reducible (
      first
      | assumption | apply State.wr_keeps | apply State.decidePlan_keeps | fail_if_no_progress apply keeps_mk | apply out_next | apply keeps_ite)
    | split | dsimp only

theorem execSurveyStart_keeps {s0 : State} {s : State} (hs : Keeps s0 s) :
    OutKeeps s0 (execSurveyStart s) := by
  unfold execSurveyStart
  repeat'
    first
    | intro _
    | with_reducible (
      first
      | assumption | apply State.startSurvey_keeps | fail_if_no_progress apply keeps_mk | apply out_next | apply keeps_ite)
    | split | dsimp only

theorem execNow_keeps {s0 : State} {r : Requester} {s : State} (hs : Keeps s0 s) :
    OutKeeps s0 (execNow r s) := by
  unfold execNow
  repeat'
    first
    | intro _
    | with_reducible (
      first
      | assumption | apply State.plat_keeps | apply State.reply_keeps | apply State.startSurvey_keeps | fail_if_no_progress apply keeps_mk
      | apply out_next)
    | split | dsimp only

theorem execSurveyComplete_keeps {s0 : State} {raw : Vector (BitVec 16) 128} {s : State} (hs : Keeps s0 s) :
    OutKeeps s0 (execSurveyComplete raw s) := by
  unfold execSurveyComplete
  repeat'
    first
    | intro _
    | with_reducible (
      first
      | assumption | apply State.wr_keeps | apply State.recordReg_keeps | apply State.setCond_keeps | apply State.assert_keeps
      | apply State.project_keeps | apply State.startSurvey_keeps | fail_if_no_progress apply keeps_mk | apply keeps_each | apply keeps_fold
      | apply keeps_fold1 | apply keeps_fold2 | apply keeps_fold3 | apply out_next | apply keeps_ite | refine keeps_of_eq (by assumption) ?_
      | refine keeps_of_eq2 (by assumption) ?_ | refine keeps_of_eq3 (by assumption) ?_)
    | split | dsimp only

theorem execEclkStep_keeps {s0 : State} {c : Fin 16} {nak : Bool} {s : State} (hs : Keeps s0 s) :
    OutKeeps s0 (execEclkStep c nak s) := by
  unfold execEclkStep
  repeat'
    first
    | intro _
    | with_reducible (
      first
      | assumption | apply State.passTo_keeps | apply State.recordReg_keeps | apply State.assert_keeps | apply State.wr_keeps
      | apply State.takePlan_keeps | apply State.setDomain_keeps | fail_if_no_progress apply keeps_mk | apply out_next | apply keeps_ite)
    | split | dsimp only

theorem execTjAlert_keeps {s0 : State} {s : State} (hs : Keeps s0 s) :
    OutKeeps s0 (execTjAlert s) := by
  unfold execTjAlert
  repeat'
    first
    | intro _
    | with_reducible (
      first
      | assumption | apply State.recordReg_keeps | apply State.setCond_keeps | fail_if_no_progress apply keeps_mk | apply out_next | apply keeps_ite)
    | split | dsimp only

theorem execTjThrottle_keeps {s0 : State} {s : State} (hs : Keeps s0 s) :
    OutKeeps s0 (execTjThrottle s) := by
  unfold execTjThrottle
  repeat'
    first
    | intro _
    | with_reducible (
      first
      | assumption | apply State.recordReg_keeps | apply State.setCond_keeps | apply State.wr_keeps | fail_if_no_progress apply keeps_mk
      | apply keeps_each | apply out_next | apply keeps_ite)
    | split | dsimp only

theorem execTjCool_keeps {s0 : State} {s : State} (hs : Keeps s0 s) :
    OutKeeps s0 (execTjCool s) := by
  unfold execTjCool
  repeat'
    first
    | intro _
    | with_reducible (
      first
      | assumption | apply State.setCond_keeps | apply State.wr_keeps | fail_if_no_progress apply keeps_mk | apply keeps_each | apply out_next
      | apply keeps_ite)
    | split | dsimp only

theorem execThermtrip_keeps {s0 : State} {s : State} (hs : Keeps s0 s) :
    OutKeeps s0 (execThermtrip s) := by
  unfold execThermtrip
  repeat'
    first
    | intro _
    | with_reducible (
      first
      | assumption | fail_if_no_progress apply keeps_mk | apply out_next)
    | split | dsimp only

theorem execMarigoldSubmit_keeps {s0 : State} {subs : List SubReq} {s : State} (hs : Keeps s0 s) :
    OutKeeps s0 (execMarigoldSubmit subs s) := by
  unfold execMarigoldSubmit
  repeat'
    first
    | intro _
    | with_reducible (
      first
      | assumption | apply State.submit_keeps | fail_if_no_progress apply keeps_mk | apply out_next)
    | split | dsimp only

/-! Triggers -/

theorem State.noteWrite_keeps {s0 : State} {s : State} {n : Nat} (hs : Keeps s0 s) :
    Keeps s0 (State.noteWrite s n) := by
  unfold State.noteWrite
  repeat'
    first
    | intro _
    | with_reducible (
      first
      | assumption | fail_if_no_progress apply keeps_mk | apply keeps_ite)
    | split | dsimp only

theorem State.trigaWrite_keeps {s0 : State} {s : State} {n : Nat} {d : Word} (hs : Keeps s0 s) :
    Keeps s0 (State.trigaWrite s n d) := by
  unfold State.trigaWrite
  repeat'
    first
    | intro _
    | with_reducible (
      first
      | assumption | apply State.reply_keeps | apply State.noteWrite_keeps | apply State.setReg_keeps | fail_if_no_progress apply keeps_mk
      | apply keeps_ite)
    | split | dsimp only

theorem execGavTrigaWrite_keeps {s0 : State} {r : Requester} {n : Fin 8192} {d : Word} {s : State} (hs : Keeps s0 s) :
    OutKeeps s0 (execGavTrigaWrite r n d s) := by
  unfold execGavTrigaWrite
  repeat'
    first
    | intro _
    | with_reducible (
      first
      | assumption | apply State.plat_keeps | apply State.trigaWrite_keeps | fail_if_no_progress apply keeps_mk | apply out_next)
    | split | dsimp only

theorem State.trigSet_keeps {s0 : State} {s : State} {n : Nat} {b : Nat} (hs : Keeps s0 s) :
    Keeps s0 (State.trigSet s n b) := by
  unfold State.trigSet
  repeat'
    first
    | intro _
    | with_reducible (
      first
      | assumption | apply State.ownXclk_keeps | apply State.noteWrite_keeps | apply State.setReg_keeps | apply State.lateCheck_keeps
      | fail_if_no_progress apply keeps_mk)
    | split | dsimp only

theorem State.trigbWrite_keeps {s0 : State} {s : State} {n : Nat} {d : Word} (hs : Keeps s0 s) :
    Keeps s0 (State.trigbWrite s n d) := by
  unfold State.trigbWrite
  repeat'
    first
    | intro _
    | with_reducible (
      first
      | assumption | apply State.reply_keeps | apply State.armBuffer_keeps | apply State.startFill_keeps | apply State.trigSet_keeps
      | fail_if_no_progress apply keeps_mk | apply keeps_ite | apply keeps_ite1 | apply keeps_ite2 | refine keeps_of_eq (by assumption) ?_
      | refine keeps_of_eq2 (by assumption) ?_ | refine keeps_of_eq3 (by assumption) ?_)
    | split | dsimp only

theorem execGavTrigbWrite_keeps {s0 : State} {r : Requester} {n : Fin 8192} {d : Word} {s : State} (hs : Keeps s0 s) :
    OutKeeps s0 (execGavTrigbWrite r n d s) := by
  unfold execGavTrigbWrite
  repeat'
    first
    | intro _
    | with_reducible (
      first
      | assumption | apply State.plat_keeps | apply State.trigbWrite_keeps | fail_if_no_progress apply keeps_mk | apply out_next)
    | split | dsimp only

theorem State.fireAction_keeps {s0 : State} {s : State} {b : Nat} {late : List Nat} {locked : Bool} (hs : Keeps s0 s) :
    Keeps s0 (State.fireAction s b late locked) := by
  unfold State.fireAction
  repeat'
    first
    | intro _
    | with_reducible (
      first
      | assumption | apply State.gavPulse_keeps | apply State.assert_keeps | apply State.promptDeliver_keeps | apply State.timerStart_keeps
      | apply State.commitFire_keeps | fail_if_no_progress apply keeps_mk | apply keeps_each | apply keeps_ite)
    | split | dsimp only

theorem State.restartCount_keeps {s0 : State} {s : State} {n : Nat} {a : Nat} {b : Nat} (hs : Keeps s0 s) :
    Keeps s0 (State.restartCount s n a b) := by
  unfold State.restartCount
  repeat'
    first
    | intro _
    | with_reducible (
      first
      | assumption | fail_if_no_progress apply keeps_mk | apply keeps_ite)
    | split | dsimp only

theorem State.afterFire_keeps {s0 : State} {s : State} {n : Nat} {b : Nat} (hs : Keeps s0 s) :
    Keeps s0 (State.afterFire s n b) := by
  unfold State.afterFire
  repeat'
    first
    | intro _
    | with_reducible (
      first
      | assumption | apply State.trigOff_keeps | fail_if_no_progress apply keeps_mk | apply keeps_ite)
    | split | dsimp only

theorem State.toDue_keeps {s0 : State} {n : Nat} {x1 : Nat} {x2 : State} (hs : Keeps s0 x2) :
    Keeps s0 (State.toDue n x1 x2) := by
  induction x1 generalizing x2 with
  | zero =>
    unfold State.toDue
    repeat'
      first
      | intro _
      | with_reducible (
        first
        | assumption | apply State.advance_keeps | fail_if_no_progress apply keeps_mk)
      | split | dsimp only
  | succ k ih =>
    unfold State.toDue
    repeat'
      first
      | intro _
      | with_reducible (
        first
        | assumption | apply State.advance_keeps | fail_if_no_progress apply keeps_mk)
      | with_reducible apply ih | split | dsimp only

theorem State.matchEntry_keeps {s0 : State} {s : State} {n : Nat} {late : List Nat} (hs : Keeps s0 s) :
    Keeps s0 (State.matchEntry s n late) := by
  unfold State.matchEntry
  repeat'
    first
    | intro _
    | with_reducible (
      first
      | assumption | apply State.restartCount_keeps | apply State.fireAction_keeps | apply State.afterFire_keeps | fail_if_no_progress apply keeps_mk
      | apply keeps_ite)
    | split | dsimp only

theorem State.dispatchFire_keeps {s0 : State} {s : State} {n : Nat} (hs : Keeps s0 s) :
    Keeps s0 (State.dispatchFire s n) := by
  unfold State.dispatchFire
  repeat'
    first
    | intro _
    | with_reducible (
      first
      | assumption | apply State.advance_keeps | apply State.slotStart_keeps | fail_if_no_progress apply keeps_mk | apply keeps_ite)
    | split | dsimp only

theorem State.triggerFire_keeps {s0 : State} {s : State} {n : Nat} {late : List Nat} (hs : Keeps s0 s) :
    Keeps s0 (State.triggerFire s n late) := by
  unfold State.triggerFire
  repeat'
    first
    | intro _
    | with_reducible (
      first
      | assumption | apply State.dispatchFire_keeps | apply State.toDue_keeps | apply State.matchEntry_keeps | fail_if_no_progress apply keeps_mk
      | apply keeps_ite)
    | split | dsimp only

theorem execTriggerFire_keeps {s0 : State} {n : Fin 8192} {late : List EngId} {s : State} (hs : Keeps s0 s) :
    OutKeeps s0 (execTriggerFire n late s) := by
  unfold execTriggerFire
  repeat'
    first
    | intro _
    | with_reducible (
      first
      | assumption | apply State.triggerFire_keeps | fail_if_no_progress apply keeps_mk | apply out_next)
    | split | dsimp only

theorem State.delayedFire_keeps {s0 : State} {s : State} {n : Nat} {late : List Nat} (hs : Keeps s0 s) :
    Keeps s0 (State.delayedFire s n late) := by
  unfold State.delayedFire
  repeat'
    first
    | intro _
    | with_reducible (
      first
      | assumption | apply State.advance_keeps | apply State.gavErr_keeps | apply State.count_keeps | apply State.fireAction_keeps
      | apply State.afterFire_keeps | fail_if_no_progress apply keeps_mk | apply keeps_ite)
    | split | dsimp only

theorem execMatchDelayedFire_keeps {s0 : State} {n : Fin 8192} {late : List EngId} {s : State} (hs : Keeps s0 s) :
    OutKeeps s0 (execMatchDelayedFire n late s) := by
  unfold execMatchDelayedFire
  repeat'
    first
    | intro _
    | with_reducible (
      first
      | assumption | apply State.delayedFire_keeps | fail_if_no_progress apply keeps_mk | apply out_next)
    | split | dsimp only

/-! Ether -/

theorem State.pfcFrame_keeps {s0 : State} {s : State} {p : Nat} {l : Nat} {f : List Byte} (hs : Keeps s0 s) :
    Keeps s0 (State.pfcFrame s p l f) := by
  unfold State.pfcFrame
  repeat'
    first
    | intro _
    | with_reducible (
      first
      | assumption | apply State.modPort_keeps | fail_if_no_progress apply keeps_mk | apply keeps_fold | apply keeps_fold1 | apply keeps_fold2
      | apply keeps_fold3 | apply keeps_ite | refine keeps_of_eq (by assumption) ?_ | refine keeps_of_eq2 (by assumption) ?_
      | refine keeps_of_eq3 (by assumption) ?_)
    | split | dsimp only

theorem State.modClock_keeps {s0 : State} {s : State} {p : Nat} {f : PtpClock → PtpClock} (hs : Keeps s0 s) :
    Keeps s0 (State.modClock s p f) := by
  unfold State.modClock
  repeat'
    first
    | intro _
    | with_reducible (
      first
      | assumption | apply State.modPort_keeps | fail_if_no_progress apply keeps_mk)
    | split | dsimp only

theorem State.ptpSync_keeps {s0 : State} {s : State} {p : Nat} {m : ℤ} {at' : Nat} (hs : Keeps s0 s) :
    Keeps s0 (State.ptpSync s p m at') := by
  unfold State.ptpSync
  repeat'
    first
    | intro _
    | with_reducible (
      first
      | assumption | apply State.followOff_keeps | fail_if_no_progress apply keeps_mk)
    | split | dsimp only

theorem State.ptpFrame_keeps {s0 : State} {s : State} {p : Nat} {f : List Byte} (hs : Keeps s0 s) :
    Keeps s0 (State.ptpFrame s p f) := by
  unfold State.ptpFrame
  repeat'
    first
    | intro _
    | with_reducible (
      first
      | assumption | apply State.modClock_keeps | apply State.ptpSync_keeps | apply State.emit_keeps | fail_if_no_progress apply keeps_mk
      | apply keeps_ite)
    | split | dsimp only

theorem State.ptpState_keeps {s0 : State} {s : State} {p : Nat} {v : Nat} (hs : Keeps s0 s) :
    Keeps s0 (State.ptpState s p v) := by
  unfold State.ptpState
  repeat'
    first
    | intro _
    | with_reducible (
      first
      | assumption | apply State.recordReg_keeps | apply State.assert_keeps | apply State.wr_keeps | fail_if_no_progress apply keeps_mk
      | apply keeps_ite)
    | split | dsimp only

theorem execPtpFrameReceive_keeps {s0 : State} {p : Fin 6} {frame : List Byte} {st : Option (Fin 6)} {s : State} (hs : Keeps s0 s) :
    OutKeeps s0 (execPtpFrameReceive p frame st s) := by
  unfold execPtpFrameReceive
  repeat'
    first
    | intro _
    | with_reducible (
      first
      | assumption | apply State.ptpFrame_keeps | apply State.ptpState_keeps | fail_if_no_progress apply keeps_mk | apply out_next | apply keeps_ite)
    | split | dsimp only

theorem execPtpMessageSend_keeps {s0 : State} {p : Fin 6} {s : State} (hs : Keeps s0 s) :
    OutKeeps s0 (execPtpMessageSend p s) := by
  unfold execPtpMessageSend
  repeat'
    first
    | intro _
    | with_reducible (
      first
      | assumption | apply State.modClock_keeps | apply State.emit_keeps | fail_if_no_progress apply keeps_mk | apply out_next | apply keeps_ite)
    | split | dsimp only

theorem State.svLost_keeps {s0 : State} {s : State} (hs : Keeps s0 s) :
    Keeps s0 (State.svLost s) := by
  unfold State.svLost
  repeat'
    first
    | intro _
    | with_reducible (
      first
      | assumption | apply State.loseRef_keeps | apply State.unqualify_keeps | fail_if_no_progress apply keeps_mk | apply keeps_ite)
    | split | dsimp only

theorem State.svCycle_keeps {s0 : State} {s : State} (hs : Keeps s0 s) :
    Keeps s0 (State.svCycle s) := by
  unfold State.svCycle
  repeat'
    first
    | intro _
    | with_reducible (
      first
      | assumption | apply State.svLost_keeps | apply State.reacquire_keeps | apply State.setQual_keeps | apply State.measure_keeps
      | fail_if_no_progress apply keeps_mk | apply keeps_ite)
    | split | dsimp only

theorem State.svAsdu_keeps {s0 : State} {s : State} {a : Asdu} (hs : Keeps s0 s) :
    Keeps s0 (State.svAsdu s a) := by
  unfold State.svAsdu
  repeat'
    first
    | intro _
    | with_reducible (
      first
      | assumption | apply State.svLost_keeps | apply State.svCycle_keeps | fail_if_no_progress apply keeps_mk | apply keeps_ite)
    | split | dsimp only

theorem State.ethClass_keeps {s0 : State} {s : State} {p : Nat} {l : Nat} {n : Nat} {f : List Byte} (hs : Keeps s0 s) :
    Keeps s0 (State.ethClass s p l n f) := by
  unfold State.ethClass
  repeat'
    first
    | intro _
    | with_reducible (
      first
      | assumption | apply State.classify_keeps | apply State.count_keeps | apply State.svAsdu_keeps | fail_if_no_progress apply keeps_mk
      | apply keeps_each | apply keeps_ite)
    | split | dsimp only

theorem State.ethFrame_keeps {s0 : State} {s : State} {p : Nat} {l : Nat} {f : List Byte} (hs : Keeps s0 s) :
    Keeps s0 (State.ethFrame s p l f) := by
  unfold State.ethFrame
  repeat'
    first
    | intro _
    | with_reducible (
      first
      | assumption | apply State.count_keeps | apply State.pfcFrame_keeps | apply State.ptpFrame_keeps | apply State.ethClass_keeps
      | fail_if_no_progress apply keeps_mk | apply keeps_ite)
    | split | dsimp only

theorem execEthFrameReceive_keeps {s0 : State} {p : Fin 6} {l : Fin 8} {frame : List Byte} {s : State} (hs : Keeps s0 s) :
    OutKeeps s0 (execEthFrameReceive p l frame s) := by
  unfold execEthFrameReceive
  repeat'
    first
    | intro _
    | with_reducible (
      first
      | assumption | apply State.ethFrame_keeps | fail_if_no_progress apply keeps_mk | apply out_next)
    | split | dsimp only

theorem State.readBuffer_keeps {s0 : State} {s : State} {pa : Nat} {n : Nat} {key : Nat} (hs : Keeps s0 s) :
    Keeps s0 (State.readBuffer s pa n key).2 := by
  unfold State.readBuffer
  repeat'
    first
    | intro _
    | with_reducible (
      first
      | assumption | apply State.cohRead_keeps | fail_if_no_progress apply keeps_mk | apply keeps_fold | apply keeps_fold1 | apply keeps_fold2
      | apply keeps_fold3 | apply keeps_ite | apply keeps_ite1 | apply keeps_ite2 | refine keeps_of_eq (by assumption) ?_
      | refine keeps_of_eq2 (by assumption) ?_ | refine keeps_of_eq3 (by assumption) ?_)
    | split | dsimp only

theorem State.sendOct_keeps {s0 : State} {s : State} {p : Nat} {a : Nat} {b : Nat} {cls : Nat} {data : List Byte} (hs : Keeps s0 s) :
    OptKeeps s0 (State.sendOct s p a b cls data) := by
  unfold State.sendOct
  repeat'
    first
    | intro _
    | with_reducible (
      first
      | assumption | apply State.deliver_keeps | apply State.count_keeps | apply State.pumpAll_keeps | apply State.modPort_keeps
      | fail_if_no_progress apply keeps_mk | apply opt_some | apply opt_none | apply keeps_ite | apply opt_ite)
    | split | dsimp only

theorem State.sendEth_keeps {s0 : State} {s : State} {p : Nat} {a : Nat} {b : Nat} {data : List Byte} (hs : Keeps s0 s) :
    OptKeeps s0 (State.sendEth s p a b data) := by
  unfold State.sendEth
  repeat'
    first
    | intro _
    | with_reducible (
      first
      | assumption | apply State.count_keeps | apply State.emit_keeps | fail_if_no_progress apply keeps_mk | apply opt_some | apply opt_none
      | apply keeps_ite | apply opt_ite)
    | split | dsimp only

theorem State.transmit_keeps {s0 : State} {s : State} {p : Nat} {ch : Nat} {bad : Nat} (hs : Keeps s0 s) :
    Keeps s0 (State.transmit s p ch bad) := by
  unfold State.transmit
  repeat'
    first
    | intro _
    | with_reducible (
      first
      | assumption | apply State.qSkip_keeps | apply State.setQueue_keeps | apply State.readBuffer_keeps | apply State.sendOct_keeps
      | apply State.sendEth_keeps | apply State.qDequeued_keeps | apply State.freeBuffer_keeps | fail_if_no_progress apply keeps_mk | apply opt_some
      | apply opt_none | apply keeps_ite | apply keeps_ite1 | apply keeps_ite2 | apply opt_ite | refine keeps_of_eq (by assumption) ?_
      | refine keeps_of_eq2 (by assumption) ?_ | refine keeps_of_eq3 (by assumption) ?_ | refine keeps_of_some (by assumption) ?_)
    | split | dsimp only

theorem execPortTransmit_keeps {s0 : State} {p : Fin 6} {ch : Fin 16384} {bad : Nat} {s : State} (hs : Keeps s0 s) :
    OutKeeps s0 (execPortTransmit p ch bad s) := by
  unfold execPortTransmit
  repeat'
    first
    | intro _
    | with_reducible (
      first
      | assumption | apply State.transmit_keeps | fail_if_no_progress apply keeps_mk | apply out_next)
    | split | dsimp only

/-! Regs -/

theorem after_keeps {s0 : State} {o : Host.Outcome State Fault Refusal} {s : State} (ho : OutKeeps s0 o) (hs : Keeps s0 s) :
    Keeps s0 (after o s) := by
  cases o with
  | next t => exact keeps_of_next rfl ho
  | fault r => exact hs
  | refused r => exact hs

theorem State.setThr_keeps {s0 : State} {s : State} {c : Nat} {v : Nat} (hs : Keeps s0 s) :
    Keeps s0 (State.setThr s c v) := by
  unfold State.setThr
  repeat'
    first
    | intro _
    | with_reducible (
      first
      | assumption | apply State.wr_keeps | apply State.refreshHost_keeps | fail_if_no_progress apply keeps_mk | apply keeps_ite)
    | split | dsimp only

theorem clr_keeps {s0 : State} {v : Nat} {o : Host.Outcome State Fault Refusal} {s : State} (ho : OutKeeps s0 o) (hs : Keeps s0 s) :
    Keeps s0 (clr v o s) := by
  unfold clr
  repeat'
    first
    | intro _
    | with_reducible (
      first
      | assumption | apply ho | refine keeps_of_next (by assumption) ?_ | apply after_keeps | apply State.reply_keeps
      | fail_if_no_progress apply keeps_mk | apply keeps_ite)
    | split | dsimp only

theorem State.wrGav_keeps {s0 : State} {s : State} {b : Nat} {i : Nat} {v : Nat} (hs : Keeps s0 s) :
    OptKeeps s0 (State.wrGav s b i v) := by
  unfold State.wrGav
  repeat'
    first
    | intro _
    | with_reducible (
      first
      | assumption | apply State.reply_keeps | apply State.forceHold_keeps | apply State.ownXclk_keeps | apply State.taiCtrl_keeps | apply after_keeps
      | apply execTaiSet_keeps | apply State.trigaWrite_keeps | apply State.trigbWrite_keeps | apply State.timerCtrl_keeps
      | apply State.edgeCtrl_keeps | apply execPop_keeps | fail_if_no_progress apply keeps_mk | apply opt_some | apply opt_none | apply keeps_ite
      | apply opt_ite | refine keeps_of_next (by assumption) ?_)
    | split | dsimp only

theorem State.wrEng_keeps {s0 : State} {s : State} {b : Nat} {i : Nat} {v : Nat} (hs : Keeps s0 s) :
    OptKeeps s0 (State.wrEng s b i v) := by
  unfold State.wrEng
  repeat'
    first
    | intro _
    | with_reducible (
      first
      | assumption | apply clr_keeps | apply execEngVsuCntclr_keeps | apply execEngChnCntclr_keeps | apply execLvsCntclr_keeps
      | apply execEngExcCntclr_keeps | apply execEngTngCntclr_keeps | fail_if_no_progress apply keeps_mk | apply opt_some | apply opt_none
      | apply keeps_ite | apply opt_ite | refine keeps_of_next (by assumption) ?_)
    | split | dsimp only

theorem State.wrSlc_keeps {s0 : State} {s : State} {r : Requester} {b : Nat} {i : Nat} {v : Nat} (hs : Keeps s0 s) :
    OptKeeps s0 (State.wrSlc s r b i v) := by
  unfold State.wrSlc
  repeat'
    first
    | intro _
    | with_reducible (
      first
      | assumption | apply State.pcCmd_keeps | apply State.reply_keeps | apply State.sanit_keeps | apply clr_keeps | apply execSlcCntclr_keeps
      | apply execSlcXcntclr_keeps | fail_if_no_progress apply keeps_mk | apply opt_some | apply opt_none | apply keeps_ite | apply opt_ite
      | refine keeps_of_next (by assumption) ?_)
    | split | dsimp only

theorem State.wrClu_keeps {s0 : State} {s : State} {r : Requester} {b : Nat} {i : Nat} {v : Nat} (hs : Keeps s0 s) :
    OptKeeps s0 (State.wrClu s r b i v) := by
  unfold State.wrClu
  repeat'
    first
    | intro _
    | with_reducible (
      first
      | assumption | apply clr_keeps | apply execCluCcCntclr_keeps | apply after_keeps | apply execHandover_keeps | apply execRetire_keeps
      | apply execTest_keeps | apply execReinstate_keeps | apply execAbort_keeps | apply State.hoCmd_keeps | fail_if_no_progress apply keeps_mk
      | apply opt_some | apply opt_none | apply keeps_ite | apply opt_ite | refine keeps_of_next (by assumption) ?_)
    | exact ‹Keeps _ _› | split | dsimp only

theorem State.wrIc_keeps {s0 : State} {s : State} {r : Requester} {b : Nat} {i : Nat} {v : Nat} (hs : Keeps s0 s) :
    OptKeeps s0 (State.wrIc s r b i v) := by
  unfold State.wrIc
  repeat'
    first
    | intro _
    | with_reducible (
      first
      | assumption | apply State.reply_keeps | apply State.sgi_keeps | apply State.complete_keeps | apply State.setThr_keeps
      | apply State.srcCfg_keeps | apply State.evrFire_keeps | apply State.wr_keeps | fail_if_no_progress apply keeps_mk | apply opt_some
      | apply opt_none | apply keeps_ite | apply opt_ite)
    | split | dsimp only

theorem State.wrOct_keeps {s0 : State} {s : State} {r : Requester} {b : Nat} {i : Nat} {v : Nat} (hs : Keeps s0 s) :
    OptKeeps s0 (State.wrOct s r b i v) := by
  unfold State.wrOct
  repeat'
    first
    | intro _
    | with_reducible (
      first
      | assumption | apply State.reply_keeps | apply State.wr_keeps | apply State.releasePort_keeps | apply State.dropLink_keeps
      | fail_if_no_progress apply keeps_mk | apply keeps_each | apply opt_some | apply opt_none | apply keeps_ite | apply opt_ite)
    | split | dsimp only

theorem State.wrSec_keeps {s0 : State} {s : State} {r : Requester} {b : Nat} {i : Nat} {v : Nat} (hs : Keeps s0 s) :
    OptKeeps s0 (State.wrSec s r b i v) := by
  unfold State.wrSec
  repeat'
    first
    | intro _
    | with_reducible (
      first
      | assumption | apply State.stage_keeps | apply State.discard_keeps | apply State.reply_keeps | apply State.updPrepare_keeps
      | apply State.updStart_keeps | apply State.updStopCmd_keeps | apply State.updRaise_keeps | apply State.updRevoke_keeps
      | apply State.keStart_keeps | fail_if_no_progress apply keeps_mk | apply opt_some | apply opt_none | apply keeps_ite | apply opt_ite)
    | split | dsimp only

theorem State.door_keeps {s0 : State} {s : State} {v : Nat} (hs : Keeps s0 s) :
    Keeps s0 (State.door s v) := by
  unfold State.door
  repeat'
    first
    | intro _
    | with_reducible (
      first
      | assumption | apply State.reply_keeps | apply State.wr_keeps | fail_if_no_progress apply keeps_mk | apply keeps_ite)
    | split | dsimp only

theorem State.wrMisc_keeps {s0 : State} {s : State} {r : Requester} {b : Nat} {i : Nat} {v : Nat} (hs : Keeps s0 s) :
    OptKeeps s0 (State.wrMisc s r b i v) := by
  unfold State.wrMisc
  repeat'
    first
    | intro _
    | with_reducible (
      first
      | assumption | apply clr_keeps | apply execQmCntclr_keeps | apply execOctCntclr_keeps | apply State.reply_keeps | apply State.startSurvey_keeps
      | apply State.gpioOut_keeps | apply State.door_keeps | fail_if_no_progress apply keeps_mk | apply opt_some | apply opt_none | apply keeps_ite
      | apply opt_ite | refine keeps_of_next (by assumption) ?_)
    | split | dsimp only

theorem State.wrPlain_keeps {s0 : State} {s : State} {r : RegDef} {off : Nat} {d : Nat} {m : Nat} (hs : Keeps s0 s) :
    Keeps s0 (State.wrPlain s r off d m) := by
  unfold State.wrPlain
  repeat'
    first
    | intro _
    | with_reducible (
      first
      | assumption | apply State.setReg_keeps | apply State.refreshAll_keeps | apply State.setSrc_keeps | apply State.reply_keeps
      | fail_if_no_progress apply keeps_mk | apply keeps_ite)
    | split | dsimp only

theorem State.wrReg_keeps {s0 : State} {s : State} {q : Requester} {r : RegDef} {off : Nat} {d : Nat} {m : Nat} (hs : Keeps s0 s) :
    Keeps s0 (State.wrReg s q r off d m) := by
  unfold State.wrReg
  repeat'
    first
    | intro _
    | with_reducible (
      first
      | assumption | apply opt_orElse | apply State.wrPlain_keeps | apply State.wrGav_keeps | apply State.wrEng_keeps | apply State.wrSlc_keeps
      | apply State.wrClu_keeps | apply State.wrIc_keeps | apply State.wrOct_keeps | apply State.wrSec_keeps | apply State.wrMisc_keeps
      | fail_if_no_progress apply keeps_mk | apply opt_some | apply opt_none | apply keeps_ite | apply opt_ite
      | refine keeps_of_some (by assumption) ?_)
    | split | dsimp only

theorem refused_keeps {s0 : State} {resp : Nat} {s : State} (hs : Keeps s0 s) :
    Keeps s0 (refused resp s).2 := by
  unfold refused
  repeat'
    first
    | intro _
    | with_reducible (
      first
      | assumption | fail_if_no_progress apply keeps_mk | refine keeps_of_eq (by assumption) ?_ | refine keeps_of_eq2 (by assumption) ?_
      | refine keeps_of_eq3 (by assumption) ?_)
    | split | dsimp only

theorem State.claimRead_keeps {s0 : State} {s : State} {c : Nat} {dst : ClaimBy} {m : Nat} (hs : Keeps s0 s) :
    Keeps s0 (State.claimRead s c dst m).2 := by
  unfold State.claimRead
  repeat'
    first
    | intro _
    | with_reducible (
      first
      | assumption | apply State.claim1_keeps | apply State.waitClaim_keeps | fail_if_no_progress apply keeps_mk | apply keeps_ite | apply keeps_ite1
      | apply keeps_ite2 | refine keeps_of_eq (by assumption) ?_ | refine keeps_of_eq2 (by assumption) ?_ | refine keeps_of_eq3 (by assumption) ?_)
    | split | dsimp only

theorem State.keepTimed_keeps {s0 : State} {s : State} {r : RegDef} {off : Nat} {v : Word} (hs : Keeps s0 s) :
    Keeps s0 (State.keepTimed s r off v) := by
  unfold State.keepTimed
  repeat'
    first
    | intro _
    | with_reducible (
      first
      | assumption | apply State.setReg_keeps | apply State.wr_keeps | fail_if_no_progress apply keeps_mk | apply keeps_ite)
    | split | dsimp only

theorem State.platRead_keeps {s0 : State} {s : State} {q : Requester} {off : Nat} {size : Nat} {dst : ClaimBy} (hs : Keeps s0 s) :
    Keeps s0 (State.platRead s q off size dst).2 := by
  unfold State.platRead
  repeat'
    first
    | intro _
    | with_reducible (
      first
      | assumption | apply refused_keeps | apply State.claimRead_keeps | apply State.takeFree_keeps | apply State.keepTimed_keeps
      | fail_if_no_progress apply keeps_mk | apply keeps_ite | apply keeps_ite1 | apply keeps_ite2 | refine keeps_of_eq (by assumption) ?_
      | refine keeps_of_eq2 (by assumption) ?_ | refine keeps_of_eq3 (by assumption) ?_)
    | split | dsimp only

theorem State.platWrite_keeps {s0 : State} {s : State} {q : Requester} {off : Nat} {size : Nat} {d : Word} (hs : Keeps s0 s) :
    Keeps s0 (State.platWrite s q off size d) := by
  unfold State.platWrite
  repeat'
    first
    | intro _
    | with_reducible (
      first
      | assumption | apply State.reply_keeps | apply State.wrReg_keeps | fail_if_no_progress apply keeps_mk | apply keeps_ite)
    | split | dsimp only

theorem execRegisterWrite_keeps {s0 : State} {r : Requester} {off : BitVec 26} {sz : AccSz} {d : Word} {s : State} (hs : Keeps s0 s) :
    OutKeeps s0 (execRegisterWrite r off sz d s) := by
  unfold execRegisterWrite
  repeat'
    first
    | intro _
    | with_reducible (
      first
      | assumption | apply State.platWrite_keeps | fail_if_no_progress apply keeps_mk | apply out_next)
    | split | dsimp only

/-! TenantPage -/

theorem State.setMsix_keeps {s0 : State} {s : State} {f : Nat} {w : Nat} {d : Word} (hs : Keeps s0 s) :
    Keeps s0 (State.setMsix s f w d) := by
  unfold State.setMsix
  repeat'
    first
    | intro _
    | with_reducible (
      first
      | assumption | apply State.msixUnmask_keeps | fail_if_no_progress apply keeps_mk | apply keeps_ite)
    | split | dsimp only

theorem State.qwRead_keeps {s0 : State} {s : State} {t : Nat} {o : Nat} {size : Nat} (hs : Keeps s0 s) :
    Keeps s0 (State.qwRead s t o size).2 := by
  unfold State.qwRead
  repeat'
    first
    | intro _
    | with_reducible (
      first
      | assumption | apply refused_keeps | apply State.deq_keeps | apply State.allocBuf_keeps | fail_if_no_progress apply keeps_mk | apply keeps_ite
      | apply keeps_ite1 | apply keeps_ite2 | refine keeps_of_eq (by assumption) ?_ | refine keeps_of_eq2 (by assumption) ?_
      | refine keeps_of_eq3 (by assumption) ?_)
    | split | dsimp only

theorem State.qwWrite_keeps {s0 : State} {s : State} {t : Nat} {o : Nat} {size : Nat} {d : Word} (hs : Keeps s0 s) :
    Keeps s0 (State.qwWrite s t o size d) := by
  unfold State.qwWrite
  repeat'
    first
    | intro _
    | with_reducible (
      first
      | assumption | apply State.reply_keeps | apply State.enq_keeps | apply State.freeOp_keeps | fail_if_no_progress apply keeps_mk | apply keeps_ite)
    | split | dsimp only

theorem State.pageRead_keeps {s0 : State} {s : State} {t : Nat} {w : PageWho} {off : Nat} {size : Nat} (hs : Keeps s0 s) :
    Keeps s0 (State.pageRead s t w off size).2 := by
  unfold State.pageRead
  repeat'
    first
    | intro _
    | with_reducible (
      first
      | assumption | apply refused_keeps | apply State.qwRead_keeps | apply State.claimRead_keeps | fail_if_no_progress apply keeps_mk
      | apply keeps_ite | apply keeps_ite1 | apply keeps_ite2 | refine keeps_of_eq (by assumption) ?_ | refine keeps_of_eq2 (by assumption) ?_
      | refine keeps_of_eq3 (by assumption) ?_)
    | split | dsimp only

theorem State.pageWrite_keeps {s0 : State} {s : State} {t : Nat} {w : PageWho} {off : Nat} {size : Nat} {d : Word} (hs : Keeps s0 s) :
    Keeps s0 (State.pageWrite s t w off size d) := by
  unfold State.pageWrite
  repeat'
    first
    | intro _
    | with_reducible (
      first
      | assumption | apply State.reply_keeps | apply State.qwWrite_keeps | apply State.complete_keeps | apply State.setThr_keeps
      | apply State.doorbell_keeps | apply State.setReg_keeps | apply State.setMsix_keeps | fail_if_no_progress apply keeps_mk | apply keeps_ite)
    | split | dsimp only

end Sys2Proof.Machine
end

