-- ==== Sys2Proof/Laws/KeepsEngine.lean ====
section
/-! SUPPORT. What the operations of engine instructions, PCIe, the sideband and the tick keep: the queue and the canonical form of memory. -/
set_option linter.unreachableTactic false
set_option linter.unusedTactic false
namespace Sys2Proof.Machine
open Reg

/-! LoadStore -/

theorem State.coreLoad_keeps {s0 : State} {s : State} {e : Nat} {l : Nat} {key : Nat} (hs : Keeps s0 s) :
    Keeps s0 (State.coreLoad s e l key).2.2 := by
  unfold State.coreLoad
  repeat'
    first
    | intro _
    | with_reducible (
      first
      | assumption | apply State.count_keeps | apply State.setCcFlaw_keeps | apply State.dirRdS_keeps | apply State.ccCheck_keeps
      | apply State.fillCore_keeps | fail_if_no_progress apply keeps_mk | apply keeps_ite | apply keeps_ite1 | apply keeps_ite2
      | refine keeps_of_eq (by assumption) ?_ | refine keeps_of_eq2 (by assumption) ?_ | refine keeps_of_eq3 (by assumption) ?_)
    | split | dsimp only

theorem State.portLine_keeps {s0 : State} {s : State} {e : Nat} {pa : Nat} {key : Nat} (hs : Keeps s0 s) :
    Opt2Keeps s0 (State.portLine s e pa key) := by
  unfold State.portLine
  repeat'
    first
    | intro _
    | with_reducible (
      first
      | assumption | apply State.lvsRead_keeps | apply State.coreLoad_keeps | apply State.defaultTarget_keeps | fail_if_no_progress apply keeps_mk
      | apply opt2_some | apply opt2_none | apply opt2_map | apply opt2_ite | refine keeps_of_some2 (by assumption) ?_ | apply keeps_ite
      | apply keeps_ite1 | apply keeps_ite2 | refine keeps_of_eq (by assumption) ?_ | refine keeps_of_eq2 (by assumption) ?_
      | refine keeps_of_eq3 (by assumption) ?_)
    | split | dsimp only

theorem State.loadLine_keeps {s0 : State} {s : State} {e : Nat} {pa : Nat} {key : Nat} (hs : Keeps s0 s) :
    Opt2Keeps s0 (State.loadLine s e pa key) := by
  unfold State.loadLine
  repeat'
    first
    | intro _
    | with_reducible (
      first
      | assumption | apply State.portLine_keeps | fail_if_no_progress apply keeps_mk | apply opt2_some | apply opt2_none | apply opt2_map
      | apply opt2_ite | refine keeps_of_some2 (by assumption) ?_)
    | split | dsimp only

theorem State.sent_keeps {s0 : State} {s : State} {e : Nat} {a : MemOp} {k : PendKind} {rd : Nat} {pa : Nat} {r : Answered} (hs : Keeps s0 s) :
    Keeps s0 (State.sent s e a k rd pa r) := by
  unfold State.sent
  repeat'
    first
    | intro _
    | with_reducible (
      first
      | assumption | apply State.modEngine_keeps | fail_if_no_progress apply keeps_mk)
    | split | dsimp only

theorem State.sendRead_keeps {s0 : State} {s : State} {e : Nat} {a : MemOp} {k : PendKind} {rd : Nat} {pa : Nat} {f : State → Answered × State} (hf : ∀ t, Keeps s0 t → Keeps s0 (f t).2) (hs : Keeps s0 s) :
    ResKeeps s0 (State.sendRead s e a k rd pa f) := by
  unfold State.sendRead
  repeat'
    first
    | intro _
    | with_reducible (
      first
      | assumption | apply hf | apply State.commitNow_keeps | apply State.setPc_keeps | apply State.sent_keeps | fail_if_no_progress apply keeps_mk
      | apply res_done | apply res_commit | apply res_settle | apply res_fault | apply res_wait | apply res_kept | apply res_stall)
    | split | dsimp only

theorem State.sendWrite_keeps {s0 : State} {s : State} {e : Nat} {a : MemOp} {pa : Nat} {f : State → Answered × State} (hf : ∀ t, Keeps s0 t → Keeps s0 (f t).2) (hs : Keeps s0 s) :
    ResKeeps s0 (State.sendWrite s e a pa f) := by
  unfold State.sendWrite
  repeat'
    first
    | intro _
    | with_reducible (
      first
      | assumption | apply hf | apply State.drained_keeps | apply State.setPc_keeps | apply State.drainOut_keeps | apply State.commitNow_keeps
      | apply State.sent_keeps | fail_if_no_progress apply keeps_mk | apply res_done | apply res_commit | apply res_settle | apply res_fault
      | apply res_wait | apply res_kept | apply res_stall | apply keeps_ite | apply res_ite | refine keeps_of_done (by assumption) ?_
      | refine keeps_of_commit (by assumption) ?_ | refine keeps_of_settle (by assumption) ?_ | refine keeps_of_fault (by assumption) ?_
      | refine keeps_of_wait (by assumption) ?_ | refine keeps_of_kept (by assumption) ?_)
    | split | dsimp only

theorem answered_keeps {s0 : State} {t : State} (hs : Keeps s0 t) :
    Keeps s0 (answered t).2 := by
  unfold answered
  repeat'
    first
    | intro _
    | with_reducible (
      first
      | assumption | fail_if_no_progress apply keeps_mk | refine keeps_of_eq (by assumption) ?_ | refine keeps_of_eq2 (by assumption) ?_
      | refine keeps_of_eq3 (by assumption) ?_)
    | split | dsimp only

theorem State.viewRead_keeps {s0 : State} {s : State} {e : Nat} {pa : Nat} {size : Nat} (hs : Keeps s0 s) :
    Keeps s0 (State.viewRead s e pa size).2 := by
  unfold State.viewRead
  repeat'
    first
    | intro _
    | with_reducible (
      first
      | assumption | apply State.platRead_keeps | apply refused_keeps | apply State.pageRead_keeps | apply State.emit_keeps
      | fail_if_no_progress apply keeps_mk | apply keeps_ite | apply keeps_ite1 | apply keeps_ite2 | refine keeps_of_eq (by assumption) ?_
      | refine keeps_of_eq2 (by assumption) ?_ | refine keeps_of_eq3 (by assumption) ?_)
    | split | dsimp only

theorem State.viewWrite_keeps {s0 : State} {s : State} {e : Nat} {pa : Nat} {bs : List Byte} (hs : Keeps s0 s) :
    Keeps s0 (State.viewWrite s e pa bs).2 := by
  unfold State.viewWrite
  repeat'
    first
    | intro _
    | with_reducible (
      first
      | assumption | apply answered_keeps | apply State.platWrite_keeps | apply State.reply_keeps | apply State.pageWrite_keeps
      | apply State.emit_keeps | fail_if_no_progress apply keeps_mk | apply keeps_ite | apply keeps_ite1 | apply keeps_ite2
      | refine keeps_of_eq (by assumption) ?_ | refine keeps_of_eq2 (by assumption) ?_ | refine keeps_of_eq3 (by assumption) ?_)
    | split | dsimp only

theorem State.loadAcc_keeps {s0 : State} {s : State} {e : Nat} {a : MemOp} {k : PendKind} {rd : Nat} (hs : Keeps s0 s) :
    ResKeeps s0 (State.loadAcc s e a k rd) := by
  unfold State.loadAcc
  repeat'
    first
    | intro _
    | with_reducible (
      first
      | assumption | apply State.sendRead_keeps | apply State.pageRead_keeps | apply State.viewRead_keeps | apply State.loadLine_keeps
      | apply State.modRun_keeps | fail_if_no_progress apply keeps_mk | apply res_done | apply res_commit | apply res_settle | apply res_fault
      | apply res_wait | apply res_kept | apply res_stall | apply opt2_some | apply opt2_none | apply opt2_map | apply opt2_ite
      | refine keeps_of_some2 (by assumption) ?_ | apply keeps_ite | apply keeps_ite1 | apply keeps_ite2 | apply res_ite
      | refine keeps_of_eq (by assumption) ?_ | refine keeps_of_eq2 (by assumption) ?_ | refine keeps_of_eq3 (by assumption) ?_
      | refine keeps_of_done (by assumption) ?_ | refine keeps_of_commit (by assumption) ?_ | refine keeps_of_settle (by assumption) ?_
      | refine keeps_of_fault (by assumption) ?_ | refine keeps_of_wait (by assumption) ?_ | refine keeps_of_kept (by assumption) ?_)
    | split | dsimp only

theorem State.loadRes_keeps {s0 : State} {s : State} {e : Nat} {rs1 : RegNo} {a : MemOp} {k : PendKind} {rd : Nat} (hs : Keeps s0 s) :
    ResKeeps s0 (State.loadRes s e rs1 a k rd) := by
  unfold State.loadRes
  repeat'
    first
    | intro _
    | with_reducible (
      first
      | assumption | apply State.loadAcc_keeps | fail_if_no_progress apply keeps_mk | apply res_done | apply res_commit | apply res_settle
      | apply res_fault | apply res_wait | apply res_kept | apply res_stall | refine keeps_of_done (by assumption) ?_
      | refine keeps_of_commit (by assumption) ?_ | refine keeps_of_settle (by assumption) ?_ | refine keeps_of_fault (by assumption) ?_
      | refine keeps_of_wait (by assumption) ?_ | refine keeps_of_kept (by assumption) ?_)
    | split | dsimp only

theorem State.issueLoad_keeps {s0 : State} {s : State} {e : EngId} {rd : RegNo} {rs1 : RegNo} {imm : BitVec 16} {k : PendKind} (hs : Keeps s0 s) :
    Keeps s0 (State.issueLoad s e rd rs1 imm k) := by
  unfold State.issueLoad
  repeat'
    first
    | intro _
    | with_reducible (
      first
      | assumption | apply State.issue_keeps | apply State.loadRes_keeps | fail_if_no_progress apply keeps_mk | apply res_done | apply res_commit
      | apply res_settle | apply res_fault | apply res_wait | apply res_kept | apply res_stall | refine keeps_of_done (by assumption) ?_
      | refine keeps_of_commit (by assumption) ?_ | refine keeps_of_settle (by assumption) ?_ | refine keeps_of_fault (by assumption) ?_
      | refine keeps_of_wait (by assumption) ?_ | refine keeps_of_kept (by assumption) ?_)
    | split | dsimp only

theorem execLd_keeps {s0 : State} {e : EngId} {rd : RegNo} {rs1 : RegNo} {imm : BitVec 16} {s : State} (hs : Keeps s0 s) :
    OutKeeps s0 (execLd e rd rs1 imm s) := by
  unfold execLd
  repeat'
    first
    | intro _
    | with_reducible (
      first
      | assumption | apply State.issueLoad_keeps | fail_if_no_progress apply keeps_mk | apply out_next)
    | split | dsimp only

theorem execLdw_keeps {s0 : State} {e : EngId} {rd : RegNo} {rs1 : RegNo} {imm : BitVec 16} {s : State} (hs : Keeps s0 s) :
    OutKeeps s0 (execLdw e rd rs1 imm s) := by
  unfold execLdw
  repeat'
    first
    | intro _
    | with_reducible (
      first
      | assumption | apply State.issueLoad_keeps | fail_if_no_progress apply keeps_mk | apply out_next)
    | split | dsimp only

theorem execLdwu_keeps {s0 : State} {e : EngId} {rd : RegNo} {rs1 : RegNo} {imm : BitVec 16} {s : State} (hs : Keeps s0 s) :
    OutKeeps s0 (execLdwu e rd rs1 imm s) := by
  unfold execLdwu
  repeat'
    first
    | intro _
    | with_reducible (
      first
      | assumption | apply State.issueLoad_keeps | fail_if_no_progress apply keeps_mk | apply out_next)
    | split | dsimp only

theorem execLdh_keeps {s0 : State} {e : EngId} {rd : RegNo} {rs1 : RegNo} {imm : BitVec 16} {s : State} (hs : Keeps s0 s) :
    OutKeeps s0 (execLdh e rd rs1 imm s) := by
  unfold execLdh
  repeat'
    first
    | intro _
    | with_reducible (
      first
      | assumption | apply State.issueLoad_keeps | fail_if_no_progress apply keeps_mk | apply out_next)
    | split | dsimp only

theorem execLdhu_keeps {s0 : State} {e : EngId} {rd : RegNo} {rs1 : RegNo} {imm : BitVec 16} {s : State} (hs : Keeps s0 s) :
    OutKeeps s0 (execLdhu e rd rs1 imm s) := by
  unfold execLdhu
  repeat'
    first
    | intro _
    | with_reducible (
      first
      | assumption | apply State.issueLoad_keeps | fail_if_no_progress apply keeps_mk | apply out_next)
    | split | dsimp only

theorem execLdb_keeps {s0 : State} {e : EngId} {rd : RegNo} {rs1 : RegNo} {imm : BitVec 16} {s : State} (hs : Keeps s0 s) :
    OutKeeps s0 (execLdb e rd rs1 imm s) := by
  unfold execLdb
  repeat'
    first
    | intro _
    | with_reducible (
      first
      | assumption | apply State.issueLoad_keeps | fail_if_no_progress apply keeps_mk | apply out_next)
    | split | dsimp only

theorem execLdbu_keeps {s0 : State} {e : EngId} {rd : RegNo} {rs1 : RegNo} {imm : BitVec 16} {s : State} (hs : Keeps s0 s) :
    OutKeeps s0 (execLdbu e rd rs1 imm s) := by
  unfold execLdbu
  repeat'
    first
    | intro _
    | with_reducible (
      first
      | assumption | apply State.issueLoad_keeps | fail_if_no_progress apply keeps_mk | apply out_next)
    | split | dsimp only

theorem execLdX_keeps {s0 : State} {e : EngId} {rd : RegNo} {rs1 : RegNo} {imm : BitVec 16} {s : State} (hs : Keeps s0 s) :
    OutKeeps s0 (execLdX e rd rs1 imm s) := by
  unfold execLdX
  repeat'
    first
    | intro _
    | with_reducible (
      first
      | assumption | apply State.issueLoad_keeps | fail_if_no_progress apply keeps_mk | apply out_next)
    | split | dsimp only

theorem execFld_keeps {s0 : State} {e : EngId} {fd : RegNo} {rs1 : RegNo} {imm : BitVec 16} {s : State} (hs : Keeps s0 s) :
    OutKeeps s0 (execFld e fd rs1 imm s) := by
  unfold execFld
  repeat'
    first
    | intro _
    | with_reducible (
      first
      | assumption | apply State.issueLoad_keeps | fail_if_no_progress apply keeps_mk | apply out_next)
    | split | dsimp only

theorem execFlw_keeps {s0 : State} {e : EngId} {fd : RegNo} {rs1 : RegNo} {imm : BitVec 16} {s : State} (hs : Keeps s0 s) :
    OutKeeps s0 (execFlw e fd rs1 imm s) := by
  unfold execFlw
  repeat'
    first
    | intro _
    | with_reducible (
      first
      | assumption | apply State.issueLoad_keeps | fail_if_no_progress apply keeps_mk | apply out_next)
    | split | dsimp only

theorem ldpRes_keeps {s0 : State} {e : Nat} {rd : RegNo} {rs1 : RegNo} {imm : BitVec 16} {pc : Nat} {next : Nat} {post : List (Nat × TWord)} {s : State} (hs : Keeps s0 s) :
    ResKeeps s0 (ldpRes e rd rs1 imm pc next post s) := by
  unfold ldpRes
  repeat'
    first
    | intro _
    | with_reducible (
      first
      | assumption | apply State.loadRes_keeps | fail_if_no_progress apply keeps_mk | apply res_done | apply res_commit | apply res_settle
      | apply res_fault | apply res_wait | apply res_kept | apply res_stall | apply keeps_ite | apply res_ite
      | refine keeps_of_done (by assumption) ?_ | refine keeps_of_commit (by assumption) ?_ | refine keeps_of_settle (by assumption) ?_
      | refine keeps_of_fault (by assumption) ?_ | refine keeps_of_wait (by assumption) ?_ | refine keeps_of_kept (by assumption) ?_)
    | split | dsimp only

theorem execLdp_keeps {s0 : State} {e : EngId} {rd : RegNo} {rs1 : RegNo} {imm : BitVec 16} {s : State} (hs : Keeps s0 s) :
    OutKeeps s0 (execLdp e rd rs1 imm s) := by
  unfold execLdp
  repeat'
    first
    | intro _
    | with_reducible (
      first
      | assumption | apply State.issue_keeps | apply ldpRes_keeps | fail_if_no_progress apply keeps_mk | apply out_next | apply res_done
      | apply res_commit | apply res_settle | apply res_fault | apply res_wait | apply res_kept | apply res_stall
      | refine keeps_of_done (by assumption) ?_ | refine keeps_of_commit (by assumption) ?_ | refine keeps_of_settle (by assumption) ?_
      | refine keeps_of_fault (by assumption) ?_ | refine keeps_of_wait (by assumption) ?_ | refine keeps_of_kept (by assumption) ?_)
    | split | dsimp only

theorem fldpRes_keeps {s0 : State} {e : Nat} {fd : RegNo} {rs1 : RegNo} {imm : BitVec 16} {pc : Nat} {next : Nat} {post : List (Nat × TWord)} {s : State} (hs : Keeps s0 s) :
    ResKeeps s0 (fldpRes e fd rs1 imm pc next post s) := by
  unfold fldpRes
  repeat'
    first
    | intro _
    | with_reducible (
      first
      | assumption | apply State.loadRes_keeps | fail_if_no_progress apply keeps_mk | apply res_done | apply res_commit | apply res_settle
      | apply res_fault | apply res_wait | apply res_kept | apply res_stall | apply keeps_ite | apply res_ite
      | refine keeps_of_done (by assumption) ?_ | refine keeps_of_commit (by assumption) ?_ | refine keeps_of_settle (by assumption) ?_
      | refine keeps_of_fault (by assumption) ?_ | refine keeps_of_wait (by assumption) ?_ | refine keeps_of_kept (by assumption) ?_)
    | split | dsimp only

theorem execFldp_keeps {s0 : State} {e : EngId} {fd : RegNo} {rs1 : RegNo} {imm : BitVec 16} {s : State} (hs : Keeps s0 s) :
    OutKeeps s0 (execFldp e fd rs1 imm s) := by
  unfold execFldp
  repeat'
    first
    | intro _
    | with_reducible (
      first
      | assumption | apply State.issue_keeps | apply fldpRes_keeps | fail_if_no_progress apply keeps_mk | apply out_next | apply res_done
      | apply res_commit | apply res_settle | apply res_fault | apply res_wait | apply res_kept | apply res_stall
      | refine keeps_of_done (by assumption) ?_ | refine keeps_of_commit (by assumption) ?_ | refine keeps_of_settle (by assumption) ?_
      | refine keeps_of_fault (by assumption) ?_ | refine keeps_of_wait (by assumption) ?_ | refine keeps_of_kept (by assumption) ?_)
    | split | dsimp only

theorem execVld_keeps {s0 : State} {e : EngId} {vd : BitVec 3} {et : BitVec 4} {rs1 : RegNo} {imm : BitVec 14} {s : State} (hs : Keeps s0 s) :
    OutKeeps s0 (execVld e vd et rs1 imm s) := by
  unfold execVld
  repeat'
    first
    | intro _
    | with_reducible (
      first
      | assumption | apply State.issue_keeps | apply State.loadRes_keeps | fail_if_no_progress apply keeps_mk | apply out_next | apply res_done
      | apply res_commit | apply res_settle | apply res_fault | apply res_wait | apply res_kept | apply res_stall | apply keeps_ite | apply res_ite
      | refine keeps_of_done (by assumption) ?_ | refine keeps_of_commit (by assumption) ?_ | refine keeps_of_settle (by assumption) ?_
      | refine keeps_of_fault (by assumption) ?_ | refine keeps_of_wait (by assumption) ?_ | refine keeps_of_kept (by assumption) ?_)
    | split | dsimp only

theorem State.storeAcc_keeps {s0 : State} {s : State} {e : Nat} {a : MemOp} {bs : List Byte} {tg : StTag} (hs : Keeps s0 s) :
    ResKeeps s0 (State.storeAcc s e a bs tg) := by
  unfold State.storeAcc
  repeat'
    first
    | intro _
    | with_reducible (
      first
      | assumption | apply State.modRun_keeps | apply State.gate_keeps | apply State.sendWrite_keeps | apply answered_keeps
      | apply State.pageWrite_keeps | apply State.viewWrite_keeps | apply State.loadLine_keeps | fail_if_no_progress apply keeps_mk | apply res_done
      | apply res_commit | apply res_settle | apply res_fault | apply res_wait | apply res_kept | apply res_stall | apply opt2_some | apply opt2_none
      | apply opt2_map | apply opt2_ite | refine keeps_of_some2 (by assumption) ?_ | apply keeps_ite | apply keeps_ite1 | apply keeps_ite2
      | apply res_ite | refine keeps_of_eq (by assumption) ?_ | refine keeps_of_eq2 (by assumption) ?_ | refine keeps_of_eq3 (by assumption) ?_
      | refine keeps_of_done (by assumption) ?_ | refine keeps_of_commit (by assumption) ?_ | refine keeps_of_settle (by assumption) ?_
      | refine keeps_of_fault (by assumption) ?_ | refine keeps_of_wait (by assumption) ?_ | refine keeps_of_kept (by assumption) ?_)
    | split | dsimp only

theorem State.storeRes_keeps {s0 : State} {s : State} {e : Nat} {rs1 : RegNo} {data : Option Trap} {a : MemOp} {bs : List Byte} {tg : StTag} (hs : Keeps s0 s) :
    ResKeeps s0 (State.storeRes s e rs1 data a bs tg) := by
  unfold State.storeRes
  repeat'
    first
    | intro _
    | with_reducible (
      first
      | assumption | apply State.storeAcc_keeps | fail_if_no_progress apply keeps_mk | apply res_done | apply res_commit | apply res_settle
      | apply res_fault | apply res_wait | apply res_kept | apply res_stall | refine keeps_of_done (by assumption) ?_
      | refine keeps_of_commit (by assumption) ?_ | refine keeps_of_settle (by assumption) ?_ | refine keeps_of_fault (by assumption) ?_
      | refine keeps_of_wait (by assumption) ?_ | refine keeps_of_kept (by assumption) ?_)
    | split | dsimp only

theorem execSt_keeps {s0 : State} {e : EngId} {rs : RegNo} {rs1 : RegNo} {imm : BitVec 16} {s : State} (hs : Keeps s0 s) :
    OutKeeps s0 (execSt e rs rs1 imm s) := by
  unfold execSt
  repeat'
    first
    | intro _
    | with_reducible (
      first
      | assumption | apply State.issue_keeps | apply State.storeRes_keeps | fail_if_no_progress apply keeps_mk | apply out_next | apply res_done
      | apply res_commit | apply res_settle | apply res_fault | apply res_wait | apply res_kept | apply res_stall
      | refine keeps_of_done (by assumption) ?_ | refine keeps_of_commit (by assumption) ?_ | refine keeps_of_settle (by assumption) ?_
      | refine keeps_of_fault (by assumption) ?_ | refine keeps_of_wait (by assumption) ?_ | refine keeps_of_kept (by assumption) ?_)
    | split | dsimp only

theorem subStore_keeps {s0 : State} {e : Nat} {rs : RegNo} {rs1 : RegNo} {n : Nat} {p : Tag} {a : MemOp} {s : State} (hs : Keeps s0 s) :
    ResKeeps s0 (subStore e rs rs1 n p a s) := by
  unfold subStore
  repeat'
    first
    | intro _
    | with_reducible (
      first
      | assumption | apply State.storeRes_keeps | fail_if_no_progress apply keeps_mk | apply res_done | apply res_commit | apply res_settle
      | apply res_fault | apply res_wait | apply res_kept | apply res_stall | refine keeps_of_done (by assumption) ?_
      | refine keeps_of_commit (by assumption) ?_ | refine keeps_of_settle (by assumption) ?_ | refine keeps_of_fault (by assumption) ?_
      | refine keeps_of_wait (by assumption) ?_ | refine keeps_of_kept (by assumption) ?_)
    | split | dsimp only

theorem execStw_keeps {s0 : State} {e : EngId} {rs : RegNo} {rs1 : RegNo} {imm : BitVec 16} {s : State} (hs : Keeps s0 s) :
    OutKeeps s0 (execStw e rs rs1 imm s) := by
  unfold execStw
  repeat'
    first
    | intro _
    | with_reducible (
      first
      | assumption | apply State.issue_keeps | apply subStore_keeps | fail_if_no_progress apply keeps_mk | apply out_next | apply res_done
      | apply res_commit | apply res_settle | apply res_fault | apply res_wait | apply res_kept | apply res_stall
      | refine keeps_of_done (by assumption) ?_ | refine keeps_of_commit (by assumption) ?_ | refine keeps_of_settle (by assumption) ?_
      | refine keeps_of_fault (by assumption) ?_ | refine keeps_of_wait (by assumption) ?_ | refine keeps_of_kept (by assumption) ?_)
    | split | dsimp only

theorem execSth_keeps {s0 : State} {e : EngId} {rs : RegNo} {rs1 : RegNo} {imm : BitVec 16} {s : State} (hs : Keeps s0 s) :
    OutKeeps s0 (execSth e rs rs1 imm s) := by
  unfold execSth
  repeat'
    first
    | intro _
    | with_reducible (
      first
      | assumption | apply State.issue_keeps | apply subStore_keeps | fail_if_no_progress apply keeps_mk | apply out_next | apply res_done
      | apply res_commit | apply res_settle | apply res_fault | apply res_wait | apply res_kept | apply res_stall
      | refine keeps_of_done (by assumption) ?_ | refine keeps_of_commit (by assumption) ?_ | refine keeps_of_settle (by assumption) ?_
      | refine keeps_of_fault (by assumption) ?_ | refine keeps_of_wait (by assumption) ?_ | refine keeps_of_kept (by assumption) ?_)
    | split | dsimp only

theorem execStb_keeps {s0 : State} {e : EngId} {rs : RegNo} {rs1 : RegNo} {imm : BitVec 16} {s : State} (hs : Keeps s0 s) :
    OutKeeps s0 (execStb e rs rs1 imm s) := by
  unfold execStb
  repeat'
    first
    | intro _
    | with_reducible (
      first
      | assumption | apply State.issue_keeps | apply subStore_keeps | fail_if_no_progress apply keeps_mk | apply out_next | apply res_done
      | apply res_commit | apply res_settle | apply res_fault | apply res_wait | apply res_kept | apply res_stall
      | refine keeps_of_done (by assumption) ?_ | refine keeps_of_commit (by assumption) ?_ | refine keeps_of_settle (by assumption) ?_
      | refine keeps_of_fault (by assumption) ?_ | refine keeps_of_wait (by assumption) ?_ | refine keeps_of_kept (by assumption) ?_)
    | split | dsimp only

theorem stpRes_keeps {s0 : State} {e : Nat} {rs : RegNo} {rs1 : RegNo} {imm : BitVec 16} {pc : Nat} {next : Nat} {post : List (Nat × TWord)} {s : State} (hs : Keeps s0 s) :
    ResKeeps s0 (stpRes e rs rs1 imm pc next post s) := by
  unfold stpRes
  repeat'
    first
    | intro _
    | with_reducible (
      first
      | assumption | apply State.storeRes_keeps | fail_if_no_progress apply keeps_mk | apply res_done | apply res_commit | apply res_settle
      | apply res_fault | apply res_wait | apply res_kept | apply res_stall | apply keeps_ite | apply res_ite
      | refine keeps_of_done (by assumption) ?_ | refine keeps_of_commit (by assumption) ?_ | refine keeps_of_settle (by assumption) ?_
      | refine keeps_of_fault (by assumption) ?_ | refine keeps_of_wait (by assumption) ?_ | refine keeps_of_kept (by assumption) ?_)
    | split | dsimp only

theorem execStp_keeps {s0 : State} {e : EngId} {rs : RegNo} {rs1 : RegNo} {imm : BitVec 16} {s : State} (hs : Keeps s0 s) :
    OutKeeps s0 (execStp e rs rs1 imm s) := by
  unfold execStp
  repeat'
    first
    | intro _
    | with_reducible (
      first
      | assumption | apply State.issue_keeps | apply stpRes_keeps | fail_if_no_progress apply keeps_mk | apply out_next | apply res_done
      | apply res_commit | apply res_settle | apply res_fault | apply res_wait | apply res_kept | apply res_stall
      | refine keeps_of_done (by assumption) ?_ | refine keeps_of_commit (by assumption) ?_ | refine keeps_of_settle (by assumption) ?_
      | refine keeps_of_fault (by assumption) ?_ | refine keeps_of_wait (by assumption) ?_ | refine keeps_of_kept (by assumption) ?_)
    | split | dsimp only

theorem execFsd_keeps {s0 : State} {e : EngId} {fs : RegNo} {rs1 : RegNo} {imm : BitVec 16} {s : State} (hs : Keeps s0 s) :
    OutKeeps s0 (execFsd e fs rs1 imm s) := by
  unfold execFsd
  repeat'
    first
    | intro _
    | with_reducible (
      first
      | assumption | apply State.issue_keeps | apply State.storeRes_keeps | fail_if_no_progress apply keeps_mk | apply out_next | apply res_done
      | apply res_commit | apply res_settle | apply res_fault | apply res_wait | apply res_kept | apply res_stall
      | refine keeps_of_done (by assumption) ?_ | refine keeps_of_commit (by assumption) ?_ | refine keeps_of_settle (by assumption) ?_
      | refine keeps_of_fault (by assumption) ?_ | refine keeps_of_wait (by assumption) ?_ | refine keeps_of_kept (by assumption) ?_)
    | split | dsimp only

theorem fsdpRes_keeps {s0 : State} {e : Nat} {fs : RegNo} {rs1 : RegNo} {imm : BitVec 16} {pc : Nat} {next : Nat} {post : List (Nat × TWord)} {s : State} (hs : Keeps s0 s) :
    ResKeeps s0 (fsdpRes e fs rs1 imm pc next post s) := by
  unfold fsdpRes
  repeat'
    first
    | intro _
    | with_reducible (
      first
      | assumption | apply State.storeRes_keeps | fail_if_no_progress apply keeps_mk | apply res_done | apply res_commit | apply res_settle
      | apply res_fault | apply res_wait | apply res_kept | apply res_stall | apply keeps_ite | apply res_ite
      | refine keeps_of_done (by assumption) ?_ | refine keeps_of_commit (by assumption) ?_ | refine keeps_of_settle (by assumption) ?_
      | refine keeps_of_fault (by assumption) ?_ | refine keeps_of_wait (by assumption) ?_ | refine keeps_of_kept (by assumption) ?_)
    | split | dsimp only

theorem execFsdp_keeps {s0 : State} {e : EngId} {fs : RegNo} {rs1 : RegNo} {imm : BitVec 16} {s : State} (hs : Keeps s0 s) :
    OutKeeps s0 (execFsdp e fs rs1 imm s) := by
  unfold execFsdp
  repeat'
    first
    | intro _
    | with_reducible (
      first
      | assumption | apply State.issue_keeps | apply fsdpRes_keeps | fail_if_no_progress apply keeps_mk | apply out_next | apply res_done
      | apply res_commit | apply res_settle | apply res_fault | apply res_wait | apply res_kept | apply res_stall
      | refine keeps_of_done (by assumption) ?_ | refine keeps_of_commit (by assumption) ?_ | refine keeps_of_settle (by assumption) ?_
      | refine keeps_of_fault (by assumption) ?_ | refine keeps_of_wait (by assumption) ?_ | refine keeps_of_kept (by assumption) ?_)
    | split | dsimp only

theorem execFsw_keeps {s0 : State} {e : EngId} {fs : RegNo} {rs1 : RegNo} {imm : BitVec 16} {s : State} (hs : Keeps s0 s) :
    OutKeeps s0 (execFsw e fs rs1 imm s) := by
  unfold execFsw
  repeat'
    first
    | intro _
    | with_reducible (
      first
      | assumption | apply State.issue_keeps | apply State.storeRes_keeps | fail_if_no_progress apply keeps_mk | apply out_next | apply res_done
      | apply res_commit | apply res_settle | apply res_fault | apply res_wait | apply res_kept | apply res_stall
      | refine keeps_of_done (by assumption) ?_ | refine keeps_of_commit (by assumption) ?_ | refine keeps_of_settle (by assumption) ?_
      | refine keeps_of_fault (by assumption) ?_ | refine keeps_of_wait (by assumption) ?_ | refine keeps_of_kept (by assumption) ?_)
    | split | dsimp only

theorem execVst_keeps {s0 : State} {e : EngId} {vs : BitVec 3} {et : BitVec 4} {rs1 : RegNo} {imm : BitVec 14} {s : State} (hs : Keeps s0 s) :
    OutKeeps s0 (execVst e vs et rs1 imm s) := by
  unfold execVst
  repeat'
    first
    | intro _
    | with_reducible (
      first
      | assumption | apply State.issue_keeps | apply State.storeRes_keeps | fail_if_no_progress apply keeps_mk | apply out_next | apply res_done
      | apply res_commit | apply res_settle | apply res_fault | apply res_wait | apply res_kept | apply res_stall | apply keeps_ite | apply res_ite
      | refine keeps_of_done (by assumption) ?_ | refine keeps_of_commit (by assumption) ?_ | refine keeps_of_settle (by assumption) ?_
      | refine keeps_of_fault (by assumption) ?_ | refine keeps_of_wait (by assumption) ?_ | refine keeps_of_kept (by assumption) ?_)
    | split | dsimp only

theorem execLkld_keeps {s0 : State} {e : EngId} {rd : RegNo} {rs1 : RegNo} {s : State} (hs : Keeps s0 s) :
    OutKeeps s0 (execLkld e rd rs1 s) := by
  unfold execLkld
  repeat'
    first
    | intro _
    | with_reducible (
      first
      | assumption | apply State.issue_keeps | apply State.sendRead_keeps | apply State.drained_keeps | apply State.arrive_keeps
      | apply State.sent_keeps | fail_if_no_progress apply keeps_mk | apply out_next | apply res_done | apply res_commit | apply res_settle
      | apply res_fault | apply res_wait | apply res_kept | apply res_stall | apply keeps_ite | apply res_ite
      | refine keeps_of_done (by assumption) ?_ | refine keeps_of_commit (by assumption) ?_ | refine keeps_of_settle (by assumption) ?_
      | refine keeps_of_fault (by assumption) ?_ | refine keeps_of_wait (by assumption) ?_ | refine keeps_of_kept (by assumption) ?_)
    | split | dsimp only

theorem execLkst_keeps {s0 : State} {e : EngId} {rd : RegNo} {rs1 : RegNo} {rs2 : RegNo} {s : State} (hs : Keeps s0 s) :
    OutKeeps s0 (execLkst e rd rs1 rs2 s) := by
  unfold execLkst
  repeat'
    first
    | intro _
    | with_reducible (
      first
      | assumption | apply State.issue_keeps | apply State.drained_keeps | apply State.closeLock_keeps | apply State.sent_keeps
      | apply State.modEngine_keeps | apply State.lkst_keeps | fail_if_no_progress apply keeps_mk | apply out_next | apply res_done | apply res_commit
      | apply res_settle | apply res_fault | apply res_wait | apply res_kept | apply res_stall | apply keeps_ite | apply keeps_ite1 | apply keeps_ite2
      | apply res_ite | refine keeps_of_eq (by assumption) ?_ | refine keeps_of_eq2 (by assumption) ?_ | refine keeps_of_eq3 (by assumption) ?_
      | refine keeps_of_done (by assumption) ?_ | refine keeps_of_commit (by assumption) ?_ | refine keeps_of_settle (by assumption) ?_
      | refine keeps_of_fault (by assumption) ?_ | refine keeps_of_wait (by assumption) ?_ | refine keeps_of_kept (by assumption) ?_)
    | split | dsimp only

theorem execLkrel_keeps {s0 : State} {e : EngId} {rs1 : RegNo} {s : State} (hs : Keeps s0 s) :
    OutKeeps s0 (execLkrel e rs1 s) := by
  unfold execLkrel
  repeat'
    first
    | intro _
    | with_reducible (
      first
      | assumption | apply State.issue_keeps | apply State.drained_keeps | apply State.sent_keeps | apply State.modEngine_keeps
      | apply State.lkrel_keeps | fail_if_no_progress apply keeps_mk | apply out_next | apply res_done | apply res_commit | apply res_settle
      | apply res_fault | apply res_wait | apply res_kept | apply res_stall | refine keeps_of_done (by assumption) ?_
      | refine keeps_of_commit (by assumption) ?_ | refine keeps_of_settle (by assumption) ?_ | refine keeps_of_fault (by assumption) ?_
      | refine keeps_of_wait (by assumption) ?_ | refine keeps_of_kept (by assumption) ?_)
    | split | dsimp only

theorem State.answerAccess_keeps {s0 : State} {s : State} {e : Nat} {p : PendAccess} {resp : Nat} {ws : List TWord} (hs : Keeps s0 s) :
    Keeps s0 (State.answerAccess s e p resp ws) := by
  unfold State.answerAccess
  repeat'
    first
    | intro _
    | with_reducible (
      first
      | assumption | apply State.modEngine_keeps | apply State.modAsync_keeps | apply State.commitPoint_keeps | apply State.deferErr_keeps
      | apply State.takeException_keeps | fail_if_no_progress apply keeps_mk | apply keeps_ite)
    | split | dsimp only

theorem execAccessResponse_keeps {s0 : State} {e : EngId} {host : Option (Vector Word 4)} {s : State} (hs : Keeps s0 s) :
    OutKeeps s0 (execAccessResponse e host s) := by
  unfold execAccessResponse
  repeat'
    first
    | intro _
    | with_reducible (
      first
      | assumption | apply State.answerAccess_keeps | apply State.takeFreeN_keeps | fail_if_no_progress apply keeps_mk | apply out_next
      | apply keeps_ite | apply keeps_ite1 | apply keeps_ite2 | refine keeps_of_eq (by assumption) ?_ | refine keeps_of_eq2 (by assumption) ?_
      | refine keeps_of_eq3 (by assumption) ?_)
    | split | dsimp only

theorem execCacheLineFill_keeps {s0 : State} {e : EngId} {line : LineNo} {data : Bool} {s : State} (hs : Keeps s0 s) :
    OutKeeps s0 (execCacheLineFill e line data s) := by
  unfold execCacheLineFill
  repeat'
    first
    | intro _
    | with_reducible (
      first
      | assumption | apply State.ccCheck_keeps | apply State.count_keeps | apply State.fillCore_keeps | apply State.arrive_keeps
      | apply State.setCcFlaw_keeps | fail_if_no_progress apply keeps_mk | apply out_next | apply keeps_ite)
    | split | dsimp only

/-! Banks -/

theorem State.genStep_keeps {s0 : State} {s : State} {e : Nat} {t : Nat} (hs : Keeps s0 s) :
    Keeps s0 (State.genStep s e t) := by
  unfold State.genStep
  repeat'
    first
    | intro _
    | with_reducible (
      first
      | assumption | apply State.modEngine_keeps | fail_if_no_progress apply keeps_mk)
    | split | dsimp only

theorem State.freeTagged_keeps {s0 : State} {s : State} {vs : List Nat} (hs : Keeps s0 s) :
    Keeps s0 (State.freeTagged s vs).2 := by
  unfold State.freeTagged
  repeat'
    first
    | intro _
    | with_reducible (
      first
      | assumption | apply State.takeFreeN_keeps | fail_if_no_progress apply keeps_mk | refine keeps_of_eq (by assumption) ?_
      | refine keeps_of_eq2 (by assumption) ?_ | refine keeps_of_eq3 (by assumption) ?_)
    | split | dsimp only

theorem State.freeWords_keeps {s0 : State} {s : State} {n : Nat} (hs : Keeps s0 s) :
    Keeps s0 (State.freeWords s n).2 := by
  unfold State.freeWords
  repeat'
    first
    | intro _
    | with_reducible (
      first
      | assumption | apply State.takeFreeN_keeps | fail_if_no_progress apply keeps_mk | refine keeps_of_eq (by assumption) ?_
      | refine keeps_of_eq2 (by assumption) ?_ | refine keeps_of_eq3 (by assumption) ?_)
    | split | dsimp only

theorem State.putLines_keeps {s0 : State} {s : State} {key : Nat} {pa : Nat} {ls : List (Nat × List TWord)} (hs : Keeps s0 s) :
    Keeps s0 (State.putLines s key pa ls).2.2 := by
  unfold State.putLines
  repeat'
    first
    | intro _
    | with_reducible (
      first
      | assumption | apply State.cohFull_keeps | fail_if_no_progress apply keeps_mk | apply keeps_fold | apply keeps_fold1 | apply keeps_fold2
      | apply keeps_fold3 | apply keeps_ite | apply keeps_ite1 | apply keeps_ite2 | refine keeps_of_eq (by assumption) ?_
      | refine keeps_of_eq2 (by assumption) ?_ | refine keeps_of_eq3 (by assumption) ?_)
    | split | dsimp only

theorem State.getLines_keeps {s0 : State} {s : State} {key : Nat} {pa : Nat} {ls : List Nat} (hs : Keeps s0 s) :
    Keeps s0 (State.getLines s key pa ls).2.2.2 := by
  unfold State.getLines
  repeat'
    first
    | intro _
    | with_reducible (
      first
      | assumption | apply State.cohRead_keeps | fail_if_no_progress apply keeps_mk | apply keeps_fold | apply keeps_fold1 | apply keeps_fold2
      | apply keeps_fold3 | apply keeps_ite | apply keeps_ite1 | apply keeps_ite2 | refine keeps_of_eq (by assumption) ?_
      | refine keeps_of_eq2 (by assumption) ?_ | refine keeps_of_eq3 (by assumption) ?_)
    | split | dsimp only

theorem State.imageFault_keeps {s0 : State} {s : State} {e : Nat} {pc : Nat} {t : Trap} (hs : Keeps s0 s) :
    ResKeeps s0 (State.imageFault s e pc t) := by
  unfold State.imageFault
  repeat'
    first
    | intro _
    | with_reducible (
      first
      | assumption | apply State.commitPoint_keeps | apply State.takeException_keeps | fail_if_no_progress apply keeps_mk | apply res_done
      | apply res_commit | apply res_settle | apply res_fault | apply res_wait | apply res_kept | apply res_stall)
    | split | dsimp only

theorem State.groupLines_keeps {s0 : State} {s : State} {x : Bank} {mask : Nat} (hs : Keeps s0 s) :
    Keeps s0 (State.groupLines s x mask).2 := by
  unfold State.groupLines
  repeat'
    first
    | intro _
    | with_reducible (
      first
      | assumption | apply State.freeTagged_keeps | fail_if_no_progress apply keeps_mk | apply keeps_fold | apply keeps_fold1 | apply keeps_fold2
      | apply keeps_fold3 | refine keeps_of_eq (by assumption) ?_ | refine keeps_of_eq2 (by assumption) ?_ | refine keeps_of_eq3 (by assumption) ?_)
    | split | dsimp only

theorem State.bankSave_keeps {s0 : State} {s : State} {e : Nat} {b : Nat} {pa : Nat} {pc : Nat} {clr : Bool} (hs : Keeps s0 s) :
    ResKeeps s0 (State.bankSave s e b pa pc clr) := by
  unfold State.bankSave
  repeat'
    first
    | intro _
    | with_reducible (
      first
      | assumption | apply State.genStep_keeps | apply State.freeTagged_keeps | apply State.freeWords_keeps | apply State.groupLines_keeps
      | apply State.putLines_keeps | apply State.modEngine_keeps | apply State.lkrel_keeps | apply State.imageFault_keeps
      | apply State.vacateBank_keeps | apply State.modBank_keeps | refine keeps_mem ?_ (fun hm => Mem.images_wf _ _ _ hm)
      | fail_if_no_progress apply keeps_mk | apply keeps_fold | apply keeps_fold1 | apply keeps_fold2 | apply keeps_fold3 | apply res_done
      | apply res_commit | apply res_settle | apply res_fault | apply res_wait | apply res_kept | apply res_stall | apply keeps_ite | apply keeps_ite1
      | apply keeps_ite2 | apply res_ite | refine keeps_of_eq (by assumption) ?_ | refine keeps_of_eq2 (by assumption) ?_
      | refine keeps_of_eq3 (by assumption) ?_ | refine keeps_of_done (by assumption) ?_ | refine keeps_of_commit (by assumption) ?_
      | refine keeps_of_settle (by assumption) ?_ | refine keeps_of_fault (by assumption) ?_ | refine keeps_of_wait (by assumption) ?_
      | refine keeps_of_kept (by assumption) ?_)
    | split | dsimp only

theorem bankRes_keeps {s0 : State} {s : State} {e : Nat} {r : Res} (hr : ResKeeps s0 r) (hs : Keeps s0 s) : ResKeeps s0 (bankRes s e r) := by
  cases r with
  | done s => exact hr
  | commit s => exact res_commit (State.clearBusy_keeps (keeps_of_commit rfl hr))
  | settle s => exact hr
  | fault x s => exact hr
  | stall => exact res_wait (State.noteBusy_keeps hs)
  | wait s => exact res_wait (State.noteBusy_keeps (keeps_of_wait rfl hr))
  | kept s => exact res_kept (State.clearBusy_keeps (keeps_of_kept rfl hr))


theorem execBanksave_keeps {s0 : State} {e : EngId} {rs : RegNo} {imm : BitVec 16} {s : State} (hs : Keeps s0 s) :
    OutKeeps s0 (execBanksave e rs imm s) := by
  unfold execBanksave
  repeat'
    first
    | intro _
    | with_reducible (
      first
      | assumption | apply State.issue_keeps | apply bankRes_keeps | apply State.drained_keeps | apply State.imageFault_keeps
      | apply State.vacateBank_keeps | apply State.bankSave_keeps | fail_if_no_progress apply keeps_mk | apply out_next | apply res_done
      | apply res_commit | apply res_settle | apply res_fault | apply res_wait | apply res_kept | apply res_stall | apply keeps_ite | apply res_ite
      | refine keeps_of_done (by assumption) ?_ | refine keeps_of_commit (by assumption) ?_ | refine keeps_of_settle (by assumption) ?_
      | refine keeps_of_fault (by assumption) ?_ | refine keeps_of_wait (by assumption) ?_ | refine keeps_of_kept (by assumption) ?_)
    | split | dsimp only

theorem State.freeCtl_keeps {s0 : State} {s : State} {b : Nat} (hs : Keeps s0 s) :
    Keeps s0 (State.freeCtl s b).2 := by
  unfold State.freeCtl
  repeat'
    first
    | intro _
    | with_reducible (
      first
      | assumption | apply State.takeFreeN_keeps | fail_if_no_progress apply keeps_mk | apply keeps_fold | apply keeps_fold1 | apply keeps_fold2
      | apply keeps_fold3 | refine keeps_of_eq (by assumption) ?_ | refine keeps_of_eq2 (by assumption) ?_ | refine keeps_of_eq3 (by assumption) ?_)
    | split | dsimp only

theorem State.bankFill_keeps {s0 : State} {s : State} {e : Nat} {b : Nat} {t : Nat} {pa : Nat} {ls : List (Nat × List TWord)} {qs : List Nat} (hs : Keeps s0 s) :
    Keeps s0 (State.bankFill s e b t pa ls qs) := by
  unfold State.bankFill
  repeat'
    first
    | intro _
    | with_reducible (
      first
      | assumption | apply State.freeCtl_keeps | apply State.modCore_keeps | apply State.setBankTenant_keeps | apply State.modVsu_keeps
      | fail_if_no_progress apply keeps_mk | apply keeps_fold | apply keeps_fold1 | apply keeps_fold2 | apply keeps_fold3 | apply keeps_ite
      | apply keeps_ite1 | apply keeps_ite2 | refine keeps_of_eq (by assumption) ?_ | refine keeps_of_eq2 (by assumption) ?_
      | refine keeps_of_eq3 (by assumption) ?_)
    | split | dsimp only

theorem State.freshBank_keeps {s0 : State} {s : State} {e : Nat} {b : Nat} {t : Nat} (hs : Keeps s0 s) :
    Keeps s0 (State.freshBank s e b t) := by
  unfold State.freshBank
  repeat'
    first
    | intro _
    | with_reducible (
      first
      | assumption | apply State.genStep_keeps | apply State.modCore_keeps | apply State.setBankTenant_keeps | apply State.modVsu_keeps
      | fail_if_no_progress apply keeps_mk)
    | split | dsimp only

theorem State.bankLoad_keeps {s0 : State} {s : State} {e : Nat} {b : Nat} {t : Nat} {pa : Nat} {pc : Nat} (hs : Keeps s0 s) :
    ResKeeps s0 (State.bankLoad s e b t pa pc) := by
  unfold State.bankLoad
  repeat'
    first
    | intro _
    | with_reducible (
      first
      | assumption | apply State.getLines_keeps | apply State.imageFault_keeps | apply State.bankFill_keeps | fail_if_no_progress apply keeps_mk
      | apply res_done | apply res_commit | apply res_settle | apply res_fault | apply res_wait | apply res_kept | apply res_stall | apply keeps_ite
      | apply keeps_ite1 | apply keeps_ite2 | apply res_ite | refine keeps_of_eq (by assumption) ?_ | refine keeps_of_eq2 (by assumption) ?_
      | refine keeps_of_eq3 (by assumption) ?_ | refine keeps_of_done (by assumption) ?_ | refine keeps_of_commit (by assumption) ?_
      | refine keeps_of_settle (by assumption) ?_ | refine keeps_of_fault (by assumption) ?_ | refine keeps_of_wait (by assumption) ?_
      | refine keeps_of_kept (by assumption) ?_)
    | split | dsimp only

theorem execBankload_keeps {s0 : State} {e : EngId} {rs : RegNo} {imm : BitVec 16} {s : State} (hs : Keeps s0 s) :
    OutKeeps s0 (execBankload e rs imm s) := by
  unfold execBankload
  repeat'
    first
    | intro _
    | with_reducible (
      first
      | assumption | apply State.issue_keeps | apply bankRes_keeps | apply State.drained_keeps | apply State.freshBank_keeps
      | apply State.imageFault_keeps | apply State.bankLoad_keeps | fail_if_no_progress apply keeps_mk | apply out_next | apply res_done
      | apply res_commit | apply res_settle | apply res_fault | apply res_wait | apply res_kept | apply res_stall | apply keeps_ite | apply res_ite
      | refine keeps_of_done (by assumption) ?_ | refine keeps_of_commit (by assumption) ?_ | refine keeps_of_settle (by assumption) ?_
      | refine keeps_of_fault (by assumption) ?_ | refine keeps_of_wait (by assumption) ?_ | refine keeps_of_kept (by assumption) ?_)
    | split | dsimp only

/-! Scalar -/

theorem aluRes_keeps {s0 : State} {e : Nat} {o : AluOp} {rd : RegNo} {rs1 : RegNo} {rs2 : RegNo} {s : State} (hs : Keeps s0 s) :
    ResKeeps s0 (aluRes e o rd rs1 rs2 s) := by
  unfold aluRes
  repeat'
    first
    | intro _
    | with_reducible (
      first
      | assumption | apply State.setG_keeps | fail_if_no_progress apply keeps_mk | apply res_done | apply res_commit | apply res_settle
      | apply res_fault | apply res_wait | apply res_kept | apply res_stall)
    | split | dsimp only

theorem State.alu_keeps {s0 : State} {s : State} {e : Nat} {o : AluOp} {rd : RegNo} {rs1 : RegNo} {rs2 : RegNo} (hs : Keeps s0 s) :
    Keeps s0 (State.alu s e o rd rs1 rs2) := by
  unfold State.alu
  repeat'
    first
    | intro _
    | with_reducible (
      first
      | assumption | apply State.issue_keeps | apply aluRes_keeps | fail_if_no_progress apply keeps_mk | apply res_done | apply res_commit
      | apply res_settle | apply res_fault | apply res_wait | apply res_kept | apply res_stall | apply keeps_ite | apply res_ite
      | refine keeps_of_done (by assumption) ?_ | refine keeps_of_commit (by assumption) ?_ | refine keeps_of_settle (by assumption) ?_
      | refine keeps_of_fault (by assumption) ?_ | refine keeps_of_wait (by assumption) ?_ | refine keeps_of_kept (by assumption) ?_)
    | split | dsimp only

theorem execAdd_keeps {s0 : State} {e : EngId} {rd : RegNo} {rs1 : RegNo} {rs2 : RegNo} {s : State} (hs : Keeps s0 s) :
    OutKeeps s0 (execAdd e rd rs1 rs2 s) := by
  unfold execAdd
  repeat'
    first
    | intro _
    | with_reducible (
      first
      | assumption | apply State.alu_keeps | fail_if_no_progress apply keeps_mk | apply out_next)
    | split | dsimp only

theorem execSub_keeps {s0 : State} {e : EngId} {rd : RegNo} {rs1 : RegNo} {rs2 : RegNo} {s : State} (hs : Keeps s0 s) :
    OutKeeps s0 (execSub e rd rs1 rs2 s) := by
  unfold execSub
  repeat'
    first
    | intro _
    | with_reducible (
      first
      | assumption | apply State.alu_keeps | fail_if_no_progress apply keeps_mk | apply out_next)
    | split | dsimp only

theorem execAnd_keeps {s0 : State} {e : EngId} {rd : RegNo} {rs1 : RegNo} {rs2 : RegNo} {s : State} (hs : Keeps s0 s) :
    OutKeeps s0 (execAnd e rd rs1 rs2 s) := by
  unfold execAnd
  repeat'
    first
    | intro _
    | with_reducible (
      first
      | assumption | apply State.alu_keeps | fail_if_no_progress apply keeps_mk | apply out_next)
    | split | dsimp only

theorem execOr_keeps {s0 : State} {e : EngId} {rd : RegNo} {rs1 : RegNo} {rs2 : RegNo} {s : State} (hs : Keeps s0 s) :
    OutKeeps s0 (execOr e rd rs1 rs2 s) := by
  unfold execOr
  repeat'
    first
    | intro _
    | with_reducible (
      first
      | assumption | apply State.alu_keeps | fail_if_no_progress apply keeps_mk | apply out_next)
    | split | dsimp only

theorem execXor_keeps {s0 : State} {e : EngId} {rd : RegNo} {rs1 : RegNo} {rs2 : RegNo} {s : State} (hs : Keeps s0 s) :
    OutKeeps s0 (execXor e rd rs1 rs2 s) := by
  unfold execXor
  repeat'
    first
    | intro _
    | with_reducible (
      first
      | assumption | apply State.alu_keeps | fail_if_no_progress apply keeps_mk | apply out_next)
    | split | dsimp only

theorem execAndn_keeps {s0 : State} {e : EngId} {rd : RegNo} {rs1 : RegNo} {rs2 : RegNo} {s : State} (hs : Keeps s0 s) :
    OutKeeps s0 (execAndn e rd rs1 rs2 s) := by
  unfold execAndn
  repeat'
    first
    | intro _
    | with_reducible (
      first
      | assumption | apply State.alu_keeps | fail_if_no_progress apply keeps_mk | apply out_next)
    | split | dsimp only

theorem execSll_keeps {s0 : State} {e : EngId} {rd : RegNo} {rs1 : RegNo} {rs2 : RegNo} {s : State} (hs : Keeps s0 s) :
    OutKeeps s0 (execSll e rd rs1 rs2 s) := by
  unfold execSll
  repeat'
    first
    | intro _
    | with_reducible (
      first
      | assumption | apply State.alu_keeps | fail_if_no_progress apply keeps_mk | apply out_next)
    | split | dsimp only

theorem execSrl_keeps {s0 : State} {e : EngId} {rd : RegNo} {rs1 : RegNo} {rs2 : RegNo} {s : State} (hs : Keeps s0 s) :
    OutKeeps s0 (execSrl e rd rs1 rs2 s) := by
  unfold execSrl
  repeat'
    first
    | intro _
    | with_reducible (
      first
      | assumption | apply State.alu_keeps | fail_if_no_progress apply keeps_mk | apply out_next)
    | split | dsimp only

theorem execSra_keeps {s0 : State} {e : EngId} {rd : RegNo} {rs1 : RegNo} {rs2 : RegNo} {s : State} (hs : Keeps s0 s) :
    OutKeeps s0 (execSra e rd rs1 rs2 s) := by
  unfold execSra
  repeat'
    first
    | intro _
    | with_reducible (
      first
      | assumption | apply State.alu_keeps | fail_if_no_progress apply keeps_mk | apply out_next)
    | split | dsimp only

theorem execRor_keeps {s0 : State} {e : EngId} {rd : RegNo} {rs1 : RegNo} {rs2 : RegNo} {s : State} (hs : Keeps s0 s) :
    OutKeeps s0 (execRor e rd rs1 rs2 s) := by
  unfold execRor
  repeat'
    first
    | intro _
    | with_reducible (
      first
      | assumption | apply State.alu_keeps | fail_if_no_progress apply keeps_mk | apply out_next)
    | split | dsimp only

theorem execSlt_keeps {s0 : State} {e : EngId} {rd : RegNo} {rs1 : RegNo} {rs2 : RegNo} {s : State} (hs : Keeps s0 s) :
    OutKeeps s0 (execSlt e rd rs1 rs2 s) := by
  unfold execSlt
  repeat'
    first
    | intro _
    | with_reducible (
      first
      | assumption | apply State.alu_keeps | fail_if_no_progress apply keeps_mk | apply out_next)
    | split | dsimp only

theorem execSltu_keeps {s0 : State} {e : EngId} {rd : RegNo} {rs1 : RegNo} {rs2 : RegNo} {s : State} (hs : Keeps s0 s) :
    OutKeeps s0 (execSltu e rd rs1 rs2 s) := by
  unfold execSltu
  repeat'
    first
    | intro _
    | with_reducible (
      first
      | assumption | apply State.alu_keeps | fail_if_no_progress apply keeps_mk | apply out_next)
    | split | dsimp only

theorem execMin_keeps {s0 : State} {e : EngId} {rd : RegNo} {rs1 : RegNo} {rs2 : RegNo} {s : State} (hs : Keeps s0 s) :
    OutKeeps s0 (execMin e rd rs1 rs2 s) := by
  unfold execMin
  repeat'
    first
    | intro _
    | with_reducible (
      first
      | assumption | apply State.alu_keeps | fail_if_no_progress apply keeps_mk | apply out_next)
    | split | dsimp only

theorem execMax_keeps {s0 : State} {e : EngId} {rd : RegNo} {rs1 : RegNo} {rs2 : RegNo} {s : State} (hs : Keeps s0 s) :
    OutKeeps s0 (execMax e rd rs1 rs2 s) := by
  unfold execMax
  repeat'
    first
    | intro _
    | with_reducible (
      first
      | assumption | apply State.alu_keeps | fail_if_no_progress apply keeps_mk | apply out_next)
    | split | dsimp only

theorem execMinu_keeps {s0 : State} {e : EngId} {rd : RegNo} {rs1 : RegNo} {rs2 : RegNo} {s : State} (hs : Keeps s0 s) :
    OutKeeps s0 (execMinu e rd rs1 rs2 s) := by
  unfold execMinu
  repeat'
    first
    | intro _
    | with_reducible (
      first
      | assumption | apply State.alu_keeps | fail_if_no_progress apply keeps_mk | apply out_next)
    | split | dsimp only

theorem execMaxu_keeps {s0 : State} {e : EngId} {rd : RegNo} {rs1 : RegNo} {rs2 : RegNo} {s : State} (hs : Keeps s0 s) :
    OutKeeps s0 (execMaxu e rd rs1 rs2 s) := by
  unfold execMaxu
  repeat'
    first
    | intro _
    | with_reducible (
      first
      | assumption | apply State.alu_keeps | fail_if_no_progress apply keeps_mk | apply out_next)
    | split | dsimp only

theorem execTcmp_keeps {s0 : State} {e : EngId} {rd : RegNo} {rs1 : RegNo} {rs2 : RegNo} {s : State} (hs : Keeps s0 s) :
    OutKeeps s0 (execTcmp e rd rs1 rs2 s) := by
  unfold execTcmp
  repeat'
    first
    | intro _
    | with_reducible (
      first
      | assumption | apply State.alu_keeps | fail_if_no_progress apply keeps_mk | apply out_next)
    | split | dsimp only

theorem execMov_keeps {s0 : State} {e : EngId} {rd : RegNo} {rs1 : RegNo} {s : State} (hs : Keeps s0 s) :
    OutKeeps s0 (execMov e rd rs1 s) := by
  unfold execMov
  repeat'
    first
    | intro _
    | with_reducible (
      first
      | assumption | apply State.alu_keeps | fail_if_no_progress apply keeps_mk | apply out_next)
    | split | dsimp only

theorem execNeg_keeps {s0 : State} {e : EngId} {rd : RegNo} {rs1 : RegNo} {s : State} (hs : Keeps s0 s) :
    OutKeeps s0 (execNeg e rd rs1 s) := by
  unfold execNeg
  repeat'
    first
    | intro _
    | with_reducible (
      first
      | assumption | apply State.alu_keeps | fail_if_no_progress apply keeps_mk | apply out_next)
    | split | dsimp only

theorem execClz_keeps {s0 : State} {e : EngId} {rd : RegNo} {rs1 : RegNo} {s : State} (hs : Keeps s0 s) :
    OutKeeps s0 (execClz e rd rs1 s) := by
  unfold execClz
  repeat'
    first
    | intro _
    | with_reducible (
      first
      | assumption | apply State.alu_keeps | fail_if_no_progress apply keeps_mk | apply out_next)
    | split | dsimp only

theorem execCtz_keeps {s0 : State} {e : EngId} {rd : RegNo} {rs1 : RegNo} {s : State} (hs : Keeps s0 s) :
    OutKeeps s0 (execCtz e rd rs1 s) := by
  unfold execCtz
  repeat'
    first
    | intro _
    | with_reducible (
      first
      | assumption | apply State.alu_keeps | fail_if_no_progress apply keeps_mk | apply out_next)
    | split | dsimp only

theorem execPopc_keeps {s0 : State} {e : EngId} {rd : RegNo} {rs1 : RegNo} {s : State} (hs : Keeps s0 s) :
    OutKeeps s0 (execPopc e rd rs1 s) := by
  unfold execPopc
  repeat'
    first
    | intro _
    | with_reducible (
      first
      | assumption | apply State.alu_keeps | fail_if_no_progress apply keeps_mk | apply out_next)
    | split | dsimp only

theorem execTagget_keeps {s0 : State} {e : EngId} {rd : RegNo} {rs1 : RegNo} {s : State} (hs : Keeps s0 s) :
    OutKeeps s0 (execTagget e rd rs1 s) := by
  unfold execTagget
  repeat'
    first
    | intro _
    | with_reducible (
      first
      | assumption | apply State.alu_keeps | fail_if_no_progress apply keeps_mk | apply out_next)
    | split | dsimp only

theorem immRes_keeps {s0 : State} {e : Nat} {o : ImmOp} {rd : RegNo} {rs1 : RegNo} {i : BitVec 16} {s : State} (hs : Keeps s0 s) :
    ResKeeps s0 (immRes e o rd rs1 i s) := by
  unfold immRes
  repeat'
    first
    | intro _
    | with_reducible (
      first
      | assumption | apply State.setG_keeps | fail_if_no_progress apply keeps_mk | apply res_done | apply res_commit | apply res_settle
      | apply res_fault | apply res_wait | apply res_kept | apply res_stall | apply keeps_ite | apply res_ite)
    | split | dsimp only

theorem State.aluImm_keeps {s0 : State} {s : State} {e : Nat} {o : ImmOp} {rd : RegNo} {rs1 : RegNo} {i : BitVec 16} (hs : Keeps s0 s) :
    Keeps s0 (State.aluImm s e o rd rs1 i) := by
  unfold State.aluImm
  repeat'
    first
    | intro _
    | with_reducible (
      first
      | assumption | apply State.issue_keeps | apply immRes_keeps | fail_if_no_progress apply keeps_mk | apply res_done | apply res_commit
      | apply res_settle | apply res_fault | apply res_wait | apply res_kept | apply res_stall | refine keeps_of_done (by assumption) ?_
      | refine keeps_of_commit (by assumption) ?_ | refine keeps_of_settle (by assumption) ?_ | refine keeps_of_fault (by assumption) ?_
      | refine keeps_of_wait (by assumption) ?_ | refine keeps_of_kept (by assumption) ?_)
    | split | dsimp only

theorem execAddi_keeps {s0 : State} {e : EngId} {rd : RegNo} {rs1 : RegNo} {i : BitVec 16} {s : State} (hs : Keeps s0 s) :
    OutKeeps s0 (execAddi e rd rs1 i s) := by
  unfold execAddi
  repeat'
    first
    | intro _
    | with_reducible (
      first
      | assumption | apply State.aluImm_keeps | fail_if_no_progress apply keeps_mk | apply out_next)
    | split | dsimp only

theorem execAndi_keeps {s0 : State} {e : EngId} {rd : RegNo} {rs1 : RegNo} {i : BitVec 16} {s : State} (hs : Keeps s0 s) :
    OutKeeps s0 (execAndi e rd rs1 i s) := by
  unfold execAndi
  repeat'
    first
    | intro _
    | with_reducible (
      first
      | assumption | apply State.aluImm_keeps | fail_if_no_progress apply keeps_mk | apply out_next)
    | split | dsimp only

theorem execOri_keeps {s0 : State} {e : EngId} {rd : RegNo} {rs1 : RegNo} {i : BitVec 16} {s : State} (hs : Keeps s0 s) :
    OutKeeps s0 (execOri e rd rs1 i s) := by
  unfold execOri
  repeat'
    first
    | intro _
    | with_reducible (
      first
      | assumption | apply State.aluImm_keeps | fail_if_no_progress apply keeps_mk | apply out_next)
    | split | dsimp only

theorem execXori_keeps {s0 : State} {e : EngId} {rd : RegNo} {rs1 : RegNo} {i : BitVec 16} {s : State} (hs : Keeps s0 s) :
    OutKeeps s0 (execXori e rd rs1 i s) := by
  unfold execXori
  repeat'
    first
    | intro _
    | with_reducible (
      first
      | assumption | apply State.aluImm_keeps | fail_if_no_progress apply keeps_mk | apply out_next)
    | split | dsimp only

theorem execSlti_keeps {s0 : State} {e : EngId} {rd : RegNo} {rs1 : RegNo} {i : BitVec 16} {s : State} (hs : Keeps s0 s) :
    OutKeeps s0 (execSlti e rd rs1 i s) := by
  unfold execSlti
  repeat'
    first
    | intro _
    | with_reducible (
      first
      | assumption | apply State.aluImm_keeps | fail_if_no_progress apply keeps_mk | apply out_next)
    | split | dsimp only

theorem execSltiu_keeps {s0 : State} {e : EngId} {rd : RegNo} {rs1 : RegNo} {i : BitVec 16} {s : State} (hs : Keeps s0 s) :
    OutKeeps s0 (execSltiu e rd rs1 i s) := by
  unfold execSltiu
  repeat'
    first
    | intro _
    | with_reducible (
      first
      | assumption | apply State.aluImm_keeps | fail_if_no_progress apply keeps_mk | apply out_next)
    | split | dsimp only

theorem execShi_keeps {s0 : State} {e : EngId} {rd : RegNo} {rs1 : RegNo} {i : BitVec 16} {s : State} (hs : Keeps s0 s) :
    OutKeeps s0 (execShi e rd rs1 i s) := by
  unfold execShi
  repeat'
    first
    | intro _
    | with_reducible (
      first
      | assumption | apply State.aluImm_keeps | fail_if_no_progress apply keeps_mk | apply out_next)
    | split | dsimp only

theorem execTagset_keeps {s0 : State} {e : EngId} {rd : RegNo} {rs1 : RegNo} {i : BitVec 16} {s : State} (hs : Keeps s0 s) :
    OutKeeps s0 (execTagset e rd rs1 i s) := by
  unfold execTagset
  repeat'
    first
    | intro _
    | with_reducible (
      first
      | assumption | apply State.aluImm_keeps | fail_if_no_progress apply keeps_mk | apply out_next)
    | split | dsimp only

theorem execMovi_keeps {s0 : State} {e : EngId} {rd : RegNo} {i : BitVec 16} {s : State} (hs : Keeps s0 s) :
    OutKeeps s0 (execMovi e rd i s) := by
  unfold execMovi
  repeat'
    first
    | intro _
    | with_reducible (
      first
      | assumption | apply State.issue_keeps | apply State.setG_keeps | fail_if_no_progress apply keeps_mk | apply out_next | apply res_done
      | apply res_commit | apply res_settle | apply res_fault | apply res_wait | apply res_kept | apply res_stall)
    | split | dsimp only

theorem execMovk_keeps {s0 : State} {e : EngId} {rd : RegNo} {h : Fin 4} {i : BitVec 16} {s : State} (hs : Keeps s0 s) :
    OutKeeps s0 (execMovk e rd h i s) := by
  unfold execMovk
  repeat'
    first
    | intro _
    | with_reducible (
      first
      | assumption | apply State.issue_keeps | apply State.setG_keeps | fail_if_no_progress apply keeps_mk | apply out_next | apply res_done
      | apply res_commit | apply res_settle | apply res_fault | apply res_wait | apply res_kept | apply res_stall)
    | split | dsimp only

theorem State.mulDiv_keeps {s0 : State} {s : State} {e : Nat} {rd : RegNo} {rs1 : RegNo} {rs2 : RegNo} {f : Word → Word → Word} (hs : Keeps s0 s) :
    Keeps s0 (State.mulDiv s e rd rs1 rs2 f) := by
  unfold State.mulDiv
  repeat'
    first
    | intro _
    | with_reducible (
      first
      | assumption | apply State.issue_keeps | apply State.setG_keeps | fail_if_no_progress apply keeps_mk | apply res_done | apply res_commit
      | apply res_settle | apply res_fault | apply res_wait | apply res_kept | apply res_stall)
    | split | dsimp only

theorem State.mulWide_keeps {s0 : State} {s : State} {e : Nat} {func : Nat} {rd : RegNo} {rs1 : RegNo} {rs2 : RegNo} {f : Word → Word → ℤ} (hs : Keeps s0 s) :
    Keeps s0 (State.mulWide s e func rd rs1 rs2 f) := by
  unfold State.mulWide
  repeat'
    first
    | intro _
    | with_reducible (
      first
      | assumption | apply State.issue_keeps | apply State.setG_keeps | fail_if_no_progress apply keeps_mk | apply res_done | apply res_commit
      | apply res_settle | apply res_fault | apply res_wait | apply res_kept | apply res_stall | apply keeps_ite)
    | split | dsimp only

theorem execMul_keeps {s0 : State} {e : EngId} {rd : RegNo} {rs1 : RegNo} {rs2 : RegNo} {s : State} (hs : Keeps s0 s) :
    OutKeeps s0 (execMul e rd rs1 rs2 s) := by
  unfold execMul
  repeat'
    first
    | intro _
    | with_reducible (
      first
      | assumption | apply State.mulDiv_keeps | fail_if_no_progress apply keeps_mk | apply out_next)
    | split | dsimp only

theorem execMulh_keeps {s0 : State} {e : EngId} {rd : RegNo} {rs1 : RegNo} {rs2 : RegNo} {s : State} (hs : Keeps s0 s) :
    OutKeeps s0 (execMulh e rd rs1 rs2 s) := by
  unfold execMulh
  repeat'
    first
    | intro _
    | with_reducible (
      first
      | assumption | apply State.mulDiv_keeps | fail_if_no_progress apply keeps_mk | apply out_next)
    | split | dsimp only

theorem execMulhu_keeps {s0 : State} {e : EngId} {rd : RegNo} {rs1 : RegNo} {rs2 : RegNo} {s : State} (hs : Keeps s0 s) :
    OutKeeps s0 (execMulhu e rd rs1 rs2 s) := by
  unfold execMulhu
  repeat'
    first
    | intro _
    | with_reducible (
      first
      | assumption | apply State.mulDiv_keeps | fail_if_no_progress apply keeps_mk | apply out_next)
    | split | dsimp only

theorem execDiv_keeps {s0 : State} {e : EngId} {rd : RegNo} {rs1 : RegNo} {rs2 : RegNo} {s : State} (hs : Keeps s0 s) :
    OutKeeps s0 (execDiv e rd rs1 rs2 s) := by
  unfold execDiv
  repeat'
    first
    | intro _
    | with_reducible (
      first
      | assumption | apply State.mulDiv_keeps | fail_if_no_progress apply keeps_mk | apply out_next)
    | split | dsimp only

theorem execDivu_keeps {s0 : State} {e : EngId} {rd : RegNo} {rs1 : RegNo} {rs2 : RegNo} {s : State} (hs : Keeps s0 s) :
    OutKeeps s0 (execDivu e rd rs1 rs2 s) := by
  unfold execDivu
  repeat'
    first
    | intro _
    | with_reducible (
      first
      | assumption | apply State.mulDiv_keeps | fail_if_no_progress apply keeps_mk | apply out_next)
    | split | dsimp only

theorem execRem_keeps {s0 : State} {e : EngId} {rd : RegNo} {rs1 : RegNo} {rs2 : RegNo} {s : State} (hs : Keeps s0 s) :
    OutKeeps s0 (execRem e rd rs1 rs2 s) := by
  unfold execRem
  repeat'
    first
    | intro _
    | with_reducible (
      first
      | assumption | apply State.mulDiv_keeps | fail_if_no_progress apply keeps_mk | apply out_next)
    | split | dsimp only

theorem execRemu_keeps {s0 : State} {e : EngId} {rd : RegNo} {rs1 : RegNo} {rs2 : RegNo} {s : State} (hs : Keeps s0 s) :
    OutKeeps s0 (execRemu e rd rs1 rs2 s) := by
  unfold execRemu
  repeat'
    first
    | intro _
    | with_reducible (
      first
      | assumption | apply State.mulDiv_keeps | fail_if_no_progress apply keeps_mk | apply out_next)
    | split | dsimp only

theorem execMulw_keeps {s0 : State} {e : EngId} {rd : RegNo} {rs1 : RegNo} {rs2 : RegNo} {s : State} (hs : Keeps s0 s) :
    OutKeeps s0 (execMulw e rd rs1 rs2 s) := by
  unfold execMulw
  repeat'
    first
    | intro _
    | with_reducible (
      first
      | assumption | apply State.mulWide_keeps | fail_if_no_progress apply keeps_mk | apply out_next)
    | split | dsimp only

theorem execMulwu_keeps {s0 : State} {e : EngId} {rd : RegNo} {rs1 : RegNo} {rs2 : RegNo} {s : State} (hs : Keeps s0 s) :
    OutKeeps s0 (execMulwu e rd rs1 rs2 s) := by
  unfold execMulwu
  repeat'
    first
    | intro _
    | with_reducible (
      first
      | assumption | apply State.mulWide_keeps | fail_if_no_progress apply keeps_mk | apply out_next)
    | split | dsimp only

theorem addcRes_keeps {s0 : State} {e : Nat} {rd : RegNo} {rs1 : RegNo} {rs2 : RegNo} {z : Bool} {s : State} (hs : Keeps s0 s) :
    ResKeeps s0 (addcRes e rd rs1 rs2 z s) := by
  unfold addcRes
  repeat'
    first
    | intro _
    | with_reducible (
      first
      | assumption | apply State.setAstat_keeps | apply State.setG_keeps | fail_if_no_progress apply keeps_mk | apply res_done | apply res_commit
      | apply res_settle | apply res_fault | apply res_wait | apply res_kept | apply res_stall | apply keeps_ite | apply res_ite)
    | split | dsimp only

theorem subbRes_keeps {s0 : State} {e : Nat} {rd : RegNo} {rs1 : RegNo} {rs2 : RegNo} {z : Bool} {s : State} (hs : Keeps s0 s) :
    ResKeeps s0 (subbRes e rd rs1 rs2 z s) := by
  unfold subbRes
  repeat'
    first
    | intro _
    | with_reducible (
      first
      | assumption | apply State.setAstat_keeps | apply State.setG_keeps | fail_if_no_progress apply keeps_mk | apply res_done | apply res_commit
      | apply res_settle | apply res_fault | apply res_wait | apply res_kept | apply res_stall | apply keeps_ite | apply res_ite)
    | split | dsimp only

theorem dadjRes_keeps {s0 : State} {e : Nat} {rd : RegNo} {rs1 : RegNo} {s : State} (hs : Keeps s0 s) :
    ResKeeps s0 (dadjRes e rd rs1 s) := by
  unfold dadjRes
  repeat'
    first
    | intro _
    | with_reducible (
      first
      | assumption | apply State.setAstat_keeps | apply State.setG_keeps | fail_if_no_progress apply keeps_mk | apply res_done | apply res_commit
      | apply res_settle | apply res_fault | apply res_wait | apply res_kept | apply res_stall)
    | split | dsimp only

theorem execAddc_keeps {s0 : State} {e : EngId} {rd : RegNo} {rs1 : RegNo} {rs2 : RegNo} {s : State} (hs : Keeps s0 s) :
    OutKeeps s0 (execAddc e rd rs1 rs2 s) := by
  unfold execAddc
  repeat'
    first
    | intro _
    | with_reducible (
      first
      | assumption | apply State.issue_keeps | apply addcRes_keeps | fail_if_no_progress apply keeps_mk | apply out_next | apply res_done
      | apply res_commit | apply res_settle | apply res_fault | apply res_wait | apply res_kept | apply res_stall
      | refine keeps_of_done (by assumption) ?_ | refine keeps_of_commit (by assumption) ?_ | refine keeps_of_settle (by assumption) ?_
      | refine keeps_of_fault (by assumption) ?_ | refine keeps_of_wait (by assumption) ?_ | refine keeps_of_kept (by assumption) ?_)
    | split | dsimp only

theorem execAddcz_keeps {s0 : State} {e : EngId} {rd : RegNo} {rs1 : RegNo} {rs2 : RegNo} {s : State} (hs : Keeps s0 s) :
    OutKeeps s0 (execAddcz e rd rs1 rs2 s) := by
  unfold execAddcz
  repeat'
    first
    | intro _
    | with_reducible (
      first
      | assumption | apply State.issue_keeps | apply addcRes_keeps | fail_if_no_progress apply keeps_mk | apply out_next | apply res_done
      | apply res_commit | apply res_settle | apply res_fault | apply res_wait | apply res_kept | apply res_stall
      | refine keeps_of_done (by assumption) ?_ | refine keeps_of_commit (by assumption) ?_ | refine keeps_of_settle (by assumption) ?_
      | refine keeps_of_fault (by assumption) ?_ | refine keeps_of_wait (by assumption) ?_ | refine keeps_of_kept (by assumption) ?_)
    | split | dsimp only

theorem execSubb_keeps {s0 : State} {e : EngId} {rd : RegNo} {rs1 : RegNo} {rs2 : RegNo} {s : State} (hs : Keeps s0 s) :
    OutKeeps s0 (execSubb e rd rs1 rs2 s) := by
  unfold execSubb
  repeat'
    first
    | intro _
    | with_reducible (
      first
      | assumption | apply State.issue_keeps | apply subbRes_keeps | fail_if_no_progress apply keeps_mk | apply out_next | apply res_done
      | apply res_commit | apply res_settle | apply res_fault | apply res_wait | apply res_kept | apply res_stall
      | refine keeps_of_done (by assumption) ?_ | refine keeps_of_commit (by assumption) ?_ | refine keeps_of_settle (by assumption) ?_
      | refine keeps_of_fault (by assumption) ?_ | refine keeps_of_wait (by assumption) ?_ | refine keeps_of_kept (by assumption) ?_)
    | split | dsimp only

theorem execSubbz_keeps {s0 : State} {e : EngId} {rd : RegNo} {rs1 : RegNo} {rs2 : RegNo} {s : State} (hs : Keeps s0 s) :
    OutKeeps s0 (execSubbz e rd rs1 rs2 s) := by
  unfold execSubbz
  repeat'
    first
    | intro _
    | with_reducible (
      first
      | assumption | apply State.issue_keeps | apply subbRes_keeps | fail_if_no_progress apply keeps_mk | apply out_next | apply res_done
      | apply res_commit | apply res_settle | apply res_fault | apply res_wait | apply res_kept | apply res_stall
      | refine keeps_of_done (by assumption) ?_ | refine keeps_of_commit (by assumption) ?_ | refine keeps_of_settle (by assumption) ?_
      | refine keeps_of_fault (by assumption) ?_ | refine keeps_of_wait (by assumption) ?_ | refine keeps_of_kept (by assumption) ?_)
    | split | dsimp only

theorem execDadj_keeps {s0 : State} {e : EngId} {rd : RegNo} {rs1 : RegNo} {s : State} (hs : Keeps s0 s) :
    OutKeeps s0 (execDadj e rd rs1 s) := by
  unfold execDadj
  repeat'
    first
    | intro _
    | with_reducible (
      first
      | assumption | apply State.issue_keeps | apply dadjRes_keeps | fail_if_no_progress apply keeps_mk | apply out_next | apply res_done
      | apply res_commit | apply res_settle | apply res_fault | apply res_wait | apply res_kept | apply res_stall
      | refine keeps_of_done (by assumption) ?_ | refine keeps_of_commit (by assumption) ?_ | refine keeps_of_settle (by assumption) ?_
      | refine keeps_of_fault (by assumption) ?_ | refine keeps_of_wait (by assumption) ?_ | refine keeps_of_kept (by assumption) ?_)
    | split | dsimp only

theorem State.setXcause_keeps {s0 : State} {s : State} {e : Nat} {k : Nat} (hs : Keeps s0 s) :
    Keeps s0 (State.setXcause s e k) := by
  unfold State.setXcause
  repeat'
    first
    | intro _
    | with_reducible (
      first
      | assumption | apply State.setVfcsr_keeps | fail_if_no_progress apply keeps_mk)
    | split | dsimp only

theorem decFault_keeps {s0 : State} {e : Nat} {k : Nat} {s : State} (hs : Keeps s0 s) :
    ResKeeps s0 (decFault e k s) := by
  unfold decFault
  repeat'
    first
    | intro _
    | with_reducible (
      first
      | assumption | apply State.setXcause_keeps | fail_if_no_progress apply keeps_mk | apply res_done | apply res_commit | apply res_settle
      | apply res_fault | apply res_wait | apply res_kept | apply res_stall)
    | split | dsimp only

theorem decRes_keeps {s0 : State} {e : Nat} {rd : RegNo} {srcs : List RegNo} {f : List Nat → FRes} {out : Tag} {s : State} (hs : Keeps s0 s) :
    ResKeeps s0 (decRes e rd srcs f out s) := by
  unfold decRes
  repeat'
    first
    | intro _
    | with_reducible (
      first
      | assumption | apply decFault_keeps | apply State.setG_keeps | apply State.setVfcsr_keeps | fail_if_no_progress apply keeps_mk | apply res_done
      | apply res_commit | apply res_settle | apply res_fault | apply res_wait | apply res_kept | apply res_stall | apply keeps_ite | apply res_ite
      | refine keeps_of_done (by assumption) ?_ | refine keeps_of_commit (by assumption) ?_ | refine keeps_of_settle (by assumption) ?_
      | refine keeps_of_fault (by assumption) ?_ | refine keeps_of_wait (by assumption) ?_ | refine keeps_of_kept (by assumption) ?_)
    | split | dsimp only

theorem execDadd_keeps {s0 : State} {e : EngId} {rd : RegNo} {rs1 : RegNo} {rs2 : RegNo} {s : State} (hs : Keeps s0 s) :
    OutKeeps s0 (execDadd e rd rs1 rs2 s) := by
  unfold execDadd
  repeat'
    first
    | intro _
    | with_reducible (
      first
      | assumption | apply State.issue_keeps | apply decRes_keeps | fail_if_no_progress apply keeps_mk | apply out_next | apply res_done
      | apply res_commit | apply res_settle | apply res_fault | apply res_wait | apply res_kept | apply res_stall
      | refine keeps_of_done (by assumption) ?_ | refine keeps_of_commit (by assumption) ?_ | refine keeps_of_settle (by assumption) ?_
      | refine keeps_of_fault (by assumption) ?_ | refine keeps_of_wait (by assumption) ?_ | refine keeps_of_kept (by assumption) ?_)
    | split | dsimp only

theorem execDsub_keeps {s0 : State} {e : EngId} {rd : RegNo} {rs1 : RegNo} {rs2 : RegNo} {s : State} (hs : Keeps s0 s) :
    OutKeeps s0 (execDsub e rd rs1 rs2 s) := by
  unfold execDsub
  repeat'
    first
    | intro _
    | with_reducible (
      first
      | assumption | apply State.issue_keeps | apply decRes_keeps | fail_if_no_progress apply keeps_mk | apply out_next | apply res_done
      | apply res_commit | apply res_settle | apply res_fault | apply res_wait | apply res_kept | apply res_stall
      | refine keeps_of_done (by assumption) ?_ | refine keeps_of_commit (by assumption) ?_ | refine keeps_of_settle (by assumption) ?_
      | refine keeps_of_fault (by assumption) ?_ | refine keeps_of_wait (by assumption) ?_ | refine keeps_of_kept (by assumption) ?_)
    | split | dsimp only

theorem execDcmp_keeps {s0 : State} {e : EngId} {rd : RegNo} {rs1 : RegNo} {rs2 : RegNo} {s : State} (hs : Keeps s0 s) :
    OutKeeps s0 (execDcmp e rd rs1 rs2 s) := by
  unfold execDcmp
  repeat'
    first
    | intro _
    | with_reducible (
      first
      | assumption | apply State.issue_keeps | apply decRes_keeps | fail_if_no_progress apply keeps_mk | apply out_next | apply res_done
      | apply res_commit | apply res_settle | apply res_fault | apply res_wait | apply res_kept | apply res_stall
      | refine keeps_of_done (by assumption) ?_ | refine keeps_of_commit (by assumption) ?_ | refine keeps_of_settle (by assumption) ?_
      | refine keeps_of_fault (by assumption) ?_ | refine keeps_of_wait (by assumption) ?_ | refine keeps_of_kept (by assumption) ?_)
    | split | dsimp only

theorem execCvbd_keeps {s0 : State} {e : EngId} {rd : RegNo} {rs1 : RegNo} {s : State} (hs : Keeps s0 s) :
    OutKeeps s0 (execCvbd e rd rs1 s) := by
  unfold execCvbd
  repeat'
    first
    | intro _
    | with_reducible (
      first
      | assumption | apply State.issue_keeps | apply decFault_keeps | apply State.setG_keeps | apply State.setVfcsr_keeps
      | fail_if_no_progress apply keeps_mk | apply out_next | apply res_done | apply res_commit | apply res_settle | apply res_fault | apply res_wait
      | apply res_kept | apply res_stall | apply keeps_ite | apply res_ite | refine keeps_of_done (by assumption) ?_
      | refine keeps_of_commit (by assumption) ?_ | refine keeps_of_settle (by assumption) ?_ | refine keeps_of_fault (by assumption) ?_
      | refine keeps_of_wait (by assumption) ?_ | refine keeps_of_kept (by assumption) ?_)
    | split | dsimp only

theorem execCvdb_keeps {s0 : State} {e : EngId} {rd : RegNo} {rs1 : RegNo} {s : State} (hs : Keeps s0 s) :
    OutKeeps s0 (execCvdb e rd rs1 s) := by
  unfold execCvdb
  repeat'
    first
    | intro _
    | with_reducible (
      first
      | assumption | apply State.issue_keeps | apply decRes_keeps | fail_if_no_progress apply keeps_mk | apply out_next | apply res_done
      | apply res_commit | apply res_settle | apply res_fault | apply res_wait | apply res_kept | apply res_stall
      | refine keeps_of_done (by assumption) ?_ | refine keeps_of_commit (by assumption) ?_ | refine keeps_of_settle (by assumption) ?_
      | refine keeps_of_fault (by assumption) ?_ | refine keeps_of_wait (by assumption) ?_ | refine keeps_of_kept (by assumption) ?_)
    | split | dsimp only

theorem execDshl_keeps {s0 : State} {e : EngId} {rd : RegNo} {rs1 : RegNo} {k : BitVec 4} {s : State} (hs : Keeps s0 s) :
    OutKeeps s0 (execDshl e rd rs1 k s) := by
  unfold execDshl
  repeat'
    first
    | intro _
    | with_reducible (
      first
      | assumption | apply State.issue_keeps | apply decRes_keeps | fail_if_no_progress apply keeps_mk | apply out_next | apply res_done
      | apply res_commit | apply res_settle | apply res_fault | apply res_wait | apply res_kept | apply res_stall
      | refine keeps_of_done (by assumption) ?_ | refine keeps_of_commit (by assumption) ?_ | refine keeps_of_settle (by assumption) ?_
      | refine keeps_of_fault (by assumption) ?_ | refine keeps_of_wait (by assumption) ?_ | refine keeps_of_kept (by assumption) ?_)
    | split | dsimp only

theorem execDshr_keeps {s0 : State} {e : EngId} {rd : RegNo} {rs1 : RegNo} {k : BitVec 4} {s : State} (hs : Keeps s0 s) :
    OutKeeps s0 (execDshr e rd rs1 k s) := by
  unfold execDshr
  repeat'
    first
    | intro _
    | with_reducible (
      first
      | assumption | apply State.issue_keeps | apply decRes_keeps | fail_if_no_progress apply keeps_mk | apply out_next | apply res_done
      | apply res_commit | apply res_settle | apply res_fault | apply res_wait | apply res_kept | apply res_stall
      | refine keeps_of_done (by assumption) ?_ | refine keeps_of_commit (by assumption) ?_ | refine keeps_of_settle (by assumption) ?_
      | refine keeps_of_fault (by assumption) ?_ | refine keeps_of_wait (by assumption) ?_ | refine keeps_of_kept (by assumption) ?_)
    | split | dsimp only

theorem State.branch_keeps {s0 : State} {s : State} {e : Nat} {rs1 : RegNo} {rs2 : RegNo} {off : BitVec 13} {okA : Tag → Bool} {okB : Tag → Tag → Bool} {c : Word → Word → Bool} (hs : Keeps s0 s) :
    Keeps s0 (State.branch s e rs1 rs2 off okA okB c) := by
  unfold State.branch
  repeat'
    first
    | intro _
    | with_reducible (
      first
      | assumption | apply State.issue_keeps | apply State.setPc_keeps | fail_if_no_progress apply keeps_mk | apply res_done | apply res_commit
      | apply res_settle | apply res_fault | apply res_wait | apply res_kept | apply res_stall | apply keeps_ite)
    | split | dsimp only

theorem State.branchTag_keeps {s0 : State} {s : State} {e : Nat} {cond : Nat} {rs1 : RegNo} {code : BitVec 5} {off : BitVec 13} {eq : Bool} (hs : Keeps s0 s) :
    Keeps s0 (State.branchTag s e cond rs1 code off eq) := by
  unfold State.branchTag
  repeat'
    first
    | intro _
    | with_reducible (
      first
      | assumption | apply State.issue_keeps | apply State.setPc_keeps | fail_if_no_progress apply keeps_mk | apply res_done | apply res_commit
      | apply res_settle | apply res_fault | apply res_wait | apply res_kept | apply res_stall | apply keeps_ite)
    | split | dsimp only

theorem execBrcEq_keeps {s0 : State} {e : EngId} {rs1 : RegNo} {rs2 : RegNo} {off : BitVec 13} {s : State} (hs : Keeps s0 s) :
    OutKeeps s0 (execBrcEq e rs1 rs2 off s) := by
  unfold execBrcEq
  repeat'
    first
    | intro _
    | with_reducible (
      first
      | assumption | apply State.branch_keeps | fail_if_no_progress apply keeps_mk | apply out_next)
    | split | dsimp only

theorem execBrcNe_keeps {s0 : State} {e : EngId} {rs1 : RegNo} {rs2 : RegNo} {off : BitVec 13} {s : State} (hs : Keeps s0 s) :
    OutKeeps s0 (execBrcNe e rs1 rs2 off s) := by
  unfold execBrcNe
  repeat'
    first
    | intro _
    | with_reducible (
      first
      | assumption | apply State.branch_keeps | fail_if_no_progress apply keeps_mk | apply out_next)
    | split | dsimp only

theorem execBrcLt_keeps {s0 : State} {e : EngId} {rs1 : RegNo} {rs2 : RegNo} {off : BitVec 13} {s : State} (hs : Keeps s0 s) :
    OutKeeps s0 (execBrcLt e rs1 rs2 off s) := by
  unfold execBrcLt
  repeat'
    first
    | intro _
    | with_reducible (
      first
      | assumption | apply State.branch_keeps | fail_if_no_progress apply keeps_mk | apply out_next)
    | split | dsimp only

theorem execBrcGe_keeps {s0 : State} {e : EngId} {rs1 : RegNo} {rs2 : RegNo} {off : BitVec 13} {s : State} (hs : Keeps s0 s) :
    OutKeeps s0 (execBrcGe e rs1 rs2 off s) := by
  unfold execBrcGe
  repeat'
    first
    | intro _
    | with_reducible (
      first
      | assumption | apply State.branch_keeps | fail_if_no_progress apply keeps_mk | apply out_next)
    | split | dsimp only

theorem execBrcLo_keeps {s0 : State} {e : EngId} {rs1 : RegNo} {rs2 : RegNo} {off : BitVec 13} {s : State} (hs : Keeps s0 s) :
    OutKeeps s0 (execBrcLo e rs1 rs2 off s) := by
  unfold execBrcLo
  repeat'
    first
    | intro _
    | with_reducible (
      first
      | assumption | apply State.branch_keeps | fail_if_no_progress apply keeps_mk | apply out_next)
    | split | dsimp only

theorem execBrcHs_keeps {s0 : State} {e : EngId} {rs1 : RegNo} {rs2 : RegNo} {off : BitVec 13} {s : State} (hs : Keeps s0 s) :
    OutKeeps s0 (execBrcHs e rs1 rs2 off s) := by
  unfold execBrcHs
  repeat'
    first
    | intro _
    | with_reducible (
      first
      | assumption | apply State.branch_keeps | fail_if_no_progress apply keeps_mk | apply out_next)
    | split | dsimp only

theorem execBrcTeq_keeps {s0 : State} {e : EngId} {rs1 : RegNo} {code : BitVec 5} {off : BitVec 13} {s : State} (hs : Keeps s0 s) :
    OutKeeps s0 (execBrcTeq e rs1 code off s) := by
  unfold execBrcTeq
  repeat'
    first
    | intro _
    | with_reducible (
      first
      | assumption | apply State.branchTag_keeps | fail_if_no_progress apply keeps_mk | apply out_next)
    | split | dsimp only

theorem execBrcTne_keeps {s0 : State} {e : EngId} {rs1 : RegNo} {code : BitVec 5} {off : BitVec 13} {s : State} (hs : Keeps s0 s) :
    OutKeeps s0 (execBrcTne e rs1 code off s) := by
  unfold execBrcTne
  repeat'
    first
    | intro _
    | with_reducible (
      first
      | assumption | apply State.branchTag_keeps | fail_if_no_progress apply keeps_mk | apply out_next)
    | split | dsimp only

theorem execGo_keeps {s0 : State} {e : EngId} {off : BitVec 26} {s : State} (hs : Keeps s0 s) :
    OutKeeps s0 (execGo e off s) := by
  unfold execGo
  repeat'
    first
    | intro _
    | with_reducible (
      first
      | assumption | apply State.issue_keeps | apply State.setPc_keeps | fail_if_no_progress apply keeps_mk | apply out_next | apply res_done
      | apply res_commit | apply res_settle | apply res_fault | apply res_wait | apply res_kept | apply res_stall)
    | split | dsimp only

theorem execCall_keeps {s0 : State} {e : EngId} {rl : RegNo} {off : BitVec 21} {s : State} (hs : Keeps s0 s) :
    OutKeeps s0 (execCall e rl off s) := by
  unfold execCall
  repeat'
    first
    | intro _
    | with_reducible (
      first
      | assumption | apply State.issue_keeps | apply State.setPc_keeps | apply State.setG_keeps | fail_if_no_progress apply keeps_mk | apply out_next
      | apply res_done | apply res_commit | apply res_settle | apply res_fault | apply res_wait | apply res_kept | apply res_stall)
    | split | dsimp only

theorem execGor_keeps {s0 : State} {e : EngId} {rd : RegNo} {rs1 : RegNo} {i : BitVec 16} {s : State} (hs : Keeps s0 s) :
    OutKeeps s0 (execGor e rd rs1 i s) := by
  unfold execGor
  repeat'
    first
    | intro _
    | with_reducible (
      first
      | assumption | apply State.issue_keeps | apply State.setPc_keeps | apply State.setG_keeps | fail_if_no_progress apply keeps_mk | apply out_next
      | apply res_done | apply res_commit | apply res_settle | apply res_fault | apply res_wait | apply res_kept | apply res_stall | apply keeps_ite)
    | split | dsimp only

theorem execNop_keeps {s0 : State} {e : EngId} {s : State} (hs : Keeps s0 s) :
    OutKeeps s0 (execNop e s) := by
  unfold execNop
  repeat'
    first
    | intro _
    | with_reducible (
      first
      | assumption | apply State.issue_keeps | fail_if_no_progress apply keeps_mk | apply out_next | apply res_done | apply res_commit
      | apply res_settle | apply res_fault | apply res_wait | apply res_kept | apply res_stall)
    | split | dsimp only

/-! Custom -/

theorem State.microLine_keeps {s0 : State} {s : State} {e : Nat} {pa : Nat} (hs : Keeps s0 s) :
    Keeps s0 (State.microLine s e pa).2.2 := by
  unfold State.microLine
  repeat'
    first
    | intro _
    | with_reducible (
      first
      | assumption | apply State.cohRead_keeps | apply State.lvsRead_keeps | apply State.defaultTarget_keeps | fail_if_no_progress apply keeps_mk
      | apply keeps_ite | apply keeps_ite1 | apply keeps_ite2 | refine keeps_of_eq (by assumption) ?_ | refine keeps_of_eq2 (by assumption) ?_
      | refine keeps_of_eq3 (by assumption) ?_)
    | split | dsimp only

theorem State.microStore_keeps {s0 : State} {s : State} {e : Nat} {pa : Nat} {bs : List Byte} {tag : Tag} (hs : Keeps s0 s) :
    Keeps s0 (State.microStore s e pa bs tag).2 := by
  unfold State.microStore
  repeat'
    first
    | intro _
    | with_reducible (
      first
      | assumption | apply State.cohPartial_keeps | apply State.lvsWrite_keeps | apply State.defaultTarget_keeps | fail_if_no_progress apply keeps_mk
      | apply keeps_ite | apply keeps_ite1 | apply keeps_ite2 | refine keeps_of_eq (by assumption) ?_ | refine keeps_of_eq2 (by assumption) ?_
      | refine keeps_of_eq3 (by assumption) ?_)
    | split | dsimp only

/-- The data port of a microword keeps the queue and the form of memory. -/
@[irreducible] def MicroKeeps (s : State) (r : MicroPort) : Prop :=
  match r with
  | .go _ t | .fault _ t => Keeps s t
  | _ => True

theorem mp_go {s0 t : State} {m : MRun} (h : Keeps s0 t) : MicroKeeps s0 (.go m t) := by unfold MicroKeeps; exact h
theorem mp_fault {s0 t : State} {x : Trap} (h : Keeps s0 t) : MicroKeeps s0 (.fault x t) := by unfold MicroKeeps; exact h
theorem mp_stall {s0 : State} : MicroKeeps s0 .stall := by unfold MicroKeeps; trivial
theorem mp_fence {s0 : State} : MicroKeeps s0 .fence := by unfold MicroKeeps; trivial
theorem mp_ite {s0 : State} {x y : MicroPort} {p : Prop} [Decidable p] (h : MicroKeeps s0 x) (g : MicroKeeps s0 y) :
    MicroKeeps s0 (if p then x else y) := by split <;> assumption
theorem keeps_of_go {s0 t : State} {r : MicroPort} {m : MRun} (e : r = .go m t) (h : MicroKeeps s0 r) : Keeps s0 t := by
  rw [e] at h; unfold MicroKeeps at h; exact h
theorem keeps_of_mfault {s0 t : State} {r : MicroPort} {x : Trap} (e : r = .fault x t) (h : MicroKeeps s0 r) : Keeps s0 t := by
  rw [e] at h; unfold MicroKeeps at h; exact h

theorem State.microPort_keeps {s0 : State} {s : State} {e : Nat} {m : MRun} {w : Mw} {ea : Word} {b : TWord} (hs : Keeps s0 s) :
    MicroKeeps s0 (State.microPort s e m w ea b) := by
  unfold State.microPort
  repeat'
    first
    | intro _
    | with_reducible (
      first
      | assumption | apply State.modEngine_keeps | apply State.loadLine_keeps | apply State.takeFreeN_keeps | apply State.pageRead_keeps
      | apply State.viewRead_keeps | apply State.microLine_keeps | apply answered_keeps | apply State.pageWrite_keeps | apply State.viewWrite_keeps
      | apply State.microStore_keeps | apply State.arrive_keeps | apply State.lkst_keeps | apply State.closeLock_keeps
      | fail_if_no_progress apply keeps_mk | apply opt2_some | apply opt2_none | apply opt2_map | apply opt2_ite
      | refine keeps_of_some2 (by assumption) ?_ | apply mp_go | apply mp_fault | apply mp_stall | apply mp_fence | apply mp_ite | apply keeps_ite
      | apply keeps_ite1 | apply keeps_ite2 | refine keeps_of_eq (by assumption) ?_ | refine keeps_of_eq2 (by assumption) ?_
      | refine keeps_of_eq3 (by assumption) ?_)
    | split | dsimp only

theorem State.microDisp_keeps {s0 : State} {s : State} {e : Nat} {o : CustOp} {m : MRun} (hs : Keeps s0 s) :
    Keeps s0 (State.microDisp s e o m) := by
  unfold State.microDisp
  repeat'
    first
    | intro _
    | with_reducible (
      first
      | assumption | apply State.setPc_keeps | apply State.commitNow_keeps | apply State.modRun_keeps | apply State.crStore_keeps
      | apply State.modEngine_keeps | fail_if_no_progress apply keeps_mk | apply keeps_each | apply keeps_ite)
    | split | dsimp only

theorem microExc_keeps {s0 : State} {o : CustOp} {w : Mw} {s : State} (hs : Keeps s0 s) :
    ResKeeps s0 (microExc o w s) := by
  unfold microExc
  repeat'
    first
    | intro _
    | with_reducible (
      first
      | assumption | apply State.takeFreeN_keeps | fail_if_no_progress apply keeps_mk | apply res_done | apply res_commit | apply res_settle
      | apply res_fault | apply res_wait | apply res_kept | apply res_stall | apply keeps_ite | apply keeps_ite1 | apply keeps_ite2 | apply res_ite
      | refine keeps_of_eq (by assumption) ?_ | refine keeps_of_eq2 (by assumption) ?_ | refine keeps_of_eq3 (by assumption) ?_)
    | split | dsimp only

theorem State.microFault_keeps {s0 : State} {s : State} {e : Nat} {kind : Nat} {ma : Nat} (hs : Keeps s0 s) :
    ResKeeps s0 (State.microFault s e kind ma) := by
  unfold State.microFault
  repeat'
    first
    | intro _
    | with_reducible (
      first
      | assumption | apply State.recovery_keeps | fail_if_no_progress apply keeps_mk | apply res_done | apply res_commit | apply res_settle
      | apply res_fault | apply res_wait | apply res_kept | apply res_stall)
    | split | dsimp only

theorem microRun_keeps {s0 : State} {e : Nat} {o : CustOp} {x2 : Nat} {x3 : MRun} {x4 : State} (hs : Keeps s0 x4) :
    ResKeeps s0 (microRun e o x2 x3 x4) := by
  induction x2 generalizing e o x3 x4 with
  | zero =>
    unfold microRun
    repeat'
      first
      | intro _
      | with_reducible (
        first
        | assumption | apply State.microDisp_keeps | apply State.microFault_keeps | apply State.commitNow_keeps | apply State.setPc_keeps
        | apply State.count_keeps | apply State.takeFree_keeps | apply microExc_keeps | apply State.drainOut_keeps | apply State.microPort_keeps
        | fail_if_no_progress apply keeps_mk | apply res_done | apply res_commit | apply res_settle | apply res_fault | apply res_wait
        | apply res_kept | apply res_stall | refine keeps_of_go (by assumption) ?_ | refine keeps_of_mfault (by assumption) ?_
        | refine keeps_of_eq (by assumption) ?_ | refine keeps_of_eq2 (by assumption) ?_ | refine keeps_of_eq3 (by assumption) ?_
        | refine keeps_of_done (by assumption) ?_ | refine keeps_of_commit (by assumption) ?_ | refine keeps_of_settle (by assumption) ?_
        | refine keeps_of_fault (by assumption) ?_ | refine keeps_of_wait (by assumption) ?_ | refine keeps_of_kept (by assumption) ?_)
      | split | dsimp only
  | succ k ih =>
    unfold microRun
    repeat'
      first
      | intro _
      | with_reducible (
        first
        | assumption | apply State.microDisp_keeps | apply State.microFault_keeps | apply State.commitNow_keeps | apply State.setPc_keeps
        | apply State.count_keeps | apply State.takeFree_keeps | apply microExc_keeps | apply State.drainOut_keeps | apply State.microPort_keeps
        | fail_if_no_progress apply keeps_mk | apply res_done | apply res_commit | apply res_settle | apply res_fault | apply res_wait
        | apply res_kept | apply res_stall | refine keeps_of_go (by assumption) ?_ | refine keeps_of_mfault (by assumption) ?_
        | refine keeps_of_eq (by assumption) ?_ | refine keeps_of_eq2 (by assumption) ?_ | refine keeps_of_eq3 (by assumption) ?_
        | refine keeps_of_done (by assumption) ?_ | refine keeps_of_commit (by assumption) ?_ | refine keeps_of_settle (by assumption) ?_
        | refine keeps_of_fault (by assumption) ?_ | refine keeps_of_wait (by assumption) ?_ | refine keeps_of_kept (by assumption) ?_)
      | with_reducible apply ih | split | dsimp only

theorem execCustomerInstruction_keeps {s0 : State} {e : EngId} {rd : RegNo} {rs1 : RegNo} {rs2 : RegNo} {x : BitVec 7} {sub : Fin 16} {s : State} (hs : Keeps s0 s) :
    OutKeeps s0 (execCustomerInstruction e rd rs1 rs2 x sub s) := by
  unfold execCustomerInstruction
  repeat'
    first
    | intro _
    | with_reducible (
      first
      | assumption | apply State.issue_keeps | apply State.takeFree_keeps | apply microRun_keeps | fail_if_no_progress apply keeps_mk | apply out_next
      | apply res_done | apply res_commit | apply res_settle | apply res_fault | apply res_wait | apply res_kept | apply res_stall | apply keeps_ite
      | apply keeps_ite1 | apply keeps_ite2 | apply res_ite | refine keeps_of_eq (by assumption) ?_ | refine keeps_of_eq2 (by assumption) ?_
      | refine keeps_of_eq3 (by assumption) ?_ | refine keeps_of_done (by assumption) ?_ | refine keeps_of_commit (by assumption) ?_
      | refine keeps_of_settle (by assumption) ?_ | refine keeps_of_fault (by assumption) ?_ | refine keeps_of_wait (by assumption) ?_
      | refine keeps_of_kept (by assumption) ?_)
    | split | dsimp only

/-! Fp -/

theorem fpFinish_keeps {s0 : State} {e : Nat} {r : FRes} {w : State → Nat → State} {s : State} (hw : ∀ t n, Keeps s0 t → Keeps s0 (w t n)) (hs : Keeps s0 s) :
    ResKeeps s0 (fpFinish e r w s) := by
  unfold fpFinish
  repeat'
    first
    | intro _
    | with_reducible (
      first
      | assumption | apply hw | apply State.setVfcsr_keeps | fail_if_no_progress apply keeps_mk | apply res_done | apply res_commit | apply res_settle
      | apply res_fault | apply res_wait | apply res_kept | apply res_stall | apply keeps_ite | apply res_ite)
    | split | dsimp only

theorem State.fpOp_keeps {s0 : State} {s : State} {e : Nat} {fmt : BitVec 2} {rm : BitVec 3} {parcel : Nat} {f : Fmt → Nat → State → FRes} {fd : RegNo} {srcs : List RegRef} (hs : Keeps s0 s) :
    Keeps s0 (State.fpOp s e fmt rm parcel f fd srcs) := by
  unfold State.fpOp
  repeat'
    first
    | intro _
    | with_reducible (
      first
      | assumption | apply State.issue_keeps | apply fpFinish_keeps | apply State.setF_keeps | fail_if_no_progress apply keeps_mk | apply res_done
      | apply res_commit | apply res_settle | apply res_fault | apply res_wait | apply res_kept | apply res_stall | apply keeps_ite | apply res_ite
      | refine keeps_of_done (by assumption) ?_ | refine keeps_of_commit (by assumption) ?_ | refine keeps_of_settle (by assumption) ?_
      | refine keeps_of_fault (by assumption) ?_ | refine keeps_of_wait (by assumption) ?_ | refine keeps_of_kept (by assumption) ?_)
    | split | dsimp only

theorem execFadd_keeps {s0 : State} {e : EngId} {fd : RegNo} {fa : RegNo} {fb : RegNo} {fmt : BitVec 2} {rm : BitVec 3} {s : State} (hs : Keeps s0 s) :
    OutKeeps s0 (execFadd e fd fa fb fmt rm s) := by
  unfold execFadd
  repeat'
    first
    | intro _
    | with_reducible (
      first
      | assumption | apply State.fpOp_keeps | fail_if_no_progress apply keeps_mk | apply out_next)
    | split | dsimp only

theorem execFsub_keeps {s0 : State} {e : EngId} {fd : RegNo} {fa : RegNo} {fb : RegNo} {fmt : BitVec 2} {rm : BitVec 3} {s : State} (hs : Keeps s0 s) :
    OutKeeps s0 (execFsub e fd fa fb fmt rm s) := by
  unfold execFsub
  repeat'
    first
    | intro _
    | with_reducible (
      first
      | assumption | apply State.fpOp_keeps | fail_if_no_progress apply keeps_mk | apply out_next)
    | split | dsimp only

theorem execFmul_keeps {s0 : State} {e : EngId} {fd : RegNo} {fa : RegNo} {fb : RegNo} {fmt : BitVec 2} {rm : BitVec 3} {s : State} (hs : Keeps s0 s) :
    OutKeeps s0 (execFmul e fd fa fb fmt rm s) := by
  unfold execFmul
  repeat'
    first
    | intro _
    | with_reducible (
      first
      | assumption | apply State.fpOp_keeps | fail_if_no_progress apply keeps_mk | apply out_next)
    | split | dsimp only

theorem execFma_keeps {s0 : State} {e : EngId} {fd : RegNo} {fa : RegNo} {fb : RegNo} {fmt : BitVec 2} {rm : BitVec 3} {s : State} (hs : Keeps s0 s) :
    OutKeeps s0 (execFma e fd fa fb fmt rm s) := by
  unfold execFma
  repeat'
    first
    | intro _
    | with_reducible (
      first
      | assumption | apply State.fpOp_keeps | fail_if_no_progress apply keeps_mk | apply out_next)
    | split | dsimp only

theorem execFdiv_keeps {s0 : State} {e : EngId} {fd : RegNo} {fa : RegNo} {fb : RegNo} {fmt : BitVec 2} {rm : BitVec 3} {s : State} (hs : Keeps s0 s) :
    OutKeeps s0 (execFdiv e fd fa fb fmt rm s) := by
  unfold execFdiv
  repeat'
    first
    | intro _
    | with_reducible (
      first
      | assumption | apply State.fpOp_keeps | fail_if_no_progress apply keeps_mk | apply out_next)
    | split | dsimp only

theorem execFsqrt_keeps {s0 : State} {e : EngId} {fd : RegNo} {fa : RegNo} {fmt : BitVec 2} {rm : BitVec 3} {s : State} (hs : Keeps s0 s) :
    OutKeeps s0 (execFsqrt e fd fa fmt rm s) := by
  unfold execFsqrt
  repeat'
    first
    | intro _
    | with_reducible (
      first
      | assumption | apply State.fpOp_keeps | fail_if_no_progress apply keeps_mk | apply out_next)
    | split | dsimp only

theorem execFmin_keeps {s0 : State} {e : EngId} {fd : RegNo} {fa : RegNo} {fb : RegNo} {fmt : BitVec 2} {num : Bool} {s : State} (hs : Keeps s0 s) :
    OutKeeps s0 (execFmin e fd fa fb fmt num s) := by
  unfold execFmin
  repeat'
    first
    | intro _
    | with_reducible (
      first
      | assumption | apply State.fpOp_keeps | fail_if_no_progress apply keeps_mk | apply out_next)
    | split | dsimp only

theorem execFmax_keeps {s0 : State} {e : EngId} {fd : RegNo} {fa : RegNo} {fb : RegNo} {fmt : BitVec 2} {num : Bool} {s : State} (hs : Keeps s0 s) :
    OutKeeps s0 (execFmax e fd fa fb fmt num s) := by
  unfold execFmax
  repeat'
    first
    | intro _
    | with_reducible (
      first
      | assumption | apply State.fpOp_keeps | fail_if_no_progress apply keeps_mk | apply out_next)
    | split | dsimp only

theorem execFcmp_keeps {s0 : State} {e : EngId} {gd : RegNo} {fa : RegNo} {fb : RegNo} {fmt : BitVec 2} {cond : BitVec 3} {sig : Bool} {s : State} (hs : Keeps s0 s) :
    OutKeeps s0 (execFcmp e gd fa fb fmt cond sig s) := by
  unfold execFcmp
  repeat'
    first
    | intro _
    | with_reducible (
      first
      | assumption | apply State.issue_keeps | apply fpFinish_keeps | apply State.setG_keeps | fail_if_no_progress apply keeps_mk | apply out_next
      | apply res_done | apply res_commit | apply res_settle | apply res_fault | apply res_wait | apply res_kept | apply res_stall | apply keeps_ite
      | apply res_ite | refine keeps_of_done (by assumption) ?_ | refine keeps_of_commit (by assumption) ?_
      | refine keeps_of_settle (by assumption) ?_ | refine keeps_of_fault (by assumption) ?_ | refine keeps_of_wait (by assumption) ?_
      | refine keeps_of_kept (by assumption) ?_)
    | split | dsimp only

theorem execFcvtFf_keeps {s0 : State} {e : EngId} {fd : RegNo} {fa : RegNo} {src : BitVec 2} {fmt : BitVec 2} {rm : BitVec 3} {s : State} (hs : Keeps s0 s) :
    OutKeeps s0 (execFcvtFf e fd fa src fmt rm s) := by
  unfold execFcvtFf
  repeat'
    first
    | intro _
    | with_reducible (
      first
      | assumption | apply State.fpOp_keeps | fail_if_no_progress apply keeps_mk | apply out_next | apply keeps_ite)
    | split | dsimp only

theorem execFcvtFi_keeps {s0 : State} {e : EngId} {fd : RegNo} {ga : RegNo} {uns : Bool} {fmt : BitVec 2} {rm : BitVec 3} {s : State} (hs : Keeps s0 s) :
    OutKeeps s0 (execFcvtFi e fd ga uns fmt rm s) := by
  unfold execFcvtFi
  repeat'
    first
    | intro _
    | with_reducible (
      first
      | assumption | apply State.issue_keeps | apply fpFinish_keeps | apply State.setF_keeps | fail_if_no_progress apply keeps_mk | apply out_next
      | apply res_done | apply res_commit | apply res_settle | apply res_fault | apply res_wait | apply res_kept | apply res_stall | apply keeps_ite
      | apply res_ite | refine keeps_of_done (by assumption) ?_ | refine keeps_of_commit (by assumption) ?_
      | refine keeps_of_settle (by assumption) ?_ | refine keeps_of_fault (by assumption) ?_ | refine keeps_of_wait (by assumption) ?_
      | refine keeps_of_kept (by assumption) ?_)
    | split | dsimp only

theorem execFcvtIf_keeps {s0 : State} {e : EngId} {gd : RegNo} {fa : RegNo} {uns : Bool} {fmt : BitVec 2} {rm : BitVec 3} {s : State} (hs : Keeps s0 s) :
    OutKeeps s0 (execFcvtIf e gd fa uns fmt rm s) := by
  unfold execFcvtIf
  repeat'
    first
    | intro _
    | with_reducible (
      first
      | assumption | apply State.issue_keeps | apply fpFinish_keeps | apply State.setG_keeps | fail_if_no_progress apply keeps_mk | apply out_next
      | apply res_done | apply res_commit | apply res_settle | apply res_fault | apply res_wait | apply res_kept | apply res_stall | apply keeps_ite
      | apply res_ite | refine keeps_of_done (by assumption) ?_ | refine keeps_of_commit (by assumption) ?_
      | refine keeps_of_settle (by assumption) ?_ | refine keeps_of_fault (by assumption) ?_ | refine keeps_of_wait (by assumption) ?_
      | refine keeps_of_kept (by assumption) ?_)
    | split | dsimp only

theorem execFmvGf_keeps {s0 : State} {e : EngId} {fd : RegNo} {ga : RegNo} {s : State} (hs : Keeps s0 s) :
    OutKeeps s0 (execFmvGf e fd ga s) := by
  unfold execFmvGf
  repeat'
    first
    | intro _
    | with_reducible (
      first
      | assumption | apply State.issue_keeps | apply State.setF_keeps | fail_if_no_progress apply keeps_mk | apply out_next | apply res_done
      | apply res_commit | apply res_settle | apply res_fault | apply res_wait | apply res_kept | apply res_stall)
    | split | dsimp only

theorem execFmvFg_keeps {s0 : State} {e : EngId} {gd : RegNo} {fa : RegNo} {fmt : BitVec 2} {s : State} (hs : Keeps s0 s) :
    OutKeeps s0 (execFmvFg e gd fa fmt s) := by
  unfold execFmvFg
  repeat'
    first
    | intro _
    | with_reducible (
      first
      | assumption | apply State.issue_keeps | apply State.setG_keeps | fail_if_no_progress apply keeps_mk | apply out_next | apply res_done
      | apply res_commit | apply res_settle | apply res_fault | apply res_wait | apply res_kept | apply res_stall | apply keeps_ite)
    | split | dsimp only

theorem execFneg_keeps {s0 : State} {e : EngId} {fd : RegNo} {fa : RegNo} {fmt : BitVec 2} {s : State} (hs : Keeps s0 s) :
    OutKeeps s0 (execFneg e fd fa fmt s) := by
  unfold execFneg
  repeat'
    first
    | intro _
    | with_reducible (
      first
      | assumption | apply State.fpOp_keeps | fail_if_no_progress apply keeps_mk | apply out_next)
    | split | dsimp only

theorem execFabs_keeps {s0 : State} {e : EngId} {fd : RegNo} {fa : RegNo} {fmt : BitVec 2} {s : State} (hs : Keeps s0 s) :
    OutKeeps s0 (execFabs e fd fa fmt s) := by
  unfold execFabs
  repeat'
    first
    | intro _
    | with_reducible (
      first
      | assumption | apply State.fpOp_keeps | fail_if_no_progress apply keeps_mk | apply out_next)
    | split | dsimp only

theorem State.setVreg_keeps {s0 : State} {s : State} {e : Nat} {k : Nat} {v : Nat} (hs : Keeps s0 s) :
    Keeps s0 (State.setVreg s e k v) := by
  unfold State.setVreg
  repeat'
    first
    | intro _
    | with_reducible (
      first
      | assumption | apply State.modRun_keeps | fail_if_no_progress apply keeps_mk | apply keeps_fold | apply keeps_fold1 | apply keeps_fold2
      | apply keeps_fold3 | refine keeps_of_eq (by assumption) ?_ | refine keeps_of_eq2 (by assumption) ?_ | refine keeps_of_eq3 (by assumption) ?_)
    | split | dsimp only

theorem shortRes_keeps {s0 : State} {e : Nat} {p : Nat} {o : Nat} {vd : BitVec 3} {va : BitVec 3} {vb : BitVec 3} {et : Nat} {d : Nat} {md : BitVec 3} {parcel : Nat} {s : State} (hs : Keeps s0 s) :
    ResKeeps s0 (shortRes e p o vd va vb et d md parcel s) := by
  unfold shortRes
  repeat'
    first
    | intro _
    | with_reducible (
      first
      | assumption | apply State.setVfcsr_keeps | apply State.setVreg_keeps | fail_if_no_progress apply keeps_mk | apply keeps_fold
      | apply keeps_fold1 | apply keeps_fold2 | apply keeps_fold3 | apply res_done | apply res_commit | apply res_settle | apply res_fault
      | apply res_wait | apply res_kept | apply res_stall | apply keeps_ite | apply res_ite | refine keeps_of_eq (by assumption) ?_
      | refine keeps_of_eq2 (by assumption) ?_ | refine keeps_of_eq3 (by assumption) ?_)
    | split | dsimp only

theorem State.shortVec_keeps {s0 : State} {s : State} {e : Nat} {p : Nat} {o : Nat} {vd : BitVec 3} {va : BitVec 3} {vb : BitVec 3} {et : BitVec 4} {d : Nat} {md : BitVec 3} (hs : Keeps s0 s) :
    Keeps s0 (State.shortVec s e p o vd va vb et d md) := by
  unfold State.shortVec
  repeat'
    first
    | intro _
    | with_reducible (
      first
      | assumption | apply State.issue_keeps | apply shortRes_keeps | fail_if_no_progress apply keeps_mk | apply res_done | apply res_commit
      | apply res_settle | apply res_fault | apply res_wait | apply res_kept | apply res_stall | apply keeps_ite | apply res_ite
      | refine keeps_of_done (by assumption) ?_ | refine keeps_of_commit (by assumption) ?_ | refine keeps_of_settle (by assumption) ?_
      | refine keeps_of_fault (by assumption) ?_ | refine keeps_of_wait (by assumption) ?_ | refine keeps_of_kept (by assumption) ?_)
    | split | dsimp only

theorem execShortVadd_keeps {s0 : State} {e : EngId} {vd : BitVec 3} {va : BitVec 3} {vb : BitVec 3} {et : BitVec 4} {md : BitVec 3} {s : State} (hs : Keeps s0 s) :
    OutKeeps s0 (execShortVadd e vd va vb et md s) := by
  unfold execShortVadd
  repeat'
    first
    | intro _
    | with_reducible (
      first
      | assumption | apply State.shortVec_keeps | fail_if_no_progress apply keeps_mk | apply out_next)
    | split | dsimp only

theorem execShortVsub_keeps {s0 : State} {e : EngId} {vd : BitVec 3} {va : BitVec 3} {vb : BitVec 3} {et : BitVec 4} {md : BitVec 3} {s : State} (hs : Keeps s0 s) :
    OutKeeps s0 (execShortVsub e vd va vb et md s) := by
  unfold execShortVsub
  repeat'
    first
    | intro _
    | with_reducible (
      first
      | assumption | apply State.shortVec_keeps | fail_if_no_progress apply keeps_mk | apply out_next)
    | split | dsimp only

theorem execShortVmin_keeps {s0 : State} {e : EngId} {vd : BitVec 3} {va : BitVec 3} {vb : BitVec 3} {et : BitVec 4} {md : BitVec 3} {s : State} (hs : Keeps s0 s) :
    OutKeeps s0 (execShortVmin e vd va vb et md s) := by
  unfold execShortVmin
  repeat'
    first
    | intro _
    | with_reducible (
      first
      | assumption | apply State.shortVec_keeps | fail_if_no_progress apply keeps_mk | apply out_next)
    | split | dsimp only

theorem execShortVmax_keeps {s0 : State} {e : EngId} {vd : BitVec 3} {va : BitVec 3} {vb : BitVec 3} {et : BitVec 4} {md : BitVec 3} {s : State} (hs : Keeps s0 s) :
    OutKeeps s0 (execShortVmax e vd va vb et md s) := by
  unfold execShortVmax
  repeat'
    first
    | intro _
    | with_reducible (
      first
      | assumption | apply State.shortVec_keeps | fail_if_no_progress apply keeps_mk | apply out_next)
    | split | dsimp only

theorem execShortVand_keeps {s0 : State} {e : EngId} {vd : BitVec 3} {va : BitVec 3} {vb : BitVec 3} {et : BitVec 4} {md : BitVec 3} {s : State} (hs : Keeps s0 s) :
    OutKeeps s0 (execShortVand e vd va vb et md s) := by
  unfold execShortVand
  repeat'
    first
    | intro _
    | with_reducible (
      first
      | assumption | apply State.shortVec_keeps | fail_if_no_progress apply keeps_mk | apply out_next)
    | split | dsimp only

theorem execShortVor_keeps {s0 : State} {e : EngId} {vd : BitVec 3} {va : BitVec 3} {vb : BitVec 3} {et : BitVec 4} {md : BitVec 3} {s : State} (hs : Keeps s0 s) :
    OutKeeps s0 (execShortVor e vd va vb et md s) := by
  unfold execShortVor
  repeat'
    first
    | intro _
    | with_reducible (
      first
      | assumption | apply State.shortVec_keeps | fail_if_no_progress apply keeps_mk | apply out_next)
    | split | dsimp only

theorem execShortVxor_keeps {s0 : State} {e : EngId} {vd : BitVec 3} {va : BitVec 3} {vb : BitVec 3} {et : BitVec 4} {md : BitVec 3} {s : State} (hs : Keeps s0 s) :
    OutKeeps s0 (execShortVxor e vd va vb et md s) := by
  unfold execShortVxor
  repeat'
    first
    | intro _
    | with_reducible (
      first
      | assumption | apply State.shortVec_keeps | fail_if_no_progress apply keeps_mk | apply out_next)
    | split | dsimp only

theorem execShortVandn_keeps {s0 : State} {e : EngId} {vd : BitVec 3} {va : BitVec 3} {vb : BitVec 3} {et : BitVec 4} {md : BitVec 3} {s : State} (hs : Keeps s0 s) :
    OutKeeps s0 (execShortVandn e vd va vb et md s) := by
  unfold execShortVandn
  repeat'
    first
    | intro _
    | with_reducible (
      first
      | assumption | apply State.shortVec_keeps | fail_if_no_progress apply keeps_mk | apply out_next)
    | split | dsimp only

theorem execShortVshl_keeps {s0 : State} {e : EngId} {vd : BitVec 3} {va : BitVec 3} {vb : BitVec 3} {et : BitVec 4} {md : BitVec 3} {s : State} (hs : Keeps s0 s) :
    OutKeeps s0 (execShortVshl e vd va vb et md s) := by
  unfold execShortVshl
  repeat'
    first
    | intro _
    | with_reducible (
      first
      | assumption | apply State.shortVec_keeps | fail_if_no_progress apply keeps_mk | apply out_next)
    | split | dsimp only

theorem execShortVshr_keeps {s0 : State} {e : EngId} {vd : BitVec 3} {va : BitVec 3} {vb : BitVec 3} {et : BitVec 4} {md : BitVec 3} {s : State} (hs : Keeps s0 s) :
    OutKeeps s0 (execShortVshr e vd va vb et md s) := by
  unfold execShortVshr
  repeat'
    first
    | intro _
    | with_reducible (
      first
      | assumption | apply State.shortVec_keeps | fail_if_no_progress apply keeps_mk | apply out_next)
    | split | dsimp only

theorem execShortVmul_keeps {s0 : State} {e : EngId} {vd : BitVec 3} {va : BitVec 3} {vb : BitVec 3} {et : BitVec 4} {md : BitVec 3} {s : State} (hs : Keeps s0 s) :
    OutKeeps s0 (execShortVmul e vd va vb et md s) := by
  unfold execShortVmul
  repeat'
    first
    | intro _
    | with_reducible (
      first
      | assumption | apply State.shortVec_keeps | fail_if_no_progress apply keeps_mk | apply out_next)
    | split | dsimp only

theorem execShortVmulh_keeps {s0 : State} {e : EngId} {vd : BitVec 3} {va : BitVec 3} {vb : BitVec 3} {et : BitVec 4} {md : BitVec 3} {s : State} (hs : Keeps s0 s) :
    OutKeeps s0 (execShortVmulh e vd va vb et md s) := by
  unfold execShortVmulh
  repeat'
    first
    | intro _
    | with_reducible (
      first
      | assumption | apply State.shortVec_keeps | fail_if_no_progress apply keeps_mk | apply out_next)
    | split | dsimp only

theorem execShortVfma_keeps {s0 : State} {e : EngId} {vd : BitVec 3} {va : BitVec 3} {vb : BitVec 3} {et : BitVec 4} {md : BitVec 3} {s : State} (hs : Keeps s0 s) :
    OutKeeps s0 (execShortVfma e vd va vb et md s) := by
  unfold execShortVfma
  repeat'
    first
    | intro _
    | with_reducible (
      first
      | assumption | apply State.shortVec_keeps | fail_if_no_progress apply keeps_mk | apply out_next)
    | split | dsimp only

theorem execShortVdiv_keeps {s0 : State} {e : EngId} {vd : BitVec 3} {va : BitVec 3} {vb : BitVec 3} {et : BitVec 4} {md : BitVec 3} {s : State} (hs : Keeps s0 s) :
    OutKeeps s0 (execShortVdiv e vd va vb et md s) := by
  unfold execShortVdiv
  repeat'
    first
    | intro _
    | with_reducible (
      first
      | assumption | apply State.shortVec_keeps | fail_if_no_progress apply keeps_mk | apply out_next)
    | split | dsimp only

theorem execShortVneg_keeps {s0 : State} {e : EngId} {vd : BitVec 3} {va : BitVec 3} {et : BitVec 4} {md : BitVec 3} {s : State} (hs : Keeps s0 s) :
    OutKeeps s0 (execShortVneg e vd va et md s) := by
  unfold execShortVneg
  repeat'
    first
    | intro _
    | with_reducible (
      first
      | assumption | apply State.shortVec_keeps | fail_if_no_progress apply keeps_mk | apply out_next)
    | split | dsimp only

theorem execShortVabs_keeps {s0 : State} {e : EngId} {vd : BitVec 3} {va : BitVec 3} {et : BitVec 4} {md : BitVec 3} {s : State} (hs : Keeps s0 s) :
    OutKeeps s0 (execShortVabs e vd va et md s) := by
  unfold execShortVabs
  repeat'
    first
    | intro _
    | with_reducible (
      first
      | assumption | apply State.shortVec_keeps | fail_if_no_progress apply keeps_mk | apply out_next)
    | split | dsimp only

theorem execShortVdchk_keeps {s0 : State} {e : EngId} {vd : BitVec 3} {va : BitVec 3} {et : BitVec 4} {md : BitVec 3} {s : State} (hs : Keeps s0 s) :
    OutKeeps s0 (execShortVdchk e vd va et md s) := by
  unfold execShortVdchk
  repeat'
    first
    | intro _
    | with_reducible (
      first
      | assumption | apply State.shortVec_keeps | fail_if_no_progress apply keeps_mk | apply out_next)
    | split | dsimp only

theorem execShortVsqrt_keeps {s0 : State} {e : EngId} {vd : BitVec 3} {va : BitVec 3} {et : BitVec 4} {md : BitVec 3} {s : State} (hs : Keeps s0 s) :
    OutKeeps s0 (execShortVsqrt e vd va et md s) := by
  unfold execShortVsqrt
  repeat'
    first
    | intro _
    | with_reducible (
      first
      | assumption | apply State.shortVec_keeps | fail_if_no_progress apply keeps_mk | apply out_next)
    | split | dsimp only

theorem execShortVcvt_keeps {s0 : State} {e : EngId} {vd : BitVec 3} {va : BitVec 3} {et : BitVec 4} {dt : BitVec 4} {md : BitVec 3} {s : State} (hs : Keeps s0 s) :
    OutKeeps s0 (execShortVcvt e vd va et dt md s) := by
  unfold execShortVcvt
  repeat'
    first
    | intro _
    | with_reducible (
      first
      | assumption | apply State.shortVec_keeps | fail_if_no_progress apply keeps_mk | apply out_next)
    | split | dsimp only

/-! LongVec -/

theorem execVadd_keeps {s0 : State} {e : EngId} {md : BitVec 6} {rsv : BitVec 8} {p1 : BitVec 32} {s : State} (hs : Keeps s0 s) :
    OutKeeps s0 (execVadd e md rsv p1 s) := by
  unfold execVadd
  repeat'
    first
    | intro _
    | with_reducible (
      first
      | assumption | apply State.lv_keeps | fail_if_no_progress apply keeps_mk | apply out_next)
    | split | dsimp only

theorem execVsub_keeps {s0 : State} {e : EngId} {md : BitVec 6} {rsv : BitVec 8} {p1 : BitVec 32} {s : State} (hs : Keeps s0 s) :
    OutKeeps s0 (execVsub e md rsv p1 s) := by
  unfold execVsub
  repeat'
    first
    | intro _
    | with_reducible (
      first
      | assumption | apply State.lv_keeps | fail_if_no_progress apply keeps_mk | apply out_next)
    | split | dsimp only

theorem execVneg_keeps {s0 : State} {e : EngId} {md : BitVec 6} {rsv : BitVec 8} {p1 : BitVec 32} {s : State} (hs : Keeps s0 s) :
    OutKeeps s0 (execVneg e md rsv p1 s) := by
  unfold execVneg
  repeat'
    first
    | intro _
    | with_reducible (
      first
      | assumption | apply State.lv_keeps | fail_if_no_progress apply keeps_mk | apply out_next)
    | split | dsimp only

theorem execVabs_keeps {s0 : State} {e : EngId} {md : BitVec 6} {rsv : BitVec 8} {p1 : BitVec 32} {s : State} (hs : Keeps s0 s) :
    OutKeeps s0 (execVabs e md rsv p1 s) := by
  unfold execVabs
  repeat'
    first
    | intro _
    | with_reducible (
      first
      | assumption | apply State.lv_keeps | fail_if_no_progress apply keeps_mk | apply out_next)
    | split | dsimp only

theorem execVmin_keeps {s0 : State} {e : EngId} {md : BitVec 6} {rsv : BitVec 8} {p1 : BitVec 32} {s : State} (hs : Keeps s0 s) :
    OutKeeps s0 (execVmin e md rsv p1 s) := by
  unfold execVmin
  repeat'
    first
    | intro _
    | with_reducible (
      first
      | assumption | apply State.lv_keeps | fail_if_no_progress apply keeps_mk | apply out_next)
    | split | dsimp only

theorem execVmax_keeps {s0 : State} {e : EngId} {md : BitVec 6} {rsv : BitVec 8} {p1 : BitVec 32} {s : State} (hs : Keeps s0 s) :
    OutKeeps s0 (execVmax e md rsv p1 s) := by
  unfold execVmax
  repeat'
    first
    | intro _
    | with_reducible (
      first
      | assumption | apply State.lv_keeps | fail_if_no_progress apply keeps_mk | apply out_next)
    | split | dsimp only

theorem execVcmp_keeps {s0 : State} {e : EngId} {md : BitVec 6} {rsv : BitVec 8} {p1 : BitVec 32} {s : State} (hs : Keeps s0 s) :
    OutKeeps s0 (execVcmp e md rsv p1 s) := by
  unfold execVcmp
  repeat'
    first
    | intro _
    | with_reducible (
      first
      | assumption | apply State.lv_keeps | fail_if_no_progress apply keeps_mk | apply out_next)
    | split | dsimp only

theorem execVsel_keeps {s0 : State} {e : EngId} {md : BitVec 6} {rsv : BitVec 8} {p1 : BitVec 32} {s : State} (hs : Keeps s0 s) :
    OutKeeps s0 (execVsel e md rsv p1 s) := by
  unfold execVsel
  repeat'
    first
    | intro _
    | with_reducible (
      first
      | assumption | apply State.lv_keeps | fail_if_no_progress apply keeps_mk | apply out_next)
    | split | dsimp only

theorem execVand_keeps {s0 : State} {e : EngId} {md : BitVec 6} {rsv : BitVec 8} {p1 : BitVec 32} {s : State} (hs : Keeps s0 s) :
    OutKeeps s0 (execVand e md rsv p1 s) := by
  unfold execVand
  repeat'
    first
    | intro _
    | with_reducible (
      first
      | assumption | apply State.lv_keeps | fail_if_no_progress apply keeps_mk | apply out_next)
    | split | dsimp only

theorem execVor_keeps {s0 : State} {e : EngId} {md : BitVec 6} {rsv : BitVec 8} {p1 : BitVec 32} {s : State} (hs : Keeps s0 s) :
    OutKeeps s0 (execVor e md rsv p1 s) := by
  unfold execVor
  repeat'
    first
    | intro _
    | with_reducible (
      first
      | assumption | apply State.lv_keeps | fail_if_no_progress apply keeps_mk | apply out_next)
    | split | dsimp only

theorem execVxor_keeps {s0 : State} {e : EngId} {md : BitVec 6} {rsv : BitVec 8} {p1 : BitVec 32} {s : State} (hs : Keeps s0 s) :
    OutKeeps s0 (execVxor e md rsv p1 s) := by
  unfold execVxor
  repeat'
    first
    | intro _
    | with_reducible (
      first
      | assumption | apply State.lv_keeps | fail_if_no_progress apply keeps_mk | apply out_next)
    | split | dsimp only

theorem execVandn_keeps {s0 : State} {e : EngId} {md : BitVec 6} {rsv : BitVec 8} {p1 : BitVec 32} {s : State} (hs : Keeps s0 s) :
    OutKeeps s0 (execVandn e md rsv p1 s) := by
  unfold execVandn
  repeat'
    first
    | intro _
    | with_reducible (
      first
      | assumption | apply State.lv_keeps | fail_if_no_progress apply keeps_mk | apply out_next)
    | split | dsimp only

theorem execVshl_keeps {s0 : State} {e : EngId} {md : BitVec 6} {rsv : BitVec 8} {p1 : BitVec 32} {s : State} (hs : Keeps s0 s) :
    OutKeeps s0 (execVshl e md rsv p1 s) := by
  unfold execVshl
  repeat'
    first
    | intro _
    | with_reducible (
      first
      | assumption | apply State.lv_keeps | fail_if_no_progress apply keeps_mk | apply out_next)
    | split | dsimp only

theorem execVshr_keeps {s0 : State} {e : EngId} {md : BitVec 6} {rsv : BitVec 8} {p1 : BitVec 32} {s : State} (hs : Keeps s0 s) :
    OutKeeps s0 (execVshr e md rsv p1 s) := by
  unfold execVshr
  repeat'
    first
    | intro _
    | with_reducible (
      first
      | assumption | apply State.lv_keeps | fail_if_no_progress apply keeps_mk | apply out_next)
    | split | dsimp only

theorem execVdchk_keeps {s0 : State} {e : EngId} {md : BitVec 6} {rsv : BitVec 8} {p1 : BitVec 32} {s : State} (hs : Keeps s0 s) :
    OutKeeps s0 (execVdchk e md rsv p1 s) := by
  unfold execVdchk
  repeat'
    first
    | intro _
    | with_reducible (
      first
      | assumption | apply State.lv_keeps | fail_if_no_progress apply keeps_mk | apply out_next)
    | split | dsimp only

theorem execVdshl_keeps {s0 : State} {e : EngId} {md : BitVec 6} {rsv : BitVec 8} {p1 : BitVec 32} {s : State} (hs : Keeps s0 s) :
    OutKeeps s0 (execVdshl e md rsv p1 s) := by
  unfold execVdshl
  repeat'
    first
    | intro _
    | with_reducible (
      first
      | assumption | apply State.lv_keeps | fail_if_no_progress apply keeps_mk | apply out_next)
    | split | dsimp only

theorem execVdshr_keeps {s0 : State} {e : EngId} {md : BitVec 6} {rsv : BitVec 8} {p1 : BitVec 32} {s : State} (hs : Keeps s0 s) :
    OutKeeps s0 (execVdshr e md rsv p1 s) := by
  unfold execVdshr
  repeat'
    first
    | intro _
    | with_reducible (
      first
      | assumption | apply State.lv_keeps | fail_if_no_progress apply keeps_mk | apply out_next)
    | split | dsimp only

theorem execVmul_keeps {s0 : State} {e : EngId} {md : BitVec 6} {rsv : BitVec 8} {p1 : BitVec 32} {s : State} (hs : Keeps s0 s) :
    OutKeeps s0 (execVmul e md rsv p1 s) := by
  unfold execVmul
  repeat'
    first
    | intro _
    | with_reducible (
      first
      | assumption | apply State.lv_keeps | fail_if_no_progress apply keeps_mk | apply out_next)
    | split | dsimp only

theorem execVmulh_keeps {s0 : State} {e : EngId} {md : BitVec 6} {rsv : BitVec 8} {p1 : BitVec 32} {s : State} (hs : Keeps s0 s) :
    OutKeeps s0 (execVmulh e md rsv p1 s) := by
  unfold execVmulh
  repeat'
    first
    | intro _
    | with_reducible (
      first
      | assumption | apply State.lv_keeps | fail_if_no_progress apply keeps_mk | apply out_next)
    | split | dsimp only

theorem execVmulw_keeps {s0 : State} {e : EngId} {md : BitVec 6} {rsv : BitVec 8} {p1 : BitVec 32} {s : State} (hs : Keeps s0 s) :
    OutKeeps s0 (execVmulw e md rsv p1 s) := by
  unfold execVmulw
  repeat'
    first
    | intro _
    | with_reducible (
      first
      | assumption | apply State.lv_keeps | fail_if_no_progress apply keeps_mk | apply out_next)
    | split | dsimp only

theorem execVdot_keeps {s0 : State} {e : EngId} {md : BitVec 6} {rsv : BitVec 8} {p1 : BitVec 32} {s : State} (hs : Keeps s0 s) :
    OutKeeps s0 (execVdot e md rsv p1 s) := by
  unfold execVdot
  repeat'
    first
    | intro _
    | with_reducible (
      first
      | assumption | apply State.lv_keeps | fail_if_no_progress apply keeps_mk | apply out_next)
    | split | dsimp only

theorem execVfma_keeps {s0 : State} {e : EngId} {md : BitVec 6} {rsv : BitVec 8} {p1 : BitVec 32} {s : State} (hs : Keeps s0 s) :
    OutKeeps s0 (execVfma e md rsv p1 s) := by
  unfold execVfma
  repeat'
    first
    | intro _
    | with_reducible (
      first
      | assumption | apply State.lv_keeps | fail_if_no_progress apply keeps_mk | apply out_next)
    | split | dsimp only

theorem execVdiv_keeps {s0 : State} {e : EngId} {md : BitVec 6} {rsv : BitVec 8} {p1 : BitVec 32} {s : State} (hs : Keeps s0 s) :
    OutKeeps s0 (execVdiv e md rsv p1 s) := by
  unfold execVdiv
  repeat'
    first
    | intro _
    | with_reducible (
      first
      | assumption | apply State.lv_keeps | fail_if_no_progress apply keeps_mk | apply out_next)
    | split | dsimp only

theorem execVsqrt_keeps {s0 : State} {e : EngId} {md : BitVec 6} {rsv : BitVec 8} {p1 : BitVec 32} {s : State} (hs : Keeps s0 s) :
    OutKeeps s0 (execVsqrt e md rsv p1 s) := by
  unfold execVsqrt
  repeat'
    first
    | intro _
    | with_reducible (
      first
      | assumption | apply State.lv_keeps | fail_if_no_progress apply keeps_mk | apply out_next)
    | split | dsimp only

theorem execVrsum_keeps {s0 : State} {e : EngId} {md : BitVec 6} {rsv : BitVec 8} {p1 : BitVec 32} {s : State} (hs : Keeps s0 s) :
    OutKeeps s0 (execVrsum e md rsv p1 s) := by
  unfold execVrsum
  repeat'
    first
    | intro _
    | with_reducible (
      first
      | assumption | apply State.lv_keeps | fail_if_no_progress apply keeps_mk | apply out_next)
    | split | dsimp only

theorem execVrmin_keeps {s0 : State} {e : EngId} {md : BitVec 6} {rsv : BitVec 8} {p1 : BitVec 32} {s : State} (hs : Keeps s0 s) :
    OutKeeps s0 (execVrmin e md rsv p1 s) := by
  unfold execVrmin
  repeat'
    first
    | intro _
    | with_reducible (
      first
      | assumption | apply State.lv_keeps | fail_if_no_progress apply keeps_mk | apply out_next)
    | split | dsimp only

theorem execVrmax_keeps {s0 : State} {e : EngId} {md : BitVec 6} {rsv : BitVec 8} {p1 : BitVec 32} {s : State} (hs : Keeps s0 s) :
    OutKeeps s0 (execVrmax e md rsv p1 s) := by
  unfold execVrmax
  repeat'
    first
    | intro _
    | with_reducible (
      first
      | assumption | apply State.lv_keeps | fail_if_no_progress apply keeps_mk | apply out_next)
    | split | dsimp only

theorem execVscan_keeps {s0 : State} {e : EngId} {md : BitVec 6} {rsv : BitVec 8} {p1 : BitVec 32} {s : State} (hs : Keeps s0 s) :
    OutKeeps s0 (execVscan e md rsv p1 s) := by
  unfold execVscan
  repeat'
    first
    | intro _
    | with_reducible (
      first
      | assumption | apply State.lv_keeps | fail_if_no_progress apply keeps_mk | apply out_next)
    | split | dsimp only

theorem execVzip_keeps {s0 : State} {e : EngId} {md : BitVec 6} {rsv : BitVec 8} {p1 : BitVec 32} {s : State} (hs : Keeps s0 s) :
    OutKeeps s0 (execVzip e md rsv p1 s) := by
  unfold execVzip
  repeat'
    first
    | intro _
    | with_reducible (
      first
      | assumption | apply State.lv_keeps | fail_if_no_progress apply keeps_mk | apply out_next)
    | split | dsimp only

theorem execVunzip_keeps {s0 : State} {e : EngId} {md : BitVec 6} {rsv : BitVec 8} {p1 : BitVec 32} {s : State} (hs : Keeps s0 s) :
    OutKeeps s0 (execVunzip e md rsv p1 s) := by
  unfold execVunzip
  repeat'
    first
    | intro _
    | with_reducible (
      first
      | assumption | apply State.lv_keeps | fail_if_no_progress apply keeps_mk | apply out_next)
    | split | dsimp only

theorem execVbfly_keeps {s0 : State} {e : EngId} {md : BitVec 6} {rsv : BitVec 8} {p1 : BitVec 32} {s : State} (hs : Keeps s0 s) :
    OutKeeps s0 (execVbfly e md rsv p1 s) := by
  unfold execVbfly
  repeat'
    first
    | intro _
    | with_reducible (
      first
      | assumption | apply State.lv_keeps | fail_if_no_progress apply keeps_mk | apply out_next)
    | split | dsimp only

theorem execVcvt_keeps {s0 : State} {e : EngId} {md : BitVec 6} {rsv : BitVec 8} {p1 : BitVec 32} {s : State} (hs : Keeps s0 s) :
    OutKeeps s0 (execVcvt e md rsv p1 s) := by
  unfold execVcvt
  repeat'
    first
    | intro _
    | with_reducible (
      first
      | assumption | apply State.lv_keeps | fail_if_no_progress apply keeps_mk | apply out_next)
    | split | dsimp only

theorem execCopy_keeps {s0 : State} {e : EngId} {rsv : BitVec 22} {p1 : BitVec 32} {s : State} (hs : Keeps s0 s) :
    OutKeeps s0 (execCopy e rsv p1 s) := by
  unfold execCopy
  repeat'
    first
    | intro _
    | with_reducible (
      first
      | assumption | apply State.lv_keeps | fail_if_no_progress apply keeps_mk | apply out_next)
    | split | dsimp only

theorem execFill_keeps {s0 : State} {e : EngId} {rsv : BitVec 22} {p1 : BitVec 32} {s : State} (hs : Keeps s0 s) :
    OutKeeps s0 (execFill e rsv p1 s) := by
  unfold execFill
  repeat'
    first
    | intro _
    | with_reducible (
      first
      | assumption | apply State.lv_keeps | fail_if_no_progress apply keeps_mk | apply out_next)
    | split | dsimp only

theorem execChain_keeps {s0 : State} {e : EngId} {body : BitVec 24} {p1 : BitVec 32} {s : State} (hs : Keeps s0 s) :
    OutKeeps s0 (execChain e body p1 s) := by
  unfold execChain
  repeat'
    first
    | intro _
    | with_reducible (
      first
      | assumption | apply State.lv_keeps | fail_if_no_progress apply keeps_mk | apply out_next)
    | split | dsimp only

/-! Pcie -/

theorem State.pciReadLine_keeps {s0 : State} {s : State} {key : Nat} {pa : Nat} {n : Nat} (hs : Keeps s0 s) :
    Keeps s0 (State.pciReadLine s key pa n).2.2 := by
  unfold State.pciReadLine
  repeat'
    first
    | intro _
    | with_reducible (
      first
      | assumption | apply State.cohRead_keeps | apply State.lvsRead_keeps | apply State.defaultTarget_keeps | fail_if_no_progress apply keeps_mk
      | refine keeps_of_eq (by assumption) ?_ | refine keeps_of_eq2 (by assumption) ?_ | refine keeps_of_eq3 (by assumption) ?_)
    | split | dsimp only

theorem State.pciWriteLine_keeps {s0 : State} {s : State} {key : Nat} {pa : Nat} {bs : List Byte} (hs : Keeps s0 s) :
    Keeps s0 (State.pciWriteLine s key pa bs).2 := by
  unfold State.pciWriteLine
  repeat'
    first
    | intro _
    | with_reducible (
      first
      | assumption | apply State.takeFreeN_keeps | apply State.cohFull_keeps | apply State.cohPartial_keeps | apply State.lvsWrite_keeps
      | apply State.defaultTarget_keeps | fail_if_no_progress apply keeps_mk | apply keeps_ite | apply keeps_ite1 | apply keeps_ite2
      | refine keeps_of_eq (by assumption) ?_ | refine keeps_of_eq2 (by assumption) ?_ | refine keeps_of_eq3 (by assumption) ?_)
    | split | dsimp only

theorem State.pciReadParts_keeps {s0 : State} {s : State} {key : Nat} {parts : List (Nat × Nat)} {res : Nat → PciTo} (hs : Keeps s0 s) :
    Keeps s0 (State.pciReadParts s key parts res).2.2.2 := by
  unfold State.pciReadParts
  repeat'
    first
    | intro _
    | with_reducible (
      first
      | assumption | apply State.pciReadLine_keeps | fail_if_no_progress apply keeps_mk | apply keeps_fold | apply keeps_fold1 | apply keeps_fold2
      | apply keeps_fold3 | apply keeps_ite | apply keeps_ite1 | apply keeps_ite2 | refine keeps_of_eq (by assumption) ?_
      | refine keeps_of_eq2 (by assumption) ?_ | refine keeps_of_eq3 (by assumption) ?_)
    | split | dsimp only

theorem State.pciWriteParts_keeps {s0 : State} {s : State} {key : Nat} {a : Nat} {bs : List Byte} {res : Nat → PciTo} (hs : Keeps s0 s) :
    Keeps s0 (State.pciWriteParts s key a bs res).2 := by
  unfold State.pciWriteParts
  repeat'
    first
    | intro _
    | with_reducible (
      first
      | assumption | apply State.pciWriteLine_keeps | fail_if_no_progress apply keeps_mk | apply keeps_fold | apply keeps_fold1 | apply keeps_fold2
      | apply keeps_fold3 | apply keeps_ite | apply keeps_ite1 | apply keeps_ite2 | refine keeps_of_eq (by assumption) ?_
      | refine keeps_of_eq2 (by assumption) ?_ | refine keeps_of_eq3 (by assumption) ?_)
    | split | dsimp only

theorem State.sendCompletion_keeps {s0 : State} {s : State} {st : PciStatus} {ep : Bool} {bs : List Byte} (hs : Keeps s0 s) :
    Keeps s0 (State.sendCompletion s st ep bs) := by
  unfold State.sendCompletion
  repeat'
    first
    | intro _
    | with_reducible (
      first
      | assumption | apply State.emit_keeps | fail_if_no_progress apply keeps_mk)
    | split | dsimp only

theorem State.posted_keeps {s0 : State} {s : State} {st : PciStatus} (hs : Keeps s0 s) :
    Keeps s0 (State.posted s st) := by
  unfold State.posted
  repeat'
    first
    | intro _
    | with_reducible (
      first
      | assumption | apply State.recordReg_keeps | apply State.setErr_keeps | fail_if_no_progress apply keeps_mk | apply keeps_ite)
    | split | dsimp only

theorem State.regCompletion_keeps {s0 : State} {s : State} {r : Found} {n : Nat} (hs : Keeps s0 s) :
    Keeps s0 (State.regCompletion s r n) := by
  unfold State.regCompletion
  repeat'
    first
    | intro _
    | with_reducible (
      first
      | assumption | apply State.sendCompletion_keeps | fail_if_no_progress apply keeps_mk | apply keeps_ite)
    | split | dsimp only

theorem State.pciPage_keeps {s0 : State} {s : State} {t : Nat} {w : PageWho} {off : Nat} {q : PciReq} (hs : Keeps s0 s) :
    Keeps s0 (State.pciPage s t w off q) := by
  unfold State.pciPage
  repeat'
    first
    | intro _
    | with_reducible (
      first
      | assumption | apply State.pageWrite_keeps | apply State.posted_keeps | apply State.pageRead_keeps | apply State.regCompletion_keeps
      | fail_if_no_progress apply keeps_mk | apply keeps_ite | apply keeps_ite1 | apply keeps_ite2 | refine keeps_of_eq (by assumption) ?_
      | refine keeps_of_eq2 (by assumption) ?_ | refine keeps_of_eq3 (by assumption) ?_)
    | split | dsimp only

theorem State.pciMem_keeps {s0 : State} {s : State} {key : Nat} {a : Nat} {q : PciReq} {res : Nat → PciTo} (hs : Keeps s0 s) :
    Keeps s0 (State.pciMem s key a q res) := by
  unfold State.pciMem
  repeat'
    first
    | intro _
    | with_reducible (
      first
      | assumption | apply State.pciWriteParts_keeps | apply State.posted_keeps | apply State.pciReadParts_keeps | apply State.sendCompletion_keeps
      | fail_if_no_progress apply keeps_mk | apply keeps_ite | apply keeps_ite1 | apply keeps_ite2 | refine keeps_of_eq (by assumption) ?_
      | refine keeps_of_eq2 (by assumption) ?_ | refine keeps_of_eq3 (by assumption) ?_)
    | split | dsimp only

theorem State.pciRefuse_keeps {s0 : State} {s : State} {q : PciReq} (hs : Keeps s0 s) :
    Keeps s0 (State.pciRefuse s q) := by
  unfold State.pciRefuse
  repeat'
    first
    | intro _
    | with_reducible (
      first
      | assumption | apply State.posted_keeps | apply State.sendCompletion_keeps | fail_if_no_progress apply keeps_mk | apply keeps_ite)
    | split | dsimp only

theorem execPcieInboundRequest_keeps {s0 : State} {q : PciReq} {s : State} (hs : Keeps s0 s) :
    OutKeeps s0 (execPcieInboundRequest q s) := by
  unfold execPcieInboundRequest
  repeat'
    first
    | intro _
    | with_reducible (
      first
      | assumption | apply State.pciRefuse_keeps | apply State.platWrite_keeps | apply State.posted_keeps | apply State.platRead_keeps
      | apply State.regCompletion_keeps | apply State.pciPage_keeps | apply State.pciMem_keeps | fail_if_no_progress apply keeps_mk | apply out_next
      | apply keeps_ite | apply keeps_ite1 | apply keeps_ite2 | refine keeps_of_eq (by assumption) ?_ | refine keeps_of_eq2 (by assumption) ?_
      | refine keeps_of_eq3 (by assumption) ?_)
    | split | dsimp only

theorem execPcieConfigRequest_keeps {s0 : State} {q : CfgReq} {s : State} (hs : Keeps s0 s) :
    OutKeeps s0 (execPcieConfigRequest q s) := by
  unfold execPcieConfigRequest
  repeat'
    first
    | intro _
    | with_reducible (
      first
      | assumption | apply State.sendCompletion_keeps | apply State.wr_keeps | fail_if_no_progress apply keeps_mk | apply out_next | apply keeps_ite)
    | split | dsimp only

theorem State.pciResetFn_keeps {s0 : State} {s : State} {f : Nat} (hs : Keeps s0 s) :
    Keeps s0 (State.pciResetFn s f) := by
  unfold State.pciResetFn
  repeat'
    first
    | intro _
    | with_reducible (
      first
      | assumption | apply State.wr_keeps | apply State.refreshHost_keeps | fail_if_no_progress apply keeps_mk | apply keeps_ite)
    | split | dsimp only

theorem State.pciResetAll_keeps {s0 : State} {s : State} (hs : Keeps s0 s) :
    Keeps s0 (State.pciResetAll s) := by
  unfold State.pciResetAll
  repeat'
    first
    | intro _
    | with_reducible (
      first
      | assumption | apply State.pciResetFn_keeps | fail_if_no_progress apply keeps_mk | apply keeps_each)
    | split | dsimp only

theorem State.pciDown_keeps {s0 : State} {s : State} (hs : Keeps s0 s) :
    Keeps s0 (State.pciDown s) := by
  unfold State.pciDown
  repeat'
    first
    | intro _
    | with_reducible (
      first
      | assumption | apply State.wr_keeps | apply State.recordReg_keeps | apply State.setCond_keeps | fail_if_no_progress apply keeps_mk
      | apply keeps_ite)
    | split | dsimp only

theorem execPcieReset_keeps {s0 : State} {k : PciReset} {s : State} (hs : Keeps s0 s) :
    OutKeeps s0 (execPcieReset k s) := by
  unfold execPcieReset
  repeat'
    first
    | intro _
    | with_reducible (
      first
      | assumption | apply State.recordReg_keeps | apply State.setErr_keeps | apply State.pciResetFn_keeps | apply State.pciResetAll_keeps
      | apply State.pciDown_keeps | fail_if_no_progress apply keeps_mk | apply keeps_each | apply out_next)
    | split | dsimp only

theorem execPcieLinkUp_keeps {s0 : State} {speed : Nat} {width : Nat} {flit : Bool} {s : State} (hs : Keeps s0 s) :
    OutKeeps s0 (execPcieLinkUp speed width flit s) := by
  unfold execPcieLinkUp
  repeat'
    first
    | intro _
    | with_reducible (
      first
      | assumption | apply State.setCond_keeps | apply State.wr_keeps | fail_if_no_progress apply keeps_mk | apply out_next | apply keeps_ite)
    | split | dsimp only

theorem execOutboundAccess_keeps {s0 : State} {r : Requester} {a : BitVec 48} {write : Bool} {data : List Byte} {host : Option Word} {s : State} (hs : Keeps s0 s) :
    OutKeeps s0 (execOutboundAccess r a write data host s) := by
  unfold execOutboundAccess
  repeat'
    first
    | intro _
    | with_reducible (
      first
      | assumption | apply State.reply_keeps | apply State.emit_keeps | apply State.takeFree_keeps | fail_if_no_progress apply keeps_mk
      | apply out_next | apply keeps_ite | apply keeps_ite1 | apply keeps_ite2 | refine keeps_of_eq (by assumption) ?_
      | refine keeps_of_eq2 (by assumption) ?_ | refine keeps_of_eq3 (by assumption) ?_)
    | split | dsimp only

theorem execMbxDoor_keeps {s0 : State} {r : Requester} {d : Word} {s : State} (hs : Keeps s0 s) :
    OutKeeps s0 (execMbxDoor r d s) := by
  unfold execMbxDoor
  repeat'
    first
    | intro _
    | with_reducible (
      first
      | assumption | apply State.plat_keeps | apply State.door_keeps | fail_if_no_progress apply keeps_mk | apply out_next)
    | split | dsimp only

theorem execMailboxReply_keeps {s0 : State} {rep : List (Fin 512 × Word)} {s : State} (hs : Keeps s0 s) :
    OutKeeps s0 (execMailboxReply rep s) := by
  unfold execMailboxReply
  repeat'
    first
    | intro _
    | with_reducible (
      first
      | assumption | apply State.setReg_keeps | apply State.wr_keeps | apply State.recordReg_keeps | apply State.assert_keeps
      | fail_if_no_progress apply keeps_mk | apply keeps_each | apply out_next | apply keeps_ite)
    | split | dsimp only

theorem execSvcLinkChange_keeps {s0 : State} {up : Bool} {s : State} (hs : Keeps s0 s) :
    OutKeeps s0 (execSvcLinkChange up s) := by
  unfold execSvcLinkChange
  repeat'
    first
    | intro _
    | with_reducible (
      first
      | assumption | apply State.setCond_keeps | apply State.record_keeps | fail_if_no_progress apply keeps_mk | apply out_next | apply keeps_ite)
    | split | dsimp only

/-! Rep -/

theorem regIter_keeps {s0 : State} {e : Nat} {gc : RegNo} {r : Res} (hr : ResKeeps s0 r) : ResKeeps s0 (regIter e gc r) := by
  cases r with
  | done s => exact res_done (State.setG_keeps (keeps_of_done rfl hr))
  | commit s => exact hr
  | settle s => exact hr
  | fault x s => exact hr
  | stall => exact hr
  | wait s => exact hr
  | kept s => exact hr


theorem repIter_keeps {s0 : State} {e : Nat} {gc : RegNo} {b : RepBody} {pc : Nat} {next : Nat} {s : State} (hs : Keeps s0 s) :
    ResKeeps s0 (repIter e gc b pc next s) := by
  unfold repIter
  repeat'
    first
    | intro _
    | with_reducible (
      first
      | assumption | apply regIter_keeps | apply aluRes_keeps | apply immRes_keeps | apply addcRes_keeps | apply subbRes_keeps | apply dadjRes_keeps
      | apply ldpRes_keeps | apply stpRes_keeps | apply fldpRes_keeps | apply fsdpRes_keeps | fail_if_no_progress apply keeps_mk | apply res_done
      | apply res_commit | apply res_settle | apply res_fault | apply res_wait | apply res_kept | apply res_stall | apply keeps_ite | apply res_ite
      | refine keeps_of_done (by assumption) ?_ | refine keeps_of_commit (by assumption) ?_ | refine keeps_of_settle (by assumption) ?_
      | refine keeps_of_fault (by assumption) ?_ | refine keeps_of_wait (by assumption) ?_ | refine keeps_of_kept (by assumption) ?_)
    | split | dsimp only

theorem repRun_keeps {s0 : State} {n : Nat} {e : Nat} {gc : RegNo} {b : RepBody} {pc : Nat} {s : State} (hs : Keeps s0 s) :
    Keeps s0 (repRun n e gc b pc s) := by
  induction n generalizing s with
  | zero =>
    unfold repRun
    repeat'
      first
      | intro _
      | with_reducible (
        first
        | assumption | apply State.countInstr_keeps | apply State.commitNow_keeps | apply State.commitPoint_keeps | apply State.setPc_keeps
        | apply repIter_keeps | apply State.takeException_keeps | fail_if_no_progress apply keeps_mk | apply res_done | apply res_commit
        | apply res_settle | apply res_fault | apply res_wait | apply res_kept | apply res_stall | refine keeps_of_done (by assumption) ?_
        | refine keeps_of_commit (by assumption) ?_ | refine keeps_of_settle (by assumption) ?_ | refine keeps_of_fault (by assumption) ?_
        | refine keeps_of_wait (by assumption) ?_ | refine keeps_of_kept (by assumption) ?_)
      | split | dsimp only
  | succ k ih =>
    unfold repRun
    repeat'
      first
      | intro _
      | with_reducible (
        first
        | assumption | apply State.countInstr_keeps | apply State.commitNow_keeps | apply State.commitPoint_keeps | apply State.setPc_keeps
        | apply repIter_keeps | apply State.takeException_keeps | fail_if_no_progress apply keeps_mk | apply res_done | apply res_commit
        | apply res_settle | apply res_fault | apply res_wait | apply res_kept | apply res_stall | refine keeps_of_done (by assumption) ?_
        | refine keeps_of_commit (by assumption) ?_ | refine keeps_of_settle (by assumption) ?_ | refine keeps_of_fault (by assumption) ?_
        | refine keeps_of_wait (by assumption) ?_ | refine keeps_of_kept (by assumption) ?_)
      | with_reducible apply ih | split | dsimp only

theorem State.repBusy_keeps {s0 : State} {s : State} {e : Nat} {n : Nat} {gc : RegNo} {pc : Nat} (hs : Keeps s0 s) :
    Keeps s0 (State.repBusy s e n gc pc) := by
  unfold State.repBusy
  repeat'
    first
    | intro _
    | with_reducible (
      first
      | assumption | apply State.noteBusy_keeps | apply State.clearBusy_keeps | fail_if_no_progress apply keeps_mk | apply keeps_ite)
    | split | dsimp only

theorem State.rep_keeps {s0 : State} {s : State} {e : Nat} {n : Nat} {gc : RegNo} {b : RepBody} {iters : Nat} (hs : Keeps s0 s) :
    Keeps s0 (State.rep s e n gc b iters) := by
  unfold State.rep
  repeat'
    first
    | intro _
    | with_reducible (
      first
      | assumption | apply State.setPc_keeps | apply State.takeException_keeps | apply State.countInstr_keeps | apply State.repBusy_keeps
      | apply repRun_keeps | fail_if_no_progress apply keeps_mk | apply keeps_ite)
    | split | dsimp only

theorem execRepI_keeps {s0 : State} {e : EngId} {gc : RegNo} {body : RepBody} {iters : Nat} {s : State} (hs : Keeps s0 s) :
    OutKeeps s0 (execRepI e gc body iters s) := by
  unfold execRepI
  repeat'
    first
    | intro _
    | with_reducible (
      first
      | assumption | apply State.rep_keeps | fail_if_no_progress apply keeps_mk | apply out_next)
    | split | dsimp only

theorem execRepN_keeps {s0 : State} {e : EngId} {gc : RegNo} {body : RepBody} {iters : Nat} {s : State} (hs : Keeps s0 s) :
    OutKeeps s0 (execRepN e gc body iters s) := by
  unfold execRepN
  repeat'
    first
    | intro _
    | with_reducible (
      first
      | assumption | apply State.rep_keeps | fail_if_no_progress apply keeps_mk | apply out_next)
    | split | dsimp only

/-! Sideband -/

theorem State.smb_keeps {s0 : State} {s : State} {v : Nat} (hs : Keeps s0 s) :
    Keeps s0 (State.smb s v) := by
  unfold State.smb
  repeat'
    first
    | intro _
    | with_reducible (
      first
      | assumption | apply State.reply_keeps | fail_if_no_progress apply keeps_mk | apply keeps_ite)
    | split | dsimp only

theorem execSmbusHottestTj_keeps {s0 : State} {tj : BitVec 16} {s : State} (hs : Keeps s0 s) :
    OutKeeps s0 (execSmbusHottestTj tj s) := by
  unfold execSmbusHottestTj
  repeat'
    first
    | intro _
    | with_reducible (
      first
      | assumption | apply State.smb_keeps | fail_if_no_progress apply keeps_mk | apply out_next)
    | split | dsimp only

theorem execSmbusPackagePower_keeps {s0 : State} {w : BitVec 16} {s : State} (hs : Keeps s0 s) :
    OutKeeps s0 (execSmbusPackagePower w s) := by
  unfold execSmbusPackagePower
  repeat'
    first
    | intro _
    | with_reducible (
      first
      | assumption | apply State.smb_keeps | fail_if_no_progress apply keeps_mk | apply out_next)
    | split | dsimp only

theorem execSmbusUpdBoot_keeps {s0 : State} {s : State} (hs : Keeps s0 s) :
    OutKeeps s0 (execSmbusUpdBoot s) := by
  unfold execSmbusUpdBoot
  repeat'
    first
    | intro _
    | with_reducible (
      first
      | assumption | apply State.smb_keeps | fail_if_no_progress apply keeps_mk | apply out_next)
    | split | dsimp only

theorem execSmbusGavState_keeps {s0 : State} {s : State} (hs : Keeps s0 s) :
    OutKeeps s0 (execSmbusGavState s) := by
  unfold execSmbusGavState
  repeat'
    first
    | intro _
    | with_reducible (
      first
      | assumption | apply State.smb_keeps | fail_if_no_progress apply keeps_mk | apply out_next)
    | split | dsimp only

theorem execSmbusUpdatePhase_keeps {s0 : State} {s : State} (hs : Keeps s0 s) :
    OutKeeps s0 (execSmbusUpdatePhase s) := by
  unfold execSmbusUpdatePhase
  repeat'
    first
    | intro _
    | with_reducible (
      first
      | assumption | apply State.smb_keeps | fail_if_no_progress apply keeps_mk | apply out_next)
    | split | dsimp only

theorem execSmbusCriticalCount_keeps {s0 : State} {s : State} (hs : Keeps s0 s) :
    OutKeeps s0 (execSmbusCriticalCount s) := by
  unfold execSmbusCriticalCount
  repeat'
    first
    | intro _
    | with_reducible (
      first
      | assumption | apply State.smb_keeps | fail_if_no_progress apply keeps_mk | apply out_next)
    | split | dsimp only

theorem execSmbusLowestLife_keeps {s0 : State} {s : State} (hs : Keeps s0 s) :
    OutKeeps s0 (execSmbusLowestLife s) := by
  unfold execSmbusLowestLife
  repeat'
    first
    | intro _
    | with_reducible (
      first
      | assumption | apply State.smb_keeps | fail_if_no_progress apply keeps_mk | apply keeps_fold | apply keeps_fold1 | apply keeps_fold2
      | apply keeps_fold3 | apply out_next | refine keeps_of_eq (by assumption) ?_ | refine keeps_of_eq2 (by assumption) ?_
      | refine keeps_of_eq3 (by assumption) ?_)
    | split | dsimp only

theorem State.setJtag_keeps {s0 : State} {s : State} {i : JInstr} (hs : Keeps s0 s) :
    Keeps s0 (State.setJtag s i) := by
  unfold State.setJtag
  repeat'
    first
    | intro _
    | with_reducible (
      first
      | assumption | fail_if_no_progress apply keeps_mk)
    | split | dsimp only

theorem State.pinInstr_keeps {s0 : State} {s : State} {i : JInstr} (hs : Keeps s0 s) :
    Keeps s0 (State.pinInstr s i) := by
  unfold State.pinInstr
  repeat'
    first
    | intro _
    | with_reducible (
      first
      | assumption | apply State.setJtag_keeps | fail_if_no_progress apply keeps_mk | apply keeps_ite)
    | split | dsimp only

theorem execBypass_keeps {s0 : State} {s : State} (hs : Keeps s0 s) :
    OutKeeps s0 (execBypass s) := by
  unfold execBypass
  repeat'
    first
    | intro _
    | with_reducible (
      first
      | assumption | apply State.setJtag_keeps | fail_if_no_progress apply keeps_mk | apply out_next)
    | split | dsimp only

theorem execIdcode_keeps {s0 : State} {s : State} (hs : Keeps s0 s) :
    OutKeeps s0 (execIdcode s) := by
  unfold execIdcode
  repeat'
    first
    | intro _
    | with_reducible (
      first
      | assumption | apply State.reply_keeps | apply State.setJtag_keeps | fail_if_no_progress apply keeps_mk | apply out_next)
    | split | dsimp only

theorem execSamplePreload_keeps {s0 : State} {bits : List Bool} {s : State} (hs : Keeps s0 s) :
    OutKeeps s0 (execSamplePreload bits s) := by
  unfold execSamplePreload
  repeat'
    first
    | intro _
    | with_reducible (
      first
      | assumption | apply State.setJtag_keeps | fail_if_no_progress apply keeps_mk | apply out_next)
    | split | dsimp only

theorem execExtest_keeps {s0 : State} {s : State} (hs : Keeps s0 s) :
    OutKeeps s0 (execExtest s) := by
  unfold execExtest
  repeat'
    first
    | intro _
    | with_reducible (
      first
      | assumption | apply State.pinInstr_keeps | fail_if_no_progress apply keeps_mk | apply out_next)
    | split | dsimp only

theorem execExtestPulse_keeps {s0 : State} {s : State} (hs : Keeps s0 s) :
    OutKeeps s0 (execExtestPulse s) := by
  unfold execExtestPulse
  repeat'
    first
    | intro _
    | with_reducible (
      first
      | assumption | apply State.pinInstr_keeps | fail_if_no_progress apply keeps_mk | apply out_next)
    | split | dsimp only

theorem execExtestTrain_keeps {s0 : State} {s : State} (hs : Keeps s0 s) :
    OutKeeps s0 (execExtestTrain s) := by
  unfold execExtestTrain
  repeat'
    first
    | intro _
    | with_reducible (
      first
      | assumption | apply State.pinInstr_keeps | fail_if_no_progress apply keeps_mk | apply out_next)
    | split | dsimp only

theorem execClamp_keeps {s0 : State} {s : State} (hs : Keeps s0 s) :
    OutKeeps s0 (execClamp s) := by
  unfold execClamp
  repeat'
    first
    | intro _
    | with_reducible (
      first
      | assumption | apply State.pinInstr_keeps | fail_if_no_progress apply keeps_mk | apply out_next)
    | split | dsimp only

theorem execHighz_keeps {s0 : State} {s : State} (hs : Keeps s0 s) :
    OutKeeps s0 (execHighz s) := by
  unfold execHighz
  repeat'
    first
    | intro _
    | with_reducible (
      first
      | assumption | apply State.pinInstr_keeps | fail_if_no_progress apply keeps_mk | apply out_next)
    | split | dsimp only

theorem execDebug_keeps {s0 : State} {e : EngId} {halt : Bool} {s : State} (hs : Keeps s0 s) :
    OutKeeps s0 (execDebug e halt s) := by
  unfold execDebug
  repeat'
    first
    | intro _
    | with_reducible (
      first
      | assumption | apply State.modEngine_keeps | apply State.setJtag_keeps | fail_if_no_progress apply keeps_mk | apply out_next | apply keeps_ite)
    | split | dsimp only

/-! Tick -/

theorem State.tick_keeps {s0 : State} {s : State} (hs : Keeps s0 s) :
    Keeps s0 (State.tick s) := by
  unfold State.tick
  repeat'
    first
    | intro _
    | with_reducible (
      first
      | assumption | apply State.submit_keeps | apply State.advance_keeps | apply State.breakLock_keeps | apply State.drainOut_keeps
      | apply State.sliceTick_keeps | apply State.refill_keeps | apply State.upset_keeps | apply State.foxTick_keeps
      | fail_if_no_progress apply keeps_mk | apply keeps_each | apply keeps_ite)
    | split | dsimp only

end Sys2Proof.Machine
end

