-- ==== Sys2Proof/Laws/Memory.lean ====
section
/-! SUPPORT. Laws of storage: bytes, tags and words after a write, and words as bytes. -/
namespace Sys2Proof.Machine
variable (m : Mem)

@[simp] theorem Mem.byte_setByte_same (a : Nat) (b : Byte) : (m.setByte a b).byte a = b := sget_sset_same _ _ _ _
theorem Mem.byte_setByte_ne (a x : Nat) (b : Byte) (h : x ≠ a) : (m.setByte a b).byte x = m.byte x := sget_sset_ne _ _ _ _ _ h
@[simp] theorem Mem.tag_setByte (a k : Nat) (b : Byte) : (m.setByte a b).tag k = m.tag k := rfl
@[simp] theorem Mem.byte_setTag (k a : Nat) (t : Tag) : (m.setTag k t).byte a = m.byte a := rfl
@[simp] theorem Mem.tag_setTag_same (k : Nat) (t : Tag) : (m.setTag k t).tag k = t := sget_sset_same _ _ _ _
theorem Mem.tag_setTag_ne (k j : Nat) (t : Tag) (h : j ≠ k) : (m.setTag k t).tag j = m.tag j := sget_sset_ne _ _ _ _ _ h

@[simp] theorem Mem.tag_setBytes (a k : Nat) (bs : List Byte) : (m.setBytes a bs).tag k = m.tag k := by
  induction bs generalizing m a with
  | nil => rfl
  | cons b r ih => simp [Mem.setBytes, ih]

/-- A byte after consecutive bytes are written. -/
theorem Mem.byte_setBytes (a x : Nat) (bs : List Byte) :
    (m.setBytes a bs).byte x = if a ≤ x ∧ x < a + bs.length then bs.getD (x - a) 0 else m.byte x := by
  induction bs generalizing m a with
  | nil => simp [Mem.setBytes]
  | cons b r ih =>
    simp only [Mem.setBytes, ih, List.length_cons]
    by_cases h : x = a
    · subst h
      rw [if_neg (by omega), if_pos (by omega)]; simp
    · rw [Mem.byte_setByte_ne _ _ _ _ h]
      by_cases h2 : a + 1 ≤ x ∧ x < a + 1 + r.length
      · rw [if_pos h2, if_pos (by omega), show x - a = (x - (a + 1)) + 1 by omega]; simp
      · rw [if_neg h2, if_neg (by omega)]

@[simp] theorem bytesOf_length (w : Word) : (bytesOf w).length = 8 := by simp [bytesOf]

/-- A word is the word of its bytes. -/
@[simp] theorem wordOf_bytesOf (w : Word) : wordOf (bytesOf w) = w := by
  apply BitVec.eq_of_toNat_eq
  have h := w.isLt
  simp [wordOf, bytesOf, ofLeBytes, List.range_succ, BitVec.extractLsb'_toNat, Nat.shiftRight_eq_div_pow]
  omega

/-- The word that a write stored. -/
@[simp] theorem Mem.word_setWord_same (a : Nat) (x : TWord) : (m.setWord a x).word a = x := by
  have h : (m.setWord a x).bytesAt a 8 = bytesOf x.val := by
    apply List.ext_getElem
    · simp [Mem.bytesAt]
    · intro i h1 h2
      have h3 : i < 8 := by simpa using h2
      simp only [Mem.bytesAt, List.getElem_map, List.getElem_range, Mem.setWord, Mem.byte_setTag, Mem.byte_setBytes, bytesOf_length]
      rw [if_pos (by omega)]
      simp [h3]
  unfold Mem.word
  rw [h, wordOf_bytesOf]
  simp [Mem.setWord]

/-- A write of an aligned word leaves every other aligned word alone. -/
theorem Mem.word_setWord_ne (a b : Nat) (x : TWord) (ha : a % 8 = 0) (hb : b % 8 = 0) (h : b ≠ a) : (m.setWord a x).word b = m.word b := by
  have hk : b / 8 ≠ a / 8 := by omega
  have e : (m.setWord a x).bytesAt b 8 = m.bytesAt b 8 := by
    apply List.map_congr_left
    intro i hi
    have := List.mem_range.mp hi
    simp only [Mem.setWord, Mem.byte_setTag, Mem.byte_setBytes, bytesOf_length]
    rw [if_neg (by omega)]
  unfold Mem.word
  rw [e]
  simp [Mem.setWord, Mem.tag_setTag_ne _ _ _ _ hk]

/-- A byte outside an aligned word that is written. -/
theorem Mem.byte_setWord_ne (a b : Nat) (x : TWord) (h : b < a ∨ a + 8 ≤ b) : (m.setWord a x).byte b = m.byte b := by
  simp only [Mem.setWord, Mem.byte_setTag, Mem.byte_setBytes, bytesOf_length]
  rw [if_neg (by omega)]

/-- An aligned word after consecutive words are written. -/
theorem Mem.word_setWords (a b : Nat) (xs : List TWord) (ha : a % 8 = 0) (hb : b % 8 = 0) :
    (m.setWords a xs).word b = if a ≤ b ∧ b < a + 8 * xs.length then xs.getD ((b - a) / 8) twPoison else m.word b := by
  induction xs generalizing m a with
  | nil => simp [Mem.setWords]
  | cons x r ih =>
    simp only [Mem.setWords, ih (m.setWord a x) (a + 8) (by omega), List.length_cons]
    by_cases h : b = a
    · subst h
      rw [if_neg (by omega), if_pos (by omega)]; simp
    · rw [Mem.word_setWord_ne _ _ _ _ ha hb h]
      by_cases h2 : a + 8 ≤ b ∧ b < a + 8 + 8 * r.length
      · rw [if_pos h2, if_pos (by omega), show (b - a) / 8 = (b - (a + 8)) / 8 + 1 by omega]; simp
      · rw [if_neg h2, if_neg (by omega)]

/-! Codes and lines of storage. -/

@[simp] theorem Mem.byte_setFlaw (k a : Nat) (x : Ecc) : (m.setFlaw k x).byte a = m.byte a := rfl
@[simp] theorem Mem.tag_setFlaw (k j : Nat) (x : Ecc) : (m.setFlaw k x).tag j = m.tag j := rfl
@[simp] theorem Mem.word_setFlaw (k a : Nat) (x : Ecc) : (m.setFlaw k x).word a = m.word a := rfl
@[simp] theorem Mem.side_setFlaw (k c : Nat) (x : Ecc) : (m.setFlaw k x).side c = m.side c := rfl
@[simp] theorem Mem.flaw_setFlaw_same (k : Nat) (x : Ecc) : (m.setFlaw k x).flaw k = x := sget_sset_same _ _ _ _
theorem Mem.flaw_setFlaw_ne (k j : Nat) (x : Ecc) (h : j ≠ k) : (m.setFlaw k x).flaw j = m.flaw j := sget_sset_ne _ _ _ _ _ h

@[simp] theorem Mem.flaws_setBytes (a : Nat) (bs : List Byte) : (m.setBytes a bs).flaws = m.flaws := by
  induction bs generalizing m a with
  | nil => rfl
  | cons b r ih => exact ih _ _

@[simp] theorem Mem.lines_setBytes (a : Nat) (bs : List Byte) : (m.setBytes a bs).lines = m.lines := by
  induction bs generalizing m a with
  | nil => rfl
  | cons b r ih => exact ih _ _

@[simp] theorem Mem.flaws_setWords (a : Nat) (xs : List TWord) : (m.setWords a xs).flaws = m.flaws := by
  induction xs generalizing m a with
  | nil => rfl
  | cons x r ih => rw [Mem.setWords, ih]; exact m.flaws_setBytes a _

@[simp] theorem Mem.lines_setWords (a : Nat) (xs : List TWord) : (m.setWords a xs).lines = m.lines := by
  induction xs generalizing m a with
  | nil => rfl
  | cons x r ih => rw [Mem.setWords, ih]; exact m.lines_setBytes a _

/-- A word of an LVS after a write with new check bits. -/
@[simp] theorem Mem.word_putWord_same (a : Nat) (x : TWord) : (m.putWord a x).word a = x := by simp [Mem.putWord]

theorem Mem.word_putWord_ne (a b : Nat) (x : TWord) (ha : a % 8 = 0) (hb : b % 8 = 0) (h : b ≠ a) : (m.putWord a x).word b = m.word b := by
  simp [Mem.putWord, m.word_setWord_ne a b x ha hb h]

/-- The sideband of a storage line after a line is written. -/
theorem Mem.side_putCell (c d : Nat) (ws : List TWord) (x : LineMeta) : (m.putCell c ws x).side d = if d = c then x else m.side d := by
  simp only [Mem.side, Mem.putCell]
  rw [sget_sset]
  simp [Mem.setFlaw]

/-- The code of a line that is written is good. -/
theorem Mem.flaw_putCell (c k : Nat) (ws : List TWord) (x : LineMeta) : (m.putCell c ws x).flaw k = if k = c then .clean else m.flaw k := by
  simp only [Mem.flaw, Mem.putCell, Mem.setFlaw, Mem.flaws_setWords]
  rw [sget_sset]

/-- The words of a storage line after a line of eight words is written. -/
theorem Mem.cellWords_putCell (c d : Nat) (ws : List TWord) (x : LineMeta) (h : ws.length = 8) :
    (m.putCell c ws x).cellWords d = if d = c then ws else m.cellWords d := by
  have e (b : Nat) (hb : b % 8 = 0) : (m.putCell c ws x).word b = if c * 64 ≤ b ∧ b < c * 64 + 8 * ws.length then ws.getD ((b - c * 64) / 8) twPoison else m.word b :=
    m.word_setWords (c * 64) b ws (by omega) hb
  apply List.ext_getElem
  · split <;> simp [Mem.cellWords, h]
  intro i h1 h2
  have hi : i < 8 := by simpa [Mem.cellWords] using h1
  simp only [Mem.cellWords, List.getElem_map, List.getElem_range]
  rw [e _ (by omega)]
  by_cases hd : d = c
  · subst hd
    rw [if_pos (by omega), show (d * 64 + 8 * i - d * 64) / 8 = i by omega]
    simp [h, hi]
  · rw [if_neg (by omega)]
    simp [hd]

/-- A byte outside a storage line that is written. -/
theorem Mem.byte_setWords_ne (a b : Nat) (xs : List TWord) (h : b < a ∨ a + 8 * xs.length ≤ b) : (m.setWords a xs).byte b = m.byte b := by
  induction xs generalizing m a with
  | nil => rfl
  | cons x r ih =>
    simp only [List.length_cons] at h
    rw [Mem.setWords, ih _ _ (by omega), Mem.byte_setWord_ne _ _ _ _ (by omega)]

theorem Mem.tag_setWord_ne (a k : Nat) (x : TWord) (h : k ≠ a / 8) : (m.setWord a x).tag k = m.tag k := by
  rw [Mem.setWord, Mem.tag_setTag_ne _ _ _ _ h, Mem.tag_setBytes]

theorem Mem.tag_setWords_ne (a k : Nat) (xs : List TWord) (h : k < a / 8 ∨ a / 8 + xs.length ≤ k) : (m.setWords a xs).tag k = m.tag k := by
  induction xs generalizing m a with
  | nil => rfl
  | cons x r ih =>
    simp only [List.length_cons] at h
    rw [Mem.setWords, ih _ _ (by omega), Mem.tag_setWord_ne _ _ _ _ (by omega)]

end Sys2Proof.Machine
end

