-- ==== Sys2Proof/Laws/State.lean ====
section
/-! SUPPORT. What each update of State leaves alone, field by field. -/
namespace Sys2Proof.Machine
variable (s : State)

/-! setReg -/

@[simp] theorem State.setReg_pending (off : Nat) (w : Word) : (s.setReg off w).pending = s.pending := rfl
@[simp] theorem State.setReg_cfg (off : Nat) (w : Word) : (s.setReg off w).cfg = s.cfg := rfl
@[simp] theorem State.setReg_gav (off : Nat) (w : Word) : (s.setReg off w).gav = s.gav := rfl
@[simp] theorem State.setReg_mem (off : Nat) (w : Word) : (s.setReg off w).mem = s.mem := rfl
@[simp] theorem State.setReg_eng (off : Nat) (w : Word) : (s.setReg off w).eng = s.eng := rfl
@[simp] theorem State.setReg_ic (off : Nat) (w : Word) : (s.setReg off w).ic = s.ic := rfl
@[simp] theorem State.setReg_mgd (off : Nat) (w : Word) : (s.setReg off w).mgd = s.mgd := rfl
@[simp] theorem State.setReg_pins (off : Nat) (w : Word) : (s.setReg off w).pins = s.pins := rfl
@[simp] theorem State.setReg_upd (off : Nat) (w : Word) : (s.setReg off w).upd = s.upd := rfl
@[simp] theorem State.setReg_qm (off : Nat) (w : Word) : (s.setReg off w).qm = s.qm := rfl
@[simp] theorem State.setReg_ports (off : Nat) (w : Word) : (s.setReg off w).ports = s.ports := rfl
@[simp] theorem State.setReg_bsl (off : Nat) (w : Word) : (s.setReg off w).bsl = s.bsl := rfl
@[simp] theorem State.setReg_ke (off : Nat) (w : Word) : (s.setReg off w).ke = s.ke := rfl
@[simp] theorem State.setReg_boot (off : Nat) (w : Word) : (s.setReg off w).boot = s.boot := rfl
@[simp] theorem State.setReg_mrg (off : Nat) (w : Word) : (s.setReg off w).mrg = s.mrg := rfl
@[simp] theorem State.setReg_host (off : Nat) (w : Word) : (s.setReg off w).host = s.host := rfl
@[simp] theorem State.setReg_free (off : Nat) (w : Word) : (s.setReg off w).free = s.free := rfl
@[simp] theorem State.setReg_answer (off : Nat) (w : Word) : (s.setReg off w).answer = s.answer := rfl
@[simp] theorem State.setReg_outbox (off : Nat) (w : Word) : (s.setReg off w).outbox = s.outbox := rfl

/-! wr -/

@[simp] theorem State.wr_pending (off : Nat) (f : Fld) (v : Nat) : (s.wr off f v).pending = s.pending := rfl
@[simp] theorem State.wr_cfg (off : Nat) (f : Fld) (v : Nat) : (s.wr off f v).cfg = s.cfg := rfl
@[simp] theorem State.wr_gav (off : Nat) (f : Fld) (v : Nat) : (s.wr off f v).gav = s.gav := rfl
@[simp] theorem State.wr_mem (off : Nat) (f : Fld) (v : Nat) : (s.wr off f v).mem = s.mem := rfl
@[simp] theorem State.wr_eng (off : Nat) (f : Fld) (v : Nat) : (s.wr off f v).eng = s.eng := rfl
@[simp] theorem State.wr_ic (off : Nat) (f : Fld) (v : Nat) : (s.wr off f v).ic = s.ic := rfl
@[simp] theorem State.wr_mgd (off : Nat) (f : Fld) (v : Nat) : (s.wr off f v).mgd = s.mgd := rfl
@[simp] theorem State.wr_pins (off : Nat) (f : Fld) (v : Nat) : (s.wr off f v).pins = s.pins := rfl
@[simp] theorem State.wr_upd (off : Nat) (f : Fld) (v : Nat) : (s.wr off f v).upd = s.upd := rfl
@[simp] theorem State.wr_qm (off : Nat) (f : Fld) (v : Nat) : (s.wr off f v).qm = s.qm := rfl
@[simp] theorem State.wr_ports (off : Nat) (f : Fld) (v : Nat) : (s.wr off f v).ports = s.ports := rfl
@[simp] theorem State.wr_bsl (off : Nat) (f : Fld) (v : Nat) : (s.wr off f v).bsl = s.bsl := rfl
@[simp] theorem State.wr_ke (off : Nat) (f : Fld) (v : Nat) : (s.wr off f v).ke = s.ke := rfl
@[simp] theorem State.wr_boot (off : Nat) (f : Fld) (v : Nat) : (s.wr off f v).boot = s.boot := rfl
@[simp] theorem State.wr_mrg (off : Nat) (f : Fld) (v : Nat) : (s.wr off f v).mrg = s.mrg := rfl
@[simp] theorem State.wr_host (off : Nat) (f : Fld) (v : Nat) : (s.wr off f v).host = s.host := rfl
@[simp] theorem State.wr_free (off : Nat) (f : Fld) (v : Nat) : (s.wr off f v).free = s.free := rfl
@[simp] theorem State.wr_answer (off : Nat) (f : Fld) (v : Nat) : (s.wr off f v).answer = s.answer := rfl
@[simp] theorem State.wr_outbox (off : Nat) (f : Fld) (v : Nat) : (s.wr off f v).outbox = s.outbox := rfl

/-! count -/

@[simp] theorem State.count_pending (off : Nat) (f : Fld) (n : Nat) : (s.count off f n).pending = s.pending := rfl
@[simp] theorem State.count_cfg (off : Nat) (f : Fld) (n : Nat) : (s.count off f n).cfg = s.cfg := rfl
@[simp] theorem State.count_gav (off : Nat) (f : Fld) (n : Nat) : (s.count off f n).gav = s.gav := rfl
@[simp] theorem State.count_mem (off : Nat) (f : Fld) (n : Nat) : (s.count off f n).mem = s.mem := rfl
@[simp] theorem State.count_eng (off : Nat) (f : Fld) (n : Nat) : (s.count off f n).eng = s.eng := rfl
@[simp] theorem State.count_ic (off : Nat) (f : Fld) (n : Nat) : (s.count off f n).ic = s.ic := rfl
@[simp] theorem State.count_mgd (off : Nat) (f : Fld) (n : Nat) : (s.count off f n).mgd = s.mgd := rfl
@[simp] theorem State.count_pins (off : Nat) (f : Fld) (n : Nat) : (s.count off f n).pins = s.pins := rfl
@[simp] theorem State.count_upd (off : Nat) (f : Fld) (n : Nat) : (s.count off f n).upd = s.upd := rfl
@[simp] theorem State.count_qm (off : Nat) (f : Fld) (n : Nat) : (s.count off f n).qm = s.qm := rfl
@[simp] theorem State.count_ports (off : Nat) (f : Fld) (n : Nat) : (s.count off f n).ports = s.ports := rfl
@[simp] theorem State.count_bsl (off : Nat) (f : Fld) (n : Nat) : (s.count off f n).bsl = s.bsl := rfl
@[simp] theorem State.count_ke (off : Nat) (f : Fld) (n : Nat) : (s.count off f n).ke = s.ke := rfl
@[simp] theorem State.count_boot (off : Nat) (f : Fld) (n : Nat) : (s.count off f n).boot = s.boot := rfl
@[simp] theorem State.count_mrg (off : Nat) (f : Fld) (n : Nat) : (s.count off f n).mrg = s.mrg := rfl
@[simp] theorem State.count_host (off : Nat) (f : Fld) (n : Nat) : (s.count off f n).host = s.host := rfl
@[simp] theorem State.count_free (off : Nat) (f : Fld) (n : Nat) : (s.count off f n).free = s.free := rfl
@[simp] theorem State.count_answer (off : Nat) (f : Fld) (n : Nat) : (s.count off f n).answer = s.answer := rfl
@[simp] theorem State.count_outbox (off : Nat) (f : Fld) (n : Nat) : (s.count off f n).outbox = s.outbox := rfl

/-! setEngine -/

@[simp] theorem State.setEngine_pending (e : Nat) (x : Engine) : (s.setEngine e x).pending = s.pending := rfl
@[simp] theorem State.setEngine_regs (e : Nat) (x : Engine) : (s.setEngine e x).regs = s.regs := rfl
@[simp] theorem State.setEngine_cfg (e : Nat) (x : Engine) : (s.setEngine e x).cfg = s.cfg := rfl
@[simp] theorem State.setEngine_gav (e : Nat) (x : Engine) : (s.setEngine e x).gav = s.gav := rfl
@[simp] theorem State.setEngine_mem (e : Nat) (x : Engine) : (s.setEngine e x).mem = s.mem := rfl
@[simp] theorem State.setEngine_ic (e : Nat) (x : Engine) : (s.setEngine e x).ic = s.ic := rfl
@[simp] theorem State.setEngine_mgd (e : Nat) (x : Engine) : (s.setEngine e x).mgd = s.mgd := rfl
@[simp] theorem State.setEngine_pins (e : Nat) (x : Engine) : (s.setEngine e x).pins = s.pins := rfl
@[simp] theorem State.setEngine_upd (e : Nat) (x : Engine) : (s.setEngine e x).upd = s.upd := rfl
@[simp] theorem State.setEngine_qm (e : Nat) (x : Engine) : (s.setEngine e x).qm = s.qm := rfl
@[simp] theorem State.setEngine_ports (e : Nat) (x : Engine) : (s.setEngine e x).ports = s.ports := rfl
@[simp] theorem State.setEngine_bsl (e : Nat) (x : Engine) : (s.setEngine e x).bsl = s.bsl := rfl
@[simp] theorem State.setEngine_ke (e : Nat) (x : Engine) : (s.setEngine e x).ke = s.ke := rfl
@[simp] theorem State.setEngine_boot (e : Nat) (x : Engine) : (s.setEngine e x).boot = s.boot := rfl
@[simp] theorem State.setEngine_mrg (e : Nat) (x : Engine) : (s.setEngine e x).mrg = s.mrg := rfl
@[simp] theorem State.setEngine_host (e : Nat) (x : Engine) : (s.setEngine e x).host = s.host := rfl
@[simp] theorem State.setEngine_free (e : Nat) (x : Engine) : (s.setEngine e x).free = s.free := rfl
@[simp] theorem State.setEngine_answer (e : Nat) (x : Engine) : (s.setEngine e x).answer = s.answer := rfl
@[simp] theorem State.setEngine_outbox (e : Nat) (x : Engine) : (s.setEngine e x).outbox = s.outbox := rfl

/-! modEngine -/

@[simp] theorem State.modEngine_pending (e : Nat) (f : Engine → Engine) : (s.modEngine e f).pending = s.pending := rfl
@[simp] theorem State.modEngine_regs (e : Nat) (f : Engine → Engine) : (s.modEngine e f).regs = s.regs := rfl
@[simp] theorem State.modEngine_cfg (e : Nat) (f : Engine → Engine) : (s.modEngine e f).cfg = s.cfg := rfl
@[simp] theorem State.modEngine_gav (e : Nat) (f : Engine → Engine) : (s.modEngine e f).gav = s.gav := rfl
@[simp] theorem State.modEngine_mem (e : Nat) (f : Engine → Engine) : (s.modEngine e f).mem = s.mem := rfl
@[simp] theorem State.modEngine_ic (e : Nat) (f : Engine → Engine) : (s.modEngine e f).ic = s.ic := rfl
@[simp] theorem State.modEngine_mgd (e : Nat) (f : Engine → Engine) : (s.modEngine e f).mgd = s.mgd := rfl
@[simp] theorem State.modEngine_pins (e : Nat) (f : Engine → Engine) : (s.modEngine e f).pins = s.pins := rfl
@[simp] theorem State.modEngine_upd (e : Nat) (f : Engine → Engine) : (s.modEngine e f).upd = s.upd := rfl
@[simp] theorem State.modEngine_qm (e : Nat) (f : Engine → Engine) : (s.modEngine e f).qm = s.qm := rfl
@[simp] theorem State.modEngine_ports (e : Nat) (f : Engine → Engine) : (s.modEngine e f).ports = s.ports := rfl
@[simp] theorem State.modEngine_bsl (e : Nat) (f : Engine → Engine) : (s.modEngine e f).bsl = s.bsl := rfl
@[simp] theorem State.modEngine_ke (e : Nat) (f : Engine → Engine) : (s.modEngine e f).ke = s.ke := rfl
@[simp] theorem State.modEngine_boot (e : Nat) (f : Engine → Engine) : (s.modEngine e f).boot = s.boot := rfl
@[simp] theorem State.modEngine_mrg (e : Nat) (f : Engine → Engine) : (s.modEngine e f).mrg = s.mrg := rfl
@[simp] theorem State.modEngine_host (e : Nat) (f : Engine → Engine) : (s.modEngine e f).host = s.host := rfl
@[simp] theorem State.modEngine_free (e : Nat) (f : Engine → Engine) : (s.modEngine e f).free = s.free := rfl
@[simp] theorem State.modEngine_answer (e : Nat) (f : Engine → Engine) : (s.modEngine e f).answer = s.answer := rfl
@[simp] theorem State.modEngine_outbox (e : Nat) (f : Engine → Engine) : (s.modEngine e f).outbox = s.outbox := rfl

/-! modCore -/

@[simp] theorem State.modCore_pending (e : Nat) (f : Core → Core) : (s.modCore e f).pending = s.pending := rfl
@[simp] theorem State.modCore_regs (e : Nat) (f : Core → Core) : (s.modCore e f).regs = s.regs := rfl
@[simp] theorem State.modCore_cfg (e : Nat) (f : Core → Core) : (s.modCore e f).cfg = s.cfg := rfl
@[simp] theorem State.modCore_gav (e : Nat) (f : Core → Core) : (s.modCore e f).gav = s.gav := rfl
@[simp] theorem State.modCore_mem (e : Nat) (f : Core → Core) : (s.modCore e f).mem = s.mem := rfl
@[simp] theorem State.modCore_ic (e : Nat) (f : Core → Core) : (s.modCore e f).ic = s.ic := rfl
@[simp] theorem State.modCore_mgd (e : Nat) (f : Core → Core) : (s.modCore e f).mgd = s.mgd := rfl
@[simp] theorem State.modCore_pins (e : Nat) (f : Core → Core) : (s.modCore e f).pins = s.pins := rfl
@[simp] theorem State.modCore_upd (e : Nat) (f : Core → Core) : (s.modCore e f).upd = s.upd := rfl
@[simp] theorem State.modCore_qm (e : Nat) (f : Core → Core) : (s.modCore e f).qm = s.qm := rfl
@[simp] theorem State.modCore_ports (e : Nat) (f : Core → Core) : (s.modCore e f).ports = s.ports := rfl
@[simp] theorem State.modCore_bsl (e : Nat) (f : Core → Core) : (s.modCore e f).bsl = s.bsl := rfl
@[simp] theorem State.modCore_ke (e : Nat) (f : Core → Core) : (s.modCore e f).ke = s.ke := rfl
@[simp] theorem State.modCore_boot (e : Nat) (f : Core → Core) : (s.modCore e f).boot = s.boot := rfl
@[simp] theorem State.modCore_mrg (e : Nat) (f : Core → Core) : (s.modCore e f).mrg = s.mrg := rfl
@[simp] theorem State.modCore_host (e : Nat) (f : Core → Core) : (s.modCore e f).host = s.host := rfl
@[simp] theorem State.modCore_free (e : Nat) (f : Core → Core) : (s.modCore e f).free = s.free := rfl
@[simp] theorem State.modCore_answer (e : Nat) (f : Core → Core) : (s.modCore e f).answer = s.answer := rfl
@[simp] theorem State.modCore_outbox (e : Nat) (f : Core → Core) : (s.modCore e f).outbox = s.outbox := rfl

/-! modBank -/

@[simp] theorem State.modBank_pending (e b : Nat) (f : Bank → Bank) : (s.modBank e b f).pending = s.pending := rfl
@[simp] theorem State.modBank_regs (e b : Nat) (f : Bank → Bank) : (s.modBank e b f).regs = s.regs := rfl
@[simp] theorem State.modBank_cfg (e b : Nat) (f : Bank → Bank) : (s.modBank e b f).cfg = s.cfg := rfl
@[simp] theorem State.modBank_gav (e b : Nat) (f : Bank → Bank) : (s.modBank e b f).gav = s.gav := rfl
@[simp] theorem State.modBank_mem (e b : Nat) (f : Bank → Bank) : (s.modBank e b f).mem = s.mem := rfl
@[simp] theorem State.modBank_ic (e b : Nat) (f : Bank → Bank) : (s.modBank e b f).ic = s.ic := rfl
@[simp] theorem State.modBank_mgd (e b : Nat) (f : Bank → Bank) : (s.modBank e b f).mgd = s.mgd := rfl
@[simp] theorem State.modBank_pins (e b : Nat) (f : Bank → Bank) : (s.modBank e b f).pins = s.pins := rfl
@[simp] theorem State.modBank_upd (e b : Nat) (f : Bank → Bank) : (s.modBank e b f).upd = s.upd := rfl
@[simp] theorem State.modBank_qm (e b : Nat) (f : Bank → Bank) : (s.modBank e b f).qm = s.qm := rfl
@[simp] theorem State.modBank_ports (e b : Nat) (f : Bank → Bank) : (s.modBank e b f).ports = s.ports := rfl
@[simp] theorem State.modBank_bsl (e b : Nat) (f : Bank → Bank) : (s.modBank e b f).bsl = s.bsl := rfl
@[simp] theorem State.modBank_ke (e b : Nat) (f : Bank → Bank) : (s.modBank e b f).ke = s.ke := rfl
@[simp] theorem State.modBank_boot (e b : Nat) (f : Bank → Bank) : (s.modBank e b f).boot = s.boot := rfl
@[simp] theorem State.modBank_mrg (e b : Nat) (f : Bank → Bank) : (s.modBank e b f).mrg = s.mrg := rfl
@[simp] theorem State.modBank_host (e b : Nat) (f : Bank → Bank) : (s.modBank e b f).host = s.host := rfl
@[simp] theorem State.modBank_free (e b : Nat) (f : Bank → Bank) : (s.modBank e b f).free = s.free := rfl
@[simp] theorem State.modBank_answer (e b : Nat) (f : Bank → Bank) : (s.modBank e b f).answer = s.answer := rfl
@[simp] theorem State.modBank_outbox (e b : Nat) (f : Bank → Bank) : (s.modBank e b f).outbox = s.outbox := rfl

/-! modRun -/

@[simp] theorem State.modRun_pending (e : Nat) (f : Bank → Bank) : (s.modRun e f).pending = s.pending := rfl
@[simp] theorem State.modRun_regs (e : Nat) (f : Bank → Bank) : (s.modRun e f).regs = s.regs := rfl
@[simp] theorem State.modRun_cfg (e : Nat) (f : Bank → Bank) : (s.modRun e f).cfg = s.cfg := rfl
@[simp] theorem State.modRun_gav (e : Nat) (f : Bank → Bank) : (s.modRun e f).gav = s.gav := rfl
@[simp] theorem State.modRun_mem (e : Nat) (f : Bank → Bank) : (s.modRun e f).mem = s.mem := rfl
@[simp] theorem State.modRun_ic (e : Nat) (f : Bank → Bank) : (s.modRun e f).ic = s.ic := rfl
@[simp] theorem State.modRun_mgd (e : Nat) (f : Bank → Bank) : (s.modRun e f).mgd = s.mgd := rfl
@[simp] theorem State.modRun_pins (e : Nat) (f : Bank → Bank) : (s.modRun e f).pins = s.pins := rfl
@[simp] theorem State.modRun_upd (e : Nat) (f : Bank → Bank) : (s.modRun e f).upd = s.upd := rfl
@[simp] theorem State.modRun_qm (e : Nat) (f : Bank → Bank) : (s.modRun e f).qm = s.qm := rfl
@[simp] theorem State.modRun_ports (e : Nat) (f : Bank → Bank) : (s.modRun e f).ports = s.ports := rfl
@[simp] theorem State.modRun_bsl (e : Nat) (f : Bank → Bank) : (s.modRun e f).bsl = s.bsl := rfl
@[simp] theorem State.modRun_ke (e : Nat) (f : Bank → Bank) : (s.modRun e f).ke = s.ke := rfl
@[simp] theorem State.modRun_boot (e : Nat) (f : Bank → Bank) : (s.modRun e f).boot = s.boot := rfl
@[simp] theorem State.modRun_mrg (e : Nat) (f : Bank → Bank) : (s.modRun e f).mrg = s.mrg := rfl
@[simp] theorem State.modRun_host (e : Nat) (f : Bank → Bank) : (s.modRun e f).host = s.host := rfl
@[simp] theorem State.modRun_free (e : Nat) (f : Bank → Bank) : (s.modRun e f).free = s.free := rfl
@[simp] theorem State.modRun_answer (e : Nat) (f : Bank → Bank) : (s.modRun e f).answer = s.answer := rfl
@[simp] theorem State.modRun_outbox (e : Nat) (f : Bank → Bank) : (s.modRun e f).outbox = s.outbox := rfl

/-! setG -/

@[simp] theorem State.setG_pending (e : Nat) (r : RegNo) (v : TWord) : (s.setG e r v).pending = s.pending := rfl
@[simp] theorem State.setG_regs (e : Nat) (r : RegNo) (v : TWord) : (s.setG e r v).regs = s.regs := rfl
@[simp] theorem State.setG_cfg (e : Nat) (r : RegNo) (v : TWord) : (s.setG e r v).cfg = s.cfg := rfl
@[simp] theorem State.setG_gav (e : Nat) (r : RegNo) (v : TWord) : (s.setG e r v).gav = s.gav := rfl
@[simp] theorem State.setG_mem (e : Nat) (r : RegNo) (v : TWord) : (s.setG e r v).mem = s.mem := rfl
@[simp] theorem State.setG_ic (e : Nat) (r : RegNo) (v : TWord) : (s.setG e r v).ic = s.ic := rfl
@[simp] theorem State.setG_mgd (e : Nat) (r : RegNo) (v : TWord) : (s.setG e r v).mgd = s.mgd := rfl
@[simp] theorem State.setG_pins (e : Nat) (r : RegNo) (v : TWord) : (s.setG e r v).pins = s.pins := rfl
@[simp] theorem State.setG_upd (e : Nat) (r : RegNo) (v : TWord) : (s.setG e r v).upd = s.upd := rfl
@[simp] theorem State.setG_qm (e : Nat) (r : RegNo) (v : TWord) : (s.setG e r v).qm = s.qm := rfl
@[simp] theorem State.setG_ports (e : Nat) (r : RegNo) (v : TWord) : (s.setG e r v).ports = s.ports := rfl
@[simp] theorem State.setG_bsl (e : Nat) (r : RegNo) (v : TWord) : (s.setG e r v).bsl = s.bsl := rfl
@[simp] theorem State.setG_ke (e : Nat) (r : RegNo) (v : TWord) : (s.setG e r v).ke = s.ke := rfl
@[simp] theorem State.setG_boot (e : Nat) (r : RegNo) (v : TWord) : (s.setG e r v).boot = s.boot := rfl
@[simp] theorem State.setG_mrg (e : Nat) (r : RegNo) (v : TWord) : (s.setG e r v).mrg = s.mrg := rfl
@[simp] theorem State.setG_host (e : Nat) (r : RegNo) (v : TWord) : (s.setG e r v).host = s.host := rfl
@[simp] theorem State.setG_free (e : Nat) (r : RegNo) (v : TWord) : (s.setG e r v).free = s.free := rfl
@[simp] theorem State.setG_answer (e : Nat) (r : RegNo) (v : TWord) : (s.setG e r v).answer = s.answer := rfl
@[simp] theorem State.setG_outbox (e : Nat) (r : RegNo) (v : TWord) : (s.setG e r v).outbox = s.outbox := rfl

/-! setF -/

@[simp] theorem State.setF_pending (e : Nat) (r : RegNo) (v : Word) : (s.setF e r v).pending = s.pending := rfl
@[simp] theorem State.setF_regs (e : Nat) (r : RegNo) (v : Word) : (s.setF e r v).regs = s.regs := rfl
@[simp] theorem State.setF_cfg (e : Nat) (r : RegNo) (v : Word) : (s.setF e r v).cfg = s.cfg := rfl
@[simp] theorem State.setF_gav (e : Nat) (r : RegNo) (v : Word) : (s.setF e r v).gav = s.gav := rfl
@[simp] theorem State.setF_mem (e : Nat) (r : RegNo) (v : Word) : (s.setF e r v).mem = s.mem := rfl
@[simp] theorem State.setF_ic (e : Nat) (r : RegNo) (v : Word) : (s.setF e r v).ic = s.ic := rfl
@[simp] theorem State.setF_mgd (e : Nat) (r : RegNo) (v : Word) : (s.setF e r v).mgd = s.mgd := rfl
@[simp] theorem State.setF_pins (e : Nat) (r : RegNo) (v : Word) : (s.setF e r v).pins = s.pins := rfl
@[simp] theorem State.setF_upd (e : Nat) (r : RegNo) (v : Word) : (s.setF e r v).upd = s.upd := rfl
@[simp] theorem State.setF_qm (e : Nat) (r : RegNo) (v : Word) : (s.setF e r v).qm = s.qm := rfl
@[simp] theorem State.setF_ports (e : Nat) (r : RegNo) (v : Word) : (s.setF e r v).ports = s.ports := rfl
@[simp] theorem State.setF_bsl (e : Nat) (r : RegNo) (v : Word) : (s.setF e r v).bsl = s.bsl := rfl
@[simp] theorem State.setF_ke (e : Nat) (r : RegNo) (v : Word) : (s.setF e r v).ke = s.ke := rfl
@[simp] theorem State.setF_boot (e : Nat) (r : RegNo) (v : Word) : (s.setF e r v).boot = s.boot := rfl
@[simp] theorem State.setF_mrg (e : Nat) (r : RegNo) (v : Word) : (s.setF e r v).mrg = s.mrg := rfl
@[simp] theorem State.setF_host (e : Nat) (r : RegNo) (v : Word) : (s.setF e r v).host = s.host := rfl
@[simp] theorem State.setF_free (e : Nat) (r : RegNo) (v : Word) : (s.setF e r v).free = s.free := rfl
@[simp] theorem State.setF_answer (e : Nat) (r : RegNo) (v : Word) : (s.setF e r v).answer = s.answer := rfl
@[simp] theorem State.setF_outbox (e : Nat) (r : RegNo) (v : Word) : (s.setF e r v).outbox = s.outbox := rfl

/-! setAstat -/

@[simp] theorem State.setAstat_pending (e v : Nat) : (s.setAstat e v).pending = s.pending := rfl
@[simp] theorem State.setAstat_regs (e v : Nat) : (s.setAstat e v).regs = s.regs := rfl
@[simp] theorem State.setAstat_cfg (e v : Nat) : (s.setAstat e v).cfg = s.cfg := rfl
@[simp] theorem State.setAstat_gav (e v : Nat) : (s.setAstat e v).gav = s.gav := rfl
@[simp] theorem State.setAstat_mem (e v : Nat) : (s.setAstat e v).mem = s.mem := rfl
@[simp] theorem State.setAstat_ic (e v : Nat) : (s.setAstat e v).ic = s.ic := rfl
@[simp] theorem State.setAstat_mgd (e v : Nat) : (s.setAstat e v).mgd = s.mgd := rfl
@[simp] theorem State.setAstat_pins (e v : Nat) : (s.setAstat e v).pins = s.pins := rfl
@[simp] theorem State.setAstat_upd (e v : Nat) : (s.setAstat e v).upd = s.upd := rfl
@[simp] theorem State.setAstat_qm (e v : Nat) : (s.setAstat e v).qm = s.qm := rfl
@[simp] theorem State.setAstat_ports (e v : Nat) : (s.setAstat e v).ports = s.ports := rfl
@[simp] theorem State.setAstat_bsl (e v : Nat) : (s.setAstat e v).bsl = s.bsl := rfl
@[simp] theorem State.setAstat_ke (e v : Nat) : (s.setAstat e v).ke = s.ke := rfl
@[simp] theorem State.setAstat_boot (e v : Nat) : (s.setAstat e v).boot = s.boot := rfl
@[simp] theorem State.setAstat_mrg (e v : Nat) : (s.setAstat e v).mrg = s.mrg := rfl
@[simp] theorem State.setAstat_host (e v : Nat) : (s.setAstat e v).host = s.host := rfl
@[simp] theorem State.setAstat_free (e v : Nat) : (s.setAstat e v).free = s.free := rfl
@[simp] theorem State.setAstat_answer (e v : Nat) : (s.setAstat e v).answer = s.answer := rfl
@[simp] theorem State.setAstat_outbox (e v : Nat) : (s.setAstat e v).outbox = s.outbox := rfl

/-! setVfcsr -/

@[simp] theorem State.setVfcsr_pending (e v : Nat) : (s.setVfcsr e v).pending = s.pending := rfl
@[simp] theorem State.setVfcsr_regs (e v : Nat) : (s.setVfcsr e v).regs = s.regs := rfl
@[simp] theorem State.setVfcsr_cfg (e v : Nat) : (s.setVfcsr e v).cfg = s.cfg := rfl
@[simp] theorem State.setVfcsr_gav (e v : Nat) : (s.setVfcsr e v).gav = s.gav := rfl
@[simp] theorem State.setVfcsr_mem (e v : Nat) : (s.setVfcsr e v).mem = s.mem := rfl
@[simp] theorem State.setVfcsr_ic (e v : Nat) : (s.setVfcsr e v).ic = s.ic := rfl
@[simp] theorem State.setVfcsr_mgd (e v : Nat) : (s.setVfcsr e v).mgd = s.mgd := rfl
@[simp] theorem State.setVfcsr_pins (e v : Nat) : (s.setVfcsr e v).pins = s.pins := rfl
@[simp] theorem State.setVfcsr_upd (e v : Nat) : (s.setVfcsr e v).upd = s.upd := rfl
@[simp] theorem State.setVfcsr_qm (e v : Nat) : (s.setVfcsr e v).qm = s.qm := rfl
@[simp] theorem State.setVfcsr_ports (e v : Nat) : (s.setVfcsr e v).ports = s.ports := rfl
@[simp] theorem State.setVfcsr_bsl (e v : Nat) : (s.setVfcsr e v).bsl = s.bsl := rfl
@[simp] theorem State.setVfcsr_ke (e v : Nat) : (s.setVfcsr e v).ke = s.ke := rfl
@[simp] theorem State.setVfcsr_boot (e v : Nat) : (s.setVfcsr e v).boot = s.boot := rfl
@[simp] theorem State.setVfcsr_mrg (e v : Nat) : (s.setVfcsr e v).mrg = s.mrg := rfl
@[simp] theorem State.setVfcsr_host (e v : Nat) : (s.setVfcsr e v).host = s.host := rfl
@[simp] theorem State.setVfcsr_free (e v : Nat) : (s.setVfcsr e v).free = s.free := rfl
@[simp] theorem State.setVfcsr_answer (e v : Nat) : (s.setVfcsr e v).answer = s.answer := rfl
@[simp] theorem State.setVfcsr_outbox (e v : Nat) : (s.setVfcsr e v).outbox = s.outbox := rfl

/-! setPc -/

@[simp] theorem State.setPc_pending (e pc : Nat) : (s.setPc e pc).pending = s.pending := rfl
@[simp] theorem State.setPc_regs (e pc : Nat) : (s.setPc e pc).regs = s.regs := rfl
@[simp] theorem State.setPc_cfg (e pc : Nat) : (s.setPc e pc).cfg = s.cfg := rfl
@[simp] theorem State.setPc_gav (e pc : Nat) : (s.setPc e pc).gav = s.gav := rfl
@[simp] theorem State.setPc_mem (e pc : Nat) : (s.setPc e pc).mem = s.mem := rfl
@[simp] theorem State.setPc_ic (e pc : Nat) : (s.setPc e pc).ic = s.ic := rfl
@[simp] theorem State.setPc_mgd (e pc : Nat) : (s.setPc e pc).mgd = s.mgd := rfl
@[simp] theorem State.setPc_pins (e pc : Nat) : (s.setPc e pc).pins = s.pins := rfl
@[simp] theorem State.setPc_upd (e pc : Nat) : (s.setPc e pc).upd = s.upd := rfl
@[simp] theorem State.setPc_qm (e pc : Nat) : (s.setPc e pc).qm = s.qm := rfl
@[simp] theorem State.setPc_ports (e pc : Nat) : (s.setPc e pc).ports = s.ports := rfl
@[simp] theorem State.setPc_bsl (e pc : Nat) : (s.setPc e pc).bsl = s.bsl := rfl
@[simp] theorem State.setPc_ke (e pc : Nat) : (s.setPc e pc).ke = s.ke := rfl
@[simp] theorem State.setPc_boot (e pc : Nat) : (s.setPc e pc).boot = s.boot := rfl
@[simp] theorem State.setPc_mrg (e pc : Nat) : (s.setPc e pc).mrg = s.mrg := rfl
@[simp] theorem State.setPc_host (e pc : Nat) : (s.setPc e pc).host = s.host := rfl
@[simp] theorem State.setPc_free (e pc : Nat) : (s.setPc e pc).free = s.free := rfl
@[simp] theorem State.setPc_answer (e pc : Nat) : (s.setPc e pc).answer = s.answer := rfl
@[simp] theorem State.setPc_outbox (e pc : Nat) : (s.setPc e pc).outbox = s.outbox := rfl

/-! past -/

@[simp] theorem State.past_pending (e n : Nat) : (s.past e n).pending = s.pending := rfl
@[simp] theorem State.past_regs (e n : Nat) : (s.past e n).regs = s.regs := rfl
@[simp] theorem State.past_cfg (e n : Nat) : (s.past e n).cfg = s.cfg := rfl
@[simp] theorem State.past_gav (e n : Nat) : (s.past e n).gav = s.gav := rfl
@[simp] theorem State.past_mem (e n : Nat) : (s.past e n).mem = s.mem := rfl
@[simp] theorem State.past_ic (e n : Nat) : (s.past e n).ic = s.ic := rfl
@[simp] theorem State.past_mgd (e n : Nat) : (s.past e n).mgd = s.mgd := rfl
@[simp] theorem State.past_pins (e n : Nat) : (s.past e n).pins = s.pins := rfl
@[simp] theorem State.past_upd (e n : Nat) : (s.past e n).upd = s.upd := rfl
@[simp] theorem State.past_qm (e n : Nat) : (s.past e n).qm = s.qm := rfl
@[simp] theorem State.past_ports (e n : Nat) : (s.past e n).ports = s.ports := rfl
@[simp] theorem State.past_bsl (e n : Nat) : (s.past e n).bsl = s.bsl := rfl
@[simp] theorem State.past_ke (e n : Nat) : (s.past e n).ke = s.ke := rfl
@[simp] theorem State.past_boot (e n : Nat) : (s.past e n).boot = s.boot := rfl
@[simp] theorem State.past_mrg (e n : Nat) : (s.past e n).mrg = s.mrg := rfl
@[simp] theorem State.past_host (e n : Nat) : (s.past e n).host = s.host := rfl
@[simp] theorem State.past_free (e n : Nat) : (s.past e n).free = s.free := rfl
@[simp] theorem State.past_answer (e n : Nat) : (s.past e n).answer = s.answer := rfl
@[simp] theorem State.past_outbox (e n : Nat) : (s.past e n).outbox = s.outbox := rfl

/-! reply -/

@[simp] theorem State.reply_pending (resp : Nat) (data : List TWord) : (s.reply resp data).pending = s.pending := rfl
@[simp] theorem State.reply_regs (resp : Nat) (data : List TWord) : (s.reply resp data).regs = s.regs := rfl
@[simp] theorem State.reply_cfg (resp : Nat) (data : List TWord) : (s.reply resp data).cfg = s.cfg := rfl
@[simp] theorem State.reply_gav (resp : Nat) (data : List TWord) : (s.reply resp data).gav = s.gav := rfl
@[simp] theorem State.reply_mem (resp : Nat) (data : List TWord) : (s.reply resp data).mem = s.mem := rfl
@[simp] theorem State.reply_eng (resp : Nat) (data : List TWord) : (s.reply resp data).eng = s.eng := rfl
@[simp] theorem State.reply_ic (resp : Nat) (data : List TWord) : (s.reply resp data).ic = s.ic := rfl
@[simp] theorem State.reply_mgd (resp : Nat) (data : List TWord) : (s.reply resp data).mgd = s.mgd := rfl
@[simp] theorem State.reply_pins (resp : Nat) (data : List TWord) : (s.reply resp data).pins = s.pins := rfl
@[simp] theorem State.reply_upd (resp : Nat) (data : List TWord) : (s.reply resp data).upd = s.upd := rfl
@[simp] theorem State.reply_qm (resp : Nat) (data : List TWord) : (s.reply resp data).qm = s.qm := rfl
@[simp] theorem State.reply_ports (resp : Nat) (data : List TWord) : (s.reply resp data).ports = s.ports := rfl
@[simp] theorem State.reply_bsl (resp : Nat) (data : List TWord) : (s.reply resp data).bsl = s.bsl := rfl
@[simp] theorem State.reply_ke (resp : Nat) (data : List TWord) : (s.reply resp data).ke = s.ke := rfl
@[simp] theorem State.reply_boot (resp : Nat) (data : List TWord) : (s.reply resp data).boot = s.boot := rfl
@[simp] theorem State.reply_mrg (resp : Nat) (data : List TWord) : (s.reply resp data).mrg = s.mrg := rfl
@[simp] theorem State.reply_host (resp : Nat) (data : List TWord) : (s.reply resp data).host = s.host := rfl
@[simp] theorem State.reply_free (resp : Nat) (data : List TWord) : (s.reply resp data).free = s.free := rfl
@[simp] theorem State.reply_outbox (resp : Nat) (data : List TWord) : (s.reply resp data).outbox = s.outbox := rfl

/-! emit -/

@[simp] theorem State.emit_pending (m : Emit) : (s.emit m).pending = s.pending := rfl
@[simp] theorem State.emit_regs (m : Emit) : (s.emit m).regs = s.regs := rfl
@[simp] theorem State.emit_cfg (m : Emit) : (s.emit m).cfg = s.cfg := rfl
@[simp] theorem State.emit_gav (m : Emit) : (s.emit m).gav = s.gav := rfl
@[simp] theorem State.emit_mem (m : Emit) : (s.emit m).mem = s.mem := rfl
@[simp] theorem State.emit_eng (m : Emit) : (s.emit m).eng = s.eng := rfl
@[simp] theorem State.emit_ic (m : Emit) : (s.emit m).ic = s.ic := rfl
@[simp] theorem State.emit_mgd (m : Emit) : (s.emit m).mgd = s.mgd := rfl
@[simp] theorem State.emit_pins (m : Emit) : (s.emit m).pins = s.pins := rfl
@[simp] theorem State.emit_upd (m : Emit) : (s.emit m).upd = s.upd := rfl
@[simp] theorem State.emit_qm (m : Emit) : (s.emit m).qm = s.qm := rfl
@[simp] theorem State.emit_ports (m : Emit) : (s.emit m).ports = s.ports := rfl
@[simp] theorem State.emit_bsl (m : Emit) : (s.emit m).bsl = s.bsl := rfl
@[simp] theorem State.emit_ke (m : Emit) : (s.emit m).ke = s.ke := rfl
@[simp] theorem State.emit_boot (m : Emit) : (s.emit m).boot = s.boot := rfl
@[simp] theorem State.emit_mrg (m : Emit) : (s.emit m).mrg = s.mrg := rfl
@[simp] theorem State.emit_host (m : Emit) : (s.emit m).host = s.host := rfl
@[simp] theorem State.emit_free (m : Emit) : (s.emit m).free = s.free := rfl
@[simp] theorem State.emit_answer (m : Emit) : (s.emit m).answer = s.answer := rfl

/-! setSrc -/

@[simp] theorem State.setSrc_pending (i : Nat) (x : Src) : (s.setSrc i x).pending = s.pending := rfl
@[simp] theorem State.setSrc_regs (i : Nat) (x : Src) : (s.setSrc i x).regs = s.regs := rfl
@[simp] theorem State.setSrc_cfg (i : Nat) (x : Src) : (s.setSrc i x).cfg = s.cfg := rfl
@[simp] theorem State.setSrc_gav (i : Nat) (x : Src) : (s.setSrc i x).gav = s.gav := rfl
@[simp] theorem State.setSrc_mem (i : Nat) (x : Src) : (s.setSrc i x).mem = s.mem := rfl
@[simp] theorem State.setSrc_eng (i : Nat) (x : Src) : (s.setSrc i x).eng = s.eng := rfl
@[simp] theorem State.setSrc_mgd (i : Nat) (x : Src) : (s.setSrc i x).mgd = s.mgd := rfl
@[simp] theorem State.setSrc_pins (i : Nat) (x : Src) : (s.setSrc i x).pins = s.pins := rfl
@[simp] theorem State.setSrc_upd (i : Nat) (x : Src) : (s.setSrc i x).upd = s.upd := rfl
@[simp] theorem State.setSrc_qm (i : Nat) (x : Src) : (s.setSrc i x).qm = s.qm := rfl
@[simp] theorem State.setSrc_ports (i : Nat) (x : Src) : (s.setSrc i x).ports = s.ports := rfl
@[simp] theorem State.setSrc_bsl (i : Nat) (x : Src) : (s.setSrc i x).bsl = s.bsl := rfl
@[simp] theorem State.setSrc_ke (i : Nat) (x : Src) : (s.setSrc i x).ke = s.ke := rfl
@[simp] theorem State.setSrc_boot (i : Nat) (x : Src) : (s.setSrc i x).boot = s.boot := rfl
@[simp] theorem State.setSrc_mrg (i : Nat) (x : Src) : (s.setSrc i x).mrg = s.mrg := rfl
@[simp] theorem State.setSrc_host (i : Nat) (x : Src) : (s.setSrc i x).host = s.host := rfl
@[simp] theorem State.setSrc_free (i : Nat) (x : Src) : (s.setSrc i x).free = s.free := rfl
@[simp] theorem State.setSrc_answer (i : Nat) (x : Src) : (s.setSrc i x).answer = s.answer := rfl
@[simp] theorem State.setSrc_outbox (i : Nat) (x : Src) : (s.setSrc i x).outbox = s.outbox := rfl

/-! storeLine -/

@[simp] theorem State.storeLine_pending (l key : Nat) (ws : List TWord) : (s.storeLine l key ws).pending = s.pending := rfl
@[simp] theorem State.storeLine_regs (l key : Nat) (ws : List TWord) : (s.storeLine l key ws).regs = s.regs := rfl
@[simp] theorem State.storeLine_cfg (l key : Nat) (ws : List TWord) : (s.storeLine l key ws).cfg = s.cfg := rfl
@[simp] theorem State.storeLine_gav (l key : Nat) (ws : List TWord) : (s.storeLine l key ws).gav = s.gav := rfl
@[simp] theorem State.storeLine_eng (l key : Nat) (ws : List TWord) : (s.storeLine l key ws).eng = s.eng := rfl
@[simp] theorem State.storeLine_ic (l key : Nat) (ws : List TWord) : (s.storeLine l key ws).ic = s.ic := rfl
@[simp] theorem State.storeLine_mgd (l key : Nat) (ws : List TWord) : (s.storeLine l key ws).mgd = s.mgd := rfl
@[simp] theorem State.storeLine_pins (l key : Nat) (ws : List TWord) : (s.storeLine l key ws).pins = s.pins := rfl
@[simp] theorem State.storeLine_upd (l key : Nat) (ws : List TWord) : (s.storeLine l key ws).upd = s.upd := rfl
@[simp] theorem State.storeLine_qm (l key : Nat) (ws : List TWord) : (s.storeLine l key ws).qm = s.qm := rfl
@[simp] theorem State.storeLine_ports (l key : Nat) (ws : List TWord) : (s.storeLine l key ws).ports = s.ports := rfl
@[simp] theorem State.storeLine_bsl (l key : Nat) (ws : List TWord) : (s.storeLine l key ws).bsl = s.bsl := rfl
@[simp] theorem State.storeLine_ke (l key : Nat) (ws : List TWord) : (s.storeLine l key ws).ke = s.ke := rfl
@[simp] theorem State.storeLine_boot (l key : Nat) (ws : List TWord) : (s.storeLine l key ws).boot = s.boot := rfl
@[simp] theorem State.storeLine_mrg (l key : Nat) (ws : List TWord) : (s.storeLine l key ws).mrg = s.mrg := rfl
@[simp] theorem State.storeLine_host (l key : Nat) (ws : List TWord) : (s.storeLine l key ws).host = s.host := rfl
@[simp] theorem State.storeLine_free (l key : Nat) (ws : List TWord) : (s.storeLine l key ws).free = s.free := rfl
@[simp] theorem State.storeLine_answer (l key : Nat) (ws : List TWord) : (s.storeLine l key ws).answer = s.answer := rfl
@[simp] theorem State.storeLine_outbox (l key : Nat) (ws : List TWord) : (s.storeLine l key ws).outbox = s.outbox := rfl

/-! setDir -/

@[simp] theorem State.setDir_pending (l : Nat) (d : DirEntry) : (s.setDir l d).pending = s.pending := rfl
@[simp] theorem State.setDir_regs (l : Nat) (d : DirEntry) : (s.setDir l d).regs = s.regs := rfl
@[simp] theorem State.setDir_cfg (l : Nat) (d : DirEntry) : (s.setDir l d).cfg = s.cfg := rfl
@[simp] theorem State.setDir_gav (l : Nat) (d : DirEntry) : (s.setDir l d).gav = s.gav := rfl
@[simp] theorem State.setDir_eng (l : Nat) (d : DirEntry) : (s.setDir l d).eng = s.eng := rfl
@[simp] theorem State.setDir_ic (l : Nat) (d : DirEntry) : (s.setDir l d).ic = s.ic := rfl
@[simp] theorem State.setDir_mgd (l : Nat) (d : DirEntry) : (s.setDir l d).mgd = s.mgd := rfl
@[simp] theorem State.setDir_pins (l : Nat) (d : DirEntry) : (s.setDir l d).pins = s.pins := rfl
@[simp] theorem State.setDir_upd (l : Nat) (d : DirEntry) : (s.setDir l d).upd = s.upd := rfl
@[simp] theorem State.setDir_qm (l : Nat) (d : DirEntry) : (s.setDir l d).qm = s.qm := rfl
@[simp] theorem State.setDir_ports (l : Nat) (d : DirEntry) : (s.setDir l d).ports = s.ports := rfl
@[simp] theorem State.setDir_bsl (l : Nat) (d : DirEntry) : (s.setDir l d).bsl = s.bsl := rfl
@[simp] theorem State.setDir_ke (l : Nat) (d : DirEntry) : (s.setDir l d).ke = s.ke := rfl
@[simp] theorem State.setDir_boot (l : Nat) (d : DirEntry) : (s.setDir l d).boot = s.boot := rfl
@[simp] theorem State.setDir_mrg (l : Nat) (d : DirEntry) : (s.setDir l d).mrg = s.mrg := rfl
@[simp] theorem State.setDir_host (l : Nat) (d : DirEntry) : (s.setDir l d).host = s.host := rfl
@[simp] theorem State.setDir_free (l : Nat) (d : DirEntry) : (s.setDir l d).free = s.free := rfl
@[simp] theorem State.setDir_answer (l : Nat) (d : DirEntry) : (s.setDir l d).answer = s.answer := rfl
@[simp] theorem State.setDir_outbox (l : Nat) (d : DirEntry) : (s.setDir l d).outbox = s.outbox := rfl

/-! setCopy -/

@[simp] theorem State.setCopy_pending (l : Nat) (x : List TWord) : (s.setCopy l x).pending = s.pending := rfl
@[simp] theorem State.setCopy_regs (l : Nat) (x : List TWord) : (s.setCopy l x).regs = s.regs := rfl
@[simp] theorem State.setCopy_cfg (l : Nat) (x : List TWord) : (s.setCopy l x).cfg = s.cfg := rfl
@[simp] theorem State.setCopy_gav (l : Nat) (x : List TWord) : (s.setCopy l x).gav = s.gav := rfl
@[simp] theorem State.setCopy_eng (l : Nat) (x : List TWord) : (s.setCopy l x).eng = s.eng := rfl
@[simp] theorem State.setCopy_ic (l : Nat) (x : List TWord) : (s.setCopy l x).ic = s.ic := rfl
@[simp] theorem State.setCopy_mgd (l : Nat) (x : List TWord) : (s.setCopy l x).mgd = s.mgd := rfl
@[simp] theorem State.setCopy_pins (l : Nat) (x : List TWord) : (s.setCopy l x).pins = s.pins := rfl
@[simp] theorem State.setCopy_upd (l : Nat) (x : List TWord) : (s.setCopy l x).upd = s.upd := rfl
@[simp] theorem State.setCopy_qm (l : Nat) (x : List TWord) : (s.setCopy l x).qm = s.qm := rfl
@[simp] theorem State.setCopy_ports (l : Nat) (x : List TWord) : (s.setCopy l x).ports = s.ports := rfl
@[simp] theorem State.setCopy_bsl (l : Nat) (x : List TWord) : (s.setCopy l x).bsl = s.bsl := rfl
@[simp] theorem State.setCopy_ke (l : Nat) (x : List TWord) : (s.setCopy l x).ke = s.ke := rfl
@[simp] theorem State.setCopy_boot (l : Nat) (x : List TWord) : (s.setCopy l x).boot = s.boot := rfl
@[simp] theorem State.setCopy_mrg (l : Nat) (x : List TWord) : (s.setCopy l x).mrg = s.mrg := rfl
@[simp] theorem State.setCopy_host (l : Nat) (x : List TWord) : (s.setCopy l x).host = s.host := rfl
@[simp] theorem State.setCopy_free (l : Nat) (x : List TWord) : (s.setCopy l x).free = s.free := rfl
@[simp] theorem State.setCopy_answer (l : Nat) (x : List TWord) : (s.setCopy l x).answer = s.answer := rfl
@[simp] theorem State.setCopy_outbox (l : Nat) (x : List TWord) : (s.setCopy l x).outbox = s.outbox := rfl

/-! setBusy -/

@[simp] theorem State.setBusy_pending (k n : Nat) : (s.setBusy k n).pending = s.pending := rfl
@[simp] theorem State.setBusy_regs (k n : Nat) : (s.setBusy k n).regs = s.regs := rfl
@[simp] theorem State.setBusy_cfg (k n : Nat) : (s.setBusy k n).cfg = s.cfg := rfl
@[simp] theorem State.setBusy_gav (k n : Nat) : (s.setBusy k n).gav = s.gav := rfl
@[simp] theorem State.setBusy_eng (k n : Nat) : (s.setBusy k n).eng = s.eng := rfl
@[simp] theorem State.setBusy_ic (k n : Nat) : (s.setBusy k n).ic = s.ic := rfl
@[simp] theorem State.setBusy_mgd (k n : Nat) : (s.setBusy k n).mgd = s.mgd := rfl
@[simp] theorem State.setBusy_pins (k n : Nat) : (s.setBusy k n).pins = s.pins := rfl
@[simp] theorem State.setBusy_upd (k n : Nat) : (s.setBusy k n).upd = s.upd := rfl
@[simp] theorem State.setBusy_qm (k n : Nat) : (s.setBusy k n).qm = s.qm := rfl
@[simp] theorem State.setBusy_ports (k n : Nat) : (s.setBusy k n).ports = s.ports := rfl
@[simp] theorem State.setBusy_bsl (k n : Nat) : (s.setBusy k n).bsl = s.bsl := rfl
@[simp] theorem State.setBusy_ke (k n : Nat) : (s.setBusy k n).ke = s.ke := rfl
@[simp] theorem State.setBusy_boot (k n : Nat) : (s.setBusy k n).boot = s.boot := rfl
@[simp] theorem State.setBusy_mrg (k n : Nat) : (s.setBusy k n).mrg = s.mrg := rfl
@[simp] theorem State.setBusy_host (k n : Nat) : (s.setBusy k n).host = s.host := rfl
@[simp] theorem State.setBusy_free (k n : Nat) : (s.setBusy k n).free = s.free := rfl
@[simp] theorem State.setBusy_answer (k n : Nat) : (s.setBusy k n).answer = s.answer := rfl
@[simp] theorem State.setBusy_outbox (k n : Nat) : (s.setBusy k n).outbox = s.outbox := rfl

/-! setPort -/

@[simp] theorem State.setPort_pending (p : Nat) (x : OPort) : (s.setPort p x).pending = s.pending := rfl
@[simp] theorem State.setPort_regs (p : Nat) (x : OPort) : (s.setPort p x).regs = s.regs := rfl
@[simp] theorem State.setPort_cfg (p : Nat) (x : OPort) : (s.setPort p x).cfg = s.cfg := rfl
@[simp] theorem State.setPort_gav (p : Nat) (x : OPort) : (s.setPort p x).gav = s.gav := rfl
@[simp] theorem State.setPort_mem (p : Nat) (x : OPort) : (s.setPort p x).mem = s.mem := rfl
@[simp] theorem State.setPort_eng (p : Nat) (x : OPort) : (s.setPort p x).eng = s.eng := rfl
@[simp] theorem State.setPort_ic (p : Nat) (x : OPort) : (s.setPort p x).ic = s.ic := rfl
@[simp] theorem State.setPort_mgd (p : Nat) (x : OPort) : (s.setPort p x).mgd = s.mgd := rfl
@[simp] theorem State.setPort_pins (p : Nat) (x : OPort) : (s.setPort p x).pins = s.pins := rfl
@[simp] theorem State.setPort_upd (p : Nat) (x : OPort) : (s.setPort p x).upd = s.upd := rfl
@[simp] theorem State.setPort_qm (p : Nat) (x : OPort) : (s.setPort p x).qm = s.qm := rfl
@[simp] theorem State.setPort_bsl (p : Nat) (x : OPort) : (s.setPort p x).bsl = s.bsl := rfl
@[simp] theorem State.setPort_ke (p : Nat) (x : OPort) : (s.setPort p x).ke = s.ke := rfl
@[simp] theorem State.setPort_boot (p : Nat) (x : OPort) : (s.setPort p x).boot = s.boot := rfl
@[simp] theorem State.setPort_mrg (p : Nat) (x : OPort) : (s.setPort p x).mrg = s.mrg := rfl
@[simp] theorem State.setPort_host (p : Nat) (x : OPort) : (s.setPort p x).host = s.host := rfl
@[simp] theorem State.setPort_free (p : Nat) (x : OPort) : (s.setPort p x).free = s.free := rfl
@[simp] theorem State.setPort_answer (p : Nat) (x : OPort) : (s.setPort p x).answer = s.answer := rfl
@[simp] theorem State.setPort_outbox (p : Nat) (x : OPort) : (s.setPort p x).outbox = s.outbox := rfl

/-! modRing -/

@[simp] theorem State.modRing_pending (e : Nat) (f : Ring → Ring) : (s.modRing e f).pending = s.pending := rfl
@[simp] theorem State.modRing_regs (e : Nat) (f : Ring → Ring) : (s.modRing e f).regs = s.regs := rfl
@[simp] theorem State.modRing_cfg (e : Nat) (f : Ring → Ring) : (s.modRing e f).cfg = s.cfg := rfl
@[simp] theorem State.modRing_gav (e : Nat) (f : Ring → Ring) : (s.modRing e f).gav = s.gav := rfl
@[simp] theorem State.modRing_mem (e : Nat) (f : Ring → Ring) : (s.modRing e f).mem = s.mem := rfl
@[simp] theorem State.modRing_ic (e : Nat) (f : Ring → Ring) : (s.modRing e f).ic = s.ic := rfl
@[simp] theorem State.modRing_mgd (e : Nat) (f : Ring → Ring) : (s.modRing e f).mgd = s.mgd := rfl
@[simp] theorem State.modRing_pins (e : Nat) (f : Ring → Ring) : (s.modRing e f).pins = s.pins := rfl
@[simp] theorem State.modRing_upd (e : Nat) (f : Ring → Ring) : (s.modRing e f).upd = s.upd := rfl
@[simp] theorem State.modRing_qm (e : Nat) (f : Ring → Ring) : (s.modRing e f).qm = s.qm := rfl
@[simp] theorem State.modRing_ports (e : Nat) (f : Ring → Ring) : (s.modRing e f).ports = s.ports := rfl
@[simp] theorem State.modRing_bsl (e : Nat) (f : Ring → Ring) : (s.modRing e f).bsl = s.bsl := rfl
@[simp] theorem State.modRing_ke (e : Nat) (f : Ring → Ring) : (s.modRing e f).ke = s.ke := rfl
@[simp] theorem State.modRing_boot (e : Nat) (f : Ring → Ring) : (s.modRing e f).boot = s.boot := rfl
@[simp] theorem State.modRing_mrg (e : Nat) (f : Ring → Ring) : (s.modRing e f).mrg = s.mrg := rfl
@[simp] theorem State.modRing_host (e : Nat) (f : Ring → Ring) : (s.modRing e f).host = s.host := rfl
@[simp] theorem State.modRing_free (e : Nat) (f : Ring → Ring) : (s.modRing e f).free = s.free := rfl
@[simp] theorem State.modRing_answer (e : Nat) (f : Ring → Ring) : (s.modRing e f).answer = s.answer := rfl
@[simp] theorem State.modRing_outbox (e : Nat) (f : Ring → Ring) : (s.modRing e f).outbox = s.outbox := rfl

/-! modVsu -/

@[simp] theorem State.modVsu_pending (e b : Nat) (f : BankVsu → BankVsu) : (s.modVsu e b f).pending = s.pending := rfl
@[simp] theorem State.modVsu_regs (e b : Nat) (f : BankVsu → BankVsu) : (s.modVsu e b f).regs = s.regs := rfl
@[simp] theorem State.modVsu_cfg (e b : Nat) (f : BankVsu → BankVsu) : (s.modVsu e b f).cfg = s.cfg := rfl
@[simp] theorem State.modVsu_gav (e b : Nat) (f : BankVsu → BankVsu) : (s.modVsu e b f).gav = s.gav := rfl
@[simp] theorem State.modVsu_mem (e b : Nat) (f : BankVsu → BankVsu) : (s.modVsu e b f).mem = s.mem := rfl
@[simp] theorem State.modVsu_ic (e b : Nat) (f : BankVsu → BankVsu) : (s.modVsu e b f).ic = s.ic := rfl
@[simp] theorem State.modVsu_mgd (e b : Nat) (f : BankVsu → BankVsu) : (s.modVsu e b f).mgd = s.mgd := rfl
@[simp] theorem State.modVsu_pins (e b : Nat) (f : BankVsu → BankVsu) : (s.modVsu e b f).pins = s.pins := rfl
@[simp] theorem State.modVsu_upd (e b : Nat) (f : BankVsu → BankVsu) : (s.modVsu e b f).upd = s.upd := rfl
@[simp] theorem State.modVsu_qm (e b : Nat) (f : BankVsu → BankVsu) : (s.modVsu e b f).qm = s.qm := rfl
@[simp] theorem State.modVsu_ports (e b : Nat) (f : BankVsu → BankVsu) : (s.modVsu e b f).ports = s.ports := rfl
@[simp] theorem State.modVsu_bsl (e b : Nat) (f : BankVsu → BankVsu) : (s.modVsu e b f).bsl = s.bsl := rfl
@[simp] theorem State.modVsu_ke (e b : Nat) (f : BankVsu → BankVsu) : (s.modVsu e b f).ke = s.ke := rfl
@[simp] theorem State.modVsu_boot (e b : Nat) (f : BankVsu → BankVsu) : (s.modVsu e b f).boot = s.boot := rfl
@[simp] theorem State.modVsu_mrg (e b : Nat) (f : BankVsu → BankVsu) : (s.modVsu e b f).mrg = s.mrg := rfl
@[simp] theorem State.modVsu_host (e b : Nat) (f : BankVsu → BankVsu) : (s.modVsu e b f).host = s.host := rfl
@[simp] theorem State.modVsu_free (e b : Nat) (f : BankVsu → BankVsu) : (s.modVsu e b f).free = s.free := rfl
@[simp] theorem State.modVsu_answer (e b : Nat) (f : BankVsu → BankVsu) : (s.modVsu e b f).answer = s.answer := rfl
@[simp] theorem State.modVsu_outbox (e b : Nat) (f : BankVsu → BankVsu) : (s.modVsu e b f).outbox = s.outbox := rfl

/-! clock -/

@[simp] theorem State.clock_pending (n : Nat) : (s.clock n).pending = s.pending := rfl
@[simp] theorem State.clock_regs (n : Nat) : (s.clock n).regs = s.regs := rfl
@[simp] theorem State.clock_cfg (n : Nat) : (s.clock n).cfg = s.cfg := rfl
@[simp] theorem State.clock_mem (n : Nat) : (s.clock n).mem = s.mem := rfl
@[simp] theorem State.clock_eng (n : Nat) : (s.clock n).eng = s.eng := rfl
@[simp] theorem State.clock_ic (n : Nat) : (s.clock n).ic = s.ic := rfl
@[simp] theorem State.clock_mgd (n : Nat) : (s.clock n).mgd = s.mgd := rfl
@[simp] theorem State.clock_pins (n : Nat) : (s.clock n).pins = s.pins := rfl
@[simp] theorem State.clock_upd (n : Nat) : (s.clock n).upd = s.upd := rfl
@[simp] theorem State.clock_qm (n : Nat) : (s.clock n).qm = s.qm := rfl
@[simp] theorem State.clock_ports (n : Nat) : (s.clock n).ports = s.ports := rfl
@[simp] theorem State.clock_bsl (n : Nat) : (s.clock n).bsl = s.bsl := rfl
@[simp] theorem State.clock_ke (n : Nat) : (s.clock n).ke = s.ke := rfl
@[simp] theorem State.clock_boot (n : Nat) : (s.clock n).boot = s.boot := rfl
@[simp] theorem State.clock_mrg (n : Nat) : (s.clock n).mrg = s.mrg := rfl
@[simp] theorem State.clock_host (n : Nat) : (s.clock n).host = s.host := rfl
@[simp] theorem State.clock_free (n : Nat) : (s.clock n).free = s.free := rfl
@[simp] theorem State.clock_answer (n : Nat) : (s.clock n).answer = s.answer := rfl
@[simp] theorem State.clock_outbox (n : Nat) : (s.clock n).outbox = s.outbox := rfl

/-! What each update sets -/

@[simp] theorem State.setReg_regs (off : Nat) (w : Word) : (s.setReg off w).regs = sset regReset s.regs off w := rfl
@[simp] theorem State.setEngine_eng (e : Nat) (x : Engine) : (s.setEngine e x).eng = sset (fun _ => Engine.reset) s.eng e x := rfl
@[simp] theorem State.reply_answer (resp : Nat) (data : List TWord) : (s.reply resp data).answer = ⟨resp, data⟩ := rfl
@[simp] theorem State.setDir_dir (l : Nat) (d : DirEntry) : (s.setDir l d).mem.dir = sset (fun _ => DirEntry.none) s.mem.dir l d := rfl
@[simp] theorem State.setCopy_copies (l : Nat) (x : List TWord) : (s.setCopy l x).mem.copies = sset (fun _ => []) s.mem.copies l x := rfl
@[simp] theorem State.setPort_ports (p : Nat) (x : OPort) : (s.setPort p x).ports = sset (fun _ => OPort.reset) s.ports p x := rfl
@[simp] theorem State.clock_xclk (n : Nat) : (s.clock n).gav.xclk = s.gav.xclk + n := rfl
@[simp] theorem State.clock_cyc (n : Nat) : (s.clock n).gav.cyc = s.gav.cyc := rfl
@[simp] theorem State.emit_outbox (m : Emit) : (s.emit m).outbox = s.outbox ++ [m] := rfl

end Sys2Proof.Machine
end

