-- ==== Sys2Proof/Laws/Ops.lean ====
section
/-! SUPPORT. Laws of the shared operations: words and fields, registers of the platform view, engines, banks and registers of a bank. -/
namespace Sys2Proof.Machine

/-! Words and fields. -/

theorem bits_lt (x lo w : Nat) : bits x lo w < 2 ^ w := Nat.mod_lt _ (by positivity)

theorem testBit_bits (x lo w i : Nat) : (bits x lo w).testBit i = (decide (i < w) && x.testBit (lo + i)) := by
  simp [bits, Nat.testBit_mod_two_pow, Nat.testBit_shiftRight]

/-- The three parts of a word whose middle field is replaced. -/
theorem setBits_eq (x lo w v : Nat) : setBits x lo w v = 2 ^ lo * (2 ^ w * (x / 2 ^ lo / 2 ^ w) + v % 2 ^ w) + x % 2 ^ lo := by
  unfold setBits bits
  simp only [Nat.shiftRight_eq_div_pow, Nat.shiftLeft_eq]
  have e1 := Nat.div_add_mod x (2 ^ lo)
  have e2 := Nat.div_add_mod (x / 2 ^ lo) (2 ^ w)
  have h : x = 2 ^ lo * (2 ^ w * (x / 2 ^ lo / 2 ^ w)) + x / 2 ^ lo % 2 ^ w * 2 ^ lo + x % 2 ^ lo := by
    calc x = 2 ^ lo * (x / 2 ^ lo) + x % 2 ^ lo := e1.symm
      _ = 2 ^ lo * (2 ^ w * (x / 2 ^ lo / 2 ^ w) + x / 2 ^ lo % 2 ^ w) + x % 2 ^ lo := by rw [e2]
      _ = _ := by ring
  have h2 : x - x / 2 ^ lo % 2 ^ w * 2 ^ lo = 2 ^ lo * (2 ^ w * (x / 2 ^ lo / 2 ^ w)) + x % 2 ^ lo := by omega
  rw [h2]; ring

theorem testBit_setBits (x lo w v i : Nat) :
    (setBits x lo w v).testBit i = if lo ≤ i ∧ i < lo + w then v.testBit (i - lo) else x.testBit i := by
  rw [setBits_eq, Nat.testBit_two_pow_mul_add _ (Nat.mod_lt _ (by positivity))]
  by_cases h1 : i < lo
  · simp [h1, Nat.testBit_mod_two_pow, show ¬ lo ≤ i by omega]
  · rw [if_neg h1, Nat.testBit_two_pow_mul_add _ (Nat.mod_lt _ (by positivity))]
    by_cases h2 : i - lo < w
    · simp [h2, Nat.testBit_mod_two_pow, show lo ≤ i ∧ i < lo + w by omega]
    · rw [if_neg h2, if_neg (by omega), ← Nat.shiftRight_eq_div_pow, ← Nat.shiftRight_eq_div_pow, Nat.testBit_shiftRight, Nat.testBit_shiftRight]
      congr 1; omega

/-- The field that a write replaced. -/
theorem bits_setBits_same (x lo w v : Nat) : bits (setBits x lo w v) lo w = v % 2 ^ w := by
  apply Nat.eq_of_testBit_eq; intro i
  rw [testBit_bits, testBit_setBits, Nat.testBit_mod_two_pow]
  by_cases h : i < w <;> simp [h]

/-- A field beside the one that a write replaced. -/
theorem bits_setBits_ne (x lo w v lo2 w2 : Nat) (h : lo2 + w2 ≤ lo ∨ lo + w ≤ lo2) : bits (setBits x lo w v) lo2 w2 = bits x lo2 w2 := by
  apply Nat.eq_of_testBit_eq; intro i
  rw [testBit_bits, testBit_setBits, testBit_bits]
  by_cases h2 : i < w2
  · rw [if_neg (by omega)]
  · simp [h2]

/-- A replaced field leaves a word within its width. -/
theorem setBits_lt (x lo w v n : Nat) (hx : x < 2 ^ n) (hn : lo + w ≤ n) : setBits x lo w v < 2 ^ n := by
  apply Nat.lt_pow_two_of_testBit; intro i hi
  rw [testBit_setBits, if_neg (by omega)]
  exact Nat.testBit_lt_two_pow (lt_of_lt_of_le hx (Nat.pow_le_pow_right (by norm_num) hi))

/-! Registers of the platform view. -/
variable (s : State)

@[simp] theorem State.reg_setReg (off : Nat) (w : Word) : (s.setReg off w).reg off = w := by simp [State.reg]

theorem State.reg_setReg_ne (off o : Nat) (w : Word) (h : o ≠ off) : (s.setReg off w).reg o = s.reg o := by
  simp [State.reg, sget_sset_ne _ _ _ _ _ h]

/-- Hardware sets a field: it reads what was set. -/
theorem State.rd_wr (off : Nat) (f : Fld) (v : Nat) (h : f.lo + f.w ≤ 64) : (s.wr off f v).rd off f = v % 2 ^ f.w := by
  simp only [State.rd, State.wr, State.reg_setReg, BitVec.toNat_ofNat]
  rw [Nat.mod_eq_of_lt (setBits_lt _ _ _ _ _ (s.reg off).isLt h), bits_setBits_same]

/-- Hardware sets a field: the fields beside it stay. -/
theorem State.rd_wr_ne (off : Nat) (f g : Fld) (v : Nat) (h : f.lo + f.w ≤ 64) (hg : g.lo + g.w ≤ f.lo ∨ f.lo + f.w ≤ g.lo) :
    (s.wr off f v).rd off g = s.rd off g := by
  simp only [State.rd, State.wr, State.reg_setReg, BitVec.toNat_ofNat]
  rw [Nat.mod_eq_of_lt (setBits_lt _ _ _ _ _ (s.reg off).isLt h), bits_setBits_ne _ _ _ _ _ _ hg]

/-- Hardware sets a field: other registers stay. -/
theorem State.rd_wr_off (off o : Nat) (f g : Fld) (v : Nat) (h : o ≠ off) : (s.wr off f v).rd o g = s.rd o g := by
  simp [State.rd, State.wr, State.reg_setReg_ne _ _ _ _ h]

/-- Registers are read from the register file alone. -/
theorem State.reg_congr {s t : State} (h : t.regs = s.regs) (off : Nat) : t.reg off = s.reg off := by simp [State.reg, h]
theorem State.rd_congr {s t : State} (h : t.regs = s.regs) (off : Nat) (f : Fld) : t.rd off f = s.rd off f := by simp [State.rd, State.reg, h]

/-! Engines. -/

@[simp] theorem State.engine_setEngine (e : Nat) (x : Engine) : (s.setEngine e x).engine e = x := by simp [State.engine]

theorem State.engine_setEngine_ne (e d : Nat) (x : Engine) (h : d ≠ e) : (s.setEngine e x).engine d = s.engine d := by
  simp [State.engine, sget_sset_ne _ _ _ _ _ h]

@[simp] theorem State.engine_modEngine (e : Nat) (f : Engine → Engine) : (s.modEngine e f).engine e = f (s.engine e) := by simp [State.modEngine]

theorem State.engine_modEngine_ne (e d : Nat) (f : Engine → Engine) (h : d ≠ e) : (s.modEngine e f).engine d = s.engine d :=
  s.engine_setEngine_ne e d _ h

@[simp] theorem State.engine_modCore (e : Nat) (f : Core → Core) : (s.modCore e f).engine e = { s.engine e with core := f (s.core e) } := by
  simp [State.core, State.modCore]

@[simp] theorem State.core_modCore (e : Nat) (f : Core → Core) : (s.modCore e f).core e = f (s.core e) := by simp [State.core, State.modCore]

theorem State.core_modCore_ne (e d : Nat) (f : Core → Core) (h : d ≠ e) : (s.modCore e f).core d = s.core d := by
  simp [State.core, State.modCore, s.engine_modEngine_ne e d _ h]

@[simp] theorem Core.bank_setBank (c : Core) (b : Nat) (x : Bank) : (c.setBank b x).bank b = x := by simp [Core.bank, Core.setBank]

theorem Core.bank_setBank_ne (c : Core) (b k : Nat) (x : Bank) (h : k ≠ b) : (c.setBank b x).bank k = c.bank k := by
  simp [Core.bank, Core.setBank, sget_sset_ne _ _ _ _ _ h]

/-! G and F registers. -/

@[simp] theorem Bank.getG_setG (x : Bank) (r : Nat) (v : TWord) : (x.setG r v).getG r = v := by simp [Bank.getG, Bank.setG, Bank.mark]

theorem Bank.getG_setG_ne (x : Bank) (r q : Nat) (v : TWord) (h : q ≠ r) : (x.setG r v).getG q = x.getG q := by
  simp [Bank.getG, Bank.setG, Bank.mark, sget_sset_ne _ _ _ _ _ h]

@[simp] theorem Bank.getF_setF (x : Bank) (r : Nat) (v : Word) : (x.setF r v).getF r = v := by simp [Bank.getF, Bank.setF, Bank.mark]

theorem Bank.getF_setF_ne (x : Bank) (r q : Nat) (v : Word) (h : q ≠ r) : (x.setF r v).getF q = x.getF q := by
  simp [Bank.getF, Bank.setF, Bank.mark, sget_sset_ne _ _ _ _ _ h]

@[simp] theorem State.g_setPc (e pc : Nat) (r : RegNo) : (s.setPc e pc).g e r = s.g e r := by
  simp [State.g, State.runBank, State.setPc, Core.bank]

@[simp] theorem State.f_setPc (e pc : Nat) (r : RegNo) : (s.setPc e pc).f e r = s.f e r := by
  simp [State.f, State.runBank, State.setPc, Core.bank]

@[simp] theorem State.astat_setPc (e pc : Nat) : (s.setPc e pc).astat e = s.astat e := by
  simp [State.astat, State.runBank, State.setPc, Core.bank]

@[simp] theorem State.vfcsr_setPc (e pc : Nat) : (s.setPc e pc).vfcsr e = s.vfcsr e := by
  simp [State.vfcsr, State.runBank, State.setPc, Core.bank]

@[simp] theorem State.lev_setPc (e pc : Nat) : (s.setPc e pc).lev e = s.lev e := by
  simp [State.lev, State.setPc]

@[simp] theorem State.pc_setPc (e pc : Nat) : (s.setPc e pc).pc e = pc := by simp [State.pc, State.setPc]

@[simp] theorem State.g_past (e n : Nat) (r : RegNo) : (s.past e n).g e r = s.g e r := by simp [State.past]
@[simp] theorem State.f_past (e n : Nat) (r : RegNo) : (s.past e n).f e r = s.f e r := by simp [State.past]
@[simp] theorem State.astat_past (e n : Nat) : (s.past e n).astat e = s.astat e := by simp [State.past]
@[simp] theorem State.vfcsr_past (e n : Nat) : (s.past e n).vfcsr e = s.vfcsr e := by simp [State.past]
@[simp] theorem State.lev_past (e n : Nat) : (s.past e n).lev e = s.lev e := by simp [State.past]
@[simp] theorem State.pc_past (e n : Nat) : (s.past e n).pc e = (s.pc e + n) % 2 ^ 48 := by simp [State.past]

@[simp] theorem State.runBank_modRun (e : Nat) (f : Bank → Bank) : (s.modRun e f).runBank e = f (s.runBank e) := by
  simp [State.runBank, State.modRun, State.modBank, Core.setBank, Core.bank]

@[simp] theorem State.g_setG (e : Nat) (r : RegNo) (v : TWord) : (s.setG e r v).g e r = v := by simp [State.g, State.setG]

theorem State.g_setG_ne (e : Nat) (r q : RegNo) (v : TWord) (h : q ≠ r) : (s.setG e r v).g e q = s.g e q := by
  have : q.toNat ≠ r.toNat := fun x => h (BitVec.eq_of_toNat_eq x)
  simp [State.g, State.setG, Bank.getG_setG_ne _ _ _ _ this]

@[simp] theorem State.f_setF (e : Nat) (r : RegNo) (v : Word) : (s.setF e r v).f e r = v := by simp [State.f, State.setF]

theorem State.f_setF_ne (e : Nat) (r q : RegNo) (v : Word) (h : q ≠ r) : (s.setF e r v).f e q = s.f e q := by
  have : q.toNat ≠ r.toNat := fun x => h (BitVec.eq_of_toNat_eq x)
  simp [State.f, State.setF, Bank.getF_setF_ne _ _ _ _ this]

@[simp] theorem State.f_setG (e : Nat) (r q : RegNo) (v : TWord) : (s.setG e r v).f e q = s.f e q := by
  simp [State.f, State.setG, Bank.getF, Bank.setG, Bank.mark]

@[simp] theorem State.g_setF (e : Nat) (r q : RegNo) (v : Word) : (s.setF e r v).g e q = s.g e q := by
  simp [State.g, State.setF, Bank.getG, Bank.setF, Bank.mark]

/-- A tag check that passes: the tag is accepted and is neither POISON nor EMPTY. -/
theorem tagTrap_none (ok : Tag → Bool) (which ea : Nat) (t : Tag) (h : ok t = true) (hp : t ≠ tagPoison) (he : t ≠ tagEmpty) :
    tagTrap ok which ea t = none := by simp [tagTrap, h, hp, he]

/-! Issue. -/

/-- Fewer registers read leave fewer responses to await. -/
theorem State.awaits_mono (e : Nat) (rs qs : List RegRef) (h : s.awaits e rs = false) (hq : ∀ r ∈ qs, r ∈ rs) : s.awaits e qs = false := by
  simp only [State.awaits, List.any_eq_false, Bool.and_eq_true, not_and, List.any_eq_true] at *
  exact fun p hp hb ⟨r, hr, hg⟩ => h p hp hb ⟨r, hq r hr, hg⟩

theorem State.ready_mono (e n : Nat) (rs qs : List RegRef) (h : s.ready e n rs) (hq : ∀ r ∈ qs, r ∈ rs) : s.ready e n qs :=
  ⟨h.1, s.awaits_mono e rs qs h.2.1 hq, h.2.2⟩

/-- Everything that issuing an instruction of `n` bytes on a ready engine does, in terms of what the instruction does. -/
theorem State.issue_ready (e n : Nat) (rs : List RegRef) (f : State → Res) (h : s.ready e n rs) :
    s.issue e n rs f =
      match f (s.past e n) with
      | .done t => t.countInstr e
      | .commit t => t.commitPoint e
      | .settle t => t.commitNow e
      | .fault t u => u.takeException e (if t.next then u.pc e else s.pc e) t
      | .stall => s
      | .wait t => t.setPc e (s.pc e)
      | .kept t => t := by
  obtain ⟨h1, h2, h3, h4⟩ := h
  have h5 : ((s.fetchTrap e).orElse fun _ => if n ≤ 4 then none else (s.setPc e ((s.pc e + 4) % 2 ^ 48)).fetchTrap e) = none := by
    rw [h3]
    by_cases hn : n ≤ 4
    · simp [hn]
    · simpa [hn] using h4 (by omega)
  unfold State.issue
  rw [if_pos (by simp [h1, h2]), h5]
  rfl

/-- An instruction does not issue on an engine that cannot issue. -/
theorem State.issue_blocked (e n : Nat) (rs : List RegRef) (f : State → Res) (h : s.canIssue e = false) : s.issue e n rs f = s := by
  simp [State.issue, h]

/-- An instruction that reads a register which a response is yet to write does not issue. -/
theorem State.issue_awaits (e n : Nat) (rs : List RegRef) (f : State → Res) (h : s.awaits e rs = true) : s.issue e n rs f = s := by
  simp [State.issue, h]

end Sys2Proof.Machine
end

