-- ==== Sys2Proof/Tests/Slice0.lean ====
section
/-! SUPPORT. Small tests of single steps, ill-formed commands that WellFormed refuses, and states that meet the hypotheses of the statements. -/
open Sys2Proof Sys2Proof.Machine
namespace Sys2Proof.Tests
set_option Elab.async false

/-! States. -/

/-- Engine 0 runs machine firmware at the start of the firmware area. -/
def run0 : State := State.reset.modEngine 0 fun x => { x with stopped := false, core := { x.core with pc := 0x2D00000000 } }

/-- `run0` with G registers written. -/
def withG (xs : List (RegNo × TWord)) : State := xs.foldl (fun s p => s.setG 0 p.1 p.2) run0

/-- `run0` with F registers written. -/
def withF (xs : List (RegNo × Word)) : State := xs.foldl (fun s p => s.setF 0 p.1 p.2) run0

/-- Reset state with fields of registers written. -/
def withR (xs : List (Nat × Fld × Nat)) : State := xs.foldl (fun s p => s.wr p.1 p.2.1 p.2.2) State.reset

/-- The state that a command leaves. -/
def runC (c : Instr) (s : State) : State :=
  match exec c s with
  | .next t => t
  | _ => s

/-! Ill-formed commands, one for each check of `wellFormed`. -/

def badBoard : Fuses :=
  { dbgEn := false, serial := 0, mac := 0, owner := Vector.replicate 4 0, revoked := 0, devKey := 0, devPub := Vector.replicate 12 0, classKey := 0, fwMin := 0, patchMin := 0, seqMin := 0, rows := Vector.replicate 3 0, base := [] }

theorem test_wellFormed_lists : wellFormed (.powerOnReset ⟨badBoard, false, [(0, 1), (0, 2)], []⟩) = false ∧
    wellFormed (.powerOnReset ⟨badBoard, false, [], [3, 3]⟩) = false ∧ wellFormed (.triggerFire 0 [1, 1]) = false ∧
    wellFormed (.matchDelayedFire 0 [1, 1]) = false ∧ wellFormed (.migrationDone 0 [7, 7]) = false ∧
    wellFormed (.lockstepRecovery none 0 0 0 [5, 5] false) = false ∧ wellFormed (.mailboxReply [(0, 1), (0, 2)]) = false ∧
    wellFormed (.alloc []) = false ∧ wellFormed (.alloc [⟨0, 0, 1, 0⟩, ⟨0, 0, 2, 0⟩]) = false ∧ wellFormed (.marigoldSubmit []) = false := by decide

theorem test_wellFormed_data : wellFormed (.partialLineWrite ⟨0, 0, 0, 0⟩ 0 [] [] .clean) = false ∧
    wellFormed (.partialLineWrite ⟨0, 0, 0, 0⟩ 0 [(1, 2), (1, 3)] [] .clean) = false ∧ wellFormed (.partialLineWrite ⟨0, 0, 0, 0⟩ 0 [] [(1, 2), (1, 3)] .clean) = false ∧
    wellFormed (.lvsClusterAccess ⟨0, 0, 0, 0⟩ 0 0 false [(1, 2)] [] .idle 0 .clean) = false ∧
    wellFormed (.lvsClusterAccess ⟨0, 0, 0, 0⟩ 0 0 true [(1, 2), (1, 3)] [] .idle 0 .clean) = false ∧
    wellFormed (.flitReceive 0 ⟨0, [], 0⟩) = false ∧ wellFormed (.ctrlFlit 0 ⟨0, [1], 0⟩) = false ∧
    wellFormed (.pcieInboundRequest ⟨0, 0, 0, false, 0, []⟩) = false ∧ wellFormed (.pcieInboundRequest ⟨0, 0, 0, true, 2, [1]⟩) = false ∧
    wellFormed (.pcieInboundRequest ⟨0, 0, 0, false, 1, [1]⟩) = false ∧ wellFormed (.outboundAccess .steward 0 true [] none) = false ∧
    wellFormed (.outboundAccess .steward 0 false [1] none) = false ∧ wellFormed (.pcieLinkUp 3 4 true) = false ∧ wellFormed (.pcieLinkUp 4 2 true) = false := by
  decide

/-! Worked examples of the spec. -/

/-- 01, the example after R26: windows 0 and 1 of a tenant, with window 0 at the PA that the example names. -/
theorem test_window_example :
    (let s : State := { State.reset with cfg := [(cfgKey 4 1 64, [0x012340000000003D, 0xFFFF0]), (cfgKey 4 1 65, [0x000000800025003F, 0x000000FFF0])] };
     s.resolveTa 1 false [.read] 0x1234560 = .ok 0x001235234560 ∧ s.resolveTa 1 false [.read] 0x10000000100 = .ok 0x800002880100) := by decide +kernel

/-- 06, the example after R206: pseudo-channel 76, line 0x48D48D, slice 9. -/
theorem test_dram_example :
    (let s : State := { State.reset with cfg := [(cfgKey 4 0 0, [0, 2 ^ 37, 0])] };
     s.place 0x001235234560 = some (76, 0x48D48D) ∧ s.sliceOf 0x001235234560 = 9) := by decide +kernel

/-- 07, the example of a 32-digit decimal sum: ADDCZ and DADJ of the low words, and ADDC of the high words. -/
theorem test_decimal_sum :
    (let s := withG [(2, ⟨tagU64, 0x7890123456789999⟩), (3, ⟨tagU64, 0x2345678901234567⟩), (4, ⟨tagU64, 0x123456⟩), (5, ⟨tagU64, 1⟩)];
     let a := runC (.addcz 0 6 2 3) s;
     let b := runC (.dadj 0 6 6) a;
     let c := runC (.addc 0 7 4 5) b;
     ((a.g 0 6).val = 0x9BD579BD579BDF00 ∧ a.astat 0 = 3 * 2 ^ 16 ∧ (b.g 0 6).val = 0x0235802358024566 ∧ bits (b.astat 0) 0 1 = 1 ∧
      (c.g 0 7).val = 0x123458 ∧ bits (c.astat 0) 0 33 = 0)) := by decide +kernel

/-- 07 R260, the example: DIV of 1,834,562,907 by 3,200 is 573,300; and the corners of division. -/
theorem test_div : ((runC (.div 0 4 1 2) (withG [(1, ⟨tagI64, 1834562907⟩), (2, ⟨tagI64, 3200⟩)])).g 0 4).val = 573300 ∧
    ((runC (.div 0 4 1 2) (withG [(1, ⟨tagI64, 7⟩), (2, ⟨tagI64, 0⟩)])).g 0 4).val = 0xFFFFFFFFFFFFFFFF ∧
    ((runC (.div 0 4 1 2) (withG [(1, ⟨tagI64, 0x8000000000000000⟩), (2, ⟨tagI64, 0xFFFFFFFFFFFFFFFF⟩)])).g 0 4).val = 0x8000000000000000 := by decide +kernel

/-- 08, the example ANGDIFF: the two microwords, with their CHK bits, and its operands. -/
def angdiff (lev : Tag) : State :=
  let chk (w : Nat) : Nat := (List.range 8).foldl (fun x g => x + (ones 17 (bits w (17 * g) 17) % 2) * 2 ^ (136 + g)) w
  let w0 := chk (0x1041 + 0 * 2 ^ 14 + 0 * 2 ^ 25 + 1 * 2 ^ 30 + 3 * 2 ^ 35 + 1 * 2 ^ 41 + 32 * 2 ^ 44 + 3 * 2 ^ 51 + 4 * 2 ^ 54 + 3 * 2 ^ 69 + 4 * 2 ^ 72)
  let w1 := chk (4 * 2 ^ 14 + 0x10 * 2 ^ 25 + 0x08 * 2 ^ 30 + 3 * 2 ^ 35 + 3 * 2 ^ 41 + 32 * 2 ^ 44 + 1 * 2 ^ 51 + 2 * 2 ^ 57 + 1 * 2 ^ 59)
  let s := (withG [(8, ⟨tagTime, 0x000003E8F0000000⟩), (9, ⟨lev, 0x000003E910000000⟩), (3, ⟨tagI64, 5⟩)]).modEngine 0 fun x =>
    { x with ustore := { x.ustore with words := [(0x5040, BitVec.ofNat 144 w0), (0x5041, BitVec.ofNat 144 w1)] } }
  ((s.wr (Reg.ENG_UDEC 0 5) Reg.ENG_UDEC_VALID 1).wr (Reg.ENG_UDEC 0 5) Reg.ENG_UDEC_ENTRY 0x040)

/-- Its result, +45 degrees with tag I64, and the fault that a tag I64 in G9 takes, which leaves G3. -/
theorem test_angdiff : (runC (.customerInstruction 0 3 8 9 0 5) (angdiff tagTime)).g 0 3 = ⟨tagI64, 0x20000000⟩ ∧
    (runC (.customerInstruction 0 3 8 9 0 5) (angdiff tagI64)).g 0 3 = ⟨tagI64, 5⟩ ∧
    bits (((runC (.customerInstruction 0 3 8 9 0 5) (angdiff tagI64)).core 0).bank 7).save.ecause.toNat 0 8 = cTagMismatch := by decide +kernel

/-- 13, the example after R453: tenant address of handle 0x030123 of tenant 163. -/
theorem test_buffer_example : 0x1000 * 4096 + (0x30123 - 0x30000) * 2 ^ (0 + 8) = 0x01012300 ∧
    ({ State.reset with cfg := [(cfgKey 13 0 3, [0x30000 + 0x1000 * 2 ^ 24, 0])] } : State).bufferPa 3 0x30123 = 0x12300 := by decide +kernel

/-! Single steps. -/

theorem test_step_takes_the_front : (match step { State.reset with pending := [.forceHold true, .bypass] } with
    | .next t => t.pending == [.bypass] && t.flag Reg.GAV_CTRL Reg.GAV_CTRL_FORCE_HOLD
    | _ => false) = true := by decide +kernel

theorem test_add_wraps : (runC (.add 0 4 1 2) (withG [(1, ⟨tagI64, 0xFFFFFFFFFFFFFFFF⟩), (2, ⟨tagI64, 2⟩)])).g 0 4 = ⟨tagI64, 1⟩ := by decide +kernel

theorem test_sub_same_register : (runC (.sub 0 1 1 1) (withG [(1, ⟨tagI64, 9⟩)])).g 0 1 = ⟨tagI64, 0⟩ := by decide +kernel

/-- The sign of an I64 decides SLT and not SLTU. -/
theorem test_slt : ((runC (.slt 0 4 1 2) (withG [(1, ⟨tagI64, 0xFFFFFFFFFFFFFFFF⟩), (2, ⟨tagI64, 2⟩)])).g 0 4).val = 1 ∧
    ((runC (.sltu 0 4 1 2) (withG [(1, ⟨tagI64, 0xFFFFFFFFFFFFFFFF⟩), (2, ⟨tagI64, 2⟩)])).g 0 4).val = 0 := by decide +kernel

theorem test_poison_faults : bits (((runC (.add 0 4 1 2) (withG [(1, ⟨tagPoison, 1⟩), (2, ⟨tagI64, 2⟩)])).core 0).bank 7).save.ecause.toNat 0 8 = cTagPoison := by
  decide +kernel

theorem test_line_write_read : (runC (.lineRead (⟨0, 0, 0, 0⟩ : Xact) 0x100 .clean) (runC (.fullLineWrite (⟨0, 0, 0, 0⟩ : Xact) 0x100 (Vector.replicate 8 ⟨tagF64, 7⟩)) ({ State.reset with cfg := [(cfgKey 4 0 0, [0, 2 ^ 30, 0])] } : State))).answer =
    ⟨0, List.replicate 8 ⟨tagF64, 7⟩⟩ := by decide +kernel

/-- The check value of CRC-32 (14 R471) over the digits 1 to 9, and SHA-384 (15 R503) of abc, FIPS 180-4. -/
theorem test_crc_sha : crc32 [0x31, 0x32, 0x33, 0x34, 0x35, 0x36, 0x37, 0x38, 0x39] = 0xCBF43926 ∧
    beVal (sha384 [0x61, 0x62, 0x63]) =
      0xcb00753f45a35e8bb5a03d699ac65007272c32ab0eded1631a8b605a43ff5bed8086072ba1e7cc2358baeca134c825a7 := by decide +kernel

/-! Witnesses: states that meet the hypotheses of each statement. -/

/-- What `State.ready` asks of any instruction, as a decidable test: no response is awaited, and both parcels can be fetched. -/
def ready? (s : State) (e : Nat) : Bool :=
  s.canIssue e && (s.engine e).pend.isEmpty && (s.fetchTrap e).isNone && ((s.setPc e ((s.pc e + 4) % 2 ^ 48)).fetchTrap e).isNone

theorem ready_of (s : State) (e n : Nat) (rs : List RegRef) (h : ready? s e = true) : s.ready e n rs := by
  simp [ready?, State.ready, State.awaits] at *
  obtain ⟨⟨⟨h1, h2⟩, h3⟩, h4⟩ := h
  exact ⟨h1, by simp [h2], h3, fun _ => h4⟩

theorem witness_TickAdvancesTheTimebase :
    State.reset.pending = [] ∧ State.reset.boot.inReset = false ∧ State.reset.gav.acc + State.reset.angleInc < 2 ^ 64 ∧ State.reset.gav.slew = 0 ∧
    State.reset.flag Reg.GAV_TAI_CTRL Reg.GAV_TAI_CTRL_TEN_MHZ = false ∧ State.reset.gav.frac < 1000000000 ∧
    ({ State.reset with boot := { State.reset.boot with inReset := true } } : State).boot.inReset = true := by decide +kernel

theorem witness_StepRunsTheFrontCommand : ({ State.reset with pending := [.bypass] } : State).pending = .bypass :: [] ∧ State.reset.pending = [] := by
  decide +kernel

theorem witness_MemoryStaysCanonical : State.reset.mem.wf = true ∧ (runC (.scrubSlot 0 .clean) State.reset).mem.wf = true := by decide +kernel

theorem witness_QueueOnlyDrains : wellFormed .bypass = true ∧ wellFormed (.stage .steward 0) = true := by decide +kernel

def alu : State := withG [(1, ⟨tagI64, 5⟩), (2, ⟨tagI64, 3⟩), (3, ⟨tagPtr, 8⟩), (4, ⟨tagTime, 9⟩), (5, ⟨tagRaw, 7⟩)]

theorem witness_AluRegisterResults :
    ready? alu 0 = true ∧ tagAddA (alu.g 0 1).tag = true ∧ addB (alu.g 0 1).tag (alu.g 0 2).tag = true ∧ subB (alu.g 0 1).tag (alu.g 0 2).tag = true ∧
    tagAddA (alu.g 0 3).tag = true ∧ subB (alu.g 0 3).tag (alu.g 0 3).tag = true ∧ tagNRawPtr (alu.g 0 3).tag = true ∧ tagNRaw (alu.g 0 5).tag = true ∧
    tagNRawFix (alu.g 0 5).tag = true ∧ tagN (alu.g 0 2).tag = true ∧ tagNFixPtr (alu.g 0 1).tag = true ∧ sameClass (alu.g 0 1).tag (alu.g 0 2).tag = true ∧
    (alu.g 0 1).tag ≠ tagPoison ∧ (alu.g 0 1).tag ≠ tagEmpty ∧ tagNFix (alu.g 0 1).tag = true ∧ (alu.g 0 4).tag = tagTime := by decide +kernel

theorem witness_ImmediateResults : ready? alu 0 = true ∧ tagAddA (alu.g 0 3).tag = true ∧ tagNRawPtr (alu.g 0 5).tag = true ∧ tagN (alu.g 0 1).tag = true ∧
    tagNRawFix (alu.g 0 5).tag = true ∧ (255 : BitVec 16).toNat < 256 ∧ (15 : BitVec 16).toNat < 16 ∧ (alu.g 0 1).tag ≠ tagPoison ∧ (alu.g 0 1).tag ≠ tagEmpty := by
  decide +kernel

theorem witness_MultiplyDivideResults : ready? alu 0 = true ∧ tagN (alu.g 0 1).tag = true ∧ tagN (alu.g 0 2).tag = true ∧
    (30 : RegNo).toNat % 2 = 0 ∧ (31 : RegNo).toNat % 2 = 1 := by decide +kernel

def dec : State := withG [(1, ⟨tagDec, 0x25C⟩), (2, ⟨tagDec, 0x17D⟩), (3, ⟨tagRaw, 0x12⟩), (4, ⟨tagI64, 0xFFFFFFFFFFFFFFFF⟩)]

theorem witness_DecimalArithmetic : ready? dec 0 = true ∧ tagNRaw (dec.g 0 3).tag = true ∧ (dec.g 0 1).tag = tagDec ∧ (dec.g 0 2).tag = tagDec ∧
    d15Valid (dec.g 0 1).val.toNat = true ∧ d15Valid (dec.g 0 2).val.toNat = true ∧
    (d15Res (d15Val (dec.g 0 1).val.toNat + d15Val (dec.g 0 2).val.toNat)).2 = 0 ∧ (d15Res (d15Val (dec.g 0 1).val.toNat - d15Val (dec.g 0 2).val.toNat)).2 = 0 ∧
    (dec.g 0 4).tag = tagI64 ∧ (d15Res (dec.g 0 4).val.toInt).2 = 0 ∧ (d15Shl 1 (dec.g 0 1).val.toNat).2 = 0 ∧ (d15Shr 1 (dec.g 0 1).val.toNat).2 = 0 := by
  decide +kernel

theorem witness_BranchesAndJumps : ready? alu 0 = true ∧ (alu.g 0 1).tag ≠ tagPoison ∧ (alu.g 0 1).tag ≠ tagEmpty ∧ tagNFixPtr (alu.g 0 1).tag = true ∧
    sameClass (alu.g 0 1).tag (alu.g 0 2).tag = true ∧ (15 : BitVec 5).toNat < 16 ∧ (alu.g 0 3).tag = tagPtr ∧
    ((alu.g 0 3).val + (4 : BitVec 16).signExtend 64).toNat % 4 = 0 ∧ ((alu.g 0 3).val + (4 : BitVec 16).signExtend 64).toNat < 2 ^ 48 := by decide +kernel

/-- One interleaved region of DRAM and a window of tenant 0 over its first 16 MiB, 06 R204 and 01 R24. -/
def mem0 : State := { State.reset with cfg := [(cfgKey 4 0 0, [0, 2 ^ 30, 0]), (cfgKey 4 1 0, [0x3D, 0xFFF0])] }

/-- Engine 0 at level `l` in bank 0, whose tenant's window holds its program counter. -/
def atLev (l : Nat) : State := mem0.modEngine 0 fun x => { x with stopped := false, core := { x.core with pc := 0x1000, lev := l, run := 0 } }

/-- A bank in platform time with `k` as its ESTAT. -/
def saved (s : State) (b : Nat) (k : Nat) : State := s.modBank 0 b fun x => { x with save := { x.save with estat := BitVec.ofNat 64 k } }

/-- A FENCE of `run0` has made its commit. -/
def fenced : State := run0.modEngine 0 fun x => { x with fenced := true }

theorem witness_SystemAndReturn : ready? run0 0 = true ∧ ready? (atLev 0) 0 = true ∧ ready? (atLev 1) 0 = true ∧ run0.lev 0 = 3 ∧ (atLev 0).lev 0 = 0 ∧
    (((run0.past 0 4).commitNow 0).drainOut 0).outBusy 0 = false ∧ (run0.vsu 0 (run0.core 0).run).busy &&& (0x3F : BitVec 16).toNat = 0 ∧
    (30 : RegNo).toNat % 2 = 0 ∧ (run0.core 0).feh = false ∧ bits (((run0.core 0).bank (run0.levBank 0 3)).save).eprog.toNat 45 1 = 0 ∧
    (run0.past 0 4).atFence 0 = false ∧ ready? fenced 0 = true ∧ (fenced.past 0 4).atFence 0 = true ∧ ((fenced.past 0 4).drainOut 0).outBusy 0 = false ∧
    ((atLev 1).core 0).feh = false ∧ bits ((((atLev 1).core 0).bank ((atLev 1).levBank 0 1)).save).eprog.toNat 45 1 = 0 := by decide +kernel

theorem witness_ControlRegisterAccess : ready? alu 0 = true ∧ ready? (atLev 0) 0 = true ∧
    (crInfo 0).any (fun i => i.rl ≤ 3 && i.wl ≤ 3 && !i.wo) = true ∧ (crInfo 1).any (fun i => i.wl ≤ 3 && !i.wo) = true ∧ tagN (alu.g 0 1).tag = true ∧
    (crInfo 0x145).any (fun i => decide (i.rl ≤ 3)) = true ∧ run0.niM 0 = false ∧ (saved run0 7 0xC000).niM 0 = true ∧ ready? (saved run0 7 0xC000) 0 = true ∧
    ([0, 511, 512].all fun n => ((saved run0 7 0xC000).modCore 0 fun c => { c with nitime := n }).crRead 0 0x145 == n) = true ∧
    (crInfo 0x146).any (fun i => i.wl ≤ 3 && !i.wo) = true ∧ (run0.core 0).fehLocked = false ∧ ready? (run0.modCore 0 fun c => { c with fehLocked := true }) 0 = true ∧
    (crInfo 0x145).any (fun i => i.wl == 4) = true ∧ (crInfo 0x010).any (fun i => i.wl == 4) = true ∧ (atLev 0).lev 0 = 0 ∧
    ([0, 1, 4].all fun v => decide (((0 : Nat) ||| v) % 8 ≤ 4)) = true ∧ ((List.range 0x200).any fun k => (crInfo k).any fun i => decide (0 < i.rl)) = true := by decide +kernel

def flt : State := withF [(1, 0x3FF0000000000000), (2, 0x4000000000000000)]

theorem witness_FloatingPoint : ready? flt 0 = true ∧ fmtOf 2 = some f64 ∧ (5 : BitVec 3).toNat ≤ 5 ∧
    trapCause (f64.add 0 ((flt.f 0 1).toNat % 2 ^ 64) ((flt.f 0 2).toNat % 2 ^ 64)).2 (flt.vfcsr 0) = 0 ∧
    trapCause (f64.cmp 0 false ((flt.f 0 1).toNat % 2 ^ 64) ((flt.f 0 2).toNat % 2 ^ 64)).2 (flt.vfcsr 0) = 0 := by decide +kernel
/-- An idle entry `q` of the engine port, governed by stream `d`. -/
def lvEnt (q elem : Nat) (d : Word × Word) : LvEntry :=
  ⟨q, .fill, none, none, none, some d, some 5, 0, 0, 3, 0x10000, elem, 0, [], false, 0, 0, 0, false, false, [], [], none, none⟩

/-- Entry 2 of bank 7's queue is in use. -/
def busyLv : State := run0.modVsu 0 7 fun v => { v with ents := [lvEnt 2 0 (0, 0x100)] }

theorem witness_SystemAndReturn_wait : ready? busyLv 0 = true ∧ ((busyLv.vsu 0 (busyLv.core 0).run).busy &&& (1 : BitVec 16).toNat) ≠ 0 := by decide +kernel

/-- The FADD, FMUL and integer forms fit every element type they take. -/
theorem witness_ShortVectorResults : ready? flt 0 = true ∧
    ([(0, 0), (0, 1), (0, 4), (0, 5), (0, 8), (0, 9), (0, 10), (0, 11), (0, 12), (0, 13), (1, 0), (1, 1)].all fun p =>
      typesOk p.1 p.2 2 2 2 (shortDest p.1 p.2 2 0) true && modOk p.1 p.2 2 (shortDest p.1 p.2 2 0) 0 false &&
        etSize (shortDest p.1 p.2 2 0) == etSize 2 && !checksDec p.1 p.2 2) = true ∧
    ([(0, 2), (0, 3)].all fun p => typesOk p.1 p.2 2 2 2 (shortDest p.1 p.2 2 0) true && modOk p.1 p.2 2 (shortDest p.1 p.2 2 0) 0 false) = true := by
  decide +kernel

/-- A tenant whose exceptions are delegated to its level S, with its S exception registers free. -/
def deleg : State := saved ((atLev 0).modEngine 0 fun x => { x with core := { x.core with mdeleg := 0xFFFFFFFF, pdeleg := 0xFFFFFFFF } }) 0 0x4000

/-- The exception registers of bank 7 are free: SAVED of M is 1 after reset. -/
theorem witness_ExceptionEntrySavesAndVectors : (run0.core 0).feh = false ∧ (run0.core 0).run < 8 ∧ (run0.core 0).lev < 4 ∧
    ¬ ((run0.core 0).run < 6 ∧ 2 ≤ (run0.route 0 0x07).1) ∧ (run0.route 0 0x07).1 = 3 ∧ run0.saved 0 3 = true ∧
    ((atLev 1).route 0 0x07).1 = 3 ∧ (deleg.route 0 0x07).1 = 1 := by
  decide +kernel

theorem witness_TenantExceptionIsHeld : ((atLev 0).core 0).feh = false ∧ ((atLev 0).core 0).run < 6 ∧ 2 ≤ ((atLev 0).route 0 0x07).1 := by decide +kernel

/-- Engine 0 with changed core. -/
def withCore (f : Core → Core) : State := run0.modCore 0 f

def heldP : HeldRec := ⟨0x12, 0, 0, 7, 2, false⟩
def heldM : HeldRec := ⟨0x12, 0, 0, 7, 3, false⟩

theorem witness_EntriesHandlersAndCommands_entry : run0.canEnter 0 = true ∧ (run0.core 0).idle = false ∧ ((run0.core 0).bank 7).slotExp = none ∧
    run0.fetchTrap 0 = none ∧ ((run0.core 0).bank 7).faultTaken = false ∧
    ((run0.modVsu 0 7 fun v => { v with fault := some ⟨1, 0, 0, 0⟩ }).vsu 0 7).fault = some ⟨1, 0, 0, 0⟩ ∧
    ((withCore fun c => { c with pc := 0x3000000000 }).fetchTrap 0).isSome = true ∧
    (((run0.modBank 0 7 fun x => { x with slotExp := some 63 }).core 0).bank 7).slotExp = some 63 ∧
    ((withCore fun c => { c with feh := true }).core 0).feh = true ∧ run0.promptDue 0 = none ∧ run0.inProgress 0 = none ∧ run0.canIssue 0 = true ∧
    (run0.core 0).deferred = [] ∧ run0.faultWaits 0 = none ∧ ((run0.core 0).bank 7).gate = .free ∧
    (run0.modVsu 0 7 fun v => { v with fault := some ⟨1, 0, 0, 0⟩ }).faultWaits 0 = some ⟨1, 0, 0, 0⟩ ∧
    (((withCore fun c => { c with deferred := [⟨7, cBus, 0x100000, 0⟩] }).core 0).deferred.find? fun d => d.bank == 7) = some ⟨7, cBus, 0x100000, 0⟩ ∧
    (withCore fun c => { c with deferred := [⟨7, cBus, 0x100000, 0⟩] }).canEnter 0 = true := by decide +kernel

theorem witness_EntriesHandlersAndCommands_held :
    ((run0.modBank 0 0 fun x => { x with held := some heldP }).core 0).heldWaits = some (0, heldP) ∧
    ((run0.modBank 0 5 fun x => { x with held := some heldM }).core 0).heldWaits = some (5, heldM) ∧
    run0.platformTime 0 = true ∧ (run0.core 0).feh = false ∧ heldP.target ≠ 3 ∧ heldM.target = 3 ∧ run0.saved 0 3 = true ∧ run0.niM 0 = false ∧
    ((withCore fun c => { c with lev := 2, run := 6 }).core 0).lev ≤ 2 ∧ run0.saved 0 2 = true ∧
    (run0.modBank 0 6 fun x => { x with save := { x.save with estat := 0x4000 } }).iml 0 2 ≠ 15 ∧
    (run0.modBank 0 7 fun x => { x with save := { x.save with estat := 0xC000 } }).niM 0 = true ∧
    ((run0.modEngine 0 fun x => { x with promptCopy := some 0x2D00001000 }).engine 0).promptCopy = some 0x2D00001000 ∧
    ((withCore fun c => { c with promptHeld := some ⟨256, false, false⟩ }).core 0).promptHeld = some ⟨256, false, false⟩ ∧
    (withCore fun c => { c with promptHeld := some ⟨256, false, false⟩ }).canEnter 0 = true ∧
    (withCore fun c => { c with promptHeld := some ⟨256, false, false⟩ }).promptHold 0 false = false ∧
    (withCore fun c => { c with promptHeld := some ⟨256, false, false⟩, feh := true }).promptHold 0 false = true := by decide +kernel

/-- Source 300 pends for the M bank of engine 0 with priority 63. -/
def irqM : State :=
  State.refreshAll ((((((run0.wr (Reg.IC_SRC_CFG 300) Reg.IC_SRC_CFG_EN 1).wr (Reg.IC_SRC_CFG 300) Reg.IC_SRC_CFG_LEV 2).wr (Reg.IC_SRC_CFG 300) Reg.IC_SRC_CFG_PRIO 63).wr
    (Reg.IC_SRC_TGT 300 0) Reg.IC_SRC_TGT_ENG 1).setSrc 300 { (run0.src 300) with count := 1 }))

theorem witness_EntriesHandlersAndCommands_interrupt : irqM.canEnter 0 = true ∧ irqM.promptDue 0 = none ∧ irqM.inProgress 0 = none ∧
    ((irqM.core 0).bank 7).slotExp = none ∧ (irqM.core 0).deferred = [] ∧ irqM.faultWaits 0 = none ∧ (irqM.core 0).feh = false ∧ irqM.heldReady 0 = none ∧
    irqM.irqTaken 0 = some (3, 300) := by decide +kernel

theorem witness_EntriesHandlersAndCommands_commands : ready? run0 0 = true ∧ run0.lev 0 = 3 ∧ (run0.core 0).banksel < 6 ∧
    (((run0.modBank 0 0 fun x => { x with held := some heldP }).core 0).bank 0).held.isSome = true ∧
    ready? (run0.modBank 0 0 fun x => { x with held := some heldP }) 0 = true ∧ ready? (atLev 0) 0 = true ∧ (atLev 0).lev 0 = 0 := by decide +kernel

/-- Slot 63 of engine 0 is an EVERY slot of bank 0 with a budget. -/
def slots : State := ((run0.wr (Reg.ENG_SLOTA 0 63) Reg.ENG_SLOTA_MODE 1).wr (Reg.ENG_SLOTB 0 63) Reg.ENG_SLOTB_BUDGET 5000).modCore 0 fun c => { c with idle := true }

/-- Engine 0 in slot 63. -/
def inSlot : State := (slots.modEngine 0 fun x => { x with inSlot := some 63 }).setSlotPhase 0 1

theorem witness_SlotDelivery : slots.slotEnabled 0 63 = true ∧ slots.hoPhase 0 ≠ 4 ∧ (slots.engine 0).stopped = false ∧ (slots.engine 0).inSlot = none ∧
    slots.flag (Reg.ENG_TNG_STAT 0) Reg.ENG_TNG_STAT_RECOV = false ∧ (slots.core 0).feh = false ∧ (slots.core 0).idle = true ∧
    slots.slotEnabled 0 0 = false ∧ (inSlot.engine 0).inSlot.isSome = true ∧
    (inSlot.wr (Reg.ENG_SLOT_STAT 0) Reg.ENG_SLOT_STAT_REMAIN 2000).slotPhase 0 = 1 ∧
    (inSlot.wr (Reg.ENG_SLOT_STAT 0) Reg.ENG_SLOT_STAT_REMAIN 2000).holdsOn 0 = false ∧
    ((inSlot.setSlotPhase 0 3).wr (Reg.ENG_SLOT_STAT 0) Reg.ENG_SLOT_STAT_REMAIN 0).slotPhase 0 ≠ 1 ∧
    ((inSlot.setSlotPhase 0 3).wr (Reg.ENG_SLOT_STAT 0) Reg.ENG_SLOT_STAT_REMAIN 0).flag (Reg.ENG_TNG_STAT 0) Reg.ENG_TNG_STAT_RECOV = false ∧
    slots.tenantSlot 0 = false ∧ inSlot.tenantSlot 0 = true ∧
    ((inSlot.modEngine 0 fun x => { x with reserveRec := 2 }).engine 0).reserveRec = 2 ∧
    ((inSlot.wr (Reg.ENG_TNG_STAT 0) Reg.ENG_TNG_STAT_RECOV 1).wr (Reg.ENG_SLOT_STAT 0) Reg.ENG_SLOT_STAT_REMAIN 0).flag (Reg.ENG_TNG_STAT 0) Reg.ENG_TNG_STAT_RECOV = true ∧
    run0.tenantSlot 0 = false ∧ (run0.core 0).idle = false ∧ (run0.core 0).feh = false ∧ (run0.core 0).prompting = none ∧ (run0.engine 0).stopped = false ∧
    run0.flag (Reg.ENG_TNG_STAT 0) Reg.ENG_TNG_STAT_RECOV = false ∧ (run0.engine 0).inSlot = none := by decide +kernel

/-- Engine 0 with a commit in the checkpoint store's queue. -/
def committed : State := run0.modEngine 0 fun x => { x with commit := some ⟨x.core, 0, none⟩ }

theorem witness_CheckpointAndRecovery : (committed.engine 0).commit.isSome = true ∧ (run0.engine 0).commit = none ∧ (run0.engine 0).stopped = false ∧
    run0.flag (Reg.ENG_TNG_STAT 0) Reg.ENG_TNG_STAT_RECOV = false ∧ (recent run0.gav.mono (run0.engine 0).recHist).length < 3 ∧ (run0.engine 0).inSlot = none ∧
    run0.hoPhase 0 = 0 ∧ run0.heldSlice 0 0 = none ∧ (recent run0.gav.mono run0.upd.stw).length < 3 ∧
    (run0.wr (Reg.ENG_TNG_STAT 0) Reg.ENG_TNG_STAT_RECOV 1).flag (Reg.ENG_TNG_STAT 0) Reg.ENG_TNG_STAT_RECOV = true ∧ kindGrp 0 0 = true ∧ run0.slotPhase 0 ≠ 2 ∧
    (((((run0.assert 848).recordReg 848 (unitEngine 0) (Reg.ENG_TNG_MISM 0)).resumeSlots 0).stopPlat 0).core 0).promptHeld = none := by decide +kernel

/-- Cluster 0 with position 0 ACTIVE behind index 0 and a fit spare at position 12. -/
def cluster : State := run0.setRole 12 1

def clu (phase src dst : Nat) : State :=
  ((cluster.wr (Reg.CLU_HOSTAT 0) Reg.CLU_HOSTAT_PHASE phase).wr (Reg.CLU_HOSTAT 0) Reg.CLU_HOSTAT_SRC src).wr (Reg.CLU_HOSTAT 0) Reg.CLU_HOSTAT_DST dst

theorem witness_ClusterRedundancy : cluster.hoCan 0 0 = true ∧ cluster.hoCan 0 11 = true ∧
    (cluster.setRole 12 2).role 12 = 2 ∧ (cluster.setRole 12 3).role 12 = 3 ∧ cluster.rd (Reg.ENG_TNG_STAT 12) Reg.ENG_TNG_STAT_RETCNT ≠ 3 ∧ cluster.hoPhase 0 = 0 ∧
    (cluster.setRole 12 5).role 12 = 5 ∧ ((cluster.wr (Reg.CLU_RED 0) Reg.CLU_RED_MODE 2).rd (Reg.CLU_RED 0) Reg.CLU_RED_MODE ≠ 0) ∧
    (((List.range 12).find? fun i => (cluster.setSpmap 0 11 15).spmap 0 i == 15) = some 11) ∧
    (((List.range 12).find? fun i => cluster.spmap 0 i == 15) = none) ∧
    (clu 1 0 12).hoPhase 0 = 1 ∧ (clu 2 0 12).hoPhase 0 = 2 ∧ (clu 5 12 0).hoPhase 0 = 5 ∧ (clu 4 0 12).hoPhase 0 = 4 ∧
    ({ (clu 2 0 12) with upd := { (clu 2 0 12).upd with ho := [(0, (false, 100, 2 ^ 32 - 100))] } } : State).gapTimedOut 0 = true ∧
    ((clu 2 0 12).engine ((clu 2 0 12).hoSrc 0)).inSlot = none ∧ ((clu 2 0 12).engine ((clu 2 0 12).hoSrc 0)).stopped = false ∧
    ((clu 2 0 12).engine ((clu 2 0 12).hoSrc 0)).pend = [] ∧ ((clu 2 0 12).core ((clu 2 0 12).hoSrc 0)).feh = false ∧
    (clu 2 0 12).gapFits 0 = true ∧ ((clu 2 0 12).handover 0).1 = false ∧
    (clu 2 0 12).flag (Reg.ENG_TNG_STAT ((clu 2 0 12).hoSrc 0)) Reg.ENG_TNG_STAT_RECOV = false ∧ (clu 5 12 0).storesGood 12 = true ∧ (clu 2 0 12).updRuns 0 = false ∧
    (clu 4 0 12).role ((clu 4 0 12).hoDst 0) ≠ 7 ∧ (clu 4 0 12).rd (Reg.ENG_CHN_CFG ((clu 4 0 12).hoSrc 0)) Reg.ENG_CHN_CFG_POS = 0 := by decide +kernel


/-- The long-vector state: A at 0x100000 and D at 0x200000, ten elements of type 2 each. -/
def lvS : State :=
  [(2, ⟨tagDesc, 0x0002000000100000⟩), (3, ⟨tagDesc, 10⟩), (4, ⟨tagDesc, 0x0002000000200000⟩), (5, ⟨tagDesc, 10⟩)].foldl
    (fun s (p : RegNo × TWord) => s.setG 0 p.1 p.2) ({ run0 with cfg := mem0.cfg } : State)

/-- Parcel 1 that names A in pair 1 and D in pair 2. -/
def lvP1 : BitVec 32 := 0x00092001

theorem witness_LongVectorIssue_form : longVector (.vneg 0 0 0 lvP1) = some (0, .op ⟨0, 2, 0⟩ 0, lvP1) := rfl

/-- The parcel of a VNEG of `lvS`, whose checks of issue all pass, and of one with no element (LEN = START). -/
theorem witness_LongVectorIssue :
    ready? lvS 0 = true ∧ lvS.pc 0 < 2 ^ 48 ∧
    ([0, 3].all fun k => useBit lvP1.toNat k && decide ((lvS.lvReg 0 lvP1.toNat k 0).tag = tagDesc) && decide ((lvS.lvReg 0 lvP1.toNat k 1).tag = tagDesc)) = true ∧
    ([1, 2].all fun k => !useBit lvP1.toNat k) = true ∧
    ((lvS.lvDesc 0 lvP1.toNat 0).any fun d => decide (dLen d ≤ dStart d)) = false ∧
    (((lvS.setG 0 3 ⟨tagDesc, 0x00000A00000A⟩).lvDesc 0 lvP1.toNat 0).any fun d => decide (dLen d ≤ dStart d)) = true ∧
    (let x := lvS.lvEntry 0 (lvS.pc 0) lvP1.toNat (.op ⟨0, 2, 0⟩) none
     bits lvP1.toNat 29 1 = 0 ∧ (lvS.past 0 8).lvIllegal 0 (.op ⟨0, 2, 0⟩ 0) lvP1.toNat x false = false ∧ (lvS.past 0 8).pflAway 0 x = false ∧
     (lvS.past 0 8).lvAddrTrap 0 x = none ∧
     ((if x.d.any dPfl then [4, 5] else [0, 1, 2, 3]).find? fun q => ((lvS.vsu 0 (lvS.core 0).run).ent q).isNone) = some 0) := by decide +kernel

/-- `lvS` with the VNEG in entry 0 of the advancing bank. -/
def lvIn : State := (runC (.fullLineWrite ⟨0, 0, 0, 0⟩ 0x4000 (Vector.replicate 8 ⟨5, 7⟩)) lvS).modVsu 0 7 fun v => { v with ents := [{ lvS.lvEntry 0 0x2D00000000 lvP1.toNat (.op ⟨0, 2, 0⟩) none with vt := 0 }] }

/-- The entry of `lvIn`. -/
def lvX : LvEntry := { lvS.lvEntry 0 0x2D00000000 lvP1.toNat (.op ⟨0, 2, 0⟩) none with vt := 0 }

/-- `lvIn` with poisoned data in the source: its block faults. -/
def lvBad : State := { lvIn with mem := { lvIn.mem with lines := [(lvIn.cell 0x4000, ⟨2, 0, 0, 0, 0⟩)] } }

/-- `lvIn` with its last block committed and not acknowledged. -/
def lvEnd : State := lvIn.modEnt 0 7 0 fun y => { y with elem := 10, unacked := [(0, 0)] }

theorem witness_LongVectorProgress :
    lvIn.vsuBank 0 = 7 ∧ lvIn.lineRoom 0 (lvIn.lvCompute 0 7 lvX 0 (min 64 lvX.len) [] []).1.writes = true ∧ lvX.elem = 0 ∧ lvX.carry = [] ∧ (lvIn.vsu 0 7).ent 0 = some lvX ∧ lvIn.lvReady 0 7 lvX = true ∧ lvX.ring = false ∧ lvX.ringDst = false ∧ lvX.rewinds < 7 ∧
    (lvIn.lvCompute 0 7 lvX 0 (min 64 lvX.len) [] []).1.wait = false ∧ (lvIn.lvCompute 0 7 lvX 0 (min 64 lvX.len) [] []).1.fault = none ∧
    lvBad.lvReady 0 7 lvX = true ∧ (lvBad.lvCompute 0 7 lvX 0 (min 64 lvX.len) [] []).1.wait = false ∧
    (lvBad.lvCompute 0 7 lvX 0 (min 64 lvX.len) [] []).1.fault.isSome = true ∧
    (((lvEnd.vsu 0 7).ent 0).any fun x => decide (x.len ≤ x.elem) && x.unacked.all (fun p => p.2 == respOk) &&
      (x.unacked.find? (fun p => p.1 / 64 == (0 : BitVec 18).toNat) == some (0, respOk))) = true ∧
    (lvEnd.vsu 0 0).ent 5 = none ∧ (lvEnd.vsu 0 7).frozen = false := by decide +kernel

/-- Engine 0 with `down` on the link into it and `up` on the link back to it. -/
def ringS (down : List LinkItem) (up : List UpItem) (sync : Bool) : State := run0.modRing 0 fun r => { r with inLink := down, upLink := up, synced := sync }

/-- A block whose operands were good. -/
def ringB : RingBlock := ⟨3, 192, 256, [], 0, [], false, true, 0, 7, 0⟩

theorem witness_RingLinks :
    ((ringS [.header 10 0] [] false).ring 0).inLink = .header 10 0 :: [] ∧
    ((ringS [.beat 1 [] true] [] true).ring 0).inLink = .beat 1 [] true :: [] ∧ ((ringS [.beat 1 [] true] [] true).ring 0).synced = true ∧ ((ringS [.beat 1 [] false] [] false).ring 0).synced = false ∧
    ((ringS [.endMarker true] [] true).ring 0).inLink = .endMarker true :: [] ∧ ((ringS [.endMarker true] [] true).ring 0).synced = true ∧
    ((ringS [.rewindMarker] [] true).ring 0).inLink = .rewindMarker :: [] ∧ ((ringS [.pauseMarker] [] true).ring 0).inLink = .pauseMarker :: [] ∧
    ((ringS [] [.credit 64] true).ring 0).upLink = .credit 64 :: [] ∧
    ((run0.modRing 0 fun r => { r with blocks := [ringB] }).ring 0).blocks = ringB :: [] ∧ ringB.good = true ∧
    ((((run0.modRing 0 fun r => { r with blocks := [ringB] }).vsu 0 ringB.bank).ent ringB.qe).any (fun x => x.ringDst)) = false ∧
    (((ringS [] [.commit 3] true).modRing 0 fun r => { r with blocks := [ringB] }).ring 0).upLink = .commit 3 :: [] ∧
    (((ringS [] [.commit 3] true).modRing 0 fun r => { r with blocks := [ringB] }).ring 0).blocks = ringB :: [] ∧ ringB.blk = 3 ∧
    ((ringS [] [.freeze ⟨1, 0, 0, 1, 0⟩] true).ring 0).upLink = .freeze ⟨1, 0, 0, 1, 0⟩ :: [] ∧
    ((ringS [.freeze ⟨1, 0, 0, 1, 0⟩] [] true).ring 0).inLink = .freeze ⟨1, 0, 0, 1, 0⟩ :: [] := by decide +kernel

def frozeRing : State := (run0.modVsu 0 7 fun v => { v with ents := [{ lvX with a := some (0x0002000000100000, 0x100000000000A) }] }).modRing 0
  fun r => { r with freeze := some ⟨0, 0, 0, 1, 0⟩ }

theorem witness_RingLinks_freeze : (frozeRing.ring 0).freeze = some ⟨0, 0, 0, 1, 0⟩ ∧ (frozeRing.ringEnt 0).any (fun p => decide (0 ≤ p.2.elem / 64)) = true ∧
    (frozeRing.ring 0).blocks = [] ∧ (frozeRing.ring 0).own = none := by decide +kernel

/-- `mem0` with line 0 as a slice has it: state `st`. -/
def lineSt (st : Nat) : State := { mem0 with mem := { mem0.mem with lines := [(mem0.cell 0, ⟨st, 0, 0, 0, 0⟩)] } }

/-- `mem0` with an uncorrectable codeword in line 0. -/
def flawS : State := { mem0 with mem := mem0.mem.setFlaw (mem0.cell 0) .uncorrectable }

/-- A request of the first host under KEYID 0. -/
def xact : Xact := ⟨0, 0, 0, 0⟩

theorem witness_LineReadsAndWrites : mem0.place 0 ≠ none ∧ (mem0.lockUnit (mem0.sliceOf 0)).held = false ∧ mem0.keyErr 0 xact.key.toNat = false ∧
    mem0.dirtyLine 0 = none ∧ mem0.remapLost 0 .clean = false ∧ mem0.dramBarred 0 0 0 = false ∧ mem0.dramBarred 27 0 0 = true ∧ mem0.dramBarred 24 0 0xB4000000 = true ∧
    mem0.finds 0 .clean = .clean ∧ flawS.finds 0 .clean = .uncorrectable ∧ flawS.dirtyLine 0 = none ∧ coversLine [(63, 9)] [] = false ∧ ((lineSt 0).line 0).st = 0 ∧ (lineSt 0).itagOk 0 0 = true ∧ (lineSt 0).itagOk 0 1 = false ∧ mem0.keyErr 0 1 = false ∧
    ((lineSt 1).line 0).st = 1 ∧ 2 ≤ ((lineSt 2).line 0).st ∧ (lineSt 1).place 0 ≠ none ∧ (lineSt 2).keyErr 0 0 = false ∧ (lineSt 2).dirtyLine 0 = none := by
  decide +kernel

theorem witness_ReadAfterFullLineWrite : mem0.place (0xFFFFFF * 64) ≠ none ∧ (mem0.lockUnit (mem0.sliceOf (0xFFFFFF * 64))).held = false ∧
    mem0.keyErr 0xFFFFFF xact.key.toNat = false ∧ mem0.remapLost 0xFFFFFF .clean = false ∧ mem0.dramBarred 15 12 0xFFFFFF = false ∧ xact.key = xact.key := by decide +kernel

/-- `mem0` with line 0 held by caching master 0 in state `st`, with the words that its cache holds. -/
def dirS (st ev : Nat) (data : Bool) : State :=
  { mem0 with mem := { mem0.mem with dir := [(0, ⟨st, 1, 0, ev, 0⟩)], copies := if data then [(0, List.replicate 8 ⟨tagU64, 7⟩)] else [] } }

theorem witness_CoherenceAndDefaultTarget : (dirS 3 0 true).place 0 ≠ none ∧ ((dirS 3 0 true).lockUnit ((dirS 3 0 true).sliceOf 0)).held = false ∧
    (dirS 3 0 true).keyErr 0 0 = false ∧ bits ((dirS 3 0 true).dirEntry 0).sharers 0 1 = 1 ∧ ((dirS 3 0 true).dirtyLine 0).isSome = true ∧
    ((dirS 3 0 true).dirEntry 0).st = 3 ∧ ((dirS 3 0 true).dirEntry 0).evicting ≠ 4 ∧ ((dirS 3 4 true).dirEntry 0).evicting = 4 ∧
    ((dirS 3 4 true).dirEntry 0).st = 3 ∧ ((dirS 2 0 false).dirEntry 0).st ≠ 3 ∧ ((dirS 2 0 false).dirEntry 0).st = 2 ∧ (dirS 2 0 false).holds 0 0 = true ∧
    (dirS 3 0 true).holds 0 0 = true ∧ (dirS 2 0 false).dirtyLine 0 = none ∧ (dirS 3 0 true).holds 0 16 = false ∧ (dirS 3 0 true).remapLost 0 .clean = false ∧ (dirS 3 0 true).dramBarred 16 0 0 = false ∧ (atLev 0).dramBarred 0 0 0xB4000000 = true ∧
    bits ((dirS 3 0 true).dirEntry 0).sharers 16 1 = 0 ∧
    27 ≤ (⟨27, 0, 0, 0⟩ : Xact).mid.val ∧ xact.mid.val < 27 := by decide +kernel

theorem witness_MemoryMaintenance : (mem0.paOfCell 255 0).isSome = true ∧ mem0.mem.flaw (255 * 2 ^ 24) = .clean ∧ mem0.stackHolds 255 = false ∧ (mem0.setPcState 255 7).stackHolds 255 = false ∧ (mem0.sliceRegion 31 0).isSome = true ∧
    mem0.flag (Reg.SLC_STAT 31) Reg.SLC_STAT_SANIT_BUSY = false ∧
    ((mem0.wr (Reg.SLC_STAT 31) Reg.SLC_STAT_SANIT_BUSY 1).flag (Reg.SLC_STAT 31) Reg.SLC_STAT_SANIT_BUSY = true) ∧
    (mem0.sliceRegion 31 (mem0.rd (Reg.SLC_SANIT 31) Reg.SLC_SANIT_REGION)).isSome = true ∧ mem0.pcState 255 = 0 ∧
    ([1, 2, 3, 4, 7].all fun k => (mem0.setPcState 255 k).pcState 255 == k) = true ∧
    ((((mem0.wr (Reg.SLC_STAT 31) Reg.SLC_STAT_MIG_ACTIVE 1).wr (Reg.SLC_STAT 31) Reg.SLC_STAT_MIG_PC 7).setPcState 255 1).flag (Reg.SLC_STAT 31)
      Reg.SLC_STAT_MIG_ACTIVE = true) ∧
    ((((mem0.wr (Reg.SLC_STAT 31) Reg.SLC_STAT_MIG_ACTIVE 1).wr (Reg.SLC_STAT 31) Reg.SLC_STAT_MIG_PC 7).setPcState 255 1).rd (Reg.SLC_STAT 31)
      Reg.SLC_STAT_MIG_PC = 7) ∧ Requester.pf ≠ .steward := by decide +kernel

/-- Engine 207 with its background test in phase `p` at region `r`. -/
def fox (p r : Nat) : State := (((run0.wr (Reg.FOX_CTRL 207) Reg.FOX_CTRL_EN 1).wr (Reg.FOX_STAT 207) Reg.FOX_STAT_REGION r).setFoxPhase 207 p)

theorem witness_LocalStorePortAndTest : (⟨26, 0, 0, 0⟩ : Xact).mid.val < 27 ∧ 27 ≤ (⟨42, 0, 0, 0⟩ : Xact).mid.val ∧ 42 - 27 ≠ clusterOf 0 ∧
    run0.busyRun (busyKey 26 0 0 131071) < 8 ∧ (fox 0 4127).flag (Reg.FOX_CTRL 207) Reg.FOX_CTRL_EN = true ∧ (fox 0 4127).foxPhase 207 = 0 ∧
    (fox 0 4127).flag (Reg.FOX_STAT 207) Reg.FOX_STAT_EXHAUSTED = false ∧ (fox 1 0).foxPhase 207 = 1 ∧ (fox 2 0).foxPhase 207 = 2 ∧ (fox 3 0).foxPhase 207 = 3 ∧ 7 ∉ mergedWords [(0, 1)] [] ∧
    (run0.setBusy (busyKey 26 0 0 131071) 0).lvsFlaw 0 (16383 * 64 + 56) = .clean ∧
    (fox 4 4126).foxPhase 207 = 4 ∧ (fox 4 4126).foxRegion 207 + 1 < 4128 ∧ (fox 4 4127).foxPhase 207 = 4 ∧ 4128 ≤ (fox 4 4127).foxRegion 207 + 1 := by
  decide +kernel

/-- Engine 0 with base registers, and lines 0x4000 (words of tag `tg`) and 0x4001 (EMPTY) of DRAM. -/
def ldS (tg : Tag) : State :=
  (((runC (.fullLineWrite xact 0x4000 (Vector.replicate 8 ⟨tg, 0x8080⟩)) ({ run0 with cfg := mem0.cfg } : State)).setG 0 1 ⟨tagPtr, 0x100000⟩).setG 0 2
    ⟨tagI64, 5⟩).setG 0 3 ⟨tagPtr, 0x100040⟩

/-- Whether a read of `n` bytes answers OK with words that `f` accepts. -/
def readsOk (s : State) (a : Word) (n : Nat) (f : Tag → Bool) : Bool :=
  let p := s.past 0 4
  decide (p.dataAddr 0 a n 0 = .pa a.toNat) && !p.uncached a.toNat &&
    ((p.loadLine 0 a.toNat (p.keyid 0)).any fun r => r.1 == respOk && ((r.2.1.drop (a.toNat % 64 / 8)).take (max 1 (n / 8))).all fun w => f w.tag)

theorem witness_LoadResults : ready? (ldS tagI64) 0 = true ∧ tagBase ((ldS tagI64).g 0 1).tag = true ∧ ready? (ldS tagRaw) 0 = true ∧
    ([(0x100038, 8), (0x10003C, 4), (0x10003E, 2), (0x10003F, 1)].all fun (p : Word × Nat) =>
      readsOk (ldS tagI64) p.1 p.2 fun t => t != tagPoison && t != tagEmpty) = true ∧ (2 : RegNo) ≠ 1 ∧
    readsOk (ldS tagRaw) 0x100038 8 (fun t => t == tagRaw) = true ∧ readsOk (ldS tagF64) 0x100000 8 (fun t => t == tagF64) = true ∧
    readsOk (ldS tagF32x2) 0x10003C 4 (fun t => t == tagF32x2) = true ∧ (2 : BitVec 4).toNat < 14 ∧
    readsOk (ldS 5) 0x100020 32 (fun t => t.toNat == etTag 2) = true := by decide +kernel

theorem witness_StoreEffects : (((ldS tagI64).engine 0).stores.length < 64) ∧ ((ldS tagI64).g 0 2).tag ≠ tagPoison ∧ ((ldS tagI64).g 0 2).tag ≠ tagEmpty ∧
    tagNRaw ((ldS tagI64).g 0 2).tag = true ∧
    ([8, 4, 2, 1, 32].all fun n => decide (((ldS tagI64).past 0 4).dataAddr 0 0x100040 n 1 = .pa 0x100040)) = true ∧
    ((ldS tagI64).past 0 4).uncached 0x100040 = false ∧ ((ldS tagI64).past 0 4).lvHazard 0 0x4001 true = false ∧
    readsOk (ldS tagI64) 0x100040 4 (fun t => t == tagEmpty) = true ∧
    ((((ldS tagI64).past 0 4).loadLine 0 0x100040 (((ldS tagI64).past 0 4).keyid 0)).any fun r => decide ((r.2.2.engine 0).stores.length < 64)) = true ∧
    ([(4, tagI32x2), (2, tagI16x4), (1, tagI8x8), (4, tagF32x2)].all fun (p : Nat × Tag) => readsOk (ldS p.2) 0x100000 p.1 fun t => t == p.2) = true ∧
    (13 : BitVec 4).toNat < 14 := by decide +kernel

/-- `ldS` with the lock of slice 0 held by engine 0. -/
def locked : State := { ldS tagI64 with mem := { (ldS tagI64).mem with locks := [(0, ⟨true, 0, 0, 0x4000, 0, []⟩)] } }

/-- Engine 0 with the response of an access back. -/
def pending (k : PendKind) (b resp : Nat) (w : TWord) : State :=
  run0.modEngine 0 fun x => { x with pend := [⟨b, 4, k, 0x100000, 0x100000, 0x2D00000000, 0x2D00000004, [], false, some (resp, [w])⟩] }

/-- A deferred error of bank 7. -/
def defErr : DefErr := ⟨7, cBus, 0x100000, 0⟩

theorem witness_LocksAndResponses : ready? (ldS tagI64) 0 = true ∧ ((((ldS tagI64).past 0 4).commitNow 0).drainOut 0).outBusy 0 = false ∧
    ((ldS tagI64).past 0 4).dataAddr 0 0x100000 8 0 = .pa 0x100000 ∧ ((ldS tagI64).past 0 4).sliceServes 0 0x100000 = true ∧
    ((ldS tagI64).past 0 4).lvHazard 0 0x4000 false = false ∧ ready? locked 0 = true ∧ (((locked.past 0 4).commitNow 0).drainOut 0).outBusy 0 = false ∧
    (((locked.past 0 4).commitNow 0).drainOut 0).heldSlice (clusterOf 0) (posOf 0) = some 0 ∧ (locked.past 0 4).dataAddr 0 0x100000 8 1 = .pa 0x100000 ∧
    (locked.past 0 4).lvHazard 0 0x4000 true = false ∧ (locked.lockUnit 0).held = true ∧
    (((run0.modCore 0 fun c => { c with deferred := [defErr] }).core 0).deferred.find? fun d => d.bank == 7) = some defErr ∧
    (run0.modCore 0 fun c => { c with deferred := [defErr] }).canEnter 0 = true ∧
    (match (run0.modCore 0 fun c => { c with deferred := [defErr] }).boundary 0 with | some (.deferred d) => d == defErr | _ => false) = true ∧
    ((ldS tagI64).past 0 4).atFence 0 = false ∧ (locked.past 0 4).atFence 0 = false ∧
    (dirS 3 0 true).cached 0 0 = true ∧ mem0.cached 0 0 = false ∧ (dirS 3 0 true).inCore 0 12 false 0 = false ∧ (dirS 3 0 true).dramBarred 0 12 0 = false ∧
    (dirS 3 0 true).ccFlaw 0 0 = .clean ∧ mem0.inCore 0 12 true 0 = false ∧
    (((pending (.load 8 false false) 7 respOk ⟨tagI64, 1⟩).engine 0).pend.find? PendAccess.ready).any (fun x =>
      decide (x.kind = .load 8 false false) && (x.result == some (respOk, [⟨tagI64, 1⟩]))) = true ∧ loadTrap (.load 8 false false) 0x100000 [⟨tagI64, 1⟩] = none ∧
    (pending (.load 8 false false) 7 respOk ⟨tagI64, 1⟩).flag (Reg.ENG_TNG_STAT 0) Reg.ENG_TNG_STAT_RECOV = false ∧
    (((pending .lkld 0 errLock ⟨tagI64, 1⟩).engine 0).pend.find? PendAccess.ready).any (fun x => decide (x.kind = .lkld) && (x.result == some (errLock, [⟨tagI64, 1⟩])) &&
      decide (((pending .lkld 0 errLock ⟨tagI64, 1⟩).core 0).run ≠ x.bank)) = true := by decide +kernel

/-- Whether an ALU instruction completes. -/
def aluDone (s : State) (o : AluOp) (rd rs1 rs2 : RegNo) : Bool := match aluRes 0 o rd rs1 rs2 s with | .done _ => true | _ => false

/-- A microword that writes rd and dispatches, in slot 0 of the customer area of engine 0, and entry 0 of the decode table. -/
def custS (lev : Nat) : State :=
  let t : State := run0.modEngine 0 fun x => { x with ustore := { x.ustore with words := [(0x5000, BitVec.ofNat 144 (4 * 2 ^ 14 + 2 ^ 51 + 2 * 2 ^ 57 + 2 ^ 59 + 2 ^ 136 + 2 ^ 139))] } }
  (t.wr (Reg.ENG_UDEC 0 0) Reg.ENG_UDEC_VALID 1).wr (Reg.ENG_UDEC 0 0) Reg.ENG_UDEC_MINLEV lev

theorem witness_RepeatAndCustomerInstructions : ready? alu 0 = true ∧ (alu.past 0 4).fetchTrap 0 = none ∧ tagN (alu.g 0 2).tag = true ∧ aluBinary .add = true ∧
    (alu.g 0 6).val = 0 ∧ tagN ((alu.setG 0 6 ⟨tagI64, 0⟩).g 0 6).tag = true ∧ (alu.g 0 2).val ≠ 0 ∧ aluDone alu .add 7 1 1 = true ∧
    (alu.g 0 2).val.toNat ≤ 256 ∧ 2 ≤ alu.lev 0 ∧ ready? (atLev 1) 0 = true ∧ (atLev 1).lev 0 < 2 ∧ ((atLev 1).past 0 4).fetchTrap 0 = none ∧
    run0.flag (Reg.ENG_UDEC 0 15) Reg.ENG_UDEC_VALID = false ∧ ready? run0 0 = true ∧ ready? (custS 3) 0 = true ∧
    (custS 3).flag (Reg.ENG_UDEC 0 0) Reg.ENG_UDEC_VALID = true ∧ (custS 3).rd (Reg.ENG_UDEC 0 0) Reg.ENG_UDEC_MINLEV ≤ (custS 3).lev 0 ∧
    ready? (((atLev 1).wr (Reg.ENG_UDEC 0 0) Reg.ENG_UDEC_VALID 1).wr (Reg.ENG_UDEC 0 0) Reg.ENG_UDEC_MINLEV 2) 0 = true ∧
    (let w := (sget (fun _ => 0) ((custS 3).engine 0).ustore.words 0x5000).toNat;
     let p := (custS 3).past 0 4;
     ((p.engine 0).ustore.trapped 0x5000 = 0x5000 ∧ (match p.microFetch 0 0x5000 with | .ok v => v == w | .error _ => false) = true ∧
     p.ucFinds 0 0x5000 = .clean ∧ mwCkpt w = 0 ∧ mwTckop w = 0 ∧ microTags ⟨0x5000, [], 0, List.replicate 8 ⟨tagRaw, 0⟩, ⟨3, 0⟩, 0, [], []⟩ w ⟨7, 1⟩ ⟨7, 1⟩ = none ∧ mwDop w = 0 ∧ mwRdst w = 1 ∧ mwRsel w = 0 ∧ mwRtm w = 2 ∧
     mwAstw w = 0 ∧ mwCnt w = 0 ∧ mwExc w = 0 ∧ mwSeq w = 4 ∧ (custS 3).rd (Reg.ENG_UDEC 0 0) Reg.ENG_UDEC_ENTRY = 0)) := by decide +kernel

/-- `ldS` with the resident tenant 5 in bank 0. -/
def bankS : State := (ldS tagI64).setBankTenant 0 0 5

/-- Whether a save or load commits. -/
def commits (r : Res) : Bool := match r with | .commit _ => true | _ => false

theorem witness_BankSaveAndLoad : ready? bankS 0 = true ∧ tagAny (bankS.g 0 1).tag = true ∧ 3 ≤ bankS.lev 0 ∧ bankS.vacant 0 0 = false ∧ bankS.interrupted 0 0 = false ∧
    (bankS.vsu 0 0).ents = [] ∧ (bankS.vsu 0 0).drain = [] ∧ bankS.genFull 0 5 = false ∧ 0x100000 % 2048 = 0 ∧ bankS.imageLocked 0 0x100000 = false ∧
    bankS.imagePlace 0x100000 = true ∧ bankS.imagePlace 0x2800000000 = false ∧ commits ((((bankS.past 0 4).commitNow 0).drainOut 0).bankSave 0 0 0x100000 0 false) = true ∧ (bankS.past 0 4).atFence 0 = false ∧
    (((bankS.past 0 4).commitNow 0).drainOut 0).outBusy 0 = false ∧ bankS.bankTenant 0 0 = 5 ∧
    bankS.vacant 0 5 = true ∧ (bankS.vsu 0 6).ents = [] ∧ bankS.vacant 0 6 = false ∧ bankS.interrupted 0 6 = false ∧ (8191 : Nat) ≠ 0 ∧
    ((List.range 6).all fun k => bankS.bankTenant 0 k != 8191) = true ∧ bankS.shadowBars 8191 = false ∧ bankS.genFull 0 8191 = false := by decide +kernel

/-- The header of an image of tenant 5 at 0x100000, of generation 0, whose other lines nothing has written. -/
def imageS : State :=
  ((runC (.fullLineWrite ⟨0, 0, 0, 5⟩ 0x4000 #v[⟨1, 1⟩, ⟨1, 5⟩, ⟨1, 0⟩, ⟨1, 0xFF⟩, ⟨1, 0⟩, ⟨1, 0⟩, ⟨1, 0⟩, ⟨1, 0⟩]) ({ run0 with cfg := mem0.cfg } : State)).setG 0 1
    ⟨tagPtr, 0x100000⟩)

theorem witness_BankSaveAndLoad_load : ready? imageS 0 = true ∧ imageS.vacant 0 0 = true ∧ ((List.range 6).all fun k => imageS.bankTenant 0 k != 5) = true ∧
    imageS.imagePlace 0x100000 = true ∧ imageS.imageLocked 0 0x100000 = false ∧ commits ((((imageS.past 0 4).commitNow 0).drainOut 0).bankLoad 0 0 5 0x100000 0) = true := by decide +kernel

theorem witness_AngleWrap : 0 < State.reset.angleInc ∧ State.reset.pins.settle / 10 ≤ State.reset.gav.xclk / 10 ∧ State.reset.gav.acc < 2 ^ 64 ∧
    ({ State.reset with gav := { State.reset.gav with acc := 2 ^ 64 - 1 } } : State).gav.acc < 2 ^ 64 ∧
    State.reset.flag Reg.GAV_CYCSET_VAL Reg.GAV_CYCSET_VAL_ARM = false ∧
    (withR [(Reg.GAV_CYCSET_VAL, Reg.GAV_CYCSET_VAL_ARM, 1)]).flag Reg.GAV_CYCSET_VAL Reg.GAV_CYCSET_VAL_ARM = true ∧
    (withR [(Reg.GAV_CYCSET_VAL, Reg.GAV_CYCSET_VAL_ARM, 1)]).rd Reg.GAV_CYCSET_AT Reg.GAV_CYCSET_AT_AT = 0 := by decide +kernel

/-- Phase 1 has risen 20 ms ago and has 14 good periods. -/
def phaseS : State :=
  { State.reset with gav := { State.reset.gav with mono := 20000000, phases := [(0, { Phase.reset with rise := some 0 }), (1, { Phase.reset with rise := some 0, good := 14 })] } }

/-- Reference `ref` is in use in STATE `st`; references 1 to 3 qualify by the bits of `q`, PHREF comes first in the list and agrees with the unit. -/
def refT (st ref q : Nat) : State :=
  let s := withR [(Reg.GAV_FREQ, Reg.GAV_FREQ_FREQ, 100), (Reg.GAV_STAT, Reg.GAV_STAT_STATE, st), (Reg.GAV_STAT, Reg.GAV_STAT_REF, ref), (Reg.GAV_STAT, Reg.GAV_STAT_QUAL, q), (Reg.GAV_STAT, ⟨8, 1, .ro, 0⟩, q % 2),
    (Reg.GAV_REFSEL, Reg.GAV_REFSEL_PRI0, 1), (Reg.GAV_CTRL, Reg.GAV_CTRL_REVERT, 1)]
  { s with gav := { s.gav with refErr := [(1, some 100)] } }

theorem witness_ReferencesAndTai :
    (phaseS.phase 1).rise = some 0 ∧ phaseS.definingPhase ≠ some 1 ∧ phaseS.phaseQual 1 = false ∧ phaseS.periodOk (phaseS.gav.mono - 0) = true ∧
    (phaseS.phase 1).good < 15 ∧ State.reset.refQual 3 = false ∧ (refT 0 3 4).refQual 3 = true ∧ (refT 0 1 1).refQual 1 = true ∧
    ([0, 1].all fun k =>
      let x := (refT 0 2 (2 + k)).passTo ((refT 0 2 (2 + k)).gav.svAt + (refT 0 2 (2 + k)).twoCycles)
      let u := x.ownXclk.unqualify 2
      x.refQual 2 && x.rd Reg.GAV_STAT Reg.GAV_STAT_REF == 2 && u.rd Reg.GAV_STAT Reg.GAV_STAT_STATE == 0 &&
        if k = 0 then u.refWanted == 0 else u.refWanted == 1 && u.refAgrees 1) = true ∧
    (let s := refT 0 3 5
     let x := (s.passTo (sget (fun _ => 0) s.gav.qualAt s.refWanted + 60000000000)).inXclk true
     (s.flag Reg.GAV_CTRL Reg.GAV_CTRL_REVERT && s.refWanted == 1 && s.rd Reg.GAV_STAT Reg.GAV_STAT_REF == 3 && x.rd Reg.GAV_STAT Reg.GAV_STAT_STATE == 0 &&
       x.refWanted == 1 && x.refAgrees 1) = true) ∧
    ((({ refT 0 3 5 with gav := { (refT 0 3 5).gav with refErr := [(1, some 101)] } } : State).passTo 60000000000).inXclk false).refAgrees 1 = false ∧
    ({ refT 1 1 1 with gav := { (refT 1 1 1).gav with holdSince := some 7 } } : State).gav.holdSince = some 7 ∧
    (refT 1 1 1).rd Reg.GAV_STAT Reg.GAV_STAT_STATE = 1 ∧ (refT 1 1 1).rd Reg.GAV_TRACK Reg.GAV_TRACK_HOLD_LIMIT ≠ 0 ∧
    ((refT 0 1 1).ownXclk.wr Reg.GAV_CTRL Reg.GAV_CTRL_FORCE_HOLD 1).rd Reg.GAV_STAT Reg.GAV_STAT_STATE = 0 ∧
    bits (0 : Word).toNat 12 20 = 0 ∧ 999999 < bits (0xF4240000 : Word).toNat 12 20 ∧ bits (3 : Word).toNat 0 2 = 3 ∧
    bits (0xF423F000 : Word).toNat 12 20 = 999999 ∧ bits (0xF423F000 : Word).toNat 0 2 = State.reset.rd Reg.GAV_TAI_CTRL Reg.GAV_TAI_CTRL_SRC ∧
    (withR [(Reg.GAV_TAI_CTRL, Reg.GAV_TAI_CTRL_SRC, 2)]).rd Reg.GAV_TAI_CTRL Reg.GAV_TAI_CTRL_SRC = 2 ∧
    (withR [(Reg.GAV_TAI_CTRL, Reg.GAV_TAI_CTRL_SRC, 2)]).gav.taiSet = none ∧
    absDiff ((1001 + 500000000) / 1000000000 * 1000000000) 1001 > 1000 ∧ absDiff ((1000 + 500000000) / 1000000000 * 1000000000) 1000 ≤ 1000 ∧
    (withR [(Reg.GAV_TAI_CTRL, Reg.GAV_TAI_CTRL_SRC, 1)]).rd Reg.GAV_TAI_CTRL Reg.GAV_TAI_CTRL_SRC = 1 ∧
    (withR [(Reg.GAV_TAI_CTRL, Reg.GAV_TAI_CTRL_PPS_EN, 1)]).flag Reg.GAV_TAI_CTRL Reg.GAV_TAI_CTRL_PPS_EN = true ∧
    ((withR [(Reg.GAV_FREQ, Reg.GAV_FREQ_FREQ, 100), (Reg.GAV_TAI_CTRL, Reg.GAV_TAI_CTRL_PPS_EN, 1)]).passTo 1000000000).flag Reg.GAV_TAI_CTRL Reg.GAV_TAI_CTRL_PPS_EN = true ∧
    ({ State.reset with gav := { State.reset.gav with ppsOut := true } } : State).gav.ppsOut = true := by decide +kernel

/-- Entry 8191 with action `act`. -/
def trig (act : Nat) : State := withR [(Reg.GAV_TRIGB 8191, Reg.GAV_TRIGB_ACTION, act)]

/-- `trig` in an XCLK whose accumulator passes 0, with `n` entries fired in it. -/
def firedS (act n : Nat) : State := { trig act with gav := { (trig act).gav with prev := 2 ^ 64 - 5, acc := 3, fired := n } }

/-- A delayed output event of entry 8191. -/
def delayedX (old : Bool) : Delayed := ⟨8191, 0, ((trig 2).reg (Reg.GAV_TRIGB 8191)), true, old, false⟩

theorem witness_TriggerEntries : State.reset.platOk (.vf 0) = false ∧ State.reset.platOk .steward = true ∧
    8190 < (withR [(Reg.GAV_TRIG_SPLIT, Reg.GAV_TRIG_SPLIT_SPLIT, 8191)]).rd Reg.GAV_TRIG_SPLIT Reg.GAV_TRIG_SPLIT_SPLIT ∧
    (withR [(Reg.GAV_TRIG_SPLIT, Reg.GAV_TRIG_SPLIT_SPLIT, 8191)]).rd Reg.GAV_TRIG_SPLIT Reg.GAV_TRIG_SPLIT_SPLIT ≤ 8191 ∧
    (trig 0).trigAction 8191 = 0 ∧ (trig 2).trigAction 8191 ≠ 0 ∧ State.reset.trigFieldBad 0 7 = true ∧ State.reset.trigFieldBad 0 10 = false ∧
    Reg.GAV_TRIGB_ACTION.of 10 ≠ 5 ∧ Reg.GAV_TRIGB_ACTION.of ((trig 0).reg (Reg.GAV_TRIGB 8191)).toNat = 0 ∧
    16 ≤ (firedS 2 16).gav.fired ∧ 1 < Reg.GAV_TRIGB_ACTION.of ((firedS 2 16).reg (Reg.GAV_TRIGB 8191)).toNat ∧ (firedS 3 15).gav.fired < 16 ∧
    ([2, 3, 4].all fun k => Reg.GAV_TRIGB_ACTION.of ((firedS k 15).reg (Reg.GAV_TRIGB 8191)).toNat == k) = true ∧
    Reg.GAV_TRIGB_PROMPT.of ((firedS 3 15).reg (Reg.GAV_TRIGB 8191)).toNat = 0 ∧ (delayedX true).n = 8191 ∧ (delayedX true).written = true ∧
    Reg.GAV_TRIGB_ACTION.of (delayedX true).trigb.toNat = 2 ∧ (delayedX false).old = false ∧
    (firedS 2 16).dueNow 8191 = true ∧ (firedS 3 15).dueNow 8191 = true ∧ Reg.GAV_TRIGB_ABS.of ((firedS 2 16).reg (Reg.GAV_TRIGB 8191)).toNat = 0 ∧
    (firedS 3 15).gav.delayed = [] ∧ ((firedS 2 0).wr (Reg.GAV_TRIGB 8191) Reg.GAV_TRIGB_ABS 1).dueNow 8191 = true ∧
    (((firedS 5 0).wr (Reg.GAV_TRIGB 0) Reg.GAV_TRIGB_ACTION 2).dueNow 8191 && ((firedS 5 0).wr (Reg.GAV_TRIGB 0) Reg.GAV_TRIGB_ACTION 2).otherDue 8191) = true := by decide +kernel

/-- A high level that edge detector 31 has not accepted yet. -/
def edgeC : EdgeCand := ⟨true, 5, 7, 0⟩

/-- Edge detector 31 takes rising edges as `pol` says. -/
def edgeS (pol : Nat) : State :=
  let s := withR [(Reg.GAV_EDGE_CTRL 31, Reg.GAV_EDGE_CTRL_POL, pol), (Reg.GAV_EDGE_CTRL 31, Reg.GAV_EDGE_CTRL_FILT, 255)]
  { s with gav := { s.gav with cands := [(31, some edgeC)] } }

theorem witness_TimersEdgesAndPins : (withR [(Reg.GAV_TMR_CTRL 63, Reg.GAV_TMR_CTRL_RUN, 1)]).flag (Reg.GAV_TMR_CTRL 63) Reg.GAV_TMR_CTRL_RUN = true ∧
    (withR [(Reg.GAV_TMR_CTRL 63, Reg.GAV_TMR_CTRL_RUN, 1)]).flag (Reg.GAV_TMR_CTRL 63) Reg.GAV_TMR_CTRL_PERIODIC = false ∧
    (withR [(Reg.GAV_TMR_CTRL 63, Reg.GAV_TMR_CTRL_PERIODIC, 1)]).flag (Reg.GAV_TMR_CTRL 63) Reg.GAV_TMR_CTRL_PERIODIC = true ∧
    ((withR [(Reg.GAV_TMR_CTRL 63, Reg.GAV_TMR_CTRL_RUN, 1), (Reg.GAV_TMR_CNT 63, Reg.GAV_TMR_CNT_COUNT, 2)]).toExpiry 63).flag (Reg.GAV_TMR_CTRL 63) Reg.GAV_TMR_CTRL_RUN = true ∧
    sget (fun _ => none) State.reset.gav.cands 31 = none ∧ sget (fun _ => none) (edgeS 1).gav.cands 31 = some edgeC ∧ edgeC.level = true ∧ edgeC.level ≠ false ∧
    (let v : State := ((edgeS 1).pass 2550 2550).inXclk true
     (bits (v.rd (Reg.GAV_EDGE_CTRL 31) Reg.GAV_EDGE_CTRL_POL) 0 1 == 1 && decide ((v.captures 31).length < 4) &&
      !v.flag (Reg.GAV_EDGE_CTRL 31) Reg.GAV_EDGE_CTRL_IRQ && !v.flag (Reg.GAV_EDGE_CTRL 31) Reg.GAV_EDGE_CTRL_EVT) = true) ∧
    bits ((edgeS 2).rd (Reg.GAV_EDGE_CTRL 31) Reg.GAV_EDGE_CTRL_POL) 0 1 ≠ 1 ∧ (31 : Fin 36).val < 32 ∧ 32 ≤ (32 : Fin 36).val := by
  decide +kernel

/-- Source 300 enabled for context 0 with state `x`. -/
def srcS (x : Src) : State :=
  State.refreshAll (({ (withR [(Reg.IC_SRC_CFG 300, Reg.IC_SRC_CFG_EN, 1)]) with ic := { State.reset.ic with src := [(300, x)] } } : State))

theorem witness_InterruptsAndEvents : srcIsState 300 = false ∧ srcIsState 640 = true ∧
    State.reset.flag (Reg.IC_SRC_CFG 300) Reg.IC_SRC_CFG_EN = false ∧
    (srcS { Src.reset with count := 15 }).flag (Reg.IC_SRC_CFG 300) Reg.IC_SRC_CFG_EN = true ∧ ((srcS { Src.reset with count := 15 }).src 300).count = 15 ∧
    ((srcS { Src.reset with count := 14 }).src 300).count ≠ 15 ∧ State.reset.ic.waiting = [] ∧ State.reset.ic.settled < 16 ∧
    State.reset.candidate 3585 true = none ∧ 
    ({ State.reset with ic := { State.reset.ic with waiting := [⟨0, 0, .sender, 0⟩] } } : State).ic.waiting ≠ [] ∧
    ((srcS { Src.reset with active := true, ctx := 5 }).src 300).active = true ∧ ((srcS { Src.reset with active := true, ctx := 5 }).src 300).ctx = 5 ∧
    ((srcS Src.reset).src 300).active = false ∧ sget (fun _ => false) State.reset.ic.pba 2047 = false ∧ State.reset.platOk (.vf 2048) = false ∧
    State.reset.platOk .pf = true ∧ bits (0x180 : Word).toNat 7 2 = 3 ∧ bits (0x101 : Word).toNat 7 2 ≠ 3 ∧ bits (0x101 : Word).toNat 0 1 = 1 ∧
    srcIsState 639 = false ∧ sget (fun _ => none) State.reset.ic.holdoff 63 = none ∧
    sget (fun _ => none) ({ State.reset with ic := { State.reset.ic with holdoff := [(63, some 5)] } } : State).ic.holdoff 63 = some 5 ∧
    ({ State.reset with ic := { State.reset.ic with holdoff := [(63, some 0)] } } : State).ic.holdoff.any (fun p => !p.2.any fun k => decide (State.reset.gav.mono < k)) = true ∧
    sget (fun _ => false) ({ State.reset with ic := { State.reset.ic with gpHigh := [(63, true)], gpEnd := [(63, 10)] } } : State).ic.gpHigh 63 = true ∧
    sget (fun _ => 0) State.reset.ic.gpEnd 63 ≤ State.reset.gav.xclk ∧ ({ State.reset with gav := { State.reset.gav with pulsed := [127] } } : State).gav.pulsed.contains 127 = true := by
  decide +kernel

/-- Queue 7 of tenant 1 (one queue) in pool 0 of 32 buffers, with share 0 over them. -/
def queueS (x : QState) (own : Sparse (Option Own)) : State :=
  { State.reset with
    cfg := [(cfgKey 6 0 1, [7]), (cfgKey 6 1 7, [1 + 2 * 1, 0]), (cfgKey 13 0 0, [32 * 2 ^ 24, 0]), (cfgKey 13 1 0, [32 * 2 ^ 24, 1])],
    qm := { State.reset.qm with queues := [(7, x)], own := own } }

theorem witness_QueueOperations : (queueS QState.reset []).qAt 1 0 = some 7 ∧ (queueS QState.reset []).qAt 1 1023 = none ∧
    ((queueS { QState.reset with fault := true } []).queue 7).fault = true ∧ ((queueS QState.reset []).queue 7).ring = [] ∧
    ((queueS { QState.reset with ring := [5] } []).queue 7).ring = 5 :: [] ∧
    (queueS QState.reset [(31, some (.held 1 7))]).owner (dHandle 31) = some (.held 1 7) ∧
    ((queueS QState.reset []).queue 7).ring.length < (queueS QState.reset []).qCapacity 7 ∧
    (queueS QState.reset []).qCapacity 7 ≤ ((queueS { QState.reset with ring := List.replicate 15 5 } []).queue 7).ring.length ∧
    (queueS QState.reset []).owner (dHandle 31) = none ∧ ((queueS QState.reset []).poolOf 31).isSome = true ∧ (queueS QState.reset []).poolOf 32 = none ∧
    State.reset.qAt 0 0 = none ∧ ((queueS QState.reset []).shareFor 1 ((queueS QState.reset []).qPool 7)).isSome = true ∧
    (((queueS QState.reset []).shareFor 1 0).any fun x => (queueS QState.reset []).freeCount x != 0 && ((queueS QState.reset []).nextFree x).isSome) = true := by
  decide +kernel

theorem witness_QueueOperations_noShare :
    ({ queueS QState.reset [] with cfg := [(cfgKey 6 0 1, [7]), (cfgKey 6 1 7, [3, 0])] } : State).shareFor 1 0 = none ∧
    ({ queueS QState.reset [] with cfg := [(cfgKey 6 0 1, [7]), (cfgKey 6 1 7, [3, 0])] } : State).qAt 1 0 = some 7 := by decide +kernel

theorem witness_DequeueReturnsWhatWasEnqueued : (queueS QState.reset [(31, some (.held 1 7))]).qAt 1 0 = some 7 ∧
    ((queueS QState.reset [(31, some (.held 1 7))]).queue 7).fault = false ∧ ((queueS QState.reset [(31, some (.held 1 7))]).queue 7).ring = [] ∧
    (queueS QState.reset [(31, some (.held 1 7))]).owner (dHandle 31) = some (.held 1 7) := by decide +kernel

/-- A frame for queue `q`. -/
def frame (q : Nat) : IFrame := ⟨0, 0, 0, q, [1, 2, 3], 0, 0, 0, 0, false⟩

/-- `queueS` with a classified frame, one admitted to handle 3, and one that waits on lane 0. -/
def ingress (x : QState) (q : Nat) : State :=
  { queueS x [(3, some (.held 1 7))] with qm := { (queueS x [(3, some (.held 1 7))]).qm with classified := [frame q], admitted := [(frame 7, 3)], waiting := [(0, [frame q])] } }

/-- The frame for queue 7 finds its queue over the watermark (DROPPING) and waits. -/
def stopped : State :=
  { ingress { QState.reset with dropping := true } 7 with cfg := [(cfgKey 6 0 1, [7]), (cfgKey 6 1 7, [3 + 2 ^ 22, 0]), (cfgKey 13 0 0, [32 * 2 ^ 24, 0]), (cfgKey 13 1 0, [32 * 2 ^ 24, 1])] }

theorem witness_IngressAndOverload :
    (((ingress QState.reset 7).qm.classified.find? fun f => f.port == 0) = some (frame 7)) ∧
    (ingress QState.reset 9).qValid 9 = false ∧ ((ingress QState.reset 9).judgeFrame (frame 9)).1 ≠ .wait ∧
    ((({ (ingress QState.reset 9) with qm := { (ingress QState.reset 9).qm with waiting := [] } } : State).judgeFrame (frame 9)).1 ≠ .wait) ∧
    (stopped.judgeFrame (frame 7)).1 = .wait ∧ (stopped.judgeFrame (frame 7)).1 = .wait ∧
    State.reset.waitingAt 5 15 = [] ∧ (stopped.waitingAt 0 0 = [frame 7]) ∧ ((ingress QState.reset 9).waitingAt 0 0 = [frame 9]) ∧
    (((ingress QState.reset 7).qm.admitted.find? fun x => x.1.port == 0) = some (frame 7, 3)) ∧ (ingress QState.reset 7).writeWaits (frame 7) 3 = false ∧
    ((ingress QState.reset 7).queue 7).ring.length < (ingress QState.reset 7).qCapacity 7 ∧
    ((ingress { QState.reset with ring := List.replicate 15 5 } 7).queue 7).ring.length ≥ (ingress QState.reset 7).qCapacity 7 ∧
    State.reset.qm.queues = [] ∧ ((queueS { QState.reset with shed := true } []).queue 7).shed = true ∧ ((queueS QState.reset []).queue 7).second = 0 ∧
    State.reset.platOk (.vf 0) = false := by decide +kernel

theorem witness_IngressAndOverload_shed :
    (let s : State := { queueS { QState.reset with back := some 0, second := 1 } [] with cfg := [(cfgKey 6 1 7, [1 + 2 * 1 + 2 ^ 22, 2 ^ 32])] };
     (s.qClass 7 ≠ 0 ∧ (s.queue 7).back.isSome = true ∧ Reg.QM_QCFG2_LLTIME.of (s.qcfg2 7) ≠ 0 ∧ (s.queue 7).shed = false ∧
      s.qm.queues = [(7, { QState.reset with back := some 0, second := 1 })])) := by decide +kernel

theorem witness_InterruptsAndEvents_claim :
    (((srcS { Src.reset with count := 1 }).wr (Reg.IC_SRC_CFG 300) Reg.IC_SRC_CFG_LEV 2).wr (Reg.IC_SRC_TGT 300 0) Reg.IC_SRC_TGT_ENG 1).candidate 7 true = some 300 := by
  decide +kernel

/-- Port 5 released with link 0 up. -/
def upS : State := ((withR [(Reg.OCT_CTRL 5, Reg.OCT_CTRL_RELEASE, 1)]).setLinkUp 5 0 true)

/-- A flit whose CRC holds. -/
def flitOf (h : Nat) (body : List Byte) : Flit := ⟨BitVec.ofNat 32 h, body, BitVec.ofNat 32 (crc32 (leBytes 4 h ++ natsOf body))⟩

/-- A DISC flit of device 9, port 1, with firmware version `v`. -/
def discOf (v : Nat) : DiscFlit := ⟨true, none, 9, 1, 0, BitVec.ofNat 16 v⟩

/-- `upS` with neighbour state `st`, whose last `n` DISC flits named device 9 and port 1. -/
def nbr (st n : Nat) : State :=
  (((upS.wr (Reg.OCT_NBR 5) Reg.OCT_NBR_DID 9).wr (Reg.OCT_NBR 5) Reg.OCT_NBR_PORT 1).wr (Reg.OCT_STAT 5) Reg.OCT_STAT_NSTATE st).modPort 5 fun x => { x with disc := n }

theorem witness_FlitsAndNeighbours : upS.portMode 5 = 0 ∧ upS.rd (Reg.OCT_STAT 5) Reg.OCT_STAT_NSTATE ≠ 3 ∧ ([0, 31, 32].all fun n =>
      ((upS.modPort 5 fun x => { x with unacked := n }).oport 5).unacked == n) = true ∧ upS.linkUp 5 0 = true ∧ State.reset.linkUp 5 0 = false ∧ State.reset.portMode 5 = 0 ∧
    (flitOf 1 []).crc.toNat = crc32 (leBytes 4 (flitOf 1 []).hdr.toNat ++ natsOf (flitOf 1 []).body) ∧
    ({ flitOf 1 [] with crc := 0 } : Flit).crc.toNat ≠ crc32 (leBytes 4 1) ∧ bits (flitOf 1 []).hdr.toNat 0 4 = 1 ∧ (upS.oport 5).naked = false ∧
    bits (flitOf 0x701 []).hdr.toNat 10 10 ≠ (upS.oport 5).rxSeq ∧ bits (flitOf 1 []).hdr.toNat 10 10 = (upS.oport 5).rxSeq ∧ bits 1 30 1 = 0 ∧
    bits (flitOf 2 []).hdr.toNat 0 4 = 2 ∧ bits (flitOf 0 []).hdr.toNat 0 4 = 0 ∧ upS.portReleased 5 = true ∧ (upS.oport 5).ptpIn = none ∧
    ((upS.modPort 5 fun x => { x with ptpIn := some 5, ptpOut := some 4 }).oport 5).ptpIn = some 5 ∧
    (discOf upS.runVer).good = true ∧ (discOf upS.runVer).ack = none ∧ absDiff (discOf upS.runVer).ver.toNat upS.runVer ≤ 1 ∧
    bits (discOf upS.runVer).part.toNat 15 1 = upS.rd Reg.ID_PART Reg.ID_PART_SECMODE ∧ 1 < absDiff (discOf (upS.runVer + 2)).ver.toNat upS.runVer ∧
    ([0, 1, 2, 3].all fun k => (nbr k 0).rd (Reg.OCT_STAT 5) Reg.OCT_STAT_NSTATE == k && (nbr k 0).rd (Reg.OCT_NBR 5) Reg.OCT_NBR_DID == 9 &&
      (nbr k 0).rd (Reg.OCT_NBR 5) Reg.OCT_NBR_PORT == 1 && (nbr k 0).linkUp 5 0) = true ∧
    ((nbr 1 1).oport 5).disc + 1 < 3 ∧ 3 ≤ ((nbr 1 2).oport 5).disc + 1 ∧ (nbr 1 1).rd (Reg.OCT_NBR 5) Reg.OCT_NBR_PORT ≠ 2 := by decide +kernel

/-- A message of one flit to device `dst` after `hops` hops in receive buffer `vc` of port 5. -/
def msgS (vc dst hops : Nat) (s : State) : State :=
  s.modPort 5 fun x => { x with rx := [(vc, [(0x181, toBytes (leBytes 8 (dst + hops * 2 ^ 53) ++ leBytes 8 0))])] }

/-- Device 4095 of the own region is behind port 0, whose neighbour is up. -/
def routed : State :=
  ((upS.wr (Reg.OCT_LOC 4095) Reg.OCT_LOC_PORTMASK 1).wr (Reg.OCT_STAT 0) Reg.OCT_STAT_NSTATE 2).modPort 0 fun x => { x with credit := [(7, 1)] }

theorem witness_MessagesOfAPort :
    (headMsg (sget (fun _ => []) ((msgS 7 0 0 upS).oport 5).rx 7)).isSome = true ∧
    ((headMsg (sget (fun _ => []) ((msgS 7 0 0 upS).oport 5).rx 7)).any fun m => (msgHdr (m.1.flatMap (·.2))).dst == upS.rd Reg.OCT_DID Reg.OCT_DID_DID) = true ∧
    ((headMsg (sget (fun _ => []) ((msgS 7 4095 31 upS).oport 5).rx 7)).any fun m => (msgHdr (m.1.flatMap (·.2))).dst == 4095 &&
      (msgHdr (m.1.flatMap (·.2))).hops == 31 && (upS.routeMsg (msgHdr (m.1.flatMap (·.2)))).isNone) = true ∧
    ((headMsg (sget (fun _ => []) ((msgS 7 4095 30 routed).oport 5).rx 7)).any fun m => (msgHdr (m.1.flatMap (·.2))).hops == 30 &&
      routed.routeMsg (msgHdr (m.1.flatMap (·.2))) == some 0) = true ∧
    sget (fun _ => 0) (routed.oport 0).credit 7 ≠ 0 ∧ sget (fun _ => []) (routed.oport 0).tx 7 = [] ∧ (7 : Fin 8).val ≠ 3 ∧
    ((headMsg (sget (fun _ => []) ((msgS 3 0 0 upS).oport 5).rx 3)).any fun m => (msgHdr (m.1.flatMap (·.2))).dst == upS.rd Reg.OCT_DID Reg.OCT_DID_DID) = true ∧
    (upS.wr Reg.UPD_STAT Reg.UPD_STAT_PHASE 5).rd Reg.UPD_STAT Reg.UPD_STAT_PHASE = 5 ∧ upS.rd Reg.UPD_STAT Reg.UPD_STAT_PHASE ≠ 5 ∧
    ((upS.wr (Reg.OCT_DISC 5) Reg.OCT_DISC_RATE 1).admitMgmt 5 false).1 = true ∧ ((upS.wr (Reg.OCT_DISC 5) Reg.OCT_DISC_RATE 0).admitMgmt 5 false).1 = false ∧
    sget (fun _ => none) (upS.oport 5).stuck 7 = none ∧ sget (fun _ => none) ((upS.modPort 5 fun x => { x with stuck := [(7, some 9)] }).oport 5).stuck 7 = some 9 ∧
    ((routed.modPort 0 fun x => { x with credit := [] }).routeMsg ⟨4095, 0, 0, 0, 0⟩ = some 0 ∧ sget (fun _ => 0) ((routed.modPort 0 fun x => { x with credit := [] }).oport 0).credit 7 = 0) := by decide +kernel

theorem witness_LanesAndLinks : upS.portMode 5 = 0 ∧ upS.portReleased 5 = true ∧
    ((withR [(Reg.OCT_CTRL 5, Reg.OCT_CTRL_RELEASE, 1)]).portReleased 5 = true) ∧ (withR [(Reg.OCT_CTRL 5, Reg.OCT_CTRL_RELEASE, 1)]).linkUp 5 0 = false ∧
    State.reset.portReleased 5 = false ∧ upS.linkUp 5 0 = true ∧ (upS.oport 5).laneOwn = false ∧
    ((upS.modPort 5 fun x => { x with laneOwn := true }).oport 5).laneOwn = true ∧ (upS.wr (Reg.OCT_LANE 5 7) Reg.OCT_LANE_LOCK 0).linkUp 5 0 = true ∧
    (upS.wr (Reg.OCT_LANE 5 7) Reg.OCT_LANE_LOCK 0).portMode 5 = 0 ∧ upS.flag (Reg.OCT_STAT 5) Reg.OCT_STAT_DEGRADED = false ∧
    (upS.wr (Reg.OCT_STAT 5) Reg.OCT_STAT_DEGRADED 1).flag (Reg.OCT_STAT 5) Reg.OCT_STAT_DEGRADED = true ∧
    (upS.wr (Reg.OCT_STAT 5) Reg.OCT_STAT_DEGRADED 1).rd (Reg.OCT_STAT 5) Reg.OCT_STAT_DLANE ≠ (7 : Fin 8).val ∧
    ((((withR [(Reg.OCT_CTRL 5, Reg.OCT_CTRL_RELEASE, 1)]).modPort 5 fun x => { x with retry := [⟨1023, 1, []⟩] }).raiseLink 5 0).oport 5).retry = ⟨1023, 1, []⟩ :: [] ∧
    State.reset.platOk (.vf 1) = false ∧ Requester.pf ≠ .steward := by decide +kernel

/-- Port 5 in the Ethernet mode of one link, with its MAC on and link 0 up. -/
def ethS : State :=
  (((withR [(Reg.OCT_CTRL 5, Reg.OCT_CTRL_MODE, 1), (Reg.OCT_CTRL 5, Reg.OCT_CTRL_RELEASE, 1), (Reg.OCT_CTRL 5, Reg.OCT_CTRL_MACEN, 1)]).setLinkUp 5 0 true))

/-- `ethS` with classifier entry 31 taking ETYPE 0x88F8. -/
def clsS : State :=
  ((ethS.wr (Reg.OCT_CLSA 5 31) Reg.OCT_CLSA_VALID 1).wr (Reg.OCT_CLSA 5 31) Reg.OCT_CLSA_KEY 0x88F8).wr (Reg.OCT_CLSA 5 31) Reg.OCT_CLSA_LINK 7

/-- A frame of 64 bytes with its FCS. -/
def ethF (ety : Nat) : List Byte :=
  let f : List Byte := toBytes [1, 0x1B, 0x19, 0, 0, 0, 2, 2, 2, 2, 2, 2, ety / 256, ety % 256] ++ List.replicate 46 0
  f ++ toBytes (leBytes 4 (crc32 (natsOf f)))

/-- The same, whose payload begins with `p`. -/
def ethFp (ety : Nat) (p : List Nat) : List Byte :=
  let f : List Byte := toBytes ([1, 0x1B, 0x19, 0, 0, 0, 2, 2, 2, 2, 2, 2, ety / 256, ety % 256] ++ p) ++ List.replicate (46 - p.length) 0
  f ++ toBytes (leBytes 4 (crc32 (natsOf f)))

/-- `clsS` whose entry takes the SV frames of APPID 0x88F8. -/
def svS : State := clsS.wr (Reg.OCT_CLSA 5 31) Reg.OCT_CLSA_MATCH 1

theorem witness_FramesAndTransmission_sv :
    (let f := ethFp 0x88BA [0x88, 0xF8]
     let g := f.take (f.length - 4)
     (macOk f = true ∧ svS.classEth 5 0 g = some 31 ∧ svS.rd (Reg.OCT_CLSA 5 31) Reg.OCT_CLSA_MATCH = 1 ∧ beNat (slice g ((ethHdr g).body + 4) 2) % 4096 = 0 ∧
      beNat (slice g ((ethHdr g).body + 6) 2) = 0 ∧ svApdu (g.drop ((ethHdr g).body + 8)) = none ∧ svS.ptpTaken 5 f = false)) := by decide +kernel

/-- Channel 16383 sends from queue 7 through port 5. -/
def chS (ring : List Word) (mode : Nat) : State :=
  let s := queueS { QState.reset with ring := ring } [(3, some (.queued 1 7))]
  ({ s with cfg := [(cfgKey 4 0 0, [0, 2 ^ 30, 0]), (cfgKey 6 0 1, [7]), (cfgKey 6 1 7, [3, 0]),
    (cfgKey 10 1 16383, [BitVec.ofNat 64 (2 ^ Reg.OCT_CHA_VALID.lo + 5 * 2 ^ Reg.OCT_CHA_PORT.lo + 7 * 2 ^ Reg.OCT_CHA_TXQ.lo), 0]), (cfgKey 13 0 0, [32 * 2 ^ 24, 0])] } : State).wr
      (Reg.OCT_CTRL 5) Reg.OCT_CTRL_MODE mode

theorem witness_FramesAndTransmission : State.reset.portMode 5 = 0 ∧ ethS.portMode 5 ≠ 0 ∧ ethS.linkUp 5 0 = true ∧ ethS.linkUp 5 7 = false ∧
    (ethS.wr (Reg.OCT_CTRL 5) Reg.OCT_CTRL_MACEN 0).flag (Reg.OCT_CTRL 5) Reg.OCT_CTRL_MACEN = false ∧
    ethS.flag (Reg.OCT_CTRL 5) Reg.OCT_CTRL_MACEN = true ∧ macOk (ethF 0x88F8) = true ∧ macOk ((ethF 0x88F8).drop 1) = false ∧
    (ethHdr (ethF 0x88F8)).ety ≠ 0x8808 ∧ (ethHdr (ethF 0x8808)).ety = 0x8808 ∧ macOk (ethF 0x8808) = true ∧
    (let f := ethFp 0x8808 [1, 1]; macOk f = true ∧ beNat (slice f (ethHdr f).body 2) = 0x0101) ∧ (let f := ethFp 0x8808 [0, 1]; macOk f = true ∧ beNat (slice f (ethHdr f).body 2) = 1) ∧ ethS.ptpTaken 5 (ethF 0x88F8) = false ∧ ethS.classEth 5 0 ((ethF 0x88F8).take 60) = none ∧
    clsS.classEth 5 0 ((ethF 0x88F8).take 60) = some 31 ∧ clsS.rd (Reg.OCT_CLSA 5 31) Reg.OCT_CLSA_MATCH ≠ 1 ∧ ethS.ethUp 5 0 = true ∧
    ethS.ptpTaken 5 (ethF 0x88F7) = true ∧ ethS.rd (Reg.OCT_PTP 5) Reg.OCT_PTP_STATE ≠ 2 ∧
    Reg.OCT_CHA_VALID.of (elemWord (State.reset.elem 10 1 0) 0) = 0 ∧
    Reg.OCT_CHA_VALID.of (elemWord ((chS [] 0).elem 10 1 16383) 0) = 1 ∧ Reg.OCT_CHA_PORT.of (elemWord ((chS [] 0).elem 10 1 16383) 0) = 5 ∧
    Reg.OCT_CHA_TXQ.of (elemWord ((chS [] 0).elem 10 1 16383) 0) = 7 ∧ ((chS [] 0).queue 7).fault = false ∧ ((chS [] 0).queue 7).ring = [] ∧
    ((chS [0x40000003] 0).queue 7).ring = 0x40000003 :: [] ∧ (chS [0x40000003] 0).poolOf (dHandle 0x40000003) = some 0 ∧
    (let s := chS [0x40000003] 0;
     let x := s.readBuffer (s.bufferPa 0 3) (bits 0x40000003 24 17) (Reg.OCT_CHA_TENANT.of (elemWord (s.elem 10 1 16383) 0));
     (x.2.sendOct 5 (elemWord (s.elem 10 1 16383) 0) (elemWord (s.elem 10 1 16383) 1) (s.qClass 7) x.1).isSome = true) := by decide +kernel

/-- Buffer `b` in state `v`. -/
def stg (b v : Nat) : State := mem0.setStg b v

theorem witness_BitstreamStaging : State.reset.platOk (.vf 1) = false ∧ State.reset.platOk .pf = true ∧
    ([1, 4, 5].all fun v => (stg 3 v).stgState 3 == v) = true ∧ State.reset.stgState 3 = 0 ∧
    ((withR [(Reg.GAV_TRIGB 8191, Reg.GAV_TRIGB_ACTION, 5), (Reg.GAV_TRIGB 8191, Reg.GAV_TRIGB_TARGET, 3)]).commitEntry.any fun k =>
      (withR [(Reg.GAV_TRIGB 8191, Reg.GAV_TRIGB_ACTION, 5), (Reg.GAV_TRIGB 8191, Reg.GAV_TRIGB_TARGET, 3)]).rd (Reg.GAV_TRIGB k) Reg.GAV_TRIGB_TARGET == 3) = true ∧
    State.reset.commitEntry = none ∧ State.reset.bsl.stages = [] ∧ (runC (.stage .pf 3) mem0).bsl.stages = 3 :: [] ∧ State.reset.filling = none ∧
    (stg 3 4).filling = some 3 := by decide +kernel

/-- Whether the checks of a staged buffer refuse it. -/
def refused (s : State) (n : Nat) : Bool :=
  let x := s.stgBytes n
  match x.2.checkStream x.1 (s.stgCap n) true false with
  | .error _ => true
  | .ok _ => false

theorem witness_BitstreamStaging_rejects : refused (runC (.stage .pf 3) mem0) 3 = true ∧ refused (stg 3 4) 3 = true := by decide +kernel

/-- Out of reset with a session of the service port. -/
def svc (session : Option (Nat × Nat)) : State := { State.reset with boot := { State.reset.boot with inReset := false, session := session } }

theorem witness_StartUpAndServicePort : ({ State.reset with boot := { State.reset.boot with inReset := true } } : State).boot.inReset = true ∧
    (svc none).boot.inReset = false ∧ ((svc none).boot.replies.find? fun r => r.seq == (65535 : BitVec 16).toNat) = none ∧
    (({ (svc none) with boot := { (svc none).boot with replies := [⟨5, 0, 65535, []⟩] } } : State).boot.replies.find? fun r => r.seq == 65535) = some ⟨5, 0, 65535, []⟩ ∧
    (svc (some (1, 4))).boot.session.isSome = true ∧ (svc none).boot.session = none ∧ (0 : Byte).toNat = 0 ∧ 3 < (4 : Byte).toNat ∧
    1 ≤ (3 : Byte).toNat ∧ (3 : Byte).toNat ≤ 3 ∧ (svc none).boot.upAt = none ∧ (0x2000000 : BitVec 32).toNat ≤ 2 ^ 25 ∧ 4 < (4 : BitVec 32).toNat + [(0 : Byte)].length ∧
    (3 : BitVec 32).toNat + [(0 : Byte)].length ≤ 4 ∧ (svc none).svcVerdict 1 ((List.range 4).map fun i => sget (fun _ => (0 : Byte)) ([] : Sparse Byte) i) ≠ 0 := by
  decide +kernel

set_option maxRecDepth 100000 in
theorem witness_StartUpAndServicePort_slot : (((svc none).freeSlot 3).any fun e => decide ((1 : BitVec 32).toNat ≤ e.size)) = true := by decide +kernel

/-- A board whose fuses are all 0. -/
def board : Board :=
  { fuses := { dbgEn := false, serial := 0, mac := 0, owner := Vector.replicate 4 0, revoked := 0, devKey := 0, devPub := Vector.replicate 12 0, classKey := 0, fwMin := 0, patchMin := 0, seqMin := 0, rows := Vector.replicate 3 0, base := [] }
    dbgreq := false, flash := [], failing := [] }

set_option maxRecDepth 100000 in
/-- No image is in the flash of a new board. -/
theorem witness_StartUpAndServicePort_noImage :
    ((((State.reset.porst.boot1 board).wr Reg.UPD_BOOT Reg.UPD_BOOT_STEP 2).pickImage 1 fun img =>
      ((State.reset.porst.boot1 board).wr Reg.UPD_BOOT Reg.UPD_BOOT_STEP 2).imageCheck 1 img == 0).1.isNone) = true := by decide +kernel

/-- The key engine busy with operation `op` on no byte. -/
def keS (op : Nat) : State := ({ State.reset with ke := { State.reset.ke with cmd := op } } : State).wr Reg.KE_STAT Reg.KE_STAT_BUSY 1

/-- The response of the read of the operands of `s`. -/
def keResp (s : State) (n : Nat) : Nat :=
  let left := s.ke.began + 2 * s.keKclk - s.gav.xclk
  ((s.pass left left).busBytes (s.rd Reg.KE_SRC Reg.KE_SRC_PA) n).1

theorem witness_KeyEngineOperations : State.reset.flag Reg.KE_STAT Reg.KE_STAT_BUSY = false ∧ (keS 3).flag Reg.KE_STAT Reg.KE_STAT_BUSY = true ∧
    ([1, 3, 9].all fun k => bits (keS k).ke.cmd 0 4 == k) = true ∧ keResp (keS 3) 0 = respOk ∧ keResp ({ keS 1 with cfg := mem0.cfg } : State) 240 = respOk ∧
    keResp (((keS 3).wr Reg.KE_SRC Reg.KE_SRC_PA 0xF00000000000).wr Reg.KE_LEN Reg.KE_LEN_LEN 64) 64 ≠ respOk := by decide +kernel

/-- The update controller in PHASE `p`. -/
def updS (p : Nat) : State := withR [(Reg.UPD_STAT, Reg.UPD_STAT_PHASE, p)]

/-- Every engine but engine 0 is RETIRED. -/
def oneEngine : State :=
  { State.reset with regs := (List.range 207).map fun e => (Reg.ENG_TNG_STAT (e + 1), BitVec.ofNat 64 (5 * 2 ^ Reg.ENG_TNG_STAT_ROLE.lo)) }

/-- `oneEngine` with a checked image set. -/
def startS : State := oneEngine.wr Reg.UPD_STAT Reg.UPD_STAT_PHASE 2

/-- A revocation of owner slot 3 with an all-zero record. -/
def revS : State := { mem0 with upd := { mem0.upd with revoking := some 3 } }

theorem witness_UpdateController : State.reset.platOk (.vf 0) = false ∧ State.reset.platOk .steward = true ∧ (5 : BitVec 16).toNat ≠ State.reset.runVer + 1 ∧
    State.reset.flag Reg.UPD_STAT Reg.UPD_STAT_MODE = false ∧ ([0, 1, 2, 3, 5, 6, 7].all fun p => (updS p).rd Reg.UPD_STAT Reg.UPD_STAT_PHASE == p) = true ∧
    (withR [(Reg.UPD_BOOT, Reg.UPD_BOOT_SECMODE, 1)]).rd Reg.UPD_BOOT Reg.UPD_BOOT_SECMODE = 1 ∧ (updS 2).rd Reg.UPD_BOOT Reg.UPD_BOOT_SECMODE ≠ 1 ∧
    (updS 2).flag Reg.BSL_STAT Reg.BSL_STAT_CONFIG = false ∧ startS.versionsFit (startS.rd Reg.UPD_STAT Reg.UPD_STAT_NEXTVER) = true ∧
    startS.rd Reg.UPD_STAT Reg.UPD_STAT_PHASE = 2 ∧ startS.rd Reg.UPD_BOOT Reg.UPD_BOOT_SECMODE ≠ 1 ∧ startS.flag Reg.BSL_STAT Reg.BSL_STAT_CONFIG = false ∧
    (withR [(Reg.UPD_STAT, Reg.UPD_STAT_MODE, 1)]).flag Reg.UPD_STAT Reg.UPD_STAT_MODE = true ∧
    (((List.range 208).filter fun e => oneEngine.role e == 0 || oneEngine.role e == 1).all fun e =>
      oneEngine.rd (Reg.UPD_ENGVER e) Reg.UPD_ENGVER_VERSION == oneEngine.runVer) = true ∧ oneEngine.role 0 = 0 ∧ (State.reset.boot.fuses.rows.all fun n => decide (n < 16)) = true ∧
    State.reset.rd Reg.UPD_REVSTAT Reg.UPD_REVSTAT_STATE ≠ 1 ∧ State.reset.upd.revoking = none ∧ revS.upd.revoking = some 3 ∧
    revS.revokeCheck 3 (revS.readBytes true (revS.rd Reg.UPD_REVSRC Reg.UPD_REVSRC_PA) 256 0).1 ≠ 0 ∧ (updS 5).upd.slots = [] ∧
    (State.reset.setRole 12 7).fitSpare ((State.reset.setRole 12 7).rd Reg.UPD_STAT Reg.UPD_STAT_CLUSTER) = some 12 ∧ (State.reset.setRole 12 7).role 12 = 7 ∧
    (0 : BitVec 24).toNat ≠ 2 ^ 24 - 1 := by decide +kernel

set_option maxRecDepth 100000 in
theorem witness_UpdateController_noImage : (updS 1).setSlot 1 = none := by decide +kernel

theorem witness_MarginsAndTemperature : State.reset.flag Reg.MRG_STAT Reg.MRG_STAT_BUSY = false ∧
    (withR [(Reg.MRG_STAT, Reg.MRG_STAT_BUSY, 1)]).flag Reg.MRG_STAT Reg.MRG_STAT_BUSY = true ∧
    State.reset.gav.mono < State.reset.mrg.started + 86400000000000 ∧
    (let s : State := { State.reset with gav := { State.reset.gav with mono := 86400000000000 } }; s.mrg.started + 86400000000000 ≤ s.gav.mono) ∧
    ([15, 16].all fun n => ({ State.reset with mrg := { State.reset.mrg with read := n } } : State).mrg.read == n) = true ∧ State.reset.mrg.read ≠ 16 ∧
    State.reset.rd Reg.UPD_STAT Reg.UPD_STAT_PHASE ≠ 5 ∧ (updS 5).rd Reg.UPD_STAT Reg.UPD_STAT_PHASE = 5 ∧
    sget (fun _ => none) (State.reset.passTo (sget (fun _ => 0) State.reset.mrg.stepAt 15)).mrg.held 15 = none ∧
    (sget (fun _ => false) ({ State.reset with mrg := { State.reset.mrg with again := [(15, true)] } } : State).mrg.again 15 = true) ∧ State.reset.hoPhase 15 = 0 ∧
    State.reset.mrg.due = false ∧ sget (fun _ => none) State.reset.mrg.held 15 = none ∧ sget (fun _ => false) State.reset.mrg.avsFail 15 = false ∧
    State.reset.planHeld 15 = false ∧ State.reset.mrg.hot = false ∧ (State.reset.src 683).cond = false ∧
    ((State.reset.setSrc 683 { Src.reset with cond := true }).src 683).cond = true ∧ State.reset.platOk (.vf 1) = false ∧ State.reset.platOk .pf = true := by
  decide +kernel

/-- A WARNING of the margin unit. -/
def sub : SubReq := { code := 0x1111, sev := 4, unit := 0x22, p0 := 1, p1 := 2, tenant := 0 }

/-- The recorder after `sub` was written once. -/
def recorded : State := State.reset.submit [State.reset.msub 0x1111 4 0x22 1 2 0]

theorem witness_EventRecorder :
    (let x : MSub := State.reset.msub 0x1111 4 0x22 1 2 0;
     State.reset.mgd.buffer = [] ∧ State.reset.foldOf x = none ∧ toFlash x.sev x.code = false ∧ x.sev < 5 ∧ recorded.mgd.buffer = [] ∧
      (recorded.foldOf x).any (fun f => recorded.folds x f) = true) := by decide +kernel

/-- After start-up, with tenant 8191 bound to VF 2048. -/
def hostS : State :=
  { State.reset with boot := { State.reset.boot with inReset := false, upAt := some 0 }, cfg := [(cfgKey 5 0 8191, [BitVec.ofNat 64 (2048 * 2 ^ 8)])] }

theorem witness_HostInterface : ({ State.reset with boot := { State.reset.boot with inReset := true } } : State).pciReady = false ∧ hostS.pciReady = true ∧
    (0x3FFFFFF : Nat) < 0x4000000 ∧ (hostS.platWrite .pf 0x210 8 5).answer.resp ≠ errBusy ∧
    (let s := hostS.wr Reg.UPD_STAT Reg.UPD_STAT_PHASE 5; s.pciReady = true ∧ (s.platWrite .pf Reg.MBX_DOOR 8 1).answer.resp = errBusy) ∧ (2 ^ 38 - 1 : Nat) < 2 ^ 38 ∧ (hostS.platRead .pf 0 8 (.host 8)).1.map (·.1) = some respOk ∧ (2048 : Fin 2049) ≠ 0 ∧ (0xFFFF : Nat) < 0x10000 ∧
    (0xF7FFFFFFFFFF : BitVec 48).toNat < 0xF80000000000 ∧ 0xF80000000000 ≤ (0xF80000000000 : BitVec 48).toNat ∧ hostS.outOk .pf = false ∧
    hostS.platOk (.vf 2048) = false ∧ hostS.platOk .pf = true ∧ (updS 5).rd Reg.UPD_STAT Reg.UPD_STAT_PHASE = 5 ∧ hostS.rd Reg.UPD_STAT Reg.UPD_STAT_PHASE ≠ 5 ∧
    hostS.flag Reg.MBX_DOOR Reg.MBX_DOOR_REQ = false ∧ (withR [(Reg.MBX_DOOR, Reg.MBX_DOOR_REQ, 1)]).flag Reg.MBX_DOOR Reg.MBX_DOOR_REQ = true ∧
    ((State.reset.setSrc 679 { Src.reset with cond := false }).src 679).cond = false := by decide +kernel

set_option maxRecDepth 100000 in
theorem witness_HostInterface_vf : hostS.vfTenant 2048 = some 8191 ∧ hostS.vfTenant 1 = none ∧
    (match hostS.vfTo 8191 true (2 ^ 46 - 65537) with | .page _ => false | _ => true) = true := by decide +kernel

theorem witness_SidebandInterfaces : hostS.boot.inReset = false ∧
    ({ State.reset with boot := { State.reset.boot with inReset := true } } : State).boot.inReset = true ∧
    (withR [(Reg.ID_PART, Reg.ID_PART_SECMODE, 1)]).flag Reg.ID_PART Reg.ID_PART_SECMODE = true ∧ State.reset.flag Reg.ID_PART Reg.ID_PART_SECMODE = false := by
  decide +kernel

/-- Offset of the identity registers, which no write changes. -/
def idReg : BitVec 26 := BitVec.ofNat 26 Reg.ID_SERIAL

theorem witness_RegisterWrites : State.reset.platOk (.vf 0) = false ∧ State.reset.platOk .pf = true ∧ accMask (idReg.toNat + accAdd .w64) (accBytes .w64) = some (2 ^ 64 - 1) ∧
    accMask (1 + accAdd .w64) (accBytes .w64) = none ∧ accMask (idReg.toNat + accAdd .hi32) (accBytes .hi32) = some (2 ^ 64 - 2 ^ 32) ∧
    (withR [(Reg.UPD_BOOT, Reg.UPD_BOOT_STATE, 2)]).barOk .pf 0x2000000 = false ∧ State.reset.barOk .pf idReg.toNat = true ∧ (regAt 0xFFFF8).isNone = true ∧
    ((regAt idReg.toNat).any fun g => g.mask .rw == 0 && g.mask .wo == 0 && g.mask .w1c == 0 && g.base != Reg.KE_STAT && g.base != Reg.KE_CYCLES &&
      g.base != Reg.IC_SRC_TGT 0 0 && g.base != Reg.IC_SRC_TGT3 0 && g.base != Reg.IC_SRC_STAT 0) = true := by decide +kernel

theorem witness_RegisterInstructionsFrame : registerOnly (.add 0 4 1 2) = some (0, 4) ∧ ready? alu 0 = true ∧ (alu.engine 0).icount < 1023 ∧
    (runC (.add 0 4 1 2) alu).g 0 4 = ⟨tagI64, 8⟩ := by decide +kernel

theorem witness_LineWritesFrame : (lineSt 0).place (0x100 * 64) ≠ none ∧ ((lineSt 0).lockUnit ((lineSt 0).sliceOf 0)).held = false ∧ (lineSt 0).keyErr 0 0 = false ∧
    (lineSt 0).dirtyLine 0 = none ∧ (lineSt 0).remapLost 0 .clean = false ∧ (lineSt 0).finds 0 .clean = .clean ∧ (63 : Fin 64) ≠ 62 ∧ ((lineSt 0).line 0).st = 0 ∧ (lineSt 0).itagOk 0 xact.key.toNat = true ∧
    (runC (.partialLineWrite xact 0 [(63, 9)] [] .clean) (lineSt 0)).mem.byte ((lineSt 0).cell 0 * 64 + 63) = 9 := by decide +kernel

theorem witness_SoftwareInterrupts : State.reset.platOk .pf = true ∧ 960 ≤ (960 : BitVec 10).toNat ∧ (1019 : BitVec 10).toNat ≤ 1019 ∧
    (withR [(Reg.IC_SRC_CFG 1019, Reg.IC_SRC_CFG_OWNER, 8191)]).rd (Reg.IC_SRC_CFG 1019) Reg.IC_SRC_CFG_OWNER = (8191 : BitVec 13).toNat ∧
    State.reset.rd (Reg.IC_SRC_CFG 960) Reg.IC_SRC_CFG_OWNER ≠ (8191 : BitVec 13).toNat ∧ (959 : BitVec 10).toNat < 960 ∧ 1019 < (1020 : BitVec 10).toNat := by
  decide +kernel

theorem witness_QueueInFault : (queueS { QState.reset with fault := true } []).qAt (1 : BitVec 13).toNat 0 = some 7 ∧
    ((queueS { QState.reset with fault := true } []).queue 7).fault = true := by decide +kernel

theorem witness_OutboundWindow : 0xF80000000000 ≤ (0xFFFFFFFFFFFF : BitVec 48).toNat ∧ State.reset.outOk .steward = true ∧ State.reset.outOk (.master 25) = true := by
  decide +kernel

/-! Signed bytes. The owner's private key is 1, so its public key is the generator of P-384 and a signature with nonce 1 is (x, e + x). -/

/-- The public key of the scalar 1. -/
def pub : List Byte := beOf 48 gx384 ++ beOf 48 gy384

/-- A signature under the scalar 1. -/
def sign (msg : List Byte) : List Byte := beOf 48 (gx384 % n384) ++ beOf 48 ((beVal (sha384 msg) + gx384) % n384)

/-- `mem0` with `bs` in the DRAM from address 0, RAW and VALID, whose owner slot 0 is the key `pub`. -/
def ownerS (bs : List Byte) : State :=
  { mem0 with
    mem := (List.range ((bs.length + 63) / 64)).foldl (fun m l => m.putCell (mem0.cell l)
      ((List.range 8).map fun i => ⟨tagRaw, wordOf ((bs.drop (64 * l + 8 * i)).take 8)⟩) ⟨0, 0, 0, 0, l⟩) mem0.mem
    boot := { mem0.boot with fuses := { mem0.boot.fuses with owner := [BitVec.ofNat 384 (digestOf pub)] } } }

/-- A frame of a type with no payload. -/
def emptyFrame (ty : Nat) : List Nat := leBytes 2 ty ++ List.replicate 6 0 ++ leBytes 4 (crc32 (leBytes 2 ty ++ List.replicate 6 0)) ++ List.replicate 4 0

/-- A DELTA bitstream of SEQ 1 over SEQ 0 with no record: header, an empty frame, End, and the signature. -/
def delta : List Byte :=
  let m : List Byte := toBytes (leBytes 4 0x48505950 ++ leBytes 2 1 ++ leBytes 2 1 ++ leBytes 8 384 ++ leBytes 4 0xA00192 ++ leBytes 4 0 ++ leBytes 8 1 ++ leBytes 8 0 ++
    List.replicate 24 0) ++ pub ++ toBytes (List.replicate 96 0 ++ emptyFrame 14 ++ emptyFrame 0xFF)
  m ++ sign m

/-- Buffer 3 with `delta`, staged. -/
def deltaS : State := ((ownerS delta).wr (Reg.BSL_STGBASE 3) Reg.BSL_STGBASE_BASE 0)

/-- Whether the checks of a staged buffer pass. -/
def passes (s : State) (n : Nat) : Bool :=
  let x := s.stgBytes n
  match x.2.checkStream x.1 (s.stgCap n) true false with
  | .error _ => false
  | .ok _ => true

set_option maxRecDepth 100000 in
theorem witness_BitstreamStaging_accepts : passes deltaS 3 = true := by decide +kernel

/-- A revocation record for slot 3. -/
def revRec : List Byte :=
  let m : List Byte := toBytes (leBytes 4 0x5645524E ++ leBytes 4 0xA00192 ++ List.replicate 8 0 ++ [3] ++ List.replicate 47 0) ++ pub
  m ++ sign m

/-- The first entry of a directory, a PREFERRED bitstream, and the CRC of a copy that holds 0xFF after it. -/
def dirHead : List Byte := toBytes ((⟨3, 0, 2, 0x2000, 4096, 4096, 0⟩ : DirEnt).bytes 1)
def dirCrc : List Byte := toBytes (leBytes 4 (crc32 (natsOf dirHead ++ List.replicate 992 0xFF)))

/-- `revRec` at UPD_REVSRC under a slot that signs a PREFERRED bitstream. -/
def revGood : State :=
  let s := ownerS revRec
  { s with boot := { s.boot with flash := (dirHead.zipIdx.map fun p => (p.2, p.1)) ++ dirCrc.zipIdx.map fun p => (1024 + p.2, p.1) }, upd := { s.upd with revoking := some 3 } }

set_option maxRecDepth 100000 in
theorem witness_UpdateController_revoke : revGood.upd.revoking = some 3 ∧
    revGood.revokeCheck 3 (revGood.readBytes true (revGood.rd Reg.UPD_REVSRC Reg.UPD_REVSRC_PA) 256 0).1 = 0 := by decide +kernel

end Sys2Proof.Tests
end

/-! PROOFS. The register file at reset (00 R8), and writes of the platform view (00 R4 to R9, 19 R577). -/
namespace Sys2Proof.Machine
open Reg

/-! Registers at reset. -/

/-- Reset leaves every register at the reset value of its definition, so two offsets of one array read alike. -/
theorem State.rd_reset_congr {a b : Nat} (h : regAt a = regAt b) (f : Fld) : State.reset.rd a f = State.reset.rd b f := by
  have hr : State.reset.reg a = State.reset.reg b := by
    show regReset a = regReset b
    simp only [regReset, h]
  simp only [State.rd, hr]

/-! The elements of an array have one definition: no other register of the table stands at their offsets. -/

theorem regAt_ENG_EXC_STAT : ∀ e < 208, regAt (ENG_EXC_STAT e) = regAt (ENG_EXC_STAT 0) := by decide +kernel
theorem regAt_FOX_CTRL : ∀ e < 208, regAt (FOX_CTRL e) = regAt (FOX_CTRL 0) := by decide +kernel
theorem regAt_CLU_RED : ∀ c < 16, regAt (CLU_RED c) = regAt (CLU_RED 0) := by decide +kernel
theorem regAt_MRG_CLU : ∀ c < 16, regAt (MRG_CLU c) = regAt (MRG_CLU 0) := by decide +kernel
theorem regAt_OCT_CTRL : ∀ p < 6, regAt (OCT_CTRL p) = regAt (OCT_CTRL 0) := by decide +kernel

/-- The running bank in ENG_EXC_STAT (09 R344) and Foxglove's enable (06 R244) of every engine. -/
theorem State.reset_engine_regs (e : Nat) (he : e < 208) :
    State.reset.rd (ENG_EXC_STAT e) ENG_EXC_STAT_BANK = 7 ∧ State.reset.rd (FOX_CTRL e) FOX_CTRL_EN = 1 := by
  rw [State.rd_reset_congr (regAt_ENG_EXC_STAT e he), State.rd_reset_congr (regAt_FOX_CTRL e he)]
  decide +kernel

/-- The position of every cluster's spare (10 R385) and its planned voltage in mV (18 R575). -/
theorem State.reset_cluster_regs (c : Nat) (hc : c < 16) :
    State.reset.rd (CLU_RED c) CLU_RED_SPAREPOS = 12 ∧ State.reset.rd (MRG_CLU c) MRG_CLU_VMV = 800 := by
  rw [State.rd_reset_congr (regAt_CLU_RED c hc), State.rd_reset_congr (regAt_MRG_CLU c hc)]
  decide +kernel

/-- The replay threshold and the release of every port (14 R497). -/
theorem State.reset_port_regs (p : Nat) (hp : p < 6) :
    State.reset.rd (OCT_CTRL p) OCT_CTRL_RETRYTHR = 1000 ∧ State.reset.portReleased p = false := by
  simp only [State.portReleased, State.flag, State.rd_reset_congr (regAt_OCT_CTRL p hp)]
  decide +kernel

/-- The reset columns of section 02; STATE 2 is FREE, in which power-on reset leaves the unit (02 R54). -/
theorem State.reset_timebase_regs :
    State.reset.rd GAV_STAT GAV_STAT_STATE = 2 ∧ State.reset.rd GAV_TRACK GAV_TRACK_FMIN = 4000 ∧
    State.reset.rd GAV_TRACK GAV_TRACK_FMAX = 7000 ∧ State.reset.rd GAV_TRACK GAV_TRACK_HOLD_LIMIT = 60 ∧
    State.reset.rd GAV_FNOM GAV_FNOM_FNOM = 5000 ∧ State.reset.rd GAV_FREQ GAV_FREQ_FREQ = 50000000 ∧
    State.reset.rd GAV_TAI_CTRL GAV_TAI_CTRL_PPS_WIDTH = 100000 := by decide +kernel

/-- The reset columns of the event router, the update controller, the identity and the host registers. -/
theorem State.reset_device_regs :
    State.reset.rd EVR_OUTW EVR_OUTW_WIDTH = 10 ∧ State.reset.rd UPD_BOOT UPD_BOOT_STEP = 1 ∧
    State.reset.rd ID_PART ID_PART_PART = 402 ∧ State.reset.reg HOST_OUTBASE = 0 := by decide +kernel

/-- Settles O5: the model's own parts are at reset by definition, the registers by their table. -/
theorem resetState : Obligations.ResetState := by
  obtain ⟨hstate, hfmin, hfmax, hhold, hfnom, hfreq, hpps⟩ := State.reset_timebase_regs
  obtain ⟨hwidth, hstep, hpart, hout⟩ := State.reset_device_regs
  exact ⟨rfl, rfl, Mem.reset_wf, rfl, rfl, rfl, hstate, hfmin, hfmax, hhold, hfnom, hfreq, hpps, hwidth, hstep, hpart, hout,
    State.reset_engine_regs, State.reset_cluster_regs, State.reset_port_regs⟩

/-! Writes under the access codes, 00 R4. -/

section
variable (s : State)

@[simp] theorem blend_zero (x y : Nat) : blend x y 0 = x := by simp [blend]

/-- A write leaves the word of a register without RW and W1C fields. -/
theorem RegDef.merge_of_no_field (r : RegDef) (cur d m : Nat) (hrw : r.mask .rw = 0) (hw1c : r.mask .w1c = 0) :
    r.merge cur d m = cur := by simp [RegDef.merge, hrw, hw1c]

/-- A register set to the word that it holds. -/
theorem State.reg_setReg_self (off k : Nat) : (s.setReg off (s.reg off)).reg k = s.reg k := by
  by_cases h : k = off
  · rw [h, State.reg_setReg]
  · rw [State.reg_setReg_ne _ _ _ _ h]

@[simp] theorem State.reg_reply (resp k : Nat) (data : List TWord) : (s.reply resp data).reg k = s.reg k :=
  State.reg_congr (s.reply_regs resp data) k

/-- A write under the access codes changes the register's word alone where neither the routing of sources nor an overflow bit follows from it. -/
theorem State.wrPlain_eq (r : RegDef) (off d m : Nat) (htgt : r.base ≠ IC_SRC_TGT 0 0) (htgt3 : r.base ≠ IC_SRC_TGT3 0)
    (hstat : r.base ≠ IC_SRC_STAT 0) :
    s.wrPlain r off d m = (s.setReg off (BitVec.ofNat 64 (r.merge (s.reg off).toNat d m))).reply respOk [] := by
  simp [State.wrPlain, htgt, htgt3, hstat]

/-- A register without RW and WO fields is written under the access codes alone; KE_STAT and KE_CYCLES ask for the Steward first. -/
theorem State.wrReg_of_not_writable (q : Requester) (r : RegDef) (off d m : Nat) (hrw : r.mask .rw = 0) (hwo : r.mask .wo = 0)
    (hst : r.base ≠ KE_STAT) (hcy : r.base ≠ KE_CYCLES) : s.wrReg q r off d m = s.wrPlain r off d m := by
  simp [State.wrReg, hrw, hwo, hst, hcy]

/-- A write of a register that software cannot change is answered OK and leaves every register. -/
theorem State.wrReg_of_read_only (q : Requester) (r : RegDef) (off d m : Nat)
    (hrw : r.mask .rw = 0) (hwo : r.mask .wo = 0) (hw1c : r.mask .w1c = 0) (hst : r.base ≠ KE_STAT) (hcy : r.base ≠ KE_CYCLES)
    (htgt : r.base ≠ IC_SRC_TGT 0 0) (htgt3 : r.base ≠ IC_SRC_TGT3 0) (hstat : r.base ≠ IC_SRC_STAT 0) :
    (s.wrReg q r off d m).answer = ⟨respOk, []⟩ ∧ ∀ k, (s.wrReg q r off d m).reg k = s.reg k := by
  have hw : s.wrReg q r off d m = (s.setReg off (s.reg off)).reply respOk [] := by
    rw [s.wrReg_of_not_writable q r off d m hrw hwo hst hcy, s.wrPlain_eq r off d m htgt htgt3 hstat,
      r.merge_of_no_field _ _ _ hrw hw1c, BitVec.ofNat_toNat, BitVec.setWidth_eq]
  rw [hw]
  exact ⟨rfl, fun k => by rw [State.reg_reply, State.reg_setReg_self]⟩

/-! The order in which a write of the platform view is judged, 00 R9 and 19 R577. -/

variable {q : Requester} {off size : Nat} {d : Word}

theorem State.platWrite_not_platOk (h : s.platOk q = false) : s.platWrite q off size d = s.reply errPerm [] := by
  simp [State.platWrite, h]

theorem State.platWrite_bad_access (h : s.platOk q = true) (hm : accMask off size = none) :
    s.platWrite q off size d = s.reply errTarget [] := by simp [State.platWrite, h, hm]

theorem State.platWrite_not_barOk {m : Nat} (h : s.platOk q = true) (hm : accMask off size = some m)
    (hb : s.barOk q (off / 8 * 8) = false) : s.platWrite q off size d = s.reply errDecode [] := by
  simp [State.platWrite, h, hm, hb]

theorem State.platWrite_no_register {m : Nat} (h : s.platOk q = true) (hm : accMask off size = some m)
    (hb : s.barOk q (off / 8 * 8) = true) (hr : regAt (off / 8 * 8) = none) : s.platWrite q off size d = s.reply errDecode [] := by
  simp [State.platWrite, h, hm, hb, hr]

theorem State.platWrite_register {m : Nat} {g : RegDef} (h : s.platOk q = true) (hm : accMask off size = some m)
    (hb : s.barOk q (off / 8 * 8) = true) (hr : regAt (off / 8 * 8) = some g) :
    s.platWrite q off size d = s.wrReg q g (off / 8 * 8) (if off % 8 = 4 then d.toNat * 2 ^ 32 else d.toNat) m := by
  simp [State.platWrite, h, hm, hb, hr]

theorem exec_registerWrite (r : Requester) (off : BitVec 26) (sz : AccSz) (d : Word) :
    exec (.registerWrite r off sz d) s = .next (s.platWrite r (off.toNat + accAdd sz) (accBytes sz) d) := rfl

end

/-- Settles O55: the refusals in their order, and a register without a writable field keeps its word. -/
theorem registerWrites : Obligations.RegisterWrites := by
  intro r off sz d s
  simp only [exec_registerWrite]
  refine ⟨fun h => ?_, fun h hm => ?_, fun m h hm => ⟨fun hb => ?_, fun hb hr => ?_, fun g hb hr => ?_, ?_⟩⟩
  · rw [s.platWrite_not_platOk h]
  · rw [s.platWrite_bad_access h hm]
  · rw [s.platWrite_not_barOk h hm hb]
  · rw [s.platWrite_no_register h hm hb hr]
  · rw [s.platWrite_register h hm hb hr]
  · intro g hb hr hrw hwo hw1c hst hcy htgt htgt3 hstat
    rw [s.platWrite_register h hm hb hr]
    exact ⟨_, rfl, s.wrReg_of_read_only r g _ _ m hrw hwo hw1c hst hcy htgt htgt3 hstat⟩

end Sys2Proof.Machine

/-! PROOFS. What leaves the engines alone: interrupts and records, the slices with their directory, the local stores.
Where a word of a register is built from numbers, `simp -implicitDefEqProofs` keeps the kernel from computing that word to check a step that holds by definition. -/
namespace Sys2Proof.Machine

section
variable (s : State)

/-- Each step of a loop leaves the engines alone, so the loop does. -/
theorem eachDo_eng {β : Type} {f : β → State → State} (h : ∀ x t, (f x t).eng = t.eng) (xs : List β) (s : State) :
    (eachDo xs f s).eng = s.eng := by
  induction xs generalizing s with
  | nil => rfl
  | cons x xs ih => exact (ih (f x s)).trans (h x s)

/-- A choice between two states with one set of engines. -/
theorem State.ite_eng {c : Prop} [Decidable c] {s t u : State} (ht : t.eng = s.eng) (hu : u.eng = s.eng) :
    (if c then t else u).eng = s.eng := by
  split_ifs <;> assumption

/-! Interrupts (12 R426) and the event recorder (18). -/

@[simp] theorem State.refreshHost_eng (c : Nat) : (s.refreshHost c).eng = s.eng := by
  unfold State.refreshHost State.sendMsix
  dsimp only
  split_ifs
  · rfl
  · split
    · rfl
    · split_ifs <;> rfl

@[simp] theorem State.refreshSrc_eng (i : Nat) : (s.refreshSrc i).eng = s.eng := by
  unfold State.refreshSrc
  split <;> simp

@[simp] theorem State.assert_eng (i : Nat) : (s.assert i).eng = s.eng := by
  simp [State.assert, apply_ite State.eng]

@[simp] theorem State.setErr_eng (off : Nat) (f : Fld) (src : Nat) : (s.setErr off f src).eng = s.eng := by simp [State.setErr]

@[simp] theorem State.flashCopy_eng (r : MRec) : (s.flashCopy r).eng = s.eng := rfl

@[simp] theorem State.dramCopy_eng (r : MRec) : (s.dramCopy r).eng = s.eng := by simp [State.dramCopy, apply_ite State.eng]

@[simp] theorem State.spill_eng : s.spill.eng = s.eng := by
  simp [State.spill, apply_ite State.eng, eachDo_eng]

@[simp] theorem State.writeRec_eng (x : MSub) : (s.writeRec x).eng = s.eng := by
  unfold State.writeRec
  extract_lets rest head flags r t _ written flashed _ asserted fresh _
  have hwritten : written.eng = s.eng := by simp [written, t]
  have hflashed : flashed.eng = s.eng := State.ite_eng ((written.flashCopy_eng r).trans hwritten) hwritten
  have hasserted : asserted.eng = s.eng := State.ite_eng ((State.assert_eng _ 938).trans hflashed) hflashed
  have hfresh : fresh.eng = s.eng := asserted.spill_eng.trans hasserted
  clear_value fresh
  split
  · exact State.ite_eng (State.ite_eng rfl rfl) hfresh
  · exact hfresh

@[simp] theorem State.loseRec_eng : s.loseRec.eng = s.eng := by simp [State.loseRec]

@[simp] theorem State.submit_eng (arr : List MSub) : (s.submit arr).eng = s.eng := by simp [State.submit, eachDo_eng]

@[simp] theorem State.recordSev_eng (i sev unit p0 p1 tenant : Nat) : (s.recordSev i sev unit p0 p1 tenant).eng = s.eng := by
  simp [State.recordSev]

@[simp] theorem State.recordReg_eng (i unit off : Nat) : (s.recordReg i unit off).eng = s.eng := by
  simp [State.recordReg, State.record]

@[simp] theorem State.defaultTarget_eng (addr mid pos : Nat) : (s.defaultTarget addr mid pos).eng = s.eng := by
  simp -implicitDefEqProofs [State.defaultTarget]

/-! Errors and retirement of a pseudo-channel, 06 R221 to R227. -/

@[simp] theorem State.slcEvent_eng (sl : Nat) (f : Fld) (sev key : Nat) : (s.slcEvent sl f sev key).eng = s.eng := by simp [State.slcEvent]

@[simp] theorem State.setRemap_eng (p : Nat) (b : Bool) : (s.setRemap p b).eng = s.eng := by
  simp [State.setRemap, eachDo_eng, apply_ite State.eng]

@[simp] theorem State.startMig_eng (p dir : Nat) : (s.startMig p dir).eng = s.eng := by
  simp -implicitDefEqProofs [State.startMig, State.rewriteRemap]

@[simp] theorem State.meetsLimit_eng (p : Nat) : (s.meetsLimit p).eng = s.eng := by
  simp [State.meetsLimit, State.retirePc, State.setPcState, apply_ite State.eng]

@[simp] theorem State.pcUe_eng (p : Nat) : (s.pcUe p).eng = s.eng := by simp [State.pcUe, apply_ite State.eng]

@[simp] theorem State.pcCe_eng (p : Nat) : (s.pcCe p).eng = s.eng := by simp [State.pcCe, apply_ite State.eng]

@[simp] theorem State.slcLog_eng (sl kind l key : Nat) : (s.slcLog sl kind l key).eng = s.eng := by
  simp -implicitDefEqProofs [State.slcLog]

@[simp] theorem State.lineUe_eng (l key : Nat) : (s.lineUe l key).eng = s.eng := by
  simp -implicitDefEqProofs [State.lineUe, State.cellUe, State.poisonCell]

@[simp] theorem State.integEvent_eng (l key : Nat) : (s.integEvent l key).eng = s.eng := by
  simp -implicitDefEqProofs [State.integEvent]

@[simp] theorem State.keyErrEvent_eng (l key : Nat) : (s.keyErrEvent l key).eng = s.eng := by
  simp -implicitDefEqProofs [State.keyErrEvent]

@[simp] theorem State.eccCe_eng (l : Nat) (ecc : Ecc) : (s.eccCe l ecc).eng = s.eng := by
  simp [State.eccCe, State.stale, apply_ite State.eng]

@[simp] theorem State.remapEcc_eng (l key : Nat) : (s.remapEcc l key).eng = s.eng := by
  unfold State.remapEcc
  split <;> simp [apply_ite State.eng]

/-! Reads and writes of a slice and its directory, 06 R218 to R220 and 11 R407. -/

@[simp] theorem State.sliceRead_eng (l key : Nat) (ecc : Ecc) : (s.sliceRead l key ecc).2.2.eng = s.eng := by
  unfold State.sliceRead
  dsimp only
  split_ifs <;> simp

@[simp] theorem State.slicePartial_eng (l key : Nat) (ecc : Ecc) (new : Nat → Option Byte) (tg : Nat → Option Tag) :
    (s.slicePartial l key ecc new tg).2.eng = s.eng := by
  unfold State.slicePartial
  dsimp only
  split_ifs <;> simp -implicitDefEqProofs [State.poisonMeta]

@[simp] theorem State.takeSlot_eng (r p : Nat) : (s.takeSlot r p).eng = s.eng := by
  unfold State.takeSlot
  split <;> rfl

@[simp] theorem State.takeSlots_eng (l n : Nat) : (s.takeSlots l n).eng = s.eng := by
  unfold State.takeSlots
  split <;> simp [eachDo_eng]

@[simp] theorem State.collect_eng (l : Nat) : (s.collect l).eng = s.eng := by
  unfold State.collect
  split <;> simp

@[simp] theorem State.cohRead_eng (l key : Nat) (ecc : Ecc) : (s.cohRead l key ecc).2.2.eng = s.eng := by
  unfold State.cohRead
  dsimp only
  split_ifs
  · simp
  · split <;> simp

@[simp] theorem State.cohFull_eng (l key : Nat) (ws : List TWord) : (s.cohFull l key ws).2.eng = s.eng := by
  unfold State.cohFull
  split_ifs <;> simp

@[simp] theorem State.cohPartial_eng (l key : Nat) (ecc : Ecc) (new : Nat → Option Byte) (tg : Nat → Option Tag) :
    (s.cohPartial l key ecc new tg).2.eng = s.eng := by
  unfold State.cohPartial
  split_ifs <;> simp

@[simp] theorem State.dropHolder_eng (l c : Nat) : (s.dropHolder l c).eng = s.eng := by simp [State.dropHolder, apply_ite State.eng]

@[simp] theorem State.dirRoom_eng (l : Nat) : (s.dirRoom l).eng = s.eng := by
  unfold State.dirRoom State.takeFree
  dsimp only
  split_ifs
  · rfl
  · split <;> simp

@[simp] theorem State.cacheRoom_eng (c : Nat) : (s.cacheRoom c).eng = s.eng := by
  unfold State.cacheRoom State.takeFree
  dsimp only
  split_ifs
  · rfl
  · rfl
  · split <;> simp

@[simp] theorem State.fillCore_eng (c pos : Nat) (data : Bool) (l : Nat) : (s.fillCore c pos data l).eng = s.eng := by
  unfold State.fillCore State.takeFree
  dsimp only
  split_ifs
  · rfl
  · simp
  · split <;> simp

@[simp] theorem State.dirRdS_eng (c l key : Nat) : (s.dirRdS c l key).2.2.eng = s.eng := by
  unfold State.dirRdS
  split_ifs
  · simp
  extract_lets d t r room sh
  have hr : r.2.2.eng = s.eng := by
    dsimp only [r]
    split
    · simp [t]
    · split_ifs <;> simp [t]
  clear_value r
  split_ifs
  · rfl
  · simp [room, apply_ite State.eng, hr]
  · simp [room, apply_ite State.eng, hr]
  · exact hr

@[simp] theorem State.dirRdU_eng (c l key : Nat) : (s.dirRdU c l key).2.2.eng = s.eng := by
  unfold State.dirRdU
  split_ifs
  · simp
  extract_lets d own t r room filled
  have hr : r.2.2.eng = s.eng := by
    dsimp only [r]
    split_ifs
    · rfl
    · split <;> simp [t]
  clear_value r
  split_ifs
  · simp [filled, room, apply_ite State.eng, hr]
  · exact hr

@[simp] theorem State.cacheStore_eng (c l key : Nat) (data : List (Nat × Byte)) (tags : List (Nat × Tag)) :
    (s.cacheStore c l key data tags).2.eng = s.eng := by
  simp [State.cacheStore, apply_ite Prod.snd, apply_ite State.eng]

/-! Local vector stores, 06 R233 to R235. -/

@[simp] theorem State.markDirty_eng (e r : Nat) : (s.markDirty e r).eng = s.eng := by simp [State.markDirty, apply_ite State.eng]

@[simp] theorem State.setLvsWord_eng (e o : Nat) (x : TWord) : (s.setLvsWord e o x).eng = s.eng := by
  unfold State.setLvsWord
  dsimp only
  split_ifs
  · simp
  · split <;> simp
  · simp
  · simp

@[simp] theorem State.lvsUe_eng (e r o : Nat) : (s.lvsUe e r o).eng = s.eng := by simp [State.lvsUe]

@[simp] theorem State.lvsCheck_eng (e o : Nat) : (s.lvsCheck e o).eng = s.eng := by
  unfold State.lvsCheck
  split <;> simp

@[simp] theorem State.lvsWrite_eng (e line : Nat) (data : List (Nat × Byte)) (tags : List (Nat × Tag)) :
    (s.lvsWrite e line data tags).2.eng = s.eng := by
  simp [State.lvsWrite, State.lvsPut, apply_ite Prod.snd, apply_ite State.eng, eachDo_eng]

@[simp] theorem State.setLock_eng (sl : Nat) (u : LockUnit) : (s.setLock sl u).eng = s.eng := rfl

end
end Sys2Proof.Machine

/-! PROOFS. No slot begins or ends while stores are answered, requests arrive at their slices and commits complete. -/
namespace Sys2Proof.Machine

/-- The slot that each engine is in. -/
def inSlots (es : Sparse Engine) (e : Nat) : Option Nat := (sget (fun _ => Engine.reset) es e).inSlot

theorem State.inSlots_eng (s : State) (e : Nat) : inSlots s.eng e = (s.engine e).inSlot := rfl

section
variable (s : State)

@[simp] theorem State.modEngine_inSlots (e : Nat) {f : Engine → Engine} (h : ∀ x : Engine, (f x).inSlot = x.inSlot) :
    inSlots (s.modEngine e f).eng = inSlots s.eng := by
  funext d
  rw [State.inSlots_eng, State.inSlots_eng]
  by_cases hd : d = e
  · rw [hd, State.engine_modEngine, h]
  · rw [State.engine_modEngine_ne _ _ _ _ hd]

/-! Responses and slice requests, 11 R395 to R401. -/

@[simp] theorem State.modAsync_inSlots (e : Nat) (f : Core → Core) : inSlots (s.modAsync e f).eng = inSlots s.eng := by
  simp [State.modAsync]

@[simp] theorem State.storeAnswered_inSlots (e resp : Nat) : inSlots (s.storeAnswered e resp).eng = inSlots s.eng := by
  unfold State.storeAnswered
  split
  · rfl
  · simp [State.deferStore, State.deferErr, apply_ite State.eng, apply_ite inSlots]

@[simp] theorem State.respond_inSlots (mid pos resp : Nat) (ws : List TWord) :
    inSlots (s.respond mid pos resp ws).eng = inSlots s.eng := by
  simp [State.respond, apply_ite State.eng, apply_ite inSlots]

@[simp] theorem State.lkldServe_inSlots (r : SliceReq) : inSlots (s.lkldServe r).eng = inSlots s.eng := by
  simp [State.lkldServe, apply_ite State.eng, apply_ite inSlots]

@[simp] theorem State.serve_inSlots (r : SliceReq) : inSlots (s.serve r).eng = inSlots s.eng := by
  unfold State.serve
  split
  case h_5 => -- a fetch or load, which may fill a core's cache
    dsimp only
    split <;> simp [apply_ite State.eng]
  all_goals simp -implicitDefEqProofs [apply_ite State.eng]

@[simp] theorem State.arrive_inSlots (r : SliceReq) : inSlots (s.arrive r).eng = inSlots s.eng := by
  unfold State.arrive
  dsimp only
  split_ifs
  · split <;> simp
  all_goals simp

/-! Commits, 10 R352 and R353. -/

@[simp] theorem State.releaseStore_inSlots (e : Nat) (g : GStore) : inSlots (s.releaseStore e g).eng = inSlots s.eng := by
  unfold State.releaseStore
  extract_lets l c held t r cached r'
  have hcached : inSlots cached.eng = inSlots s.eng := by
    simp [cached, r, t, apply_ite State.eng, apply_ite inSlots]
  clear_value cached
  split_ifs
  · simp [r']
  · simp
  all_goals split <;> simp [hcached]

@[simp] theorem State.drainSteps_inSlots (n e : Nat) : inSlots (State.drainSteps n e s).eng = inSlots s.eng := by
  induction n generalizing s with
  | zero => rfl
  | succ k ih =>
    unfold State.drainSteps
    split
    · rfl
    · simp [ih, apply_ite State.eng, apply_ite inSlots]

@[simp] theorem State.completeCommit_inSlots (e : Nat) : inSlots (s.completeCommit e).eng = inSlots s.eng := by
  unfold State.completeCommit
  split
  · rfl
  · simp [State.drainOut]

@[simp] theorem State.commitNow_inSlots (e : Nat) : inSlots (s.commitNow e).eng = inSlots s.eng := by
  simp [State.commitNow, State.commitPoint]

theorem State.inSlot_parkPlat (e : Nat) : ((s.parkPlat e).engine e).inSlot = (s.engine e).inSlot := by
  have h : inSlots (s.parkPlat e).eng = inSlots s.eng := by simp [State.parkPlat, State.modCore]
  exact congrFun h e

end
end Sys2Proof.Machine

/-! PROOFS. Slots: delivery, the end of the usable part, the end, and the cutoff of platform time (01 R28 to R38, 10 R363). -/
namespace Sys2Proof.Machine
open Reg

section
variable (s : State) (e n : Nat)

@[simp] theorem State.rd_modEngine (f : Engine → Engine) (off : Nat) (g : Fld) : (s.modEngine e f).rd off g = s.rd off g := rfl
@[simp] theorem State.flag_modEngine (f : Engine → Engine) (off : Nat) (g : Fld) : (s.modEngine e f).flag off g = s.flag off g := rfl
@[simp] theorem State.engine_wr (off : Nat) (f : Fld) (v d : Nat) : (s.wr off f v).engine d = s.engine d := rfl
@[simp] theorem State.core_wr (off : Nat) (f : Fld) (v d : Nat) : (s.wr off f v).core d = s.core d := rfl

/-! Delivery of a start, 01 R29 to R31. -/

/-- The delivery of slot `n` uses up its decision of the cycle, 02 R71. -/
def State.dispatched : State :=
  { s with gav := { s.gav with dispatch := s.gav.dispatch.filter fun d => some (d / 64) != s.logicalOf e || d % 64 != n } }

/-- The slot counter is loaded for slot `n`, and platform time is no longer cut off, as the slot begins. -/
def State.delivered : State :=
  (((s.dispatched e n).wr (ENG_SLOT_STAT e) ENG_SLOT_STAT_CUR n).wr (ENG_SLOT_STAT e) ENG_SLOT_STAT_REMAIN
    (s.rd (ENG_SLOTB e n) ENG_SLOTB_BUDGET)).modEngine e fun x => { x with cutoff := false }

@[simp] theorem State.engine_delivered : (s.delivered e n).engine e = { s.engine e with cutoff := false } := by
  simp only [State.delivered, State.engine_modEngine, State.engine_wr]
  rfl

@[simp] theorem State.core_delivered : (s.delivered e n).core e = s.core e := by simp [State.core]

theorem State.rd_delivered_cur (hn : n < 64) : (s.delivered e n).rd (ENG_SLOT_STAT e) ENG_SLOT_STAT_CUR = n := by
  rw [State.delivered, State.rd_modEngine, State.rd_wr_ne _ _ _ _ _ (by decide) (by decide), State.rd_wr _ _ _ _ (by decide)]
  exact Nat.mod_eq_of_lt hn

theorem State.rd_delivered_remain :
    (s.delivered e n).rd (ENG_SLOT_STAT e) ENG_SLOT_STAT_REMAIN = s.rd (ENG_SLOTB e n) ENG_SLOTB_BUDGET := by
  rw [State.delivered, State.rd_modEngine, State.rd_wr _ _ _ _ (by decide)]
  exact Nat.mod_eq_of_lt (bits_lt _ _ _)

theorem ENG_TNG_STAT_ne_ENG_SLOT_STAT : ENG_TNG_STAT e ≠ ENG_SLOT_STAT e := by simp [ENG_TNG_STAT, ENG_SLOT_STAT]

theorem State.recov_delivered :
    (s.delivered e n).flag (ENG_TNG_STAT e) ENG_TNG_STAT_RECOV = s.flag (ENG_TNG_STAT e) ENG_TNG_STAT_RECOV := by
  have h := ENG_TNG_STAT_ne_ENG_SLOT_STAT e
  rw [State.delivered, State.flag_modEngine, State.flag, State.rd_wr_off _ _ _ _ _ _ h, State.rd_wr_off _ _ _ _ _ _ h]
  rfl

/-- Outside a slot only the escalation handler holds on. -/
theorem State.holdsOn_of_inSlot_none (h : (s.engine e).inSlot = none) : s.holdsOn e = (s.core e).feh := by
  simp [State.holdsOn, State.tenantSlot, h]

/-- An enabled slot starts at once on an idle engine outside a slot. -/
theorem State.slotStart_of_idle (hen : s.slotEnabled e n = true)
    (hho : ¬ (s.hoPhase (clusterOf e) = 4 ∧ s.hoSrc (clusterOf e) = e)) (hstop : (s.engine e).stopped = false)
    (hslot : (s.engine e).inSlot = none) (hrec : s.flag (ENG_TNG_STAT e) ENG_TNG_STAT_RECOV = false)
    (hfeh : (s.core e).feh = false) (hidle : (s.core e).idle = true) :
    s.slotStart e n = (s.delivered e n).beginSlot e n := by
  have hslot' : ((s.delivered e n).engine e).inSlot = none := by simp [hslot]
  have hrec' : (s.delivered e n).flag (ENG_TNG_STAT e) ENG_TNG_STAT_RECOV = false := by rw [State.recov_delivered, hrec]
  have hhold : (s.delivered e n).holdsOn e = false := by
    rw [State.holdsOn_of_inSlot_none _ _ hslot', State.core_delivered, hfeh]
  unfold State.slotStart
  rw [if_neg (by simp [hen])]
  extract_lets c gav used counted loaded recov noted ready
  have hhoUsed : ¬ (used.hoPhase c = 4 ∧ used.hoSrc c = e) := hho
  have hstopUsed : (used.engine e).stopped = false := hstop
  have hloaded : loaded = s.delivered e n := rfl
  have hnoted : noted = s.delivered e n := by simp [noted, recov, hloaded, hslot, hrec', hhold]
  have hready : ready = s.delivered e n := by simp [ready, hnoted, hslot, hidle]
  rw [if_neg hhoUsed, if_neg (by simp [hstopUsed]), if_neg (by simp [recov, hloaded, hnoted, hrec', hhold]), hready]

theorem State.slotStart_of_not_enabled (h : s.slotEnabled e n = false) : s.slotStart e n = s := by
  simp [State.slotStart, h]

/-! The end of the usable part and of the slot, 01 R31 to R35. -/

section
variable {e : EngId} {s t : State} (hslot : (s.engine e).inSlot ≠ none)
include hslot

/-- The tenant is preempted when the counter reaches the end of the usable part and nothing holds on. -/
theorem execUsablePartEnd_preempts (ht : t = s.wr (ENG_SLOT_STAT e) ENG_SLOT_STAT_REMAIN 2000) (hph : t.slotPhase e = 1)
    (hrec : t.flag (ENG_TNG_STAT e) ENG_TNG_STAT_RECOV = false) (hhold : t.holdsOn e = false) :
    execUsablePartEnd e s = .next (t.preempt e) := by
  simp [execUsablePartEnd, ← ht, hslot, hph, hrec, hhold]

/-- A recovery or a prompt handler delays the closing sequence, 10 R363 and 09 R324. -/
theorem execUsablePartEnd_delays (ht : t = s.wr (ENG_SLOT_STAT e) ENG_SLOT_STAT_REMAIN 2000) (hph : t.slotPhase e = 1)
    (hbusy : t.flag (ENG_TNG_STAT e) ENG_TNG_STAT_RECOV = true ∨ t.holdsOn e = true) :
    execUsablePartEnd e s = .next (t.modEngine e fun x => { x with closePending := true }) := by
  simp [execUsablePartEnd, ← ht, hslot, hph, hbusy]

/-- A slot that nothing holds ends; a tenant that still runs in it is preempted first. -/
theorem execSlotEnd_leaves (ht : t = s.wr (ENG_SLOT_STAT e) ENG_SLOT_STAT_REMAIN 0)
    (hrec : t.flag (ENG_TNG_STAT e) ENG_TNG_STAT_RECOV = false) (hhold : t.holdsOn e = false) :
    execSlotEnd e s = .next ((if t.slotPhase e = 1 then t.preempt e else t).leaveSlot e) := by
  simp [execSlotEnd, ← ht, hslot, hrec, hhold]

/-- After a second mismatch in the slot's reserve the recovery ends with the slot, 01 R34. -/
theorem execSlotEnd_ends_recovery (ht : t = s.wr (ENG_SLOT_STAT e) ENG_SLOT_STAT_REMAIN 0)
    (hrec : t.flag (ENG_TNG_STAT e) ENG_TNG_STAT_RECOV = true) (hres : 2 ≤ (t.engine e).reserveRec) :
    execSlotEnd e s = .next (((t.modAsync e fun c => c.park (t.curBank e)).wr (ENG_TNG_STAT e) ENG_TNG_STAT_RECOV 0).leaveSlot e) := by
  simp [execSlotEnd, ← ht, hslot, hrec, hres]

end

theorem State.inSlot_resumePlat : ((s.resumePlat e).engine e).inSlot = (s.engine e).inSlot := by
  unfold State.resumePlat
  split_ifs
  · rfl
  · simp [State.modAsync]

theorem State.inSlot_leaveSlot : ((s.leaveSlot e).engine e).inSlot = none := by
  rw [State.leaveSlot, State.inSlot_resumePlat]
  simp [State.modAsync]

/-! The cutoff of platform time, 10 R363. -/

/-- The next delivery is near, and platform time starts nothing more. -/
def State.nearDelivery : State := s.modEngine e fun x => { x with cutoff := true }

@[simp] theorem State.engine_nearDelivery : (s.nearDelivery e).engine e = { s.engine e with cutoff := true } := by
  simp [State.nearDelivery]

@[simp] theorem State.core_nearDelivery : (s.nearDelivery e).core e = s.core e := by simp [State.core]

/-- The cutoff changes no slot. -/
@[simp] theorem State.tenantSlot_nearDelivery : (s.nearDelivery e).tenantSlot e = s.tenantSlot e := by
  rw [State.tenantSlot, State.engine_nearDelivery]
  rfl

/-- In a tenant slot, and on an idle engine, no platform-time context stops. -/
theorem State.stopPlat_of_no_context (h : s.tenantSlot e = true ∨ (s.core e).idle = true) : s.stopPlat e = s := by
  unfold State.stopPlat
  rw [if_pos]
  rcases h with h | h <;> simp [h]

/-- A platform-time context that runs outside a slot stops once the next delivery is near. -/
theorem State.stopPlat_nearDelivery (hten : s.tenantSlot e = false) (hidle : (s.core e).idle = false)
    (hfeh : (s.core e).feh = false) (hprompt : (s.core e).prompting = none) (hstop : (s.engine e).stopped = false)
    (hrec : s.flag (ENG_TNG_STAT e) ENG_TNG_STAT_RECOV = false) (hslot : (s.engine e).inSlot = none) :
    (s.nearDelivery e).stopPlat e = (s.nearDelivery e).parkPlat e := by
  have hrec' : (s.nearDelivery e).flag (ENG_TNG_STAT e) ENG_TNG_STAT_RECOV = false := hrec
  have hpark : (((s.nearDelivery e).parkPlat e).engine e).inSlot = none := by
    rw [State.inSlot_parkPlat, State.engine_nearDelivery, hslot]
  simp [State.stopPlat, hten, hidle, hfeh, hprompt, hstop, hrec', hpark]

end

/-- Settles O18: a start, the two ends of a slot and the cutoff, each by the case of its command. -/
theorem slotDelivery : Obligations.SlotDelivery := by
  intro e n s
  refine ⟨fun hen hho hstop hslot hrec hfeh hidle => ?_, fun hen => ?_, fun t ht hslot hrec hph hhold => ?_,
    fun t ht hslot hph hbusy => ?_, fun t ht hslot => ⟨t.inSlot_leaveSlot e, fun hrec hhold => ?_, fun hrec hres => ?_⟩,
    fun h => ?_, fun hten hidle hfeh hprompt hstop hrec hslot => ?_⟩
  · refine ⟨s.delivered e n, ?_, s.rd_delivered_cur e n n.isLt, s.rd_delivered_remain e n, by simp, by simp⟩
    exact congrArg Host.Outcome.next (s.slotStart_of_idle e n hen hho hstop hslot hrec hfeh hidle)
  · exact congrArg Host.Outcome.next (s.slotStart_of_not_enabled e n hen)
  · exact execUsablePartEnd_preempts (Option.isSome_iff_ne_none.mp hslot) ht hph hrec hhold
  · exact execUsablePartEnd_delays (Option.isSome_iff_ne_none.mp hslot) ht hph hbusy
  · exact execSlotEnd_leaves (Option.isSome_iff_ne_none.mp hslot) ht hrec hhold
  · exact execSlotEnd_ends_recovery (Option.isSome_iff_ne_none.mp hslot) ht hrec (by simpa [ht] using hres)
  · exact congrArg Host.Outcome.next ((s.nearDelivery e).stopPlat_of_no_context e (by simpa using h))
  · exact congrArg Host.Outcome.next (s.stopPlat_nearDelivery e hten hidle hfeh hprompt hstop hrec hslot)

end Sys2Proof.Machine

/-! PROOFS. What memory, engines, interrupts and records leave of the state: the timebase, the pins, the queue manager and the other units.
Where a word of a register is built from numbers, `simp -implicitDefEqProofs` keeps the kernel from computing it to check a step by definition. -/
namespace Sys2Proof.Machine

/-- The state without the registers, memory, the engines, the interrupt controller, the recorder, free values and what the outside receives. -/
def State.rest (s : State) : State :=
  { s with regs := [], mem := Mem.reset, eng := [], ic := Ic.reset, mgd := Marigold.reset, free := 0, answer := ⟨0, []⟩, outbox := [] }

/-- The state without what presenting and claiming an interrupt changes, 12 R424 to R427. -/
def State.sansClaims (s : State) : State := { s with ic := Ic.reset, eng := [], answer := ⟨0, []⟩, outbox := [] }

/-- What every step of a loop leaves alone, the loop leaves alone. -/
theorem eachDo_invariant {α β : Type} (π : State → α) {f : β → State → State} (h : ∀ x t, π (f x t) = π t) (xs : List β) (s : State) :
    π (eachDo xs f s) = π s := by
  induction xs generalizing s with
  | nil => rfl
  | cons x xs ih => exact (ih (f x s)).trans (h x s)

theorem eachDo_rest {β : Type} {f : β → State → State} (h : ∀ x t, (f x t).rest = t.rest) (xs : List β) (s : State) :
    (eachDo xs f s).rest = s.rest := eachDo_invariant State.rest h xs s

section
variable {s t u : State}

theorem State.gav_of_rest (h : t.rest = s.rest) : t.gav = s.gav := (congrArg State.gav h :)

theorem State.rest_of_sansClaims (h : t.sansClaims = s.sansClaims) : t.rest = s.rest := (congrArg State.rest h :)

theorem State.regs_of_sansClaims (h : t.sansClaims = s.sansClaims) : t.regs = s.regs := (congrArg State.regs h :)

/-- A choice between two states that leave the same. -/
theorem State.ite_rest {c : Prop} [Decidable c] (ht : t.rest = s.rest) (hu : u.rest = s.rest) : (if c then t else u).rest = s.rest := by
  split_ifs <;> assumption

end

section
variable (s : State)

/-! Updates. -/

@[simp] theorem State.rest_update {r m e i d f a o} :
    State.rest { s with regs := r, mem := m, eng := e, ic := i, mgd := d, free := f, answer := a, outbox := o } = s.rest := rfl
@[simp] theorem State.setReg_rest (off : Nat) (w : Word) : (s.setReg off w).rest = s.rest := rfl
@[simp] theorem State.wr_rest (off : Nat) (f : Fld) (v : Nat) : (s.wr off f v).rest = s.rest := rfl
@[simp] theorem State.count_rest (off : Nat) (f : Fld) (n : Nat) : (s.count off f n).rest = s.rest := rfl
@[simp] theorem State.modEngine_rest (e : Nat) (f : Engine → Engine) : (s.modEngine e f).rest = s.rest := rfl
@[simp] theorem State.reply_rest (resp : Nat) (data : List TWord) : (s.reply resp data).rest = s.rest := rfl
@[simp] theorem State.setSrc_rest (i : Nat) (x : Src) : (s.setSrc i x).rest = s.rest := rfl
@[simp] theorem State.storeLine_rest (l key : Nat) (ws : List TWord) : (s.storeLine l key ws).rest = s.rest := rfl
@[simp] theorem State.setDir_rest (l : Nat) (d : DirEntry) : (s.setDir l d).rest = s.rest := rfl
@[simp] theorem State.setCopy_rest (l : Nat) (x : List TWord) : (s.setCopy l x).rest = s.rest := rfl
@[simp] theorem State.takeFree_rest : s.takeFree.2.rest = s.rest := rfl

/-! Presentation and claims of interrupts, 12 R424 to R428, and assertion, R420. -/

theorem State.refreshHost_sansClaims (c : Nat) : (s.refreshHost c).sansClaims = s.sansClaims := by
  unfold State.refreshHost State.sendMsix
  dsimp only
  split_ifs
  · rfl
  · split
    · rfl
    · split_ifs <;> rfl

theorem State.refreshSrc_sansClaims (i : Nat) : (s.refreshSrc i).sansClaims = s.sansClaims := by
  unfold State.refreshSrc
  split
  · rfl
  · exact s.refreshHost_sansClaims _

theorem State.refreshAll_sansClaims : s.refreshAll.sansClaims = s.sansClaims :=
  (eachDo_invariant State.sansClaims (fun i t => t.refreshSrc_sansClaims i) _ _).trans
    (eachDo_invariant State.sansClaims (fun c t => t.refreshHost_sansClaims c) _ s)

theorem State.endHoldoffs_sansClaims : s.endHoldoffs.sansClaims = s.sansClaims := by
  unfold State.endHoldoffs
  dsimp only
  split_ifs
  · rfl
  · exact State.refreshAll_sansClaims _

theorem State.claim1_sansClaims (c : Nat) : (s.claim1 c).2.sansClaims = s.sansClaims := by
  unfold State.claim1
  split
  · rfl
  · refine (State.refreshAll_sansClaims _).trans ?_
    unfold State.startHoldoff
    dsimp only
    split_ifs <;> rfl

theorem State.settleClaim_sansClaims (r : ClaimReq) : (s.settleClaim r).sansClaims = s.sansClaims := by
  unfold State.settleClaim
  dsimp only
  split <;> exact s.claim1_sansClaims r.ctx

theorem State.runClaims_sansClaims (n : Nat) : (State.runClaims n s).sansClaims = s.sansClaims := by
  induction n generalizing s with
  | zero => rfl
  | succ k ih =>
    unfold State.runClaims
    split_ifs
    · rfl
    · exact (ih _).trans (eachDo_invariant State.sansClaims (fun r t => t.settleClaim_sansClaims r) _ s)

@[simp] theorem State.refreshSrc_rest (i : Nat) : (s.refreshSrc i).rest = s.rest := State.rest_of_sansClaims (s.refreshSrc_sansClaims i)

@[simp] theorem State.assert_rest (i : Nat) : (s.assert i).rest = s.rest := by
  simp [State.assert, apply_ite State.rest]

@[simp] theorem State.setErr_rest (off : Nat) (f : Fld) (src : Nat) : (s.setErr off f src).rest = s.rest := by simp [State.setErr]

/-! The event recorder, 18 R571 to R573. -/

@[simp] theorem State.flashCopy_rest (r : MRec) : (s.flashCopy r).rest = s.rest := rfl

@[simp] theorem State.dramCopy_rest (r : MRec) : (s.dramCopy r).rest = s.rest := by simp [State.dramCopy, apply_ite State.rest]

@[simp] theorem State.spill_rest : s.spill.rest = s.rest := by
  simp [State.spill, apply_ite State.rest, eachDo_rest]

@[simp] theorem State.writeRec_rest (x : MSub) : (s.writeRec x).rest = s.rest := by
  unfold State.writeRec
  extract_lets rest head flags r t _ written flashed _ asserted fresh _
  have hwritten : written.rest = s.rest := by simp [written, t]
  have hflashed : flashed.rest = s.rest := State.ite_rest ((written.flashCopy_rest r).trans hwritten) hwritten
  have hasserted : asserted.rest = s.rest := State.ite_rest ((State.assert_rest _ 938).trans hflashed) hflashed
  have hfresh : fresh.rest = s.rest := asserted.spill_rest.trans hasserted
  clear_value fresh
  split
  · exact State.ite_rest (State.ite_rest rfl rfl) hfresh
  · exact hfresh

@[simp] theorem State.loseRec_rest : s.loseRec.rest = s.rest := by simp [State.loseRec]

@[simp] theorem State.submit_rest (arr : List MSub) : (s.submit arr).rest = s.rest := by simp [State.submit, eachDo_rest]

@[simp] theorem State.recordSev_rest (i sev unit p0 p1 tenant : Nat) : (s.recordSev i sev unit p0 p1 tenant).rest = s.rest := by
  simp [State.recordSev]

@[simp] theorem State.recordReg_rest (i unit off : Nat) : (s.recordReg i unit off).rest = s.rest := by
  simp [State.recordReg, State.record]

@[simp] theorem State.defaultTarget_rest (addr mid pos : Nat) : (s.defaultTarget addr mid pos).rest = s.rest := by
  simp -implicitDefEqProofs [State.defaultTarget]

/-! Errors and retirement of a pseudo-channel, 06 R221 to R227. -/

@[simp] theorem State.slcEvent_rest (sl : Nat) (f : Fld) (sev key : Nat) : (s.slcEvent sl f sev key).rest = s.rest := by simp [State.slcEvent]

@[simp] theorem State.setRemap_rest (p : Nat) (b : Bool) : (s.setRemap p b).rest = s.rest := by
  simp [State.setRemap, eachDo_rest, apply_ite State.rest]

@[simp] theorem State.startMig_rest (p dir : Nat) : (s.startMig p dir).rest = s.rest := by
  simp -implicitDefEqProofs [State.startMig, State.rewriteRemap]

@[simp] theorem State.meetsLimit_rest (p : Nat) : (s.meetsLimit p).rest = s.rest := by
  simp [State.meetsLimit, State.retirePc, State.setPcState, apply_ite State.rest]

@[simp] theorem State.pcUe_rest (p : Nat) : (s.pcUe p).rest = s.rest := by simp [State.pcUe, apply_ite State.rest]

@[simp] theorem State.pcCe_rest (p : Nat) : (s.pcCe p).rest = s.rest := by simp [State.pcCe, apply_ite State.rest]

@[simp] theorem State.slcLog_rest (sl kind l key : Nat) : (s.slcLog sl kind l key).rest = s.rest := by
  simp -implicitDefEqProofs [State.slcLog]

@[simp] theorem State.lineUe_rest (l key : Nat) : (s.lineUe l key).rest = s.rest := by
  simp -implicitDefEqProofs [State.lineUe, State.cellUe, State.poisonCell]

@[simp] theorem State.integEvent_rest (l key : Nat) : (s.integEvent l key).rest = s.rest := by
  simp -implicitDefEqProofs [State.integEvent]

@[simp] theorem State.keyErrEvent_rest (l key : Nat) : (s.keyErrEvent l key).rest = s.rest := by
  simp -implicitDefEqProofs [State.keyErrEvent]

@[simp] theorem State.eccCe_rest (l : Nat) (ecc : Ecc) : (s.eccCe l ecc).rest = s.rest := by
  simp [State.eccCe, State.stale, apply_ite State.rest]

@[simp] theorem State.remapEcc_rest (l key : Nat) : (s.remapEcc l key).rest = s.rest := by
  unfold State.remapEcc
  split <;> simp [apply_ite State.rest]

/-! Reads and writes of a slice and its directory, 06 R218 to R220 and 11 R407. -/

@[simp] theorem State.sliceRead_rest (l key : Nat) (ecc : Ecc) : (s.sliceRead l key ecc).2.2.rest = s.rest := by
  unfold State.sliceRead
  dsimp only
  split_ifs <;> simp

@[simp] theorem State.slicePartial_rest (l key : Nat) (ecc : Ecc) (new : Nat → Option Byte) (tg : Nat → Option Tag) :
    (s.slicePartial l key ecc new tg).2.rest = s.rest := by
  unfold State.slicePartial
  dsimp only
  split_ifs <;> simp -implicitDefEqProofs [State.poisonMeta]

@[simp] theorem State.takeSlot_rest (r p : Nat) : (s.takeSlot r p).rest = s.rest := by
  unfold State.takeSlot
  split <;> rfl

@[simp] theorem State.takeSlots_rest (l n : Nat) : (s.takeSlots l n).rest = s.rest := by
  unfold State.takeSlots
  split <;> simp [eachDo_rest]

@[simp] theorem State.collect_rest (l : Nat) : (s.collect l).rest = s.rest := by
  unfold State.collect
  split <;> simp

@[simp] theorem State.cohRead_rest (l key : Nat) (ecc : Ecc) : (s.cohRead l key ecc).2.2.rest = s.rest := by
  unfold State.cohRead
  dsimp only
  split_ifs
  · simp
  · split <;> simp

@[simp] theorem State.cohFull_rest (l key : Nat) (ws : List TWord) : (s.cohFull l key ws).2.rest = s.rest := by
  unfold State.cohFull
  split_ifs <;> simp

@[simp] theorem State.cohPartial_rest (l key : Nat) (ecc : Ecc) (new : Nat → Option Byte) (tg : Nat → Option Tag) :
    (s.cohPartial l key ecc new tg).2.rest = s.rest := by
  unfold State.cohPartial
  split_ifs <;> simp

@[simp] theorem State.dropHolder_rest (l c : Nat) : (s.dropHolder l c).rest = s.rest := by simp [State.dropHolder, apply_ite State.rest]

@[simp] theorem State.dirRoom_rest (l : Nat) : (s.dirRoom l).rest = s.rest := by
  unfold State.dirRoom
  dsimp only
  split_ifs
  · rfl
  · split <;> simp

@[simp] theorem State.cacheRoom_rest (c : Nat) : (s.cacheRoom c).rest = s.rest := by
  unfold State.cacheRoom
  dsimp only
  split_ifs
  · rfl
  · rfl
  · split <;> simp

@[simp] theorem State.fillCore_rest (c pos : Nat) (data : Bool) (l : Nat) : (s.fillCore c pos data l).rest = s.rest := by
  unfold State.fillCore
  dsimp only
  split_ifs
  · rfl
  · simp
  · split <;> simp

@[simp] theorem State.dirRdS_rest (c l key : Nat) : (s.dirRdS c l key).2.2.rest = s.rest := by
  unfold State.dirRdS
  split_ifs
  · simp
  extract_lets d t r room sh
  have hr : r.2.2.rest = s.rest := by
    dsimp only [r]
    split
    · simp [t]
    · split_ifs <;> simp [t]
  clear_value r
  split_ifs
  · rfl
  · simp [room, apply_ite State.rest, hr]
  · simp [room, apply_ite State.rest, hr]
  · exact hr

@[simp] theorem State.dirRdU_rest (c l key : Nat) : (s.dirRdU c l key).2.2.rest = s.rest := by
  unfold State.dirRdU
  split_ifs
  · simp
  extract_lets d own t r room filled
  have hr : r.2.2.rest = s.rest := by
    dsimp only [r]
    split_ifs
    · rfl
    · split <;> simp [t]
  clear_value r
  split_ifs
  · simp [filled, room, apply_ite State.rest, hr]
  · exact hr

@[simp] theorem State.cacheStore_rest (c l key : Nat) (data : List (Nat × Byte)) (tags : List (Nat × Tag)) :
    (s.cacheStore c l key data tags).2.rest = s.rest := by
  simp [State.cacheStore, apply_ite Prod.snd, apply_ite State.rest]

/-! Local vector stores, 06 R233 to R235. -/

@[simp] theorem State.markDirty_rest (e r : Nat) : (s.markDirty e r).rest = s.rest := by simp [State.markDirty, apply_ite State.rest]

@[simp] theorem State.setLvsWord_rest (e o : Nat) (x : TWord) : (s.setLvsWord e o x).rest = s.rest := by
  unfold State.setLvsWord
  dsimp only
  split_ifs
  · simp
  · split <;> simp
  · simp
  · simp

@[simp] theorem State.lvsUe_rest (e r o : Nat) : (s.lvsUe e r o).rest = s.rest := by simp [State.lvsUe]

@[simp] theorem State.lvsCheck_rest (e o : Nat) : (s.lvsCheck e o).rest = s.rest := by
  unfold State.lvsCheck
  split <;> simp

@[simp] theorem State.lvsWrite_rest (e line : Nat) (data : List (Nat × Byte)) (tags : List (Nat × Tag)) :
    (s.lvsWrite e line data tags).2.rest = s.rest := by
  simp [State.lvsWrite, State.lvsPut, apply_ite Prod.snd, apply_ite State.rest, eachDo_rest]

@[simp] theorem State.setLock_rest (sl : Nat) (u : LockUnit) : (s.setLock sl u).rest = s.rest := rfl

/-! Deferred responses and slice requests, 11 R395 to R401. -/

@[simp] theorem State.modAsync_rest (e : Nat) (f : Core → Core) : (s.modAsync e f).rest = s.rest := by
  simp [State.modAsync]

@[simp] theorem State.storeAnswered_rest (e resp : Nat) : (s.storeAnswered e resp).rest = s.rest := by
  unfold State.storeAnswered
  split
  · rfl
  · simp [State.deferStore, State.deferErr, apply_ite State.rest]

@[simp] theorem State.respond_rest (mid pos resp : Nat) (ws : List TWord) : (s.respond mid pos resp ws).rest = s.rest := by
  simp [State.respond, apply_ite State.rest]

@[simp] theorem State.lkldServe_rest (r : SliceReq) : (s.lkldServe r).rest = s.rest := by
  simp [State.lkldServe, apply_ite State.rest]

@[simp] theorem State.serve_rest (r : SliceReq) : (s.serve r).rest = s.rest := by
  unfold State.serve
  split
  case h_5 => -- a fetch or load, which may fill a core's cache
    dsimp only
    split <;> simp [apply_ite State.rest]
  all_goals simp -implicitDefEqProofs [apply_ite State.rest]

@[simp] theorem State.arrive_rest (r : SliceReq) : (s.arrive r).rest = s.rest := by
  unfold State.arrive
  dsimp only
  split_ifs
  · split <;> simp
  all_goals simp

/-! Locks whose timer has run, and released stores, 11 R399 and R395. -/

@[simp] theorem State.closeLock_rest (sl : Nat) : (s.closeLock sl).rest = s.rest := by
  simp [State.closeLock, eachDo_rest]

@[simp] theorem State.breakLock_rest (sl : Nat) : (s.breakLock sl).rest = s.rest := by
  simp [State.breakLock]

@[simp] theorem State.releaseStore_rest (e : Nat) (g : GStore) : (s.releaseStore e g).rest = s.rest := by
  unfold State.releaseStore
  extract_lets l c held t r cached r'
  have hcached : cached.rest = s.rest := by
    simp [cached, r, t, apply_ite State.rest]
  clear_value cached
  split_ifs
  · simp [r']
  · simp
  all_goals split <;> simp [hcached]

@[simp] theorem State.drainOut_rest (e : Nat) : (s.drainOut e).rest = s.rest := by
  have steps (n : Nat) (s : State) : (State.drainSteps n e s).rest = s.rest := by
    induction n generalizing s with
    | zero => rfl
    | succ k ih =>
      unfold State.drainSteps
      split
      · rfl
      · simp [ih, apply_ite State.rest]
  exact steps _ s

/-! What the slices, Foxglove and the storage cells do in one XCLK, 06 R223, R228, R240 and R218. -/

@[simp] theorem State.copyLine_rest (p l : Nat) (lost : Bool) : (s.copyLine p l lost).rest = s.rest := rfl

@[simp] theorem State.migrateTo_rest (sl b : Nat) : (s.migrateTo sl b).rest = s.rest := by
  exact eachDo_rest (fun l t => t.copyLine_rest _ l false) _ s

@[simp] theorem State.sanitLines_rest (sl p n : Nat) : (s.sanitLines sl p n).rest = s.rest := by
  unfold State.sanitLines
  split <;> rfl

@[simp] theorem State.sliceTick_rest (sl : Nat) : (s.sliceTick sl).rest = s.rest := by
  simp [State.sliceTick, eachDo_rest, apply_ite State.rest]

@[simp] theorem State.foxWord_rest (e r q o : Nat) : (s.foxWord e r q o).rest = s.rest := by
  unfold State.foxWord
  dsimp only
  split <;> simp -implicitDefEqProofs

@[simp] theorem State.foxBegin_rest (e : Nat) : (s.foxBegin e).rest = s.rest := by
  unfold State.foxBegin
  split <;> simp [State.setFoxPhase, State.foxCopy, eachDo_rest]

@[simp] theorem State.foxTick_rest : s.foxTick.rest = s.rest := by
  simp [State.foxTick, eachDo_rest, apply_ite State.rest]

@[simp] theorem State.upset_rest : s.upset.rest = s.rest := rfl

end
end Sys2Proof.Machine

/-! PROOFS. The clocks of the timebase: one XCLK, and the wrap of the angle (02 R41 to R44, R57 to R65). -/
namespace Sys2Proof.Machine
open Reg

/-- What every XCLK counts: angle, XCLK, cycle count, TAI, monotonic tick, and the firings of the XCLK. -/
structure Clocks where
  acc : Nat
  xclk : Nat
  cyc : Nat
  tai : Nat
  mono : Nat
  fired : Nat

/-- The clocks of the timebase. -/
def Gav.clocks (g : Gav) : Clocks := ⟨g.acc, g.xclk, g.cyc, g.tai, g.mono, g.fired⟩

section
variable (s : State)

/-! Assertions, errors, timers, pulses and pins leave the clocks. -/

@[simp] theorem State.assert_gav (i : Nat) : (s.assert i).gav = s.gav := State.gav_of_rest (s.assert_rest i)

@[simp] theorem State.gavErr_clocks (f : Fld) : (s.gavErr f).gav.clocks = s.gav.clocks := by
  unfold State.gavErr
  split_ifs <;> rfl

@[simp] theorem State.timersDown_rest (unit k : Nat) : (s.timersDown unit k).rest = s.rest := by
  simp [State.timersDown, State.timerDown, eachDo_rest, apply_ite State.rest]

@[simp] theorem State.pulse_gav (ch : Nat) : (s.pulse ch).gav = s.gav := by
  simp [State.pulse, State.pulse0, State.unsettled, apply_ite State.gav]

theorem State.gavPulse_clocks (ch : Nat) : (s.gavPulse ch).gav.clocks = s.gav.clocks := by
  unfold State.gavPulse
  split_ifs
  · rfl
  · rw [State.pulse_gav]
    rfl

theorem State.edgesSee_clocks (n : Nat) : (s.edgesSee n).gav.clocks = s.gav.clocks :=
  eachDo_invariant (fun t => t.gav.clocks) (fun e t => by split_ifs <;> rfl) _ s

theorem State.pinEdge1_clocks (n : Nat) : (s.pinEdge1 n).gav.clocks = s.gav.clocks := by
  unfold State.pinEdge1
  extract_lets _ t seen x u
  have ht : t.gav = s.gav := by
    dsimp only [t]
    split_ifs <;> rfl
  have hseen : seen.gav.clocks = s.gav.clocks := ((t.drivePin n).edgesSee_clocks n).trans (congrArg Gav.clocks ht)
  have hx : x.2.gav.clocks = s.gav.clocks := by
    dsimp only [x]
    split_ifs <;> exact hseen
  split_ifs
  · exact hx
  · exact (u.gavPulse_clocks n).trans hx
  · exact hx

theorem State.pinEdge_clocks : s.pinEdge.gav.clocks = s.gav.clocks :=
  eachDo_invariant (fun t => t.gav.clocks) (fun n t => t.pinEdge1_clocks n) _ s

/-! Registers below GAV_ERR, which no assertion, error or timer reaches. -/

theorem State.reg_wr_ne (off o : Nat) (f : Fld) (v : Nat) (h : o ≠ off) : (s.wr off f v).reg o = s.reg o :=
  s.reg_setReg_ne off o _ h

/-- An assertion changes at most IC_ERR, 12 R420. -/
theorem State.reg_assert (i off : Nat) (h : off < IC_ERR) : (s.assert i).reg off = s.reg off := by
  unfold State.assert
  dsimp only
  split_ifs
  · exact State.reg_wr_ne _ _ _ _ _ h.ne
  · exact State.reg_congr (State.regs_of_sansClaims (State.refreshSrc_sansClaims _ i)) off
  · rfl

theorem State.reg_gavErr (f : Fld) (off : Nat) (h : off < GAV_ERR) : (s.gavErr f).reg off = s.reg off := by
  unfold State.gavErr
  split_ifs
  · exact s.reg_wr_ne _ _ _ _ h.ne
  · exact (State.reg_assert _ 257 off (h.trans (by decide))).trans (s.reg_wr_ne _ _ _ _ h.ne)

theorem State.reg_timersDown (unit k off : Nat) (h : off < GAV_ERR) : (s.timersDown unit k).reg off = s.reg off := by
  unfold State.timersDown
  split_ifs
  · rfl
  · refine eachDo_invariant (State.reg · off) (fun t x => ?_) _ s
    split_ifs
    · exact x.reg_wr_ne _ _ _ _ (by unfold GAV_TMR_CNT GAV_ERR at *; omega)
    · rfl

/-! XCLK without their wrap. -/

/-- `n` XCLK pass without their wrap: the clocks, the timers of the monotonic tick and of the angle, the hold-offs and the claims. -/
def State.counted (n : Nat) : State :=
  State.runClaims n (((s.clock n).timersDown 0 ((s.gav.mono + (s.taiRun n).1) / 1000 - s.gav.mono / 1000)).timersDown 2
    ((s.gav.acc + n * s.angleInc) / 2 ^ 48 - s.gav.acc / 2 ^ 48)).endHoldoffs

theorem State.stride_eq (n : Nat) :
    s.stride n = if s.gav.acc + n * s.angleInc ≥ 2 ^ 64 then (s.counted n).wrapCycle else s.counted n := rfl

/-- Hold-offs that end and claims leave what the timers left. -/
theorem State.counted_sansClaims (n : Nat) : ∃ us au, (s.counted n).sansClaims = (((s.clock n).timersDown 0 us).timersDown 2 au).sansClaims :=
  ⟨_, _, (State.runClaims_sansClaims _ n).trans (State.endHoldoffs_sansClaims _)⟩

theorem State.clocks_counted (n : Nat) : (s.counted n).gav.clocks = ⟨(s.gav.acc + n * s.angleInc) % 2 ^ 64, s.gav.xclk + n, s.gav.cyc,
      (s.gav.tai + (s.taiRun n).1) % 2 ^ 64, s.gav.mono + (s.taiRun n).1, 0⟩ := by
  obtain ⟨us, au, h⟩ := s.counted_sansClaims n
  have hrest : (s.counted n).rest = (s.clock n).rest := (State.rest_of_sansClaims h).trans (by simp)
  rw [State.gav_of_rest hrest]
  rfl

theorem State.rd_counted (n off : Nat) (f : Fld) (h : off < GAV_ERR) : (s.counted n).rd off f = s.rd off f := by
  obtain ⟨us, au, hsans⟩ := s.counted_sansClaims n
  rw [State.rd, State.reg_congr (State.regs_of_sansClaims hsans), State.reg_timersDown _ _ _ _ h, State.reg_timersDown _ _ _ _ h]
  rfl

/-- While TAI neither slews nor follows a 10 MHz input, an XCLK is one ns, 02 R58 and R60. -/
theorem State.taiRun_nominal (n : Nat) (hslew : s.gav.slew = 0) (hten : s.flag GAV_TAI_CTRL GAV_TAI_CTRL_TEN_MHZ = false)
    (hfrac : s.gav.frac < 1000000000) : (s.taiRun n).1 = n := by
  have hrate : s.taiRate = 1000000000 := by simp [State.taiRate, hslew, hten]
  simp only [State.taiRun, hrate]
  omega

/-! One XCLK, 02 R41. -/

theorem State.xclk_lt_nextPclk : s.gav.xclk < s.nextPclk := by
  unfold State.nextPclk
  omega

theorem State.strides_zero (f : Nat) : State.strides f 0 s = s := by
  have := s.xclk_lt_nextPclk
  cases f with
  | zero => rfl
  | succ f => simp [State.strides, show ¬ s.nextPclk - s.gav.xclk = 0 by omega]

/-- A PCLK edge at the end of an XCLK leaves its clocks, and no other XCLK follows it. -/
theorem State.advance_one_clocks : (s.advance 1).gav.clocks = (s.stride 1).gav.clocks := by
  unfold State.advance
  cases s.pins.settle / 10 - s.gav.xclk / 10 with
  | zero => rfl
  | succ f =>
    have := s.xclk_lt_nextPclk
    simp only [State.strides, one_ne_zero, if_false]
    split_ifs with hk
    · rw [show s.nextPclk - s.gav.xclk = 1 by omega, State.strides_zero]
      exact (s.stride 1).pinEdge_clocks
    · rfl

/-- An XCLK that does not wrap the angle counts. -/
theorem State.advance_one_of_no_wrap (h : s.gav.acc + s.angleInc < 2 ^ 64) : (s.advance 1).gav.clocks =
    ⟨s.gav.acc + s.angleInc, s.gav.xclk + 1, s.gav.cyc, (s.gav.tai + (s.taiRun 1).1) % 2 ^ 64, s.gav.mono + (s.taiRun 1).1, 0⟩ := by
  rw [State.advance_one_clocks, State.stride_eq, Nat.one_mul, if_neg (by omega), State.clocks_counted, Nat.one_mul, Nat.mod_eq_of_lt h]

/-! A tick, log entry 1. -/

theorem State.refill_gav : s.refill.gav = s.gav :=
  eachDo_invariant State.gav (fun q u => by unfold State.shedExit; dsimp only; split_ifs <;> rfl) _ s

/-- Of all that a tick does, only the advance of the timebase moves it. -/
theorem State.tick_gav (h : s.boot.inReset = false) : s.tick.gav = (s.advance 1).gav := by
  unfold State.tick
  rw [if_neg (by simp [h])]
  extract_lets recorded unlocked drained sliced refilled
  have hsliced : sliced.rest = (s.advance 1).rest := by
    simp [sliced, drained, unlocked, recorded, eachDo_rest]
  have hrefilled : refilled.gav = sliced.gav := by
    dsimp only [refilled]
    split_ifs
    · rfl
    · exact sliced.refill_gav
  calc refilled.foxTick.upset.gav = refilled.gav := State.gav_of_rest (by simp)
    _ = sliced.gav := hrefilled
    _ = (s.advance 1).gav := State.gav_of_rest hsliced

end

/-- Settles O2: the clocks after a tick are those after one XCLK that does not wrap. -/
theorem tickAdvancesTheTimebase : Obligations.TickAdvancesTheTimebase := by
  intro s hpending
  have hstep : step s = .next s.tick := by simp [step, hpending]
  refine ⟨fun hreset => by simp [hstep, State.tick, hreset], fun hrun hwrap => ⟨s.tick, hstep, ?_⟩⟩
  have hclocks := s.advance_one_of_no_wrap hwrap
  rw [← s.tick_gav hrun] at hclocks
  exact ⟨congrArg Clocks.acc hclocks, congrArg Clocks.tai hclocks, congrArg Clocks.mono hclocks, s.taiRun_nominal 1,
    congrArg Clocks.cyc hclocks, congrArg Clocks.fired hclocks, (State.tick_keeps (keeps_refl s)).1.trans hpending⟩

section
variable (s : State)

/-! The wrap, 02 R44, R57 and R65. -/

theorem State.lateCheck_clocks (n : Nat) : (s.lateCheck n).gav.clocks = s.gav.clocks := by
  unfold State.lateCheck
  split_ifs
  · exact (s.trigOff n).gavErr_clocks _
  · rfl

theorem State.reg_lateCheck (n off : Nat) (h : off < GAV_ERR) : (s.lateCheck n).reg off = s.reg off := by
  unfold State.lateCheck
  split_ifs
  · exact ((s.trigOff n).reg_gavErr _ off h).trans (s.reg_wr_ne _ _ _ _ (by unfold GAV_TRIGB GAV_ERR at *; omega))
  · rfl

/-- A wrap changes of an entry its own counter and the dispatch decisions alone, 02 R63 and R65. -/
theorem State.wrapEntry_eq (n : Nat) : ∃ nx d, s.wrapEntry n = { s with gav := { s.gav with next := nx, dispatch := d } } := by
  unfold State.wrapEntry
  dsimp only
  split_ifs
  · exact ⟨_, _, rfl⟩
  · exact ⟨_, _, rfl⟩
  · exact ⟨s.gav.next, s.gav.dispatch, rfl⟩

/-- An armed cycle set whose time has come, 02 R57. -/
def State.cycleSetDue : Bool := s.flag GAV_CYCSET_VAL GAV_CYCSET_VAL_ARM && decide (s.rd GAV_CYCSET_AT GAV_CYCSET_AT_AT ≤ s.gav.tai)

/-- The cycle set is taken, before the entries that it leaves behind go OFF. -/
def State.takeCycleSet : State :=
  { s.wr GAV_CYCSET_VAL GAV_CYCSET_VAL_ARM 0 with gav := { s.gav with cyc := s.rd GAV_CYCSET_VAL GAV_CYCSET_VAL_VAL } }

/-- The dispatch decisions of the new cycle, and the timers that count cycles. -/
def State.newCycle : State :=
  (eachDo s.trigListed (fun n (x : State) => x.wrapEntry n) { s with gav := { s.gav with dispatch := [] } }).timersDown 1 1

theorem State.wrapCycle_eq : s.wrapCycle =
    (if s.cycleSetDue then eachDo s.takeCycleSet.trigListed (fun n x => x.lateCheck n) s.takeCycleSet
      else { s with gav := { s.gav with cyc := (s.gav.cyc + 1) % 2 ^ 32 } }).newCycle := rfl

theorem State.newCycle_clocks : s.newCycle.gav.clocks = s.gav.clocks := by
  rw [State.newCycle, State.gav_of_rest (State.timersDown_rest _ 1 1)]
  refine eachDo_invariant (fun t => t.gav.clocks) (fun n t => ?_) _ _
  obtain ⟨nx, d, h⟩ := t.wrapEntry_eq n
  rw [h]
  rfl

theorem State.reg_newCycle (off : Nat) (h : off < GAV_ERR) : s.newCycle.reg off = s.reg off := by
  rw [State.newCycle, State.reg_timersDown _ _ _ _ h]
  refine eachDo_invariant (State.reg · off) (fun n t => ?_) _ _
  obtain ⟨nx, d, h⟩ := t.wrapEntry_eq n
  rw [h]
  rfl

theorem State.wrapCycle_clocks_of_set (h : s.cycleSetDue = true) :
    s.wrapCycle.gav.clocks = { s.gav.clocks with cyc := s.rd GAV_CYCSET_VAL GAV_CYCSET_VAL_VAL } := by
  rw [State.wrapCycle_eq, if_pos h, State.newCycle_clocks]
  exact eachDo_invariant (fun t => t.gav.clocks) (fun n t => t.lateCheck_clocks n) _ s.takeCycleSet

theorem State.wrapCycle_clocks_of_count (h : s.cycleSetDue = false) :
    s.wrapCycle.gav.clocks = { s.gav.clocks with cyc := (s.gav.cyc + 1) % 2 ^ 32 } := by
  rw [State.wrapCycle_eq, if_neg (by simp [h]), State.newCycle_clocks]
  rfl

/-- A cycle set that is taken is no longer armed. -/
theorem State.wrapCycle_disarms (h : s.cycleSetDue = true) : s.wrapCycle.rd GAV_CYCSET_VAL GAV_CYCSET_VAL_ARM = 0 := by
  have hreg : s.wrapCycle.reg GAV_CYCSET_VAL = s.takeCycleSet.reg GAV_CYCSET_VAL := by
    rw [State.wrapCycle_eq, if_pos h, State.reg_newCycle _ _ (by decide)]
    exact eachDo_invariant (State.reg · GAV_CYCSET_VAL) (fun n t => t.reg_lateCheck n _ (by decide)) _ _
  have hregs : s.takeCycleSet.regs = (s.wr GAV_CYCSET_VAL GAV_CYCSET_VAL_ARM 0).regs := by simp only [State.takeCycleSet]
  rw [State.rd, hreg, ← State.rd, State.rd_congr hregs, State.rd_wr _ _ _ _ (by decide), Nat.zero_mod]

/-! The time up to the wrap. -/

/-- The least number of steps of `d` that take `a` to `m`. -/
theorem steps_reach {a d m : Nat} (hd : 0 < d) (ha : a < m) :
    m ≤ a + (m - a + d - 1) / d * d ∧ a + ((m - a + d - 1) / d - 1) * d < m ∧ 0 < (m - a + d - 1) / d := by
  have hdiv := Nat.div_add_mod' (m - a + d - 1) d
  have hmod := Nat.mod_lt (m - a + d - 1) hd
  have hpos : 0 < (m - a + d - 1) / d := Nat.div_pos (by omega) hd
  rw [Nat.sub_mul, Nat.one_mul]
  omega

/-- The wrap comes in the last of the XCLK up to it, 02 R41 and R44. -/
theorem State.toWrap_reaches (hinc : 0 < s.angleInc) (hacc : s.gav.acc < 2 ^ 64) :
    2 ^ 64 ≤ s.gav.acc + s.toWrap * s.angleInc ∧ s.gav.acc + (s.toWrap - 1) * s.angleInc < 2 ^ 64 ∧ 0 < s.toWrap := by
  rw [State.toWrap, if_neg hinc.ne']
  exact steps_reach hinc hacc

/-- With the pins settled, XCLK that pass are one stride. -/
theorem State.advance_of_settled (n : Nat) (hn : 0 < n) (h : s.pins.settle / 10 ≤ s.gav.xclk / 10) : s.advance n = s.stride n := by
  rw [State.advance, Nat.sub_eq_zero_of_le h, State.strides, if_neg hn.ne']

theorem State.cycleSetDue_counted (n : Nat) : (s.counted n).cycleSetDue =
    (s.flag GAV_CYCSET_VAL GAV_CYCSET_VAL_ARM && decide (s.rd GAV_CYCSET_AT GAV_CYCSET_AT_AT ≤ (s.gav.tai + (s.taiRun n).1) % 2 ^ 64)) := by
  have htai : (s.counted n).gav.tai = (s.gav.tai + (s.taiRun n).1) % 2 ^ 64 := congrArg Clocks.tai (s.clocks_counted n)
  rw [State.cycleSetDue, State.flag, State.flag, s.rd_counted n _ _ (by decide), s.rd_counted n _ _ (by decide), htai]

/-- A wrap leaves every clock but the cycle count. -/
theorem State.wrapCycle_clocks : ∃ c, s.wrapCycle.gav.clocks = { s.gav.clocks with cyc := c } := by
  cases h : s.cycleSetDue
  · exact ⟨_, s.wrapCycle_clocks_of_count h⟩
  · exact ⟨_, s.wrapCycle_clocks_of_set h⟩

end

/-- Settles O35: the time up to the wrap is one stride, and its last XCLK wraps. -/
theorem angleWrapCountsTheCycle : Obligations.AngleWrapCountsTheCycle := by
  intro s hinc hacc hpins n
  obtain ⟨hreach, hlast, hpos⟩ := s.toWrap_reaches hinc hacc
  refine ⟨hreach, hlast, (s.counted n).wrapCycle, ?_, ?_⟩
  · show Host.Outcome.next (s.advance n) = _
    rw [s.advance_of_settled n hpos hpins, State.stride_eq, if_pos hreach]
  have hcount := s.clocks_counted n
  have hdue := s.cycleSetDue_counted n
  have hval := s.rd_counted n GAV_CYCSET_VAL GAV_CYCSET_VAL_VAL (by decide)
  generalize s.counted n = u at hcount hdue hval ⊢
  obtain ⟨c, hwrap⟩ := u.wrapCycle_clocks
  rw [hcount] at hwrap
  have htai : u.wrapCycle.gav.tai = (s.gav.tai + (s.taiRun n).1) % 2 ^ 64 := congrArg Clocks.tai hwrap
  refine ⟨congrArg Clocks.acc hwrap, congrArg Clocks.xclk hwrap, htai, congrArg Clocks.mono hwrap, s.taiRun_nominal n,
    fun harm => ?_, fun harm hat => ?_⟩
  · have hcyc : u.gav.cyc = s.gav.cyc := congrArg Clocks.cyc hcount
    rw [← hcyc]
    exact congrArg Clocks.cyc (u.wrapCycle_clocks_of_count (by rw [hdue, harm, Bool.false_and]))
  · have hset : u.cycleSetDue = true := by
      rw [hdue, harm, Bool.true_and, decide_eq_true_eq, ← htai]
      exact hat
    exact ⟨(congrArg Clocks.cyc (u.wrapCycle_clocks_of_set hset)).trans hval, u.wrapCycle_disarms hset⟩

end Sys2Proof.Machine

/-! PROOFS. Phase references, TAI and the PPS pins (02 R46 to R60, 16 R524). -/
namespace Sys2Proof.Machine
open Reg

section
variable (s : State)

/-! The XCLK in which an event falls changes nothing that a reference is judged by. -/

theorem State.departure_inXclk (own : Bool) (p : Nat) (rising : Bool) : (s.inXclk own).departure p rising = s.departure p rising := by
  cases own <;> rfl

theorem State.phase_inXclk (own : Bool) (p : Nat) : (s.inXclk own).phase p = s.phase p := by cases own <;> rfl

theorem State.phaseQual_inXclk (own : Bool) (p : Nat) : (s.inXclk own).phaseQual p = s.phaseQual p := by cases own <;> rfl

theorem State.mono_inXclk (own : Bool) : (s.inXclk own).gav.mono = s.gav.mono := by cases own <;> rfl

@[simp] theorem State.phase_setPhase (p : Nat) (x : Phase) : (s.setPhase p x).phase p = x := by simp [State.phase, State.setPhase]

/-! Edges of a phase that is not qualified, 02 R49. -/

/-- Before its 16 good periods a phase is not judged. -/
theorem State.judgeCycle_of_few {p : Nat} (dep : Int) (fresh : Bool) (hq : s.phaseQual p = false) (hgood : (s.phase p).good < 16) :
    s.judgeCycle p dep fresh = s := by
  have hfirst : s.firstPhase p fresh = false := by simp [State.firstPhase, hgood]
  simp [State.judgeCycle, hq, hfirst, hgood]

theorem State.phrefEdge_falling {p : Nat} (hq : s.phaseQual p = false) :
    s.phrefEdge p false = s.setPhase p { s.phase p with far := (s.phase p).far || !depOk (s.departure p false) } := by
  simp [State.phrefEdge, hq]

/-- A good period that leaves a phase short of its 16 is counted. -/
theorem State.phrefEdge_rising {p t : Nat} {x : Phase} (hx : x = s.phase p) (hrise : x.rise = some t) (hdef : s.definingPhase ≠ some p)
    (hq : s.phaseQual p = false) (hper : s.periodOk (s.gav.mono - t) = true) (hgood : x.good < 15) :
    s.phrefEdge p true = s.setPhase p { x with
      rise := some s.gav.mono, period := s.gav.mono - t, far := false, good := x.good + 1,
      near := if !(x.far || !depOk (s.departure p true)) then min 16 (x.near + 1) else 0,
      bad := if (x.far || !depOk (s.departure p true)) then min 4 (x.bad + 1) else 0 } := by
  subst hx
  have hdef' (y : Phase) : (s.setPhase p y).definingPhase ≠ some p := hdef
  have hmin : min 16 ((s.phase p).good + 1) = (s.phase p).good + 1 := by omega
  simp only [State.phrefEdge, hq, if_true, hrise, hper, Bool.false_eq_true, if_false, hdef', Option.isSome_some, Bool.and_true,
    Bool.true_and, Bool.not_true, Bool.false_and, Bool.or_false, hmin]
  refine State.judgeCycle_of_few _ _ _ hq ?_
  rw [State.phase_setPhase]
  exact Nat.lt_succ_of_le hgood

/-! Loss, return and revert of a reference, 02 R48, R52 and R54. -/

/-- The reference in use while LOCKED, once lost, gives way to the next one that agrees. -/
theorem State.refLost_of_agrees (hlocked : s.rd GAV_STAT GAV_STAT_STATE = 0) (hwant : s.refWanted ≠ 0) (hagree : s.refAgrees s.refWanted = true) :
    s.refLost = s.setRef s.refWanted := by
  rw [State.refLost, if_pos hlocked, State.switchRef, if_pos ⟨hwant, hagree⟩]

/-- It gives way to HOLDOVER where no other one agrees. -/
theorem State.refLost_of_none (hlocked : s.rd GAV_STAT GAV_STAT_STATE = 0) (h : s.refWanted = 0 ∨ s.refAgrees s.refWanted = false) :
    s.refLost = s.enterHoldover := by
  rw [State.refLost, if_pos hlocked, State.switchRef, if_neg]
  rintro ⟨hwant, hagree⟩
  rcases h with h | h
  · exact hwant h
  · simp [h] at hagree

section
variable {s}

theorem execPtpReferenceInstant_of_unqualified (h : s.refQual 3 = false) : execPtpReferenceInstant s = .next s := by
  simp [execPtpReferenceInstant, h]

theorem execPtpReferenceInstant_of_qualified (h : s.refQual 3 = true) : execPtpReferenceInstant s =
    .next (s.toPtpZero.ownXclk.measure 3 (s.toPtpZero.phaseErr s.toPtpZero.ptpAngle) s.toPtpZero.rateNominal) := by
  simp [execPtpReferenceInstant, h]

/-- SV in use is lost two cycles after its last valid ASDU. -/
theorem execReferenceLoss_sv {x : State} (hx : x = s.passTo (s.gav.svAt + s.twoCycles)) (hq : x.refQual 2 = true)
    (href : x.rd GAV_STAT GAV_STAT_REF = 2) : execReferenceLoss true s = .next (x.ownXclk.unqualify 2).refLost := by
  have href' : x.ownXclk.rd GAV_STAT GAV_STAT_REF = 2 := href
  simp only [execReferenceLoss, if_true, ← hx, hq, State.loseRef, href']

theorem execReferenceLoss_phref (h : s.refQual 1 = true) :
    execReferenceLoss false s = .next ((s.passTo (s.gav.edgeAt + s.twoCycles)).ownXclk.loseRef 1) := by
  simp [execReferenceLoss, h]

theorem execReferenceRevert_of_due (own : Bool) (hrev : s.flag GAV_CTRL GAV_CTRL_REVERT = true) (hwant : s.refWanted ≠ 0)
    (hother : s.refWanted ≠ s.rd GAV_STAT GAV_STAT_REF) (huse : s.rd GAV_STAT GAV_STAT_REF ≠ 0) : execReferenceRevert own s =
    .next ((s.passTo (sget (fun _ => 0) s.gav.qualAt s.refWanted + 60000000000)).inXclk own).refLost := by
  simp [execReferenceRevert, State.mayAcquire, hrev, hwant, hother, huse]

theorem execHoldoverLimitExpiry_of_holdover {h : Nat} {x : State} (hsince : s.gav.holdSince = some h) (hstate : s.rd GAV_STAT GAV_STAT_STATE = 1)
    (hlimit : s.rd GAV_TRACK GAV_TRACK_HOLD_LIMIT ≠ 0) (hx : x = s.passTo (h + s.rd GAV_TRACK GAV_TRACK_HOLD_LIMIT * 60000000000)) :
    execHoldoverLimitExpiry s =
      .next (({ x with gav := { x.gav with holdSince := none } }.setRate x.rateNominal).gavState 2 x.mayAcquire) := by
  simp [execHoldoverLimitExpiry, hsince, hstate, hlimit, ← hx]

/-- FORCE_HOLD takes a LOCKED unit into HOLDOVER, and its end leaves a LOCKED unit as it is, 02 R56. -/
theorem State.forceHold_of_locked {b : Bool} {x : State} (hx : x = s.wr GAV_CTRL GAV_CTRL_FORCE_HOLD (b2n b))
    (h : x.rd GAV_STAT GAV_STAT_STATE = 0) : s.forceHold b = if b then x.enterHoldover else x := by
  cases b <;> simp [State.forceHold, State.reacquire, ← hx, h]

end

/-! TAI, 02 R58 to R60. -/

section
variable {s}

/-- A PPS width of 0 or above 999,999 µs and SRC 3 are refused, 02 R59. -/
theorem State.taiCtrl_refused {d : Word} (v : Option (BitVec 64))
    (h : bits d.toNat 12 20 = 0 ∨ 999999 < bits d.toNat 12 20 ∨ bits d.toNat 0 2 = 3) : s.taiCtrl d v = s.reply errTarget [] := by
  simp [State.taiCtrl, h]

theorem State.taiCtrl_answer {d : Word} (v : Option (BitVec 64)) (hlo : 0 < bits d.toNat 12 20) (hhi : bits d.toNat 12 20 ≤ 999999)
    (hsrc : bits d.toNat 0 2 ≠ 3) : (s.taiCtrl d v).answer = ⟨respOk, []⟩ := by
  have hok : ¬ (bits d.toNat 12 20 = 0 ∨ bits d.toNat 12 20 > 999999 ∨ bits d.toNat 0 2 = 3) := by omega
  unfold State.taiCtrl
  dsimp only
  rw [if_neg hok]
  rfl

/-- A write that keeps SRC steps nothing. -/
theorem State.taiCtrl_same_source {d : Word} (v : Option (BitVec 64)) (hlo : 0 < bits d.toNat 12 20) (hhi : bits d.toNat 12 20 ≤ 999999)
    (hsrc : bits d.toNat 0 2 ≠ 3) (hsame : bits d.toNat 0 2 = s.rd GAV_TAI_CTRL GAV_TAI_CTRL_SRC) : s.taiCtrl d v =
      (s.setReg GAV_TAI_CTRL (BitVec.ofNat 64 (d.toNat % 2 ^ 6 + bits d.toNat 12 20 * 2 ^ 12 + bits d.toNat 32 1 * 2 ^ 32))).reply respOk [] := by
  have hok : ¬ (bits d.toNat 12 20 = 0 ∨ bits d.toNat 12 20 > 999999 ∨ bits d.toNat 0 2 = 3) := by omega
  unfold State.taiCtrl
  dsimp only
  rw [if_neg hok, if_pos hsame]

/-- The armed load steps TAI at the edge. -/
theorem State.ppsIn_of_armed {x : Nat} (hsrc : s.rd GAV_TAI_CTRL GAV_TAI_CTRL_SRC = 2) (harm : s.gav.taiSet = some x) :
    s.ppsIn = (({ s with gav := { s.gav with taiSet := none, taiAt := s.gav.mono } } : State).stepTai x).setTaiLock true := by
  simp [State.ppsIn, hsrc, harm]

theorem State.ppsIn_of_unarmed (hsrc : s.rd GAV_TAI_CTRL GAV_TAI_CTRL_SRC = 2) (harm : s.gav.taiSet = none) :
    s.ppsIn = s.followTai ((s.gav.tai + 500000000) / 1000000000 * 1000000000) := by
  simp [State.ppsIn, hsrc, harm]

/-- TAI slews within 1 µs of its source. -/
theorem State.followTai_near {v : Nat} (h : absDiff v s.gav.tai ≤ 1000) :
    s.followTai v = (({ s with gav := { s.gav with taiAt := s.gav.mono } } : State).slewTai v).setTaiLock true := by
  simp [State.followTai, h]

/-- TAI steps beyond 1 µs from its source. -/
theorem State.followTai_far {v : Nat} (h : 1000 < absDiff v s.gav.tai) :
    s.followTai v = (({ s with gav := { s.gav with taiAt := s.gav.mono } } : State).stepTai v).setTaiLock true := by
  simp [State.followTai, h]

theorem execTaiLockTimeout_of_followed (h : s.rd GAV_TAI_CTRL GAV_TAI_CTRL_SRC ≠ 0) :
    execTaiLockTimeout s = .next ((s.passTo (s.gav.taiAt + 3000000000)).ownXclk.setTaiLock false) := by
  simp [execTaiLockTimeout, h]

theorem execPpsOutRise_of_enabled {u : State} (hu : u = s.passTo (s.gav.mono + (1000000000 - s.gav.tai % 1000000000)))
    (hs : s.flag GAV_TAI_CTRL GAV_TAI_CTRL_PPS_EN = true) (hen : u.flag GAV_TAI_CTRL GAV_TAI_CTRL_PPS_EN = true) : execPpsOutRise s =
    .next { u with gav := { u.gav with ppsOut := true, ppsFall := u.gav.mono + u.rd GAV_TAI_CTRL GAV_TAI_CTRL_PPS_WIDTH * 1000 } } := by
  simp [execPpsOutRise, hs, ← hu, State.ppsRise, hen]

theorem execPpsOutFall_of_high {u : State} (hu : u = s.passTo s.gav.ppsFall) (h : s.gav.ppsOut = true) :
    execPpsOutFall s = .next { u with gav := { u.gav with ppsOut := false } } := by
  simp [execPpsOutFall, h, ← hu]

end

/-! A step of TAI is flagged and recorded, 02 R60: the records of Marigold change registers from IC_ERR on alone. -/

theorem State.reg_withMgd (m : Marigold) (off : Nat) : ({ s with mgd := m } : State).reg off = s.reg off := rfl

section
variable {off : Nat} (h : off < IC_ERR)
include h

theorem State.reg_wr_above {o : Nat} (f : Fld) (v : Nat) (ho : IC_ERR ≤ o) : (s.wr o f v).reg off = s.reg off :=
  s.reg_wr_ne _ _ _ _ (h.trans_le ho).ne

theorem State.reg_count_above {o : Nat} (f : Fld) (n : Nat) (ho : IC_ERR ≤ o) : (s.count o f n).reg off = s.reg off :=
  s.reg_wr_above h f _ ho

theorem State.reg_flashCopy (r : MRec) : (s.flashCopy r).reg off = s.reg off := by
  rw [State.flashCopy, State.reg_withMgd, s.reg_wr_above h _ _ (by decide)]

theorem State.reg_dramCopy (r : MRec) : (s.dramCopy r).reg off = s.reg off := by
  unfold State.dramCopy
  dsimp only
  split_ifs
  · rw [State.reg_count_above _ h _ _ (by decide), State.reg_withMgd, s.reg_wr_above h _ _ (by decide)]
  · rw [State.reg_withMgd, s.reg_wr_above h _ _ (by decide)]

theorem State.reg_spill : s.spill.reg off = s.reg off := by
  unfold State.spill
  dsimp only
  split_ifs
  · rw [State.reg_withMgd, State.reg_wr_above _ h _ _ (by decide)]
    exact eachDo_invariant (State.reg · off) (fun i t => t.reg_dramCopy h _) _ s
  · rfl

theorem State.reg_writeRec (x : MSub) : (s.writeRec x).reg off = s.reg off := by
  unfold State.writeRec
  extract_lets rest head flags r t _ written flashed _ asserted fresh _
  have hwritten : written.reg off = s.reg off := by
    rw [State.reg_withMgd, State.reg_wr_above _ h _ _ (by decide), s.reg_wr_above h _ _ (by decide)]
  have hflashed : flashed.reg off = s.reg off := by
    dsimp only [flashed]
    split_ifs
    · exact (written.reg_flashCopy h r).trans hwritten
    · exact hwritten
  have hasserted : asserted.reg off = s.reg off := by
    dsimp only [asserted]
    split_ifs
    · exact (State.reg_assert _ 938 off h).trans hflashed
    · exact hflashed
  have hfresh : fresh.reg off = s.reg off := (asserted.reg_spill h).trans hasserted
  clear_value fresh
  split
  · dsimp only
    split_ifs
    · exact (State.reg_flashCopy _ h _).trans (s.reg_withMgd _ off)
    · exact s.reg_withMgd _ off
    · exact hfresh
  · exact hfresh

theorem State.reg_submit (arr : List MSub) : (s.submit arr).reg off = s.reg off := by
  unfold State.submit
  dsimp only
  refine (eachDo_invariant (State.reg · off) (fun x t => ?_) _ _).trans
    (eachDo_invariant (State.reg · off) (fun x t => t.reg_writeRec h x) _ _)
  rw [State.loseRec, State.reg_assert _ 939 off h, State.reg_withMgd, t.reg_count_above h _ _ (by decide)]

end

@[simp] theorem State.record_rest (i unit p0 p1 tenant : Nat) : (s.record i unit p0 p1 tenant).rest = s.rest := s.submit_rest _

/-- A bit of GAV_ERR that hardware sets is set. -/
theorem State.flag_gavErr {f : Fld} (hw : f.w = 1) (hlo : f.lo < 64) : (s.gavErr f).flag GAV_ERR f = true := by
  have hset (t : State) : (t.wr GAV_ERR f 1).rd GAV_ERR f = 1 := by
    rw [t.rd_wr _ _ _ (by omega), hw]
    rfl
  have hrd : (s.gavErr f).rd GAV_ERR f = 1 := by
    unfold State.gavErr
    split_ifs
    · exact hset s
    · rw [State.rd]
      exact (congrArg (fun w : Word => bits w.toNat f.lo f.w) (State.reg_assert (s.wr GAV_ERR f 1) 257 GAV_ERR (by decide))).trans (hset s)
  rw [State.flag, hrd]
  rfl

/-- The pulse of a step onto a whole second leaves TAI and the registers, 02 R59. -/
theorem State.ppsRise_frame : s.ppsRise.gav.tai = s.gav.tai ∧ s.ppsRise.regs = s.regs := by
  unfold State.ppsRise
  split_ifs <;> exact ⟨rfl, rfl⟩

/-- A step of TAI, before a pulse that it may bring. -/
def State.steppedTai (v : Nat) : State :=
  (({ s with gav := { s.gav with tai := v % 2 ^ 64, slew := 0, frac := 0 } } : State).gavErr GAV_ERR_TAI_STEP).record 257 unitGavotte
    (ofSigned 32 (sat32 (((v : Int) - (s.gav.tai : Int)) / 1000))) 0 0

theorem State.stepTai_eq (v : Nat) : s.stepTai v =
    if v % 1000000000 = 0 ∧ v ≠ s.gav.tai then (s.steppedTai v).ppsRise else s.steppedTai v := rfl

theorem State.steppedTai_tai (v : Nat) : (s.steppedTai v).gav.tai = v % 2 ^ 64 := by
  rw [State.steppedTai, State.gav_of_rest (State.record_rest _ _ _ _ _ _)]
  exact congrArg Clocks.tai (State.gavErr_clocks _ _)

theorem State.steppedTai_flag (v : Nat) : (s.steppedTai v).flag GAV_ERR GAV_ERR_TAI_STEP = true := by
  rw [State.flag, State.rd, State.steppedTai, State.record, State.reg_submit _ (by decide)]
  exact State.flag_gavErr _ rfl (by decide)

theorem State.stepTai_sets (v : Nat) : (s.stepTai v).gav.tai = v % 2 ^ 64 ∧ (s.stepTai v).flag GAV_ERR GAV_ERR_TAI_STEP = true := by
  rw [State.stepTai_eq]
  split_ifs
  · obtain ⟨htai, hregs⟩ := (s.steppedTai v).ppsRise_frame
    refine ⟨htai.trans (s.steppedTai_tai v), ?_⟩
    rw [State.flag, State.rd_congr hregs]
    exact s.steppedTai_flag v
  · exact ⟨s.steppedTai_tai v, s.steppedTai_flag v⟩

/-- TAI slews by at most 100 ppm, 02 R60. -/
theorem State.slewTai_bound (v : Nat) : (s.slewTai v).gav.tai = s.gav.tai ∧ (s.slewTai v).gav.slew.natAbs ≤ 100 := by
  refine ⟨rfl, ?_⟩
  unfold State.slewTai
  dsimp only
  split_ifs <;> omega

end

/-! What the commands do. -/

section
variable {s : State}

theorem execPhrefEdge_falling {p : Fin 3} (own : Bool) (hq : s.phaseQual p = false) : execPhrefEdge p false own s =
    .next ((s.inXclk own).setPhase p { s.phase p with far := (s.phase p).far || !depOk (s.departure p false) }) := by
  have hq' : (s.inXclk own).phaseQual p = false := by rw [State.phaseQual_inXclk, hq]
  rw [execPhrefEdge, State.phrefEdge_falling _ hq', State.phase_inXclk, State.departure_inXclk]

theorem execPhrefEdge_rising {p : Fin 3} {t : Nat} {x : Phase} (own : Bool) (hx : x = s.phase p) (hrise : x.rise = some t)
    (hdef : s.definingPhase ≠ some p.val) (hq : s.phaseQual p = false) (hper : s.periodOk (s.gav.mono - t) = true) (hgood : x.good < 15) :
    execPhrefEdge p true own s = .next ((s.inXclk own).setPhase p { x with
      rise := some s.gav.mono, period := s.gav.mono - t, far := false, good := x.good + 1,
      near := if !(x.far || !depOk (s.departure p true)) then min 16 (x.near + 1) else 0,
      bad := if (x.far || !depOk (s.departure p true)) then min 4 (x.bad + 1) else 0 }) := by
  have hx' : x = (s.inXclk own).phase p := by rw [State.phase_inXclk, hx]
  have hdef' : (s.inXclk own).definingPhase ≠ some p.val := by cases own <;> exact hdef
  have hq' : (s.inXclk own).phaseQual p = false := by rw [State.phaseQual_inXclk, hq]
  have hper' : (s.inXclk own).periodOk ((s.inXclk own).gav.mono - t) = true := by cases own <;> exact hper
  rw [execPhrefEdge, State.phrefEdge_rising _ hx' hrise hdef' hq' hper' hgood, State.mono_inXclk, State.departure_inXclk]

end

/-- Settles O36: each command by its case, and the step and the slew of TAI. -/
theorem referencesAndTai : Obligations.ReferencesAndTai := by
  refine ⟨fun p own s => ⟨rfl, execPhrefEdge_falling own, ?_, execPtpReferenceInstant_of_unqualified,
    execPtpReferenceInstant_of_qualified, ?_, execReferenceLoss_phref, ?_, ?_, ?_, fun b => ⟨_, rfl, rfl⟩, ?_⟩, ?_⟩
  · rintro x y t hx hrise hdef hq hper hgood rfl
    exact execPhrefEdge_rising own hx hrise hdef hq hper hgood
  · intro x u hx hu hq href hlocked
    have hlost : exec (.referenceLoss true) s = .next u.refLost := hu ▸ execReferenceLoss_sv hx hq href
    rw [hlost]
    exact ⟨fun hwant hagree => congrArg _ (u.refLost_of_agrees hlocked hwant hagree), fun hnone => congrArg _ (u.refLost_of_none hlocked hnone)⟩
  · intro x hx hrev hwant hother huse hlocked
    have hlost : exec (.referenceRevert own) s = .next x.refLost := hx ▸ execReferenceRevert_of_due own hrev hwant hother huse
    rw [hlost]
    exact ⟨fun hwant hagree => congrArg _ (x.refLost_of_agrees hlocked hwant hagree), fun hnone => congrArg _ (x.refLost_of_none hlocked hnone)⟩
  · rintro c x u rfl rfl
    rfl
  · intro h x hsince hstate hlimit hx
    exact execHoldoverLimitExpiry_of_holdover hsince hstate hlimit hx
  · intro b x hx
    have hforce : exec (.forceHold b) s = .next ((s.ownXclk.forceHold b).reply respOk []) := rfl
    rw [hforce]
    exact ⟨fun hb h => by rw [State.forceHold_of_locked hx h, if_pos hb], fun hb h => by rw [State.forceHold_of_locked hx h, hb]; rfl⟩
  · intro d v s w near
    have hctrl : exec (.gavTaiCtrl d v) s = .next (s.ownXclk.taiCtrl d v) := rfl
    refine ⟨fun h => ?_, fun hlo hhi hsrc => ⟨_, hctrl, State.taiCtrl_answer v hlo hhi hsrc, fun hsame => ?_⟩, rfl,
      fun hsrc => ⟨fun x harm => ?_, ?_⟩, s.stepTai_sets, s.slewTai_bound, execTaiLockTimeout_of_followed, ?_, ?_⟩
    · rw [hctrl, State.taiCtrl_refused v h]
    · exact State.taiCtrl_same_source v hlo hhi hsrc hsame
    · exact congrArg Host.Outcome.next (State.ppsIn_of_armed (s := s.ownXclk) hsrc harm)
    · rintro u rfl harm
      have hpps : exec .ppsInEdge s = .next (s.ownXclk.followTai near) :=
        congrArg Host.Outcome.next (State.ppsIn_of_unarmed (s := s.ownXclk) hsrc harm)
      rw [hpps]
      exact ⟨fun h => congrArg _ (State.followTai_near (s := s.ownXclk) h), fun h => congrArg _ (State.followTai_far (s := s.ownXclk) h)⟩
    · intro u hu hs hen
      exact execPpsOutRise_of_enabled hu hs hen
    · intro u hu h
      exact execPpsOutFall_of_high hu h

end Sys2Proof.Machine

/-! PROOFS. Writes and firings of trigger entries (02 R61 to R71, R603). -/
namespace Sys2Proof.Machine
open Reg

/-- The fields of GAV_TRIGB that a write keeps. -/
def trigbFields (d : Word) : Nat := bits d.toNat 0 6 + bits d.toNat 8 14 * 2 ^ 8 + bits d.toNat 32 32 * 2 ^ 32

section
variable {s : State} {r : Requester}

/-! Who may write, 00 R9. -/

theorem State.plat_of_not_ok (f : State → State) (h : s.platOk r = false) : s.plat r f = s.reply errPerm [] := by
  simp [State.plat, h]

theorem State.plat_of_ok (f : State → State) (h : s.platOk r = true) : s.plat r f = f s := by simp [State.plat, h]

/-! Writes, 02 R61, R69 and R603. -/

variable {n : Nat} {d : Word}

/-- Entries below the split belong to the bitstream. -/
theorem State.trigaWrite_below_split (h : n < s.rd GAV_TRIG_SPLIT GAV_TRIG_SPLIT_SPLIT) : s.trigaWrite n d = s.reply errPerm [] := by
  simp [State.trigaWrite, h]

theorem State.trigbWrite_below_split (h : n < s.rd GAV_TRIG_SPLIT GAV_TRIG_SPLIT_SPLIT) : s.trigbWrite n d = s.reply errPerm [] := by
  simp [State.trigbWrite, h]

/-- GAV_TRIGA of an armed entry is locked. -/
theorem State.trigaWrite_armed (h : s.trigAction n ≠ 0) : s.trigaWrite n d = s.reply errPerm [] := by
  simp [State.trigaWrite, h]

theorem State.trigaWrite_off (hsplit : s.rd GAV_TRIG_SPLIT GAV_TRIG_SPLIT_SPLIT ≤ n) (h : s.trigAction n = 0) :
    s.trigaWrite n d = ((s.setReg (GAV_TRIGA n) d).noteWrite n).reply respOk [] := by
  simp [State.trigaWrite, h, hsplit]

theorem State.trigbWrite_bad (hsplit : s.rd GAV_TRIG_SPLIT GAV_TRIG_SPLIT_SPLIT ≤ n)
    (h : s.trigFieldBad (s.reg (GAV_TRIGA n)).toNat (trigbFields d) = true) : s.trigbWrite n d = s.reply errTarget [] := by
  exact (if_neg (by omega)).trans (if_pos h)

theorem State.trigbWrite_sets (hsplit : s.rd GAV_TRIG_SPLIT GAV_TRIG_SPLIT_SPLIT ≤ n)
    (h : s.trigFieldBad (s.reg (GAV_TRIGA n)).toNat (trigbFields d) = false) (hact : GAV_TRIGB_ACTION.of (trigbFields d) ≠ 5) :
    s.trigbWrite n d = (s.trigSet n (trigbFields d)).reply respOk [] := by
  exact (if_neg (by omega)).trans ((if_neg (ne_true_of_eq_false h)).trans (if_neg hact))

/-! When an entry is due, 02 R63 and R64. -/

theorem State.dueNow_absolute (habs : s.rd (GAV_TRIGB n) GAV_TRIGB_ABS = 1) (h : s.dueNow n = true) : 0 ≤ timeDiff (s.trigTime n) s.time := by
  simp only [State.dueNow, habs, if_true, Bool.and_eq_true, decide_eq_true_eq] at h
  exact h.2

theorem State.dueNow_periodic (habs : s.rd (GAV_TRIGB n) GAV_TRIGB_ABS = 0) (h : s.dueNow n = true) :
    s.angleNow (GAV_TRIGA_ANGLE.of (s.reg (GAV_TRIGA n)).toNat) = true ∧ (sget (fun _ => none) s.gav.next n = some 0 ∨
      (sget (fun _ => none) s.gav.next n = none ∧
        s.gav.cyc % GAV_TRIGA_PERIOD.of (s.reg (GAV_TRIGA n)).toNat = GAV_TRIGA_PHASE.of (s.reg (GAV_TRIGA n)).toNat)) := by
  simp only [State.dueNow, habs, zero_ne_one, if_false, Bool.and_eq_true] at h
  obtain ⟨-, hangle, hcycle⟩ := h
  refine ⟨hangle, ?_⟩
  split at hcycle
  next k hk => exact .inl (by rw [hk, beq_iff_eq.mp hcycle])
  next hk => exact .inr ⟨hk, beq_iff_eq.mp hcycle⟩

/-- An entry that is due is armed, and for the matcher. -/
theorem State.two_le_of_dueNow (h : s.dueNow n = true) : 2 ≤ s.trigAction n := by
  simp only [State.dueNow, Bool.and_eq_true, decide_eq_true_eq] at h
  obtain ⟨⟨⟨-, hact⟩, -⟩, -⟩ := h
  exact hact

/-! What a firing does, 02 R62 and R67. -/

theorem State.toDue_of_dueNow (f : Nat) (h : s.dueNow n = true) : State.toDue n f s = s := by
  cases f with
  | zero => rfl
  | succ f => rw [State.toDue, if_pos (.inr (.inr h))]

variable (late : List Nat)

theorem State.triggerFire_of_off (h : s.trigAction n = 0) : s.triggerFire n late = s := by simp [State.triggerFire, h]

theorem State.triggerFire_of_dueNow (h : s.dueNow n = true) : s.triggerFire n late = s.matchEntry n late := by
  have hact := State.two_le_of_dueNow h
  rw [State.triggerFire, if_neg (by omega), if_neg (by omega), State.toDue_of_dueNow duePasses h, if_pos h]

/-- The matcher has fired sixteen entries in this XCLK, or others fell due before, or the entry is a COMMIT beside others, 02 R67. -/
theorem State.matchEntry_waits (h : 16 ≤ s.gav.fired ∨ s.gav.delayed.any (·.old) = true ∨
      (GAV_TRIGB_ACTION.of (s.reg (GAV_TRIGB n)).toNat = 5 ∧ s.otherDue n = true))
    {u : State} (hu : u = s.restartCount n (s.reg (GAV_TRIGA n)).toNat (s.reg (GAV_TRIGB n)).toNat) : s.matchEntry n late =
    { u with gav := { u.gav with delayed := u.gav.delayed ++
      [⟨n, s.reg (GAV_TRIGA n), s.reg (GAV_TRIGB n), false, false, s.rd GAV_STAT GAV_STAT_STATE == 0⟩] } } := by
  subst hu
  exact if_pos h

/-- An entry that is no COMMIT fires where the matcher has room and nothing fell due before. -/
theorem State.matchEntry_fires (hroom : s.gav.fired < 16) (hold : s.gav.delayed.any (·.old) = false)
    (hact : GAV_TRIGB_ACTION.of (s.reg (GAV_TRIGB n)).toNat ≠ 5) {u : State}
    (hu : u = s.restartCount n (s.reg (GAV_TRIGA n)).toNat (s.reg (GAV_TRIGB n)).toNat) : s.matchEntry n late =
    (({ u with gav := { u.gav with fired := u.gav.fired + 1 } } : State).afterFire n (s.reg (GAV_TRIGB n)).toNat).fireAction
      (s.reg (GAV_TRIGB n)).toNat late (s.rd GAV_STAT GAV_STAT_STATE == 0) := by
  have hfires : ¬ (s.gav.fired ≥ 16 ∨ s.gav.delayed.any (·.old) = true ∨
      (GAV_TRIGB_ACTION.of (s.reg (GAV_TRIGB n)).toNat = 5 ∧ s.otherDue n = true)) := by simp [hroom, hold, hact]
  subst hu
  exact if_neg hfires

variable {b : Nat} (locked : Bool)

theorem State.fireAction_event (h : GAV_TRIGB_ACTION.of b = 2) : s.fireAction b late locked = s.gavPulse (GAV_TRIGB_TARGET.of b) := by
  simp [State.fireAction, h]

theorem State.fireAction_interrupt (h : GAV_TRIGB_ACTION.of b = 3) (hprompt : GAV_TRIGB_PROMPT.of b = 0) :
    s.fireAction b late locked = s.assert (258 + GAV_TRIGB_TARGET.of b) := by
  simp [State.fireAction, h, hprompt]

theorem State.fireAction_timer (h : GAV_TRIGB_ACTION.of b = 4) : s.fireAction b late locked = s.timerStart (GAV_TRIGB_TARGET.of b) := by
  simp [State.fireAction, h]

/-- The delayed entry in front fires with its old contents; one that a write has reached meanwhile stays as the write left it. -/
theorem State.delayedFire_of_written {x : Delayed} {rest : List Delayed} {v t : State} (hdel : s.gav.delayed = x :: rest) (hn : x.n = n)
    (hroom : s.gav.fired < 16) (hwritten : x.written = true) (hact : GAV_TRIGB_ACTION.of x.trigb.toNat ≠ 5)
    (hv : v = { s with gav := { s.gav with delayed := rest, fired := s.gav.fired + 1 } })
    (ht : t = if x.old = true then (v.count GAV_MATCH_DELAY GAV_MATCH_DELAY_COUNT 1).gavErr GAV_ERR_MATCH_DELAY else v) :
    s.delayedFire n late = t.fireAction x.trigb.toNat late x.locked := by
  subst hv ht
  simp [State.delayedFire, hdel, hn, Nat.not_le.mpr hroom, hwritten, hact]

end

/-- Settles O37: writes by who may write and what they write, firings by what the matcher does with an entry that is due. -/
theorem triggerEntries : Obligations.TriggerEntries := by
  intro r n d late s a b act new u
  have hwriteA : exec (.gavTrigaWrite r n d) s = .next (s.plat r fun s => s.trigaWrite n d) := rfl
  have hwriteB : exec (.gavTrigbWrite r n d) s = .next (s.plat r fun s => s.trigbWrite n d) := rfl
  have hfire : exec (.triggerFire n late) s = .next (s.triggerFire n (late.map (·.val))) := rfl
  have hmatch (h : s.dueNow n = true) : exec (.triggerFire n late) s = .next (s.matchEntry n (late.map (·.val))) := by
    rw [hfire, State.triggerFire_of_dueNow _ h]
  have hother {k : Nat} (h : act = k) (hk : k ≠ 5) : GAV_TRIGB_ACTION.of (s.reg (GAV_TRIGB n)).toNat ≠ 5 := h.trans_ne hk
  refine ⟨fun hr => ?_, fun hr hsplit => ?_, fun hr hsplit => ⟨fun h => ?_, fun h => ?_, fun h => ?_, fun h hact => ?_⟩,
    fun h => ?_, State.dueNow_absolute, State.dueNow_periodic, fun hdue h => ?_,
    fun t hdue hroom hold ht => ⟨fun h => ?_, fun h hprompt => ?_, fun h => ?_⟩, ?_⟩
  · rw [hwriteA, hwriteB, State.plat_of_not_ok _ hr, State.plat_of_not_ok _ hr]
    exact ⟨rfl, rfl⟩
  · rw [hwriteA, hwriteB, State.plat_of_ok _ hr, State.plat_of_ok _ hr, State.trigaWrite_below_split hsplit, State.trigbWrite_below_split hsplit]
    exact ⟨rfl, rfl⟩
  · rw [hwriteA, State.plat_of_ok _ hr, State.trigaWrite_off hsplit h]
  · rw [hwriteA, State.plat_of_ok _ hr, State.trigaWrite_armed h]
  · rw [hwriteB, State.plat_of_ok _ hr, State.trigbWrite_bad hsplit h]
  · rw [hwriteB, State.plat_of_ok _ hr, State.trigbWrite_sets hsplit h hact]
    rfl
  · rw [hfire, State.triggerFire_of_off _ h]
  · rw [hmatch hdue, State.matchEntry_waits _ h rfl]
  · rw [hmatch hdue, State.matchEntry_fires _ hroom hold (hother h (by decide)) rfl, ← ht, State.fireAction_event _ _ h]
  · rw [hmatch hdue, State.matchEntry_fires _ hroom hold (hother h (by decide)) rfl, ← ht, State.fireAction_interrupt _ _ h hprompt]
  · rw [hmatch hdue, State.matchEntry_fires _ hroom hold (hother h (by decide)) rfl, ← ht, State.fireAction_timer _ _ h]
  · intro x rest t v hdel hn hroom hwritten hact hv ht
    have hdelayed : exec (.matchDelayedFire n late) s = .next (s.delayedFire n (late.map (·.val))) := rfl
    rw [hdelayed, State.delayedFire_of_written _ hdel hn hroom hwritten (by omega) hv ht, State.fireAction_event _ _ hact]

end Sys2Proof.Machine

/-! PROOFS. Timers, edge detectors and pins (02 R72 to R75, 19 R592, R605). -/
namespace Sys2Proof.Machine
open Reg

section
variable {s : State}

/-! Timers, 02 R72. -/

section
variable {t : Nat} {x y : State} (hrun : s.flag (GAV_TMR_CTRL t) GAV_TMR_CTRL_RUN = true)
  (hx : x = if s.flag (GAV_TMR_CTRL t) GAV_TMR_CTRL_IRQ = true then s.assert (448 + t) else s)
  (hy : y = if s.flag (GAV_TMR_CTRL t) GAV_TMR_CTRL_EVT = true then x.gavPulse (s.rd (GAV_TMR_CTRL t) GAV_TMR_CTRL_CHAN) else x)
include hrun hx hy

/-- A periodic timer that expires asserts, pulses, and starts again. -/
theorem State.timerExpiry_periodic (h : s.flag (GAV_TMR_CTRL t) GAV_TMR_CTRL_PERIODIC = true) : s.timerExpiry t = y.timerStart t := by
  subst hx hy
  rw [State.timerExpiry, if_pos hrun]
  exact if_pos h

/-- Any other timer stops at 0. -/
theorem State.timerExpiry_once (h : s.flag (GAV_TMR_CTRL t) GAV_TMR_CTRL_PERIODIC = false) : s.timerExpiry t =
    (y.wr (GAV_TMR_CTRL t) GAV_TMR_CTRL_RUN 0).wr (GAV_TMR_CNT t) GAV_TMR_CNT_COUNT 0 := by
  subst hx hy
  rw [State.timerExpiry, if_pos hrun]
  exact if_neg (ne_true_of_eq_false h)

end

theorem execTimerExpiry_running {t : Fin 64} (h : s.flag (GAV_TMR_CTRL t) GAV_TMR_CTRL_RUN = true) :
    execTimerExpiry t s = .next ((s.toExpiry t).timerExpiry t) := by
  simp [execTimerExpiry, h]

theorem execTimerExpiry_stopped {t : Fin 64} (h : s.flag (GAV_TMR_CTRL t) GAV_TMR_CTRL_RUN = false) : execTimerExpiry t s = .next s := by
  simp [execTimerExpiry, h]

/-! Edge detectors, 02 R74 and R75. -/

/-- The detector has taken the level that it had seen. -/
def State.edgeLevel (s : State) (e : Nat) (c : EdgeCand) : State :=
  ({ s with gav := { s.gav with cands := sset (fun _ => none) s.gav.cands e none } } : State).wr (GAV_EDGE_STAT e) GAV_EDGE_STAT_LEVEL (b2n c.level)

section
variable {e : Nat} {c : EdgeCand} {v : State} (hv : v = s.edgeLevel e c)
include hv

/-- An edge of a polarity that is not enabled captures nothing. -/
theorem State.edgeAccept_other_polarity
    (h : bits (v.rd (GAV_EDGE_CTRL e) GAV_EDGE_CTRL_POL) (if c.level then 0 else 1) 1 ≠ 1) : s.edgeAccept e c = v := by
  subst hv
  exact if_neg h

/-- An edge is counted and captured while the queue has room. -/
theorem State.edgeAccept_captures (h : bits (v.rd (GAV_EDGE_CTRL e) GAV_EDGE_CTRL_POL) (if c.level then 0 else 1) 1 = 1)
    (hroom : (v.captures e).length < 4) (hirq : v.flag (GAV_EDGE_CTRL e) GAV_EDGE_CTRL_IRQ = false)
    (hevt : v.flag (GAV_EDGE_CTRL e) GAV_EDGE_CTRL_EVT = false) : s.edgeAccept e c =
      (v.count (GAV_EDGE_STAT e) GAV_EDGE_STAT_EDGES 1).setCaptures e (v.captures e ++ [(BitVec.ofNat 64 c.time, BitVec.ofNat 64 c.tai)]) := by
  unfold State.edgeLevel at hv
  simp only [State.edgeAccept, ← hv, h, hroom, hirq, hevt, if_true, Bool.false_eq_true, if_false]

end

theorem execEdgeAccept_none {e : Fin 32} (high own : Bool) (h : sget (fun _ => none) s.gav.cands e = none) :
    execEdgeAccept e high own s = .next s := by
  simp [execEdgeAccept, h]

theorem execEdgeAccept_other {e : Fin 32} {high : Bool} {c : EdgeCand} (own : Bool) (h : sget (fun _ => none) s.gav.cands e = some c)
    (hlev : c.level ≠ high) : execEdgeAccept e high own s = .next s := by
  simp [execEdgeAccept, h, hlev]

/-- Time passes until the level has held for FILT PCLK cycles, and the edge is accepted. -/
theorem execEdgeAccept_seen {e : Fin 32} {high own : Bool} {c : EdgeCand} {k : Nat} (h : sget (fun _ => none) s.gav.cands e = some c)
    (hlev : c.level = high) (hk : k = c.xclk + 10 * s.rd (GAV_EDGE_CTRL e) GAV_EDGE_CTRL_FILT - s.gav.xclk) :
    execEdgeAccept e high own s = .next (((s.pass k k).inXclk own).edgeAccept e c) := by
  simp [execEdgeAccept, h, hlev, hk]

/-! Pins, 02 R74 and 19 R605. -/

theorem execPinLevelChange_gp {n : Fin 36} (b : Bool) (h : n.val < 32) : execPinLevelChange n b s =
    .next ((({ s with pins := { s.pins with ext := sset (fun _ => false) s.pins.ext n b } } : State).edgesSee n).unsettled s.nextPclk) := by
  simp [execPinLevelChange, h]

theorem execPinLevelChange_input {n : Fin 36} (b : Bool) (h : 32 ≤ n.val) : execPinLevelChange n b s =
    .next (({ s with pins := { s.pins with level := sset (fun _ => false) s.pins.level n b } } : State).edgesSee n) := by
  simp [execPinLevelChange, Nat.not_lt.mpr h]

end

/-- Settles O38: each command by its case. -/
theorem timersEdgesAndPins : Obligations.TimersEdgesAndPins := by
  intro t e high own n d s
  refine ⟨fun u x y hu hs hrun hx hy => ?_, execTimerExpiry_stopped, execEdgeAccept_none high own, fun c => execEdgeAccept_other own,
    fun c k u v hc hlev hk hu hv => ?_, rfl, execPinLevelChange_gp high, execPinLevelChange_input high, rfl⟩
  · have hexp : exec (.timerExpiry t) s = .next (u.timerExpiry t) := hu ▸ execTimerExpiry_running hs
    rw [hexp]
    exact ⟨fun h => congrArg _ (State.timerExpiry_periodic hrun hx hy h), fun h => congrArg _ (State.timerExpiry_once hrun hx hy h)⟩
  · have hacc : exec (.edgeAccept e high own) s = .next (u.edgeAccept e c) := hu ▸ execEdgeAccept_seen hc hlev hk
    rw [hacc]
    exact ⟨fun h => congrArg _ (State.edgeAccept_other_polarity hv h),
      fun h hroom hirq hevt => congrArg _ (State.edgeAccept_captures hv h hroom hirq hevt)⟩

end Sys2Proof.Machine

/-! PROOFS. Issue of long-vector instructions (03 R89 to R95, R119 to R121, 05 R171). -/
namespace Sys2Proof.Machine

/-! Moving the program counter leaves the operands of an instruction. -/

section
variable (s : State) (e n p1 k : Nat)

@[simp] theorem State.vsu_past (b : Nat) : (s.past e n).vsu e b = s.vsu e b := by
  simp [State.vsu, State.past, State.setPc]

@[simp] theorem State.core_past : (s.past e n).core e = { s.core e with pc := (s.pc e + n) % 2 ^ 48 } := by
  simp [State.past, State.setPc]

theorem State.runBank_past : (s.past e n).runBank e = s.runBank e := by
  simp [State.runBank, Core.bank]

@[simp] theorem State.lvReg_past (i : Nat) : (s.past e n).lvReg e p1 k i = s.lvReg e p1 k i := by simp [State.lvReg]

@[simp] theorem State.lvDesc_past : (s.past e n).lvDesc e p1 k = s.lvDesc e p1 k := by simp [State.lvDesc]

theorem State.lvScalar_past : (s.past e n).lvScalar e = s.lvScalar e := by
  funext t r
  simp [State.lvScalar]

theorem State.chainSteps_past (body : Nat) : (s.past e n).chainSteps e body = s.chainSteps e body := by
  simp only [State.chainSteps, State.runBank_past]

theorem State.chainScalars_past : (s.past e n).chainScalars e = s.chainScalars e := by
  funext l t
  simp only [State.chainScalars, State.lvScalar_past]

theorem State.lvFormIs_past (a : LvAsk) (f : LvForm) (sc : Option Nat) : (s.past e n).lvFormIs e p1 a f sc ↔ s.lvFormIs e p1 a f sc := by
  simp only [State.lvFormIs, State.lvScalarIs, State.lvDesc_past, State.lvScalar_past, State.chainSteps_past, State.chainScalars_past]

theorem State.lvEntry_past (pc : Nat) (f : LvForm) (sc : Option Nat) :
    (s.past e n).lvEntry e pc p1 f sc = s.lvEntry e pc p1 f sc := by
  simp [State.lvEntry]

end

/-- Every long-vector instruction issues alike, with its own operation. -/
theorem exec_longVector {i : Instr} {e : EngId} {a : LvAsk} {p1 : BitVec 32} (s : State) (h : longVector i = some (e, a, p1)) :
    exec i s = .next (s.lv e a p1) := by
  unfold longVector at h
  split at h <;> cases h <;> rfl

/-! Operands that pass the checks of issue. -/

section
variable {s : State} {e p1 : Nat} {a : LvAsk}

/-- The scalar read of an accepted operand: the tag was right, and a D15 value has valid digits (03 R93). -/
theorem State.lvScalar_of_lvScalarIs {t : Nat} {sc : Option Nat} (h : s.lvScalarIs e p1 t sc) :
    (if (bits p1 29 1 == 1 && etDefined t) = true then some (s.lvScalar e t (BitVec.ofNat 5 (bits p1 24 5))) else none) =
      sc.map (fun v => (v, none)) ∧ (sc.any fun v => t == 11 && !d15Valid v) = false := by
  unfold State.lvScalarIs at h
  split_ifs at h with hread
  · obtain ⟨htag, rfl, hdigits⟩ := h
    refine ⟨?_, by simpa using hdigits⟩
    rw [if_pos (by simpa using hread), Option.map_some, ← htag]
  · subst h
    exact ⟨if_neg (by simpa using hread), rfl⟩

/-- A FILL without a scalar is ILLEGAL_OP, 03 R92. -/
theorem State.scalar_of_fill_legal {r : Nat} {x : LvEntry} {mv : Bool} (h : s.lvIllegal e (.fill r) p1 x mv = false) : bits p1 29 1 = 1 := by
  simp only [State.lvIllegal, Bool.or_eq_false_iff, Bool.not_eq_false', Bool.and_eq_true, beq_iff_eq] at h
  tauto

/-- Both registers of stream `k` carry the tag of descriptors where parcel 1 names it, 03 R94. -/
def State.lvNamed (s : State) (e p1 k : Nat) : Prop :=
  useBit p1 k = true → (s.lvReg e p1 k 0).tag = tagDesc ∧ (s.lvReg e p1 k 1).tag = tagDesc

/-- No register of the named pairs has another tag. -/
theorem State.find_tag_of_lvNamed (h : ∀ k < 4, s.lvNamed e p1 k) :
    ((([0, 1, 2, 3].filter (useBit p1)).flatMap fun k => [(s.lvReg e p1 k 0).tag, (s.lvReg e p1 k 1).tag]).find? fun t => t != tagDesc) = none := by
  rw [List.find?_eq_none]
  intro t ht
  obtain ⟨k, hk, htk⟩ := List.mem_flatMap.mp ht
  obtain ⟨hk4, huse⟩ := List.mem_filter.mp hk
  obtain ⟨htag0, htag1⟩ := h k (List.mem_range.mp hk4) huse
  have htag : t = tagDesc := by simpa [htag0, htag1] using htk
  simp [htag]

theorem State.lvNamed_past (n k : Nat) : (s.past e n).lvNamed e p1 k ↔ s.lvNamed e p1 k := by simp [State.lvNamed]

/-- Parcel 1 names the stream that a descriptor describes. -/
theorem State.useBit_of_lvDesc {k : Nat} {f : Desc → Bool} (h : (s.lvDesc e p1 k).any f = true) : useBit p1 k = true := by
  by_contra huse
  simp [State.lvDesc, huse] at h

end

/-! Issue, 03 R89 to R96. -/

section
variable {s : State} {e : Nat} {a : LvAsk} {p1w : BitVec 32}

/-- An instruction with no element completes without any other check, 03 R96. -/
theorem lvIssue_of_no_element (hnamed : s.lvNamed e p1w.toNat a.governing)
    (hlen : ((s.lvDesc e p1w.toNat a.governing).any fun d => decide (dLen d ≤ dStart d)) = true) : lvIssue e a p1w s = .commit s := by
  have huse := State.useBit_of_lvDesc hlen
  obtain ⟨htag0, htag1⟩ := hnamed huse
  unfold lvIssue
  extract_lets p1 b reg named desc isDesc gk empty
  have hgk : gk = a.governing := by cases a <;> rfl
  have hempty : empty = true := by
    have hdesc : isDesc a.governing = true := by simpa [isDesc] using ⟨htag0, htag1⟩
    simp only [empty, hgk, Bool.and_eq_true]
    exact ⟨⟨huse, hdesc⟩, hlen⟩
  rw [if_pos hempty]

/-- An instruction that passes every check enters the first free entry of its queue. -/
theorem lvIssue_of_legal {f : LvForm} {sc : Option Nat} {q : Nat} {x : LvEntry} (hnamed : ∀ k < 4, s.lvNamed e p1w.toNat k)
    (hlen : ((s.lvDesc e p1w.toNat a.governing).any fun d => decide (dLen d ≤ dStart d)) = false) (hform : s.lvFormIs e p1w.toNat a f sc)
    (hx : x = s.lvEntry e ((s.pc e + 2 ^ 48 - 8) % 2 ^ 48) p1w.toNat f sc) (hlegal : s.lvIllegal e a p1w.toNat x a.moves = false)
    (hpfl : s.pflAway e x = false) (haddr : s.lvAddrTrap e x = none)
    (hfree : ((if x.d.any dPfl then [4, 5] else [0, 1, 2, 3]).find? fun q => ((s.vsu e (s.core e).run).ent q).isNone) = some q) :
    lvIssue e a p1w s = .commit ((s.modVsu e (s.core e).run fun v => { v with ents := v.ents ++ [{ x with qe := q, ranges := s.lvRanges e x }] }).modEngine e
      fun z => { z with newLv := some ((s.core e).run, q) }) := by
  unfold lvIssue
  extract_lets p1 b reg named desc isDesc gk empty ty scl sreg st one ch badTag badDec form mv y0 y v slots
  have hempty : ¬ empty = true := by
    have hgk : gk = a.governing := by cases a <;> rfl
    have hany : ((desc gk).any fun d => decide (dLen d ≤ dStart d)) = false := hgk ▸ hlen
    simp [empty, hany]
  have htags : (named.flatMap fun k => [(reg k 0).tag, (reg k 1).tag]).find? (fun t => t != tagDesc) = none := State.find_tag_of_lvNamed hnamed
  have hscalar (hsc : s.lvScalarIs e p1 st sc) (hch : ch = ([], none))
      (hread : one = if (scl && etDefined st) = true then some (s.lvScalar e st sreg) else none) :
      one = sc.map (fun v => (v, none)) ∧ ch.2 = none ∧ badDec = false := by
    obtain ⟨hmap, hdigits⟩ := State.lvScalar_of_lvScalarIs hsc
    have hone := hread.trans hmap
    refine ⟨hone, hch ▸ rfl, ?_⟩
    simp only [badDec, hone, hch, Option.any_map, List.any_nil, Bool.or_false]
    exact hdigits
  have hops : (one = sc.map (fun v => (v, none)) ∧ ch.2 = none ∧ badDec = false) ∧ form = f := by
    cases a with
    | op o r => exact ⟨hscalar hform.2 rfl rfl, hform.1.symm⟩
    | copy r => exact ⟨hscalar hform.2 rfl rfl, hform.1.symm⟩
    | fill r =>
      have hscl : scl = true := beq_iff_eq.mpr (State.scalar_of_fill_legal hlegal)
      exact ⟨hscalar hform.2 rfl (by rw [hscl, Bool.true_and]), hform.1.symm⟩
    | chain body =>
      obtain ⟨htag, hf, hsc, hdigits⟩ := hform
      refine ⟨⟨hsc ▸ rfl, htag, ?_⟩, hf.symm⟩
      have hone : one = none := rfl
      simp only [badDec, hone, Option.any_none, Bool.false_or, List.any_eq_false, Bool.and_eq_true, Bool.or_eq_true, beq_iff_eq]
      rintro c hc ⟨⟨hsel, htype⟩, hbad⟩
      simp [hdigits c hc hsel htype] at hbad
  obtain ⟨⟨hone, hch, hdec⟩, hf⟩ := hops
  have hbad : badTag = none := by
    cases sc <;> simp [badTag, hone, hch]
  have hmv : mv = a.moves := by cases a <;> rfl
  have hy : y = x := by
    have hsc : one.map (·.1) = sc := by cases sc <;> simp [hone]
    rw [hx, ← hf, ← hsc]
    rfl
  clear_value y mv badDec badTag
  subst hy hmv hdec hbad
  rw [if_neg hempty, htags]
  simp only [p1, slots, v, b, hlegal, hpfl, haddr, hfree, Bool.or_self, Bool.false_eq_true, if_false]

/-- An issue that completes is a commit point, 03 R119. -/
theorem State.lv_of_commit {t : State} (hready : s.ready e 8 (s.lvReads e a p1w.toNat)) (h : lvIssue e a p1w (s.past e 8) = .commit t) :
    s.lv e a p1w = t.commitPoint e := by
  rw [State.lv, s.issue_ready e 8 _ _ hready, h]

/-- The entry notes the instruction's own address, which the program counter has left 8 bytes behind. -/
theorem State.lvEntry_of_past (hpc : s.pc e < 2 ^ 48) (f : LvForm) (sc : Option Nat) :
    s.lvEntry e (s.pc e) p1w.toNat f sc =
      (s.past e 8).lvEntry e (((s.past e 8).pc e + 2 ^ 48 - 8) % 2 ^ 48) p1w.toNat f sc := by
  have hback : ((s.past e 8).pc e + 2 ^ 48 - 8) % 2 ^ 48 = s.pc e := by
    rw [State.pc_past]
    omega
  rw [hback, State.lvEntry_past]

end

/-- Settles O21: the engine past the instruction has the operands that the ready engine had, and `lvIssue` finds no check that fails. -/
theorem longVectorIssue : Obligations.LongVectorIssue := by
  intro i e a p1w s p hi hready hp hpc p1 b named
  subst hp
  have hrun : ((s.past e 8).core e).run = b := by rw [State.core_past]
  rw [exec_longVector s hi]
  refine ⟨fun hnamed hlen => ?_, fun f sc q hnamed hlen hform => ?_⟩
  · exact congrArg _ (State.lv_of_commit hready
      (lvIssue_of_no_element ((State.lvNamed_past 8 _).mpr hnamed) (by rwa [State.lvDesc_past])))
  · intro x hlegal hpfl haddr hfree
    refine congrArg _ (State.lv_of_commit hready ?_)
    rw [← hrun]
    exact lvIssue_of_legal (fun k hk => (State.lvNamed_past 8 k).mpr (hnamed k hk)) (by rwa [State.lvDesc_past])
      ((State.lvFormIs_past s e 8 p1 a f sc).mpr hform) (State.lvEntry_of_past hpc f sc) hlegal hpfl haddr (by rwa [State.vsu_past, hrun])

end Sys2Proof.Machine

/-! PROOFS. Blocks, rewinds and ends of long-vector instructions (03 R97 to R129, 10 R366). -/
namespace Sys2Proof.Machine
open Reg

section
variable {s : State} {e : Nat} {q : Nat} {x : LvEntry}

/-! A block of an instruction outside a chain of engines, 03 R97 and R109. -/

section
variable {lo hi : Nat} {c : BlockRes × State} (hent : (s.vsu e (s.vsuBank e)).ent q = some x) (hready : s.lvReady e (s.vsuBank e) x = true)
  (hring : x.ring = false) (hlo : lo = x.elem) (hhi : hi = min ((lo / 64 + 1) * 64) x.len)
  (hc : c = s.lvCompute e (s.vsuBank e) x lo hi x.carry []) (hwait : c.1.wait = false)
include hent hready hring hlo hhi hc hwait

/-- A good block whose writes find room commits. -/
theorem State.lvBlock_commits (hgood : c.1.fault = none) (hroom : s.lineRoom e c.1.writes = true) : s.lvBlock e q =
    c.2.lvCommit e (s.vsuBank e) q lo hi c.1.writes c.1.stage.or c.1.stage.carry (c.1.stage.carry != []) := by
  subst hlo hhi hc
  simp [State.lvBlock, hent, hready, hring, hwait, hgood, hroom]

/-- A bad block freezes the bank with its first fault. -/
theorem State.lvBlock_faults {f : BFault} (hbad : c.1.fault = some f) : s.lvBlock e q =
    c.2.freezeLv e (s.vsuBank e) q (f.elem % 64) f.st (s.cstepOf e x f.step) false f.cause f.eaddr (s.lvEscr e x f) f.xc := by
  subst hlo hhi hc
  simp [State.lvBlock, hent, hready, hring, hwait, hbad]

end

end

section
variable {s : State} {e : EngId} {b : Fin 8} {q : Fin 6} {x : LvEntry}

/-! A block that a residue check discards, 03 R129. -/

/-- The block runs again and its rewind counts; the eighth in a row retires the engine (10 R366). -/
theorem execResidueRewind_block {t : State} (hent : (s.vsu e (s.vsuBank e)).ent q = some x) (hready : s.lvReady e (s.vsuBank e) x = true)
    (hdst : x.ringDst = false)
    (ht : t = (s.count (ENG_VSU_REWIND e) ENG_VSU_REWIND_COUNT 1).modEnt e (s.vsuBank e) q fun y => { y with rewinds := y.rewinds + 1 }) :
    execResidueRewind e (some q) s = .next (if x.rewinds < 7 then t else t.retireEngine e 2) := by
  subst ht
  have heighth : x.rewinds + 1 ≥ 8 ↔ ¬ x.rewinds < 7 := by omega
  simp only [execResidueRewind, hent, hready, hdst, heighth, ite_not, Bool.not_true, Bool.false_eq_true, if_false]

/-! The writes of a committed block end, 03 R116 and R121. -/

theorem execLvComplete_of_ent (hent : (s.vsu e b).ent q = some x) : execLvComplete e b q s =
    .next ((s.modEnt e b q fun y => { y with unacked := y.unacked.filter fun p => p.2 != respOk }).lvRetire e b q) := by
  simp [execLvComplete, hent]

theorem execLvComplete_of_drain (hent : (s.vsu e b).ent q = none) : execLvComplete e b q s =
    .next (s.modVsu e b fun v => { v with drain := v.drain.filter fun x => x.qe != q.val }) := by
  simp [execLvComplete, hent]

/-- The outstanding write of block `blk` that a late response names: the first that the model finds bad, otherwise the first. -/
def LvEntry.lateWrite (x : LvEntry) (blk : Nat) : Option (Nat × Nat) :=
  let mine := x.unacked.filter fun p => p.1 / 64 == blk
  (mine.find? fun p => p.2 != respOk).or mine.head?

/-- A bad response freezes the bank with the entry back at the block. -/
theorem execLvDeferredWriteError_freezes {blk : BitVec 18} {resp : BitVec 3} {p : Nat × Nat} {r : Nat} (hent : (s.vsu e b).ent q = some x)
    (hp : x.lateWrite blk.toNat = some p) (hr : r = if p.2 = respOk then resp.toNat else p.2) (hbad : r ≠ respOk)
    (hrun : (s.vsu e b).frozen = false) : execLvDeferredWriteError e b q blk resp s =
      .next (((s.modEnt e b q fun y => { y with elem := p.1, unacked := y.unacked.filter fun z => z.1 != p.1 }).freezeLv e b q 0 3 (s.cstepOf e x 0) true
        (if r = errInteg then cInteg else if r = errPerm then cPerm else cBus)
        (dElem (x.d.getD (0, 0)) (x.dposOf (p.1 - x.start))) (accEscr 3 r) 0).count (ENG_VSU_DEFER e) ENG_VSU_DEFER_COUNT 1) := by
  subst hr
  unfold LvEntry.lateWrite at hp
  dsimp only at hp
  simp only [execLvDeferredWriteError, hent, hp, hbad, hrun, Bool.false_eq_true, or_self, if_false]

end

/-- Settles O22: each command by the case of its entry. -/
theorem longVectorProgress : Obligations.LongVectorProgress := by
  intro e b q blk resp x s
  refine ⟨fun lo hi c hent hready hring hlo hhi hc hwait => ⟨fun hgood hroom => ?_, fun f hbad => ?_⟩,
    fun hent hready hdst t ht => execResidueRewind_block hent hready hdst ht, rfl,
    execLvComplete_of_ent, execLvComplete_of_drain, fun p r => execLvDeferredWriteError_freezes⟩
  · exact congrArg _ (State.lvBlock_commits hent hready hring hlo hhi hc hwait hgood hroom)
  · exact congrArg _ (State.lvBlock_faults hent hready hring hlo hhi hc hwait hbad)

end Sys2Proof.Machine

/-! PROOFS. The counter-clear registers (03 R130, 05 R199, 06 R232 and R244, 09 R344, 10 R384, 11 R415 and R416). -/
namespace Sys2Proof.Machine
open Reg

section
variable (s : State) (offs : List Nat)

theorem State.reg_clearRegs (o : Nat) : (s.clearRegs offs).reg o = if o ∈ offs then 0 else s.reg o := by
  induction offs generalizing s with
  | nil => rfl
  | cons a as ih =>
    have hcons : s.clearRegs (a :: as) = (s.setReg a 0).clearRegs as := rfl
    rw [hcons, ih]
    by_cases hmem : o ∈ as
    · simp [hmem]
    · by_cases ha : o = a
      · simp [ha]
      · simp [hmem, ha, State.reg_setReg_ne]

@[simp] theorem State.clearRegs_mem : (s.clearRegs offs).mem = s.mem :=
  eachDo_invariant State.mem (f := fun o t => t.setReg o 0) (fun _ _ => rfl) offs s

@[simp] theorem State.clearRegs_eng : (s.clearRegs offs).eng = s.eng :=
  eachDo_eng (f := fun o t => t.setReg o 0) (fun _ _ => rfl) offs s

/-- A command that clears the counters at `offs` and answers OK. -/
theorem exec_clears {i : Instr} (h : exec i s = .next ((s.clearRegs offs).reply respOk [])) :
    ∃ t : State, exec i s = .next t ∧ t.answer = ⟨0, []⟩ ∧ (∀ o ∈ offs, t.reg o = 0) ∧ (∀ o, o ∉ offs → t.reg o = s.reg o) ∧
      t.mem = s.mem ∧ t.eng = s.eng := by
  refine ⟨_, h, rfl, fun o ho => ?_, fun o ho => ?_, s.clearRegs_mem offs, s.clearRegs_eng offs⟩
  · rw [State.reg_reply, State.reg_clearRegs, if_pos ho]
  · rw [State.reg_reply, State.reg_clearRegs, if_neg ho]

theorem State.rd_setReg_ne (off o : Nat) (w : Word) (f : Fld) (h : o ≠ off) : (s.setReg off w).rd o f = s.rd o f := by
  simp [State.rd, State.reg_setReg_ne _ _ _ _ h]

end

/-- Settles O29: seven of the commands clear whole registers; ENG_TNG_CNTCLR clears the COUNT of ENG_TNG_MISM and keeps the fields beside it. -/
theorem counterClears : Obligations.CounterClears := by
  intro e sl c s
  have hne : ENG_TNG_MISM e ≠ ENG_TNG_SVRETRY e := by simp [ENG_TNG_MISM, ENG_TNG_SVRETRY]
  have hrd (t : State) (f : Fld) := State.rd_setReg_ne t (ENG_TNG_SVRETRY e) (ENG_TNG_MISM e) 0 f hne
  refine ⟨exec_clears s _ rfl, exec_clears s _ rfl, exec_clears s _ rfl, exec_clears s _ rfl, exec_clears s _ rfl,
    exec_clears s _ rfl, exec_clears s _ rfl, _, rfl, rfl, ?_, ?_, ?_, ?_, fun o hmism hretry => ?_⟩
  · exact (hrd _ _).trans (s.rd_wr _ _ _ (by decide))
  · exact State.reg_setReg _ _ _
  · exact (hrd _ _).trans (s.rd_wr_ne _ _ _ _ (by decide) (by decide))
  · exact (hrd _ _).trans (s.rd_wr_ne _ _ _ _ (by decide) (by decide))
  · exact (State.reg_setReg_ne _ _ _ _ hretry).trans (s.reg_wr_ne _ _ _ _ hmism)

end Sys2Proof.Machine

/-! PROOFS. Short vectors (04 R167 and R168). -/
namespace Sys2Proof.Machine

@[simp] theorem State.vreg_past (s : State) (e n k : Nat) : (s.past e n).vreg e k = s.vreg e k := by
  simp only [State.vreg, State.runBank_past]

section
variable (s : State) (e p o : Nat) (vd va vb : BitVec 3) (et d : Nat) (md : BitVec 3)

/-- Element `i` of a short-vector operation, with its flags. -/
def State.shortElem (i : Nat) : FRes :=
  pipeElem p o md.toNat (s.vfcsr e % 8) et (shortDest p o et d) (vElem et (s.vreg e va.toNat) i) (vElem et (s.vreg e vb.toNat) i)
    (vElem et (s.vreg e vd.toNat) i)

/-- The types and MOD that an operation takes, with the element size kept (04 R167). -/
def shortLegal : Prop :=
  typesOk p o et et et (shortDest p o et d) true = true ∧ modOk p o et (shortDest p o et d) md.toNat false = true ∧
    etSize (shortDest p o et d) = etSize et

/-- The D15 sources that an operation reads hold valid digits (04 R151). -/
def State.shortDigits : Prop :=
  checksDec p o et = true → ∀ i < 32 / etSize et, d15Valid (vElem et (s.vreg e va.toNat) i) = true ∧
    (2 ≤ opArity p o → d15Valid (vElem et (s.vreg e vb.toNat) i) = true)

/-- No element raises a flag whose trap is enabled (04 R169). -/
def State.shortQuiet : Prop :=
  ∀ i < 32 / etSize et, trapCause (s.shortElem e p o vd va vb et d md i).2 (s.vfcsr e) = 0

/-- The results of all elements of an operation. -/
def State.shortElems : List FRes := (List.range (32 / etSize et)).map (s.shortElem e p o vd va vb et d md)

/-- Engine `e` with the elements `rs`, of type `t`, in VD and their flags added. -/
def State.putShort (t : Nat) (rs : List FRes) : State :=
  let v := (rs.zipIdx.map fun q => q.1.1 * 2 ^ (etBits t * q.2)).sum
  let fl := rs.foldl (fun x r => x ||| r.2) 0
  if fl = 0 then s.setVreg e vd.toNat v else (s.setVreg e vd.toNat v).setVfcsr e (orFlags (s.vfcsr e) fl)

variable {s e p o vd va vb et d md}

/-- No element of a legal operation on D15 has an invalid source. -/
theorem State.any_bad_of_shortDigits (h : s.shortDigits e p o va vb et) :
    (checksDec p o et && (List.range (32 / etSize et)).any fun i =>
      !d15Valid (vElem et (s.vreg e va.toNat) i) || (opArity p o ≥ 2 && !d15Valid (vElem et (s.vreg e vb.toNat) i))) = false := by
  rw [Bool.and_eq_false_imp]
  intro hcheck
  rw [List.any_eq_false]
  intro i hi
  obtain ⟨ha, hb⟩ := h hcheck i (List.mem_range.mp hi)
  by_cases hbinary : 2 ≤ opArity p o
  · simp [ha, hb hbinary]
  · simp [ha, hbinary]

/-- No element traps. -/
theorem State.find_trap_of_shortQuiet (h : s.shortQuiet e p o vd va vb et d md) :
    ((s.shortElems e p o vd va vb et d md).find? fun r => trapCause r.2 (s.vfcsr e) != 0) = none := by
  rw [List.find?_eq_none]
  intro r hr
  obtain ⟨i, hi, rfl⟩ := List.mem_map.mp hr
  simp [h i (List.mem_range.mp hi)]

/-- An operation that passes every check writes its elements to VD. -/
theorem shortRes_done (hop : shortOk p o = true) (hlegal : shortLegal p o et d md) (hdigits : s.shortDigits e p o va vb et)
    (hquiet : s.shortQuiet e p o vd va vb et d md) (parcel : Nat) :
    shortRes e p o vd va vb et d md parcel s =
      .done (s.putShort e vd (shortDest p o et d) (s.shortElems e p o vd va vb et d md)) := by
  obtain ⟨htypes, hmod, hsize⟩ := hlegal
  have hbad := State.any_bad_of_shortDigits hdigits
  have hfind := State.find_trap_of_shortQuiet hquiet
  unfold shortRes
  extract_lets td n a b c bad rs
  have hform : ¬ (!(shortOk p o && typesOk p o et et et td true && modOk p o et td md.toNat false && etSize td == etSize et)) = true := by
    simp [td, hop, htypes, hmod, hsize]
  have hnone : (rs.find? fun r => trapCause r.2 (s.vfcsr e) != 0) = none := hfind
  have hdec : ¬ (checksDec p o et && (List.range n).any bad) = true := Bool.eq_false_iff.mp hbad
  rw [if_neg hform, if_neg hdec, hnone]
  rfl

end

section
variable {s : State} {e : EngId} {p o d : Nat} {vd va vb vc md : BitVec 3} {et : BitVec 4}

/-- A short-vector instruction on a ready engine and operands that it accepts: `vc` is the second source, which a unary operation does not read. -/
theorem State.shortVec_ready (hready : s.ready e 4 [.v va, .v vb, .v vd]) (hvc : vc = vb ∨ opArity p o < 2) (hop : shortOk p o = true)
    (hlegal : shortLegal p o et.toNat d md) (hdigits : s.shortDigits e p o va vc et.toNat)
    (hquiet : s.shortQuiet e p o vd va vc et.toNat d md) :
    s.shortVec e p o vd va vc et d md =
      (((s.past e 4).putShort e vd (shortDest p o et.toNat d) (s.shortElems e p o vd va vc et.toNat d md)).countInstr e) := by
  have hreads : s.ready e 4 ([.v va] ++ (if opArity p o ≥ 2 then [.v vc] else []) ++ if opArity p o ≥ 3 then [.v vd] else []) := by
    refine s.ready_mono e 4 _ _ hready fun r hr => ?_
    rcases hvc with rfl | hunary <;> grind
  have hdigits' : (s.past e 4).shortDigits e p o va vc et.toNat := by simpa [State.shortDigits] using hdigits
  have hquiet' : (s.past e 4).shortQuiet e p o vd va vc et.toNat d md := by
    simpa [State.shortQuiet, State.shortElem] using hquiet
  have helems : (s.past e 4).shortElems e p o vd va vc et.toNat d md = s.shortElems e p o vd va vc et.toNat d md := by
    simp [State.shortElems, State.shortElem]
  rw [State.shortVec, s.issue_ready e 4 _ _ hreads, shortRes_done hop hlegal hdigits' hquiet', helems]

end

/-- Settles O14: every instruction is `State.shortVec` of its PIPE and OPC, with V0 in the field that a unary operation does not read. -/
theorem shortVectorResults : Obligations.ShortVectorResults := by
  intro e vd va vb et dt md s hready n res fits put
  have settle (p o d : Nat) (y : BitVec 3) (hop : shortOk p o = true) (hy : y = vb ∨ opArity p o < 2) (h : fits p o d y) :
      .next (s.shortVec e p o vd va y et d md) = put p o d y := by
    obtain ⟨htypes, hmod, hsize, hdigits, hquiet⟩ := h
    rw [State.shortVec_ready hready hy hop ⟨htypes, hmod, hsize⟩ hdigits hquiet, State.putShort, State.vfcsr_past]
    rfl
  have binary (p o : Nat) (hop : shortOk p o = true) := settle p o 0 vb hop (.inl rfl)
  have unary (p o d : Nat) (hop : shortOk p o = true) (hone : opArity p o < 2) := settle p o d 0 hop (.inr hone)
  exact ⟨binary 0 0 rfl, binary 0 1 rfl, unary 0 2 0 rfl (by decide), unary 0 3 0 rfl (by decide), binary 0 4 rfl, binary 0 5 rfl,
    binary 0 8 rfl, binary 0 9 rfl, binary 0 10 rfl, binary 0 11 rfl, binary 0 12 rfl, binary 0 13 rfl, unary 0 16 0 rfl (by decide),
    binary 1 0 rfl, binary 1 1 rfl, binary 2 0 rfl, binary 2 1 rfl, unary 2 2 0 rfl (by decide), unary 3 16 dt.toNat rfl (by decide)⟩

end Sys2Proof.Machine

/-! PROOFS. The items of a ring link, and the blocks and freezes of a ring member (05 R181 to R192). -/
namespace Sys2Proof.Machine
open Reg

/-! Two writes of one key. -/

section
variable {α : Type}

/-- Deleting a key undoes its insertion. -/
theorem sdel_sins_same (m : Sparse α) (k : Nat) (v : α) : sdel (sins m k v) k = sdel m k := by
  induction m with
  | nil => simp [sins, sdel]
  | cons p r ih =>
    obtain ⟨a, w⟩ := p
    by_cases hlt : k < a
    · simp [sins, hlt, sdel]
    · have hcons (t : Sparse α) : sdel ((a, w) :: t) k = if a = k then sdel t k else (a, w) :: sdel t k := by
        by_cases ha : a = k <;> simp [sdel, ha]
      rw [sins, if_neg hlt, hcons, hcons, ih]

theorem sdel_sdel_same (m : Sparse α) (k : Nat) : sdel (sdel m k) k = sdel m k :=
  List.filter_eq_self.mpr fun p hp => bne_iff_ne.mpr (sdel_keys m k p hp)

variable [DecidableEq α] (d : Nat → α)

theorem sdel_sset_same (m : Sparse α) (k : Nat) (v : α) : sdel (sset d m k v) k = sdel m k := by
  unfold sset
  split
  · exact sdel_sdel_same m k
  · rw [sdel_sins_same, sdel_sdel_same]

/-- Of two writes of a key the second stands. -/
@[simp] theorem sset_sset_same (m : Sparse α) (k : Nat) (v w : α) : sset d (sset d m k v) k w = sset d m k w := by
  rw [sset, sdel_sset_same, sset]

end

section
variable (s : State) (e : Nat)

@[simp] theorem State.modEngine_modEngine (f g : Engine → Engine) : (s.modEngine e f).modEngine e g = s.modEngine e fun x => g (f x) := by
  rw [State.modEngine, State.engine_modEngine]
  simp [State.modEngine, State.setEngine]

/-- Two changes of a ring side are one. -/
@[simp] theorem State.modRing_modRing (f g : Ring → Ring) : (s.modRing e f).modRing e g = s.modRing e fun r => g (f r) :=
  s.modEngine_modEngine e _ _

/-- A change of a ring side reads that ring side alone. -/
theorem State.modRing_congr {f g : Ring → Ring} (h : f (s.ring e) = g (s.ring e)) : s.modRing e f = s.modRing e g := by
  have hring : f (s.engine e).ring = g (s.engine e).ring := h
  simp only [State.modRing, State.modEngine, hring]

end

section
variable {s : State} {e : EngId} {down : List LinkItem} {up : List UpItem}

/-! Headers, beats and markers from the producer, 05 R181 to R189 and R196. -/

/-- A header enters the buffer, and the beats after it are kept. -/
theorem execRingBeatReceive_header {n st : Nat} (bad : Bool) (h : (s.ring e).inLink = .header n st :: down) :
    execRingBeatReceive e bad s =
      .next (s.modRing e fun r => { r with inLink := r.inLink.drop 1, cin := r.cin ++ [.header n st], synced := true }) := by
  simp only [execRingBeatReceive, h, State.modRing_modRing]

section
variable {tag : Tag} {bs : List Byte} {more : Bool} (h : (s.ring e).inLink = .beat tag bs more :: down)
include h

/-- A good beat behind a header enters the buffer. -/
theorem execRingBeatReceive_beat_synced (hsync : (s.ring e).synced = true) : execRingBeatReceive e false s =
    .next (s.modRing e fun r => { r with inLink := r.inLink.drop 1, cin := r.cin ++ [.beat tag bs more] }) := by
  simp only [execRingBeatReceive, h, hsync, Bool.false_eq_true, if_false, if_true, State.modRing_modRing]

/-- A good beat that follows no header is dropped, and its credit goes back with its first part. -/
theorem execRingBeatReceive_beat_unsynced (hsync : (s.ring e).synced = false) : execRingBeatReceive e false s =
    .next ((s.modRing e fun r => { r with inLink := r.inLink.drop 1 }).returnCredit e (if more then 0 else 1)) := by
  have hbeats : beatsOf [.beat tag bs more] = if more then 0 else 1 := by cases more <;> rfl
  simp only [execRingBeatReceive, h, hsync, hbeats, Bool.false_eq_true, if_false]

end

/-- An end marker behind a header enters the buffer. -/
theorem execEndMarker_synced {g : Bool} (h : (s.ring e).inLink = .endMarker g :: down) (hsync : (s.ring e).synced = true) :
    execEndMarker e s = .next (s.modRing e fun r => { r with inLink := down, cin := r.cin ++ [.endMarker g] }) := by
  simp only [execEndMarker, h]
  exact congrArg _ (s.modRing_congr e (by rw [if_pos hsync]))

theorem execRewindMarker_of_inLink (h : (s.ring e).inLink = .rewindMarker :: down) : execRewindMarker e s =
    .next (((s.dropBeats e).count (ENG_VSU_REWIND e) ENG_VSU_REWIND_COUNT 1).sendDown e [.rewindMarker]) := by
  simp only [execRewindMarker, h]

theorem execPauseMarker_of_inLink (h : (s.ring e).inLink = .pauseMarker :: down) :
    execPauseMarker e s = .next ((s.dropBeats e).sendDown e [.pauseMarker]) := by
  simp only [execPauseMarker, h]

/-! Credits and decisions, 05 R184, R186 and R187. -/

theorem execCreditReturn_of_upLink {n : Nat} (h : (s.ring e).upLink = .credit n :: up) :
    execCreditReturn e s = .next (s.modRing e fun r => { r with upLink := up, credit := min 64 (r.credit + n) }) := by
  simp only [execCreditReturn, h]

section
variable {r : RingBlock} {rest : List RingBlock} (hblocks : (s.ring e).blocks = r :: rest) (hroom : s.lineRoom e r.writes = true)
include hblocks hroom

/-- The tail, which sends to no consumer, commits a good block. -/
theorem execBlockDecide_commits (hgood : r.good = true) (htail : (((s.vsu e r.bank).ent r.qe).any fun x => x.ringDst) = false) :
    execBlockDecide e s = .next ((s.ringCommit e r rest).sendUp e (.commit r.blk)) := by
  simp only [execBlockDecide, hblocks, hroom, hgood, htail, Bool.not_false, Bool.and_self, if_true]

/-- Another member commits its oldest block when the decision comes, whatever number that carries. -/
theorem execCommitSignal_commits {k : Nat} (h : (s.ring e).upLink = .commit k :: up) : execCommitSignal e s =
    .next (((s.modRing e fun r => { r with upLink := up }).ringCommit e r rest).sendUp e (.commit r.blk)) := by
  simp only [execCommitSignal, h, hblocks, hroom, if_true]

end

/-! Freezes, 05 R191 and R192. -/

section
variable {i : FreezeInfo}

/-- A freeze from the consumer is taken and goes on to the producer. -/
theorem execFreezeSignal_of_upLink (h : (s.ring e).upLink = .freeze i :: up) : execFreezeSignal e true s =
    .next (((s.modRing e fun r => { r with upLink := up }).takeFreeze e i false none).sendUp e (.freeze i)) := by
  simp only [execFreezeSignal, h, if_true]

/-- A freeze from the producer is taken and goes on to the consumer. -/
theorem execFreezeSignal_of_inLink (h : (s.ring e).inLink = .freeze i :: down) : execFreezeSignal e false s =
    .next (((s.modRing e fun r => { r with inLink := down }).takeFreeze e i true none).sendDown e [.freeze i]) := by
  simp only [execFreezeSignal, h, Bool.false_eq_true, if_false]

/-- A member that did not originate the freeze takes CHAIN_FAULT once no block below the freeze point is left. -/
theorem execFreezeComplete_chainFault {b : Nat} {x : LvEntry} (hfreeze : (s.ring e).freeze = some i) (hent : s.ringEnt e = some (b, x))
    (hbelow : i.blk ≤ x.elem / 64) (hblocks : (s.ring e).blocks = []) (hown : (s.ring e).own = none) : execFreezeComplete e s =
      .next (((s.freezeLv e b x.qe 0 0 (s.cstepOf e x 0) false cChainFault 0 i.escr 0).modRing e
        fun r => { r with freeze := none, own := none, cleared := none }).count (ENG_CHN_FREEZE e) ENG_CHN_FREEZE_COUNT 1) := by
  simp only [execFreezeComplete, hfreeze, hent, hbelow, hblocks, hown, and_self, if_true]

end

end

/-- Settles O23: each command by the item in front of its link, the tail's decision and the end of a freeze by the member's ring state. -/
theorem ringLinks : Obligations.RingLinks := by
  intro e bad g more n st k tag bs i r rest down up s
  exact ⟨execRingBeatReceive_header bad, execRingBeatReceive_beat_synced, execRingBeatReceive_beat_unsynced, execEndMarker_synced,
    execRewindMarker_of_inLink, execPauseMarker_of_inLink, execCreditReturn_of_upLink,
    fun hblocks hgood hroom htail => execBlockDecide_commits hblocks hroom hgood htail,
    fun hcommit hblocks hroom => execCommitSignal_commits hblocks hroom hcommit,
    execFreezeSignal_of_upLink, execFreezeSignal_of_inLink, fun _ _ => execFreezeComplete_chainFault⟩

end Sys2Proof.Machine

/-! PROOFS. What a step keeps: the rest of the queue, and memory in its canonical form. -/
namespace Sys2Proof.Machine

/-- Every command keeps the queue and the form of memory: the arms of the dispatch, each by the law of its meaning.
RECOVERY_END names its operands, since without its engine the match in its meaning cannot be told from that of the dispatch. -/
theorem exec_keeps {s0 s : State} (hs : Keeps s0 s) : (i : Instr) → OutKeeps s0 (exec i s)
  | .powerOnReset .. => execPowerOnReset_keeps hs
  | .registerWrite .. => execRegisterWrite_keeps hs
  | .slotStart .. => execSlotStart_keeps hs
  | .usablePartEnd .. => execUsablePartEnd_keeps hs
  | .slotEnd .. => execSlotEnd_keeps hs
  | .angleWrap => execAngleWrap_keeps hs
  | .voteMismatch => execVoteMismatch_keeps hs
  | .phrefEdge .. => execPhrefEdge_keeps hs
  | .ptpReferenceInstant => execPtpReferenceInstant_keeps hs
  | .referenceLoss .. => execReferenceLoss_keeps hs
  | .referenceRevert .. => execReferenceRevert_keeps hs
  | .holdoverLimitExpiry => execHoldoverLimitExpiry_keeps hs
  | .forceHold .. => execForceHold_keeps hs
  | .gavTaiCtrl .. => execGavTaiCtrl_keeps hs
  | .taiSet .. => execTaiSet_keeps hs
  | .ppsInEdge => execPpsInEdge_keeps hs
  | .taiLockTimeout => execTaiLockTimeout_keeps hs
  | .ppsOutRise => execPpsOutRise_keeps hs
  | .ppsOutFall => execPpsOutFall_keeps hs
  | .gavTrigaWrite .. => execGavTrigaWrite_keeps hs
  | .gavTrigbWrite .. => execGavTrigbWrite_keeps hs
  | .triggerFire .. => execTriggerFire_keeps hs
  | .matchDelayedFire .. => execMatchDelayedFire_keeps hs
  | .timerExpiry .. => execTimerExpiry_keeps hs
  | .edgeAccept .. => execEdgeAccept_keeps hs
  | .pop .. => execPop_keeps hs
  | .pinLevelChange .. => execPinLevelChange_keeps hs
  | .pinGpioOut .. => execPinGpioOut_keeps hs
  | .vadd .. => execVadd_keeps hs
  | .vsub .. => execVsub_keeps hs
  | .vneg .. => execVneg_keeps hs
  | .vabs .. => execVabs_keeps hs
  | .vmin .. => execVmin_keeps hs
  | .vmax .. => execVmax_keeps hs
  | .vcmp .. => execVcmp_keeps hs
  | .vsel .. => execVsel_keeps hs
  | .vand .. => execVand_keeps hs
  | .vor .. => execVor_keeps hs
  | .vxor .. => execVxor_keeps hs
  | .vandn .. => execVandn_keeps hs
  | .vshl .. => execVshl_keeps hs
  | .vshr .. => execVshr_keeps hs
  | .vdchk .. => execVdchk_keeps hs
  | .vdshl .. => execVdshl_keeps hs
  | .vdshr .. => execVdshr_keeps hs
  | .vmul .. => execVmul_keeps hs
  | .vmulh .. => execVmulh_keeps hs
  | .vmulw .. => execVmulw_keeps hs
  | .vdot .. => execVdot_keeps hs
  | .vfma .. => execVfma_keeps hs
  | .vdiv .. => execVdiv_keeps hs
  | .vsqrt .. => execVsqrt_keeps hs
  | .vrsum .. => execVrsum_keeps hs
  | .vrmin .. => execVrmin_keeps hs
  | .vrmax .. => execVrmax_keeps hs
  | .vscan .. => execVscan_keeps hs
  | .vzip .. => execVzip_keeps hs
  | .vunzip .. => execVunzip_keeps hs
  | .vbfly .. => execVbfly_keeps hs
  | .vcvt .. => execVcvt_keeps hs
  | .copy .. => execCopy_keeps hs
  | .fill .. => execFill_keeps hs
  | .chain .. => execChain_keeps hs
  | .lvBlockCommit .. => execLvBlockCommit_keeps hs
  | .residueRewind .. => execResidueRewind_keeps hs
  | .lvComplete .. => execLvComplete_keeps hs
  | .lvDeferredWriteError .. => execLvDeferredWriteError_keeps hs
  | .clear .. => execClear_keeps hs
  | .ringBeatReceive .. => execRingBeatReceive_keeps hs
  | .endMarker .. => execEndMarker_keeps hs
  | .blockDecide .. => execBlockDecide_keeps hs
  | .commitSignal .. => execCommitSignal_keeps hs
  | .rewindMarker .. => execRewindMarker_keeps hs
  | .pauseMarker .. => execPauseMarker_keeps hs
  | .creditReturn .. => execCreditReturn_keeps hs
  | .freezeSignal .. => execFreezeSignal_keeps hs
  | .freezeComplete .. => execFreezeComplete_keeps hs
  | .lineRead .. => execLineRead_keeps hs
  | .fullLineWrite .. => execFullLineWrite_keeps hs
  | .partialLineWrite .. => execPartialLineWrite_keeps hs
  | .scrubSlot .. => execScrubSlot_keeps hs
  | .sanitise .. => execSanitise_keeps hs
  | .sanitiseDone .. => execSanitiseDone_keeps hs
  | .pcTrainingLoss .. => execPcTrainingLoss_keeps hs
  | .pcRetire .. => execPcRetire_keeps hs
  | .pcTest .. => execPcTest_keeps hs
  | .pcReinstate .. => execPcReinstate_keeps hs
  | .pcTestDone .. => execPcTestDone_keeps hs
  | .migrationDone .. => execMigrationDone_keeps hs
  | .lvsClusterAccess .. => execLvsClusterAccess_keeps hs
  | .foxSave .. => execFoxSave_keeps hs
  | .foxMarch .. => execFoxMarch_keeps hs
  | .foxRestore .. => execFoxRestore_keeps hs
  | .foxWaitEnd .. => execFoxWaitEnd_keeps hs
  | .add .. => execAdd_keeps hs
  | .sub .. => execSub_keeps hs
  | .and .. => execAnd_keeps hs
  | .or .. => execOr_keeps hs
  | .xor .. => execXor_keeps hs
  | .andn .. => execAndn_keeps hs
  | .sll .. => execSll_keeps hs
  | .srl .. => execSrl_keeps hs
  | .sra .. => execSra_keeps hs
  | .ror .. => execRor_keeps hs
  | .slt .. => execSlt_keeps hs
  | .sltu .. => execSltu_keeps hs
  | .min .. => execMin_keeps hs
  | .max .. => execMax_keeps hs
  | .minu .. => execMinu_keeps hs
  | .maxu .. => execMaxu_keeps hs
  | .mov .. => execMov_keeps hs
  | .neg .. => execNeg_keeps hs
  | .clz .. => execClz_keeps hs
  | .ctz .. => execCtz_keeps hs
  | .popc .. => execPopc_keeps hs
  | .tcmp .. => execTcmp_keeps hs
  | .tagget .. => execTagget_keeps hs
  | .addi .. => execAddi_keeps hs
  | .andi .. => execAndi_keeps hs
  | .ori .. => execOri_keeps hs
  | .xori .. => execXori_keeps hs
  | .slti .. => execSlti_keeps hs
  | .sltiu .. => execSltiu_keeps hs
  | .shi .. => execShi_keeps hs
  | .movi .. => execMovi_keeps hs
  | .movk .. => execMovk_keeps hs
  | .tagset .. => execTagset_keeps hs
  | .mul .. => execMul_keeps hs
  | .mulh .. => execMulh_keeps hs
  | .mulhu .. => execMulhu_keeps hs
  | .mulw .. => execMulw_keeps hs
  | .mulwu .. => execMulwu_keeps hs
  | .div .. => execDiv_keeps hs
  | .divu .. => execDivu_keeps hs
  | .rem .. => execRem_keeps hs
  | .remu .. => execRemu_keeps hs
  | .addc .. => execAddc_keeps hs
  | .addcz .. => execAddcz_keeps hs
  | .subb .. => execSubb_keeps hs
  | .subbz .. => execSubbz_keeps hs
  | .dadj .. => execDadj_keeps hs
  | .dadd .. => execDadd_keeps hs
  | .dsub .. => execDsub_keeps hs
  | .dcmp .. => execDcmp_keeps hs
  | .cvbd .. => execCvbd_keeps hs
  | .cvdb .. => execCvdb_keeps hs
  | .dshl .. => execDshl_keeps hs
  | .dshr .. => execDshr_keeps hs
  | .ld .. => execLd_keeps hs
  | .ldw .. => execLdw_keeps hs
  | .ldwu .. => execLdwu_keeps hs
  | .ldh .. => execLdh_keeps hs
  | .ldhu .. => execLdhu_keeps hs
  | .ldb .. => execLdb_keeps hs
  | .ldbu .. => execLdbu_keeps hs
  | .ldX .. => execLdX_keeps hs
  | .ldp .. => execLdp_keeps hs
  | .fld .. => execFld_keeps hs
  | .fldp .. => execFldp_keeps hs
  | .flw .. => execFlw_keeps hs
  | .vld .. => execVld_keeps hs
  | .st .. => execSt_keeps hs
  | .stw .. => execStw_keeps hs
  | .sth .. => execSth_keeps hs
  | .stb .. => execStb_keeps hs
  | .stp .. => execStp_keeps hs
  | .fsd .. => execFsd_keeps hs
  | .fsdp .. => execFsdp_keeps hs
  | .fsw .. => execFsw_keeps hs
  | .vst .. => execVst_keeps hs
  | .storeDeferredError .. => execStoreDeferredError_keeps hs
  | .cacheLineFill .. => execCacheLineFill_keeps hs
  | .lkld .. => execLkld_keeps hs
  | .lkst .. => execLkst_keeps hs
  | .lkrel .. => execLkrel_keeps hs
  | .lockBreak .. => execLockBreak_keeps hs
  | .brcEq .. => execBrcEq_keeps hs
  | .brcNe .. => execBrcNe_keeps hs
  | .brcLt .. => execBrcLt_keeps hs
  | .brcGe .. => execBrcGe_keeps hs
  | .brcLo .. => execBrcLo_keeps hs
  | .brcHs .. => execBrcHs_keeps hs
  | .brcTeq .. => execBrcTeq_keeps hs
  | .brcTne .. => execBrcTne_keeps hs
  | .go .. => execGo_keeps hs
  | .call .. => execCall_keeps hs
  | .gor .. => execGor_keeps hs
  | .syscall .. => execSyscall_keeps hs
  | .break .. => execBreak_keeps hs
  | .retx .. => execRetx_keeps hs
  | .fence .. => execFence_keeps hs
  | .fenceI .. => execFenceI_keeps hs
  | .vwait .. => execVwait_keeps hs
  | .slotyield .. => execSlotyield_keeps hs
  | .rdtime .. => execRdtime_keeps hs
  | .rdtimes .. => execRdtimes_keeps hs
  | .rdtai .. => execRdtai_keeps hs
  | .banksave .. => execBanksave_keeps hs
  | .bankload .. => execBankload_keeps hs
  | .nop .. => execNop_keeps hs
  | .crr .. => execCrr_keeps hs
  | .crw .. => execCrw_keeps hs
  | .crs .. => execCrs_keeps hs
  | .crc .. => execCrc_keeps hs
  | .repI .. => execRepI_keeps hs
  | .repN .. => execRepN_keeps hs
  | .fadd .. => execFadd_keeps hs
  | .fsub .. => execFsub_keeps hs
  | .fmul .. => execFmul_keeps hs
  | .fma .. => execFma_keeps hs
  | .fdiv .. => execFdiv_keeps hs
  | .fsqrt .. => execFsqrt_keeps hs
  | .fmin .. => execFmin_keeps hs
  | .fmax .. => execFmax_keeps hs
  | .fcmp .. => execFcmp_keeps hs
  | .fcvtFf .. => execFcvtFf_keeps hs
  | .fcvtFi .. => execFcvtFi_keeps hs
  | .fcvtIf .. => execFcvtIf_keeps hs
  | .fmvGf .. => execFmvGf_keeps hs
  | .fmvFg .. => execFmvFg_keeps hs
  | .fneg .. => execFneg_keeps hs
  | .fabs .. => execFabs_keeps hs
  | .shortVadd .. => execShortVadd_keeps hs
  | .shortVsub .. => execShortVsub_keeps hs
  | .shortVneg .. => execShortVneg_keeps hs
  | .shortVabs .. => execShortVabs_keeps hs
  | .shortVmin .. => execShortVmin_keeps hs
  | .shortVmax .. => execShortVmax_keeps hs
  | .shortVand .. => execShortVand_keeps hs
  | .shortVor .. => execShortVor_keeps hs
  | .shortVxor .. => execShortVxor_keeps hs
  | .shortVandn .. => execShortVandn_keeps hs
  | .shortVshl .. => execShortVshl_keeps hs
  | .shortVshr .. => execShortVshr_keeps hs
  | .shortVdchk .. => execShortVdchk_keeps hs
  | .shortVmul .. => execShortVmul_keeps hs
  | .shortVmulh .. => execShortVmulh_keeps hs
  | .shortVfma .. => execShortVfma_keeps hs
  | .shortVdiv .. => execShortVdiv_keeps hs
  | .shortVsqrt .. => execShortVsqrt_keeps hs
  | .shortVcvt .. => execShortVcvt_keeps hs
  | .customerInstruction .. => execCustomerInstruction_keeps hs
  | .exceptionEntry .. => execExceptionEntry_keeps hs
  | .fehTimeout .. => execFehTimeout_keeps hs
  | .interruptEntry .. => execInterruptEntry_keeps hs
  | .promptEntry .. => execPromptEntry_keeps hs
  | .heldDelivery .. => execHeldDelivery_keeps hs
  | .niTimeout .. => execNiTimeout_keeps hs
  | .evecM .. => execEvecM_keeps hs
  | .promptCopyDone .. => execPromptCopyDone_keeps hs
  | .resume .. => execResume_keeps hs
  | .vacate .. => execVacate_keeps hs
  | .checkpointComplete .. => execCheckpointComplete_keeps hs
  | .lockstepRecovery .. => execLockstepRecovery_keeps hs
  | .recoveryEnd e late => execRecoveryEnd_keeps (e := e) (late := late) hs
  | .takeoverSwap .. => execTakeoverSwap_keeps hs
  | .handover .. => execHandover_keeps hs
  | .retire .. => execRetire_keeps hs
  | .test .. => execTest_keeps hs
  | .reinstate .. => execReinstate_keeps hs
  | .abort .. => execAbort_keeps hs
  | .precopyDone .. => execPrecopyDone_keeps hs
  | .handoverSwap .. => execHandoverSwap_keeps hs
  | .handoverTimeout .. => execHandoverTimeout_keeps hs
  | .engineTestDone .. => execEngineTestDone_keeps hs
  | .defaultTargetAccess .. => execDefaultTargetAccess_keeps hs
  | .rdS .. => execRdS_keeps hs
  | .rdU .. => execRdU_keeps hs
  | .upg .. => execUpg_keeps hs
  | .wb .. => execWb_keeps hs
  | .evc .. => execEvc_keeps hs
  | .snpSh .. => execSnpSh_keeps hs
  | .snpInv .. => execSnpInv_keeps hs
  | .snpRd .. => execSnpRd_keeps hs
  | .snpDrop .. => execSnpDrop_keeps hs
  | .sourceAssert .. => execSourceAssert_keeps hs
  | .msixUnmask .. => execMsixUnmask_keeps hs
  | .claim .. => execClaim_keeps hs
  | .complete .. => execComplete_keeps hs
  | .holdoffExpiry .. => execHoldoffExpiry_keeps hs
  | .icSgi .. => execIcSgi_keeps hs
  | .tpDoorbell .. => execTpDoorbell_keeps hs
  | .icSrcCfg .. => execIcSrcCfg_keeps hs
  | .eventFire .. => execEventFire_keeps hs
  | .evrFire .. => execEvrFire_keeps hs
  | .evoutPulseEnd .. => execEvoutPulseEnd_keeps hs
  | .deq .. => execDeq_keeps hs
  | .enq .. => execEnq_keeps hs
  | .alloc .. => execAlloc_keeps hs
  | .free .. => execFree_keeps hs
  | .ingressAdmit .. => execIngressAdmit_keeps hs
  | .ingressRetry .. => execIngressRetry_keeps hs
  | .ingressPost .. => execIngressPost_keeps hs
  | .tokenRefill => execTokenRefill_keeps hs
  | .shedEntry .. => execShedEntry_keeps hs
  | .descRamUe .. => execDescRamUe_keeps hs
  | .dropRecordSecond => execDropRecordSecond_keeps hs
  | .flitReceive .. => execFlitReceive_keeps hs
  | .ctrlFlit .. => execCtrlFlit_keeps hs
  | .ackTimer .. => execAckTimer_keeps hs
  | .discSend .. => execDiscSend_keeps hs
  | .discFlit .. => execDiscFlit_keeps hs
  | .neighbourLost .. => execNeighbourLost_keeps hs
  | .ptpFlitSend .. => execPtpFlitSend_keeps hs
  | .ptpFlit .. => execPtpFlit_keeps hs
  | .messageReceive .. => execMessageReceive_keeps hs
  | .transitStuckDrop .. => execTransitStuckDrop_keeps hs
  | .ethFrameReceive .. => execEthFrameReceive_keeps hs
  | .ptpFrameReceive .. => execPtpFrameReceive_keeps hs
  | .portTransmit .. => execPortTransmit_keeps hs
  | .laneFailure .. => execLaneFailure_keeps hs
  | .laneRejoin .. => execLaneRejoin_keeps hs
  | .linkDown .. => execLinkDown_keeps hs
  | .linkRetrainDone .. => execLinkRetrainDone_keeps hs
  | .release .. => execRelease_keeps hs
  | .stage .. => execStage_keeps hs
  | .discard .. => execDiscard_keeps hs
  | .stageCheckDone => execStageCheckDone_keeps hs
  | .fillDone => execFillDone_keeps hs
  | .svcInfo .. => execSvcInfo_keeps hs
  | .svcOpen .. => execSvcOpen_keeps hs
  | .svcData .. => execSvcData_keeps hs
  | .svcClose .. => execSvcClose_keeps hs
  | .svcStatus .. => execSvcStatus_keeps hs
  | .verify .. => execVerify_keeps hs
  | .ecdh .. => execEcdh_keeps hs
  | .sha384 .. => execSha384_keeps hs
  | .gcmDecrypt .. => execGcmDecrypt_keeps hs
  | .gcmEncrypt .. => execGcmEncrypt_keeps hs
  | .xts .. => execXts_keeps hs
  | .derive .. => execDerive_keeps hs
  | .keygen .. => execKeygen_keeps hs
  | .random .. => execRandom_keeps hs
  | .keDone => execKeDone_keeps hs
  | .prepare .. => execPrepare_keeps hs
  | .prepareDone => execPrepareDone_keeps hs
  | .start .. => execStart_keeps hs
  | .stop .. => execStop_keeps hs
  | .raiseMin .. => execRaiseMin_keeps hs
  | .revoke .. => execRevoke_keeps hs
  | .spareLoadDone .. => execSpareLoadDone_keeps hs
  | .stewardFirmwareSwitch => execStewardFirmwareSwitch_keeps hs
  | .surveyStart => execSurveyStart_keeps hs
  | .now .. => execNow_keeps hs
  | .planDecide .. => execPlanDecide_keeps hs
  | .eclkStep .. => execEclkStep_keeps hs
  | .marigoldSubmit .. => execMarigoldSubmit_keeps hs
  | .tjAlert => execTjAlert_keeps hs
  | .tjThrottle => execTjThrottle_keeps hs
  | .tjCool => execTjCool_keeps hs
  | .thermtrip => execThermtrip_keeps hs
  | .pcieInboundRequest .. => execPcieInboundRequest_keeps hs
  | .pcieConfigRequest .. => execPcieConfigRequest_keeps hs
  | .pcieReset .. => execPcieReset_keeps hs
  | .outboundAccess .. => execOutboundAccess_keeps hs
  | .mbxDoor .. => execMbxDoor_keeps hs
  | .mailboxReply .. => execMailboxReply_keeps hs
  | .smbusHottestTj .. => execSmbusHottestTj_keeps hs
  | .smbusPackagePower .. => execSmbusPackagePower_keeps hs
  | .smbusUpdBoot => execSmbusUpdBoot_keeps hs
  | .smbusGavState => execSmbusGavState_keeps hs
  | .smbusUpdatePhase => execSmbusUpdatePhase_keeps hs
  | .smbusCriticalCount => execSmbusCriticalCount_keeps hs
  | .smbusLowestLife => execSmbusLowestLife_keeps hs
  | .bypass => execBypass_keeps hs
  | .idcode => execIdcode_keeps hs
  | .samplePreload .. => execSamplePreload_keeps hs
  | .extest => execExtest_keeps hs
  | .extestPulse => execExtestPulse_keeps hs
  | .extestTrain => execExtestTrain_keeps hs
  | .clamp => execClamp_keeps hs
  | .highz => execHighz_keeps hs
  | .debug .. => execDebug_keeps hs
  | .engVsuCntclr .. => execEngVsuCntclr_keeps hs
  | .engChnCntclr .. => execEngChnCntclr_keeps hs
  | .slcCntclr .. => execSlcCntclr_keeps hs
  | .lvsCntclr .. => execLvsCntclr_keeps hs
  | .engExcCntclr .. => execEngExcCntclr_keeps hs
  | .engTngCntclr .. => execEngTngCntclr_keeps hs
  | .slcXcntclr .. => execSlcXcntclr_keeps hs
  | .cluCcCntclr .. => execCluCcCntclr_keeps hs
  | .qmCntclr .. => execQmCntclr_keeps hs
  | .octCntclr .. => execOctCntclr_keeps hs
  | .linkUp .. => execLinkUp_keeps hs
  | .pcieLinkUp .. => execPcieLinkUp_keeps hs
  | .svcLinkChange .. => execSvcLinkChange_keeps hs
  | .porstNAssert => execPorstNAssert_keeps hs
  | .accessResponse .. => execAccessResponse_keeps hs
  | .platformTimeCutoff .. => execPlatformTimeCutoff_keeps hs
  | .surveyComplete .. => execSurveyComplete_keeps hs
  | .revokeDone => execRevokeDone_keeps hs
  | .ptpMessageSend .. => execPtpMessageSend_keeps hs

/-- A step keeps the rest of the queue and the form of memory. -/
theorem step_keeps {s t : State} (h : step s = .next t) : Keeps { s with pending := s.pending.tail } t := by
  unfold step at h
  split at h
  case h_1 hempty =>
    obtain rfl : s.tick = t := by simpa using h
    obtain ⟨hpending, hmem⟩ := State.tick_keeps (keeps_refl s)
    exact ⟨by rw [hpending, hempty]; rfl, hmem⟩
  case h_2 c rest hfront =>
    rw [hfront]
    exact keeps_of_next h (exec_keeps (keeps_refl _) c)

/-- Settles O3: a step keeps the canonical form of memory, whatever command it takes from the queue. -/
theorem memoryStaysCanonical : Obligations.MemoryStaysCanonical := by
  intro s t hwf h
  obtain ⟨-, hmem⟩ := step_keeps h
  exact hmem hwf

end Sys2Proof.Machine

/-! PROOFS. Reads and writes of DRAM lines at their slices (06 R206, R217 to R220, 11 R387 and R407). -/
namespace Sys2Proof.Machine

section
variable (s : State)

/-! A command that takes command slots changes nothing else, 06 R208. -/

theorem State.takeSlot_eq (r p : Nat) : ∃ x, s.takeSlot r p = { s with mem := { s.mem with slots := x } } := by
  unfold State.takeSlot
  split
  · exact ⟨_, rfl⟩
  · exact ⟨s.mem.slots, rfl⟩

theorem eachDo_takeSlot_eq {β : Type} (r p : Nat) (xs : List β) (s : State) :
    ∃ x, eachDo xs (fun _ t => t.takeSlot r p) s = { s with mem := { s.mem with slots := x } } := by
  induction xs generalizing s with
  | nil => exact ⟨s.mem.slots, rfl⟩
  | cons b rest ih =>
    obtain ⟨x, hx⟩ := s.takeSlot_eq r p
    obtain ⟨y, hy⟩ := ih (s.takeSlot r p)
    exact ⟨y, hy.trans (by rw [hx])⟩

theorem State.takeSlots_eq (l n : Nat) : ∃ x, s.takeSlots l n = { s with mem := { s.mem with slots := x } } := by
  unfold State.takeSlots
  split
  · exact eachDo_takeSlot_eq _ _ _ s
  · exact ⟨s.mem.slots, rfl⟩

variable (l n a : Nat)

@[simp] theorem State.line_takeSlots : (s.takeSlots l n).line a = s.line a := by
  obtain ⟨x, hx⟩ := s.takeSlots_eq l n
  rw [hx]; rfl

@[simp] theorem State.lineWords_takeSlots : (s.takeSlots l n).lineWords a = s.lineWords a := by
  obtain ⟨x, hx⟩ := s.takeSlots_eq l n
  rw [hx]; rfl

@[simp] theorem State.dirtyLine_takeSlots : (s.takeSlots l n).dirtyLine a = s.dirtyLine a := by
  obtain ⟨x, hx⟩ := s.takeSlots_eq l n
  rw [hx]; rfl

@[simp] theorem State.finds_takeSlots (ecc : Ecc) : (s.takeSlots l n).finds a ecc = s.finds a ecc := by
  obtain ⟨x, hx⟩ := s.takeSlots_eq l n
  rw [hx]; rfl

@[simp] theorem State.remapLost_takeSlots (ecc : Ecc) : (s.takeSlots l n).remapLost a ecc = s.remapLost a ecc := by
  obtain ⟨x, hx⟩ := s.takeSlots_eq l n
  rw [hx]; rfl

@[simp] theorem State.itagOk_takeSlots (key : Nat) : (s.takeSlots l n).itagOk a key = s.itagOk a key := by
  obtain ⟨x, hx⟩ := s.takeSlots_eq l n
  rw [hx]; rfl

/-! The directory entry of a line is no part of what its slice stores. -/

variable (d : DirEntry)

@[simp] theorem State.line_setDir : (s.setDir l d).line a = s.line a := rfl
@[simp] theorem State.lineWords_setDir : (s.setDir l d).lineWords a = s.lineWords a := rfl
@[simp] theorem State.finds_setDir (ecc : Ecc) : (s.setDir l d).finds a ecc = s.finds a ecc := rfl
@[simp] theorem State.remapLost_setDir (ecc : Ecc) : (s.setDir l d).remapLost a ecc = s.remapLost a ecc := rfl
@[simp] theorem State.itagOk_setDir (key : Nat) : (s.setDir l d).itagOk a key = s.itagOk a key := rfl

end

@[simp] theorem State.eccCe_clean (s : State) (l : Nat) : s.eccCe l .clean = s := rfl

/-! What a slice answers a read by the state of the line, 06 R218. -/

section
variable {s : State} {l key : Nat} {ecc : Ecc} (hlost : s.remapLost l ecc = false)
include hlost

theorem State.sliceRead_uncorrectable (hfinds : s.finds l ecc = .uncorrectable) :
    s.sliceRead l key ecc = (errPoison, poisonLine, s.lineUe l key) := by
  simp [State.sliceRead, hlost, hfinds]

variable (hfinds : s.finds l ecc = .clean)
include hfinds

theorem State.sliceRead_valid (hst : (s.line l).st = 0) (htag : s.itagOk l key = true) :
    s.sliceRead l key ecc = (respOk, s.lineWords l, s) := by
  simp [State.sliceRead, hlost, hfinds, hst, htag]

theorem State.sliceRead_clean (hst : (s.line l).st = 1) : s.sliceRead l key ecc = (respOk, emptyLine, s) := by
  simp [State.sliceRead, hlost, hfinds, hst]

theorem State.sliceRead_poison (hst : 2 ≤ (s.line l).st) :
    s.sliceRead l key ecc = (errPoison, poisonLine, s.slcLog (s.sliceOf (l * 64)) 4 l key) := by
  simp [State.sliceRead, hlost, hfinds, hst]

theorem State.sliceRead_bad_tag (hst : (s.line l).st = 0) (htag : s.itagOk l key = false) :
    s.sliceRead l key ecc = (errInteg, poisonLine, s.integEvent l key) := by
  simp [State.sliceRead, hlost, hfinds, hst, htag]

/-! A partial write merges with a VALID line under its key, and with the words of a CLEAN one, 06 R220. -/

variable {new : Nat → Option Byte} {tg : Nat → Option Tag}

theorem State.slicePartial_valid (hst : (s.line l).st = 0) (htag : s.itagOk l key = true) :
    s.slicePartial l key ecc new tg = (respOk, s.storeLine l key (mergeLine (s.lineWords l) new tg)) := by
  simp [State.slicePartial, hlost, hfinds, hst, htag]

theorem State.slicePartial_clean (hst : (s.line l).st = 1) :
    s.slicePartial l key ecc new tg = (respOk, s.storeLine l key (mergeLine emptyLine new tg)) := by
  simp [State.slicePartial, hlost, hfinds, hst]

end

/-! Coherent requests of a master that keeps no copy, 11 R407. -/

section
variable {s : State} {l key : Nat} (hkey : s.keyErr l key = false)
include hkey

theorem State.cohRead_not_dirty (ecc : Ecc) (hdirty : s.dirtyLine l = none) :
    s.cohRead l key ecc = (s.takeSlots l 1).sliceRead l key ecc := by
  simp [State.cohRead, hkey, hdirty]

theorem State.cohFull_ok (ws : List TWord) (hlost : s.remapLost l .clean = false) :
    s.cohFull l key ws = (respOk, ((s.takeSlots l 1).setDir l DirEntry.none).storeLine l key ws) := by
  simp [State.cohFull, hkey, hlost]

theorem State.cohPartial_not_dirty (ecc : Ecc) (new : Nat → Option Byte) (tg : Nat → Option Tag) (hdirty : s.dirtyLine l = none) :
    s.cohPartial l key ecc new tg = ((s.takeSlots l 2).setDir l DirEntry.none).slicePartial l key ecc new tg := by
  simp [State.cohPartial, State.collect, hkey, hdirty]

end

/-! Requests at a slice with no open lock, 11 R387 and R398. -/

/-- The KEYID that a transaction carries at a slice: the service port, the key engine and the Foxglove engines carry 0, 11 R387. -/
def lineKey (x : Xact) : Nat := if x.mid.val = 24 ∨ 26 ≤ x.mid.val then 0 else x.key.toNat

theorem sliceReq_eq (x : Xact) (l : LineNo) (op : SliceOp) :
    sliceReq x l op = { mid := x.mid, pos := x.pos, id := x.id.toNat, key := lineKey x, line := l, op := op } := by
  simp only [sliceReq, lineKey, Fin.ext_iff]
  rfl

theorem State.arrive_serves {s : State} {r : SliceReq} (hplace : s.place (r.line * 64) ≠ none)
    (hlock : (s.lockUnit (s.sliceOf (r.line * 64))).held = false) (hop : r.op ≠ .lkld) : s.arrive r = s.serve r := by
  simp [State.arrive, hplace, hlock, hop]

section
variable {x : Xact} {l : LineNo} {s : State}

theorem exec_lineRead (ecc : Ecc) : exec (.lineRead x l ecc) s = execLineRead x l ecc s := rfl

theorem exec_fullLineWrite (ws : Line) : exec (.fullLineWrite x l ws) s = execFullLineWrite x l ws s := rfl

theorem exec_partialLineWrite (data : List (Fin 64 × Byte)) (tags : List (Fin 8 × Tag)) (ecc : Ecc) :
    exec (.partialLineWrite x l data tags ecc) s = execPartialLineWrite x l data tags ecc s := rfl

theorem exec_lineRead_barred (hbar : s.dramBarred x.mid x.pos l = true) :
    exec (.lineRead x l .clean) s = .next (s.reply errPerm poisonLine) := by
  simp [exec_lineRead, execLineRead, hbar]

theorem exec_fullLineWrite_barred (ws : Line) (hbar : s.dramBarred x.mid x.pos l = true) :
    exec (.fullLineWrite x l ws) s = .next (s.reply errPerm []) := by
  simp [exec_fullLineWrite, execFullLineWrite, hbar]

theorem exec_partialLineWrite_barred (data : List (Fin 64 × Byte)) (tags : List (Fin 8 × Tag)) (hbar : s.dramBarred x.mid x.pos l = true) :
    exec (.partialLineWrite x l data tags .clean) s = .next (s.reply errPerm []) := by
  simp [exec_partialLineWrite, execPartialLineWrite, hbar]


variable (hbar : s.dramBarred x.mid x.pos l = false) (hplace : s.place (l * 64) ≠ none)
  (hlock : (s.lockUnit (s.sliceOf (l * 64))).held = false) (hkey : s.keyErr l (lineKey x) = false)
include hbar hplace hlock hkey

theorem exec_lineRead_not_dirty (hdirty : s.dirtyLine l = none) {resp : Nat} {ws : List TWord} {t : State}
    (hread : (s.takeSlots l 1).sliceRead l (lineKey x) .clean = (resp, ws, t)) : exec (.lineRead x l .clean) s = .next (t.reply resp ws) := by
  have hcoh := (State.cohRead_not_dirty hkey .clean hdirty).trans hread
  simp [exec_lineRead, execLineRead, hbar, sliceReq_eq, State.arrive_serves, hplace, hlock, State.serve, hcoh]

theorem exec_fullLineWrite_stores (ws : Line) (hlost : s.remapLost l .clean = false) : exec (.fullLineWrite x l ws) s =
    .next ((((s.takeSlots l 1).setDir l DirEntry.none).storeLine l (lineKey x) ws.toList).reply respOk []) := by
  have hcoh := State.cohFull_ok hkey ws.toList hlost
  simp [exec_fullLineWrite, execFullLineWrite, hbar, sliceReq_eq, State.arrive_serves, hplace, hlock, State.serve, hcoh]

variable {data : List (Fin 64 × Byte)} {tags : List (Fin 8 × Tag)}

theorem exec_partialLineWrite_covering (hlost : s.remapLost l .clean = false)
    (hcovers : coversLine (data.map fun p => (p.1.val, p.2)) (tags.map fun p => (p.1.val, p.2)) = true) :
    exec (.partialLineWrite x l data tags .clean) s = .next ((((s.takeSlots l 1).setDir l DirEntry.none).storeLine l (lineKey x)
      (mergeLine emptyLine (assoc (data.map fun p => (p.1.val, p.2))) (assoc (tags.map fun p => (p.1.val, p.2))))).reply respOk []) := by
  have hcoh := fun ws => State.cohFull_ok hkey ws hlost
  simp [exec_partialLineWrite, execPartialLineWrite, hbar, hcovers, sliceReq_eq, State.arrive_serves, hplace, hlock, State.serve, hcoh]

theorem exec_partialLineWrite_not_dirty (hdirty : s.dirtyLine l = none)
    (hcovers : coversLine (data.map fun p => (p.1.val, p.2)) (tags.map fun p => (p.1.val, p.2)) = false) {resp : Nat} {t : State}
    (hpart : ((s.takeSlots l 2).setDir l DirEntry.none).slicePartial l (lineKey x) .clean (assoc (data.map fun p => (p.1.val, p.2)))
      (assoc (tags.map fun p => (p.1.val, p.2))) = (resp, t)) :
    exec (.partialLineWrite x l data tags .clean) s = .next (t.reply resp []) := by
  have hcoh := (State.cohPartial_not_dirty hkey .clean _ _ hdirty).trans hpart
  simp [exec_partialLineWrite, execPartialLineWrite, hbar, hcovers, sliceReq_eq, State.arrive_serves, hplace, hlock, State.serve, hcoh]

end

/-- Settles O24: a barred master is refused; any other request is served at once, by the state in which the slice finds the line. -/
theorem lineReadsAndWrites : Obligations.LineReadsAndWrites := by
  intro x l ws data tags s p key new tg
  refine ⟨fun hbar => ⟨exec_lineRead_barred hbar, exec_fullLineWrite_barred ws hbar, exec_partialLineWrite_barred data tags hbar⟩,
    fun hbar hplace hlock hkey hlost => ⟨?_, ?_, ?_, ?_⟩⟩
  · rintro rfl hdirty hfinds
    refine ⟨fun hst htag => ?_, fun hst => ?_, fun hst => ?_, fun hst htag => ?_⟩
    · rw [← s.lineWords_takeSlots l 1]
      exact exec_lineRead_not_dirty hbar hplace hlock hkey hdirty (State.sliceRead_valid (by simpa) (by simpa) (by simpa) (by simpa))
    · exact exec_lineRead_not_dirty hbar hplace hlock hkey hdirty (State.sliceRead_clean (by simpa) (by simpa) (by simpa))
    · exact exec_lineRead_not_dirty hbar hplace hlock hkey hdirty (State.sliceRead_poison (by simpa) (by simpa) (by simpa))
    · exact exec_lineRead_not_dirty hbar hplace hlock hkey hdirty (State.sliceRead_bad_tag (by simpa) (by simpa) (by simpa) (by simpa))
  · rintro rfl hdirty hfinds
    exact exec_lineRead_not_dirty hbar hplace hlock hkey hdirty (State.sliceRead_uncorrectable (by simpa) (by simpa))
  · rintro rfl
    exact exec_fullLineWrite_stores hbar hplace hlock hkey ws hlost
  · rintro rfl hdirty hfinds hcovers
    refine ⟨fun hst htag => ?_, fun hst => ?_⟩
    · rw [← s.lineWords_takeSlots l 2]
      exact exec_partialLineWrite_not_dirty hbar hplace hlock hkey hdirty hcovers
        (State.slicePartial_valid (by simpa) (by simpa) (by simpa) (by simpa))
    · exact exec_partialLineWrite_not_dirty hbar hplace hlock hkey hdirty hcovers (State.slicePartial_clean (by simpa) (by simpa) (by simpa))

end Sys2Proof.Machine

/-! PROOFS. What a write of a DRAM line leaves of storage, and what a read then finds (06 R206, R217 to R220). -/
namespace Sys2Proof.Machine

/-! Words and their bytes. -/

/-- Eight bytes are the bytes of their word. -/
theorem bytesOf_wordOf (bs : List Byte) (h : bs.length = 8) : bytesOf (wordOf bs) = bs := by
  match bs with
  | [a, b, c, d, e, f, g, i] =>
    have ha := a.isLt
    have hb := b.isLt
    have hc := c.isLt
    have hd := d.isLt
    have he := e.isLt
    have hf := f.isLt
    have hg := g.isLt
    have hi := i.isLt
    simp only [bytesOf, wordOf, ofLeBytes, List.map, List.foldr, List.range, List.range.loop, List.cons.injEq, and_true]
    refine ⟨?_, ?_, ?_, ?_, ?_, ?_, ?_, ?_⟩ <;>
      (apply BitVec.eq_of_toNat_eq; simp only [BitVec.extractLsb'_toNat, BitVec.toNat_ofNat, Nat.shiftRight_eq_div_pow]; omega)

/-- Byte `k` of the words of a line. -/
def lineByte (ws : List TWord) (k : Nat) : Byte := (bytesOf (ws.getD (k / 8) ⟨tagEmpty, 0⟩).val).getD (k % 8) 0

theorem Mem.lineByte_cellWords (m : Mem) (c k : Nat) (hk : k < 64) : lineByte (m.cellWords c) k = m.byte (c * 64 + k) := by
  have hw : k / 8 < 8 := by omega
  have hi : k % 8 < 8 := by omega
  have hword : (m.cellWords c).getD (k / 8) ⟨tagEmpty, 0⟩ = m.word (c * 64 + 8 * (k / 8)) := by simp [Mem.cellWords, hw]
  rw [lineByte, hword, Mem.word, bytesOf_wordOf _ (by simp [Mem.bytesAt])]
  simp [Mem.bytesAt, hi, show c * 64 + 8 * (k / 8) + k % 8 = c * 64 + k by omega]

@[simp] theorem mergeLine_length (ws : List TWord) (new : Nat → Option Byte) (tg : Nat → Option Tag) : (mergeLine ws new tg).length = 8 := by
  simp [mergeLine]

/-- A merge keeps the bytes that it is not given, 06 R220. -/
theorem lineByte_mergeLine_none (ws : List TWord) {new : Nat → Option Byte} (tg : Nat → Option Tag) {k : Nat} (hk : k < 64) (hnew : new k = none) :
    lineByte (mergeLine ws new tg) k = lineByte ws k := by
  have hw : k / 8 < 8 := by omega
  have hi : k % 8 < 8 := by omega
  have hnew' : new (8 * (k / 8) + k % 8) = none := by rwa [Nat.div_add_mod]
  simp only [lineByte, mergeLine, List.getD_eq_getElem?_getD, List.getElem?_map, List.getElem?_range hw, Option.map_some, Option.getD_some]
  rw [bytesOf_wordOf _ (by simp)]
  simp [hi, hnew']

theorem assoc_eq_none {β : Type} {n : Nat} (data : List (Fin n × β)) (k : Fin n) (h : ∀ p ∈ data, p.1 ≠ k) :
    assoc (data.map fun p => (p.1.val, p.2)) k = none := by
  simpa [assoc, Fin.ext_iff] using h

/-- A write that covers the line names each of its bytes, 06 R219. -/
theorem assoc_isSome_of_coversLine {data : List (Nat × Byte)} {tags : List (Nat × Tag)} (h : coversLine data tags = true) {k : Nat} (hk : k < 64) :
    (assoc data k).isSome = true := by
  simp only [coversLine, Bool.and_eq_true, List.all_eq_true, List.mem_range] at h
  exact h.1 k hk

/-! Storage outside a line that is written. -/

theorem Mem.byte_putCell_ne (m : Mem) (c a : Nat) (ws : List TWord) (x : LineMeta) (hws : ws.length = 8) (h : a < c * 64 ∨ c * 64 + 64 ≤ a) :
    (m.putCell c ws x).byte a = m.byte a :=
  m.byte_setWords_ne (c * 64) a ws (by omega)

theorem Mem.tag_putCell_ne (m : Mem) (c k : Nat) (ws : List TWord) (x : LineMeta) (hws : ws.length = 8) (h : k < c * 8 ∨ c * 8 + 8 ≤ k) :
    (m.putCell c ws x).tag k = m.tag k :=
  m.tag_setWords_ne (c * 64) k ws (by omega)

/-- From `s` to `t` nothing of storage outside place `c` changes, nor the places of lines, the engines and the queue. -/
def SameOutside (s t : State) (c : Nat) : Prop :=
  (∀ m, t.cell m = s.cell m) ∧ (∀ a, (a < c * 64 ∨ c * 64 + 64 ≤ a) → t.mem.byte a = s.mem.byte a) ∧
  (∀ k, (k < c * 8 ∨ c * 8 + 8 ≤ k) → t.mem.tag k = s.mem.tag k) ∧ (∀ m, m ≠ c → t.mem.side m = s.mem.side m) ∧
  (∀ m, s.cell m ≠ c → t.lineWords m = s.lineWords m) ∧ t.eng = s.eng ∧ t.pending = s.pending

theorem sameOutside_reply (s : State) (resp : Nat) (ws : List TWord) (c : Nat) : SameOutside s (s.reply resp ws) c :=
  ⟨fun _ => rfl, fun _ _ => rfl, fun _ _ => rfl, fun _ _ => rfl, fun _ _ => rfl, rfl, rfl⟩

/-! A write of words changes bytes and tags, and a write of a line its sideband and its code with them. -/

theorem Mem.setBytes_eq (m : Mem) (a : Nat) (bs : List Byte) : ∃ x, m.setBytes a bs = { m with bytes := x } := by
  induction bs generalizing m a with
  | nil => exact ⟨m.bytes, rfl⟩
  | cons b rest ih =>
    obtain ⟨x, hx⟩ := ih (m.setByte a b) (a + 1)
    exact ⟨x, hx⟩

theorem Mem.setWords_eq (m : Mem) (a : Nat) (ws : List TWord) : ∃ x y, m.setWords a ws = { m with bytes := x, tags := y } := by
  induction ws generalizing m a with
  | nil => exact ⟨m.bytes, m.tags, rfl⟩
  | cons w rest ih =>
    obtain ⟨b, hb⟩ := m.setBytes_eq a (bytesOf w.val)
    obtain ⟨x, y, hxy⟩ := ih (m.setWord a w) (a + 8)
    exact ⟨x, y, hxy.trans (by rw [Mem.setWord, hb]; rfl)⟩

theorem Mem.putCell_eq (m : Mem) (c : Nat) (ws : List TWord) (x : LineMeta) :
    ∃ b t f y, m.putCell c ws x = { m with bytes := b, tags := t, flaws := f, lines := y } := by
  obtain ⟨b, t, h⟩ := m.setWords_eq (c * 64) ws
  exact ⟨b, t, _, _, by rw [Mem.putCell, h]; rfl⟩

/-- `s` after a write of line `l` that took `n` command slots and left the words `ws` there, 06 R219 and 11 R407. -/
def State.written (s : State) (l n key : Nat) (ws : List TWord) : State :=
  (((s.takeSlots l n).setDir l DirEntry.none).storeLine l key ws).reply respOk []

section
variable (s : State) (l n key : Nat) (ws : List TWord)

/-- Beside the storage of the line and its directory entry, a write takes command slots and is answered. -/
theorem State.written_eq : ∃ b t f y x, s.written l n key ws = { s.setDir l DirEntry.none with
    mem := { (s.setDir l DirEntry.none).mem with bytes := b, tags := t, flaws := f, lines := y, slots := x }, answer := ⟨respOk, []⟩ } := by
  obtain ⟨x, hx⟩ := s.takeSlots_eq l n
  obtain ⟨b, t, f, y, hm⟩ := ((s.takeSlots l n).setDir l DirEntry.none).mem.putCell_eq (s.cell l) ws ⟨0, 0, key, s.keyGen key, l⟩
  refine ⟨b, t, f, y, x, ?_⟩
  rw [hx] at hm
  rw [State.written, hx]
  simp only [State.storeLine, State.reply]
  exact congrArg (fun m : Mem => ({ s with mem := m, answer := ⟨respOk, []⟩ } : State)) hm

@[simp] theorem State.dramBarred_written (mid pos a : Nat) : (s.written l n key ws).dramBarred mid pos a = s.dramBarred mid pos a := by
  obtain ⟨b, t, f, y, x, h⟩ := s.written_eq l n key ws
  rw [h]; rfl

@[simp] theorem State.place_written (a : Nat) : (s.written l n key ws).place a = s.place a := by
  obtain ⟨b, t, f, y, x, h⟩ := s.written_eq l n key ws
  rw [h]; rfl

@[simp] theorem State.sliceOf_written (a : Nat) : (s.written l n key ws).sliceOf a = s.sliceOf a := by
  obtain ⟨b, t, f, y, x, h⟩ := s.written_eq l n key ws
  rw [h]; rfl

@[simp] theorem State.lockUnit_written (sl : Nat) : (s.written l n key ws).lockUnit sl = s.lockUnit sl := by
  obtain ⟨b, t, f, y, x, h⟩ := s.written_eq l n key ws
  rw [h]; rfl

@[simp] theorem State.remapLost_written (a : Nat) (ecc : Ecc) : (s.written l n key ws).remapLost a ecc = s.remapLost a ecc := by
  obtain ⟨b, t, f, y, x, h⟩ := s.written_eq l n key ws
  rw [h]; rfl

@[simp] theorem State.cell_written (a : Nat) : (s.written l n key ws).cell a = s.cell a := by
  obtain ⟨b, t, f, y, x, h⟩ := s.written_eq l n key ws
  rw [h]; rfl

@[simp] theorem State.keyGen_written (k : Nat) : (s.written l n key ws).keyGen k = s.keyGen k := by
  obtain ⟨b, t, f, y, x, h⟩ := s.written_eq l n key ws
  rw [h]; rfl

/-- No master holds a copy of a line that was just written, 11 R407. -/
@[simp] theorem State.dirEntry_written : (s.written l n key ws).dirEntry l = DirEntry.none := by
  obtain ⟨b, t, f, y, x, h⟩ := s.written_eq l n key ws
  rw [h]
  exact sget_sset_same (fun _ => DirEntry.none) s.mem.dir l DirEntry.none

@[simp] theorem State.keyErr_written (k : Nat) : (s.written l n key ws).keyErr l k = false := by
  simp [State.keyErr, DirEntry.none]

@[simp] theorem State.dirtyLine_written : (s.written l n key ws).dirtyLine l = none := by
  simp [State.dirtyLine, DirEntry.none]

/-! What the slice finds where the line was written. -/

@[simp] theorem State.line_written : (s.written l n key ws).line l = ⟨0, 0, key, s.keyGen key, l⟩ := by
  obtain ⟨x, hx⟩ := s.takeSlots_eq l n
  rw [State.written, hx]
  exact (Mem.side_putCell _ _ _ ws _).trans (if_pos rfl)

@[simp] theorem State.finds_written : (s.written l n key ws).finds l .clean = .clean := by
  obtain ⟨x, hx⟩ := s.takeSlots_eq l n
  rw [State.written, hx]
  exact congrArg (worse .clean) ((Mem.flaw_putCell _ _ _ ws _).trans (if_pos rfl))

@[simp] theorem State.itagOk_written : (s.written l n key ws).itagOk l key = true := by simp [State.itagOk]

variable {ws} (hws : ws.length = 8)
include hws

theorem State.lineWords_written : (s.written l n key ws).lineWords l = ws := by
  obtain ⟨x, hx⟩ := s.takeSlots_eq l n
  rw [State.written, hx]
  exact (Mem.cellWords_putCell _ _ _ ws _ hws).trans (if_pos rfl)

theorem State.sameOutside_written : SameOutside s (s.written l n key ws) (s.cell l) := by
  obtain ⟨x, hx⟩ := s.takeSlots_eq l n
  rw [State.written, hx]
  exact ⟨fun _ => rfl, fun a => Mem.byte_putCell_ne _ _ a ws _ hws, fun k => Mem.tag_putCell_ne _ _ k ws _ hws,
    fun m hm => (Mem.side_putCell _ _ m ws _).trans (if_neg hm), fun m hm => (Mem.cellWords_putCell _ _ _ ws _ hws).trans (if_neg hm), rfl, rfl⟩

omit hws

/-- A byte of the line that a merge is not given. -/
theorem State.byte_written_mergeLine {new : Nat → Option Byte} (tg : Nat → Option Tag) {k : Nat} (hk : k < 64) (hnew : new k = none) :
    (s.written l n key (mergeLine (s.lineWords l) new tg)).mem.byte (s.cell l * 64 + k) = s.mem.byte (s.cell l * 64 + k) := by
  have hwords := s.lineWords_written l n key (mergeLine_length (s.lineWords l) new tg)
  rw [State.lineWords, State.cell_written] at hwords
  rw [← Mem.lineByte_cellWords _ _ _ hk, hwords, lineByte_mergeLine_none _ _ hk hnew, State.lineWords, Mem.lineByte_cellWords _ _ _ hk]

end

/-- A read under the key of the write answers the words written, 06 R218. -/
theorem exec_lineRead_written {y : Xact} {l : LineNo} {s : State} (n : Nat) {ws : List TWord} (hws : ws.length = 8)
    (hbar : s.dramBarred y.mid y.pos l = false) (hplace : s.place (l * 64) ≠ none)
    (hlock : (s.lockUnit (s.sliceOf (l * 64))).held = false) (hlost : s.remapLost l .clean = false) :
    exec (.lineRead y l .clean) (s.written l n (lineKey y) ws) = .next (((s.written l n (lineKey y) ws).takeSlots l 1).reply respOk ws) := by
  refine exec_lineRead_not_dirty (by simpa) (by simpa) (by simpa) (by simp) (by simp) ?_
  rw [State.sliceRead_valid (by simpa) (by simp) (by simp) (by simp), State.lineWords_takeSlots, State.lineWords_written _ _ _ _ hws]

/-- Settles O25: the slice finds the line as the full-line write left it. -/
theorem readAfterFullLineWrite : Obligations.ReadAfterFullLineWrite := by
  intro x y l ws s key hplace hlock hkey hlost hkeys hbarx hbary
  have hread := exec_lineRead_written 1 ws.size_toArray hbary hplace hlock hlost
  rw [show lineKey y = lineKey x from hkeys] at hread
  exact ⟨_, _, exec_fullLineWrite_stores hbarx hplace hlock hkey ws hlost, rfl, hread, rfl, rfl⟩

/-- Settles O57: every write that is performed leaves storage as `State.written` does. -/
theorem lineWritesFrame : Obligations.LineWritesFrame := by
  intro x l ws data tags s t key c hplace hlock hkey outside
  refine ⟨fun hlost hexec => ?_, fun hdirty hlost hfinds hst htag hexec => ?_⟩
  · cases hbar : s.dramBarred x.mid x.pos l with
    | true =>
      cases (exec_fullLineWrite_barred ws hbar).symm.trans hexec
      exact sameOutside_reply s _ _ c
    | false =>
      cases (exec_fullLineWrite_stores hbar hplace hlock hkey ws hlost).symm.trans hexec
      exact s.sameOutside_written l 1 key (by simp)
  · cases hbar : s.dramBarred x.mid x.pos l with
    | true =>
      cases (exec_partialLineWrite_barred data tags hbar).symm.trans hexec
      exact ⟨sameOutside_reply s _ _ c, fun _ _ => rfl⟩
    | false =>
      cases hcovers : coversLine (data.map fun p => (p.1.val, p.2)) (tags.map fun p => (p.1.val, p.2)) with
      | true =>
        cases (exec_partialLineWrite_covering hbar hplace hlock hkey hlost hcovers).symm.trans hexec
        refine ⟨s.sameOutside_written l 1 key (by simp), fun k hk => ?_⟩
        have hnamed := assoc_isSome_of_coversLine hcovers k.isLt
        rw [assoc_eq_none data k hk] at hnamed
        cases hnamed
      | false =>
        have hpart := exec_partialLineWrite_not_dirty hbar hplace hlock hkey hdirty hcovers
          (State.slicePartial_valid (by simpa) (by simpa) (by simpa) (by simpa))
        rw [State.lineWords_setDir, State.lineWords_takeSlots] at hpart
        cases hpart.symm.trans hexec
        refine ⟨s.sameOutside_written l 2 key (by simp), fun k hk => ?_⟩
        exact s.byte_written_mergeLine l 2 key _ k.isLt (assoc_eq_none data k hk)

end Sys2Proof.Machine

/-! PROOFS. Scrubbing, sanitising and retirement (06 R223 to R231). -/
namespace Sys2Proof.Machine
open Reg

/-! Scrubbing, 06 R224: what the check of the line at the scrub pointer finds. -/

section
variable (s : State) (p l : Nat)

theorem State.scrubLine_clean (h : s.mem.flaw (cellLine p l) = .clean) : s.scrubLine p l .clean = s := by simp [State.scrubLine, h]

theorem State.scrubLine_corrected (h : s.mem.flaw (cellLine p l) ≠ .uncorrectable) :
    s.scrubLine p l .corrected = { s.pcCe p with mem := (s.pcCe p).mem.setFlaw (cellLine p l) .clean } := by
  simp [State.scrubLine, h]

theorem State.scrubLine_uncorrectable {a : Nat} (h : s.paOfCell p l = some a) :
    s.scrubLine p l .uncorrectable = s.cellUe (p / 8) (cellLine p l) (a / 64) (s.mem.side (cellLine p l)).keyid := by
  simp [State.scrubLine, h]

theorem exec_scrubSlot (p : Fin 256) (f : ScrubFind) :
    exec (.scrubSlot p f) s = .next ((s.scrubLine p (sget (fun _ => 0) s.mem.scrub p) f).scrubStep p) := rfl

end

/-! Sanitising, 06 R223. -/

section
variable {s : State} {sl : Fin 32} {region : Fin 256}

theorem exec_sanitise : exec (.sanitise sl region) s = execSanitise sl region s := rfl

theorem exec_sanitiseDone : exec (.sanitiseDone sl) s = execSanitiseDone sl s := rfl

theorem exec_sanitise_starts {r : Region} (hregion : s.sliceRegion sl region = some r) (hidle : s.flag (SLC_STAT sl) SLC_STAT_SANIT_BUSY = false) :
    exec (.sanitise sl region) s =
      .next (((({ s with mem := { s.mem with sanitPos := s.mem.sanitPos.filter fun x => x.1 / 8 != sl.val } } : State).wr (SLC_SANIT sl) SLC_SANIT_REGION
        region).wr (SLC_STAT sl) SLC_STAT_SANIT_BUSY 1).reply respOk []) := by
  simp [exec_sanitise, execSanitise, State.sanit, hregion, hidle]

theorem exec_sanitise_refused (h : s.flag (SLC_STAT sl) SLC_STAT_SANIT_BUSY = true ∨ s.sliceRegion sl region = none) :
    exec (.sanitise sl region) s = .next (s.reply errTarget []) := by
  simp [exec_sanitise, execSanitise, State.sanit, h.symm]

theorem exec_sanitiseDone_busy (hbusy : s.flag (SLC_STAT sl) SLC_STAT_SANIT_BUSY = true) : exec (.sanitiseDone sl) s =
    .next (((eachDo (List.range 8) (fun n t => t.sanitLines sl (8 * sl.val + n) pcLines) s).wr (SLC_STAT sl) SLC_STAT_SANIT_BUSY 0).slcEvent sl
      SLC_ERR_SANIT_DONE sevNotice 0) := by
  simp only [exec_sanitiseDone, execSanitiseDone, hbusy, if_true]

end

/-! Retirement, test and reinstatement of a pseudo-channel, 06 R225 to R230. -/

section
variable {s : State} {p : Nat}

theorem State.meetsLimit_retires (h : s.pcState p = 0 ∨ s.pcState p = 7 ∧ s.stackHolds p = false) : s.meetsLimit p = s.retirePc p := by
  simp [State.meetsLimit, h]

theorem State.pcCmd_retire (h : s.pcState p = 0 ∨ s.pcState p = 7) : s.pcCmd .steward p 1 = (s.retirePc p).reply respOk [] := by
  simp [State.pcCmd, h]

theorem State.pcCmd_test (h : s.pcState p = 2) : s.pcCmd .steward p 2 = ((s.setPcState p 3).rewriteRemap p).reply respOk [] := by
  simp [State.pcCmd, h]

theorem State.pcCmd_reinstate (h : s.pcState p = 4) : s.pcCmd .steward p 3 = ((s.setPcState p 6).startMig p 1).reply respOk [] := by
  simp [State.pcCmd, h]

theorem State.pcCmd_not_steward {q : Requester} (op : Nat) (h : q ≠ .steward) : s.pcCmd q p op = s.reply errPerm [] := by
  simp [State.pcCmd, h]

theorem exec_pcTestDone (p : Fin 256) (good : Bool) : exec (.pcTestDone p good) s = execPcTestDone p good s := rfl

theorem exec_pcTestDone_of_test {p : Fin 256} (good : Bool) (h : s.pcState p = 3) :
    exec (.pcTestDone p good) s = .next (s.setPcState p (if good then 4 else 5)) := by
  simp [exec_pcTestDone, execPcTestDone, h]

end

/-! The end of a migration, 06 R228 and R230. -/

/-- The lines from the migration pointer of slice `sl` on, among those listed, that lie on pseudo-channel `p`. -/
def State.lostLines (s : State) (sl p : Nat) (lost : List LineNo) : List Nat :=
  lost.filterMap fun l => match s.place (l.val * 64) with
    | some h => if h.1 = p ∧ s.rd (SLC_MIGPOS sl) SLC_MIGPOS_LINE ≤ h.2 then some h.2 else none
    | none => none

/-- `s` with the rest of the lines of pseudo-channel `p` copied, and the migration of slice `sl` ended. -/
def State.migrated (s : State) (sl p : Nat) (lost : List LineNo) : State :=
  (eachDo (s.lostLines sl p lost) (fun l t => t.copyLine p l true) (s.migrateTo sl spareBase)).wr (SLC_STAT sl) SLC_STAT_MIG_ACTIVE 0

theorem exec_migrationDone (sl : Fin 32) (lost : List LineNo) (s : State) : exec (.migrationDone sl lost) s = execMigrationDone sl lost s := rfl

section
variable {s : State} {sl : Fin 32} (lost : List LineNo) (hactive : s.flag (SLC_STAT sl) SLC_STAT_MIG_ACTIVE = true)
  {n : Nat} (hn : n = s.rd (SLC_STAT sl) SLC_STAT_MIG_PC)
include hactive hn

theorem exec_migrationDone_out (h : s.pcState (sl.val * 8 + n) = 1) : exec (.migrationDone sl lost) s =
    .next ((((s.migrated sl (sl.val * 8 + n) lost).setPcState (sl.val * 8 + n) 2).wr (SLC_STAT sl) ⟨n, 1, .ro, 0⟩ 1).slcEvent sl
      SLC_ERR_MIG_DONE sevNotice 0) := by
  subst hn
  simp only [exec_migrationDone, execMigrationDone, hactive, h, if_true]
  rfl

theorem exec_migrationDone_back (h : s.pcState (sl.val * 8 + n) ≠ 1) : exec (.migrationDone sl lost) s =
    .next (((((s.migrated sl (sl.val * 8 + n) lost).setPcState (sl.val * 8 + n) 0).wr (SLC_STAT sl) ⟨n, 1, .ro, 0⟩ 0).setRemap
      (sl.val * 8 + n) false).slcEvent sl SLC_ERR_MIG_DONE sevNotice 0) := by
  subst hn
  simp only [exec_migrationDone, execMigrationDone, hactive, h, if_true, if_false]
  rfl

end

/-- Settles O27: a scrub by what its check finds, a sanitise by its region and the slice, the commands of a pseudo-channel by its state. -/
theorem memoryMaintenance : Obligations.MemoryMaintenance := by
  intro p sl region good r lost s k c
  refine ⟨fun h => ?_, fun t ht h => ?_, fun a ha => ?_, fun hr hidle t ht => ?_, exec_sanitise_refused, fun t hbusy ht => ?_,
    fun h => ?_, fun h => ?_, fun h => ?_, fun h => ?_, fun q hq => ⟨?_, ?_, ?_⟩, exec_pcTestDone_of_test good,
    fun n t hactive hn ht => ⟨fun h => ?_, fun h => ?_⟩⟩
  · rw [exec_scrubSlot, s.scrubLine_clean _ _ h]
  · rw [exec_scrubSlot, s.scrubLine_corrected _ _ h, ht]
    rfl
  · rw [exec_scrubSlot, s.scrubLine_uncorrectable _ _ ha]
    rfl
  · exact ht ▸ exec_sanitise_starts hr hidle
  · exact ht ▸ exec_sanitiseDone_busy hbusy
  · exact congrArg Host.Outcome.next (State.meetsLimit_retires h)
  · exact congrArg Host.Outcome.next (State.pcCmd_retire h)
  · exact congrArg Host.Outcome.next (State.pcCmd_test h)
  · exact congrArg Host.Outcome.next (State.pcCmd_reinstate h)
  · exact congrArg Host.Outcome.next (State.pcCmd_not_steward 1 hq)
  · exact congrArg Host.Outcome.next (State.pcCmd_not_steward 2 hq)
  · exact congrArg Host.Outcome.next (State.pcCmd_not_steward 3 hq)
  · exact ht ▸ exec_migrationDone_out lost hactive hn h
  · exact ht ▸ exec_migrationDone_back lost hactive hn h

end Sys2Proof.Machine

/-! PROOFS. The cluster port of a local vector store and Foxglove's test of it (06 R234 to R243). -/
namespace Sys2Proof.Machine
open Reg

/-! Reads of sound words, 06 R235. -/

/-- Each step of a loop leaves the state, so the loop does. -/
theorem eachDo_of_fixed {β : Type} {f : β → State → State} {s : State} {xs : List β} (h : ∀ x ∈ xs, f x s = s) : eachDo xs f s = s := by
  induction xs with
  | nil => rfl
  | cons x rest ih =>
    show eachDo rest f (f x s) = s
    rw [h x (by simp), ih fun y hy => h y (by simp [hy])]

theorem State.lvsCheck_clean {s : State} {e o : Nat} (h : s.lvsFlaw e o = .clean) : s.lvsCheck e o = s := by
  simp [State.lvsCheck, h]

/-- A line whose eight words are sound is read as it stands. -/
theorem State.lvsRead_clean {s : State} {e line : Nat} (h : ∀ i < 8, s.lvsFlaw e (line * 64 + 8 * i) = .clean) :
    s.lvsRead e line = (respOk, (List.range 8).map (fun i => s.lvsWord e (line * 64 + 8 * i)), s) := by
  have hcheck : eachDo (List.range 8) (fun i t => t.lvsCheck e (line * 64 + 8 * i)) s = s :=
    eachDo_of_fixed fun i hi => State.lvsCheck_clean (h i (List.mem_range.mp hi))
  have hbad : s.lvsBad e line (List.range 8) = false := by
    simp only [State.lvsBad, List.any_eq_false, List.mem_range]
    intro i hi
    simp [h i hi]
  simp only [State.lvsRead, State.lvsFetch, hcheck, hbad, Bool.not_false, if_true]

/-! The cluster port, 06 R234 to R238. -/

section
variable {s : State} {mid pos e line w : Nat} {data : List (Nat × Byte)} {tags : List (Nat × Tag)}

theorem State.lvsAccess_idle_read {t : State} (ht : t = (s.setBusy (busyKey mid pos e (line * 8 + w)) 0).lvsFinds e (line * 64 + 8 * w) .clean)
    (hclean : ∀ i < 8, t.lvsFlaw e (line * 64 + 8 * i) = .clean) : s.lvsAccess mid pos e line false data tags .idle w .clean =
      t.reply respOk ((List.range 8).map fun i => t.lvsWord e (line * 64 + 8 * i)) := by
  simp only [State.lvsAccess, Bool.false_eq_true, if_false, ← ht, State.lvsRead_clean hclean]

/-- A write that merges with none of what the word it meets holds takes nothing from the check of that word. -/
theorem State.lvsAccess_idle_write (hw : w ∉ mergedWords data tags) {r : Nat × State}
    (hr : r = (s.setBusy (busyKey mid pos e (line * 8 + w)) 0).lvsWrite e line data tags) :
    s.lvsAccess mid pos e line true data tags .idle w .clean = r.2.reply r.1 [] := by
  simp only [State.lvsAccess, List.contains_iff_mem, hw, if_true, if_false, ← hr]

/-- A write that meets an engine write is refused until its requester has been refused eight times, 06 R237. -/
theorem State.lvsAccess_busy_write {k : Nat} (hk : k = busyKey mid pos e (line * 8 + w)) (hrun : s.busyRun k < 8) :
    s.lvsAccess mid pos e line true data tags .writes w .clean =
      (((s.setBusy k (s.busyRun k + 1)).count (LVS_BUSY e) LVS_BUSY_CLU 1).lvsConflict e 4).reply errBusy [] := by
  simp only [State.lvsAccess, ← hk, ge_iff_le, not_le.mpr hrun, if_true, if_false]

end

section
variable (s : State) {x : Xact} {e : EngId} (line : Fin 16384) (write : Bool) (data : List (Fin 64 × Byte)) (tags : List (Fin 8 × Tag))
  (port : PortUse) (w : Fin 8)

theorem exec_lvsClusterAccess (ecc : Ecc) :
    exec (.lvsClusterAccess x e line write data tags port w ecc) s = execLvsClusterAccess x e line write data tags port w ecc s := rfl

/-- A requester that is no Foxglove engine reaches every cluster port, 11 R387. -/
theorem exec_lvsClusterAccess_of_lt (h : x.mid.val < 27) : exec (.lvsClusterAccess x e line write data tags port w .clean) s =
    .next (s.lvsAccess x.mid x.pos e line write (data.map fun p => (p.1.val, p.2)) (tags.map fun p => (p.1.val, p.2)) port w .clean) := by
  simp [exec_lvsClusterAccess, execLvsClusterAccess, Nat.not_le.mpr h]

/-- A Foxglove engine reaches only the stores of its cluster, 11 R387. -/
theorem exec_lvsClusterAccess_other_cluster (h : 27 ≤ x.mid.val) (hcluster : x.mid.val - 27 ≠ clusterOf e) :
    exec (.lvsClusterAccess x e line write data tags port w .clean) s = .next (s.reply errPerm []) := by
  simp [exec_lvsClusterAccess, execLvsClusterAccess, h, hcluster]

end

/-! The steps of the background test, 06 R240 to R243. -/

section
variable {s : State} {e : EngId}

theorem exec_foxMarch (m : March) : exec (.foxMarch e m) s = execFoxMarch e m s := rfl

theorem exec_foxWaitEnd : exec (.foxWaitEnd e) s = execFoxWaitEnd e s := rfl

theorem exec_foxSave_begins (hen : s.flag (FOX_CTRL e) FOX_CTRL_EN = true) (hphase : s.foxPhase e = 0)
    (hleft : s.flag (FOX_STAT e) FOX_STAT_EXHAUSTED = false) {t : State} (ht : t = s.foxCopy e (s.foxRegion e) saveRegion) :
    exec (.foxSave e) s =
      .next (({ t with mem := { t.mem with foxSince := sset (fun _ => 0) t.mem.foxSince e s.gav.mono } } : State).setFoxPhase e 1) := by
  rw [ht]
  exact congrArg Host.Outcome.next (if_pos ⟨hen, hphase, by rw [hleft]; rfl⟩)

theorem exec_foxMarch_pass (h : s.foxPhase e = 1) : exec (.foxMarch e .pass) s =
    .next (((s.setFoxPhase e 2).count (FOX_FAILS e) FOX_FAILS_COUNT 0).setMarch e (some 0)) := by
  simp [exec_foxMarch, execFoxMarch, h]

theorem exec_foxMarch_failOnce (h : s.foxPhase e = 1) : exec (.foxMarch e .failOnce) s =
    .next (((s.setFoxPhase e 2).count (FOX_FAILS e) FOX_FAILS_COUNT 1).setMarch e (some 1)) := by
  simp [exec_foxMarch, execFoxMarch, h]

theorem State.foxRestore_of_march (h : s.foxPhase e = 2) : s.foxRestore e = (s.foxBegin e).foxEnd e := by simp [State.foxRestore, h]

theorem State.foxRestore_of_restore (h : s.foxPhase e = 3) : s.foxRestore e = s.foxEnd e := by simp [State.foxRestore, h]

section
variable (hphase : s.foxPhase e = 4) {t : State}
  (ht : t = (s.passTo (sget (fun _ => 0) s.mem.foxSince e + 1000 * s.rd (FOX_CTRL e) FOX_CTRL_PACE)).setFoxPhase e 0)
include hphase ht

theorem exec_foxWaitEnd_next (h : s.foxRegion e + 1 < 4128) :
    exec (.foxWaitEnd e) s = .next (t.wr (FOX_STAT e) FOX_STAT_REGION (s.foxRegion e + 1)) := by
  simp only [exec_foxWaitEnd, execFoxWaitEnd, hphase, h, if_true, ht]

theorem exec_foxWaitEnd_last (h : 4128 ≤ s.foxRegion e + 1) :
    exec (.foxWaitEnd e) s = .next ((t.wr (FOX_STAT e) FOX_STAT_REGION 0).count (FOX_STAT e) FOX_STAT_PASSES 1) := by
  simp only [exec_foxWaitEnd, execFoxWaitEnd, hphase, not_lt.mpr h, if_true, if_false, ht]

end
end

/-- Settles O28: the port by what the engine port does in the same cycle, the test by its phase. -/
theorem localStorePortAndTest : Obligations.LocalStorePortAndTest := by
  intro x e line data tags w s k base ds ts
  refine ⟨fun t hmid ht hclean => ?_, fun r hmid hw hr => ?_, exec_lvsClusterAccess_other_cluster s line false data tags .idle w,
    fun hmid hrun => ?_, fun t hen hphase hleft ht => exec_foxSave_begins hen hphase hleft ht,
    fun h => ⟨exec_foxMarch_pass h, exec_foxMarch_failOnce h⟩, fun h => congrArg Host.Outcome.next (State.foxRestore_of_march h),
    fun h => congrArg Host.Outcome.next (State.foxRestore_of_restore h),
    fun t hphase ht => ⟨exec_foxWaitEnd_next hphase ht, exec_foxWaitEnd_last hphase ht⟩⟩
  · rw [exec_lvsClusterAccess_of_lt s _ _ _ _ _ _ hmid, State.lvsAccess_idle_read ht hclean]
  · rw [exec_lvsClusterAccess_of_lt s _ _ _ _ _ _ hmid, State.lvsAccess_idle_write hw hr]
  · rw [exec_lvsClusterAccess_of_lt s _ _ _ _ _ _ hmid, State.lvsAccess_busy_write rfl hrun]

end Sys2Proof.Machine

/-! PROOFS. What an instruction that issues comes to, and the tags that it accepts (07 R248 and R253). -/
namespace Sys2Proof.Machine

section
variable {s t u : State} {e n : Nat} {rs : List RegRef} {f : State → Res} {x : Trap}

theorem State.issue_done (h : s.ready e n rs) (hf : f (s.past e n) = .done t) : s.issue e n rs f = t.countInstr e := by
  rw [s.issue_ready e n rs f h, hf]

theorem State.issue_settle (h : s.ready e n rs) (hf : f (s.past e n) = .settle t) : s.issue e n rs f = t.commitNow e := by
  rw [s.issue_ready e n rs f h, hf]

theorem State.issue_kept (h : s.ready e n rs) (hf : f (s.past e n) = .kept t) : s.issue e n rs f = t := by
  rw [s.issue_ready e n rs f h, hf]

theorem State.issue_stall (h : s.ready e n rs) (hf : f (s.past e n) = .stall) : s.issue e n rs f = s := by
  rw [s.issue_ready e n rs f h, hf]

/-- A fault whose EPC is the instruction's own address. -/
theorem State.issue_fault (h : s.ready e n rs) (hx : x.next = false) (hf : f (s.past e n) = .fault x u) :
    s.issue e n rs f = u.takeException e (s.pc e) x := by
  rw [s.issue_ready e n rs f h, hf]
  simp [hx]

/-- A fault whose EPC is the next instruction. -/
theorem State.issue_fault_next (h : s.ready e n rs) (hx : x.next = true) (hf : f (s.past e n) = .fault x u) :
    s.issue e n rs f = u.takeException e (u.pc e) x := by
  rw [s.issue_ready e n rs f h, hf]
  simp [hx]

end

/-! Tags, 07 R248. -/

/-- A tag of a word that an instruction may read: neither POISON nor EMPTY. -/
def plainTag (t : Tag) : Prop := t ≠ tagPoison ∧ t ≠ tagEmpty

theorem plainTag_of_tagN {t : Tag} (h : tagN t = true) : plainTag t := by
  revert t; unfold plainTag; decide

theorem plainTag_of_tagNRaw {t : Tag} (h : tagNRaw t = true) : plainTag t := by
  revert t; unfold plainTag; decide

theorem plainTag_of_tagBase {t : Tag} (h : tagBase t = true) : plainTag t := by
  revert t; unfold plainTag; decide

theorem plainTag_of_eq {x t : Tag} (hx : plainTag x) (h : t = x) : plainTag t := h ▸ hx

theorem tagTrap_of_plain {ok : Tag → Bool} {t : Tag} (which ea : Nat) (ht : plainTag t) (h : ok t = true) : tagTrap ok which ea t = none :=
  tagTrap_none ok which ea t h ht.1 ht.2

theorem tagTrap_tagAny {t : Tag} (which ea : Nat) (ht : plainTag t) : tagTrap tagAny which ea t = none := tagTrap_of_plain which ea ht rfl

theorem tagTrap_tagIs {x t : Tag} (which ea : Nat) (hx : plainTag x) (h : t = x) : tagTrap (tagIs x) which ea t = none :=
  tagTrap_of_plain which ea (h ▸ hx) (beq_iff_eq.mpr h)

end Sys2Proof.Machine

/-! PROOFS. The register ALU instructions (07 R257). -/
namespace Sys2Proof.Machine

/-! Words. -/

theorem wordOfBool_slt (a b : Word) : wordOfBool (a.slt b) = if a.toInt < b.toInt then 1 else 0 := by
  simp [wordOfBool, BitVec.slt]

theorem wordOfBool_ult (a b : Word) : wordOfBool (a.ult b) = if a.toNat < b.toNat then 1 else 0 := by
  simp [wordOfBool, BitVec.ult]

theorem bits_one_eq_one (x i : Nat) : (bits x i 1 == 1) = x.testBit i := by
  rw [Nat.testBit_eq_decide_div_mod_eq, bits, Nat.shiftRight_eq_div_pow, Bool.beq_eq_decide_eq, pow_one]

/-- CLZ: the highest bit set is the one below the zeros. -/
theorem clz64_spec (a : Word) : clz64 a.toNat ≤ 64 ∧ (∀ i < 64, 64 - clz64 a.toNat ≤ i → a.getLsbD i = false) ∧
    (clz64 a.toNat < 64 → a.getLsbD (63 - clz64 a.toNat) = true) := by
  simp only [← BitVec.testBit_toNat]
  by_cases h0 : a.toNat = 0
  · simp [clz64, h0]
  · have hlog : a.toNat.log2 < 64 := (Nat.log2_lt h0).mpr a.isLt
    rw [clz64, if_neg h0]
    refine ⟨by omega, fun i _ hi => Nat.testBit_lt_two_pow ((Nat.log2_lt h0).mp (by omega)), fun _ => ?_⟩
    rw [show 63 - (63 - a.toNat.log2) = a.toNat.log2 by omega]
    exact Nat.testBit_log2 h0

/-- CTZ: the lowest bit set is the one above the zeros. -/
theorem ctz64_spec (a : Word) : ctz64 a.toNat ≤ 64 ∧ (∀ i < ctz64 a.toNat, a.getLsbD i = false) ∧
    (ctz64 a.toNat < 64 → a.getLsbD (ctz64 a.toNat) = true) := by
  simp only [← BitVec.testBit_toNat, ctz64, bits_one_eq_one]
  cases h : (List.range 64).find? fun i => a.toNat.testBit i with
  | none => simpa using h
  | some n =>
    obtain ⟨hset, hn, hbelow⟩ := List.find?_range_eq_some.mp h
    exact ⟨(List.mem_range.mp hn).le, fun i hi => by simpa using hbelow i hi, fun _ => hset⟩

theorem popc64_eq (a : Word) : popc64 a.toNat = (List.range 64).countP fun i => a.getLsbD i := by
  simp only [popc64, bits_one_eq_one, BitVec.testBit_toNat, List.countP_eq_length_filter]

/-- TCMP reads the difference of two TIME words as a signed number (00 R14). -/
theorem timeDiff_eq (a b : Word) : timeDiff b.toNat a.toNat = (a - b).toInt := by
  have ha := a.isLt
  have hb := b.isLt
  rw [timeDiff, toSigned, BitVec.toInt_eq_toNat_cond, BitVec.toNat_sub]
  split_ifs <;> omega

theorem wordOfSign_timeDiff (a b : Word) :
    wordOfSign (if b = a then 0 else if timeDiff b.toNat a.toNat > 0 then 1 else -1) =
      if a = b then 0 else if (a - b).toInt > 0 then 1 else -1 := by
  simp only [timeDiff_eq, eq_comm (a := b)]
  split_ifs <;> rfl

/-! What a register ALU instruction accepts and writes. -/

/-- The operands of an operation carry tags that it accepts; TAGGET accepts every tag. -/
def aluAccepts (o : AluOp) (a b : Tag) : Prop :=
  o = .tagget ∨ plainTag a ∧ aluOkA o a = true ∧ (aluBinary o = true → aluOkB o a b = true)

theorem plainTag_of_aluOkA {o : AluOp} {t : Tag} (hmov : o ≠ .mov) (hget : o ≠ .tagget) (h : aluOkA o t = true) : plainTag t := by
  cases o with
  | mov => exact absurd rfl hmov
  | tagget => exact absurd rfl hget
  | _ => revert t; unfold plainTag; decide

theorem plainTag_of_aluOkB {o : AluOp} {a t : Tag} (ho : aluBinary o = true) (ha : plainTag a) (h : aluOkB o a t = true) : plainTag t := by
  cases o with
  | mov | neg | clz | ctz | popc | tagget => cases ho
  | _ => revert a t; unfold plainTag; decide

theorem aluTag_unary {o : AluOp} (ho : aluBinary o = false) (a b c : Tag) : aluTag o a b = aluTag o a c := by
  cases o with
  | mov | neg | clz | ctz | popc | tagget => rfl
  | _ => cases ho

theorem aluEval_unary {o : AluOp} (ho : aluBinary o = false) (t : Tag) (a b c : Word) : aluEval o t a b = aluEval o t a c := by
  cases o with
  | mov | neg | clz | ctz | popc | tagget => rfl
  | _ => cases ho

/-- The instruction of an operation; a unary one has no rs2. -/
def aluInstr (o : AluOp) (e : EngId) (rd rs1 rs2 : RegNo) : Instr :=
  match o with
  | .add => .add e rd rs1 rs2
  | .sub => .sub e rd rs1 rs2
  | .and => .and e rd rs1 rs2
  | .or => .or e rd rs1 rs2
  | .xor => .xor e rd rs1 rs2
  | .andn => .andn e rd rs1 rs2
  | .sll => .sll e rd rs1 rs2
  | .srl => .srl e rd rs1 rs2
  | .sra => .sra e rd rs1 rs2
  | .ror => .ror e rd rs1 rs2
  | .slt => .slt e rd rs1 rs2
  | .sltu => .sltu e rd rs1 rs2
  | .min => .min e rd rs1 rs2
  | .max => .max e rd rs1 rs2
  | .minu => .minu e rd rs1 rs2
  | .maxu => .maxu e rd rs1 rs2
  | .mov => .mov e rd rs1
  | .neg => .neg e rd rs1
  | .clz => .clz e rd rs1
  | .ctz => .ctz e rd rs1
  | .popc => .popc e rd rs1
  | .tcmp => .tcmp e rd rs1 rs2
  | .tagget => .tagget e rd rs1

section
variable {s : State} {e : EngId} {o : AluOp} {rd rs1 rs2 : RegNo}

theorem exec_aluInstr : exec (aluInstr o e rd rs1 rs2) s = .next (s.alu e o rd rs1 (if aluBinary o = true then rs2 else 0)) := by
  cases o <;> rfl

theorem State.aluTrap_of_accepts (h : aluAccepts o (s.g e rs1).tag (s.g e rs2).tag) : s.aluTrap e o rs1 rs2 = none := by
  obtain rfl | ⟨hplain, ha, hb⟩ := h
  · rfl
  · have hsecond : (if aluBinary o then tagTrap (aluOkB o (s.g e rs1).tag) 1 0 (s.g e rs2).tag else none) = none := by
      split_ifs with hbinary
      · exact tagTrap_of_plain 1 0 (plainTag_of_aluOkB hbinary hplain (hb hbinary)) (hb hbinary)
      · rfl
    simp only [State.aluTrap, tagTrap_of_plain 0 0 hplain ha, hsecond, firstTrap, ite_self]

theorem aluRes_done (h : aluAccepts o (s.g e rs1).tag (s.g e rs2).tag) :
    aluRes e o rd rs1 rs2 s =
      .done (s.setG e rd ⟨aluTag o (s.g e rs1).tag (s.g e rs2).tag, aluEval o (s.g e rs1).tag (s.g e rs1).val (s.g e rs2).val⟩) := by
  simp only [aluRes, State.aluTrap_of_accepts h]

/-- A register ALU instruction on a ready engine and operands that it accepts. -/
theorem exec_aluInstr_ready (hready : s.ready e 4 [.g rs1, .g rs2]) (h : aluAccepts o (s.g e rs1).tag (s.g e rs2).tag) :
    exec (aluInstr o e rd rs1 rs2) s = .next (((s.past e 4).setG e rd
      ⟨aluTag o (s.g e rs1).tag (s.g e rs2).tag, aluEval o (s.g e rs1).tag (s.g e rs1).val (s.g e rs2).val⟩).countInstr e) := by
  rw [exec_aluInstr, State.alu]
  by_cases hbinary : aluBinary o = true
  · simp only [if_pos hbinary]
    rw [State.issue_done hready (aluRes_done (by simpa using h))]
    simp only [State.g_past]
  · have hunary : aluBinary o = false := by simpa using hbinary
    have haccepts : aluAccepts o (s.g e rs1).tag (s.g e 0).tag := by simpa [aluAccepts, hunary] using h
    simp only [if_neg hbinary]
    rw [State.issue_done (s.ready_mono e 4 _ _ hready (by simp)) (aluRes_done (by simpa using haccepts))]
    simp only [State.g_past, aluTag_unary hunary _ (s.g e rs2).tag (s.g e 0).tag, aluEval_unary hunary _ _ (s.g e rs2).val (s.g e 0).val]

end

/-- Settles O6: every instruction is the one of its operation, and each word of the statement is `aluEval`'s. -/
theorem aluRegisterResults : Obligations.AluRegisterResults := by
  intro e rd rs1 rs2 s hready a b put
  have run (o : AluOp) (x : TWord) (h : aluAccepts o a.tag b.tag) (hx : ⟨aluTag o a.tag b.tag, aluEval o a.tag a.val b.val⟩ = x) :
      exec (aluInstr o e rd rs1 rs2) s = put x := by
    rw [exec_aluInstr_ready hready h, hx]
  have accepts (o : AluOp) (hmov : o ≠ .mov) (hget : o ≠ .tagget) (ha : aluOkA o a.tag = true) (hb : aluBinary o = true → aluOkB o a.tag b.tag = true) :
      aluAccepts o a.tag b.tag := .inr ⟨plainTag_of_aluOkA hmov hget ha, ha, hb⟩
  refine ⟨fun ha hb => ?_, fun ha hb => ?_, fun ha hb => ⟨?_, ?_, ?_, ?_⟩, fun ha hb => ⟨?_, ?_, ?_, ?_⟩,
    fun ha hb => ⟨?_, ?_, ?_, ?_, ?_, ?_⟩, fun hp he => ?_, fun ha => ?_, fun ha => ⟨?_, ?_, ?_⟩, fun ha hb => ?_, ?_⟩
  · exact run .add _ (accepts _ nofun nofun ha fun _ => hb) rfl
  · exact run .sub _ (accepts _ nofun nofun ha fun _ => hb) rfl
  · exact run .and _ (accepts _ nofun nofun ha fun _ => hb) rfl
  · exact run .or _ (accepts _ nofun nofun ha fun _ => hb) rfl
  · exact run .xor _ (accepts _ nofun nofun ha fun _ => hb) rfl
  · exact run .andn _ (accepts _ nofun nofun ha fun _ => hb) rfl
  · exact run .sll _ (accepts _ nofun nofun ha fun _ => hb) rfl
  · exact run .srl _ (accepts _ nofun nofun ha fun _ => hb) rfl
  · exact run .sra _ (accepts _ nofun nofun ha fun _ => hb) rfl
  · exact run .ror _ (accepts _ nofun nofun ha fun _ => hb) rfl
  · exact run .slt _ (accepts _ nofun nofun ha fun _ => hb) (by rw [aluEval, wordOfBool_slt]; rfl)
  · exact run .sltu _ (accepts _ nofun nofun ha fun _ => hb) (by rw [aluEval, wordOfBool_ult]; rfl)
  · exact run .min _ (accepts _ nofun nofun ha fun _ => hb) (by simp [aluEval, aluTag, BitVec.slt])
  · exact run .max _ (accepts _ nofun nofun ha fun _ => hb) (by simp [aluEval, aluTag, BitVec.slt])
  · exact run .minu _ (accepts _ nofun nofun ha fun _ => hb) (by simp [aluEval, aluTag, BitVec.ult])
  · exact run .maxu _ (accepts _ nofun nofun ha fun _ => hb) (by simp [aluEval, aluTag, BitVec.ult])
  · exact run .mov _ (.inr ⟨⟨hp, he⟩, rfl, nofun⟩) rfl
  · exact run .neg _ (accepts _ nofun nofun ha nofun) (by simp [aluEval, aluTag])
  · obtain ⟨hle, hbelow, hset⟩ := clz64_spec a.val
    exact ⟨_, hle, hbelow, hset, run .clz _ (accepts _ nofun nofun ha nofun) rfl⟩
  · obtain ⟨hle, hbelow, hset⟩ := ctz64_spec a.val
    exact ⟨_, hle, hbelow, hset, run .ctz _ (accepts _ nofun nofun ha nofun) rfl⟩
  · exact run .popc _ (accepts _ nofun nofun ha nofun) (by rw [aluEval, popc64_eq]; rfl)
  · exact run .tcmp _ (accepts _ nofun nofun (beq_iff_eq.mpr ha) fun _ => beq_iff_eq.mpr hb) (by rw [aluEval, wordOfSign_timeDiff]; rfl)
  · exact run .tagget _ (.inl rfl) rfl

end Sys2Proof.Machine

/-! PROOFS. The immediate instructions (07 R258). -/
namespace Sys2Proof.Machine

/-- The immediate and the operand's tag are ones that an operation accepts; TAGSET accepts every tag. -/
def immAccepts (o : ImmOp) (t : Tag) (i : BitVec 16) : Prop := immRsv o i = none ∧ (o = .tagset ∨ immOk o t = true)

theorem plainTag_of_immOk {o : ImmOp} {t : Tag} (ho : o ≠ .tagset) (h : immOk o t = true) : plainTag t := by
  cases o with
  | tagset => exact absurd rfl ho
  | _ => revert t; unfold plainTag; decide

/-- The instruction of an operation. -/
def immInstr (o : ImmOp) (e : EngId) (rd rs1 : RegNo) (i : BitVec 16) : Instr :=
  match o with
  | .addi => .addi e rd rs1 i
  | .andi => .andi e rd rs1 i
  | .ori => .ori e rd rs1 i
  | .xori => .xori e rd rs1 i
  | .slti => .slti e rd rs1 i
  | .sltiu => .sltiu e rd rs1 i
  | .shi => .shi e rd rs1 i
  | .tagset => .tagset e rd rs1 i

section
variable {s : State} {e : EngId} {o : ImmOp} {rd rs1 : RegNo} {i : BitVec 16}

theorem exec_immInstr : exec (immInstr o e rd rs1 i) s = .next (s.aluImm e o rd rs1 i) := by
  cases o <;> rfl

theorem immRes_done (h : immAccepts o (s.g e rs1).tag i) : immRes e o rd rs1 i s = .done (s.setG e rd (immEval o (s.g e rs1) i)) := by
  obtain ⟨hrsv, htag⟩ := h
  have htrap : (if o = .tagset then none else tagTrap (immOk o) 0 0 (s.g e rs1).tag) = none := by
    split_ifs with ho
    · rfl
    · have hok := htag.resolve_left ho
      exact tagTrap_of_plain 0 0 (plainTag_of_immOk ho hok) hok
  simp only [immRes, hrsv, htrap]

/-- An immediate instruction on a ready engine and operands that it accepts. -/
theorem exec_immInstr_ready (hready : s.ready e 4 [.g rs1]) (h : immAccepts o (s.g e rs1).tag i) :
    exec (immInstr o e rd rs1 i) s = .next (((s.past e 4).setG e rd (immEval o (s.g e rs1) i)).countInstr e) := by
  rw [exec_immInstr, State.aluImm, State.issue_done hready (immRes_done (by rwa [State.g_past])), State.g_past]

/-- SHI: the upper two bits of its immediate name the shift. -/
theorem immEval_shi (a : TWord) (hi : i.toNat < 256) :
    immEval .shi a i = ⟨a.tag, if i.toNat < 64 then a.val <<< (i.toNat % 64) else if i.toNat < 128 then a.val >>> (i.toNat % 64)
      else if i.toNat < 192 then a.val.sshiftRight (i.toNat % 64) else a.val.rotateRight (i.toNat % 64)⟩ := by
  have hkind : i.toNat / 64 % 4 = if i.toNat < 64 then 0 else if i.toNat < 128 then 1 else if i.toNat < 192 then 2 else 3 := by
    split_ifs <;> omega
  simp only [immEval, hkind]
  split_ifs <;> rfl

/-- MOVK: the bits of the named field come from the immediate, the others stay. -/
theorem getLsbD_setHalf (w : Word) (h : Nat) (i : BitVec 16) (k : Nat) (hk : k < 64) :
    (setHalf w h i).getLsbD k = if 16 * h ≤ k ∧ k < 16 * h + 16 then i.getLsbD (k - 16 * h) else w.getLsbD k := by
  simp only [setHalf, BitVec.getLsbD_ofNat, testBit_setBits, hk, decide_true, Bool.true_and, BitVec.testBit_toNat]

theorem exec_movi_ready (hready : s.ready e 4 []) :
    exec (.movi e rd i) s = .next (((s.past e 4).setG e rd ⟨tagI64, i.signExtend 64⟩).countInstr e) :=
  congrArg _ (State.issue_done (f := fun t => .done (t.setG e rd ⟨tagI64, immS i⟩)) hready rfl)

/-- What MOVK does when it issues. -/
def movkRes (e : Nat) (rd : RegNo) (h : Nat) (i : BitVec 16) (p : State) : Res :=
  match tagTrap tagAny 0 0 (p.g e rd).tag with
  | some x => .fault x p
  | none => .done (p.setG e rd ⟨(p.g e rd).tag, setHalf (p.g e rd).val h i⟩)

theorem exec_movk {h : Fin 4} : exec (.movk e rd h i) s = .next (s.issue e 4 [.g rd] (movkRes e rd h i)) := rfl

theorem exec_movk_ready {h : Fin 4} (hready : s.ready e 4 [.g rd]) (htag : plainTag (s.g e rd).tag) :
    exec (.movk e rd h i) s =
      .next (((s.past e 4).setG e rd ⟨(s.g e rd).tag, setHalf (s.g e rd).val h i⟩).countInstr e) := by
  have hdone : movkRes e rd h i (s.past e 4) = .done ((s.past e 4).setG e rd ⟨(s.g e rd).tag, setHalf (s.g e rd).val h i⟩) := by
    simp only [movkRes, State.g_past, tagTrap_tagAny 0 0 htag]
  rw [exec_movk, State.issue_done hready hdone]

end

/-- Settles O7: each instruction is the one of its operation, and MOVI and MOVK stand apart. -/
theorem immediateResults : Obligations.ImmediateResults := by
  intro e rd rs1 i h s hready a put
  have run (o : ImmOp) (x : TWord) (hok : o = .tagset ∨ immOk o a.tag = true) (hrsv : immRsv o i = none) (hx : immEval o a i = x) :
      exec (immInstr o e rd rs1 i) s = put x := by
    rw [exec_immInstr_ready hready ⟨hrsv, hok⟩, hx]
  refine ⟨fun ha => ?_, fun ha => ⟨?_, ?_, ?_⟩, fun ha => ⟨?_, ?_⟩, fun ha hi => ?_, ?_, fun hawaits hp he => ?_, fun hi => ?_⟩
  · exact run .addi _ (.inr ha) rfl rfl
  · exact run .andi _ (.inr ha) rfl rfl
  · exact run .ori _ (.inr ha) rfl rfl
  · exact run .xori _ (.inr ha) rfl rfl
  · exact run .slti _ (.inr ha) rfl (by rw [immEval, wordOfBool_slt]; rfl)
  · exact run .sltiu _ (.inr ha) rfl (by rw [immEval, wordOfBool_ult]; rfl)
  · exact run .shi _ (.inr ha) (by simp [immRsv, hi]) (immEval_shi a hi)
  · exact exec_movi_ready (s.ready_mono e 4 _ _ hready nofun)
  · obtain ⟨hissue, _, hfetch⟩ := hready
    exact ⟨_, getLsbD_setHalf _ h i, exec_movk_ready ⟨hissue, hawaits, hfetch⟩ ⟨hp, he⟩⟩
  · refine run .tagset _ (.inl rfl) (by simp [immRsv, hi]) ?_
    have hlow : i.extractLsb' 0 4 = i.setWidth 4 := by ext; simp
    rw [immEval, hlow]

end Sys2Proof.Machine

/-! PROOFS. What an instruction that writes one G register leaves alone (07 R246). -/
namespace Sys2Proof.Machine

section
variable {s t : State} {e : Nat}

/-! Registers of a bank are read from the core alone. -/

theorem State.g_congr (h : t.core e = s.core e) (r : RegNo) : t.g e r = s.g e r := by simp only [State.g, State.runBank, h]
theorem State.f_congr (h : t.core e = s.core e) (r : RegNo) : t.f e r = s.f e r := by simp only [State.f, State.runBank, h]
theorem State.astat_congr (h : t.core e = s.core e) : t.astat e = s.astat e := by simp only [State.astat, State.runBank, h]
theorem State.lev_congr (h : t.core e = s.core e) : t.lev e = s.lev e := by simp only [State.lev, h]
theorem State.pc_congr (h : t.core e = s.core e) : t.pc e = s.pc e := by simp only [State.pc, h]

/-! A write of a G register. -/
variable (s) (rd : RegNo) (x : TWord)

theorem State.core_setG :
    (s.setG e rd x).core e = (s.core e).setBank (s.core e).run (((s.core e).bank (s.core e).run).setG rd.toNat x) := by
  simp [State.setG, State.modRun, State.modBank]

theorem State.engine_setG : (s.setG e rd x).engine e = { s.engine e with core := (s.setG e rd x).core e } := by
  rw [State.core_setG]
  simp [State.setG, State.modRun, State.modBank]

@[simp] theorem State.astat_setG : (s.setG e rd x).astat e = s.astat e := by
  simp [State.astat, State.setG, Bank.setG, Bank.mark]

@[simp] theorem State.vfcsr_setG : (s.setG e rd x).vfcsr e = s.vfcsr e := by
  simp [State.vfcsr, State.setG, Bank.setG, Bank.mark]

@[simp] theorem State.lev_setG : (s.setG e rd x).lev e = s.lev e := by rw [State.lev, State.core_setG]; rfl
@[simp] theorem State.pc_setG : (s.setG e rd x).pc e = s.pc e := by rw [State.pc, State.core_setG]; rfl

theorem State.save_setG (b : Nat) : (((s.setG e rd x).core e).bank b).save = ((s.core e).bank b).save := by
  rw [State.core_setG]
  by_cases hb : b = (s.core e).run
  · rw [hb, Core.bank_setBank]
    rfl
  · rw [Core.bank_setBank_ne _ _ _ _ hb]

/-! The count toward a checkpoint, 10 R352, and the corrected words of the ROM, 08 R299. -/

/-- A fetch from the ROM that finds no flaw takes nothing; otherwise it takes a free value, and counts a word that it corrects. -/
theorem State.romFetch_cases :
    s.romFetch e = s ∨ s.romFetch e = s.takeFree.2 ∨ s.romFetch e = s.takeFree.2.count (Reg.ENG_UC_CE e) Reg.ENG_UC_CE_COUNT 1 := by
  unfold State.romFetch
  extract_lets r
  split_ifs
  · exact .inl rfl
  · exact .inr (.inr rfl)
  · exact .inr (.inl rfl)

/-- A fetch from the ROM changes registers and the counter of free values alone. -/
theorem State.romFetch_eq : ∃ n r, s.romFetch e = { s with free := n, regs := r } := by
  obtain h | h | h := s.romFetch_cases (e := e) <;> rw [h]
  exacts [⟨_, _, rfl⟩, ⟨_, _, rfl⟩, ⟨_, _, rfl⟩]

@[simp] theorem State.romFetch_eng : (s.romFetch e).eng = s.eng := by
  obtain ⟨n, r, h⟩ := s.romFetch_eq (e := e)
  rw [h]

@[simp] theorem State.romFetch_mem : (s.romFetch e).mem = s.mem := by
  obtain ⟨n, r, h⟩ := s.romFetch_eq (e := e)
  rw [h]

@[simp] theorem State.romFetch_ic : (s.romFetch e).ic = s.ic := by
  obtain ⟨n, r, h⟩ := s.romFetch_eq (e := e)
  rw [h]

@[simp] theorem State.romFetch_gav : (s.romFetch e).gav = s.gav := by
  obtain ⟨n, r, h⟩ := s.romFetch_eq (e := e)
  rw [h]

@[simp] theorem State.romFetch_pending : (s.romFetch e).pending = s.pending := by
  obtain ⟨n, r, h⟩ := s.romFetch_eq (e := e)
  rw [h]

theorem State.romFetch_of_no_flaw (h : s.mem.ucFlaws = []) : s.romFetch e = s := if_pos h

/-- A fetch from the ROM changes the engine's count of corrected words alone. -/
theorem State.reg_romFetch_ne {k : Nat} (hk : k ≠ Reg.ENG_UC_CE e) : (s.romFetch e).reg k = s.reg k := by
  obtain h | h | h := s.romFetch_cases (e := e) <;> rw [h]
  · rfl
  · exact State.reg_wr_ne _ _ _ _ _ hk

variable {s}

/-- An instruction that is not the last of its 1,024 counts and makes no commit. -/
theorem State.countInstr_of_few (h : (s.engine e).icount < 1023) :
    s.countInstr e = (s.romFetch e).modEngine e fun y => { y with icount := (s.engine e).icount + 1 } := by
  have hengine : (s.romFetch e).engine e = s.engine e := by simp only [State.engine, State.romFetch_eng]
  rw [State.countInstr, hengine]
  exact if_neg (by omega)

theorem State.engine_countInstr (h : (s.engine e).icount < 1023) :
    (s.countInstr e).engine e = { s.engine e with icount := (s.engine e).icount + 1 } := by
  rw [State.countInstr_of_few h, State.engine_modEngine, State.engine, State.romFetch_eng]
  rfl

theorem State.core_countInstr (h : (s.engine e).icount < 1023) : (s.countInstr e).core e = s.core e := by
  rw [State.core, State.engine_countInstr h]
  rfl

theorem State.engine_countInstr_ne {k : Nat} (h : (s.engine e).icount < 1023) (hk : k ≠ e) : (s.countInstr e).engine k = s.engine k := by
  rw [State.countInstr_of_few h, State.engine_modEngine_ne _ _ _ _ hk, State.engine, State.romFetch_eng]
  rfl

end

/-! The instructions of 07 R257 and R258. -/

/-- An instruction writes `rd` and nothing else, or faults with nothing changed. -/
def WritesOne (e : Nat) (rd : RegNo) (f : State → Res) : Prop :=
  ∀ p, (∃ x, f p = .done (p.setG e rd x)) ∨ ∃ x, f p = .fault x p

section
variable {e : EngId} {rd : RegNo}

theorem writesOne_aluRes (o : AluOp) (rs1 rs2 : RegNo) : WritesOne e rd (aluRes e o rd rs1 rs2) := by
  intro p
  unfold aluRes
  split
  · exact .inr ⟨_, rfl⟩
  · exact .inl ⟨_, rfl⟩

theorem writesOne_immRes (o : ImmOp) (rs1 : RegNo) (i : BitVec 16) : WritesOne e rd (immRes e o rd rs1 i) := by
  intro p
  unfold immRes
  split
  · exact .inr ⟨_, rfl⟩
  · dsimp only
    split
    · exact .inr ⟨_, rfl⟩
    · exact .inl ⟨_, rfl⟩

theorem writesOne_movkRes (h : Nat) (i : BitVec 16) : WritesOne e rd (movkRes e rd h i) := by
  intro p
  unfold movkRes
  split
  · exact .inr ⟨_, rfl⟩
  · exact .inl ⟨_, rfl⟩

/-- The four kinds of instruction that read G registers and write one. -/
theorem registerOnly_cases {i : Instr} (h : registerOnly i = some (e, rd)) :
    (∃ o rs1 rs2, i = aluInstr o e rd rs1 rs2) ∨ (∃ o rs1 x, i = immInstr o e rd rs1 x) ∨ (∃ x, i = .movi e rd x) ∨
      ∃ k x, i = .movk e rd k x := by
  unfold registerOnly at h
  split at h <;> cases h
  exacts [.inl ⟨.add, _, _, rfl⟩, .inl ⟨.sub, _, _, rfl⟩, .inl ⟨.and, _, _, rfl⟩, .inl ⟨.or, _, _, rfl⟩, .inl ⟨.xor, _, _, rfl⟩,
    .inl ⟨.andn, _, _, rfl⟩, .inl ⟨.sll, _, _, rfl⟩, .inl ⟨.srl, _, _, rfl⟩, .inl ⟨.sra, _, _, rfl⟩, .inl ⟨.ror, _, _, rfl⟩,
    .inl ⟨.slt, _, _, rfl⟩, .inl ⟨.sltu, _, _, rfl⟩, .inl ⟨.min, _, _, rfl⟩, .inl ⟨.max, _, _, rfl⟩, .inl ⟨.minu, _, _, rfl⟩,
    .inl ⟨.maxu, _, _, rfl⟩, .inl ⟨.mov, _, 0, rfl⟩, .inl ⟨.neg, _, 0, rfl⟩, .inl ⟨.clz, _, 0, rfl⟩, .inl ⟨.ctz, _, 0, rfl⟩,
    .inl ⟨.popc, _, 0, rfl⟩, .inl ⟨.tcmp, _, _, rfl⟩, .inl ⟨.tagget, _, 0, rfl⟩,
    .inr (.inl ⟨.addi, _, _, rfl⟩), .inr (.inl ⟨.andi, _, _, rfl⟩), .inr (.inl ⟨.ori, _, _, rfl⟩), .inr (.inl ⟨.xori, _, _, rfl⟩),
    .inr (.inl ⟨.slti, _, _, rfl⟩), .inr (.inl ⟨.sltiu, _, _, rfl⟩), .inr (.inl ⟨.shi, _, _, rfl⟩), .inr (.inr (.inl ⟨_, rfl⟩)),
    .inr (.inr (.inr ⟨_, _, rfl⟩)), .inr (.inl ⟨.tagset, _, _, rfl⟩)]

/-- Each of them issues, and writes its destination alone. -/
theorem exec_registerOnly {i : Instr} (h : registerOnly i = some (e, rd)) (s : State) :
    ∃ rs f, WritesOne e rd f ∧ exec i s = .next (s.issue e 4 rs f) := by
  obtain ⟨o, rs1, rs2, rfl⟩ | ⟨o, rs1, x, rfl⟩ | ⟨x, rfl⟩ | ⟨k, x, rfl⟩ := registerOnly_cases h
  · exact ⟨_, _, writesOne_aluRes o rs1 _, exec_aluInstr⟩
  · exact ⟨_, _, writesOne_immRes o rs1 x, exec_immInstr⟩
  · exact ⟨[], _, fun p => .inl ⟨⟨tagI64, immS x⟩, rfl⟩, rfl⟩
  · exact ⟨_, _, writesOne_movkRes k x, exec_movk⟩

/-- Such an instruction waits, takes an exception at its fetch or at its execution, or writes its destination. -/
theorem State.issue_writesOne {n : Nat} {rs : List RegRef} {f : State → Res} (hf : WritesOne e rd f) (s : State) :
    s.issue e n rs f = s ∨ (∃ m x, s.issue e n rs f = s.takeException e m x ∨ s.issue e n rs f = (s.past e n).takeException e m x) ∨
      ∃ x, s.issue e n rs f = ((s.past e n).setG e rd x).countInstr e := by
  unfold State.issue
  by_cases hgo : (s.canIssue e && !s.awaits e rs) = true
  · rw [if_pos hgo]
    split
    · exact .inr (.inl ⟨_, _, .inl rfl⟩)
    · obtain ⟨x, hx⟩ | ⟨x, hx⟩ := hf (s.past e n) <;> rw [State.past] at hx <;> rw [hx]
      · exact .inr (.inr ⟨x, rfl⟩)
      · exact .inr (.inl ⟨_, x, .inr rfl⟩)
  · exact .inl (if_neg hgo)

/-- Everything but the destination, the program counter and the counts is as before. -/
theorem State.writesOne_frame {s : State} (hcount : (s.engine e).icount < 1023) (x : TWord) :
    let t := ((s.past e 4).setG e rd x).countInstr e
    (∀ r : RegNo, r ≠ rd → t.g e r = s.g e r) ∧ (∀ r : RegNo, t.f e r = s.f e r) ∧ t.astat e = s.astat e ∧ t.lev e = s.lev e ∧
      (∀ b : Nat, ((t.core e).bank b).save = ((s.core e).bank b).save) ∧ t.pc e = (s.pc e + 4) % 2 ^ 48 ∧
      (∀ k : Nat, k ≠ e.val → t.engine k = s.engine k) ∧ (t.engine e).stores = (s.engine e).stores ∧ (∀ a, t.mem.byte a = s.mem.byte a) ∧ t.mem = s.mem ∧
      (∀ k, k ≠ Reg.ENG_UC_CE e → t.reg k = s.reg k) ∧ (s.mem.ucFlaws = [] → t.regs = s.regs) ∧ t.ic = s.ic ∧ t.gav = s.gav ∧ t.pending = s.pending := by
  intro t
  set u := (s.past e 4).setG e rd x with hu
  have hengine : u.engine e = { s.engine e with core := u.core e } := by
    rw [hu, State.engine_setG]
    simp [State.past, State.setPc]
  have hfew : (u.engine e).icount < 1023 := by rwa [hengine]
  have hcore : t.core e = u.core e := State.core_countInstr hfew
  have ht : t = (u.romFetch e).modEngine e fun y => { y with icount := (u.engine e).icount + 1 } := State.countInstr_of_few hfew
  have hmem : t.mem = s.mem := by rw [ht, State.modEngine_mem, State.romFetch_mem]; rfl
  have hreg : u.reg = s.reg := rfl
  refine ⟨fun r hr => ?_, fun r => ?_, ?_, ?_, fun b => ?_, ?_, fun k hk => ?_, ?_, fun a => ?_, hmem, fun k hk => ?_, fun hflaw => ?_, ?_, ?_, ?_⟩
  · rw [State.g_congr hcore, hu, State.g_setG_ne _ _ _ _ _ hr, State.g_past]
  · rw [State.f_congr hcore, hu, State.f_setG, State.f_past]
  · rw [State.astat_congr hcore, hu, State.astat_setG, State.astat_past]
  · rw [State.lev_congr hcore, hu, State.lev_setG, State.lev_past]
  · rw [hcore, hu, State.save_setG, State.core_past]
    rfl
  · rw [State.pc_congr hcore, hu, State.pc_setG, State.pc_past]
  · rw [State.engine_countInstr_ne hfew hk]
    exact (State.engine_modEngine_ne _ _ _ _ hk).trans (State.engine_modEngine_ne _ _ _ _ hk)
  · rw [State.engine_countInstr hfew, hengine]
  · rw [hmem]
  · rw [ht, ← hreg, ← State.reg_romFetch_ne u hk]
    rfl
  · rw [ht, State.romFetch_of_no_flaw u hflaw]
    rfl
  · rw [ht, State.modEngine_ic, State.romFetch_ic]
    rfl
  · rw [ht, State.modEngine_gav, State.romFetch_gav]
    rfl
  · rw [ht, State.modEngine_pending, State.romFetch_pending]
    rfl

end

/-- Settles O56: the instruction issues or waits, and where it completes its destination alone is written. -/
theorem registerInstructionsFrame : Obligations.RegisterInstructionsFrame := by
  intro i e rd s t hi hcount hexec
  obtain ⟨rs, f, hf, hissue⟩ := exec_registerOnly hi s
  obtain rfl : s.issue e 4 rs f = t := by simpa using hissue.symm.trans hexec
  obtain hwait | ⟨n, x, hexc⟩ | ⟨x, hdone⟩ := State.issue_writesOne hf s
  · exact .inl hwait
  · exact .inr (.inl ⟨n, x, hexc⟩)
  · rw [hdone]
    exact .inr (.inr (State.writesOne_frame hcount x))

end Sys2Proof.Machine

/-! PROOFS. Products, quotients and remainders (07 R259 and R260). -/
namespace Sys2Proof.Machine

/-! Words. -/

theorem ofInt_prodS (a b : Word) : BitVec.ofInt 64 (prodS a b) = a * b := by
  rw [prodS, BitVec.ofInt_mul, BitVec.ofInt_toInt, BitVec.ofInt_toInt]

theorem ofInt_prodU (a b : Word) : BitVec.ofInt 64 (prodU a b : Int) = a * b := by
  rw [prodU, BitVec.ofInt_natCast, BitVec.ofNat_mul, BitVec.ofNat_toNat, BitVec.ofNat_toNat, BitVec.setWidth_eq, BitVec.setWidth_eq]

theorem ofInt_prodU_high (a b : Word) : BitVec.ofInt 64 ((prodU a b : Int) / 2 ^ 64) = BitVec.ofNat 64 (a.toNat * b.toNat / 2 ^ 64) := by
  have hcast : (prodU a b : Int) / 2 ^ 64 = ((a.toNat * b.toNat / 2 ^ 64 : Nat) : Int) := by
    rw [prodU]
    norm_cast
  rw [hcast, BitVec.ofInt_natCast]

theorem divU_eq (a b : Word) : divU a b = if b = 0 then BitVec.allOnes 64 else a / b := by
  rw [divU]
  congr 1
  exact BitVec.eq_of_toNat_eq (by simp [Nat.mod_eq_of_lt (lt_of_le_of_lt (Nat.div_le_self _ _) a.isLt)])

theorem remU_eq (a b : Word) : remU a b = if b = 0 then a else a % b := by
  rw [remU]
  congr 1
  exact BitVec.eq_of_toNat_eq (by simp [Nat.mod_eq_of_lt (lt_of_le_of_lt (Nat.mod_le _ _) a.isLt)])

section
variable {s : State} {e : EngId} {rd rs1 rs2 : RegNo}

/-- Two operands whose tags are accepted. -/
theorem State.nnTrap_none {ok : Tag → Bool} (hplain : ∀ {t}, ok t = true → plainTag t) (ha : ok (s.g e rs1).tag = true)
    (hb : ok (s.g e rs2).tag = true) : s.nnTrap e rs1 rs2 ok = none := by
  simp only [State.nnTrap, tagTrap_of_plain 0 0 (hplain ha) ha, tagTrap_of_plain 1 0 (hplain hb) hb, firstTrap]

theorem State.mulDiv_ready (hready : s.ready e 4 [.g rs1, .g rs2]) (ha : tagN (s.g e rs1).tag = true) (hb : tagN (s.g e rs2).tag = true)
    (f : Word → Word → Word) :
    s.mulDiv e rd rs1 rs2 f =
      ((s.past e 4).setG e rd ⟨(s.g e rs1).tag, f (s.g e rs1).val (s.g e rs2).val⟩).countInstr e := by
  have hnone : (s.past e 4).nnTrap e rs1 rs2 tagN = none :=
    State.nnTrap_none plainTag_of_tagN (by rwa [State.g_past]) (by rwa [State.g_past])
  refine State.issue_done hready ?_
  simp only [hnone, State.g_past]

theorem State.mulWide_ready (hready : s.ready e 4 [.g rs1, .g rs2]) (ha : tagN (s.g e rs1).tag = true) (hb : tagN (s.g e rs2).tag = true)
    (heven : rd.toNat % 2 = 0) (func : Nat) (f : Word → Word → Int) :
    s.mulWide e func rd rs1 rs2 f =
      ((((s.past e 4).setG e rd ⟨(s.g e rs1).tag, BitVec.ofInt 64 (f (s.g e rs1).val (s.g e rs2).val)⟩).setG e (rd + 1)
        ⟨(s.g e rs1).tag, BitVec.ofInt 64 (f (s.g e rs1).val (s.g e rs2).val / 2 ^ 64)⟩).countInstr e) := by
  have hnone : (s.past e 4).nnTrap e rs1 rs2 tagN = none :=
    State.nnTrap_none plainTag_of_tagN (by rwa [State.g_past]) (by rwa [State.g_past])
  refine State.issue_done hready ?_
  simp only [heven, hnone, State.g_past, zero_ne_one, if_false]

/-- An odd destination of a pair is illegal whatever the operands hold. -/
theorem State.mulWide_odd (hready : s.ready e 4 [.g rs1, .g rs2]) (hodd : rd.toNat % 2 = 1) (func : Nat) (f : Word → Word → Int) :
    s.mulWide e func rd rs1 rs2 f = (s.past e 4).takeException e (s.pc e) (illegal (encReg 0x0A rd rs1 rs2 func)) :=
  State.issue_fault hready rfl (if_pos hodd)

end

/-- Settles O8: the nine instructions are `State.mulDiv` and `State.mulWide` of their functions. -/
theorem multiplyDivideResults : Obligations.MultiplyDivideResults := by
  intro e rd rs1 rs2 s hready a b t put put2
  refine ⟨fun ha hb => ?_, fun hodd => ?_⟩
  · have run {f : Word → Word → Word} {x : Word} (h : f a b = x) : .next (s.mulDiv e rd rs1 rs2 f) = put x := by
      rw [State.mulDiv_ready hready ha hb, ← h]
    refine ⟨run (ofInt_prodS a b), run rfl, run rfl, run rfl, run (divU_eq a b), run rfl, run (remU_eq a b), fun heven => ?_⟩
    have runWide {func : Nat} {f : Word → Word → Int} {lo hi : Word} (hlo : BitVec.ofInt 64 (f a b) = lo)
        (hhi : BitVec.ofInt 64 (f a b / 2 ^ 64) = hi) : .next (s.mulWide e func rd rs1 rs2 f) = put2 lo hi := by
      rw [State.mulWide_ready hready ha hb heven, ← hlo, ← hhi]
    exact ⟨runWide (ofInt_prodS a b) rfl, runWide (ofInt_prodU a b) (ofInt_prodU_high a b)⟩
  · exact ⟨congrArg _ (State.mulWide_odd hready hodd 3 _), congrArg _ (State.mulWide_odd hready hodd 4 _)⟩

end Sys2Proof.Machine

/-! PROOFS. Carries, decimal adjust and packed decimal (07 R261 to R264). -/
namespace Sys2Proof.Machine

section
variable {s : State} {e : EngId} {rd rs1 rs2 : RegNo}

/-- Engine `e` with `x`, of tag U64, in a G register and `w` in ASTAT. -/
def State.putAstat (s : State) (e : Nat) (rd : RegNo) (x w : Nat) : State := (s.setG e rd ⟨tagU64, BitVec.ofNat 64 x⟩).setAstat e w

section
variable (ha : tagNRaw (s.g e rs1).tag = true) (hb : tagNRaw (s.g e rs2).tag = true) (z : Bool)
include ha hb

/-- ADDC takes the carry of ASTAT, ADDCZ none (07 R261). -/
theorem addcRes_done :
    let a := (s.g e rs1).val.toNat
    let b := (s.g e rs2).val.toNat
    let c := if z then 0 else s.astat e % 2
    addcRes e rd rs1 rs2 z s = .done (s.putAstat e rd (a + b + c) (astatOf (nibCarry a b c) false)) := by
  simp only [addcRes, State.nnTrap_none plainTag_of_tagNRaw ha hb, State.putAstat]

/-- SUBB takes the borrow of ASTAT, SUBBZ none (07 R261). -/
theorem subbRes_done :
    let a := (s.g e rs1).val.toNat
    let b := (s.g e rs2).val.toNat
    let c := if z then 0 else s.astat e % 2
    subbRes e rd rs1 rs2 z s = .done (s.putAstat e rd (a + 2 ^ 65 - b - c) (astatOf (nibBorrow a b c) true)) := by
  simp only [subbRes, State.nnTrap_none plainTag_of_tagNRaw ha hb, State.putAstat]

end

theorem dadjRes_done (ha : tagNRaw (s.g e rs1).tag = true) :
    let r := dadj (s.g e rs1).val.toNat (s.astat e)
    dadjRes e rd rs1 s = .done (s.putAstat e rd r.1 (setBits (s.astat e) 0 1 r.2)) := by
  simp only [dadjRes, tagTrap_of_plain 0 0 (plainTag_of_tagNRaw ha) ha, State.putAstat]

/-! Operations on D15, 07 R264. -/

/-- Engine `e` with a result in a G register and its flags, if any, in VFCSR. -/
def State.putDec (s : State) (e : Nat) (rd : RegNo) (t : Tag) (r : FRes) : State :=
  let p := s.setG e rd ⟨t, BitVec.ofNat 64 r.1⟩
  if r.2 = 0 then p else p.setVfcsr e (orFlags (s.vfcsr e) r.2)

/-- A result that overflows does not trap: there is no overflow, or DOVTE is clear. -/
def State.decQuiet (s : State) (e : Nat) (r : FRes) : Prop := r.2 = 0 ∨ bits (s.vfcsr e) 16 1 = 0

theorem State.not_traps_of_decQuiet {r : FRes} (h : s.decQuiet e r) : ¬ (r.2 ≠ 0 ∧ bits (s.vfcsr e) 16 1 = 1) := by
  unfold State.decQuiet at h
  omega

/-- A source holds a valid D15 word. -/
def State.holdsDec (s : State) (e : Nat) (r : RegNo) : Prop := (s.g e r).tag = tagDec ∧ d15Valid (s.g e r).val.toNat = true

theorem decRes_done {srcs : List RegNo} {f : List Nat → FRes} {out : Tag} (h : ∀ r ∈ srcs, s.holdsDec e r)
    (hquiet : s.decQuiet e (f (srcs.map fun r => (s.g e r).val.toNat))) :
    decRes e rd srcs f out s = .done (s.putDec e rd out (f (srcs.map fun r => (s.g e r).val.toNat))) := by
  have htags : (srcs.zipIdx.map fun p => tagTrap (tagIs tagDec) p.2 0 (s.g e p.1).tag).find? (·.isSome) = none := by
    rw [List.find?_eq_none]
    intro x hx
    obtain ⟨p, hp, rfl⟩ := List.mem_map.mp hx
    obtain ⟨htag, _⟩ := h p.1 (List.fst_mem_of_mem_zipIdx hp)
    simp [tagTrap_tagIs p.2 0 (by unfold plainTag; decide) htag]
  have hdigits : ¬ ((srcs.map fun r => (s.g e r).val.toNat).any fun x => !d15Valid x) = true := by
    simpa using fun r hr => (h r hr).2
  simp only [decRes, htags, if_neg hdigits, if_neg (State.not_traps_of_decQuiet hquiet)]
  rfl

theorem State.putDec_past (t : Tag) (r : FRes) :
    (s.past e 4).putDec e rd t r = if r.2 = 0 then (s.past e 4).setG e rd ⟨t, BitVec.ofNat 64 r.1⟩
      else ((s.past e 4).setG e rd ⟨t, BitVec.ofNat 64 r.1⟩).setVfcsr e (orFlags (s.vfcsr e) r.2) := by
  rw [State.putDec, State.vfcsr_past]

/-- An instruction on valid D15 sources whose result `r` does not trap. -/
theorem State.issue_dec {srcs : List RegNo} {rs : List RegRef} {f : List Nat → FRes} {r : FRes} (out : Tag) (hready : s.ready e 4 rs)
    (h : ∀ r ∈ srcs, s.holdsDec e r) (hquiet : s.decQuiet e r)
    (hr : f (srcs.map fun r => (s.g e r).val.toNat) = r) :
    s.issue e 4 rs (decRes e rd srcs f out) = ((s.past e 4).putDec e rd out r).countInstr e := by
  subst hr
  have hdone := decRes_done (s := s.past e 4) (e := e) (rd := rd) (srcs := srcs) (f := f) (out := out)
    (by simpa [State.holdsDec] using h) (by simpa [State.decQuiet] using hquiet)
  rw [State.issue_done hready hdone]
  simp only [State.g_past]

/-- A result without flags. -/
theorem State.putDec_word (t : Tag) (w : Word) : s.putDec e rd t (w.toNat, 0) = s.setG e rd ⟨t, w⟩ := by
  simp [State.putDec]

/-- What CVBD does when it issues. -/
def cvbdRes (e : Nat) (rd rs1 : RegNo) (p : State) : Res :=
  match tagTrap (tagIs tagI64) 0 0 (p.g e rs1).tag with
  | some t => .fault t p
  | none =>
    let r := d15Res (p.g e rs1).val.toInt
    if r.2 ≠ 0 ∧ bits (p.vfcsr e) 16 1 = 1 then decFault e 7 p
    else .done (p.putDec e rd tagDec r)

theorem exec_cvbd : exec (.cvbd e rd rs1) s = .next (s.issue e 4 [.g rs1] (cvbdRes e rd rs1)) := rfl

theorem cvbdRes_done (htag : (s.g e rs1).tag = tagI64) (hquiet : s.decQuiet e (d15Res (s.g e rs1).val.toInt)) :
    cvbdRes e rd rs1 s = .done (s.putDec e rd tagDec (d15Res (s.g e rs1).val.toInt)) := by
  simp only [cvbdRes, tagTrap_tagIs 0 0 (by unfold plainTag; decide) htag, if_neg (State.not_traps_of_decQuiet hquiet)]

theorem wordOfSign_sign (x y : Int) : wordOfSign (x - y).sign = if x < y then -1 else if x = y then 0 else 1 := by
  rcases lt_trichotomy x y with h | h | h
  · rw [if_pos h, Int.sign_eq_neg_one_of_neg (by omega)]
    rfl
  · rw [if_neg h.not_lt, if_pos h, Int.sign_eq_zero_iff_zero.mpr (by omega)]
    rfl
  · rw [if_neg (by omega), if_neg (by omega), Int.sign_eq_one_of_pos (by omega)]
    rfl

end

/-- Settles O9: carries and DADJ by their own results, the D15 instructions by `decRes` of their functions. -/
theorem decimalArithmetic : Obligations.DecimalArithmetic := by
  refine ⟨?_, ?_⟩
  · intro e rd rs1 rs2 s hready ha a b c put
    have ha' : tagNRaw ((s.past e 4).g e rs1).tag = true := by rwa [State.g_past]
    refine ⟨fun hb => ?_, ?_⟩
    · have hb' : tagNRaw ((s.past e 4).g e rs2).tag = true := by rwa [State.g_past]
      have hadd (z : Bool) := State.issue_done hready (addcRes_done (rd := rd) ha' hb' z)
      have hsub (z : Bool) := State.issue_done hready (subbRes_done (rd := rd) ha' hb' z)
      simp only [State.g_past, State.astat_past] at hadd hsub
      exact ⟨congrArg _ (hadd false), congrArg _ (hadd true), congrArg _ (hsub false), congrArg _ (hsub true)⟩
    · have hdadj := State.issue_done (s.ready_mono e 4 _ [.g rs1] hready (by simp)) (dadjRes_done (rd := rd) ha')
      simp only [State.g_past, State.astat_past] at hdadj
      exact congrArg _ hdadj
  · intro e rd rs1 rs2 k s hready a b put quiet
    have hone : s.ready e 4 [.g rs1] := s.ready_mono e 4 _ _ hready (by simp)
    have hput (t : Tag) (r : FRes) : .next (((s.past e 4).putDec e rd t r).countInstr e) = put t r := by rw [State.putDec_past]
    refine ⟨fun hta htb hda hdb => ?_, fun hta hq => ?_, fun hta hda => ?_⟩
    · have hboth : ∀ r ∈ [rs1, rs2], s.holdsDec e r := by simpa [State.holdsDec, hta, htb] using ⟨hda, hdb⟩
      refine ⟨fun hq => ?_, fun hq => ?_, ?_⟩
      · exact (congrArg _ (State.issue_dec tagDec hready hboth hq rfl)).trans (hput _ _)
      · exact (congrArg _ (State.issue_dec tagDec hready hboth hq rfl)).trans (hput _ _)
      · rw [← wordOfSign_sign, ← State.putDec_word]
        exact congrArg _ (State.issue_dec tagI64 hready hboth (.inl rfl) rfl)
    · rw [exec_cvbd, State.issue_done hone (cvbdRes_done (by rwa [State.g_past]) (by simpa [State.decQuiet] using hq)), State.g_past]
      exact hput _ _
    · have hsource : ∀ r ∈ [rs1], s.holdsDec e r := by simpa [State.holdsDec, hta] using hda
      refine ⟨?_, fun hq => ?_, fun hq => ?_⟩
      · rw [← State.putDec_word]
        exact congrArg _ (State.issue_dec tagI64 hone hsource (.inl rfl) rfl)
      · exact (congrArg _ (State.issue_dec tagDec hone hsource hq rfl)).trans (hput _ _)
      · exact (congrArg _ (State.issue_dec tagDec hone hsource hq rfl)).trans (hput _ _)

end Sys2Proof.Machine

/-! PROOFS. Branches and jumps (07 R273 and R274). -/
namespace Sys2Proof.Machine

theorem plainTag_of_tagNFixPtr {t : Tag} (h : tagNFixPtr t = true) : plainTag t := by
  revert t; unfold plainTag; decide

theorem plainTag_of_sameClass {a t : Tag} (ha : plainTag a) (h : sameClass a t = true) : plainTag t := by
  revert a t; unfold plainTag; decide

section
variable {s : State} {e : EngId} {rs1 rs2 rd : RegNo} {off : BitVec 13}

/-- Engine `e` past a branch of 4 bytes, at its target where `c` holds. -/
def State.branched (s : State) (e : Nat) (off : BitVec 13) (c : Bool) : State :=
  if c then (s.past e 4).setPc e (jumpTarget ((s.pc e + 4) % 2 ^ 48) off) else s.past e 4

/-- A branch on a ready engine whose operands carry accepted tags. -/
theorem State.branch_ready {okA : Tag → Bool} {okB : Tag → Tag → Bool} {c : Word → Word → Bool} {taken : Bool}
    (hready : s.ready e 4 [.g rs1, .g rs2]) (hplainA : plainTag (s.g e rs1).tag) (hplainB : plainTag (s.g e rs2).tag)
    (ha : okA (s.g e rs1).tag = true) (hb : okB (s.g e rs1).tag (s.g e rs2).tag = true) (hc : c (s.g e rs1).val (s.g e rs2).val = taken) :
    s.branch e rs1 rs2 off okA okB c = (s.branched e off taken).countInstr e := by
  refine State.issue_done hready ?_
  simp only [State.g_past, State.pc_past, tagTrap_of_plain 0 0 hplainA ha, tagTrap_of_plain 1 0 hplainB hb, firstTrap, hc, State.branched]

theorem State.branchTag_ready {cond : Nat} {code : BitVec 5} {eq taken : Bool} (hready : s.ready e 4 [.g rs1]) (hcode : code.toNat < 16)
    (hc : (((s.g e rs1).tag.toNat == code.toNat) == eq) = taken) :
    s.branchTag e cond rs1 code off eq = (s.branched e off taken).countInstr e := by
  refine State.issue_done hready ?_
  simp only [State.g_past, State.pc_past, if_neg (show ¬ code.toNat ≥ 16 by omega), hc, State.branched]

theorem exec_go_ready {off : BitVec 26} (hready : s.ready e 4 []) :
    exec (.go e off) s = .next (((s.past e 4).setPc e (jumpTarget ((s.pc e + 4) % 2 ^ 48) off)).countInstr e) := by
  rw [← State.pc_past]
  exact congrArg _ (State.issue_done (f := fun t => .done (t.setPc e (jumpTarget (t.pc e) off))) hready rfl)

theorem exec_call_ready {off : BitVec 21} (hready : s.ready e 4 []) :
    exec (.call e rd off) s =
      .next ((((s.past e 4).setG e rd ⟨tagPtr, BitVec.ofNat 64 ((s.pc e + 4) % 2 ^ 48)⟩).setPc e
        (jumpTarget ((s.pc e + 4) % 2 ^ 48) off)).countInstr e) := by
  rw [← State.pc_past]
  exact congrArg _ (State.issue_done
    (f := fun t => .done ((t.setG e rd ⟨tagPtr, BitVec.ofNat 64 (t.pc e)⟩).setPc e (jumpTarget (t.pc e) off))) hready rfl)

/-- GOR to an aligned target within the address space. -/
theorem exec_gor_ready {i : BitVec 16} (hready : s.ready e 4 [.g rs1]) (htag : (s.g e rs1).tag = tagPtr)
    (halign : ((s.g e rs1).val + i.signExtend 64).toNat % 4 = 0) (hspace : ((s.g e rs1).val + i.signExtend 64).toNat < 2 ^ 48) :
    exec (.gor e rd rs1 i) s =
      .next ((((s.past e 4).setG e rd ⟨tagPtr, BitVec.ofNat 64 ((s.pc e + 4) % 2 ^ 48)⟩).setPc e
        ((s.g e rs1).val + i.signExtend 64).toNat).countInstr e) := by
  refine congrArg _ (State.issue_done hready ?_)
  simp only [State.g_past, State.pc_past, tagTrap_tagIs 0 0 (by unfold plainTag; decide) htag, immS, halign, if_pos hspace, Nat.mod_eq_of_lt hspace,
    ne_eq, not_true, if_false]

end

/-- Settles O10: the conditional branches are `State.branch` and `State.branchTag` of their conditions. -/
theorem branchesAndJumps : Obligations.BranchesAndJumps := by
  intro e rs1 rs2 rl code off off26 off21 i s hready a b next br
  have hone : s.ready e 4 [.g rs1] := s.ready_mono e 4 _ _ hready (by simp)
  have hnone : s.ready e 4 [] := s.ready_mono e 4 _ _ hready nofun
  refine ⟨fun hap hae hbp hbe => ⟨?_, ?_⟩, fun ha hb => ?_, fun hcode => ⟨?_, ?_⟩, exec_go_ready hnone, exec_call_ready hnone,
    exec_gor_ready hone, ?_⟩
  · exact congrArg _ (State.branch_ready hready ⟨hap, hae⟩ ⟨hbp, hbe⟩ rfl rfl (Bool.beq_eq_decide_eq _ _))
  · exact congrArg _ (State.branch_ready hready ⟨hap, hae⟩ ⟨hbp, hbe⟩ rfl rfl (by simp [bne, a, b, Bool.beq_eq_decide_eq]))
  · have hplainA := plainTag_of_tagNFixPtr ha
    have run (c : Word → Word → Bool) (taken : Bool) (hc : c a.val b.val = taken) : .next (s.branch e rs1 rs2 off tagNFixPtr sameClass c) = br taken :=
      congrArg _ (State.branch_ready (off := off) hready hplainA (plainTag_of_sameClass hplainA hb) ha hb hc)
    exact ⟨run _ _ rfl, run _ _ (by simp only [BitVec.slt, ← decide_not, not_lt]), run _ _ rfl, run _ _ (by simp only [BitVec.ult, ← decide_not, not_lt])⟩
  · exact congrArg _ (State.branchTag_ready hone hcode (by simp [a, Bool.beq_eq_decide_eq]))
  · exact congrArg _ (State.branchTag_ready hone hcode (by simp [a, Bool.beq_eq_decide_eq]))
  · exact congrArg _ (State.issue_done (f := .done) hnone rfl)

end Sys2Proof.Machine

/-! PROOFS. System instructions and the return from an exception (07 R275 to R277, 09 R326). -/
namespace Sys2Proof.Machine

/-- Two changes of a core that agree on the core that it is. -/
theorem State.modCore_congr {s : State} {e : Nat} {f g : Core → Core} (h : f (s.core e) = g (s.core e)) : s.modCore e f = s.modCore e g := by
  have h' : f (s.engine e).core = g (s.engine e).core := h
  simp only [State.modCore, State.modEngine, h']

section
variable {s : State} {e : EngId} {rd : RegNo}

theorem exec_syscall_ready {code : BitVec 16} (hready : s.ready e 4 []) :
    exec (.syscall e code) s = .next ((s.past e 4).takeException e ((s.pc e + 4) % 2 ^ 48) ⟨cSyscall, 0, code.toNat, 0, true⟩) := by
  rw [← State.pc_past]
  exact congrArg _ (State.issue_fault_next (f := .fault ⟨cSyscall, 0, code.toNat, 0, true⟩) hready rfl rfl)

theorem exec_break_ready (hready : s.ready e 4 []) :
    exec (.break e) s = .next ((s.past e 4).takeException e ((s.pc e + 4) % 2 ^ 48) ⟨cBreak, 0, 0, 0, true⟩) := by
  rw [← State.pc_past]
  exact congrArg _ (State.issue_fault_next (f := .fault ⟨cBreak, 0, 0, 0, true⟩) hready rfl rfl)

/-! Waiting for stores, 10 R352 and R354. -/

/-- The first time a waiting instruction runs, it commits; it goes on where every released store of its bank is visible. -/
theorem State.drained_commits {e pc : Nat} {f : State → Res} (hfence : s.atFence e = false)
    (hout : ((s.commitNow e).drainOut e).outBusy e = false) : s.drained e pc f = f ((s.commitNow e).drainOut e) := by
  simp only [State.drained, hfence, hout, Bool.false_eq_true, if_false]

/-- The engine whose fence is over: the checkpoint holds the core as it stands. -/
def State.unfenced (s : State) (e : Nat) : State := s.modEngine e fun x => { x with ckpt := x.core, fenced := false }

/-- A waiting instruction whose commit stands already makes no other. -/
theorem State.drained_again {e pc : Nat} {f : State → Res} (hfence : s.atFence e = true) (hout : (s.drainOut e).outBusy e = false) :
    s.drained e pc f = f ((s.drainOut e).unfenced e) := by
  have hout' : ((s.drainOut e).unfenced e).outBusy e = false := by
    simpa [State.outBusy, State.unfenced, State.core] using hout
  rw [State.unfenced] at hout'
  simp only [State.drained, hfence, hout', Bool.false_eq_true, if_true, if_false, State.unfenced]

/-- FENCE and FENCE.I go on with the commit that they waited for. -/
theorem exec_fence_kept {t : State} (hready : s.ready e 4 []) (h : (s.past e 4).drained e (s.pc e) .kept = .kept t) :
    exec (.fence e) s = .next t ∧ exec (.fenceI e) s = .next t := by
  have hfence : exec (.fence e) s = .next (s.issue e 4 [] fun u => u.drained e (s.pc e) .kept) := rfl
  have hfenceI : exec (.fenceI e) s = .next (s.issue e 4 [] fun u => u.drained e (s.pc e) .kept) := rfl
  rw [hfence, hfenceI, State.issue_kept hready h]
  exact ⟨rfl, rfl⟩

/-! VWAIT, 03 R121. -/

theorem exec_vwait {mask : BitVec 16} :
    exec (.vwait e mask) s = .next (s.issue e 4 [] fun t => if (t.vsu e (t.core e).run).busy &&& mask.toNat = 0 then .done t else .stall) := rfl

theorem exec_vwait_idle {mask : BitVec 16} (hready : s.ready e 4 []) (h : (s.vsu e (s.core e).run).busy &&& mask.toNat = 0) :
    exec (.vwait e mask) s = .next ((s.past e 4).countInstr e) := by
  rw [exec_vwait, State.issue_done hready]
  exact if_pos (by simpa using h)

theorem exec_vwait_busy {mask : BitVec 16} (hready : s.ready e 4 []) (h : (s.vsu e (s.core e).run).busy &&& mask.toNat ≠ 0) :
    exec (.vwait e mask) s = .next s := by
  rw [exec_vwait, State.issue_stall hready]
  exact if_neg (by simpa using h)

/-! SLOTYIELD, 07 R277. -/

/-- What SLOTYIELD does when it issues. -/
def slotyieldRes (e : Nat) (p : State) : Res :=
  if p.lev e = 3 ∨ (p.lev e = 2 ∧ ((p.engine e).inSlot.isNone ∨ p.tenantSlot e)) then .fault (illegal (encSys 6 0 0)) p else .done (p.closing e)

theorem exec_slotyield : exec (.slotyield e) s = .next (s.issue e 4 [] (slotyieldRes e)) := rfl

theorem exec_slotyield_tenant (hready : s.ready e 4 []) (h : s.lev e ≤ 1) :
    exec (.slotyield e) s = .next (((s.past e 4).closing e).countInstr e) := by
  rw [exec_slotyield, State.issue_done hready]
  refine if_neg ?_
  rw [State.lev_past]
  omega

theorem exec_slotyield_machine (hready : s.ready e 4 []) (h : s.lev e = 3) :
    exec (.slotyield e) s = .next ((s.past e 4).takeException e (s.pc e) (illegal (encSys 6 0 0))) := by
  rw [exec_slotyield, State.issue_fault (x := illegal (encSys 6 0 0)) hready rfl]
  exact if_pos (.inl (by rw [State.lev_past, h]))

/-! Reads of the time, 07 R276. -/

theorem exec_rdtime_ready (hready : s.ready e 4 []) :
    exec (.rdtime e rd) s = .next (((s.past e 4).setG e rd ⟨tagTime, BitVec.ofNat 64 s.time⟩).countInstr e) :=
  congrArg _ (State.issue_done (f := fun t => .done (t.setG e rd ⟨tagTime, BitVec.ofNat 64 t.time⟩)) hready rfl)

theorem exec_rdtai_ready (hready : s.ready e 4 []) :
    exec (.rdtai e rd) s = .next (((s.past e 4).setG e rd ⟨tagU64, BitVec.ofNat 64 s.gav.tai⟩).countInstr e) :=
  congrArg _ (State.issue_done (f := fun t => .done (t.setG e rd ⟨tagU64, BitVec.ofNat 64 t.gav.tai⟩)) hready rfl)

theorem exec_rdtimes_ready (hready : s.ready e 4 []) (heven : rd.toNat % 2 = 0) :
    exec (.rdtimes e rd) s = .next ((((s.past e 4).setG e rd ⟨tagTime, BitVec.ofNat 64 s.time⟩).setG e (rd + 1)
      ⟨tagU64, BitVec.ofNat 64 s.timeState⟩).countInstr e) := by
  refine congrArg _ (State.issue_done hready ?_)
  rw [if_neg (by omega)]
  rfl

/-! RETX, 09 R326. -/

@[simp] theorem State.levBank_past (n l : Nat) : (s.past e n).levBank e l = s.levBank e l := by
  simp [State.levBank]

theorem State.bank_past (n b : Nat) : ((s.past e n).core e).bank b = (s.core e).bank b := by
  rw [State.core_past]
  rfl

theorem State.countNi_of_clear (h : s.niM e = false) : s.countNi e = s := if_neg (by simp [h])

/-- NITIME goes on by a free count, short of the 512 at which NI_TIMEOUT comes (09 R325). -/
theorem State.countNi_of_set (h : s.niM e = true) :
    ∃ n, (s.core e).nitime ≤ n ∧ ((s.core e).nitime < 512 → n < 512) ∧ (512 ≤ (s.core e).nitime → n = (s.core e).nitime) ∧
      s.countNi e = ({ s with free := s.free + 1 } : State).modCore e fun c => { c with nitime := n } := by
  have hcount : s.countNi e = s.takeFree.2.modCore e fun c =>
      if c.nitime < 512 then { c with nitime := c.nitime + s.takeFree.1.toNat % (512 - c.nitime) } else c := if_pos h
  rw [hcount]
  by_cases hlow : (s.core e).nitime < 512
  · have hshort := Nat.mod_lt s.takeFree.1.toNat (show 0 < 512 - (s.core e).nitime by omega)
    exact ⟨(s.core e).nitime + s.takeFree.1.toNat % (512 - (s.core e).nitime), by omega, fun _ => by omega, fun h => by omega,
      State.modCore_congr (if_pos hlow)⟩
  · exact ⟨(s.core e).nitime, le_rfl, fun h => absurd h hlow, fun _ => rfl, State.modCore_congr (if_neg hlow)⟩

/-- The count changes NITIME and the counter of free values alone. -/
theorem State.countNi_frame : (s.countNi e).regs = s.regs ∧ (s.countNi e).mem = s.mem := by
  by_cases h : s.niM e = true
  · obtain ⟨n, _, _, _, hcount⟩ := State.countNi_of_set h
    rw [hcount]
    exact ⟨rfl, rfl⟩
  · rw [State.countNi_of_clear (by simpa using h)]
    exact ⟨rfl, rfl⟩

@[simp] theorem State.levBank_countNi (l : Nat) : (s.countNi e).levBank e l = s.levBank e l := by
  by_cases h : s.niM e = true
  · obtain ⟨n, _, _, _, hcount⟩ := State.countNi_of_set h
    simp [State.levBank, hcount]
    rfl
  · rw [State.countNi_of_clear (by simpa using h)]

/-- The save set of level `l` after its return: SAVED is set, M clears NI, S and P take PIML as IML, and EPROG holds nothing. -/
def SaveSet.popped (x : SaveSet) (l : Nat) : SaveSet :=
  let st := x.estat.toNat
  let st' := if l = 3 then setBits (setBits st 15 1 0) 14 1 1 else setBits (setBits st 10 4 (bits st 6 4)) 14 1 1
  { x with estat := BitVec.ofNat 64 st', eprog := BitVec.ofNat 64 (setBits (setBits x.eprog.toNat 45 1 0) 46 1 0) }

/-- The core after a return from level `l`, whose save set `x` stands in bank `b`. -/
def Core.popped (l b : Nat) (x : SaveSet) (c : Core) : Core :=
  let c := c.unnest l
  { c.setBank b ({ c.bank b with save := x.popped l }.mark 8) with
    run := bits x.estat.toNat 2 3, lev := bits x.estat.toNat 0 2, pc := x.epc.toNat % 2 ^ 48, idle := bits x.estat.toNat 5 1 == 1 }

theorem Core.save_popped (l b : Nat) (x : SaveSet) (c : Core) : ((c.popped l b x).bank b).save = x.popped l := by
  have h := (c.unnest l).bank_setBank b ({ (c.unnest l).bank b with save := x.popped l }.mark 8)
  exact congrArg Bank.save h

/-- SAVED, and what returns with NI or IML. -/
theorem SaveSet.estat_popped (x : SaveSet) (l : Nat) :
    bits (x.popped l).estat.toNat 14 1 = 1 ∧ (l = 3 → bits (x.popped l).estat.toNat 15 1 = 0) ∧
      (l < 3 → bits (x.popped l).estat.toNat 10 4 = bits x.estat.toNat 6 4) := by
  have hst := x.estat.isLt
  have hM : setBits (setBits x.estat.toNat 15 1 0) 14 1 1 < 2 ^ 64 := setBits_lt _ _ _ _ _ (setBits_lt _ _ _ _ _ hst (by decide)) (by decide)
  have hS : setBits (setBits x.estat.toNat 10 4 (bits x.estat.toNat 6 4)) 14 1 1 < 2 ^ 64 :=
    setBits_lt _ _ _ _ _ (setBits_lt _ _ _ _ _ hst (by decide)) (by decide)
  have himl := bits_lt x.estat.toNat 6 4
  simp only [SaveSet.popped, BitVec.toNat_ofNat]
  split_ifs with hl
  · rw [Nat.mod_eq_of_lt hM]
    refine ⟨bits_setBits_same _ _ _ _, fun _ => ?_, fun h => absurd h (by omega)⟩
    rw [bits_setBits_ne _ _ _ _ _ _ (by decide), bits_setBits_same]
    rfl
  · rw [Nat.mod_eq_of_lt hS]
    refine ⟨bits_setBits_same _ _ _ _, fun h => absurd h hl, fun _ => ?_⟩
    rw [bits_setBits_ne _ _ _ _ _ _ (by decide), bits_setBits_same, Nat.mod_eq_of_lt himl]

/-- Engine `e` past a RETX, before what waited for it: NITIME counts on at M. -/
def State.retxFrom (s : State) (e : Nat) : State := if s.lev e = 3 then s.countNi e else s

@[simp] theorem State.levBank_retxFrom (l : Nat) : (s.retxFrom e).levBank e l = s.levBank e l := by
  unfold State.retxFrom
  split_ifs <;> simp

theorem State.retxFrom_frame : (s.retxFrom e).regs = s.regs ∧ (s.retxFrom e).mem = s.mem := by
  unfold State.retxFrom
  split_ifs
  exacts [State.countNi_frame, ⟨rfl, rfl⟩]

/-- RETX outside the escalation handler, with no instruction to resume. -/
theorem retxRes_pops (hlev : 1 ≤ s.lev e) (hfeh : (s.core e).feh = false)
    (hvalid : bits ((s.core e).bank (s.levBank e (s.lev e))).save.eprog.toNat 45 1 = 0) :
    retxRes e s = .done (((s.retxFrom e).modCore e
      (Core.popped (s.lev e) (s.levBank e (s.lev e)) ((s.core e).bank (s.levBank e (s.lev e))).save)).returned e) := by
  have huser : ¬ (s.core e).lev = 0 := Nat.ne_of_gt hlev
  have hhandler : ¬ ((s.core e).lev = 3 ∧ (s.core e).feh = true) := by simp [hfeh]
  have hbank := State.levBank_retxFrom (s := s) (e := e) (s.lev e)
  have hnone : (bits ((s.core e).bank ((s.retxFrom e).levBank e (s.lev e))).save.eprog.toNat 45 1 == 1) = false := by
    rw [hbank, hvalid]
    rfl
  rw [← hbank]
  unfold retxRes
  extract_lets c l r b sv st st' valid sv' owner t1 t2 t3
  have hv : valid = false := hnone
  rw [if_neg huser, if_neg hhandler]
  simp only [t3, t2, hv]
  rfl

theorem exec_retx_user (hready : s.ready e 4 []) (h : s.lev e = 0) :
    exec (.retx e) s = .next ((s.past e 4).takeException e (s.pc e) (privOp (encSys 2 0 0))) :=
  congrArg _ (State.issue_fault hready rfl (if_pos (by rw [← h, ← s.lev_past e 4]; rfl)))

end

/-- Settles O11: the system instructions by what they do when they issue, RETX by the save set that it pops. -/
theorem systemAndReturn : Obligations.SystemAndReturn := by
  refine ⟨?_, ?_⟩
  · intro e rd code mask s hready p
    refine ⟨exec_syscall_ready hready, exec_break_ready hready, fun hfence hout => ?_, fun hfence hout => ?_, exec_vwait_idle hready,
      exec_vwait_busy hready, exec_slotyield_tenant hready, exec_slotyield_machine hready, exec_rdtime_ready hready,
      exec_rdtimes_ready hready, exec_rdtai_ready hready⟩
    · exact exec_fence_kept hready (State.drained_commits hfence hout)
    · exact ⟨(p.drainOut e).unfenced e, rfl, by simp [State.unfenced], exec_fence_kept hready (State.drained_again hfence hout)⟩
  · intro e s hready l sv st
    refine ⟨exec_retx_user hready, fun hlev hfeh hvalid => ?_⟩
    have hpops := retxRes_pops (s := s.past e 4) (e := e) (by rwa [State.lev_past]) (by rwa [State.core_past])
      (by rwa [State.lev_past, State.levBank_past, State.bank_past])
    rw [State.lev_past, State.levBank_past, State.bank_past] at hpops
    obtain ⟨hsaved, hni, himl⟩ := sv.estat_popped l
    obtain ⟨hregs, hmem⟩ := State.retxFrom_frame (s := s.past e 4) (e := e)
    refine ⟨_, congrArg _ (State.issue_done hready hpops), ?_⟩
    have hsave := Core.save_popped l (s.levBank e l) sv (((s.past e 4).retxFrom e).core e)
    rw [State.core_modCore]
    refine ⟨rfl, rfl, rfl, Bool.beq_eq_decide_eq _ _, ?_, fun hl => ?_, fun hl => ?_, hregs, hmem⟩
    · rw [hsave, hsaved]
    · rw [show 7 = s.levBank e l by rw [hl]; rfl, hsave, hni hl]
    · rw [hsave, himl hl]

end Sys2Proof.Machine

/-! PROOFS. Reads and writes of control registers (07 R278 and R279). -/
namespace Sys2Proof.Machine

section
variable {s : State} {e : EngId} {rd rs1 : RegNo} {crn : BitVec 12} {i : CrInfo} {op : Nat}

/-! The program counter is no part of what a control register holds. -/

@[simp] theorem State.niM_past (n : Nat) : (s.past e n).niM e = s.niM e := by
  simp only [State.niM, State.estat, State.bank_past, State.levBank_past]

@[simp] theorem State.selBank_past (n : Nat) : (s.past e n).selBank e = s.selBank e := by
  simp only [State.selBank, State.core_past]

@[simp] theorem State.saveBank_past (n l : Nat) : (s.past e n).saveBank e l = s.saveBank e l := by
  simp only [State.saveBank, State.selBank_past]

@[simp] theorem State.engid_past (n : Nat) : (s.past e n).engid e = s.engid e := by
  simp only [State.engid, State.core_past]
  rfl

@[simp] theorem State.crRead_past (n k : Nat) : (s.past e n).crRead e k = s.crRead e k := by
  simp only [State.crRead, State.runBank_past, State.selBank_past, State.saveBank_past, State.engid_past, State.core_past,
    State.vsu_past]
  rfl

/-! The checks of level and decode, 07 R252 and R279. -/

/-- The VSU registers but VSTAT cannot be read at U level, and none can be written there (03 R118). -/
theorem crInfo_vsu {n : Nat} (hi : crInfo n = some i) (hlow : 0x010 ≤ n) (hhigh : n ≤ 0x014) : (n ≠ 0x010 → 1 ≤ i.rl) ∧ 1 ≤ i.wl := by
  interval_cases n <;> cases hi <;> decide

theorem crTrap_read_none (hi : crInfo crn.toNat = some i) {lev : Nat} (hlev : i.rl ≤ lev) (parcel : Nat) : crTrap lev 0 crn parcel = none := by
  have hvsu : ¬ (lev = 0 ∧ 0x010 ≤ crn.toNat ∧ crn.toNat ≤ 0x014 ∧ (0 ≠ 0 ∨ crn ≠ 0x010)) := by
    rintro ⟨hzero, hlow, hhigh, hcrn⟩
    have hne : crn.toNat ≠ 0x010 := fun h => hcrn.resolve_left (by decide) (BitVec.eq_of_toNat_eq h)
    have := (crInfo_vsu hi hlow hhigh).1 hne
    omega
  unfold crTrap
  rw [hi]
  dsimp only
  rw [if_neg hvsu, if_neg (fun h => h.1 rfl), if_pos rfl, if_neg (by omega)]

theorem crTrap_write_none (hi : crInfo crn.toNat = some i) {lev : Nat} (hlev : i.wl ≤ lev) (hwl : i.wl < 4) (hop : op ≠ 0) (parcel : Nat) :
    crTrap lev op crn parcel = none := by
  have hvsu : ¬ (lev = 0 ∧ 0x010 ≤ crn.toNat ∧ crn.toNat ≤ 0x014 ∧ (op ≠ 0 ∨ crn ≠ 0x010)) := by
    rintro ⟨hzero, hlow, hhigh, _⟩
    have := (crInfo_vsu hi hlow hhigh).2
    omega
  simp only [crTrap, hi, if_neg hvsu, if_neg (show ¬ (op ≠ 0 ∧ i.wl = 4) by omega), if_neg hop, if_neg (show ¬ lev < i.wl by omega)]

theorem crTrap_read_below (hi : crInfo crn.toNat = some i) {lev : Nat} (hlev : lev < i.rl) (parcel : Nat) :
    crTrap lev 0 crn parcel = some (privOp parcel) := by
  simp only [crTrap, hi, if_true, if_pos hlev, ne_eq, not_true, false_and, if_false, ite_self]

/-- At U level a write of a VSU register is privileged before anything else is asked. -/
theorem crTrap_write_illegal (hi : crInfo crn.toNat = some i) {lev : Nat} (hwl : i.wl = 4)
    (hvsu : ¬ (lev = 0 ∧ 0x010 ≤ crn.toNat ∧ crn.toNat ≤ 0x014)) (parcel : Nat) : crTrap lev 1 crn parcel = some (illegal parcel) := by
  have hvsu' : ¬ (lev = 0 ∧ 0x010 ≤ crn.toNat ∧ crn.toNat ≤ 0x014 ∧ (1 ≠ 0 ∨ crn ≠ 0x010)) := fun ⟨hz, hlow, hhigh, _⟩ => hvsu ⟨hz, hlow, hhigh⟩
  simp only [crTrap, hi, if_neg hvsu', if_pos (show 1 ≠ 0 ∧ i.wl = 4 from ⟨by decide, hwl⟩)]

theorem crTrap_write_below (hi : crInfo crn.toNat = some i) {lev : Nat} (hlev : lev < i.wl)
    (h : i.wl < 4 ∨ (lev = 0 ∧ 0x010 ≤ crn.toNat ∧ crn.toNat ≤ 0x014)) (parcel : Nat) : crTrap lev 1 crn parcel = some (privOp parcel) := by
  by_cases hvsu : lev = 0 ∧ 0x010 ≤ crn.toNat ∧ crn.toNat ≤ 0x014
  · obtain ⟨hz, hlow, hhigh⟩ := hvsu
    simp only [crTrap, hi, if_pos (show lev = 0 ∧ 0x010 ≤ crn.toNat ∧ crn.toNat ≤ 0x014 ∧ (1 ≠ 0 ∨ crn ≠ 0x010) from ⟨hz, hlow, hhigh, .inl (by decide)⟩)]
  · have hwl := h.resolve_right hvsu
    have hvsu' : ¬ (lev = 0 ∧ 0x010 ≤ crn.toNat ∧ crn.toNat ≤ 0x014 ∧ (1 ≠ 0 ∨ crn ≠ 0x010)) := fun ⟨hz, hlow, hhigh, _⟩ => hvsu ⟨hz, hlow, hhigh⟩
    simp only [crTrap, hi, if_neg hvsu', if_neg (show ¬ (1 ≠ 0 ∧ i.wl = 4) by omega), if_neg (show ¬ (1 : Nat) = 0 by decide), if_pos hlev]

/-! What an access that passes them does. -/

theorem crRes_faults {x : Trap} (h : crTrap (s.lev e) op crn (encCtl rd rs1 crn op) = some x) : crRes e op rd rs1 crn s = .fault x s := by
  simp only [crRes, h]

/-- The state that a control register is read in: NITIME counts on (09 R325). -/
def State.crState (s : State) (e : Nat) (crn : BitVec 12) : State := if crn = 0x145 then s.countNi e else s

theorem crRes_read (hi : crInfo crn.toNat = some i) (hlev : i.rl ≤ s.lev e) :
    crRes e 0 rd rs1 crn s = .done ((s.crState e crn).setG e rd ⟨tagU64, BitVec.ofNat 64 ((s.crState e crn).crRead e crn.toNat)⟩) := by
  simp only [crRes, crTrap_read_none hi hlev, if_true]
  rfl

/-- A write: the new value is stored and rd, unless it is rs1, takes the old one. -/
theorem crRes_write (hi : crInfo crn.toNat = some i) (hlev : i.wl ≤ s.lev e) (hwl : i.wl < 4) (hop : op ≠ 0) (hwo : op = 1 ∨ i.wo = false)
    (htag : tagN (s.g e rs1).tag = true) (hlock : ¬ (crn = 0x146 ∧ (s.core e).fehLocked = true)) {new : Nat}
    (hnew : crNew i op (s.crRead e crn.toNat) (s.g e rs1).val.toNat = new) (hmode : ¬ (crn = 1 ∧ op ≠ 3 ∧ new % 8 > 4)) :
    crRes e op rd rs1 crn s = .done (if rd = rs1 then s.crStore e crn.toNat new
      else (s.crStore e crn.toNat new).setG e rd ⟨tagU64, BitVec.ofNat 64 (s.crRead e crn.toNat)⟩) := by
  have hnitime : crn ≠ 0x145 := by
    rintro rfl
    cases hi
    exact absurd hwl (by decide)
  have hstore : ¬ (i.wo = true ∧ op ≠ 1) := by
    rintro ⟨hwo', hop'⟩
    simp [hwo.resolve_left hop'] at hwo'
  simp only [crRes, crTrap_write_none hi hlev hwl hop, hi, Option.getD_some, if_neg hnitime, if_neg hop,
    tagTrap_of_plain 0 0 (plainTag_of_tagN htag) htag, hnew, if_neg hmode, if_neg hlock, if_neg hstore]

/-- A write of the locked FEHVEC, 00 R7. -/
theorem crRes_locked (hi : crInfo crn.toNat = some i) (hlev : i.wl ≤ s.lev e) (hwl : i.wl < 4) (hop : op ≠ 0)
    (htag : tagN (s.g e rs1).tag = true) (hcrn : crn = 0x146) (hlock : (s.core e).fehLocked = true) :
    crRes e op rd rs1 crn s = fehLockedRes s := by
  subst hcrn
  have hmode {new : Nat} : ¬ ((0x146 : BitVec 12) = 0x001 ∧ op ≠ 3 ∧ new % 8 > 4) := fun h => absurd h.1 (by decide)
  simp only [crRes, crTrap_write_none hi hlev hwl hop, if_neg (show ¬ (0x146 : BitVec 12) = 0x145 by decide), if_neg hop,
    tagTrap_of_plain 0 0 (plainTag_of_tagN htag) htag, if_neg hmode, hlock, and_self, if_true]

/-- The instruction of an operation: CRR, CRW, CRS or CRC. -/
theorem exec_crr : exec (.crr e rd crn) s = .next (s.issue e 4 [] (crRes e 0 rd 0 crn)) := rfl
theorem exec_crw : exec (.crw e rd rs1 crn) s = .next (s.issue e 4 [.g rs1] (crRes e 1 rd rs1 crn)) := rfl
theorem exec_crs : exec (.crs e rd rs1 crn) s = .next (s.issue e 4 [.g rs1] (crRes e 2 rd rs1 crn)) := rfl
theorem exec_crc : exec (.crc e rd rs1 crn) s = .next (s.issue e 4 [.g rs1] (crRes e 3 rd rs1 crn)) := rfl

end

/-- Settles O12: an access passes the checks of `crTrap` or faults with what they give. -/
theorem controlRegisterAccess : Obligations.ControlRegisterAccess := by
  intro e rd rs1 crn i s hready hi p old v w1c keep put vsuAtU
  have hnone : s.ready e 4 [] := s.ready_mono e 4 _ _ hready nofun
  have hlevp : p.lev e = s.lev e := State.lev_past _ _ _
  have hgp : p.g e rs1 = s.g e rs1 := State.g_past _ _ _ _
  have holdp : p.crRead e crn.toNat = old := State.crRead_past _ _
  have write (op : Nat) {new : Nat} (hop : op ≠ 0) (hwo : op = 1 ∨ i.wo = false) (hlev : i.wl ≤ s.lev e) (hwl : i.wl < 4)
      (htag : tagN (s.g e rs1).tag = true) (hlock : ¬ (crn = 0x146 ∧ (s.core e).fehLocked = true)) (hnew : crNew i op old v = new)
      (hmode : ¬ (crn = 1 ∧ op ≠ 3 ∧ new % 8 > 4)) : .next (s.issue e 4 [.g rs1] (crRes e op rd rs1 crn)) = put (p.crStore e crn.toNat new) := by
    have hdone := crRes_write (rd := rd) hi (by rwa [hlevp]) hwl hop hwo (by rwa [hgp]) (by rwa [State.core_past])
      (by rw [holdp, hgp]; exact hnew) hmode
    rw [State.issue_done hready hdone, holdp]
  refine ⟨fun hlev hni => ?_, fun hlev hcrn hni => ?_, fun hlev hwl htag => ⟨fun hlock => ⟨fun hmode => ?_, fun hwo hmode => ?_, fun hwo => ?_⟩,
    fun hcrn hlock => ?_⟩, fun hlev => ?_, fun hwl hvsu => ?_, fun hlev hwl => ?_⟩
  · have hstate : p.crState e crn = p := by
      unfold State.crState
      split_ifs with hcrn
      · exact State.countNi_of_clear (by rw [State.niM_past]; exact hni hcrn)
      · rfl
    rw [exec_crr, State.issue_done hnone (crRes_read hi (by rwa [hlevp])), hstate, holdp]
  · obtain ⟨n, hle, hbelow, hstay, hcount⟩ := State.countNi_of_set (s := p) (e := e) (by rwa [State.niM_past])
    have holdn : old = (p.core e).nitime := by rw [← holdp, hcrn]; rfl
    have hstate : p.crState e crn = ({ p with free := p.free + 1 } : State).modCore e fun c => { c with nitime := n } := (if_pos hcrn).trans hcount
    have hread : (({ p with free := p.free + 1 } : State).modCore e fun c => { c with nitime := n }).crRead e crn.toNat = n := by
      rw [hcrn]
      exact congrArg Core.nitime (State.core_modCore _ e _)
    refine ⟨n, by rwa [holdn], fun h => hbelow (by rwa [← holdn]), fun h => (hstay (by rwa [← holdn])).trans holdn.symm, ?_⟩
    rw [exec_crr, State.issue_done hnone (crRes_read hi (by rwa [hlevp])), hstate, hread]
  · rw [exec_crw]
    exact write 1 (by decide) (.inl rfl) hlev hwl htag hlock rfl fun h => hmode ⟨h.1, h.2.2⟩
  · rw [exec_crs]
    exact write 2 (by decide) (.inr hwo) hlev hwl htag hlock rfl fun h => hmode ⟨h.1, h.2.2⟩
  · rw [exec_crc]
    exact write 3 (by decide) (.inr hwo) hlev hwl htag hlock rfl fun h => h.2.1 rfl
  · have locked (op : Nat) (hop : op ≠ 0) : s.issue e 4 [.g rs1] (crRes e op rd rs1 crn) =
        ({ p with free := p.free + 1 } : State).takeException e (s.pc e) (trap cPerm (p.takeFree.1.toNat % 2 ^ 48) (accEscr 1 errPerm)) :=
      State.issue_fault hready rfl (crRes_locked hi (by rwa [hlevp]) hwl hop (by rwa [hgp]) hcrn (by rwa [State.core_past]))
    refine ⟨p.takeFree.1.toNat % 2 ^ 48, ?_⟩
    simp only [List.forall_mem_cons, exec_crw, exec_crs, exec_crc, locked 1 (by decide), locked 2 (by decide), locked 3 (by decide), true_and]
    nofun
  · rw [exec_crr, State.issue_fault hnone rfl (crRes_faults (crTrap_read_below hi (by rwa [hlevp]) _))]
  · rw [exec_crw, State.issue_fault hready rfl (crRes_faults (crTrap_write_illegal hi hwl (by rwa [hlevp]) _))]
  · rw [exec_crw, State.issue_fault hready rfl (crRes_faults (crTrap_write_below hi (by rwa [hlevp]) (by rwa [hlevp]) _))]

end Sys2Proof.Machine

/-! PROOFS. Scalar floating point (07 R281, 04 R169). -/
namespace Sys2Proof.Machine

/-! Formats and numbers. -/

theorem Fmt.neg_eq (g : Fmt) (x : Nat) : g.neg x = x ^^^ 2 ^ (g.width - 1) := rfl

theorem Fmt.abs_eq (g : Fmt) (x : Nat) : g.abs (x % 2 ^ g.width) = x % 2 ^ g.width % 2 ^ (g.width - 1) := by
  have hlt : x % 2 ^ g.width < 2 ^ (g.ew + g.mw) * 2 ^ 1 := by
    rw [← pow_add]
    exact Nat.mod_lt _ (by positivity)
  have hzero : x % 2 ^ g.width / 2 ^ (g.ew + g.mw) / 2 ^ 1 = 0 := by
    rw [Nat.div_div_eq_div_mul]
    exact Nat.div_eq_of_lt hlt
  rw [Fmt.abs, setBits_eq, hzero]
  simp [Fmt.width]

theorem trapCause_zero (v : Nat) : trapCause 0 v = 0 := by simp [trapCause, bits]

theorem toSigned_toNat (w : Word) : toSigned 64 w.toNat = w.toInt := by
  have := w.isLt
  rw [toSigned, BitVec.toInt_eq_toNat_cond]
  split_ifs <;> omega

theorem intOf_toNat (uns : Bool) (w : Word) : intOf (!uns) 64 w.toNat = if uns then (w.toNat : Int) else w.toInt := by
  cases uns
  · exact toSigned_toNat w
  · rw [intOf, Nat.mod_eq_of_lt w.isLt]
    rfl

section
variable {s : State} {e : EngId} {fd fa fb rd : RegNo} {fmt : BitVec 2} {rm : BitVec 3} {g : Fmt} {r : FRes}

@[simp] theorem State.rmOf_past (n : Nat) : (s.past e n).rmOf e rm = s.rmOf e rm := by
  simp only [State.rmOf, State.vfcsr_past]

/-- The flags of a result, if any, are ORed into VFCSR. -/
def State.addFlags (s : State) (e v : Nat) (r : FRes) : State := if r.2 = 0 then s else s.setVfcsr e (orFlags v r.2)

/-- A result that raises no enabled trap is delivered. -/
theorem fpFinish_quiet (hquiet : trapCause r.2 (s.vfcsr e) = 0) (w : State → Nat → State) :
    fpFinish e r w s = .done ((w s r.1).addFlags e (s.vfcsr e) r) := by
  simp only [fpFinish, hquiet, State.addFlags]
  rfl

/-- An FP instruction of a format and a rounding mode that are not reserved. -/
theorem State.fpOp_ready {srcs : List RegRef} {parcel : Nat} {f : Fmt → Nat → State → FRes} (hready : s.ready e 4 srcs)
    (hfmt : fmtOf fmt = some g) (hrm : rm.toNat ≤ 5) (hquiet : trapCause r.2 (s.vfcsr e) = 0) (hr : f g (s.rmOf e rm) (s.past e 4) = r) :
    s.fpOp e fmt rm parcel f fd srcs = ((((s.past e 4).setF e fd (BitVec.ofNat 64 r.1)).addFlags e (s.vfcsr e) r).countInstr e) := by
  refine State.issue_done hready ?_
  simp only [hfmt, if_neg (show ¬ rm.toNat > 5 by omega), State.rmOf_past, hr]
  rw [fpFinish_quiet (by rwa [State.vfcsr_past]), State.vfcsr_past]

/-- A result without flags, whatever traps are enabled. -/
theorem State.fpOp_exact {srcs : List RegRef} {parcel x : Nat} {f : Fmt → Nat → State → FRes} (hready : s.ready e 4 srcs)
    (hfmt : fmtOf fmt = some g) (hr : f g (s.rmOf e 0) (s.past e 4) = (x, 0)) :
    s.fpOp e fmt 0 parcel f fd srcs = ((s.past e 4).setF e fd (BitVec.ofNat 64 x)).countInstr e := by
  rw [State.fpOp_ready (r := (x, 0)) hready hfmt (by decide) (trapCause_zero _) hr, State.addFlags, if_pos rfl]

theorem exec_fcmp_ready {cond : BitVec 3} {sig : Bool} (hready : s.ready e 4 [.f fa, .f fb]) (hfmt : fmtOf fmt = some g) (hcond : cond ≠ 7)
    (hr : g.cmp cond.toNat sig (fpArg g (s.f e fa)) (fpArg g (s.f e fb)) = r) (hquiet : trapCause r.2 (s.vfcsr e) = 0) :
    exec (.fcmp e rd fa fb fmt cond sig) s =
      .next ((((s.past e 4).setG e rd ⟨tagI64, BitVec.ofNat 64 r.1⟩).addFlags e (s.vfcsr e) r).countInstr e) := by
  refine congrArg _ (State.issue_done hready ?_)
  simp only [hfmt, if_neg hcond, State.f_past, hr]
  rw [fpFinish_quiet (by rwa [State.vfcsr_past]), State.vfcsr_past]

theorem exec_fcvtFi_ready {uns : Bool} (hready : s.ready e 4 [.g fa]) (hfmt : fmtOf fmt = some g) (hrm : rm.toNat ≤ 5)
    (htag : tagN (s.g e fa).tag = true)
    (hr : g.ofInt (s.rmOf e rm) (if uns then ((s.g e fa).val.toNat : Int) else (s.g e fa).val.toInt) 0 = r)
    (hquiet : trapCause r.2 (s.vfcsr e) = 0) :
    exec (.fcvtFi e fd fa uns fmt rm) s =
      .next ((((s.past e 4).setF e fd (BitVec.ofNat 64 r.1)).addFlags e (s.vfcsr e) r).countInstr e) := by
  refine congrArg _ (State.issue_done hready ?_)
  simp only [hfmt, if_neg (show ¬ rm.toNat > 5 by omega), State.g_past, tagTrap_of_plain 0 0 (plainTag_of_tagN htag) htag, State.rmOf_past,
    intOf_toNat, hr]
  rw [fpFinish_quiet (by rwa [State.vfcsr_past]), State.vfcsr_past]

theorem exec_fcvtIf_ready {uns : Bool} (hready : s.ready e 4 [.f fa]) (hfmt : fmtOf fmt = some g) (hrm : rm.toNat ≤ 5)
    (hr : g.toIntRes (s.rmOf e rm) 0 (intLo (!uns) 64) (intHi (!uns) 64) 64 (fpArg g (s.f e fa)) = r)
    (hquiet : trapCause r.2 (s.vfcsr e) = 0) :
    exec (.fcvtIf e rd fa uns fmt rm) s =
      .next ((((s.past e 4).setG e rd ⟨if uns then tagU64 else tagI64, BitVec.ofNat 64 r.1⟩).addFlags e (s.vfcsr e) r).countInstr e) := by
  refine congrArg _ (State.issue_done hready ?_)
  simp only [hfmt, if_neg (show ¬ rm.toNat > 5 by omega), State.f_past, State.rmOf_past, hr]
  rw [fpFinish_quiet (by rwa [State.vfcsr_past]), State.vfcsr_past]

theorem exec_fmvGf_ready (hready : s.ready e 4 [.g fa]) (htag : plainTag (s.g e fa).tag) :
    exec (.fmvGf e fd fa) s = .next (((s.past e 4).setF e fd (s.g e fa).val).countInstr e) := by
  refine congrArg _ (State.issue_done hready ?_)
  simp only [State.g_past, tagTrap_tagAny 0 0 htag]

/-- The format that FMT names gives the tag of FMV.FG. -/
theorem tag_of_fmtOf (hfmt : fmtOf fmt = some g) :
    (if g = f64 then tagF64 else if g = f32 then tagF32x2 else tagI16x4) = if fmt = 2 then tagF64 else if fmt = 1 then tagF32x2 else tagI16x4 := by
  have hall : ∀ x : BitVec 2, x = 0 ∨ x = 1 ∨ x = 2 ∨ x = 3 := by decide
  obtain rfl | rfl | rfl | rfl := hall fmt <;> cases hfmt <;> rfl

theorem exec_fmvFg_ready (hready : s.ready e 4 [.f fa]) (hfmt : fmtOf fmt = some g) :
    exec (.fmvFg e rd fa fmt) s =
      .next (((s.past e 4).setG e rd ⟨if fmt = 2 then tagF64 else if fmt = 1 then tagF32x2 else tagI16x4, s.f e fa⟩).countInstr e) := by
  refine congrArg _ (State.issue_done hready ?_)
  simp only [hfmt, State.f_past, tag_of_fmtOf hfmt]

end

/-- Settles O13: arithmetic by `State.fpOp` of its function, the others by their own effect, delivered by `fpFinish`. -/
theorem floatingPoint : Obligations.FloatingPoint := by
  refine ⟨?_, ?_⟩
  · intro e fd fa fb fmt rm num g s hready hfmt a b d r put quiet
    have htwo : s.ready e 4 [.f fa, .f fb] := s.ready_mono e 4 _ _ hready (by simp)
    have hone : s.ready e 4 [.f fa] := s.ready_mono e 4 _ _ hready (by simp)
    have hfa : (s.past e 4).f e fa = s.f e fa := State.f_past _ _ _ _
    have hfb : (s.past e 4).f e fb = s.f e fb := State.f_past _ _ _ _
    have hfd : (s.past e 4).f e fd = s.f e fd := State.f_past _ _ _ _
    refine ⟨fun hrm => ⟨fun hq => ?_, fun hq => ?_, fun hq => ?_, fun hq => ?_, fun hq => ?_, fun hq => ?_⟩, fun hq => ?_, fun hq => ?_, ?_, ?_⟩
    · exact congrArg _ (State.fpOp_ready htwo hfmt hrm hq (by rw [hfa, hfb]; rfl))
    · exact congrArg _ (State.fpOp_ready htwo hfmt hrm hq (by rw [hfa, hfb]; rfl))
    · exact congrArg _ (State.fpOp_ready htwo hfmt hrm hq (by rw [hfa, hfb]; rfl))
    · exact congrArg _ (State.fpOp_ready hready hfmt hrm hq (by rw [hfa, hfb, hfd]; rfl))
    · exact congrArg _ (State.fpOp_ready htwo hfmt hrm hq (by rw [hfa, hfb]; rfl))
    · exact congrArg _ (State.fpOp_ready hone hfmt hrm hq (by rw [hfa]; rfl))
    · exact congrArg _ (State.fpOp_ready htwo hfmt (by decide) hq (by rw [hfa, hfb]; rfl))
    · exact congrArg _ (State.fpOp_ready htwo hfmt (by decide) hq (by rw [hfa, hfb]; rfl))
    · exact congrArg _ (State.fpOp_exact hone hfmt (by rw [hfa]; rfl))
    · exact congrArg _ (State.fpOp_exact hone hfmt (by rw [hfa, fpArg, Fmt.abs_eq]))
  · intro e rd fd fa fb src fmt rm cond sig uns g s hready hfmt a b r flags quiet p
    have htwo : s.ready e 4 [.f fa, .f fb] := s.ready_mono e 4 _ _ hready (by simp)
    have hone : s.ready e 4 [.f fa] := s.ready_mono e 4 _ _ hready (by simp)
    have hgen : s.ready e 4 [.g fa] := s.ready_mono e 4 _ _ hready (by simp)
    refine ⟨fun hcond hq => ?_, fun q hsrc hne hrm hq => ?_, fun hrm htag hq => ?_, fun hrm hq => ?_, fun hp he => ?_, ?_⟩
    · exact exec_fcmp_ready htwo hfmt hcond rfl hq
    · have hdest : (if src = fmt ∨ src = 3 then 3 else fmt) = fmt := if_neg (by rintro (h | rfl); exacts [hne h, by cases hsrc])
      refine congrArg _ (State.fpOp_ready hone (by rwa [hdest]) hrm hq ?_)
      rw [hsrc, State.f_past]
      rfl
    · exact exec_fcvtFi_ready hgen hfmt hrm htag rfl hq
    · exact exec_fcvtIf_ready hone hfmt hrm rfl hq
    · exact exec_fmvGf_ready hgen ⟨hp, he⟩
    · exact exec_fmvFg_ready hone hfmt

end Sys2Proof.Machine

/-! PROOFS. Loads (07 R265, R266, R269 and R281). -/
namespace Sys2Proof.Machine

section
variable {s p t : State} {e : EngId} {rd rs1 : RegNo} {imm : BitVec 16} {pa : Nat} {ws rest : List TWord} {w : TWord} {k : PendKind}

@[simp] theorem Bank.setGs_nil (x : Bank) : x.setGs [] = x := rfl
@[simp] theorem Bank.setGs_cons (x : Bank) (q : Nat × TWord) (l : List (Nat × TWord)) : x.setGs (q :: l) = (x.setG q.1 q.2).setGs l := rfl

/-- A read of `n` bytes at the effective address `a` goes to the physical address `pa`, whose line answers OK with the words `ws`. -/
def State.readsLine (p : State) (e pa : Nat) (a : Word) (n : Nat) (ws : List TWord) (t : State) : Prop :=
  p.dataAddr e a n 0 = .pa pa ∧ p.uncached pa = false ∧ p.loadLine e pa (p.keyid e) = some (respOk, ws, t)

/-- A load of memory whose words carry accepted tags. -/
theorem State.loadAcc_done {a : MemOp} {xs : List TWord} {r : Nat} (h : p.readsLine e pa a.ea k.size ws t)
    (hxs : (ws.drop (pa % 64 / 8)).take (if k.size = 32 then 4 else 1) = xs) (htrap : loadTrap k a.ea.toNat xs = none) :
    p.loadAcc e a k r = .done (t.modRun e fun x => (x.putLoad k r (pa % 8) xs).setGs a.post) := by
  obtain ⟨haddr, hcached, hline⟩ := h
  simp only [State.loadAcc, haddr, hcached, hline, hxs, htrap, Bool.false_eq_true, if_false, ne_eq, not_true]

theorem State.loadRes_done {a : MemOp} {xs : List TWord} {r : Nat} (hbase : tagBase (p.g e rs1).tag = true)
    (h : p.readsLine e pa a.ea k.size ws t) (hxs : (ws.drop (pa % 64 / 8)).take (if k.size = 32 then 4 else 1) = xs)
    (htrap : loadTrap k a.ea.toNat xs = none) :
    p.loadRes e rs1 a k r = .done (t.modRun e fun x => (x.putLoad k r (pa % 8) xs).setGs a.post) := by
  simp only [State.loadRes, tagTrap_of_plain 0 0 (plainTag_of_tagBase hbase) hbase, State.loadAcc_done h hxs htrap]

/-! The tags that a load accepts, 07 R266. -/

theorem loadTrap_load {n ea : Nat} {sg : Bool} (hw : plainTag w.tag) : loadTrap (.load n sg false) ea [w] = none := by
  simp [loadTrap, tagTrap_tagAny 3 _ hw]

theorem loadTrap_fload8 {ea : Nat} (hw : w.tag = tagF64 ∨ w.tag = tagRaw) : loadTrap (.fload 8) ea [w] = none := by
  obtain ⟨tag, v⟩ := w
  obtain rfl | rfl := hw <;> rfl

theorem loadTrap_fload4 {ea : Nat} (hw : w.tag = tagF32x2 ∨ w.tag = tagRaw) : loadTrap (.fload 4) ea [w] = none := by
  obtain ⟨tag, v⟩ := w
  obtain rfl | rfl := hw <;> rfl

theorem loadTrap_vload {et ea : Nat} {xs : List TWord} (h : ∀ x ∈ xs, x.tag.toNat = etTag et ∧ plainTag x.tag) :
    loadTrap (.vload et) ea xs = none := by
  have hnone : (xs.zipIdx.filterMap fun q => tagTrap (fun t => t.toNat == etTag et) 3 (ea + 8 * q.2) q.1.tag) = [] := by
    rw [List.filterMap_eq_nil_iff]
    intro q hq
    obtain ⟨htag, hplain⟩ := h q.1 (List.fst_mem_of_mem_zipIdx hq)
    exact tagTrap_of_plain 3 _ hplain (beq_iff_eq.mpr htag)
  simp only [loadTrap, hnone, List.head?_nil]

/-- A load of one word with an offset on a ready engine. -/
theorem State.issueLoad_ready (hready : s.ready e 4 [.g rs1]) (hbase : tagBase (s.g e rs1).tag = true)
    (h : (s.past e 4).readsLine e pa ((s.g e rs1).val + imm.signExtend 64) k.size ws t) (hsize : k.size ≠ 32)
    (hdrop : ws.drop (pa % 64 / 8) = w :: rest) (htrap : ∀ ea, loadTrap k ea [w] = none) :
    s.issueLoad e rd rs1 imm k = (t.modRun e fun b => b.putLoad k rd.toNat (pa % 8) [w]).countInstr e := by
  refine State.issue_done hready ?_
  rw [State.g_past]
  exact State.loadRes_done (by rwa [State.g_past]) h (by rw [hdrop, if_neg hsize]; rfl) (htrap _)

/-- LDP and FLDP leave rs1 incremented, whatever they load (07 R269). -/
theorem ldpRes_done (hbase : tagBase (p.g e rs1).tag = true) (hne : rd ≠ rs1) (h : p.readsLine e pa (p.g e rs1).val 8 ws t)
    (hdrop : ws.drop (pa % 64 / 8) = w :: rest) (hw : plainTag w.tag) (pc next : Nat) :
    ldpRes e rd rs1 imm pc next [] p = .done (t.modRun e fun b => (b.setG rd.toNat w).setG rs1.toNat (bumped (p.g e rs1) imm)) := by
  rw [ldpRes, if_neg hne, State.loadRes_done (xs := [w]) hbase h (by rw [hdrop]; rfl) (loadTrap_load hw)]
  rfl

theorem fldpRes_done (hbase : tagBase (p.g e rs1).tag = true) (hne : rd ≠ rs1) (h : p.readsLine e pa (p.g e rs1).val 8 ws t)
    (hdrop : ws.drop (pa % 64 / 8) = w :: rest) (hw : w.tag = tagF64 ∨ w.tag = tagRaw) (pc next : Nat) :
    fldpRes e rd rs1 imm pc next [] p = .done (t.modRun e fun b => (b.setF rd.toNat w.val).setG rs1.toNat (bumped (p.g e rs1) imm)) := by
  rw [fldpRes, if_neg hne, State.loadRes_done (xs := [w]) hbase h (by rw [hdrop]; rfl) (loadTrap_fload8 hw)]
  rfl

theorem exec_ldp_ready (hready : s.ready e 4 [.g rs1]) (hbase : tagBase (s.g e rs1).tag = true) (hne : rd ≠ rs1)
    (h : (s.past e 4).readsLine e pa (s.g e rs1).val 8 ws t) (hdrop : ws.drop (pa % 64 / 8) = w :: rest) (hw : plainTag w.tag) :
    exec (.ldp e rd rs1 imm) s =
      .next ((t.modRun e fun b => (b.setG rd.toNat w).setG rs1.toNat (bumped (s.g e rs1) imm)).countInstr e) := by
  rw [← s.g_past e 4 rs1] at hbase h ⊢
  exact congrArg _ (State.issue_done (f := fun u => ldpRes e rd rs1 imm (s.pc e) (u.pc e) [] u) hready (ldpRes_done hbase hne h hdrop hw _ _))

theorem exec_fldp_ready (hready : s.ready e 4 [.g rs1]) (hbase : tagBase (s.g e rs1).tag = true) (hne : rd ≠ rs1)
    (h : (s.past e 4).readsLine e pa (s.g e rs1).val 8 ws t) (hdrop : ws.drop (pa % 64 / 8) = w :: rest)
    (hw : w.tag = tagF64 ∨ w.tag = tagRaw) :
    exec (.fldp e rd rs1 imm) s =
      .next ((t.modRun e fun b => (b.setF rd.toNat w.val).setG rs1.toNat (bumped (s.g e rs1) imm)).countInstr e) := by
  rw [← s.g_past e 4 rs1] at hbase h ⊢
  exact congrArg _ (State.issue_done (f := fun u => fldpRes e rd rs1 imm (s.pc e) (u.pc e) [] u) hready (fldpRes_done hbase hne h hdrop hw _ _))

/-- The destination of a load that increments its base register is another register. -/
theorem exec_ldp_same (hready : s.ready e 4 [.g rs1]) (heq : rd = rs1) :
    exec (.ldp e rd rs1 imm) s = .next ((s.past e 4).takeException e (s.pc e) (illegal (encImm 0x24 rd rs1 imm))) :=
  congrArg _ (State.issue_fault (f := fun u => ldpRes e rd rs1 imm (s.pc e) (u.pc e) [] u) hready rfl (if_pos heq))

theorem exec_fldp_same (hready : s.ready e 4 [.g rs1]) (heq : rd = rs1) :
    exec (.fldp e rd rs1 imm) s = .next ((s.past e 4).takeException e (s.pc e) (illegal (encImm 0x26 rd rs1 imm))) :=
  congrArg _ (State.issue_fault (f := fun u => fldpRes e rd rs1 imm (s.pc e) (u.pc e) [] u) hready rfl (if_pos heq))

/-- VLD: four words, each with the tag of ETYPE, 07 R250. -/
theorem exec_vld_ready {vd : BitVec 3} {et : BitVec 4} {imm14 : BitVec 14} {w1 w2 w3 : TWord} {r : List TWord} (hready : s.ready e 4 [.g rs1])
    (hbase : tagBase (s.g e rs1).tag = true) (het : et.toNat < 14)
    (htags : ∀ x ∈ [w, w1, w2, w3], x.tag.toNat = etTag et.toNat ∧ plainTag x.tag)
    (h : (s.past e 4).readsLine e pa ((s.g e rs1).val + imm14.signExtend 64 * 32) 32 ws t)
    (hdrop : ws.drop (pa % 64 / 8) = w :: w1 :: w2 :: w3 :: r) :
    exec (.vld e vd et rs1 imm14) s = .next ((t.modRun e fun b => (((b.setF (4 * vd.toNat) w.val).setF (4 * vd.toNat + 1) w1.val).setF
      (4 * vd.toNat + 2) w2.val).setF (4 * vd.toNat + 3) w3.val).countInstr e) := by
  refine congrArg _ (State.issue_done hready ?_)
  rw [if_neg (by omega), State.g_past, State.loadRes_done (xs := [w, w1, w2, w3]) (by rwa [State.g_past]) h (by rw [hdrop]; rfl)
    (loadTrap_vload htags)]
  rfl

end

/-- Settles O30: each load reads its line as `State.loadAcc` does, and `Bank.putLoad` gives its result. -/
theorem loadResults : Obligations.LoadResults := by
  intro e rd fd rs1 imm imm14 vd et pa ws rest w s p t hready hp hbase base ea reads part put putG plain post
  subst hp
  have line {a : Word} {n : Nat} (h : reads a n) : (s.past e 4).readsLine e pa a n ws t ∧ ws.drop (pa % 64 / 8) = w :: rest := by
    obtain ⟨haddr, hcached, hline, hdrop⟩ := h
    exact ⟨⟨haddr, hcached, hline⟩, hdrop⟩
  have run (r : RegNo) (k : PendKind) (n : Nat) (hk : k.size = n) (hsize : k.size ≠ 32) (h : reads ea n) (htrap : ∀ a, loadTrap k a [w] = none) :
      .next (s.issueLoad e r rs1 imm k) = put fun b => b.putLoad k r.toNat (pa % 8) [w] := by
    subst hk
    rw [State.issueLoad_ready hready hbase (line h).1 hsize (line h).2 htrap]
  refine ⟨fun h hw => ?_, fun h => ?_, fun h hw => ⟨?_, ?_⟩, fun h hw => ⟨?_, ?_⟩, fun h hw => ⟨?_, ?_⟩, fun h hw hne => ?_, fun heq => ?_,
    fun heq => ?_, fun hw => ⟨fun h => ?_, fun h hne => ?_⟩, fun hw h => ?_, ?_⟩
  · exact run rd (.load 8 false false) 8 rfl (by decide) h fun _ => loadTrap_load hw
  · exact run rd (.load 8 false true) 8 rfl (by decide) h fun _ => rfl
  · exact run rd (.load 4 true false) 4 rfl (by decide) h fun _ => loadTrap_load hw
  · exact run rd (.load 4 false false) 4 rfl (by decide) h fun _ => loadTrap_load hw
  · exact run rd (.load 2 true false) 2 rfl (by decide) h fun _ => loadTrap_load hw
  · exact run rd (.load 2 false false) 2 rfl (by decide) h fun _ => loadTrap_load hw
  · exact run rd (.load 1 true false) 1 rfl (by decide) h fun _ => loadTrap_load hw
  · exact run rd (.load 1 false false) 1 rfl (by decide) h fun _ => loadTrap_load hw
  · exact exec_ldp_ready hready hbase hne (line h).1 (line h).2 hw
  · exact exec_ldp_same hready heq
  · exact exec_fldp_same hready heq
  · exact run fd (.fload 8) 8 rfl (by decide) h fun _ => loadTrap_fload8 hw
  · exact exec_fldp_ready hready hbase hne (line h).1 (line h).2 hw
  · exact run fd (.fload 4) 4 rfl (by decide) h fun _ => loadTrap_fload4 hw
  · intro w1 w2 w3 r het hrest htags h
    subst hrest
    exact exec_vld_ready hready hbase het htags (line h).1 (line h).2

end Sys2Proof.Machine

/-! PROOFS. Stores (07 R265, R267 to R269, 10 R353). -/
namespace Sys2Proof.Machine

theorem length_take_bytesOf (w : Word) {n : Nat} (h : n ≤ 8) : ((bytesOf w).take n).length = n := by
  rw [List.length_take, bytesOf_length, Nat.min_eq_left h]

section
variable {s p t : State} {e : EngId} {rs fs rs1 : RegNo} {imm : BitVec 16} {pa : Nat} {ws : List TWord} {old : TWord} {a : MemOp}
  {bs : List Byte} {ts : List Tag} {packed : Tag}

/-- A write of `n` bytes at the effective address `a` goes to the physical address `pa` of memory, which no long vector holds back. -/
def State.goesTo (p : State) (e pa : Nat) (a : Word) (n : Nat) : Prop :=
  p.dataAddr e a n 1 = .pa pa ∧ p.uncached pa = false ∧ p.lvHazard e (pa / 64) true = false

/-- Engine `e` with a store of `bs` with the tags `ts` in its gated store buffer, and the registers that the access writes. -/
def State.gated (u : State) (e pa : Nat) (a : MemOp) (bs : List Byte) (ts : List Tag) : State :=
  (u.modEngine e fun x => { x with stores := x.stores ++ [⟨(u.core e).run, pa, a.ea.toNat % 2 ^ 48, bs, ts, u.keyid e⟩] }).modRun e fun x =>
    x.setGs a.post

theorem State.gate_of_room {pc : Nat} {g : GStore} (h : (s.engine e).stores.length < 64) :
    s.gate e pc g = s.modEngine e fun x => { x with stores := x.stores ++ [g] } := by
  simp only [State.gate, if_neg (show ¬ (s.engine e).stores.length ≥ 64 by omega)]

theorem State.storeAcc_whole (h : p.goesTo e pa a.ea bs.length) (hroom : (p.engine e).stores.length < 64) :
    p.storeAcc e a bs (.whole ts) = .done (p.gated e pa a bs ts) := by
  obtain ⟨haddr, hcached, hhazard⟩ := h
  simp only [State.storeAcc, haddr, hcached, hhazard, State.gate_of_room hroom, Bool.false_eq_true, if_false]
  rfl

/-- A store of less than a word finds an old tag that it accepts, 07 R268. -/
theorem State.storeAcc_packed (h : p.goesTo e pa a.ea bs.length) (hline : p.loadLine e pa (p.keyid e) = some (respOk, ws, t))
    (hroom : (t.engine e).stores.length < 64) (hold : ws.getD (pa % 64 / 8) twPoison = old)
    (htag : old.tag = tagRaw ∨ old.tag = tagEmpty ∨ old.tag = packed) :
    p.storeAcc e a bs (.packed packed) = .done (t.gated e pa a bs [if old.tag = tagRaw then tagRaw else packed]) := by
  obtain ⟨haddr, hcached, hhazard⟩ := h
  simp only [State.storeAcc, haddr, hcached, hhazard, hline, hold, packTrap, if_pos htag, State.gate_of_room hroom, Bool.false_eq_true, if_false,
    ne_eq, not_true]
  rfl

/-- The checks of a store on a base and data that it accepts. -/
theorem State.storeRes_accepts {data : Option Trap} {tg : StTag} (hbase : tagBase (p.g e rs1).tag = true) (hdata : data = none) :
    p.storeRes e rs1 data a bs tg = p.storeAcc e a bs tg := by
  simp only [State.storeRes, tagTrap_of_plain 0 0 (plainTag_of_tagBase hbase) hbase, hdata, firstTrap]

section
variable {rr : List RegRef} {f : State → Res} {data : Option Trap} (hready : s.ready e 4 rr) (hbase : tagBase (s.g e rs1).tag = true)
  (hdata : data = none) (h : (s.past e 4).goesTo e pa a.ea bs.length)
include hready hbase hdata h

/-- A store of whole words on a ready engine with room in its buffer. -/
theorem State.issueStore_whole (hroom : (s.engine e).stores.length < 64)
    (hf : f (s.past e 4) = (s.past e 4).storeRes e rs1 data a bs (.whole ts)) :
    s.issue e 4 rr f = ((s.past e 4).gated e pa a bs ts).countInstr e := by
  have hroom' : ((s.past e 4).engine e).stores.length < 64 := by simpa [State.past, State.setPc] using hroom
  exact State.issue_done hready (by rw [hf, State.storeRes_accepts (by rwa [State.g_past]) hdata, State.storeAcc_whole h hroom'])

/-- A store of less than a word on a ready engine, into a line that can be read. -/
theorem State.issueStore_packed (hline : (s.past e 4).loadLine e pa ((s.past e 4).keyid e) = some (respOk, ws, t))
    (hroom : (t.engine e).stores.length < 64) (hold : ws.getD (pa % 64 / 8) twPoison = old)
    (htag : old.tag = tagRaw ∨ old.tag = tagEmpty ∨ old.tag = packed)
    (hf : f (s.past e 4) = (s.past e 4).storeRes e rs1 data a bs (.packed packed)) :
    s.issue e 4 rr f = (t.gated e pa a bs [if old.tag = tagRaw then tagRaw else packed]).countInstr e :=
  State.issue_done hready
    (by rw [hf, State.storeRes_accepts (by rwa [State.g_past]) hdata, State.storeAcc_packed h hline hroom hold htag])

end

/-- The register of a store that increments its base register is another register. -/
theorem exec_stp_same (hready : s.ready e 4 [.g rs, .g rs1]) (heq : rs = rs1) :
    exec (.stp e rs rs1 imm) s = .next ((s.past e 4).takeException e (s.pc e) (illegal (encImm 0x25 rs rs1 imm))) :=
  congrArg _ (State.issue_fault (f := fun u => stpRes e rs rs1 imm (s.pc e) (u.pc e) [] u) hready rfl (if_pos heq))

theorem exec_fsdp_same (hready : s.ready e 4 [.f fs, .g rs1]) (heq : fs = rs1) :
    exec (.fsdp e fs rs1 imm) s = .next ((s.past e 4).takeException e (s.pc e) (illegal (encImm 0x27 fs rs1 imm))) :=
  congrArg _ (State.issue_fault (f := fun u => fsdpRes e fs rs1 imm (s.pc e) (u.pc e) [] u) hready rfl (if_pos heq))

end

/-- Settles O31: every store passes the checks of `State.storeRes`, and `State.storeAcc` gates it. -/
theorem storeEffects : Obligations.StoreEffects := by
  intro e rs fs rs1 imm imm14 vs et pa ws old s p t hready hp hbase hroom base d ea goes put post merged tg
  subst hp
  have hg (r : RegNo) : (s.past e 4).g e r = s.g e r := State.g_past _ _ _ _
  have hf (r : RegNo) : (s.past e 4).f e r = s.f e r := State.f_past _ _ _ _
  have hint : s.ready e 4 [.g rs, .g rs1] := s.ready_mono e 4 _ _ hready (by simp)
  have hfp : s.ready e 4 [.f fs, .g rs1] := s.ready_mono e 4 _ _ hready (by simp)
  have hvec : s.ready e 4 [.v vs, .g rs1] := s.ready_mono e 4 _ _ hready (by simp)
  have word {a : Word} {w : Word} (h : goes a 8) : (s.past e 4).goesTo e pa a (bytesOf w).length := by rwa [bytesOf_length]
  have part {w : Word} {n : Nat} (hn : n ≤ 8) (h : goes ea n) : (s.past e 4).goesTo e pa ea ((bytesOf w).take n).length := by
    rwa [length_take_bytesOf w hn]
  let off : MemOp := ⟨ea, s.pc e, (s.past e 4).pc e, []⟩
  let inc : MemOp := ⟨base.val, s.pc e, (s.past e 4).pc e, [(rs1.toNat, bumped base imm)]⟩
  have hoff : s.offAcc (s.past e 4) e rs1 imm = off := by
    rw [State.offAcc, hg]
    rfl
  have packed (n : Nat) (hn : n ≤ 8) (q : Tag) (htag : tagNRaw d.tag = true) (h : merged n q) :
      .next (s.issue e 4 [.g rs, .g rs1] fun u => subStore e rs rs1 n q (s.offAcc u e rs1 imm) u) = put t ea ((bytesOf d.val).take n) [tg q] id := by
    obtain ⟨haddr, hline, hroomt, hold, hpacked⟩ := h
    exact congrArg _ (State.issueStore_packed (a := off) hint hbase (tagTrap_of_plain 2 0 (plainTag_of_tagNRaw htag) htag) (part hn haddr) hline hroomt hold
      hpacked (by simp only [subStore, hoff, hg]; rfl))
  refine ⟨fun hp he => ⟨fun h => ?_, fun h hne => ?_⟩,
    fun htag => ⟨packed 4 (by decide) _ htag, packed 2 (by decide) _ htag, packed 1 (by decide) _ htag⟩, fun h => ?_, fun h hne => ?_,
    exec_stp_same hint, exec_fsdp_same hfp, fun h => ?_, fun het h => ?_⟩
  · exact congrArg _ (State.issueStore_whole (a := off) hint hbase (tagTrap_tagAny 2 0 ⟨hp, he⟩) (word h) hroom
      (by rw [hoff, hg]))
  · exact congrArg _ (State.issueStore_whole (a := inc) hint hbase
      (tagTrap_tagAny 2 0 ⟨hp, he⟩) (word h) hroom (by rw [stpRes, if_neg hne, hg, hg]))
  · exact congrArg _ (State.issueStore_whole (a := off) hfp hbase rfl (word h) hroom (by rw [hoff, hf]))
  · exact congrArg _ (State.issueStore_whole (a := inc) hfp hbase rfl
      (word h) hroom (by rw [fsdpRes, if_neg hne, hg, hf]))
  · obtain ⟨haddr, hline, hroomt, hold, hpacked⟩ := h
    exact congrArg _ (State.issueStore_packed (a := off) hfp hbase rfl (part (by decide) haddr) hline hroomt hold
      hpacked (by rw [hoff, hf]))
  · have hbytes (w : Nat → Word) : ((List.range 4).flatMap fun i => bytesOf (w i)).length = 32 := by simp [List.length_flatMap]
    exact congrArg _ (State.issueStore_whole (a := ⟨base.val + imm14.signExtend 64 * 32, s.pc e, (s.past e 4).pc e, []⟩) hvec hbase rfl
      (by rw [hbytes]; exact h) hroom (by rw [if_neg (by omega), hg, State.runBank_past]))

end Sys2Proof.Machine

/-! PROOFS. Locked sequences and the responses that the core waits for (07 R270 to R272, 10 R354, 11 R397 to R403). -/
namespace Sys2Proof.Machine
open Reg

section
variable {s p u : State} {e : EngId} {rd rs1 rs2 : RegNo} {pa : Nat}

/-! Locked accesses, 07 R272. -/

/-- A waiting instruction goes on in the state `u` that its commit leaves. -/
theorem State.drained_to {t : State} {pc : Nat} {f : State → Res} (hfence : t.atFence e = false) (hu : u = (t.commitNow e).drainOut e)
    (hout : u.outBusy e = false) : t.drained e pc f = f u := by
  rw [hu] at hout ⊢
  exact State.drained_commits hfence hout

/-- The access of a locked instruction, which has no offset. -/
def State.lockedOp (s : State) (e : Nat) (rs1 : RegNo) : MemOp := ⟨(s.g e rs1).val, s.pc e, (s.pc e + 4) % 2 ^ 48, []⟩

section
variable (hfence : (s.past e 4).atFence e = false) (hu : u = ((s.past e 4).commitNow e).drainOut e) (hout : u.outBusy e = false)
  (hbase : tagBase (s.g e rs1).tag = true)
include hfence hu hout hbase

theorem exec_lkld_ready (hready : s.ready e 4 [.g rs1]) (haddr : (s.past e 4).dataAddr e (s.g e rs1).val 8 0 = .pa pa)
    (hserves : (s.past e 4).sliceServes e pa = true) (hhazard : (s.past e 4).lvHazard e (pa / 64) false = false) :
    exec (.lkld e rd rs1) s = .next ((u.sent e (s.lockedOp e rs1) .lkld rd.toNat pa none).arrive
      { mid := clusterOf e, pos := posOf e, id := 510, key := (s.past e 4).keyid e, line := pa / 64, op := .lkld }) := by
  refine congrArg _ (State.issue_kept hready ?_)
  simp only [State.g_past, State.pc_past, tagTrap_of_plain 0 0 (plainTag_of_tagBase hbase) hbase, haddr, hserves, hhazard, Bool.not_true,
    Bool.false_eq_true, if_false, State.drained_to hfence hu hout, State.lockedOp]

/-- The store of an LKST reaches the slice whose lock the engine holds. -/
theorem exec_lkst_ready {k : Nat} {r : Nat × State} (hready : s.ready e 4 [.g rs1, .g rs2])
    (haddr : (s.past e 4).dataAddr e (s.g e rs1).val 8 1 = .pa pa) (hserves : (s.past e 4).sliceServes e pa = true)
    (hhazard : (s.past e 4).lvHazard e (pa / 64) true = false) (hdata : plainTag (s.g e rs2).tag)
    (hheld : u.heldSlice (clusterOf e) (posOf e) = some k)
    (hr : r = u.lkst k (clusterOf e) (posOf e) (pa / 64) ((s.past e 4).keyid e)
      ((bytesOf (s.g e rs2).val).zipIdx.map fun p => (pa % 64 + p.2, p.1)) [(pa % 64 / 8, (s.g e rs2).tag)]) :
    exec (.lkst e rd rs1 rs2) s =
      .next ((r.2.modEngine e fun x => { x with lock := none }).sent e (s.lockedOp e rs1) .lkst rd.toNat pa (some (r.1, []))) := by
  show execLkst e rd rs1 rs2 s = _
  unfold execLkst
  rw [State.issue_ready _ _ _ _ _ hready]
  simp only [State.g_past, State.pc_past, tagTrap_of_plain 0 0 (plainTag_of_tagBase hbase) hbase, tagTrap_tagAny 1 0 hdata, firstTrap]
  simp only [haddr, hserves, hhazard, Bool.and_false, Bool.false_eq_true, if_false]
  rw [State.drained_to hfence hu hout]
  simp only [hheld, if_true, ← hr]
  rfl

theorem exec_lkrel_ready (hready : s.ready e 4 [.g rs1]) (haddr : (s.past e 4).dataAddr e (s.g e rs1).val 8 0 = .pa pa) :
    exec (.lkrel e rs1) s = .next (((u.lkrel (clusterOf e) (posOf e)).modEngine e fun x => { x with lock := none }).sent e (s.lockedOp e rs1)
      .ack 0 pa (some (respOk, []))) := by
  refine congrArg _ (State.issue_kept hready ?_)
  simp only [State.g_past, State.pc_past, tagTrap_of_plain 0 0 (plainTag_of_tagBase hbase) hbase, haddr, State.drained_to hfence hu hout,
    State.lockedOp]

end

/-- LOCK_BREAK lets the 32 XCLK of the lock's timer pass, 11 R399. -/
theorem exec_lockBreak_held {sl : Fin 32} {v : State} (h : (s.lockUnit sl).held = true)
    (hv : v = s.pass ((s.lockUnit sl).since + 32 - s.gav.xclk) ((s.lockUnit sl).since + 32 - s.gav.xclk)) :
    exec (.lockBreak sl) s = .next (v.breakLock sl) := by
  show execLockBreak sl s = _
  rw [hv, execLockBreak, if_pos h]

/-! Deferred errors, 07 R271. -/

theorem exec_storeDeferredError_due {d : DefErr} (henter : s.canEnter e = true) (hdue : s.boundary e = some (.deferred d)) :
    exec (.storeDeferredError e) s =
      .next ((s.modAsync e fun c => { c with deferred := c.deferred.erase d }).takeException e (s.pc e) ⟨d.cause, d.ea, d.escr, 2 ^ 46, false⟩) := by
  show Host.Outcome.next _ = _
  simp only [henter, hdue, Bool.not_true, Bool.false_eq_true, if_false]

/-! Lines for the caches of an engine, 11 R416. -/

theorem State.ccCheck_of_clean {c l : Nat} (h : s.ccFlaw c l = .clean) : s.ccCheck c l = s := by
  simp only [State.ccCheck, h]

section
variable {line : LineNo} {data : Bool} (hcore : s.inCore (clusterOf e) (posOf e) data line = false)
  (hbarred : s.dramBarred (clusterOf e) (posOf e) line = false)
include hcore hbarred

theorem exec_cacheLineFill_hit (hcached : s.cached e line = true) (hflaw : s.ccFlaw (clusterOf e) line = .clean) :
    exec (.cacheLineFill e line data) s =
      .next ((s.count (CLU_CC_HIT (clusterOf e)) CLU_CC_HIT_COUNT 1).fillCore (clusterOf e) (posOf e) data line) := by
  have hclean : (s.count (CLU_CC_HIT (clusterOf e)) CLU_CC_HIT_COUNT 1).ccCheck (clusterOf e) line =
      s.count (CLU_CC_HIT (clusterOf e)) CLU_CC_HIT_COUNT 1 := State.ccCheck_of_clean hflaw
  show Host.Outcome.next _ = _
  simp only [hcore, hbarred, hcached, hclean, hflaw, Bool.or_self, Bool.false_eq_true, if_false, if_true, reduceCtorEq]

theorem exec_cacheLineFill_miss (hcached : s.cached e line = false) :
    exec (.cacheLineFill e line data) s =
      .next (((s.count (CLU_CC_MISS (clusterOf e)) CLU_CC_MISS_COUNT 1).setCcFlaw (clusterOf e) line .clean).arrive
        { mid := clusterOf e, pos := posOf e, id := 509, key := s.keyid e, line := line, op := .rdS (some data) }) := by
  show Host.Outcome.next _ = _
  simp only [hcore, hbarred, hcached, Bool.or_self, Bool.false_eq_true, if_false]

end

/-! Responses, 10 R354. -/

/-- The oldest access whose response is there is answered. -/
theorem exec_accessResponse_result {x : PendAccess} {resp : Nat} {ws : List TWord} {host : Option (Vector Word 4)}
    (hfind : (s.engine e).pend.find? PendAccess.ready = some x) (hresult : x.result = some (resp, ws)) :
    exec (.accessResponse e host) s =
      .next (s.answerAccess e x resp (if x.kind = .lkld then (ws.drop (x.pa % 64 / 8)).take 1 else ws)) := by
  show Host.Outcome.next _ = _
  simp only [hfind, hresult]

/-- A load that is answered OK writes its register in the bank that sent it, and commits outside a recovery. -/
theorem State.answerAccess_load {x : PendAccess} {n : Nat} {sg any : Bool} {ws : List TWord} (hkind : x.kind = .load n sg any)
    (htrap : loadTrap (.load n sg any) x.ea ws = none) (hrecov : s.flag (ENG_TNG_STAT e) ENG_TNG_STAT_RECOV = false) :
    s.answerAccess e x respOk ws = ((s.modEngine e fun y => { y with pend := y.pend.erase x }).modAsync e fun c =>
      c.setBank x.bank (((c.bank x.bank).putLoad (.load n sg any) x.rd 0 ws).setGs x.post)).commitPoint e := by
  have hpend : pendTrap x respOk ws = none := by simp only [pendTrap, hkind, ne_eq, not_true, if_false, htrap]
  simp only [State.answerAccess, hpend, hkind, hrecov, reduceCtorEq, Bool.false_eq_true, if_false]

/-- An LKLD that is refused after its bank was left defers its error (09 R322). -/
theorem State.answerAccess_lkld_refused {x : PendAccess} {ws : List TWord} (hkind : x.kind = .lkld) (hbank : (s.core e).run ≠ x.bank) :
    s.answerAccess e x errLock ws =
      (s.modEngine e fun y => { y with pend := y.pend.erase x }).deferErr e ⟨x.bank, cBus, x.ea % 2 ^ 48, accEscr 0 errLock⟩ := by
  have hpend : pendTrap x errLock ws = some (respTrap 0 errLock x.ea) := by simp only [pendTrap, hkind]; rfl
  have hlate : x.kind.late = false := by rw [hkind]; rfl
  simp only [State.answerAccess, hpend, hlate, hbank, false_and, Bool.false_eq_true, if_false]
  rfl

end

/-- Settles O32: locked accesses wait for earlier stores, and each response and deferred error goes where its own lemma says. -/
theorem locksAndResponses : Obligations.LocksAndResponses := by
  intro e rd rs1 rs2 pa sl line data host s p u v
  refine ⟨fun hready hp hfence hu hout hbase => ?_, fun hheld hv => ?_, fun d => exec_storeDeferredError_due,
    fun hcore hbarred => ⟨exec_cacheLineFill_hit hcore hbarred, exec_cacheLineFill_miss hcore hbarred⟩,
    fun x ws n sg any hfind hkind hresult htrap hrecov => ?_, fun x ws hfind hkind hresult hbank => ?_⟩
  · subst hp
    have hone : s.ready e 4 [.g rs1] := s.ready_mono e 4 _ _ hready (by simp)
    refine ⟨exec_lkld_ready hfence hu hout hbase hone, fun k r d haddr hserves hhazard hd hpoison hempty hheld hr => ?_,
      exec_lkrel_ready hfence hu hout hbase hone⟩
    subst hd
    exact exec_lkst_ready hfence hu hout hbase hready haddr hserves hhazard ⟨hpoison, hempty⟩ hheld hr
  · rw [exec_lockBreak_held hheld hv, State.breakLock]
  · rw [exec_accessResponse_result hfind hresult, hkind, if_neg (by simp), State.answerAccess_load hkind htrap hrecov]
  · rw [exec_accessResponse_result hfind hresult, State.answerAccess_lkld_refused hkind hbank]

end Sys2Proof.Machine

/-! PROOFS. The repeat forms and customer instructions (07 R282 to R284, 08 R289 to R297). -/
namespace Sys2Proof.Machine

/-! Repeats, 07 R282 to R284. -/

section
variable {s : State} {e n iters : Nat} {gc : RegNo} {b : RepBody}

section
variable (hready : s.ready e 8 (.g gc :: ((repRegs b).getD []).map .g ++ repF b))
include hready

theorem State.rep_ready :
    s.rep e n gc b iters =
      match s.repTrap e n gc b with
      | some t => s.takeException e (s.pc e) t
      | none => if (s.g e gc).val = 0 then (s.past e 8).countInstr e else (repRun iters e gc b (s.pc e) s).repBusy e n gc (s.pc e) := by
  obtain ⟨hissue, hawaits, hfirst, hsecond⟩ := hready
  simp only [State.rep, hissue, hawaits, hfirst, hsecond (by decide), Bool.not_false, Bool.and_self, if_true, Option.orElse_none]
  rfl

theorem State.rep_faults {t : Trap} (h : s.repTrap e n gc b = some t) : s.rep e n gc b iters = s.takeException e (s.pc e) t := by
  rw [State.rep_ready hready, h]

theorem State.rep_done (h : s.repTrap e n gc b = none) (hzero : (s.g e gc).val = 0) : s.rep e n gc b iters = (s.past e 8).countInstr e := by
  rw [State.rep_ready hready, h]
  exact if_pos hzero

theorem State.rep_runs (h : s.repTrap e n gc b = none) (hcount : (s.g e gc).val ≠ 0) :
    s.rep e n gc b iters = (repRun iters e gc b (s.pc e) s).repBusy e n gc (s.pc e) := by
  rw [State.rep_ready hready, h]
  exact if_neg hcount

end

/-- What makes a repeat legal, 07 R282 and R283. -/
theorem State.repTrap_none {l : List RegNo} (hregs : repRegs b = some l) (hgc : gc ∉ l) (htag : tagN (s.g e gc).tag = true)
    (hnest : n = 1 → 2 ≤ s.lev e ∧ (s.g e gc).val.toNat ≤ 256) : s.repTrap e n gc b = none := by
  have hlev : ¬ (n = 1 ∧ s.lev e < 2) := fun ⟨hn, hlow⟩ => absurd (hnest hn).1 (by omega)
  have hlong : ¬ (n = 1 ∧ 256 < (s.g e gc).val.toNat) := fun ⟨hn, hhigh⟩ => absurd (hnest hn).2 (by omega)
  simp only [State.repTrap, hregs, List.contains_eq_mem, hgc, hlev, hlong, tagTrap_of_plain 0 0 (plainTag_of_tagN htag) htag,
    decide_false, Bool.false_eq_true, if_false]

theorem State.repTrap_level {l : List RegNo} (hregs : repRegs b = some l) (hgc : gc ∉ l) (hlev : s.lev e < 2) :
    s.repTrap e 1 gc b = some (privOp (encRep 1 gc.toNat)) := by
  simp only [State.repTrap, hregs, List.contains_eq_mem, hgc, hlev, decide_false, Bool.false_eq_true, and_self, if_false, if_true]

/-- A repeat that is no REP.N is never in progress between its iterations. -/
theorem State.repBusy_plain {pc : Nat} : s.repBusy e 0 gc pc = s.clearBusy e := if_neg fun ⟨h, _⟩ => absurd h (by decide)

/-- One iteration of a register ALU instruction takes 1 from the count. -/
theorem repRun_alu_one {t : State} {op : AluOp} {rd rs1 rs2 : RegNo} (hop : aluBinary op = true) (hcount : (s.g e gc).val ≠ 0)
    (hrun : aluRes e op rd rs1 rs2 (if (s.g e gc).val = 1 then s.past e 8 else s.setPc e (s.pc e)) = .done t) :
    repRun 1 e gc (.alu op rd rs1 rs2) (s.pc e) s = (t.setG e gc ⟨(t.g e gc).tag, (t.g e gc).val - 1⟩).countInstr e := by
  have hnext : (if (s.g e gc).val = 1 then s.past e 8 else s.setPc e (s.pc e)) =
      s.setPc e (if (s.g e gc).val = 1 then (s.pc e + 8) % 2 ^ 48 else s.pc e) := (apply_ite (s.setPc e) _ _ _).symm
  rw [hnext] at hrun
  simp only [repRun, hcount, if_false, repIter, hop, Bool.true_eq_false, false_and, hrun, regIter, lessOne]

end

/-! Customer instructions, 08 R289 to R297. -/

section
variable {s : State} {e n : Nat} {o : CustOp} {m : MRun} {w : Mw}

@[simp] theorem State.core_takeFree : s.takeFree.2.core e = s.core e := rfl

/-- Which microwords an engine finds does not depend on the free words taken. -/
theorem State.microFetch_takeFree (ma : Nat) : s.takeFree.2.microFetch e ma = s.microFetch e ma := rfl

theorem State.ucFinds_takeFree (ma : Nat) : s.takeFree.2.ucFinds e ma = s.ucFinds e ma := rfl

/-- A microword that writes a G register with a tag of its own, and nothing else, holds that write. -/
theorem microWrite_rd {a b : TWord} {v : Word} {r : AluOut} (hrdst : mwRdst w = 1) (hrsel : mwRsel w = 0) (hrtm : mwRtm w = 2)
    (hastw : mwAstw w = 0) (hcnt : mwCnt w = 0) :
    microWrite s e o m w a b v r = some { m with held := m.held ++ [.g o.rd ⟨BitVec.ofNat 4 (mwRtag w), v⟩] } := by
  simp only [microWrite, microReg, hrdst, hrsel, hrtm, hastw, hcnt, Option.map_some, OfNat.ofNat_ne_zero, OfNat.ofNat_ne_one, if_false]

/-- A microword without a port operation that passes its checks and dispatches ends the instruction, 08 R297. -/
theorem microRun_dispatches {m' : MRun} (hfetch : s.microFetch e ((s.engine e).ustore.trapped m.ma) = .ok w)
    (hclean : s.ucFinds e ((s.engine e).ustore.trapped m.ma) = .clean) (hckpt : mwCkpt w = 0) (hdop : mwDop w = 0) (hexc : mwExc w = 0)
    (hseq : mwSeq w = 4) {a b : TWord} (ha : microSrc s e o m w (mwAsel w) = a) (hb : microSrc s e o m w (mwBsel w) = b)
    (htags : microTags m w a b = none) {r : AluOut} (hr : microAlu w a.val b.val (s.astat e) s.takeFree.1.toNat = r)
    (hwrite : microWrite s.takeFree.2 e o m w a b (microShift w (BitVec.ofNat 64 r.v) b.val) r = some m') :
    microRun e o (n + 1) m s = .done (s.takeFree.2.microDisp e o m') := by
  simp only [microRun, hfetch, hclean, reduceCtorEq, if_false, ha, hb, htags, hr, State.microPort, hdop, hwrite, hexc, hseq, hckpt, ne_eq,
    not_true, if_true, zero_ne_one]

end

section
variable {s : State} {e : EngId} {gc rd rs1 rs2 : RegNo} {iters : Nat} {op : AluOp}

/-- The legal register body of a repeat reads and writes three registers; the count register is none of them. -/
theorem repRegs_alu (hop : aluBinary op = true) : repRegs (.alu op rd rs1 rs2) = some [rd, rs1, rs2] := by
  rw [repRegs, if_pos hop]

theorem exec_repI_other (hready : s.ready e 8 [.g gc]) :
    exec (.repI e gc .other iters) s = .next (s.takeException e (s.pc e) (illegal (encRep 0 gc.toNat))) :=
  congrArg _ (State.rep_faults (b := .other) hready rfl)

end

section
variable {s p : State} {e : EngId} {rd rs1 rs2 : RegNo} {x : BitVec 7} {sub : Fin 16} {parcel : Nat}
  (hready : s.ready e 4 allRegs) (hp : p = s.past e 4)
  (hparcel : parcel = 0x3F * 2 ^ 26 + rd.toNat * 2 ^ 21 + rs1.toNat * 2 ^ 16 + rs2.toNat * 2 ^ 11 + x.toNat * 2 ^ 4 + sub.val)
include hready hp hparcel

theorem exec_customer_invalid (hvalid : p.flag (Reg.ENG_UDEC e sub) Reg.ENG_UDEC_VALID = false) :
    exec (.customerInstruction e rd rs1 rs2 x sub) s = .next (p.takeException e (s.pc e) (illegal parcel)) := by
  subst hp hparcel
  refine congrArg _ (State.issue_fault hready rfl ?_)
  simp only [hvalid, Bool.not_false, if_true]

theorem exec_customer_level (hvalid : p.flag (Reg.ENG_UDEC e sub) Reg.ENG_UDEC_VALID = true)
    (hlow : s.lev e < p.rd (Reg.ENG_UDEC e sub) Reg.ENG_UDEC_MINLEV) :
    exec (.customerInstruction e rd rs1 rs2 x sub) s = .next (p.takeException e (s.pc e) (privOp parcel)) := by
  subst hp hparcel
  refine congrArg _ (State.issue_fault hready rfl ?_)
  simp only [hvalid, Bool.not_true, Bool.false_eq_true, if_false, State.lev_past, hlow, if_true]

/-- A customer instruction whose microwords run to their end. -/
theorem exec_customer_runs {m : MRun} {t : State} (hvalid : p.flag (Reg.ENG_UDEC e sub) Reg.ENG_UDEC_VALID = true)
    (hlevel : p.rd (Reg.ENG_UDEC e sub) Reg.ENG_UDEC_MINLEV ≤ s.lev e)
    (hm : m = ⟨0x5000 + p.rd (Reg.ENG_UDEC e sub) Reg.ENG_UDEC_ENTRY, [], 0, List.replicate 8 ⟨tagRaw, 0⟩,
      ⟨p.takeFree.1.extractLsb' 0 4, p.takeFree.1⟩, 0, [], []⟩)
    (hrun : ∀ n, microRun e ⟨rd.toNat, rs1.toNat, rs2.toNat, x.toNat, parcel, s.pc e⟩ (n + 1) m p.takeFree.2 = .done t) :
    exec (.customerInstruction e rd rs1 rs2 x sub) s = .next (t.countInstr e) := by
  obtain ⟨n, hfuel⟩ : ∃ n, microFuel = n + 1 := ⟨2 ^ 32 - 1, by norm_num [microFuel]⟩
  have hdone := hrun n
  subst hp hparcel hm
  refine congrArg _ (State.issue_done hready ?_)
  simp only [hvalid, Bool.not_true, Bool.false_eq_true, if_false, State.lev_past, Nat.not_lt.mpr hlevel, hfuel]
  exact hdone

end

/-- Settles O33: a repeat by its count, a customer instruction by its entry and its one microword. -/
theorem repeatAndCustomerInstructions : Obligations.RepeatAndCustomerInstructions := by
  constructor
  · intro e gc rd rs1 rs2 op n s t hready htag hrd hrs1 hrs2 hop goes less
    have hregs : repRegs (.alu op rd rs1 rs2) = some [rd, rs1, rs2] := repRegs_alu hop
    have hgc : gc ∉ [rd, rs1, rs2] := by simp [hrd, hrs1, hrs2]
    have hbody : s.ready e 8 (.g gc :: ((repRegs (.alu op rd rs1 rs2)).getD []).map .g ++ repF (.alu op rd rs1 rs2)) := by
      rw [hregs]
      exact hready
    have hplain : s.repTrap e 0 gc (.alu op rd rs1 rs2) = none := State.repTrap_none hregs hgc htag nofun
    refine ⟨fun hzero => congrArg _ (State.rep_done hbody hplain hzero), fun hcount hrun => ?_, fun hlev hfew => ⟨fun hzero => ?_, fun hcount hrun => ?_⟩,
      fun hlev => congrArg _ (State.rep_faults hbody (State.repTrap_level hregs hgc hlev)), exec_repI_other (s.ready_mono e 8 _ _ hready (by simp))⟩
    · refine congrArg _ ((State.rep_runs hbody hplain hcount).trans ?_)
      rw [repRun_alu_one hop hcount hrun, State.repBusy_plain]
    · exact congrArg _ (State.rep_done hbody (State.repTrap_none hregs hgc htag fun _ => ⟨hlev, hfew⟩) hzero)
    · refine congrArg _ ((State.rep_runs hbody (State.repTrap_none hregs hgc htag fun _ => ⟨hlev, hfew⟩) hcount).trans ?_)
      rw [repRun_alu_one hop hcount hrun]
  · intro e rd rs1 rs2 x sub w m s p hready hp parcel go o free a b out
    refine ⟨exec_customer_invalid hready hp rfl, exec_customer_level hready hp rfl,
      fun hvalid hlevel hm hfetch hclean hckpt htags hdop hrdst hrsel hrtm hastw hcnt hexc hseq => ?_⟩
    have hheld : m.held = [] := by rw [hm]
    have hastat : free.2.astat e = s.astat e := by rw [State.astat_congr (State.core_takeFree), hp, State.astat_past]
    refine exec_customer_runs hready hp rfl hvalid hlevel hm fun n =>
      microRun_dispatches hfetch hclean hckpt hdop hexc hseq rfl rfl htags (congrArg (microAlu w _ _ · _) hastat) ?_
    rw [microWrite_rd hrdst hrsel hrtm hastw hcnt, hheld]
    rfl

end Sys2Proof.Machine

/-! PROOFS. Entries to a level and held exceptions (09 R310 to R327). -/
namespace Sys2Proof.Machine
open Reg

/-! The save set that an entry writes, 09 R318. -/

section
variable (c : Core) (l : Nat)

/-- The bank whose save set and EVEC serve level `l`: bank 7 at M, bank 6 at P, the running bank below. -/
def Core.entryBank : Nat := if l = 3 then 7 else if l = 2 then 6 else c.run

/-- ESTAT after an entry to level `l` from the context of `c`, where ESTAT of the level held `old`. -/
def Core.entryStat (old : Nat) : Nat :=
  let base := c.lev + c.run * 4 + b2n c.idle * 32
  if l = 3 then base + 2 ^ 15 else base + bits old 10 4 * 2 ^ 6 + 15 * 2 ^ 10

/-- An entry saves where it came from, clears SAVED, and masks its level: NI at M, and below it IML 15 with the old IML in PIML. -/
theorem Core.entryStat_fields {c : Core} {l old : Nat} (hrun : c.run < 8) (hlev : c.lev < 4) :
    c.entryStat l old < 2 ^ 64 ∧ bits (c.entryStat l old) 0 2 = c.lev ∧ bits (c.entryStat l old) 2 3 = c.run ∧
      bits (c.entryStat l old) 5 1 = b2n c.idle ∧ bits (c.entryStat l old) 14 1 = 0 ∧
      (l < 3 → bits (c.entryStat l old) 6 4 = bits old 10 4 ∧ bits (c.entryStat l old) 10 4 = 15) ∧
      (l = 3 → bits (c.entryStat l old) 15 1 = 1) := by
  have himl := bits_lt old 10 4
  have hidle : b2n c.idle ≤ 1 := by cases c.idle <;> decide
  unfold Core.entryStat
  generalize bits old 10 4 = piml at himl ⊢
  generalize b2n c.idle = idle at hidle ⊢
  simp only [bits, Nat.shiftRight_eq_div_pow]
  split_ifs <;> omega

/-- Nesting changes at most the gate of the running bank. -/
theorem Core.bank_nest (k : Nat) : ∃ g, (c.nest l).bank k = { c.bank k with gate := g } := by
  unfold Core.nest
  split_ifs with hM hS
  · exact ⟨_, rfl⟩
  · split
    next n hgate =>
      by_cases hk : k = c.run
      · subst hk
        exact ⟨_, Core.bank_setBank _ _ _⟩
      · exact ⟨_, Core.bank_setBank_ne _ _ _ _ hk⟩
    next => exact ⟨_, rfl⟩
  · exact ⟨_, rfl⟩

/-- Nesting leaves every bank but that of the level entered. -/
theorem Core.bank_nest_ne {k : Nat} (hk : k ≠ c.entryBank l) : (c.nest l).bank k = c.bank k := by
  unfold Core.nest
  split_ifs with hM hS
  · rfl
  · subst hS
    split
    · exact Core.bank_setBank_ne _ _ _ _ hk
    · rfl
  · rfl

/-- Nesting leaves the context that an entry saves. -/
theorem Core.context_nest : (c.nest l).run = c.run ∧ (c.nest l).lev = c.lev ∧ (c.nest l).idle = c.idle ∧ (c.nest l).nitime = c.nitime := by
  unfold Core.nest
  split_ifs
  · exact ⟨rfl, rfl, rfl, rfl⟩
  · split <;> exact ⟨rfl, rfl, rfl, rfl⟩
  · exact ⟨rfl, rfl, rfl, rfl⟩

end

/-! An entry, 09 R318 and R319. -/

/-- The core after an entry to level `l` at the offset `off` of its vector, whose save set takes `sv`. -/
def Core.entered (c : Core) (l off : Nat) (sv : SaveSet) : Core :=
  let b := c.entryBank l
  let x := (c.nest l).bank b
  { (c.nest l).setBank b ({ x with save := sv }.mark 8) with
    run := b, lev := l, pc := (x.evec.toNat + off) % 2 ^ 48, idle := false, nitime := if l = 3 ∧ c.lev ≠ 3 then 0 else c.nitime }

section
variable (c : Core) (l off : Nat) (sv : SaveSet)

/-- The core goes on at the vector of the bank that stood before the entry. -/
theorem Core.pc_entered : (c.entered l off sv).pc = ((c.bank (c.entryBank l)).evec.toNat + off) % 2 ^ 48 := by
  obtain ⟨g, hbank⟩ := c.bank_nest l (c.entryBank l)
  have hevec := congrArg Bank.evec hbank
  rw [← show ((c.nest l).bank (c.entryBank l)).evec = (c.bank (c.entryBank l)).evec from hevec]
  rfl

theorem Core.bank_entered :
    (c.entered l off sv).bank (c.entryBank l) = { (c.nest l).bank (c.entryBank l) with save := sv }.mark 8 :=
  Core.bank_setBank (c.nest l) _ _

theorem Core.save_entered : ((c.entered l off sv).bank (c.entryBank l)).save = sv :=
  congrArg Bank.save (c.bank_entered l off sv)

/-- The bank of the level keeps its registers. -/
theorem Core.getG_entered (r : Nat) : ((c.entered l off sv).bank (c.entryBank l)).getG r = (c.bank (c.entryBank l)).getG r := by
  obtain ⟨g, hnest⟩ := c.bank_nest l (c.entryBank l)
  exact (congrArg (Bank.getG · r) (c.bank_entered l off sv) :).trans (congrArg (Bank.getG · r) hnest :)

theorem Core.bank_entered_ne {k : Nat} (hk : k ≠ c.entryBank l) : (c.entered l off sv).bank k = c.bank k :=
  (Core.bank_setBank_ne (c.nest l) _ _ _ hk).trans (c.bank_nest_ne l hk)

end

section
variable (s : State) (e l off epc ecause eaddr eprog escr : Nat)

@[simp] theorem State.core_modEngine_leave : (s.modEngine e Engine.leave).core e = s.core e := by
  simp [State.core, Engine.leave]

/-- An entry saves the context and the words of its cause in the save set of the level. -/
theorem State.core_enter :
    (s.enter e l off epc ecause eaddr eprog escr).core e = (s.core e).entered l off
      ⟨BitVec.ofNat 64 epc,
        BitVec.ofNat 64 ((s.core e).entryStat l ((s.core e).bank ((s.core e).entryBank l)).save.estat.toNat),
        BitVec.ofNat 64 ecause, BitVec.ofNat 64 eaddr, BitVec.ofNat 64 eprog, BitVec.ofNat 64 escr⟩ := by
  obtain ⟨g, hnest⟩ := (s.core e).bank_nest l ((s.core e).entryBank l)
  have hsave := congrArg Bank.save hnest
  obtain ⟨hrun, hlev, hidle, hnitime⟩ := (s.core e).context_nest l
  rw [← show (((s.core e).nest l).bank ((s.core e).entryBank l)).save = _ from hsave]
  simp only [State.enter, State.core_modCore, State.core_modEngine_leave, hrun, hlev, hidle, hnitime]
  rfl

/-- An entry changes its own engine alone. -/
theorem State.engine_enter_ne {d : Nat} (hd : d ≠ e) : (s.enter e l off epc ecause eaddr eprog escr).engine d = s.engine d :=
  (State.engine_modEngine_ne _ _ _ _ hd).trans (State.engine_modEngine_ne _ _ _ _ hd)

end

/-! Exceptions, 09 R310 to R318. -/

section
variable {s : State} {e epc : Nat} {x : Trap} (hfeh : (s.core e).feh = false)
include hfeh

/-- An exception that its target accepts enters it. -/
theorem State.takeException_enters (hheld : ¬ ((s.core e).run < 6 ∧ 2 ≤ (s.route e x.cause).1))
    (hsaved : (s.route e x.cause).1 = 3 → s.saved e 3 = true) :
    s.takeException e epc x = s.enter e (s.route e x.cause).1 0 epc (s.route e x.cause).2 x.eaddr x.eprog x.escr := by
  simp only [State.takeException, hfeh, Bool.false_eq_true, if_false]
  rw [if_neg hheld, if_neg (by simpa using hsaved)]

/-- An exception of a tenant whose target is P or M is held, 09 R312. -/
theorem State.takeException_holds (hrun : (s.core e).run < 6) (htarget : 2 ≤ (s.route e x.cause).1) :
    s.takeException e epc x = s.hold e (s.route e x.cause).1 (if x.next then (epc + 2 ^ 48 - 4) % 2 ^ 48 else epc)
      (s.route e x.cause).2 x.eaddr x.eprog x.escr := by
  simp only [State.takeException, hfeh, Bool.false_eq_true, if_false]
  exact if_pos ⟨hrun, htarget⟩

end

/-- Settles O15: the exception enters the level of its route, and `Core.entered` saves the context in the bank of that level. -/
theorem exceptionEntrySavesAndVectors : Obligations.ExceptionEntrySavesAndVectors := by
  intro e epc x s c l b old hfeh hrun hlev hheld hsaved
  obtain ⟨hword, hfrom, hbank, hidle, hclear, hlow, hM⟩ := Core.entryStat_fields (l := l) (old := old) hrun hlev
  have hestat : (BitVec.ofNat 64 (c.entryStat l old)).toNat = c.entryStat l old := by
    rw [BitVec.toNat_ofNat, Nat.mod_eq_of_lt hword]
  refine ⟨_, State.takeException_enters hfeh hheld hsaved, ?_⟩
  rw [State.core_enter, show b = c.entryBank l from rfl, Core.pc_entered, Core.save_entered]
  refine ⟨rfl, rfl, rfl, rfl, rfl, rfl, rfl, rfl, rfl, ?_⟩
  rw [show (SaveSet.estat _).toNat = _ from hestat]
  exact ⟨hfrom, hbank, hidle, hclear, hlow, hM, fun hl hbelow => if_pos ⟨hl, Nat.ne_of_lt hbelow⟩, fun k hk => Core.bank_entered_ne _ _ _ _ hk,
    fun r => Core.getG_entered _ _ _ _ r, fun d hd => s.engine_enter_ne e l 0 epc _ _ _ _ hd, rfl, rfl⟩

/-! Held exceptions, 09 R312. -/

/-- A counter counts up to the largest value of its field. -/
theorem State.rd_count (s : State) (off : Nat) (f : Fld) (n : Nat) (h : f.lo + f.w ≤ 64) :
    (s.count off f n).rd off f = min (s.rd off f + n) (2 ^ f.w - 1) := by
  have hpos : 0 < 2 ^ f.w := by positivity
  rw [State.count, State.rd_wr _ _ _ _ h, satAdd, Nat.mod_eq_of_lt (by omega)]

@[simp] theorem State.core_count (s : State) (off : Nat) (f : Fld) (n d : Nat) : (s.count off f n).core d = s.core d := rfl

@[simp] theorem State.core_modBank (s : State) (e b : Nat) (f : Bank → Bank) :
    (s.modBank e b f).core e = (s.core e).setBank b (f ((s.core e).bank b)) := s.core_modCore e _

section
variable (s : State) (e pc : Nat) (h : HeldRec)

/-- The tenant's bank holds the exception `h` of the instruction at `pc`, and the slot is about to close. -/
def State.holding : State :=
  (((s.modRun e fun x => { x with held := some h, heldpc := pc, heldlev := s.lev e }.mark 8).count
    (ENG_EXC_HELDCNT e) ENG_EXC_HELDCNT_COUNT 1).setPc e pc).modEngine e Engine.leave

theorem State.hold_eq_closing (target ecause eaddr eprog escr : Nat) :
    s.hold e target pc ecause eaddr eprog escr =
      (s.holding e pc ⟨BitVec.ofNat 64 ecause, BitVec.ofNat 64 eaddr, BitVec.ofNat 64 eprog, BitVec.ofNat 64 escr, target, false⟩).closing e := rfl

theorem State.bank_holding :
    ((s.holding e pc h).core e).bank (s.core e).run =
      { (s.core e).bank (s.core e).run with held := some h, heldpc := pc, heldlev := s.lev e }.mark 8 := by
  rw [State.holding, State.core_modEngine_leave, State.setPc, State.core_modCore, State.core_count, State.modRun, State.core_modBank]
  exact Core.bank_setBank _ _ _

theorem State.rd_holding : (s.holding e pc h).rd (ENG_EXC_HELDCNT e) ENG_EXC_HELDCNT_COUNT =
    min (s.rd (ENG_EXC_HELDCNT e) ENG_EXC_HELDCNT_COUNT + 1) (2 ^ ENG_EXC_HELDCNT_COUNT.w - 1) := by
  have hregs : (s.holding e pc h).regs = (s.count (ENG_EXC_HELDCNT e) ENG_EXC_HELDCNT_COUNT 1).regs := rfl
  rw [State.rd_congr hregs, State.rd_count _ _ _ _ (by decide)]

end

/-- Settles O16: the exception stands in the tenant's bank before the closing sequence. -/
theorem tenantExceptionIsHeld : Obligations.TenantExceptionIsHeld := by
  intro e epc x s hfeh hrun htarget
  refine ⟨_, (State.takeException_holds hfeh hrun htarget).trans (s.hold_eq_closing e _ _ _ _ _ _), ?_⟩
  rw [State.bank_holding]
  exact ⟨rfl, rfl, rfl, s.rd_holding e _ _⟩

end Sys2Proof.Machine

/-! PROOFS. What the core takes at an instruction boundary, and the commands of its handlers (09 R313 to R330, 03 R110 to R117). -/
namespace Sys2Proof.Machine
open Reg

section
variable {s : State} {e : EngId}

/-! The boundary, 09 R320. -/

section
variable (hprompt : s.promptDue e = none) (hprog : s.inProgress e = none)
include hprompt hprog

/-- A SLOT_EXPIRED stands behind a prompt entry alone. -/
theorem State.boundary_slotExpired {n : Nat} (hidle : (s.core e).idle = false)
    (hexp : ((s.core e).bank (s.core e).run).slotExp = some n) : s.boundary e = some .slotExpired := by
  simp only [State.boundary, hprompt, hprog, hidle, hexp, Option.isSome_none, Option.isSome_some, Bool.not_false, Bool.and_self,
    Bool.false_eq_true, if_false, if_true]

variable (hexp : (s.core e).idle = false → ((s.core e).bank (s.core e).run).slotExp = none)
include hexp

theorem State.boundary_deferred {d : DefErr} (hidle : (s.core e).idle = false)
    (hfind : ((s.core e).deferred.find? fun d => d.bank == (s.core e).run) = some d) : s.boundary e = some (.deferred d) := by
  simp only [State.boundary, hprompt, hprog, hidle, hexp hidle, hfind, Option.isSome_none, Bool.and_false, Bool.false_eq_true, if_false]

/-- A reported vector fault is due unless a SLOT_EXPIRED handler is to return first (03 R117). -/
theorem State.boundary_vector {f : VFault} (hidle : (s.core e).idle = false) (hdef : ∀ d ∈ (s.core e).deferred, d.bank ≠ (s.core e).run)
    (hgate : ∀ n, ((s.core e).bank (s.core e).run).gate ≠ .behind n) (hfault : s.faultWaits e = some f) :
    s.boundary e = some (.vector f) := by
  have hfind : ((s.core e).deferred.find? fun d => d.bank == (s.core e).run) = none := by simpa using hdef
  cases hg : ((s.core e).bank (s.core e).run).gate with
  | behind n => exact absurd hg (hgate n)
  | free | due =>
    simp only [State.boundary, hprompt, hprog, hidle, hexp hidle, hfind, hg, hfault, Option.isSome_none, Bool.and_false, Bool.or_false,
      Bool.false_eq_true, if_false]

/-- With no error and no fault of the running bank, a held exception comes before an interrupt. -/
theorem State.boundary_quiet
    (hquiet : (s.core e).idle = false → (∀ d ∈ (s.core e).deferred, d.bank ≠ (s.core e).run) ∧ s.faultWaits e = none) :
    (∀ b h, s.heldReady e = some (b, h) → s.boundary e = some (.held b h)) ∧
      (∀ l i, s.heldReady e = none → (s.core e).feh = false → s.irqTaken e = some (l, i) → s.boundary e = some (.irq l i)) := by
  cases hidle : (s.core e).idle with
  | true =>
    refine ⟨fun b h hheld => ?_, fun l i hheld hfeh hirq => ?_⟩
    · simp only [State.boundary, hprompt, hprog, hidle, hheld, Option.isSome_none, Bool.not_true, Bool.false_and, Bool.true_or,
        Bool.false_eq_true, if_false, if_true]
    · simp only [State.boundary, hprompt, hprog, hidle, hheld, hfeh, hirq, Option.isSome_none, Option.map_some, Bool.not_true,
        Bool.false_and, Bool.true_or, Bool.false_eq_true, if_false, if_true]
  | false =>
    obtain ⟨hdef, hfault⟩ := hquiet hidle
    have hfind : ((s.core e).deferred.find? fun d => d.bank == (s.core e).run) = none := by simpa using hdef
    refine ⟨fun b h hheld => ?_, fun l i hheld hfeh hirq => ?_⟩
    · simp only [State.boundary, hprompt, hprog, hidle, hexp hidle, hfind, hfault, hheld, Option.isSome_none, Bool.and_false,
        Bool.false_eq_true, if_false, ite_self]
    · simp only [State.boundary, hprompt, hprog, hidle, hexp hidle, hfind, hfault, hheld, hfeh, hirq, Option.isSome_none, Option.map_some,
        Bool.and_false, Bool.false_eq_true, if_false, ite_self]

end

/-- A held exception is ready in platform time outside the escalation handler once its target can accept it, 09 R313. -/
theorem State.heldReady_of_accepts {b : Nat} {h : HeldRec} (hwaits : (s.core e).heldWaits = some (b, h)) (hplat : s.platformTime e = true)
    (hfeh : (s.core e).feh = false)
    (haccepts : if h.target = 3 then s.saved e 3 = true ∧ s.niM e = false
      else (s.core e).lev ≤ 2 ∧ s.saved e 2 = true ∧ s.iml e 2 ≠ 15) : s.heldReady e = some (b, h) := by
  by_cases hM : h.target = 3
  · obtain ⟨hsaved, hni⟩ := (if_pos hM).mp haccepts
    simp [State.heldReady, hwaits, hM, hsaved, hni, hplat, hfeh]
  · obtain ⟨hlev, hsaved, himl⟩ := (if_neg hM).mp haccepts
    simp [State.heldReady, hwaits, hM, hlev, hsaved, himl, hplat, hfeh]

/-! EXCEPTION_ENTRY, 09 R318 to R320. -/

theorem exec_exceptionEntry : exec (.exceptionEntry e) s = execExceptionEntry e s := rfl

/-- A SLOT_EXPIRED that waits keeps the instruction at the boundary from issuing, 09 R320. -/
theorem State.canIssue_slotExp {n : Nat} (hexp : ((s.core e).bank (s.core e).run).slotExp = some n) : s.canIssue e = false := by
  simp [State.canIssue, State.boundaryFree, hexp]

/-- The instruction that would issue now raises no fetch fault. -/
theorem State.attempted_none (hfetch : s.canIssue e = true → s.fetchTrap e = none) :
    (if s.canIssue e then s.fetchTrap e else none) = none := by
  split_ifs with hissue
  exacts [hfetch hissue, rfl]

/-- The SLOT_EXPIRED that waits is taken, and a vector fault then waits for its handler to return, 01 R36 and 03 R117. -/
theorem State.takeSlotExpired_due {n : Nat} (hexp : ((s.core e).bank (s.core e).run).slotExp = some n) :
    s.takeSlotExpired e = ((s.modBank e (s.core e).run fun x => { x with slotExp := none }).takeException e (s.core e).pc
      ⟨cSlotExpired, 0, n, 0, false⟩).modBank e (s.core e).run fun x => { x with gate := .behind 0 } := by
  have hrun : (s.runBank e).slotExp = some n := hexp
  simp only [State.takeSlotExpired, hrun]
  rfl

section
variable (henter : s.canEnter e = true)
include henter

theorem exec_exceptionEntry_fetch {t : Trap} (hissue : s.canIssue e = true) (htrap : s.fetchTrap e = some t) :
    exec (.exceptionEntry e) s = .next (s.takeException e (s.pc e) t) := by
  simp only [exec_exceptionEntry, execExceptionEntry, henter, hissue, htrap, Bool.not_true, Bool.false_eq_true, if_false, if_true]

section
variable (hfetch : s.canIssue e = true → s.fetchTrap e = none)
include hfetch

theorem exec_exceptionEntry_slotExpired (hdue : s.boundary e = some .slotExpired) :
    exec (.exceptionEntry e) s = .next (s.takeSlotExpired e) := by
  simp only [exec_exceptionEntry, execExceptionEntry, henter, State.attempted_none hfetch, hdue, Bool.not_true, Bool.false_eq_true, if_false]

theorem exec_exceptionEntry_vector {f : VFault} (hdue : s.boundary e = some (.vector f)) :
    exec (.exceptionEntry e) s = .next (s.takeVector e f) := by
  simp only [exec_exceptionEntry, execExceptionEntry, henter, State.attempted_none hfetch, hdue, Bool.not_true, Bool.false_eq_true, if_false]

end

/-! Interrupts, prompt entries and held exceptions, 09 R313 to R323. -/

theorem exec_interruptEntry_due {l i : Nat} (hdue : s.boundary e = some (.irq l i)) :
    exec (.interruptEntry e) s = .next (s.enter e l 0x80 (s.pc e) (s.irqCause i) 0 0 0) := by
  show Host.Outcome.next _ = _
  simp only [henter, hdue, Bool.not_true, Bool.false_eq_true, if_false]

theorem exec_heldDelivery_due {b : Nat} {h : HeldRec} (hdue : s.boundary e = some (.held b h)) :
    exec (.heldDelivery e) s = .next ((s.modBank e b fun x => { x with held := some { h with sent := true } }).enter e h.target 0 (s.pc e)
      (h.ecause.toNat + 2 ^ 16 + b * 2 ^ 17) h.eaddr.toNat h.eprog.toNat h.escr.toNat) := by
  show Host.Outcome.next _ = _
  simp only [henter, hdue, Bool.not_true, Bool.false_eq_true, if_false]

section
variable {p : PromptHold} {late : Bool} (hwaits : (s.core e).promptHeld = some p)
include hwaits

theorem exec_promptEntry_enters (hrec : p.inRec = false) (hhold : s.promptHold e (s.tenantSlot e && (p.late || late)) = false) :
    exec (.promptEntry e late) s =
      .next (((s.modCore e fun c => { c with promptHeld := none }).enter e 3 0x100 (s.pc e) (s.irqCause p.src + 2 ^ 20) 0 0 0).modCore e fun c =>
        { c with prompting := some (c.prompting.getD 0) }) := by
  show Host.Outcome.next _ = _
  simp only [hwaits, hrec, hhold, henter, Bool.not_true, Bool.or_self, Bool.false_eq_true, if_false]

omit henter in
theorem exec_promptEntry_waits (hhold : p.inRec = true ∨ s.promptHold e (s.tenantSlot e && (p.late || late)) = true) :
    exec (.promptEntry e late) s =
      .next (s.modAsync e fun c => { c with promptHeld := some { p with late := s.tenantSlot e && (p.late || late) } }) := by
  have hheld : (p.inRec || s.promptHold e (s.tenantSlot e && (p.late || late))) = true := by simpa using hhold
  show Host.Outcome.next _ = _
  simp only [hwaits, hheld, Bool.true_or, if_true]

end
end

/-! Limits of the handlers, 09 R325 and R330. -/

theorem exec_fehTimeout_running (h : (s.core e).feh = true) : exec (.fehTimeout e) s = .next (s.retireEngine e 3) :=
  congrArg _ (if_pos h)

/-- Bank 7 with NI clear. -/
def Bank.clearNi (x : Bank) : Bank := { x with save := { x.save with estat := BitVec.ofNat 64 (setBits x.save.estat.toNat 15 1 0) } }.mark 8

theorem Bank.ni_clearNi (x : Bank) : bits x.clearNi.save.estat.toNat 15 1 = 0 := by
  show bits (BitVec.ofNat 64 _).toNat 15 1 = 0
  rw [BitVec.toNat_ofNat, Nat.mod_eq_of_lt (setBits_lt _ _ _ _ _ x.save.estat.isLt (by decide)), bits_setBits_same]
  rfl

/-- Engine `e` when NITIME has reached its limit: NI is clear, and the timeout is counted. -/
def State.niExpired (s : State) (e : Nat) : State :=
  ((s.modBank e 7 Bank.clearNi).modCore e fun c => { c with nitime := 512 }).count (ENG_EXC_NIOVR e) ENG_EXC_NIOVR_COUNT 1

theorem exec_niTimeout_running (h : s.niM e = true) :
    exec (.niTimeout e) s = .next ((s.niExpired e).recordCode 0x1C04 sevWarning (unitEngine e) (((s.core e).bank 7).save.ecause.toNat % 2 ^ 32)
      (((s.core e).bank 7).save.epc.toNat % 2 ^ 32) 0) :=
  congrArg _ (if_pos h)

theorem State.core_niExpired :
    (s.niExpired e).core e = { (s.core e).setBank 7 ((s.core e).bank 7).clearNi with nitime := 512 } := by
  rw [State.niExpired, State.core_count, State.core_modCore, State.core_modBank]

theorem State.ni_niExpired : bits (((s.niExpired e).core e).bank 7).save.estat.toNat 15 1 = 0 := by
  have hbank : ((s.niExpired e).core e).bank 7 = ((s.core e).bank 7).clearNi := by
    rw [State.core_niExpired]
    exact Core.bank_setBank _ _ _
  rw [hbank, Bank.ni_clearNi]

theorem State.rd_niExpired : (s.niExpired e).rd (ENG_EXC_NIOVR e) ENG_EXC_NIOVR_COUNT =
    min (s.rd (ENG_EXC_NIOVR e) ENG_EXC_NIOVR_COUNT + 1) (2 ^ ENG_EXC_NIOVR_COUNT.w - 1) := by
  have hregs : (s.niExpired e).regs = (s.count (ENG_EXC_NIOVR e) ENG_EXC_NIOVR_COUNT 1).regs := rfl
  rw [State.rd_congr hregs, State.rd_count _ _ _ _ (by decide)]

/-- The four lines of the prompt buffer are read in turn, 09 R319. -/
theorem exec_promptCopyDone_copies {a : Nat} {r0 r1 r2 r3 : Nat × List TWord × State} (hcopy : (s.engine e).promptCopy = some a)
    (h0 : s.lvReadLine e 3 0 ((a + 0x100) % 2 ^ 48) none = r0) (h1 : r0.2.2.lvReadLine e 3 0 ((a + 0x140) % 2 ^ 48) none = r1)
    (h2 : r1.2.2.lvReadLine e 3 0 ((a + 0x180) % 2 ^ 48) none = r2) (h3 : r2.2.2.lvReadLine e 3 0 ((a + 0x1C0) % 2 ^ 48) none = r3) :
    exec (.promptCopyDone e) s =
      .next (r3.2.2.modEngine e fun x => { x with prompt := r0.2.1 ++ r1.2.1 ++ r2.2.1 ++ r3.2.1, promptCopy := none }) := by
  have hrange : List.range 4 = [0, 1, 2, 3] := rfl
  show Host.Outcome.next _ = _
  simp only [hcopy, hrange, List.foldl_cons, List.foldl_nil, List.nil_append, Nat.add_assoc, Nat.reduceMul, Nat.reduceAdd, h0, h1, h2, h3]

/-! Commands that are writes of control registers, 09 R314 and R319, 03 R115. -/

section
variable {crn : BitVec 12} {lev : Nat} {f : State → State} (hready : s.ready e 4 [])
include hready

/-- At a level that may write the register, the command takes effect. -/
theorem State.crCommand_acts (hlev : lev ≤ s.lev e) : s.crCommand e lev crn f = (f (s.past e 4)).countInstr e :=
  State.issue_done hready (if_neg (by rw [State.lev_past]; omega))

/-- Below that level it is privileged, 07 R279. -/
theorem State.crCommand_privileged (hlev : s.lev e < lev) :
    s.crCommand e lev crn f = (s.past e 4).takeException e (s.pc e) (privOp (encCtl 0 0 crn 1)) :=
  State.issue_fault hready rfl (if_pos (by rwa [State.lev_past]))

end

/-- BANKCMD acts on a HELD tenant bank that BANKSEL names, 09 R314. -/
theorem State.bankCmd_held (hb : (s.core e).banksel < 6) (hheld : ((s.core e).bank (s.core e).banksel).held.isSome = true) :
    s.bankCmd e 1 = (s.modBank e (s.core e).banksel fun x => { x with held := none, rpc := x.heldpc, rlev := x.heldlev }.mark 8) ∧
      s.bankCmd e 2 = s.vacateBank e (s.core e).banksel := by
  unfold State.bankCmd
  exact ⟨(if_pos ⟨hb, hheld⟩).trans (if_pos rfl), (if_pos ⟨hb, hheld⟩).trans ((if_neg (by decide)).trans (if_pos rfl))⟩

end

/-- Settles O17: an entry by what stands at the boundary, a command of the handlers by its own case, a write of a control register by its level. -/
theorem entriesHandlersAndCommands : Obligations.EntriesHandlersAndCommands := by
  refine ⟨?_, ?_⟩
  · intro e late s henter c settled quiet
    refine ⟨fun t hissue htrap => exec_exceptionEntry_fetch henter hissue htrap, fun n hprompt hprog hidle hexp => ?_,
      fun d ⟨hprompt, hprog, hexp⟩ hidle hfind => exec_storeDeferredError_due henter (State.boundary_deferred hprompt hprog hexp hidle hfind),
      fun f ⟨hprompt, hprog, hexp⟩ hidle hdef hgate hfault hfetch =>
        exec_exceptionEntry_vector henter hfetch (State.boundary_vector hprompt hprog hexp hidle hdef hgate hfault),
      exec_fehTimeout_running,
      fun l i ⟨⟨hprompt, hprog, hexp⟩, hquiet⟩ hfeh hheld hirq =>
        exec_interruptEntry_due henter ((State.boundary_quiet hprompt hprog hexp hquiet).2 l i hheld hfeh hirq),
      fun p hwaits hrec hhold => ?_, fun p hwaits hhold => exec_promptEntry_waits hwaits hhold,
      fun b h ⟨⟨hprompt, hprog, hexp⟩, hquiet⟩ hwaits hplat hfeh haccepts => exec_heldDelivery_due henter
        ((State.boundary_quiet hprompt hprog hexp hquiet).1 b h (State.heldReady_of_accepts hwaits hplat hfeh haccepts)),
      fun hni => ?_, fun a hcopy => exec_promptCopyDone_copies hcopy rfl rfl rfl rfl⟩
    · have hfetch : s.canIssue e = true → s.fetchTrap e = none := fun h => absurd h (by simp [State.canIssue_slotExp hexp])
      rw [exec_exceptionEntry_slotExpired henter hfetch (State.boundary_slotExpired hprompt hprog hidle hexp), State.takeSlotExpired_due hexp]
      rfl
    · exact exec_promptEntry_enters henter hwaits hrec hhold
    · exact ⟨s.niExpired e, State.ni_niExpired, congrArg Core.nitime State.core_niExpired, State.rd_niExpired, exec_niTimeout_running hni⟩
  · intro e v s hready p b
    refine ⟨fun hlev => congrArg _ (State.crCommand_acts hready (by omega)), fun hlev hb hheld => ?_,
      fun hlev => congrArg _ (State.crCommand_acts hready hlev), fun hlev => congrArg _ (State.crCommand_privileged hready (by omega))⟩
    have hsel : (p.core e).banksel = b := by rw [State.core_past]
    obtain ⟨hresume, hvacate⟩ := State.bankCmd_held (s := p) (e := e) (by rwa [hsel]) (by rwa [hsel, State.bank_past])
    rw [hsel] at hresume hvacate
    rw [← hresume, ← hvacate]
    exact ⟨congrArg _ (State.crCommand_acts hready hlev), congrArg _ (State.crCommand_acts hready hlev)⟩

end Sys2Proof.Machine

/-! PROOFS. Checkpoints and the recovery of an engine (10 R353 to R367 and R383). -/
namespace Sys2Proof.Machine
open Reg

section
variable (s : State) (e : Nat)

/-! CHECKPOINT_COMPLETE, 10 R353. -/

/-- `s` with the snapshot of the commit `c` in the checkpoint store and the stores before it on their way out. -/
def State.checkpointed (c : Commit) : State :=
  (s.modEngine e fun y => { y with ckpt := c.core, commit := none, out := y.out ++ y.stores.take c.nstores, stores := y.stores.drop c.nstores }).drainOut e

theorem State.completeCommit_of_commit {c : Commit} (h : (s.engine e).commit = some c) :
    s.completeCommit e = (s.checkpointed e c).setReg (ENG_TNG_CKPT e) ((s.checkpointed e c).reg (ENG_TNG_CKPT e) + 1) := by
  simp only [State.completeCommit, h]
  rfl

theorem State.completeCommit_of_no_commit (h : (s.engine e).commit = none) : s.completeCommit e = s := by
  simp only [State.completeCommit, h]

/-! What the steps of a recovery leave alone, 10 R356 to R359. -/

section
variable (kind grp ma : Nat)

@[simp] theorem State.countMismatch_mem : (s.countMismatch e kind grp).mem = s.mem := by
  simp -implicitDefEqProofs [State.countMismatch, apply_ite State.mem]

@[simp] theorem State.countMismatch_eng : (s.countMismatch e kind grp).eng = s.eng := by
  simp -implicitDefEqProofs [State.countMismatch, apply_ite State.eng]

@[simp] theorem State.countUe_mem : (s.countUe e kind ma).mem = s.mem := by
  simp -implicitDefEqProofs [State.countUe, apply_ite State.mem]

@[simp] theorem State.countUe_eng : (s.countUe e kind ma).eng = s.eng := by
  simp -implicitDefEqProofs [State.countUe, apply_ite State.eng]

/-- The registers of a detection are the engine's own, so PHASE of its cluster stays. -/
theorem State.hoPhase_countMismatch (c : Nat) : (s.countMismatch e kind grp).hoPhase c = s.hoPhase c := by
  have htai : CLU_HOSTAT c ≠ ENG_TNG_LASTTAI e := by simp only [CLU_HOSTAT, ENG_TNG_LASTTAI]; omega
  have hmism : CLU_HOSTAT c ≠ ENG_TNG_MISM e := by simp only [CLU_HOSTAT, ENG_TNG_MISM]; omega
  simp only [State.countMismatch, State.hoPhase]
  rw [State.rd_setReg_ne _ _ _ _ _ htai]
  split_ifs <;> simp only [State.count, State.rd_wr_off _ _ _ _ _ _ hmism]

theorem State.hoPhase_countUe (c : Nat) : (s.countUe e kind ma).hoPhase c = s.hoPhase c := by
  have hue : CLU_HOSTAT c ≠ ENG_UC_UE e := by simp only [CLU_HOSTAT, ENG_UC_UE]; omega
  unfold State.countUe State.hoPhase
  split_ifs
  · simp only [State.count, State.rd_wr_off _ _ _ _ _ _ hue]
  · rfl

end

section
variable (x : Option (Nat × Nat))

@[simp] theorem State.cancelIssue_mem : (s.cancelIssue e x).mem = s.mem := by cases x <;> rfl

@[simp] theorem State.cancelIssue_regs : (s.cancelIssue e x).regs = s.regs := by cases x <;> rfl

/-- A cancelled issue leaves the queue of its bank; the checkpoint is unchanged. -/
@[simp] theorem State.ckpt_cancelIssue : ((s.cancelIssue e x).engine e).ckpt = (s.engine e).ckpt := by
  cases x
  · rfl
  · simp [State.cancelIssue, State.modVsu]

end

@[simp] theorem State.mendStore_eng (ma : Nat) : (s.mendStore e ma).eng = s.eng := by
  unfold State.mendStore
  split_ifs <;> rfl

@[simp] theorem State.mendStore_regs (ma : Nat) : (s.mendStore e ma).regs = s.regs := by
  unfold State.mendStore
  split_ifs <;> rfl

@[simp] theorem State.dropCores_eng (instr data all : Bool) : (s.dropCores e instr data all).eng = s.eng :=
  eachDo_eng (fun _ t => t.setDir_eng _ _) _ s

@[simp] theorem State.dropCores_regs (instr data all : Bool) : (s.dropCores e instr data all).regs = s.regs :=
  eachDo_invariant State.regs (fun _ t => t.setDir_regs _ _) _ s

/-! DISCARD and RESTORE, 10 R357 and R359. -/

/-- What DISCARD and RESTORE make of an engine. -/
def Engine.restored (x : Engine) : Engine :=
  { x with core := x.ckpt, commit := none, stores := [], icount := 0, newLv := none, lock := none, busy := none, fenced := false }

/-- `s` without the issues of engine `e` that no completed commit covers, 10 R355. -/
def State.uncovered : State := (s.cancelIssue e (s.engine e).newLv).cancelIssue e ((s.engine e).commit.bind (·.lv))

theorem State.rollBack_of_no_lock (h : s.heldSlice (clusterOf e) (posOf e) = none) :
    s.rollBack e = (s.uncovered e).modEngine e Engine.restored := by
  have hslice : (s.uncovered e).heldSlice (clusterOf e) (posOf e) = none := by
    simpa [State.heldSlice, State.lockUnit, State.uncovered] using h
  have hlock : (s.uncovered e).lkrel (clusterOf e) (posOf e) = s.uncovered e := by simp only [State.lkrel, hslice]
  exact congrArg (State.modEngine · e Engine.restored) hlock

theorem State.engine_rollBack (h : s.heldSlice (clusterOf e) (posOf e) = none) :
    ∃ x : Engine, (s.rollBack e).engine e = x.restored ∧ x.ckpt = (s.engine e).ckpt := by
  refine ⟨(s.uncovered e).engine e, ?_, by simp [State.uncovered]⟩
  rw [State.rollBack_of_no_lock s e h, State.engine_modEngine]

theorem State.regs_rollBack (h : s.heldSlice (clusterOf e) (posOf e) = none) : (s.rollBack e).regs = s.regs := by
  rw [State.rollBack_of_no_lock s e h]
  exact (State.cancelIssue_regs _ _ _).trans (State.cancelIssue_regs _ _ _)

/-! LOCKSTEP_RECOVERY, 10 R356 to R367. -/

/-- Engine `e` is in a slot, whose reserve the counter has reached, 01 R34. -/
def State.inReserve : Bool := (s.engine e).inSlot.isSome && decide (s.rd (ENG_SLOT_STAT e) ENG_SLOT_STAT_REMAIN ≤ 2000)

section
variable (kind grp ma : Nat)

/-- Engine `e` back at its checkpoint after an event, with `l` the instants of its latest recoveries. -/
def State.rolledBack (l : List Nat) : State :=
  (((s.countMismatch e kind grp).countUe e kind ma).rollBack e).modEngine e fun x => { x with recHist := l }

/-- `s.rolledBack` with its word mended where a microword failed, and without the lines that its caches may drop. -/
def State.scrubbed (l : List Nat) : State :=
  (if 1 ≤ kind ∧ kind ≤ 3 then (s.rolledBack e kind grp ma l).mendStore e ma else s.rolledBack e kind grp ma l).dropCores e true true false

section
variable (l : List Nat)

@[simp] theorem State.scrubbed_eng : (s.scrubbed e kind grp ma l).eng = (s.rolledBack e kind grp ma l).eng := by
  rw [State.scrubbed, State.dropCores_eng]
  split_ifs <;> simp

@[simp] theorem State.scrubbed_regs : (s.scrubbed e kind grp ma l).regs = (s.rolledBack e kind grp ma l).regs := by
  rw [State.scrubbed, State.dropCores_regs]
  split_ifs <;> simp

variable (hlock : s.heldSlice (clusterOf e) (posOf e) = none)
include hlock

theorem State.heldSlice_detected :
    ((s.countMismatch e kind grp).countUe e kind ma).heldSlice (clusterOf e) (posOf e) = none := by
  simpa [State.heldSlice, State.lockUnit] using hlock

theorem State.hoPhase_scrubbed (c : Nat) : (s.scrubbed e kind grp ma l).hoPhase c = s.hoPhase c := by
  have hregs : (s.scrubbed e kind grp ma l).regs = ((s.countMismatch e kind grp).countUe e kind ma).regs :=
    (State.scrubbed_regs ..).trans (State.regs_rollBack _ e (s.heldSlice_detected e kind grp ma hlock))
  calc (s.scrubbed e kind grp ma l).hoPhase c
    _ = ((s.countMismatch e kind grp).countUe e kind ma).hoPhase c := State.rd_congr hregs _ _
    _ = s.hoPhase c := (State.hoPhase_countUe ..).trans (State.hoPhase_countMismatch ..)

theorem State.engine_scrubbed :
    ∃ x : Engine, (s.scrubbed e kind grp ma l).engine e = x.restored ∧ x.ckpt = (s.engine e).ckpt := by
  obtain ⟨x, hx, hckpt⟩ := State.engine_rollBack _ e (s.heldSlice_detected e kind grp ma hlock)
  refine ⟨{ x with recHist := l }, ?_, ?_⟩
  · have hengine : (s.scrubbed e kind grp ma l).engine e = (s.rolledBack e kind grp ma l).engine e :=
      congrArg (sget (fun _ => Engine.reset) · e) (s.scrubbed_eng e kind grp ma l)
    rw [hengine, State.rolledBack, State.engine_modEngine, hx]
    rfl
  · simpa [State.engine] using hckpt

/-- Fewer than three recoveries within a second, and no handover that the recovery would abandon: the engine goes on from its checkpoint. -/
theorem State.recovery_goes_on (hstop : (s.engine e).stopped = false) (hrec : s.flag (ENG_TNG_STAT e) ENG_TNG_STAT_RECOV = false)
    (hl : l = recent s.gav.mono (s.engine e).recHist) (hfew : l.length < 3)
    (hho : ¬ (s.hoPhase (clusterOf e) = 1 ∨ s.hoPhase (clusterOf e) = 2)) :
    s.recovery e kind grp ma [] false =
      ((s.scrubbed e kind grp ma (l.take 3)).modEngine e fun x =>
        { x with reserveRec := x.reserveRec + b2n ((s.scrubbed e kind grp ma (l.take 3)).inReserve e) }).wr (ENG_TNG_STAT e) ENG_TNG_STAT_RECOV 1 := by
  subst hl
  unfold State.recovery
  rw [if_neg (by simp [hstop, hrec])]
  extract_lets l rolled mended t ready res
  have ht : t = s.scrubbed e kind grp ma (l.take 3) := rfl
  have hphase : t.hoPhase (clusterOf e) = s.hoPhase (clusterOf e) := by rw [ht, State.hoPhase_scrubbed s e kind grp ma _ hlock]
  have hready : ready = t := if_neg fun h => hho (hphase ▸ h.1)
  rw [if_neg (Nat.not_le.mpr hfew), if_neg Bool.false_ne_true]
  have hres : res = t.inReserve e := by simp only [res, hready, State.inReserve]
  rw [hres, hready, ht]

end
end

/-! The Steward pair, 10 R383. -/

theorem State.stewardRecovery_few (h : (recent s.gav.mono s.upd.stw).length < 3) :
    s.stewardRecovery = ({ s with upd := { s.upd with stw := (recent s.gav.mono s.upd.stw).take 3 } } : State) :=
  if_neg (Nat.not_le.mpr h)

end

theorem exec_lockstepRecovery_engine {s : State} {e : EngId} {kind : Fin 5} {grp : Fin 24} (ma : BitVec 15) (h : kindGrp kind grp = true) :
    exec (.lockstepRecovery (some e) kind grp ma [] false) s = .next (s.recovery e kind grp ma.toNat [] false) :=
  congrArg Host.Outcome.next (if_pos h)

/-- RECOVERY_END outside a slot with no prompt entry held: the event is recorded and what waited goes on, 10 R361 and R363. -/
theorem exec_recoveryEnd_engine {s t u : State} {e : EngId} (late : Bool) (hrec : s.flag (ENG_TNG_STAT e) ENG_TNG_STAT_RECOV = true)
    (ht : t = s.wr (ENG_TNG_STAT e) ENG_TNG_STAT_RECOV 0) (hphase : t.slotPhase e ≠ 2)
    (hu : u = (((t.assert (848 + clusterOf e)).recordReg (848 + clusterOf e) (unitEngine e) (ENG_TNG_MISM e)).resumeSlots e).stopPlat e)
    (hprompt : (u.core e).promptHeld = none) : exec (.recoveryEnd (some e) late) s = .next u := by
  show Host.Outcome.next _ = _
  simp only [hrec, ← ht, if_true, if_neg hphase, ← hu, hprompt]

/-- Settles O19: a checkpoint by the commit that waits, a recovery by its rollback, its end by what waited for it. -/
theorem checkpointAndRecovery : Obligations.CheckpointAndRecovery := by
  intro e kind grp ma late s x
  refine ⟨fun c hc => ⟨_, rfl, congrArg Host.Outcome.next (s.completeCommit_of_commit e hc)⟩,
    fun hc => congrArg Host.Outcome.next (s.completeCommit_of_no_commit e hc),
    fun hstop hrec hfew _ hho hlock hkind => ?_, fun hfew => congrArg Host.Outcome.next (s.stewardRecovery_few hfew),
    fun t ht hrec _ hphase u hu hprompt => exec_recoveryEnd_engine late hrec ht hphase hu hprompt, rfl⟩
  have hrecovery := s.recovery_goes_on e kind grp ma.toNat _ hlock hstop hrec rfl hfew hho
  obtain ⟨y, hy, hckpt⟩ := s.engine_scrubbed e kind grp ma.toNat ((recent s.gav.mono x.recHist).take 3) hlock
  refine ⟨_, (exec_lockstepRecovery_engine ma hkind).trans (congrArg Host.Outcome.next hrecovery), ?_⟩
  rw [State.core, State.engine_wr, State.engine_modEngine, hy]
  refine ⟨hckpt, rfl, rfl, rfl, rfl, ?_⟩
  rw [State.flag, State.rd_wr _ _ _ _ (by decide)]
  rfl

end Sys2Proof.Machine

/-! PROOFS. The commands of CLU_HOCMD, and the takeover, handover and test of a cluster's engine (10 R370 to R382, 17 R549). -/
namespace Sys2Proof.Machine
open Reg

section
variable {s t u v : State} {c : Fin 16}

/-! Writes of CLU_HOCMD, 10 R379. -/

/-- A command of the Steward that matches the state takes effect. -/
theorem State.hoCmd_acts {ok : Bool} (f : State → State) (h : ok = true) : s.hoCmd .steward ok f = (f s).reply respOk [] := by
  simp [State.hoCmd, h]

theorem State.hoCmd_not_steward {r : Requester} (ok : Bool) (f : State → State) (h : r ≠ .steward) : s.hoCmd r ok f = s.reply errPerm [] := by
  simp [State.hoCmd, h]

theorem exec_test_starts {p : Fin 16} {e : Nat} (he : e = c.val * 13 + p.val) (hp : p.val < 13) (hrole : s.role e = 2 ∨ s.role e = 3)
    (hret : s.rd (ENG_TNG_STAT e) ENG_TNG_STAT_RETCNT ≠ 3) (hidle : s.hoPhase c = 0 ∨ s.hoPhase c = 6 ∨ s.hoPhase c = 7) :
    exec (.test .steward c p) s = .next ((((s.wr (CLU_HOSTAT c) CLU_HOSTAT_SRC p).setRole e 4).setHoPhase c 5).reply respOk []) := by
  subst he
  exact congrArg Host.Outcome.next (State.hoCmd_acts _ (by simpa [hp, hret, or_assoc] using ⟨hrole, hidle⟩))

/-! REINSTATE, 10 R381. -/

section
variable {p : Fin 16} {e : Nat} (he : e = c.val * 13 + p.val) (hp : p.val < 13) (hrole : s.role e = 5)
  (hmode : s.rd (CLU_RED c) CLU_RED_MODE ≠ 0)
include he hp hrole hmode

/-- The engine takes the first lost index. -/
theorem exec_reinstate_index {k : Nat} (hlost : ((List.range 12).find? fun i => s.spmap c i == 15) = some k) :
    exec (.reinstate .steward c p) s = .next (((((((s.freshIndex e (c.val * 12 + k)).setSpmap c k p).setRole e 0).modEngine e
      fun x => { x with ring := { x.ring with lost := true } }).showRed c).refreshAll).reply respOk []) := by
  subst he
  refine congrArg Host.Outcome.next ((State.hoCmd_acts _ (by simp [hp, hrole, hmode])).trans ?_)
  simp only [hlost]

/-- With no index lost the engine is the spare. -/
theorem exec_reinstate_spare (hlost : ((List.range 12).find? fun i => s.spmap c i == 15) = none) :
    exec (.reinstate .steward c p) s = .next (((((s.modEngine e Engine.emptied).setRole e 1).setSpare c p).showRed c).reply respOk []) := by
  subst he
  refine congrArg Host.Outcome.next ((State.hoCmd_acts _ (by simp [hp, hrole, hmode])).trans ?_)
  simp only [hlost]

end

/-! The comparator test of PRECOPY and of TEST, 10 R370, R377 and R380. -/

/-- Every group has flagged its injection. -/
theorem toNat_flags_eq_iff (flags : BitVec 24) : flags.toNat = 2 ^ 24 - 1 ↔ flags = BitVec.allOnes 24 := by
  rw [← BitVec.toNat_inj, BitVec.toNat_allOnes]

section
variable {flags : BitVec 24} (hphase : s.hoPhase c = 1) (ht : t = s.selfTest (s.hoDst c) flags)
include hphase ht

theorem exec_precopyDone_passes (h : flags = BitVec.allOnes 24) :
    exec (.precopyDone c flags) s = .next (((t.foxAbandon (t.hoSrc c)).copyLvs (t.hoSrc c) (t.hoDst c)).waitGap c) := by
  subst ht
  exact congrArg Host.Outcome.next ((if_pos hphase).trans (if_pos ((toNat_flags_eq_iff flags).mpr h)))

theorem exec_precopyDone_fails (h : flags ≠ BitVec.allOnes 24) :
    exec (.precopyDone c flags) s = .next (t.retireEngine (t.hoDst c) 3) := by
  subst ht
  exact congrArg Host.Outcome.next ((if_pos hphase).trans (if_neg fun hall => h ((toNat_flags_eq_iff flags).mp hall)))

end

theorem exec_engineTestDone_of_test (flags : BitVec 24) (good : Bool) (h : s.hoPhase c = 5) : exec (.engineTestDone c flags good) s =
    .next (((s.selfTest (s.hoSrc c) flags).setRole (s.hoSrc c)
      (if good = true ∧ s.storesGood (s.hoSrc c) = true ∧ flags = BitVec.allOnes 24 then 5 else 6)).setHoPhase c 6) := by
  refine congrArg Host.Outcome.next ((if_pos h).trans ?_)
  simp only [Bool.and_eq_true, beq_iff_eq, toNat_flags_eq_iff, and_assoc]

/-! SWAP of a handover and of a takeover, 10 R372 and R377. -/

/-- A handover swaps when its source can park in an idle gap that is long enough. -/
theorem exec_handoverSwap_swaps (hphase : s.hoPhase c = 2) (hslot : (s.engine (s.hoSrc c)).inSlot = none)
    (hrec : s.flag (ENG_TNG_STAT (s.hoSrc c)) ENG_TNG_STAT_RECOV = false) (hstop : (s.engine (s.hoSrc c)).stopped = false)
    (hpend : (s.engine (s.hoSrc c)).pend = []) (hfeh : (s.core (s.hoSrc c)).feh = false) (hgap : s.gapFits c = true)
    (hkeep : (s.handover c).1 = false) (ht : t = ((s.parkPlat (s.hoSrc c)).setHoPhase c 3).swapIndex c 1) (hu : u = t.resumePlat (t.hoDst c))
    (hv : v = (u.count (CLU_HOCNT c) CLU_HOCNT_HANDOVERS 1).setHoPhase c 6) (hupd : v.updRuns c = false) :
    exec (.handoverSwap c) s = .next v.updGo := by
  refine congrArg Host.Outcome.next ((if_pos (by simp [hphase, hslot, hrec, hstop, hpend, hfeh, hgap])).trans ?_)
  simp only [hkeep, Bool.false_eq_true, if_false, ← ht, ← hu, ← hv, hupd]

/-- A takeover swaps to a spare that is not LOADING; outside a chain no freeze originates. -/
theorem exec_takeoverSwap_swaps (hphase : s.hoPhase c = 4) (hloaded : s.role (s.hoDst c) ≠ 7)
    (hchain : s.rd (ENG_CHN_CFG (s.hoSrc c)) ENG_CHN_CFG_POS = 0)
    (ht : t = ((s.swapIndex c (s.engine (s.hoSrc c)).retireRole).count (CLU_HOCNT c) CLU_HOCNT_TAKEOVERS 1).setHoPhase c 6) :
    exec (.takeoverSwap c) s = .next ((t.retireEvent c).updLost c) := by
  refine congrArg Host.Outcome.next ((if_pos ⟨hphase, hloaded⟩).trans ?_)
  simp only [hchain, bne_self_eq_false, Bool.false_eq_true, if_false, ← ht]

end

/-- Settles O20: a command by the state that it matches, an event by the phase of its cluster. -/
theorem clusterRedundancy : Obligations.ClusterRedundancy := by
  intro c i p timeout flags good s e idle
  refine ⟨fun hcan => ⟨?_, ?_⟩, exec_test_starts rfl, fun k hp hrole hmode => exec_reinstate_index rfl hp hrole hmode,
    exec_reinstate_spare rfl, fun hphase => ?_, fun r hr => ⟨?_, ?_⟩, fun hphase hall t ht => exec_precopyDone_passes hphase ht hall,
    fun hphase hfail t ht => exec_precopyDone_fails hphase ht hfail, fun hphase hout => ?_, exec_engineTestDone_of_test flags good,
    fun t u v => exec_handoverSwap_swaps, fun t => exec_takeoverSwap_swaps⟩
  · exact congrArg Host.Outcome.next (State.hoCmd_acts _ hcan)
  · exact congrArg Host.Outcome.next (State.hoCmd_acts _ hcan)
  · exact congrArg Host.Outcome.next (State.hoCmd_acts _ (by simpa using hphase))
  · exact congrArg Host.Outcome.next (State.hoCmd_not_steward _ _ hr)
  · exact congrArg Host.Outcome.next (State.hoCmd_not_steward _ _ hr)
  · exact congrArg Host.Outcome.next (if_pos ⟨hphase, hout⟩)

end Sys2Proof.Machine

/-! PROOFS. The default target, the requests of caching masters, evictions and snoops (11 R387, R393, R407 to R412). -/
namespace Sys2Proof.Machine

/-! The default error target, 11 R393. -/

section
variable {x : Xact} (a : BitVec 48) (s : State)

/-- A Foxglove engine is refused at the default target, 11 R387. -/
theorem exec_defaultTargetAccess_fox (hfox : 27 ≤ x.mid.val) : exec (.defaultTargetAccess x a) s = .next (s.reply errPerm [twPoison]) :=
  congrArg Host.Outcome.next (if_pos hfox)

theorem exec_defaultTargetAccess_decode (hmid : x.mid.val < 27) :
    exec (.defaultTargetAccess x a) s = .next (s.defaultTarget a.toNat x.mid x.pos) :=
  congrArg Host.Outcome.next (if_neg hmid.not_ge)

end

/-! What the directory does for a caching master, 11 R407. -/

theorem State.st_of_dirtyLine {s : State} {l : Nat} {m : List TWord} (h : s.dirtyLine l = some m) : (s.dirEntry l).st = 3 := by
  by_contra hst
  simp [State.dirtyLine, hst] at h

/-- The entry of line `l` once the caching master `c` alone holds it, in M. -/
def State.soleEntry (s : State) (c l key : Nat) : DirEntry :=
  ⟨3, setBits 0 c 1 1, key, 0, keepCores (s.dirEntry l).cores (setBits 0 c 1 1)⟩

section
variable {s : State} {c l key : Nat} (hkey : s.keyErr l key = false)
include hkey

theorem State.dirRdS_holder (hown : bits (s.dirEntry l).sharers c 1 = 1) : s.dirRdS c l key = (respOk, s.copyOf l, s) := by
  simp [State.dirRdS, hkey, hown]

theorem State.dirRdU_holder (hown : bits (s.dirEntry l).sharers c 1 = 1) (hst : (s.dirEntry l).st ≠ 0) :
    s.dirRdU c l key = (respOk, s.copyOf l, (s.setDir l (s.soleEntry c l key)).setCopy l (s.copyOf l)) := by
  simp [State.dirRdU, State.soleEntry, hkey, hown, hst]

/-- The data of another holder's M line goes to the requester, which has it from then on. -/
theorem State.dirRdU_dirty {m : List TWord} (hother : bits (s.dirEntry l).sharers c 1 = 0) (hdirty : s.dirtyLine l = some m) :
    s.dirRdU c l key = (respOk, m, (((s.takeSlots l 1).cacheRoom c).setDir l (s.soleEntry c l key)).setCopy l m) := by
  simp [State.dirRdU, State.soleEntry, hkey, hother, hdirty, State.st_of_dirtyLine hdirty]

end

section
variable {s : State} {c : Fin 17} {pos : Fin 13} {key : BitVec 13} {l : LineNo}

theorem State.cacheArrive_barred (d : DirEcc) (op : SliceOp) (hbar : s.dramBarred c pos l = true) :
    s.cacheArrive c pos key l d op = s.reply errPerm poisonLine := if_pos hbar

section
variable (hbar : s.dramBarred c pos l = false) (hplace : s.place (l * 64) ≠ none) (hlock : (s.lockUnit (s.sliceOf (l * 64))).held = false)
include hbar hplace hlock

theorem State.cacheArrive_serves {op : SliceOp} (hop : op ≠ .lkld) :
    s.cacheArrive c pos key l .clean op = s.serve (cacheReq c pos key l op) :=
  (if_neg (by simp [hbar])).trans (State.arrive_serves hplace hlock hop)

variable {resp : Nat} {m : List TWord} {t : State}

theorem exec_rdS_serves (hdir : s.dirRdS c l key.toNat = (resp, m, t)) : exec (.rdS c pos key l .clean) s = .next (t.reply resp m) := by
  refine congrArg Host.Outcome.next ((State.cacheArrive_serves hbar hplace hlock (by simp)).trans ?_)
  simp [State.serve, cacheReq, hdir]

theorem exec_rdU_serves (hdir : s.dirRdU c l key.toNat = (resp, m, t)) : exec (.rdU c pos key l .clean) s = .next (t.reply resp m) := by
  refine congrArg Host.Outcome.next ((State.cacheArrive_serves hbar hplace hlock (by simp)).trans ?_)
  simp [State.serve, cacheReq, hdir]

variable (hkey : s.keyErr l key.toNat = false)
include hkey

theorem exec_upg_holder (hown : bits (s.dirEntry l).sharers c 1 = 1) :
    exec (.upg c pos key l .clean) s = .next ((s.setDir l (s.soleEntry c l key.toNat)).reply respOk []) := by
  refine congrArg Host.Outcome.next ((State.cacheArrive_serves hbar hplace hlock (by simp)).trans ?_)
  simp [State.serve, State.soleEntry, cacheReq, hkey, hown]

/-- An UPG of a master that an SNP_INV has passed is served as an RD_U, 11 R411. -/
theorem exec_upg_passed (hother : bits (s.dirEntry l).sharers c 1 = 0) (hdir : s.dirRdU c l key.toNat = (resp, m, t)) :
    exec (.upg c pos key l .clean) s = .next (t.reply resp m) := by
  refine congrArg Host.Outcome.next ((State.cacheArrive_serves hbar hplace hlock (by simp)).trans ?_)
  simp [State.serve, cacheReq, hkey, hother, hdir]

end

/-! Evictions, 11 R407 and R410. -/

theorem exec_wb (ws : Line) (hst : (s.dirEntry l).st = 3) (hown : bits (s.dirEntry l).sharers c 1 = 1) (hlost : s.remapLost l .clean = false) :
    exec (.wb c l ws) s =
      .next (((if (s.dirEntry l).evicting = 4 then s else (s.takeSlots l 1).storeLine l (s.dirEntry l).keyid ws.toList).setDir l DirEntry.none).reply
        respOk []) :=
  congrArg Host.Outcome.next ((if_pos ⟨hst, hown⟩).trans (if_neg (by simp [hlost])))

theorem exec_evc_clean (hst : (s.dirEntry l).st ≠ 3) : exec (.evc c l) s = .next (s.dropHolder l c) := congrArg Host.Outcome.next (if_pos hst)

/-! Snoops, 11 R408 and R412. -/

theorem exec_snpSh (crossing : Bool) : exec (.snpSh c l crossing) s = execSnpSh c l crossing s := rfl

theorem exec_snpInv (crossing : Bool) : exec (.snpInv c l crossing) s = execSnpInv c l crossing s := rfl

theorem exec_snpRd (crossing : Bool) : exec (.snpRd c l crossing) s = execSnpRd c l crossing s := rfl

theorem exec_snpDrop (crossing : Bool) : exec (.snpDrop c l crossing) s = execSnpDrop c l crossing s := rfl

theorem exec_snpRd_crossing : exec (.snpRd c l true) s = .next (s.snpEvicting l 3) := rfl

section
variable (hmiss : s.holds l c = false)
include hmiss

theorem exec_snpSh_miss : exec (.snpSh c l false) s = .next (s.snpMiss l c) := by
  simp [exec_snpSh, execSnpSh, hmiss]

theorem exec_snpDrop_miss : exec (.snpDrop c l false) s = .next (s.snpMiss l c) := by
  simp [exec_snpDrop, execSnpDrop, hmiss]

end

section
variable (hholds : s.holds l c = true)
include hholds

theorem exec_snpSh_owner (hst : 2 ≤ (s.dirEntry l).st) : exec (.snpSh c l false) s =
    .next (((s.collect l).setDir l { s.dirEntry l with st := 1 }).emit (.snoop 0 (s.copyOf l))) := by
  simp [exec_snpSh, execSnpSh, hholds, hst]

theorem exec_snpDrop_holder : exec (.snpDrop c l false) s = .next ((s.dropHolder l c).emit (.snoop 1 [])) := by
  simp [exec_snpDrop, execSnpDrop, hholds]

section
variable {m : List TWord} (hdirty : s.dirtyLine l = some m)
include hdirty

theorem exec_snpInv_dirty : exec (.snpInv c l false) s = .next (((s.collect l).dropHolder l c).emit (.snoop 0 m)) := by
  simp [exec_snpInv, execSnpInv, hholds, hdirty]

theorem exec_snpRd_dirty : exec (.snpRd c l false) s = .next (s.emit (.snoop 0 m)) := by
  simp [exec_snpRd, execSnpRd, hholds, hdirty]

end

section
variable (hclean : s.dirtyLine l = none)
include hclean

theorem exec_snpInv_clean : exec (.snpInv c l false) s = .next ((s.dropHolder l c).emit (.snoop 1 [])) := by
  simp [exec_snpInv, execSnpInv, hholds, hclean]

theorem exec_snpRd_clean : exec (.snpRd c l false) s = .next (s.emit (.snoop 1 [])) := by
  simp [exec_snpRd, execSnpRd, hholds, hclean]

end
end
end

/-- Settles O26: a request by whether its master is barred and who holds the line, an eviction by the line's entry, a snoop by what its holder has. -/
theorem coherenceAndDefaultTarget : Obligations.CoherenceAndDefaultTarget := by
  intro x a c pos key l ws s p d alone
  refine ⟨exec_defaultTargetAccess_fox a s, fun hmid => ⟨_, exec_defaultTargetAccess_decode a s hmid, rfl, rfl⟩, fun hbar => ?_,
    fun hbar hplace hlock hkey => ⟨fun hown hst => ?_, fun m hother hdirty hp => ?_⟩, fun hst hown hlost hev => ?_, fun hst hown hlost hev => ?_,
    exec_evc_clean, fun hholds => ⟨exec_snpSh_owner hholds, fun m hdirty => ⟨exec_snpInv_dirty hholds hdirty, exec_snpRd_dirty hholds hdirty⟩,
      fun hclean => ⟨exec_snpInv_clean hholds hclean, exec_snpRd_clean hholds hclean⟩, exec_snpDrop_holder hholds⟩,
    fun hmiss => ⟨exec_snpSh_miss hmiss, exec_snpDrop_miss hmiss⟩, exec_snpRd_crossing⟩
  · have hrefused (op : SliceOp) := State.cacheArrive_barred (key := key) .clean op hbar
    exact ⟨congrArg Host.Outcome.next (hrefused _), congrArg Host.Outcome.next (hrefused _), congrArg Host.Outcome.next (hrefused _)⟩
  · exact ⟨exec_rdS_serves hbar hplace hlock (State.dirRdS_holder hkey hown),
      exec_rdU_serves hbar hplace hlock (State.dirRdU_holder hkey hown hst), exec_upg_holder hbar hplace hlock hkey hown⟩
  · subst hp
    have hdir := State.dirRdU_dirty hkey hother hdirty
    exact ⟨exec_rdU_serves hbar hplace hlock hdir, exec_upg_passed hbar hplace hlock hkey hother hdir⟩
  · rw [exec_wb ws hst hown hlost, if_neg hev]
  · rw [exec_wb ws hst hown hlost, if_pos hev]

end Sys2Proof.Machine

/-! PROOFS. A step and the queue of commands (log entries 1 and 2). -/
namespace Sys2Proof.Machine

theorem step_of_front {s : State} {c : Instr} {rest : List Instr} (h : s.pending = c :: rest) : step s = exec c { s with pending := rest } := by
  simp [step, h]

theorem step_of_empty {s : State} (h : s.pending = []) : step s = .next s.tick := by
  simp [step, h]

/-- Settles O1: the two cases of the queue; the table spells no command. -/
theorem stepRunsTheFrontCommand : Obligations.StepRunsTheFrontCommand := by
  intro c rest n w s
  exact ⟨step_of_front, step_of_empty, rfl, rfl⟩

/-- Settles O4: a step keeps the rest of the queue, whatever command it takes. -/
theorem queueOnlyDrains : Obligations.QueueOnlyDrains := by
  intro s t hwf h
  obtain ⟨hrest, -⟩ := step_keeps h
  have htail : t.pending = s.pending.tail := hrest
  exact ⟨htail, fun c hc => hwf c (List.mem_of_mem_tail (htail ▸ hc))⟩

end Sys2Proof.Machine

/-! PROOFS. Assertion, claim and completion of interrupts, and the pulses of the event router (12 R420 to R441, R602). -/
namespace Sys2Proof.Machine
open Reg

section
variable (s : State)

/-! What presenting sources to host contexts changes, 12 R424 and R433. -/

/-- The state without what a presentation to a host context changes. -/
def State.sansPresented : State := { s with ic := { s.ic with sent := [], pba := [] }, outbox := [] }

theorem State.refreshHost_sansPresented (c : Nat) : (s.refreshHost c).sansPresented = s.sansPresented := by
  unfold State.refreshHost State.sendMsix
  dsimp only
  split_ifs
  · rfl
  · split
    · rfl
    · split_ifs <;> rfl

theorem State.refreshSrc_sansPresented (i : Nat) : (s.refreshSrc i).sansPresented = s.sansPresented := by
  unfold State.refreshSrc
  split
  · rfl
  · exact s.refreshHost_sansPresented _

theorem State.refreshAll_sansPresented : s.refreshAll.sansPresented = s.sansPresented :=
  (eachDo_invariant State.sansPresented (fun i t => t.refreshSrc_sansPresented i) _ _).trans
    (eachDo_invariant State.sansPresented (fun c t => t.refreshHost_sansPresented c) _ s)

/-- Sources are read from the interrupt controller alone. -/
theorem State.src_congr {s t : State} (h : t.ic = s.ic) (i : Nat) : t.src i = s.src i := by rw [State.src, State.src, h]

@[simp] theorem State.src_refreshHost (c i : Nat) : (s.refreshHost c).src i = s.src i := (congrArg (State.src · i) (s.refreshHost_sansPresented c) :)

@[simp] theorem State.src_refreshSrc (j i : Nat) : (s.refreshSrc j).src i = s.src i := (congrArg (State.src · i) (s.refreshSrc_sansPresented j) :)

@[simp] theorem State.src_refreshAll (i : Nat) : s.refreshAll.src i = s.src i := (congrArg (State.src · i) s.refreshAll_sansPresented :)

@[simp] theorem State.waiting_refreshAll : s.refreshAll.ic.waiting = s.ic.waiting := congrArg (·.ic.waiting) s.refreshAll_sansPresented

@[simp] theorem State.gpHigh_refreshSrc (i : Nat) : (s.refreshSrc i).ic.gpHigh = s.ic.gpHigh :=
  congrArg (·.ic.gpHigh) (s.refreshSrc_sansPresented i)

@[simp] theorem State.src_setSrc (i : Nat) (x : Src) : (s.setSrc i x).src i = x := sget_sset_same _ _ _ _

theorem State.src_setSrc_ne {i k : Nat} (x : Src) (h : k ≠ i) : (s.setSrc i x).src k = s.src k := sget_sset_ne _ _ _ _ _ h

/-! Assertion, 12 R420. -/

theorem State.assert_disabled {i : Nat} (h : s.flag (IC_SRC_CFG i) IC_SRC_CFG_EN = false) : s.assert i = s := by
  simp [State.assert, h]

theorem State.assert_full {i : Nat} (h : s.flag (IC_SRC_CFG i) IC_SRC_CFG_EN = true) (hfull : (s.src i).count = 15) :
    s.assert i = (s.setSrc i { s.src i with ovf := true }).wr IC_ERR IC_ERR_OVF 1 := by
  simp [State.assert, h, hfull]

theorem State.assert_counts {i : Nat} (h : s.flag (IC_SRC_CFG i) IC_SRC_CFG_EN = true) (hroom : (s.src i).count ≠ 15) :
    s.assert i = (s.setSrc i { s.src i with count := (s.src i).count + 1 }).refreshSrc i := by
  simp [State.assert, h, hroom]

/-- An assertion leaves every source's claim as it is. -/
theorem State.active_assert (i k : Nat) : ((s.assert i).src k).active = (s.src k).active := by
  have hset (x : Src) (hx : x.active = (s.src i).active) : ((s.setSrc i x).src k).active = (s.src k).active := by
    by_cases hk : k = i
    · rw [hk, State.src_setSrc, hx]
    · rw [s.src_setSrc_ne x hk]
  by_cases hen : s.flag (IC_SRC_CFG i) IC_SRC_CFG_EN = true
  · by_cases hfull : (s.src i).count = 15
    · rw [s.assert_full hen hfull]
      exact hset _ rfl
    · rw [s.assert_counts hen hfull, State.src_refreshSrc]
      exact hset _ rfl
  · rw [s.assert_disabled (by simpa using hen)]

@[simp] theorem State.gpHigh_assert (i : Nat) : (s.assert i).ic.gpHigh = s.ic.gpHigh := by
  unfold State.assert
  dsimp only
  split_ifs
  · rfl
  · exact State.gpHigh_refreshSrc _ i
  · rfl

/-! Claims, 12 R426 and R427. -/

section
variable {s : State} {c : Nat}

theorem State.claim1_none (h : s.candidate c true = none) : s.claim1 c = (claimNone, s) := by
  simp [State.claim1, h]

@[simp] theorem State.src_startHoldoff (i k : Nat) : (s.startHoldoff i).src k = s.src k := by
  unfold State.startHoldoff
  dsimp only
  split_ifs <;> rfl

@[simp] theorem State.waiting_startHoldoff (i : Nat) : (s.startHoldoff i).ic.waiting = s.ic.waiting := by
  unfold State.startHoldoff
  dsimp only
  split_ifs <;> rfl

/-- A claim gives the candidate's number, priority and count. -/
theorem State.claim1_value {k : Nat} (h : s.candidate c true = some k) :
    (s.claim1 c).1 = BitVec.ofNat 64 (k + s.prio k * 2 ^ 10 + (s.src k).count * 2 ^ 16) := by
  simp only [State.claim1, h]

/-- A claim empties the candidate's count and makes it ACTIVE for the context. -/
theorem State.claim1_src {k : Nat} (h : s.candidate c true = some k) :
    ∃ pre, (s.claim1 c).2.src k = { s.src k with count := 0, active := true, preempt := pre, ctx := c } := by
  simp only [State.claim1, h, State.src_refreshAll, State.src_startHoldoff, State.src_setSrc]
  exact ⟨_, rfl⟩

theorem State.waiting_claim1 : (s.claim1 c).2.ic.waiting = s.ic.waiting := by
  unfold State.claim1
  split
  · rfl
  · simp only [State.waiting_refreshAll, State.waiting_startHoldoff]
    rfl

theorem State.settleClaim_sender (at' m : Nat) :
    s.settleClaim ⟨c, at', .sender, m⟩ = (s.claim1 c).2.reply respOk [⟨tagU64, (s.claim1 c).1⟩] := rfl

/-- The settled claims of an XCLK are counted by the controller, not by a claim. -/
theorem State.settled_claim1 : (s.claim1 c).2.ic.settled = s.ic.settled := by
  unfold State.claim1
  split
  · rfl
  · refine (congrArg (·.ic.settled) (State.refreshAll_sansPresented _)).trans ?_
    unfold State.startHoldoff
    dsimp only
    split_ifs <;> rfl

end

/-- The state past a claim that is settled in its own XCLK. -/
def State.claimed (c : Nat) : State :=
  { (s.claim1 c).2.reply respOk [⟨tagU64, (s.claim1 c).1⟩] with ic := { (s.claim1 c).2.ic with settled := s.ic.settled + 1 } }

theorem exec_claim_settles (c : Fin 3586) (hwait : s.ic.waiting = []) (hroom : s.ic.settled < 16) :
    exec (.claim c) s = .next (s.claimed c) := by
  refine congrArg Host.Outcome.next ((if_pos ⟨hwait, hroom⟩).trans ?_)
  simp only [State.settleClaim_sender, State.claimed, ← s.settled_claim1 (c := c)]
  rfl

theorem exec_claim_waits (c : Fin 3586) (h : s.ic.waiting ≠ [] ∨ 16 ≤ s.ic.settled) : exec (.claim c) s =
    .next { s with ic := { s.ic with waiting := insClaim ⟨c, s.gav.xclk, .sender, 2 ^ 64 - 1⟩ s.ic.waiting } } := by
  refine congrArg Host.Outcome.next (if_neg ?_)
  rintro ⟨hwait, hroom⟩
  rcases h with h | h
  · exact h hwait
  · omega

/-- A claim that no waiting one of its XCLK yields to goes behind them all. -/
theorem insClaim_last (r : ClaimReq) (l : List ClaimReq) (h : ∀ z ∈ l, z.at' = r.at' → z.ctx ≤ r.ctx) : insClaim r l = l ++ [r] := by
  induction l with
  | nil => rfl
  | cons x l ih =>
    have hx : ¬(r.at' = x.at' ∧ r.ctx < x.ctx) := by
      rintro ⟨hat, hlt⟩
      have := h x List.mem_cons_self hat.symm
      omega
    rw [insClaim, if_neg hx, ih fun z hz => h z (List.mem_cons_of_mem x hz)]
    rfl

/-! Completion, 12 R429. -/

theorem State.complete_none (c : Nat) : s.complete c 1023 = s := rfl

theorem State.complete_bad {c i : Nat} (hi : i ≠ 1023) (h : (s.src i).active = false ∨ (s.src i).ctx ≠ c) :
    s.complete c i = (s.wr IC_ERR IC_ERR_BADCOMPLETE 1).count IC_BADCPL IC_BADCPL_COUNT 1 := by
  simp [State.complete, hi, h]

/-- The completed source is no longer ACTIVE, even where its condition asserts it again. -/
theorem State.active_complete {c i : Nat} (hi : i ≠ 1023) (hact : (s.src i).active = true) (hctx : (s.src i).ctx = c) :
    ((s.complete c i).src i).active = false := by
  unfold State.complete
  extract_lets x freed again
  rw [if_neg hi, if_neg (by simp [x, hact, hctx])]
  have hagain : (again.src i).active = false := by
    dsimp only [again]
    split_ifs
    · rw [State.active_assert, State.src_setSrc]
    · rw [State.src_setSrc]
  split_ifs
  · rwa [State.src_refreshAll, State.src_refreshHost]
  · rwa [State.src_refreshAll]

/-! Hold-offs and masks, 12 R428 and R433. -/

theorem State.endHoldoffs_ended
    (h : s.ic.holdoff.any (fun p => !p.2.any fun k => decide (s.gav.mono < k)) = true) : s.endHoldoffs =
      State.refreshAll { s with ic := { s.ic with holdoff := s.ic.holdoff.filter fun p => p.2.any fun k => decide (s.gav.mono < k) } } := by
  refine if_neg fun hall => ?_
  rw [List.all_eq_not_any_not] at hall
  simp [h] at hall

theorem State.msixUnmask_idle {v : Nat} (h : sget (fun _ => false) s.ic.pba v = false) : s.msixUnmask v =
    { s with ic := { s.ic with unmasked := sset (fun _ => false) s.ic.unmasked v true, pba := sset (fun _ => false) s.ic.pba v false } } := by
  simp [State.msixUnmask, h]

/-! The platform view, 19 R577. -/

section
variable {s : State} {r : Requester} (f : State → State)

theorem State.plat_ok (h : s.platOk r = true) : s.plat r f = f s := if_pos h

theorem State.plat_refused (h : s.platOk r = false) : s.plat r f = s.reply errPerm [] := if_neg (by simp [h])

end

/-! Configuration of a source, 12 R422 and R434. -/

section
variable {s : State} {i : Nat} {d : Word}

theorem State.srcCfg_level3 (h : bits d.toNat 7 2 = 3) : s.srcCfg i d = s.reply errTarget [] := if_pos h

/-- The fields of IC_SRC_CFG that a write sets. -/
def srcCfgWord (d : Word) : Word := BitVec.ofNat 64 (bits d.toNat 0 22 + bits d.toNat 32 11 * 2 ^ 32 + bits d.toNat 48 13 * 2 ^ 48)

theorem State.setSrcCfg_enabled (h : bits d.toNat 0 1 ≠ 0) : s.setSrcCfg i d = s.setReg (IC_SRC_CFG i) (srcCfgWord d) := if_neg h

theorem State.setSrcCfg_disabled (h : bits d.toNat 0 1 = 0) :
    s.setSrcCfg i d = (s.setReg (IC_SRC_CFG i) (srcCfgWord d)).setSrc i { s.src i with count := 0 } := by
  rw [State.setSrcCfg, if_pos h, State.src_congr (s.setReg_ic _ _)]
  rfl

theorem State.srcCfg_taken (h : bits d.toNat 7 2 ≠ 3) : s.srcCfg i d = (s.setSrcCfg i d).refreshAll.reply respOk [] := if_neg h

end

/-! Pulses, 12 R437 to R441. -/

/-- A pulse on a channel without an event output drives none. -/
theorem State.gpHigh_pulse {ch : Nat} (h : ch < 32) : (s.pulse ch).ic.gpHigh = s.ic.gpHigh := by
  unfold State.pulse State.pulse0
  extract_lets t
  have ht : t.ic.gpHigh = s.ic.gpHigh := by
    dsimp only [t]
    split_ifs
    · exact State.gpHigh_assert _ _
    · rfl
  rw [if_neg (by simp [show ¬ 32 ≤ ch by omega]), ht]

theorem State.gpHigh_gavPulse {ch : Nat} (h : ch < 32) : (s.gavPulse ch).ic.gpHigh = s.ic.gpHigh := by
  unfold State.gavPulse
  split_ifs
  · rfl
  · exact State.gpHigh_pulse _ h

theorem State.ic_edgesSee (n : Nat) : (s.edgesSee n).ic = s.ic :=
  eachDo_invariant State.ic (fun e t => by split_ifs <;> rfl) _ s

/-- An event output whose pulse has ended falls at the PCLK edge. -/
theorem State.gpHigh_pinEdge1 (n : Fin 32) (h : sget (fun _ => 0) s.ic.gpEnd (32 + n.val) ≤ s.gav.xclk) :
    sget (fun _ => false) (s.pinEdge1 n).ic.gpHigh (32 + n.val) = false := by
  unfold State.pinEdge1
  extract_lets _ fallen seen x u
  have hfallen : sget (fun _ => false) fallen.ic.gpHigh (32 + n.val) = false := by
    simp [fallen, h]
  have hseen : seen.ic.gpHigh = fallen.ic.gpHigh := congrArg Ic.gpHigh ((fallen.drivePin n).ic_edgesSee n)
  have hx : x.2.ic.gpHigh = fallen.ic.gpHigh := by
    dsimp only [x]
    split_ifs <;> exact hseen
  split_ifs
  · exact (congrArg (sget _ · _) hx).trans hfallen
  · exact (congrArg (sget _ · _) ((u.gpHigh_gavPulse n.isLt).trans hx)).trans hfallen
  · exact (congrArg (sget _ · _) hx).trans hfallen

end

/-! What the commands do. -/

/-- The IDs that nothing asserts, 12 R602. -/
def NeverAsserts (i : Nat) : Prop :=
  i = 681 ∨ i = 682 ∨ (686 ≤ i ∧ i ≤ 719) ∨ (817 ≤ i ∧ i ≤ 847) ∨ (900 ≤ i ∧ i ≤ 911) ∨ i = 918 ∨ i = 919 ∨ (940 ≤ i ∧ i ≤ 959) ∨ 1020 ≤ i

section
variable {s : State} {i : Fin 1024}

theorem exec_sourceAssert_never (h : NeverAsserts i) : exec (.sourceAssert i) s = .next s :=
  congrArg Host.Outcome.next (if_pos (by simpa [NeverAsserts, or_assoc] using h))

theorem exec_sourceAssert (h : ¬ NeverAsserts i) :
    exec (.sourceAssert i) s = .next (if srcIsState i then s.setCond i true else s.assert i) :=
  congrArg Host.Outcome.next (if_neg (by simpa [NeverAsserts, or_assoc] using h))

theorem exec_complete (c : Fin 3586) (id : BitVec 10) : exec (.complete c id) s = .next ((s.complete c id.toNat).reply respOk []) := rfl

theorem exec_icSgi (r : Requester) (id : BitVec 10) :
    exec (.icSgi r id) s = .next (s.plat r fun s => (s.sgi id.toNat).reply respOk []) := rfl

theorem exec_tpDoorbell (tn : BitVec 13) (id : BitVec 10) :
    exec (.tpDoorbell tn id) s = .next ((s.doorbell tn.toNat id.toNat).reply respOk []) := rfl

theorem exec_icSrcCfg (r : Requester) (d : Word) : exec (.icSrcCfg r i d) s = .next (s.plat r fun s => s.srcCfg i d) := rfl

theorem exec_evrFire (r : Requester) (hi : Bool) (d : Word) : exec (.evrFire r hi d) s = .next (s.plat r fun s => s.evrFire hi d) := rfl

theorem exec_holdoffExpiry_idle {g : Fin 64} (h : sget (fun _ => none) s.ic.holdoff g = none) : exec (.holdoffExpiry g) s = .next s := by
  refine congrArg Host.Outcome.next ?_
  simp only [h]

theorem exec_holdoffExpiry_runs {g : Fin 64} {e : Nat} (h : sget (fun _ => none) s.ic.holdoff g = some e) :
    exec (.holdoffExpiry g) s = .next (s.passTo e).endHoldoffs := by
  refine congrArg Host.Outcome.next ?_
  simp only [h]

end

theorem toNat_ne_of_ne_allOnes {id : BitVec 10} (h : id ≠ 0x3FF) : id.toNat ≠ 1023 := fun hn => h (BitVec.eq_of_toNat_eq hn)

/-- Settles O39: each command by the lemma of its case. -/
theorem interruptsAndEvents : Obligations.InterruptsAndEvents := by
  constructor
  · intro i c id g v r s x y never
    refine ⟨exec_sourceAssert_never, fun hn hev => ?_, fun hn hst => ?_, fun hwait hroom => ?_,
      fun h => ⟨exec_claim_waits s c h, insClaim_last ⟨c, s.gav.xclk, .sender, 2 ^ 64 - 1⟩ _⟩, fun hid => ?_, fun hid hbad => ?_, fun hid hact hctx => ?_,
      exec_holdoffExpiry_idle, fun e => exec_holdoffExpiry_runs, State.endHoldoffs_ended,
      fun h => congrArg Host.Outcome.next (s.msixUnmask_idle h), fun h => ?_⟩
    · simp only [exec_sourceAssert hn, hev, Bool.false_eq_true, if_false]
      exact ⟨fun h => congrArg _ (s.assert_disabled h), fun h hfull => congrArg _ (s.assert_full h hfull),
        fun h hcount => congrArg _ (s.assert_counts h hcount)⟩
    · rw [exec_sourceAssert hn, if_pos hst]
    · refine ⟨_, exec_claim_settles s c hwait hroom, rfl, (State.waiting_claim1).trans hwait, fun hnone => ?_, fun k hk => ?_⟩
      · simp only [State.claimed, State.claim1_none hnone]
        rfl
      · obtain ⟨pre, hsrc⟩ := State.claim1_src hk
        have hk' : (s.claimed c).src k = (s.claim1 c).2.src k := rfl
        rw [hk', hsrc]
        exact ⟨by simp only [State.claimed, State.claim1_value hk]; rfl, rfl, rfl, rfl⟩
    · rw [exec_complete, hid]
      rfl
    · rw [exec_complete, s.complete_bad (toNat_ne_of_ne_allOnes hid) hbad]
    · exact ⟨_, exec_complete c id, s.active_complete (toNat_ne_of_ne_allOnes hid) hact hctx, rfl⟩
    · rw [exec_icSgi, State.plat_refused _ h]
  · intro r i d ch hi n s w t
    refine ⟨fun h => ⟨?_, ?_⟩, fun h => ⟨fun hlev => ?_, fun hlev hen => ?_, fun hlev hen => ?_, ?_⟩, rfl, fun h => ?_,
      fun k h hk => ?_, s.gpHigh_pinEdge1 n, fun c h => if_pos h⟩
    · rw [exec_icSrcCfg, State.plat_refused _ h]
    · rw [exec_evrFire, State.plat_refused _ h]
    · rw [exec_icSrcCfg, State.plat_ok _ h, State.srcCfg_level3 hlev]
    · rw [exec_icSrcCfg, State.plat_ok _ h, State.srcCfg_taken hlev, State.setSrcCfg_enabled (by rw [hen]; exact one_ne_zero)]
      rfl
    · rw [exec_icSrcCfg, State.plat_ok _ h, State.srcCfg_taken hlev, State.setSrcCfg_disabled hen]
      rfl
    · rw [exec_evrFire, State.plat_ok _ h]
      rfl
    · exact congrArg Host.Outcome.next (if_neg (by simp [h]))
    · subst hk
      exact congrArg Host.Outcome.next (if_pos h)

/-- Settles O58: a write of an ID by its range, and from a tenant page by the source's OWNER. -/
theorem softwareInterrupts : Obligations.SoftwareInterrupts := by
  intro r id tn s hr n
  simp only [exec_icSgi, exec_tpDoorbell, State.plat_ok _ hr]
  refine ⟨fun hlo hhi => ⟨?_, fun hown => ?_, fun hown => ?_⟩, fun h => ⟨?_, ?_⟩⟩
  · rw [State.sgi, if_pos ⟨hlo, hhi⟩]
  · rw [State.doorbell, if_pos ⟨hlo, hhi, hown⟩]
  · rw [State.doorbell, if_neg fun hall => hown hall.2.2]
  · rw [State.sgi, if_neg (by omega)]
  · rw [State.doorbell, if_neg (by omega)]

end Sys2Proof.Machine

/-! PROOFS. The registers that the event recorder writes, and what it leaves alone (18 R570 to R573). -/
namespace Sys2Proof.Machine
open Reg

/-! Parts of a sparse map. -/

section
variable {α : Type} [DecidableEq α] {d : Nat → α} {f : Nat → Bool} {k : Nat}

omit [DecidableEq α] in
/-- A part of a map reads as the map does at the keys that it keeps. -/
theorem sget_filter (m : Sparse α) (h : f k = true) : sget d (m.filter fun p => f p.1) k = sget d m k := by
  induction m with
  | nil => rfl
  | cons p r ih =>
    obtain ⟨a, v⟩ := p
    by_cases ha : a = k
    · simp [ha, h, sget]
    · by_cases hf : f a = true
      · simpa [hf, sget, ha] using ih
      · simpa [hf, sget, ha] using ih

omit [DecidableEq α] in
theorem filter_sins (m : Sparse α) (v : α) (h : f k = false) : (sins m k v).filter (fun p => f p.1) = m.filter fun p => f p.1 := by
  induction m with
  | nil => simp [sins, h]
  | cons p r ih =>
    obtain ⟨a, w⟩ := p
    unfold sins
    split_ifs
    · simp [h]
    · simp only [List.filter_cons, ih]

omit [DecidableEq α] in
theorem filter_sdel (m : Sparse α) (h : f k = false) : (sdel m k).filter (fun p => f p.1) = m.filter fun p => f p.1 := by
  rw [sdel, List.filter_filter]
  refine List.filter_congr fun p _ => ?_
  by_cases hp : p.1 = k
  · simp [hp, h]
  · simp [hp]

/-- A write at a key outside a part of a map leaves that part. -/
theorem filter_sset (m : Sparse α) (v : α) (h : f k = false) : (sset d m k v).filter (fun p => f p.1) = m.filter fun p => f p.1 := by
  unfold sset
  split_ifs
  · exact filter_sdel m h
  · rw [filter_sins _ v h, filter_sdel m h]

end

/-- The registers that a submission to the recorder writes: those of Marigold, and IC_ERR where its sources overflow. -/
def recorderRegs : List Nat := [IC_ERR, MGD_STAT, MGD_LOST, MGD_DRAM, MGD_FLASH]

/-- The state without what the recorder writes: its registers, its rings, the interrupts that it asserts and their messages. -/
def State.sansRecord (s : State) : State :=
  { s with regs := s.regs.filter fun p => !recorderRegs.contains p.1, ic := Ic.reset, mgd := Marigold.reset, outbox := [] }

section
variable {s t u : State}

/-- A register that the recorder does not write. -/
theorem State.reg_of_sansRecord (h : t.sansRecord = s.sansRecord) {off : Nat} (hoff : off ∉ recorderRegs) : t.reg off = s.reg off := by
  have hregs : t.regs.filter (fun p => !recorderRegs.contains p.1) = s.regs.filter fun p => !recorderRegs.contains p.1 := (congrArg State.regs h :)
  have hkeep : (!recorderRegs.contains off) = true := by simpa using hoff
  have hread (m : Sparse Word) := sget_filter (d := regReset) (f := fun k => !recorderRegs.contains k) m hkeep
  rw [State.reg, State.reg, ← hread t.regs, hregs, hread s.regs]

theorem State.qm_of_sansRecord (h : t.sansRecord = s.sansRecord) : t.qm = s.qm := (congrArg State.qm h :)

theorem State.mem_of_sansRecord (h : t.sansRecord = s.sansRecord) : t.mem = s.mem := (congrArg State.mem h :)

theorem State.cfg_of_sansRecord (h : t.sansRecord = s.sansRecord) : t.cfg = s.cfg := (congrArg State.cfg h :)

theorem State.ite_sansRecord {c : Prop} [Decidable c] (ht : t.sansRecord = s.sansRecord) (hu : u.sansRecord = s.sansRecord) :
    (if c then t else u).sansRecord = s.sansRecord := by
  split_ifs <;> assumption

end

section
variable (s : State)

theorem State.withMgd_sansRecord (m : Marigold) : ({ s with mgd := m } : State).sansRecord = s.sansRecord := rfl

section
variable {off : Nat} (h : off ∈ recorderRegs)
include h

theorem State.setReg_sansRecord (w : Word) : (s.setReg off w).sansRecord = s.sansRecord := by
  rw [State.sansRecord, State.sansRecord]
  congr 1
  exact filter_sset (f := fun k => !recorderRegs.contains k) _ _ (by simpa using h)

theorem State.wr_sansRecord (f : Fld) (v : Nat) : (s.wr off f v).sansRecord = s.sansRecord := s.setReg_sansRecord h _

theorem State.count_sansRecord (f : Fld) (n : Nat) : (s.count off f n).sansRecord = s.sansRecord := s.wr_sansRecord h f _

end

theorem State.refreshSrc_sansRecord (i : Nat) : (s.refreshSrc i).sansRecord = s.sansRecord :=
  (congrArg State.sansRecord (s.refreshSrc_sansPresented i) :)

@[simp] theorem State.assert_sansRecord (i : Nat) : (s.assert i).sansRecord = s.sansRecord := by
  unfold State.assert
  dsimp only
  split_ifs
  · exact State.wr_sansRecord _ (by simp [recorderRegs]) _ _
  · exact State.refreshSrc_sansRecord _ i
  · rfl

theorem State.flashCopy_sansRecord (r : MRec) : (s.flashCopy r).sansRecord = s.sansRecord :=
  (State.withMgd_sansRecord _ _).trans (s.wr_sansRecord (by simp [recorderRegs]) MGD_FLASH_HEAD _)

theorem State.dramCopy_sansRecord (r : MRec) : (s.dramCopy r).sansRecord = s.sansRecord := by
  unfold State.dramCopy
  extract_lets h t
  have ht : t.sansRecord = s.sansRecord := (State.withMgd_sansRecord _ _).trans (s.wr_sansRecord (by simp [recorderRegs]) MGD_DRAM_HEAD h)
  exact State.ite_sansRecord ((t.count_sansRecord (by simp [recorderRegs]) _ _).trans ht) ht

theorem State.spill_sansRecord : s.spill.sansRecord = s.sansRecord := by
  unfold State.spill
  extract_lets n h slots t
  have ht : t.sansRecord = s.sansRecord := eachDo_invariant State.sansRecord (fun i u => u.dramCopy_sansRecord _) _ s
  exact State.ite_sansRecord ((State.withMgd_sansRecord _ _).trans ((t.wr_sansRecord (by simp [recorderRegs]) MGD_STAT_COUNT _).trans ht)) rfl

theorem State.writeRec_sansRecord (x : MSub) : (s.writeRec x).sansRecord = s.sansRecord := by
  unfold State.writeRec
  extract_lets rest head flags r t _ written flashed _ asserted fresh _
  have hwritten : written.sansRecord = s.sansRecord :=
    (State.withMgd_sansRecord _ _).trans ((State.wr_sansRecord _ (by simp [recorderRegs]) MGD_STAT_COUNT _).trans (s.wr_sansRecord (by simp [recorderRegs]) MGD_STAT_HEAD _))
  have hflashed : flashed.sansRecord = s.sansRecord := State.ite_sansRecord ((written.flashCopy_sansRecord r).trans hwritten) hwritten
  have hasserted : asserted.sansRecord = s.sansRecord := State.ite_sansRecord ((State.assert_sansRecord _ 938).trans hflashed) hflashed
  have hfresh : fresh.sansRecord = s.sansRecord := asserted.spill_sansRecord.trans hasserted
  clear_value fresh
  split
  · exact State.ite_sansRecord (State.ite_sansRecord ((State.flashCopy_sansRecord _ _).trans (s.withMgd_sansRecord _)) (s.withMgd_sansRecord _)) hfresh
  · exact hfresh

theorem State.loseRec_sansRecord : s.loseRec.sansRecord = s.sansRecord :=
  (State.assert_sansRecord _ 939).trans ((State.withMgd_sansRecord _ _).trans (s.count_sansRecord (by simp [recorderRegs]) MGD_LOST_COUNT 1))

@[simp] theorem State.submit_sansRecord (arr : List MSub) : (s.submit arr).sansRecord = s.sansRecord := by
  unfold State.submit
  exact (eachDo_invariant State.sansRecord (fun _ t => t.loseRec_sansRecord) _ _).trans
    (eachDo_invariant State.sansRecord (fun x t => t.writeRec_sansRecord x) _ _)

@[simp] theorem State.record_sansRecord (i unit p0 p1 tenant : Nat) : (s.record i unit p0 p1 tenant).sansRecord = s.sansRecord :=
  s.submit_sansRecord _

@[simp] theorem State.recordCode_sansRecord (code sev unit p0 p1 tenant : Nat) :
    (s.recordCode code sev unit p0 p1 tenant).sansRecord = s.sansRecord := s.submit_sansRecord _

end

end Sys2Proof.Machine

/-! PROOFS. Queues, their windows and their buffers (13 R442 to R456). -/
namespace Sys2Proof.Machine
open Reg

section
variable (s : State)

/-! Reads of the queue engines' state. -/

@[simp] theorem State.queue_setQueue (q : Nat) (x : QState) : (s.setQueue q x).queue q = x := sget_sset_same _ _ _ _

@[simp] theorem State.queue_setOwner (h q : Nat) (o : Option Own) : (s.setOwner h o).queue q = s.queue q := rfl

@[simp] theorem State.owner_setOwner (h : Nat) (o : Option Own) : (s.setOwner h o).owner h = o := sget_sset_same _ _ _ _

theorem State.queue_replyWord (w : Word) (q : Nat) : (s.replyWord w).queue q = s.queue q := rfl

theorem State.owner_replyWord (w : Word) (h : Nat) : (s.replyWord w).owner h = s.owner h := rfl

section
variable {s t : State}

theorem State.queue_of_qm (h : t.qm = s.qm) (q : Nat) : t.queue q = s.queue q := by rw [State.queue, State.queue, h]

theorem State.owner_of_qm (h : t.qm = s.qm) (b : Nat) : t.owner b = s.owner b := by rw [State.owner, State.owner, h]

/-- Where a window stands is read from the configuration alone. -/
theorem State.qAt_of_cfg (h : t.cfg = s.cfg) (tn j : Nat) : t.qAt tn j = s.qAt tn j := by
  unfold State.qAt State.qRange State.qValid State.qcfg State.elem
  rw [h]

end

/-! Interrupts and pulses leave the queues. -/

@[simp] theorem State.assert_qm (i : Nat) : (s.assert i).qm = s.qm := (congrArg State.qm (s.assert_sansRecord i) :)

@[simp] theorem State.assert_cfg (i : Nat) : (s.assert i).cfg = s.cfg := (congrArg State.cfg (s.assert_sansRecord i) :)

@[simp] theorem State.wirePulse_qm (ch : Nat) (en : Fld) : (s.wirePulse ch en).qm = s.qm := by
  simp [State.wirePulse, State.pulse, State.pulse0, State.unsettled, apply_ite State.qm]

@[simp] theorem State.wirePulse_cfg (ch : Nat) (en : Fld) : (s.wirePulse ch en).cfg = s.cfg := by
  simp [State.wirePulse, State.pulse, State.pulse0, State.unsettled, apply_ite State.cfg]

/-! Enqueueing and dequeueing, 13 R459 to R464. -/

/-- A queue's state once a descriptor has reached its ring. -/
def State.enqueued (q : Nat) (d : Word) : QState :=
  let x := s.queue q
  { x with ring := x.ring ++ [d], dropping := x.dropping || !x.dropping && decide (QM_QCFG_HIWM.of (s.qcfg q) ≤ x.ring.length + 1),
           enqueued := (x.enqueued + 1) % 2 ^ 64 }

theorem State.qEnqueued_qm (q : Nat) (d : Word) : (s.qEnqueued q d).qm = (s.setQueue q (s.enqueued q d)).qm := by
  unfold State.qEnqueued
  extract_lets x depth drop t pulsed
  have hpulsed : pulsed.qm = t.qm := by
    dsimp only [pulsed]
    split_ifs <;> simp
  split_ifs
  · rw [State.assert_qm, hpulsed]
    rfl
  · rw [hpulsed]
    rfl

theorem State.qEnqueued_cfg (q : Nat) (d : Word) : (s.qEnqueued q d).cfg = s.cfg := by
  unfold State.qEnqueued
  extract_lets x depth drop t pulsed
  have hpulsed : pulsed.cfg = t.cfg := by
    dsimp only [pulsed]
    split_ifs <;> simp
  split_ifs
  · rw [State.assert_cfg, hpulsed]
    rfl
  · rw [hpulsed]
    rfl

theorem State.shedExit_ring (q : Nat) : ((s.shedExit q).queue q).ring = (s.queue q).ring := by
  unfold State.shedExit
  dsimp only
  split_ifs
  · rw [State.queue_setQueue]
  · rfl

theorem State.shedExit_own (q : Nat) : (s.shedExit q).qm.own = s.qm.own := by
  unfold State.shedExit
  dsimp only
  split_ifs <;> rfl

theorem State.qDequeued_ring (q : Nat) : ((s.qDequeued q).queue q).ring = (s.queue q).ring := by
  unfold State.qDequeued
  dsimp only
  rw [State.shedExit_ring]
  split_ifs
  · rw [State.queue_setQueue]
  · rfl

theorem State.qDequeued_owner (q b : Nat) : (s.qDequeued q).owner b = s.owner b := by
  unfold State.qDequeued State.owner
  dsimp only
  rw [State.shedExit_own]
  split_ifs <;> rfl

/-! DEQ, 13 R446. -/

section
variable {s : State} {t q : Nat}

theorem State.deq_fault (bad : Nat) (h : (s.queue q).fault = true) : s.deq t q bad = (descNone 2, s) := if_pos h

theorem State.qSkip_zero : s.qSkip q 0 t = s := if_pos (.inl rfl)

theorem State.deq_empty (h : (s.queue q).fault = false) (hring : (s.queue q).ring = []) : s.deq t q 0 = (descNone 0, s) := by
  simp [State.deq, h, State.qSkip_zero, hring]

theorem State.deq_oldest {w : Word} {rest : List Word} (h : (s.queue q).fault = false) (hring : (s.queue q).ring = w :: rest) :
    s.deq t q 0 = (w, ((s.setQueue q { s.queue q with ring := rest }).setOwner (dHandle w) (some (.held t q))).qDequeued q) := by
  simp [State.deq, h, State.qSkip_zero, hring]

/-! ENQ, 13 R449 and R450. -/

theorem State.enq_fault (d : Word) (h : (s.queue q).fault = true) : s.enq t q d = s.qmFaultOp (dHandle d) q t := if_pos h

variable {d : Word} {k : Nat}

theorem State.enq_room (h : (s.queue q).fault = false) (hown : s.owner (dHandle d) = some (.held t k))
    (hroom : (s.queue q).ring.length < s.qCapacity q) : s.enq t q d = (s.setOwner (dHandle d) (some (.queued t q))).qEnqueued q d := by
  simp [State.enq, h, hown, hroom]

theorem State.enq_full (h : (s.queue q).fault = false) (hown : s.owner (dHandle d) = some (.held t k))
    (hfull : s.qCapacity q ≤ (s.queue q).ring.length) : s.enq t q d = (s.freeBuffer (dHandle d)).qDrop q 5 := by
  simp [State.enq, h, hown, hfull]

theorem State.enq_not_held (h : (s.queue q).fault = false) (hown : ∀ k, s.owner (dHandle d) ≠ some (.held t k)) :
    s.enq t q d = s.qmErr 2 (dHandle d) q t := by
  unfold State.enq
  extract_lets b held
  have hheld : held = false := by
    dsimp only [held]
    split
    case h_1 o k heq =>
      have ho : o ≠ t := fun ho => hown k (ho ▸ heq)
      simp [ho]
    case h_2 => rfl
  simp [h, hheld, b]

/-! FREE, 13 R449 and R455. -/

variable {b : Nat}

theorem State.freeOp_fault (b : Nat) (h : (s.queue q).fault = true) : s.freeOp t q b = s.qmFaultOp b q t := if_pos h

theorem State.freeOp_held (h : (s.queue q).fault = false) (hpool : (s.poolOf b).isSome = true) (hown : s.owner b = some (.held t k)) :
    s.freeOp t q b = s.freeBuffer b := by
  simp [State.freeOp, h, Option.isSome_iff_ne_none.mp hpool, hown]

theorem State.freeOp_no_pool (h : (s.queue q).fault = false) (hpool : s.poolOf b = none) : s.freeOp t q b = s.qmErr 1 b q t := by
  simp [State.freeOp, h, hpool]

theorem State.freeOp_free (h : (s.queue q).fault = false) (hpool : (s.poolOf b).isSome = true) (hown : s.owner b = none) :
    s.freeOp t q b = s.qmErr 0 b q t := by
  simp [State.freeOp, h, Option.isSome_iff_ne_none.mp hpool, hown]

/-! ALLOC, 13 R446, R448 and R453. -/

theorem descNone_one_invalid : bits (descNone 1).toNat 63 1 = 0 := by decide

theorem descNone_two_invalid : bits (descNone 2).toNat 63 1 = 0 := by decide

theorem State.allocBuf_fault (h : (s.queue q).fault = true) : s.allocBuf t q = (descNone 2, s) := if_pos h

theorem State.allocBuf_no_share (h : (s.queue q).fault = false) (hshare : s.shareFor t (s.qPool q) = none) :
    s.allocBuf t q = (descNone 1, s) := by
  simp [State.allocBuf, h, hshare]

section
variable {x : Share} (h : (s.queue q).fault = false) (hshare : s.shareFor t (s.qPool q) = some x)
include h hshare

theorem State.allocBuf_empty (hnext : s.nextFree x = none) : s.allocBuf t q = (descNone 1, s.countEmpty x) := by
  simp [State.allocBuf, h, hshare, hnext]

theorem State.allocBuf_takes (hnext : s.nextFree x = some b) : s.allocBuf t q = (descOf b 0 0 0, s.takeBuffer x b (.held t q)) := by
  simp [State.allocBuf, h, hshare, hnext]

end

theorem State.allocBuf_cfg (s : State) (t q : Nat) : (s.allocBuf t q).2.cfg = s.cfg := by
  unfold State.allocBuf
  split_ifs
  · rfl
  · split
    · rfl
    · split <;> rfl

/-- A share from which one request alone draws is not short of buffers while it holds one; a refused request has VALID 0. -/
theorem State.allocMany_single {a : AllocReq} (hq : s.qAt a.t.toNat a.j = some q)
    (h : (∀ x, s.reqShare a = some x → s.freeCount x ≠ 0) ∨ bits (s.allocBuf a.t.toNat q).1.toNat 63 1 = 0) :
    s.allocMany [a] = ([(0, respOk, (s.allocBuf a.t.toNat q).1)], (s.allocBuf a.t.toNat q).2) := by
  unfold State.allocMany
  extract_lets short start key order
  have horder : order = [(0, a)] := rfl
  have hwon : (short a && bits (s.allocBuf a.t.toNat q).1.toNat 63 1 == 1) = false := by
    rcases h with hfull | hvalid
    · have hshort : short a = false := by
        dsimp only [short]
        cases hx : s.reqShare a with
        | none => rfl
        | some x => simp [hx, hfull x hx]
      simp [hshort]
    · simp [hvalid]
  simp only [horder, List.foldl_cons, List.foldl_nil, List.nil_append, hq, hwon]
  rfl

theorem exec_alloc_single {a : AllocReq} (hq : s.qAt a.t.toNat a.j = some q)
    (h : (∀ x, s.reqShare a = some x → s.freeCount x ≠ 0) ∨ bits (s.allocBuf a.t.toNat q).1.toNat 63 1 = 0) :
    exec (.alloc [a]) s = .next ((s.allocBuf a.t.toNat q).2.replyWord (s.allocBuf a.t.toNat q).1) := by
  refine congrArg Host.Outcome.next ?_
  simp only [State.allocMany_single hq h]
  rfl

theorem exec_alloc_nowhere {a : AllocReq} (hq : s.qAt a.t.toNat a.j = none) : exec (.alloc [a]) s = .next (s.reply errDecode []) := by
  have hmany : s.allocMany [a] = ([(0, errDecode, 0)], s) := by
    unfold State.allocMany
    extract_lets short start key order
    have horder : order = [(0, a)] := rfl
    simp only [horder, List.foldl_cons, List.foldl_nil, List.nil_append, hq]
  refine congrArg Host.Outcome.next ?_
  simp only [hmany]
  rfl

end

/-! The answers to requests of one XCLK, 13 R448. -/

theorem insReq_perm (key : AllocReq → Nat) (x : Nat × AllocReq) (l : List (Nat × AllocReq)) : (insReq key x l).Perm (x :: l) := by
  induction l with
  | nil => exact .refl _
  | cons y l ih =>
    unfold insReq
    split_ifs
    · exact .refl _
    · exact (ih.cons y).trans (.swap x y l)

theorem insReq_sort_perm (key : AllocReq → Nat) (l acc : List (Nat × AllocReq)) :
    (l.foldl (fun l x => insReq key x l) acc).Perm (l ++ acc) := by
  induction l generalizing acc with
  | nil => exact .refl _
  | cons x l ih => exact (ih _).trans (((insReq_perm key x acc).append_left l).trans List.perm_middle)

section
variable {s} {step : List (Nat × Nat × Word) × State → Nat × AllocReq → List (Nat × Nat × Word) × State}

/-- Requests that are each answered OK are answered in turn. -/
theorem foldl_answers (order : List (Nat × AllocReq)) (acc : List (Nat × Nat × Word) × State) (hacc : acc.2.cfg = s.cfg)
    (hstep : ∀ acc, acc.2.cfg = s.cfg → ∀ p ∈ order, (∃ w, (step acc p).1 = acc.1 ++ [(p.1, respOk, w)]) ∧ (step acc p).2.cfg = s.cfg) :
    (order.foldl step acc).1.map (fun x => (x.1, x.2.1)) = acc.1.map (fun x => (x.1, x.2.1)) ++ order.map fun p => (p.1, respOk) := by
  induction order generalizing acc with
  | nil => simp
  | cons p order ih =>
    obtain ⟨⟨w, hw⟩, hcfg⟩ := hstep acc hacc p List.mem_cons_self
    rw [List.foldl_cons, ih _ hcfg fun acc hacc p hp => hstep acc hacc p (List.mem_cons_of_mem _ hp), hw]
    simp

end

/-- Every request through a valid queue is answered OK, in the order in which the requests are served. -/
theorem State.allocMany_answers (reqs : List AllocReq) (h : ∀ z ∈ reqs, (s.qAt z.t.toNat z.j).isSome = true) :
    ∃ order : List (Nat × AllocReq), order.Perm (reqs.zipIdx.map fun p => (p.2, p.1)) ∧
      (s.allocMany reqs).1.map (fun x => (x.1, x.2.1)) = order.map fun p => (p.1, respOk) := by
  unfold State.allocMany
  extract_lets short start key order
  have hperm : order.Perm (reqs.zipIdx.map fun p => (p.2, p.1)) := by
    simpa using insReq_sort_perm key (reqs.zipIdx.map fun p => (p.2, p.1)) []
  refine ⟨order, hperm, ?_⟩
  rw [foldl_answers (s := s) order ([], s) rfl fun acc hacc p hp => ?_]
  · rfl
  · have hmem : p.2 ∈ reqs := by
      obtain ⟨z, hz, rfl⟩ := List.mem_map.mp (hperm.subset hp)
      exact List.fst_mem_of_mem_zipIdx hz
    obtain ⟨q, hq⟩ := Option.isSome_iff_exists.mp (h p.2 hmem)
    rw [← State.qAt_of_cfg hacc] at hq
    simp only [hq]
    refine ⟨⟨_, rfl⟩, ?_⟩
    rw [← hacc, ← State.allocBuf_cfg acc.2 p.2.t.toNat q]
    split_ifs <;> rfl

theorem foldl_max_respOk (l : List Nat) (h : ∀ x ∈ l, x = respOk) : l.foldl max 0 = 0 := by
  rw [List.eq_replicate_iff.mpr ⟨rfl, h⟩]
  induction l.length with
  | zero => rfl
  | succ n ih => rwa [List.replicate_succ, List.foldl_cons]

/-- An ALLOC of requests through valid queues answers one descriptor each. -/
theorem exec_alloc_answers (reqs : List AllocReq) (h : ∀ z ∈ reqs, (s.qAt z.t.toNat z.j).isSome = true) :
    ∃ u : State, exec (.alloc reqs) s = .next u ∧ u.answer.resp = 0 ∧ u.answer.data.length = reqs.length := by
  obtain ⟨order, hperm, hmap⟩ := s.allocMany_answers reqs h
  have hok (x) (hx : x ∈ (s.allocMany reqs).1) : x.2.1 = respOk := by
    have hx' := List.mem_map_of_mem (f := fun x : Nat × Nat × Word => (x.1, x.2.1)) hx
    rw [hmap] at hx'
    obtain ⟨p, -, hp⟩ := List.mem_map.mp hx'
    exact (congrArg Prod.snd hp).symm
  have hall (i) (hi : i < reqs.length) : ((s.allocMany reqs).1.find? fun p => p.1 == i && p.2.1 == respOk).isSome = true := by
    have hi' : (i, respOk) ∈ (s.allocMany reqs).1.map fun x => (x.1, x.2.1) := by
      rw [hmap]
      refine List.mem_map.mpr ⟨(i, reqs[i]), hperm.symm.subset (List.mem_map.mpr ⟨(reqs[i], i), ?_, rfl⟩), rfl⟩
      exact List.mem_zipIdx_iff_getElem?.mpr (List.getElem?_eq_getElem hi)
    obtain ⟨x, hx, hxi⟩ := List.mem_map.mp hi'
    rw [List.find?_isSome]
    obtain ⟨hfst, hsnd⟩ := Prod.ext_iff.mp hxi
    exact ⟨x, hx, by simpa using ⟨hfst, hsnd⟩⟩
  refine ⟨_, rfl, foldl_max_respOk _ fun r hr => ?_, ?_⟩
  · obtain ⟨x, hx, rfl⟩ := List.mem_map.mp hr
    exact hok x hx
  · show List.length (List.filterMap _ _) = _
    rw [List.filterMap_length_eq_length.mpr, List.length_range]
    intro i hi
    rw [Option.isSome_map]
    exact hall i (List.mem_range.mp hi)

/-! What the commands do. -/

section
variable {s : State} {tn : BitVec 13} {j : Fin 1024}

section
variable (h : s.qAt tn.toNat j = none)
include h

theorem exec_deq_nowhere (bad : Nat) : exec (.deq tn j bad) s = .next (s.reply errDecode []) := by
  refine congrArg Host.Outcome.next ?_
  simp only [h]

theorem exec_enq_nowhere (d : Word) : exec (.enq tn j d) s = .next (s.reply errDecode []) := by
  refine congrArg Host.Outcome.next ?_
  simp only [h]

theorem exec_free_nowhere (d : Word) : exec (.free tn j d) s = .next (s.reply errDecode []) := by
  refine congrArg Host.Outcome.next ?_
  simp only [h]

end

section
variable {q : Nat} (h : s.qAt tn.toNat j = some q)
include h

theorem exec_deq_at (bad : Nat) : exec (.deq tn j bad) s = .next ((s.deq tn.toNat q bad).2.replyWord (s.deq tn.toNat q bad).1) := by
  refine congrArg Host.Outcome.next ?_
  simp only [h]

theorem exec_enq_at (d : Word) : exec (.enq tn j d) s = .next ((s.enq tn.toNat q d).reply respOk []) := by
  refine congrArg Host.Outcome.next ?_
  simp only [h]

theorem exec_free_at (d : Word) : exec (.free tn j d) s = .next ((s.freeOp tn.toNat q (dHandle d)).reply respOk []) := by
  refine congrArg Host.Outcome.next ?_
  simp only [h]

end
end

end

/-- Settles O40: each command by what stands at its offset, and by the queue, the buffer or the share that it finds. -/
theorem queueOperations : Obligations.QueueOperations := by
  intro tn j d a s t h
  refine ⟨fun hq => ⟨exec_deq_nowhere hq 0, exec_enq_nowhere hq d, exec_free_nowhere hq d⟩, fun q hq => ⟨fun hfault => ?_, fun hok => ?_⟩,
    exec_alloc_nowhere, fun q hq => ⟨fun hfault => ?_, fun hok hshare => ?_, fun x hok hshare => ⟨fun hnext => ?_, fun b hcount hnext => ?_⟩⟩,
    exec_alloc_answers s, fun hsome => ?_⟩
  · rw [exec_deq_at hq, exec_enq_at hq, exec_free_at hq, State.deq_fault 0 hfault, State.enq_fault d hfault, State.freeOp_fault _ hfault]
    exact ⟨rfl, rfl, rfl⟩
  · simp only [exec_deq_at hq, exec_enq_at hq, exec_free_at hq]
    refine ⟨fun hring => ?_, fun w rest hring => ?_, fun k hown hroom => ?_, fun k hown hfull => ?_, fun hown => ?_, fun k hpool hown => ?_,
      fun hpool => ?_, fun hpool hown => ?_⟩
    · rw [State.deq_empty hok hring]
    · rw [State.deq_oldest hok hring]
    · rw [State.enq_room hok hown hroom]
    · rw [State.enq_full hok hown hfull]
    · rw [State.enq_not_held hok hown]
    · rw [State.freeOp_held hok hpool hown]
    · rw [State.freeOp_no_pool hok hpool]
    · rw [State.freeOp_free hok hpool hown]
  · have hbuf := State.allocBuf_fault (t := a.t.toNat) hfault
    rw [exec_alloc_single hq (.inr (hbuf ▸ descNone_two_invalid)), hbuf]
  · have hbuf := State.allocBuf_no_share hok hshare
    rw [exec_alloc_single hq (.inr (hbuf ▸ descNone_one_invalid)), hbuf]
  · have hbuf := State.allocBuf_empty hok hshare hnext
    rw [exec_alloc_single hq (.inr (hbuf ▸ descNone_one_invalid)), hbuf]
  · have hbuf := State.allocBuf_takes hok hshare hnext
    have hreq : s.reqShare a = some x := by simp [State.reqShare, hq, hok, hshare]
    rw [exec_alloc_single hq (.inl fun y hy => by rwa [← Option.some.inj (hreq.symm.trans hy)]), hbuf]
  · obtain ⟨q, hq⟩ := Option.isSome_iff_exists.mp hsome
    exact ⟨_, exec_free_at hq d, rfl⟩

/-- Settles O41: the ring holds the descriptor alone, and the DEQ takes it from there. -/
theorem dequeueReturnsWhatWasEnqueued : Obligations.DequeueReturnsWhatWasEnqueued := by
  intro tn j d q k s hq hok hring hown
  have hroom : (s.queue q).ring.length < s.qCapacity q := by
    have := Nat.pow_le_pow_right (n := 2) (by norm_num) (show 4 ≤ QM_QCFG_SIZE.of (s.qcfg q) + 4 by omega)
    rw [hring, State.qCapacity, List.length_nil]
    omega
  obtain ⟨t, ht⟩ : ∃ t, t = ((s.setOwner (dHandle d) (some (.queued tn.toNat q))).qEnqueued q d).reply respOk [] := ⟨_, rfl⟩
  have henq : exec (.enq tn j d) s = .next t := by rw [exec_enq_at hq, State.enq_room hok hown hroom, ht]
  have htq : t.queue q = (s.setOwner (dHandle d) (some (.queued tn.toNat q))).enqueued q d := by
    have hqm : t.qm = ((s.setOwner (dHandle d) (some (.queued tn.toNat q))).setQueue q
        ((s.setOwner (dHandle d) (some (.queued tn.toNat q))).enqueued q d)).qm := by rw [ht, State.reply_qm, State.qEnqueued_qm]
    rw [State.queue_of_qm hqm, State.queue_setQueue]
  have htring : (t.queue q).ring = [d] := by
    rw [htq]
    exact congrArg (· ++ [d]) hring
  have htok : (t.queue q).fault = false := by rw [htq]; exact hok
  have htat : t.qAt tn.toNat j = some q := by
    rw [← hq]
    exact State.qAt_of_cfg (by rw [ht, State.reply_cfg, State.qEnqueued_cfg]; rfl) _ _
  have hdeq : exec (.deq tn j 0) t = .next
      ((((t.setQueue q { t.queue q with ring := [] }).setOwner (dHandle d) (some (.held tn.toNat q))).qDequeued q).replyWord d) := by
    rw [exec_deq_at htat, State.deq_oldest htok htring]
  refine ⟨t, _, henq, hdeq, rfl, ?_, ?_⟩
  · rw [State.queue_replyWord, State.qDequeued_ring, State.queue_setOwner, State.queue_setQueue]
  · rw [State.owner_replyWord, State.qDequeued_owner, State.owner_setOwner]

/-- What an ENQ or FREE through a queue in FAULT leaves, and what it logs. -/
theorem State.qmFaultOp_frame (s : State) (h q t : Nat) : (s.qmFaultOp h q t).qm = s.qm ∧ (s.qmFaultOp h q t).mem = s.mem ∧
    (s.qmFaultOp h q t).reg QM_ERRLOG = BitVec.ofNat 64 (h % 2 ^ 24 + (q % 2 ^ 17) * 2 ^ 24 + (t % 2 ^ 13) * 2 ^ 41 + 7 * 2 ^ 54) := by
  have hsans : (s.qmFaultOp h q t).sansRecord = (s.qmLog h q t 7).sansRecord := State.recordCode_sansRecord _ _ _ _ _ _ _
  refine ⟨(State.qm_of_sansRecord hsans).trans (s.setReg_qm _ _), (State.mem_of_sansRecord hsans).trans (s.setReg_mem _ _), ?_⟩
  rw [State.reg_of_sansRecord hsans (by decide), State.qmLog, State.reg_setReg]

/-- Settles O59: reads answer CODE 2, writes are logged and recorded alone. -/
theorem queueInFault : Obligations.QueueInFault := by
  intro tn j d a bad q s hq hfault
  refine ⟨?_, ?_, fun i hi => ?_⟩
  · rw [exec_deq_at hq, State.deq_fault bad hfault]
    rfl
  · rintro rfl rfl
    have hbuf := State.allocBuf_fault (t := a.t.toNat) hfault
    rw [exec_alloc_single hq (.inr (hbuf ▸ descNone_two_invalid)), hbuf]
    rfl
  · obtain ⟨hqm, hmem, hlog⟩ := s.qmFaultOp_frame (dHandle d) q tn.toNat
    rw [Nat.mod_eq_of_lt tn.isLt] at hlog
    have hexec : exec i s = .next ((s.qmFaultOp (dHandle d) q tn.toNat).reply respOk []) := by
      simp only [List.mem_cons, List.not_mem_nil, or_false] at hi
      rcases hi with rfl | rfl
      · rw [exec_enq_at hq, State.enq_fault d hfault]
      · rw [exec_free_at hq, State.freeOp_fault _ hfault]
    exact ⟨_, hexec, hqm, hmem, (State.reg_reply _ _ _ _).trans hlog⟩

end Sys2Proof.Machine

/-! PROOFS. Admission at ingress, backpressure, SHED and the drop counters (13 R456 to R467). -/
namespace Sys2Proof.Machine
open Reg

section
variable (s : State)

/-! The steps of admission, 13 R458. -/

theorem State.judgeFrame_no_queue {f : IFrame} (h : s.qValid f.q = false) : s.judgeFrame f = (.gone, s.count QM_NOQ QM_NOQ_COUNT 1) := by
  simp [State.judgeFrame, h]

/-- A frame of port `p` taken from those that await admission, in its lane. -/
structure State.Admits (s : State) (p : Nat) (u : State) (f : IFrame) : Prop where
  first : ∃ f0, (s.qm.classified.find? fun f => f.port == p) = some f0 ∧
    u = { s with qm := { s.qm with classified := s.qm.classified.erase f0 } } ∧ f = { f0 with lane := u.laneOf f0 }
  nobody : u.waitingAt p f.lane = []

section
variable {s} {p : Nat} {u : State} {f : IFrame} (h : s.Admits p u f)
include h

/-- What admission does with a frame behind which no other of its lane waits. -/
theorem State.Admits.ingressAdmit (full : Bool) : s.ingressAdmit p full =
    match (u.judgeFrame f).1 with
    | .wait => if full && decide (f.lane < 8) then (u.judgeFrame f).2.count (OCT_RXCNT2 p) OCT_RXCNT2_PFCOVF 1
      else (((u.judgeFrame f).2.setWaiting p f.lane ((u.judgeFrame f).2.waitingAt p f.lane ++ [u.markTok f])).pfcOf (u.markTok f) true)
    | _ => (u.judgeFrame f).2.leave f := by
  obtain ⟨⟨f0, hfirst, rfl, rfl⟩, hnobody⟩ := h
  unfold State.ingressAdmit
  rw [hfirst]
  exact if_neg (not_not_intro hnobody)

theorem State.Admits.leaves (full : Bool) (hjudge : (u.judgeFrame f).1 ≠ .wait) : s.ingressAdmit p full = (u.judgeFrame f).2.leave f := by
  rw [h.ingressAdmit]
  split
  · exact absurd (by assumption) hjudge
  · rfl

theorem State.Admits.waits {full : Bool} (hjudge : (u.judgeFrame f).1 = .wait) (hroom : full = false ∨ 8 ≤ f.lane) : s.ingressAdmit p full =
    ((u.judgeFrame f).2.setWaiting p f.lane ((u.judgeFrame f).2.waitingAt p f.lane ++ [u.markTok f])).pfcOf (u.markTok f) true := by
  rw [h.ingressAdmit, hjudge]
  exact if_neg (by rcases hroom with hroom | hroom <;> simp [hroom])

theorem State.Admits.overflows {full : Bool} (hjudge : (u.judgeFrame f).1 = .wait) (hfull : full = true) (hlane : f.lane < 8) :
    s.ingressAdmit p full = (u.judgeFrame f).2.count (OCT_RXCNT2 p) OCT_RXCNT2_PFCOVF 1 := by
  rw [h.ingressAdmit, hjudge]
  exact if_pos (by simp [hfull, hlane])

end

/-! The frames that wait, 13 R458 and R461. -/

section
variable {s} {p lane : Nat} {f : IFrame} (hwait : s.waitingAt p lane = [f])
include hwait

theorem State.retryLane_waits (h : (s.judgeFrame f).1 = .wait) :
    s.retryLane p lane (s.waitingAt p lane).length = (s.judgeFrame f).2.setWaiting p lane [s.markTok f] := by
  rw [hwait, List.length_singleton, State.retryLane, hwait]
  simp only [h]

theorem State.retryLane_leaves (h : (s.judgeFrame f).1 ≠ .wait) : s.retryLane p lane (s.waitingAt p lane).length =
    ((((s.judgeFrame f).2.setWaiting p lane []).unback f.q).leave f).pfcOf f false := by
  rw [hwait, List.length_singleton, State.retryLane, hwait]
  dsimp only
  split
  · exact absurd (by assumption) h
  · rfl

end

theorem State.retryLane_nobody {p lane : Nat} (h : s.waitingAt p lane = []) : s.retryLane p lane (s.waitingAt p lane).length = s := by
  rw [h]
  rfl

/-! Posting of descriptors, 13 R458. -/

section
variable {s} {p h : Nat} {f : IFrame} {t : State} (hfirst : (s.qm.admitted.find? fun x => x.1.port == p) = some (f, h))
  (hdone : s.writeWaits f h = false) (ht : t = { s with qm := { s.qm with admitted := s.qm.admitted.erase (f, h) } })
include hfirst hdone ht

theorem State.ingressPost_written : s.ingressPost p =
    if (t.queue f.q).fault then t
    else if (t.queue f.q).ring.length ≥ t.qCapacity f.q then (t.freeBuffer h).qDrop f.q 1
    else t.qEnqueued f.q (descOf h f.data.length f.kind (f.port + f.entry * 8)) := by
  subst ht
  unfold State.ingressPost
  rw [hfirst]
  exact if_neg (by simp [hdone])

theorem State.ingressPost_fault (hfault : (t.queue f.q).fault = true) : s.ingressPost p = t := by
  rw [State.ingressPost_written hfirst hdone ht, if_pos hfault]

theorem State.ingressPost_full (hfault : (t.queue f.q).fault = false) (hfull : t.qCapacity f.q ≤ (t.queue f.q).ring.length) :
    s.ingressPost p = (t.freeBuffer h).qDrop f.q 1 := by
  rw [State.ingressPost_written hfirst hdone ht, if_neg (by simp [hfault]), if_pos hfull]

theorem State.ingressPost_room (hfault : (t.queue f.q).fault = false) (hroom : (t.queue f.q).ring.length < t.qCapacity f.q) :
    s.ingressPost p = t.qEnqueued f.q (descOf h f.data.length f.kind (f.port + f.entry * 8)) := by
  rw [State.ingressPost_written hfirst hdone ht, if_neg (by simp [hfault]), if_neg (by omega)]

end

/-! Token buckets and SHED, 13 R460 and R461. -/

theorem State.refill_no_queue (h : s.qm.queues = []) : s.refill = s := by
  rw [State.refill, h]
  rfl

/-- In one µs a bucket gains RATE, up to BURST. -/
theorem State.tokens8000_next {u : State} {tn : Nat} (hqm : u.qm = s.qm) (hcfg : u.cfg = s.cfg) (hus : u.usNow = s.usNow + 1)
    (hused : (sget (fun _ => (0, 0)) s.qm.deficit tn).2 ≤ s.usNow) (hfits : s.deficit tn ≤ QM_TB_BURST.of (s.tbWord tn) * 8000) :
    u.tokens8000 tn = min (QM_TB_BURST.of (s.tbWord tn) * 8000) (s.tokens8000 tn + QM_TB_RATE.of (s.tbWord tn)) := by
  have htb : u.tbWord tn = s.tbWord tn := by rw [State.tbWord, State.tbWord, State.elem, State.elem, hcfg]
  have hdeficit : u.deficit tn = s.deficit tn - QM_TB_RATE.of (s.tbWord tn) := by
    have hspan : s.usNow + 1 - (sget (fun _ => (0, 0)) s.qm.deficit tn).2 = s.usNow - (sget (fun _ => (0, 0)) s.qm.deficit tn).2 + 1 := by omega
    simp only [State.deficit, hqm, htb, hus, hspan, Nat.add_one_mul]
    omega
  rw [State.tokens8000, State.tokens8000, hdeficit, htb]
  omega

theorem State.shedEntry_enters {q b : Nat} {u : State} (hclass : s.qClass q ≠ 0) (hback : (s.queue q).back = some b)
    (hlim : QM_QCFG2_LLTIME.of (s.qcfg2 q) ≠ 0) (hshed : (s.queue q).shed = false)
    (hu : u = s.passTo (b + 1000 * QM_QCFG2_LLTIME.of (s.qcfg2 q))) :
    s.shedEntry q = (u.setQueue q { u.queue q with shed := true }).qmErrFree 5 q (s.qTenant q) := by
  subst hu
  unfold State.shedEntry
  rw [hback]
  exact if_pos ⟨hclass, hlim, by simp [hshed]⟩

theorem State.shedEntry_shed {q : Nat} (hshed : (s.queue q).shed = true) : s.shedEntry q = s := by
  unfold State.shedEntry
  dsimp only
  split
  · exact if_neg (by simp [hshed])
  · rfl

/-! The records of a second, 13 R465. -/

theorem State.dropRecords_none (h : ∀ z ∈ s.qm.queues, z.2.second = 0) : s.dropRecords = s := by
  have hqs : (s.qm.queues.filter fun p => p.2.second != 0) = [] := List.filter_eq_nil_iff.mpr fun z hz => by simp [h z hz]
  simp [State.dropRecords, hqs, eachDo]

theorem State.dropRecords_one {n : Nat} {z : QState} (h : s.qm.queues = [(n, z)]) (hz : z.second ≠ 0) : s.dropRecords =
    (s.setQueue n { z with second := 0 }).submit
      [{ s.msub 0x5C07 sevWarning unitQueue n z.second (s.qTenant n) with
          tai := s.gav.tai - s.gav.tai % 1000000000, mono := s.gav.mono - s.gav.tai % 1000000000 }] := by
  have hqs : (s.qm.queues.filter fun p => p.2.second != 0) = [(n, z)] := by simp [h, hz]
  simp only [State.dropRecords, hqs]
  rfl

/-! What the commands do. -/

theorem exec_ingressAdmit (p : Fin 6) (full : Bool) : exec (.ingressAdmit p full) s = .next (s.ingressAdmit p full) := rfl

theorem exec_ingressRetry (p : Fin 6) (lane : Fin 16) :
    exec (.ingressRetry p lane) s = .next (s.retryLane p lane (s.waitingAt p lane).length) := rfl

theorem exec_ingressPost (p : Fin 6) : exec (.ingressPost p) s = .next (s.ingressPost p) := rfl

theorem exec_shedEntry (q : BitVec 17) : exec (.shedEntry q) s = .next (s.shedEntry q.toNat) := rfl

theorem exec_dropRecordSecond :
    exec .dropRecordSecond s = .next (s.passTo (s.gav.mono + (1000000000 - s.gav.tai % 1000000000))).dropRecords := rfl

/-- The state past a clearing of the drop counters of the selected queue and tenant. -/
def State.dropsCleared : State :=
  let t := s.setQueue (s.rd QM_QSEL QM_QSEL_QUEUE) { s.queue (s.rd QM_QSEL QM_QSEL_QUEUE) with drops := [] }
  { t with qm := { t.qm with refused := sset (fun _ => 0) t.qm.refused (s.rd QM_TSEL QM_TSEL_TENANT) 0 } }

theorem exec_qmCntclr (r : Requester) : exec (.qmCntclr r) s = .next (s.plat r fun s => s.dropsCleared.reply respOk []) := rfl

theorem State.queue_dropsCleared : (s.dropsCleared.queue (s.rd QM_QSEL QM_QSEL_QUEUE)).drops = [] :=
  congrArg QState.drops (s.queue_setQueue (s.rd QM_QSEL QM_QSEL_QUEUE) { s.queue (s.rd QM_QSEL QM_QSEL_QUEUE) with drops := [] })

theorem State.refused_dropsCleared : sget (fun _ => 0) s.dropsCleared.qm.refused (s.rd QM_TSEL QM_TSEL_TENANT) = 0 := by
  simp [State.dropsCleared]

end

/-- Settles O42: each command by the frame that is first, and by what admission makes of it. -/
theorem ingressAndOverload : Obligations.IngressAndOverload := by
  intro p lane full q r s qn x
  refine ⟨fun f0 f u hfirst hu hf hnobody => ?_, fun f u => u.judgeFrame_no_queue, fun hnobody => ?_, fun f hwait hjudge => ?_,
    fun f hwait hjudge => ?_, fun f h t hfirst hdone ht => ⟨fun hfault => ?_, fun hfault hroom => ?_, fun hfault hfull => ?_⟩,
    fun u hu => ⟨?_, u.refill_no_queue⟩, fun tn u => s.tokens8000_next, fun b u hclass hback hlim hshed hu => ?_, fun hshed => ?_, rfl,
    fun u hu => ⟨fun hnone => ?_, fun n z hone hz => ?_⟩, fun hr => ?_, fun hr => ?_⟩
  · have h : s.Admits p u f := ⟨⟨f0, hfirst, hu, hf⟩, hnobody⟩
    simp only [exec_ingressAdmit]
    exact ⟨fun hjudge => congrArg _ (h.leaves full hjudge), fun hjudge hroom => congrArg _ (h.waits hjudge hroom),
      fun hjudge hfull hlane => congrArg _ (h.overflows hjudge hfull hlane)⟩
  · rw [exec_ingressRetry, s.retryLane_nobody hnobody]
  · rw [exec_ingressRetry, State.retryLane_waits hwait hjudge]
  · rw [exec_ingressRetry, State.retryLane_leaves hwait hjudge]
  · rw [exec_ingressPost, State.ingressPost_fault hfirst hdone ht hfault]
  · rw [exec_ingressPost, State.ingressPost_room hfirst hdone ht hfault hroom]
  · rw [exec_ingressPost, State.ingressPost_full hfirst hdone ht hfault hfull]
  · rw [hu]
    rfl
  · rw [exec_shedEntry, s.shedEntry_enters hclass hback hlim hshed hu]
  · rw [exec_shedEntry, s.shedEntry_shed hshed]
  · rw [exec_dropRecordSecond, ← hu, u.dropRecords_none hnone]
  · rw [exec_dropRecordSecond, ← hu, u.dropRecords_one hone hz]
  · rw [exec_qmCntclr, State.plat_refused _ hr]
  · exact ⟨_, (exec_qmCntclr s r).trans (congrArg _ (State.plat_ok _ hr)), rfl, s.queue_dropsCleared, s.refused_dropsCleared, rfl, rfl⟩

end Sys2Proof.Machine

/-! PROOFS. Flits of a link, its timers, and the neighbour state (14 R473 to R476, R482, R490, 16 R531). -/
namespace Sys2Proof.Machine
open Reg

/-- A field replaced by what it holds. -/
theorem setBits_bits_self (x w : Nat) : setBits x 0 w (bits x 0 w) = x := by
  have : bits x 0 w ≤ x := by simpa [bits] using Nat.mod_le x (2 ^ w)
  simp only [setBits, Nat.shiftLeft_zero, Nat.mod_eq_of_lt (bits_lt x 0 w)]
  omega

section
variable {s : State} {p : Nat}

/-- A port is read from the ports alone. -/
theorem State.oport_of_ports {t : State} (h : t.ports = s.ports) (p : Nat) : t.oport p = s.oport p := by rw [State.oport, State.oport, h]

/-- An OCT port whose link is up and whose neighbour's version is not refused takes and sends flits. -/
def State.carries (s : State) (p : Nat) : Prop := s.portMode p = 0 ∧ s.rd (OCT_STAT p) OCT_STAT_NSTATE ≠ 3 ∧ s.linkUp p 0 = true

/-! Flits that arrive, 14 R473 and R474. -/

/-- The CRC of a flit fits its header and body. -/
def flitGood (f : Flit) : Prop := f.crc.toNat = crc32 (leBytes 4 f.hdr.toNat ++ natsOf f.body)

/-- The port past the ACK that a flit may carry. -/
def State.acked (s : State) (p : Nat) (f : Flit) : State := if bits f.hdr.toNat 30 1 = 1 then s.takeAck p (bits f.hdr.toNat 20 10) else s

/-- The port past the acceptance of a sequenced flit. -/
def State.accepted (s : State) (p : Nat) (f : Flit) : State :=
  (s.acked p f).modPort p fun y => { y with rxSeq := (y.rxSeq + 1) % 1024, naked := false, unacked := y.unacked + 1 }

theorem State.rxFlit_down (f : Flit) (h : s.linkUp p 0 = false) : s.rxFlit p f = s := if_pos (.inr (.inl (by simp [h])))

theorem State.discardFlit_seq_first (h : (s.oport p).naked = false) : s.discardFlit p true =
    (s.count (OCT_RETRY p) OCT_RETRY_CRCERR 1).modPort p fun y => { y with naked := true, nak := some y.rxSeq } := by
  have hport := State.oport_of_ports (s.count_ports (OCT_RETRY p) OCT_RETRY_CRCERR 1) p
  simp [State.discardFlit, hport, h]

theorem State.discardFlit_seq_again (h : (s.oport p).naked = true) : s.discardFlit p true = s.count (OCT_RETRY p) OCT_RETRY_CRCERR 1 := by
  have hport := State.oport_of_ports (s.count_ports (OCT_RETRY p) OCT_RETRY_CRCERR 1) p
  simp [State.discardFlit, hport, h]

theorem State.discardFlit_plain : s.discardFlit p false = s.count (OCT_RETRY p) OCT_RETRY_CRCERR 1 := by
  simp [State.discardFlit]

section
variable {f : Flit} (hup : s.carries p)
include hup

/-- A flit of a known type whose CRC fails is discarded. -/
theorem State.rxFlit_bad (hbad : ¬ flitGood f) (hty : bits f.hdr.toNat 0 4 = 1) : s.rxFlit p f = (s.discardFlit p true).pumpAll.ackMany p := by
  obtain ⟨hmode, hnstate, hlink⟩ := hup
  have hbad' : ¬ f.crc.toNat = crc32 (leBytes 4 f.hdr.toNat ++ natsOf f.body) := hbad
  simp [State.rxFlit, hmode, hnstate, hlink, hbad', hty]

section
variable (hgood : flitGood f)
include hgood

theorem State.rxFlit_idle (hty : bits f.hdr.toNat 0 4 = 0) : s.rxFlit p f = (s.acked p f).pumpAll.ackMany p := by
  obtain ⟨hmode, hnstate, hlink⟩ := hup
  have hgood' : f.crc.toNat = crc32 (leBytes 4 f.hdr.toNat ++ natsOf f.body) := hgood
  simp [State.rxFlit, State.acked, hmode, hnstate, hlink, hgood', hty]

theorem State.rxFlit_out_of_order (hty : bits f.hdr.toNat 0 4 = 1) (hseq : bits f.hdr.toNat 10 10 ≠ ((s.acked p f).oport p).rxSeq) :
    s.rxFlit p f = ((s.acked p f).discardFlit p true).pumpAll.ackMany p := by
  obtain ⟨hmode, hnstate, hlink⟩ := hup
  have hgood' : f.crc.toNat = crc32 (leBytes 4 f.hdr.toNat ++ natsOf f.body) := hgood
  rw [State.acked] at hseq
  simp [State.rxFlit, State.acked, hmode, hnstate, hlink, hgood', hty, hseq]

theorem State.rxFlit_data (hty : bits f.hdr.toNat 0 4 = 1) (hseq : bits f.hdr.toNat 10 10 = ((s.acked p f).oport p).rxSeq) :
    s.rxFlit p f = ((s.accepted p f).modPort p fun y => { y with
      rx := sset (fun _ => []) y.rx (bits f.hdr.toNat 4 3) (sget (fun _ => []) y.rx (bits f.hdr.toNat 4 3) ++ [(f.hdr.toNat, f.body)])
      }).pumpAll.ackMany p := by
  obtain ⟨hmode, hnstate, hlink⟩ := hup
  have hgood' : f.crc.toNat = crc32 (leBytes 4 f.hdr.toNat ++ natsOf f.body) := hgood
  rw [State.acked] at hseq
  simp [State.rxFlit, State.accepted, State.acked, hmode, hnstate, hlink, hgood', hty, hseq]

theorem State.rxFlit_ctrl (hty : bits f.hdr.toNat 0 4 = 2) (hseq : bits f.hdr.toNat 10 10 = ((s.acked p f).oport p).rxSeq) :
    s.rxFlit p f = ((s.accepted p f).takeCtrl p f.body).pumpAll.ackMany p := by
  obtain ⟨hmode, hnstate, hlink⟩ := hup
  have hgood' : f.crc.toNat = crc32 (leBytes 4 f.hdr.toNat ++ natsOf f.body) := hgood
  rw [State.acked] at hseq
  simp [State.rxFlit, State.accepted, State.acked, hmode, hnstate, hlink, hgood', hty, hseq]

end
end

/-! DISC flits, 14 R482 and 16 R531. -/

theorem State.discFlit_down (f : DiscFlit) (h : s.linkUp p 0 = false) : s.discFlit p f = s := if_pos (.inr (by simp [h]))

section
variable {f : DiscFlit} (hmode : s.portMode p = 0) (hlink : s.linkUp p 0 = true)
include hmode hlink

theorem State.discFlit_bad (hbad : f.good = false) : s.discFlit p f = s.count (OCT_RETRY p) OCT_RETRY_CRCERR 1 := by
  simp [State.discFlit, hmode, hlink, hbad, State.discardFlit_plain]

/-- The state past a good DISC flit, before the neighbour state moves: OCT_NBR, and when it arrived. -/
def State.discSeen (s : State) (p : Nat) (f : DiscFlit) : State :=
  (s.setReg (OCT_NBR p) (BitVec.ofNat 64 (f.did.toNat + f.port.toNat * 2 ^ 18 + f.ver.toNat * 2 ^ 32))).modPort p
    fun x => { x with discIn := s.gav.mono }

/-- The neighbour's version is too far, or its SECMODE differs. -/
def State.farVersion (s : State) (f : DiscFlit) : Prop :=
  1 < absDiff f.ver.toNat s.runVer ∨ bits f.part.toNat 15 1 ≠ s.rd ID_PART ID_PART_SECMODE

/-- The neighbour is the one that OCT_NBR names. -/
def State.sameNeighbour (s : State) (p : Nat) (f : DiscFlit) : Prop :=
  s.rd (OCT_NBR p) OCT_NBR_DID = f.did.toNat ∧ s.rd (OCT_NBR p) OCT_NBR_PORT = f.port.toNat

/-- The count of good DISC flits in a row becomes `n`. -/
def State.setDisc (s : State) (p n : Nat) : State := s.modPort p fun x => { x with disc := n }

section
variable (hgood : f.good = true) (hack : f.ack = none)
include hgood hack

theorem State.discFlit_far (hfar : s.farVersion f) : s.discFlit p f = (((s.discSeen p f).setDisc p 0).setNState p 3).pumpAll := by
  have hfar' : absDiff f.ver.toNat s.runVer > 1 ∨ bits f.part.toNat 15 1 ≠ s.rd ID_PART ID_PART_SECMODE := hfar
  simp -implicitDefEqProofs [State.discFlit, State.discSeen, State.setDisc, hmode, hlink, hgood, hack, hfar']

variable (hnear : ¬ s.farVersion f)
include hnear

theorem State.discFlit_begins (hst : s.rd (OCT_STAT p) OCT_STAT_NSTATE = 0 ∨ s.rd (OCT_STAT p) OCT_STAT_NSTATE = 3) :
    s.discFlit p f = (((s.discSeen p f).setDisc p 1).setNState p 1).pumpAll := by
  rw [State.farVersion] at hnear
  rcases hst with hst | hst
  · simp -implicitDefEqProofs [State.discFlit, State.discSeen, State.setDisc, hmode, hlink, hgood, hack, hst, hnear]
  · simp -implicitDefEqProofs [State.discFlit, State.discSeen, State.setDisc, hmode, hlink, hgood, hack, hst, hnear]

section
variable (hst : s.rd (OCT_STAT p) OCT_STAT_NSTATE = 1)
include hst

theorem State.discFlit_goes_on (hsame : s.sameNeighbour p f) (hfew : (s.oport p).disc + 1 < 3) :
    s.discFlit p f = ((s.discSeen p f).setDisc p ((s.oport p).disc + 1)).pumpAll := by
  obtain ⟨hdid, hport⟩ := hsame
  rw [State.farVersion] at hnear
  simp -implicitDefEqProofs [State.discFlit, State.discSeen, State.setDisc, hmode, hlink, hgood, hack, hst, hnear, hdid, hport, show ¬ 2 ≤ (s.oport p).disc by omega]

theorem State.discFlit_comes_up (hsame : s.sameNeighbour p f) (hthree : 3 ≤ (s.oport p).disc + 1) :
    s.discFlit p f = (((s.discSeen p f).setDisc p ((s.oport p).disc + 1)).setNState p 2).pumpAll := by
  obtain ⟨hdid, hport⟩ := hsame
  rw [State.farVersion] at hnear
  simp -implicitDefEqProofs [State.discFlit, State.discSeen, State.setDisc, hmode, hlink, hgood, hack, hst, hnear, hdid, hport, show 2 ≤ (s.oport p).disc by omega]

theorem State.discFlit_starts_over (hother : ¬ s.sameNeighbour p f) : s.discFlit p f = ((s.discSeen p f).setDisc p 1).pumpAll := by
  rw [State.farVersion] at hnear
  have hsame : (s.rd (OCT_NBR p) OCT_NBR_DID == f.did.toNat && s.rd (OCT_NBR p) OCT_NBR_PORT == f.port.toNat) = false := by
    simpa [State.sameNeighbour] using hother
  simp -implicitDefEqProofs [State.discFlit, State.discSeen, State.setDisc, hmode, hlink, hgood, hack, hst, hnear, hsame]

end

section
variable (hst : s.rd (OCT_STAT p) OCT_STAT_NSTATE = 2)
include hst

theorem State.discFlit_stays (hsame : s.sameNeighbour p f) : s.discFlit p f = (s.discSeen p f).pumpAll := by
  obtain ⟨hdid, hport⟩ := hsame
  rw [State.farVersion] at hnear
  simp -implicitDefEqProofs [State.discFlit, State.discSeen, hmode, hlink, hgood, hack, hst, hnear, hdid, hport]

theorem State.discFlit_loses (hother : ¬ s.sameNeighbour p f) :
    s.discFlit p f = (((s.discSeen p f).setDisc p 0).setNState p 0).pumpAll := by
  rw [State.farVersion] at hnear
  have hsame : (s.rd (OCT_NBR p) OCT_NBR_DID == f.did.toNat && s.rd (OCT_NBR p) OCT_NBR_PORT == f.port.toNat) = false := by
    simpa [State.sameNeighbour] using hother
  simp -implicitDefEqProofs [State.discFlit, State.discSeen, State.setDisc, hmode, hlink, hgood, hack, hst, hnear, hsame]

end
end
end

/-! PTP flits, 14 R490. -/

theorem State.ptpFlit_down (f : PtpFlit) (h : s.linkUp p 0 = false) : s.ptpFlit p f = s := if_pos (.inr (.inl (by simp [h])))

section
variable {f : PtpFlit} (hup : s.carries p) (hgood : f.good = true) (hack : f.ack = none)
include hup hgood hack

theorem State.ptpFlit_first (hin : (s.oport p).ptpIn = none) :
    s.ptpFlit p f = s.setPort p { s.oport p with ptpIn := some s.gav.tai } := by
  obtain ⟨hmode, hnstate, hlink⟩ := hup
  simp [State.ptpFlit, hmode, hnstate, hlink, hgood, hack, hin]

theorem State.ptpFlit_exchange {i o : Nat} (hin : (s.oport p).ptpIn = some i) (hout : (s.oport p).ptpOut = some o) :
    s.ptpFlit p f = (s.setPort p { s.oport p with ptpIn := some s.gav.tai }).followOff p
      ((((f.ingress.toNat : Int) - o) - ((i : Int) - f.egress.toNat)) / 2) := by
  obtain ⟨hmode, hnstate, hlink⟩ := hup
  simp [State.ptpFlit, hmode, hnstate, hlink, hgood, hack, hin, hout]

end

/-! ACKs, 14 R473. -/

theorem State.ackMany_few (h : (s.oport p).unacked < 32) : s.ackMany p = s := if_neg h.not_ge

theorem State.ackMany_many (h : 32 ≤ (s.oport p).unacked) : s.ackMany p = s.sendAck p := if_pos h

end

/-! What the commands do. -/

section
variable {s : State} {p : Fin 6}

theorem exec_flitReceive (f : Flit) : exec (.flitReceive p f) s = .next (s.rxFlit p f) := rfl

/-- A CTRL flit is a flit of TYPE 2. -/
theorem exec_ctrlFlit {f : Flit} (hty : bits f.hdr.toNat 0 4 = 2) : exec (.ctrlFlit p f) s = .next (s.rxFlit p f) := by
  have hhdr : BitVec.ofNat 32 (setBits f.hdr.toNat 0 4 2) = f.hdr := by
    rw [← hty, setBits_bits_self]
    simp
  show Host.Outcome.next (s.rxFlit p { f with hdr := BitVec.ofNat 32 (setBits f.hdr.toNat 0 4 2) }) = _
  rw [hhdr]

theorem exec_discFlit (f : DiscFlit) : exec (.discFlit p f) s = .next (s.discFlit p f) := rfl

theorem exec_ptpFlit (f : PtpFlit) : exec (.ptpFlit p f) s = .next (s.ptpFlit p f) := rfl

theorem exec_ackTimer (hup : s.carries p) : exec (.ackTimer p) s = .next ((s.passTo (s.oport p).ackDue).sendAck p) := by
  obtain ⟨hmode, hnstate, hlink⟩ := hup
  exact congrArg Host.Outcome.next (if_pos ⟨hmode, hlink, hnstate⟩)

theorem exec_discSend {u : State} (hup : s.carries p) (hrel : s.portReleased p = true) (hu : u = s.passTo (s.oport p).discDue) :
    exec (.discSend p) s = .next ((u.modPort p fun y => { y with discDue := u.gav.mono + 1000000, unacked := 0, ackDue := u.gav.mono + 100 }).emit
      (.disc p (s.oport p).rxSeq (s.rd OCT_DID OCT_DID_DID) s.discPart s.runVer)) := by
  obtain ⟨hmode, -, hlink⟩ := hup
  subst hu
  exact congrArg Host.Outcome.next (if_pos ⟨hmode, hrel, hlink⟩)

theorem exec_ptpFlitSend {u : State} (hup : s.carries p) (hu : u = s.passTo (s.oport p).ptpDue) : exec (.ptpFlitSend p) s =
    .next ((u.setPort p { s.oport p with ptpOut := some u.gav.tai, ptpDue := u.gav.mono + 125000000, unacked := 0, ackDue := u.gav.mono + 100 }).emit
      (.ptpFlit p (s.oport p).rxSeq ((s.oport p).ptpOut.getD 0) ((s.oport p).ptpIn.getD 0))) := by
  obtain ⟨hmode, hnstate, hlink⟩ := hup
  subst hu
  exact congrArg Host.Outcome.next (if_pos ⟨hmode, hlink, hnstate⟩)

section
variable {u : State} (hu : u = s.passTo ((s.oport p).discIn + 5000000))
include hu

theorem exec_neighbourLost_up (hst : s.rd (OCT_STAT p) OCT_STAT_NSTATE = 2) :
    exec (.neighbourLost p) s = .next ((u.modPort p fun y => { y with disc := 0 }).setNState p 0) := by
  subst hu
  refine congrArg Host.Outcome.next ?_
  simp only [hst]
  rfl

theorem exec_neighbourLost_seen (hst : s.rd (OCT_STAT p) OCT_STAT_NSTATE = 1) :
    exec (.neighbourLost p) s = .next (u.modPort p fun y => { y with disc := 0 }) := by
  subst hu
  refine congrArg Host.Outcome.next ?_
  simp only [hst]

end

theorem exec_neighbourLost_none (hst : s.rd (OCT_STAT p) OCT_STAT_NSTATE = 0) : exec (.neighbourLost p) s = .next s := by
  refine congrArg Host.Outcome.next ?_
  simp only [hst]

end

/-- Settles O43: a flit by its kind and what is expected of it, a DISC flit by the neighbour that it names. -/
theorem flitsAndNeighbours : Obligations.FlitsAndNeighbours := by
  constructor
  · intro p f fd fp s hmode hnstate x h good acked took
    refine ⟨fun hdown => ?_, fun hlink => ?_, fun u => ⟨rfl, State.ackMany_few, State.ackMany_many⟩,
      fun u hu => ⟨exec_neighbourLost_up hu, exec_neighbourLost_seen hu, exec_neighbourLost_none⟩⟩
    · simp only [exec_flitReceive, exec_discFlit, exec_ptpFlit]
      rw [State.rxFlit_down f hdown, State.discFlit_down fd hdown, State.ptpFlit_down fp hdown]
      exact ⟨rfl, rfl, rfl⟩
    · have hup : s.carries p := ⟨hmode, hnstate, hlink⟩
      refine ⟨fun hbad hty hnaked => ?_, fun hbad hty hnaked => ?_, fun hgood hty => congrArg Host.Outcome.next (State.rxFlit_idle hup hgood hty),
        fun hgood hty hseq => congrArg Host.Outcome.next (State.rxFlit_out_of_order hup hgood hty hseq),
        fun hgood hty hseq => congrArg Host.Outcome.next (State.rxFlit_data hup hgood hty hseq),
        fun hgood hty hseq => (exec_ctrlFlit hty).trans (congrArg Host.Outcome.next (State.rxFlit_ctrl hup hgood hty hseq)), exec_ackTimer hup,
        fun hrel u hu => exec_discSend hup hrel hu, fun hbad => congrArg Host.Outcome.next (State.discFlit_bad hmode hlink hbad),
        fun u hu => exec_ptpFlitSend hup hu, fun hgood hack => ⟨fun hin => congrArg Host.Outcome.next (State.ptpFlit_first hup hgood hack hin),
          fun i o hin hout => congrArg Host.Outcome.next (State.ptpFlit_exchange hup hgood hack hin hout)⟩⟩
      · rw [exec_flitReceive, State.rxFlit_bad hup hbad hty, State.discardFlit_seq_first hnaked]
      · rw [exec_flitReceive, State.rxFlit_bad hup hbad hty, State.discardFlit_seq_again hnaked]
  · intro p f s t hmode hlink hgood hack ht far same st disc
    subst ht
    simp only [exec_discFlit]
    exact ⟨fun hfar => congrArg Host.Outcome.next (State.discFlit_far hmode hlink hgood hack hfar),
      fun hnear hst => congrArg Host.Outcome.next (State.discFlit_begins hmode hlink hgood hack hnear hst),
      fun hnear hst hsame hfew => congrArg Host.Outcome.next (State.discFlit_goes_on hmode hlink hgood hack hnear hst hsame hfew),
      fun hnear hst hsame hthree => congrArg Host.Outcome.next (State.discFlit_comes_up hmode hlink hgood hack hnear hst hsame hthree),
      fun hnear hst hother => congrArg Host.Outcome.next (State.discFlit_starts_over hmode hlink hgood hack hnear hst hother),
      fun hnear hst hsame => congrArg Host.Outcome.next (State.discFlit_stays hmode hlink hgood hack hnear hst hsame),
      fun hnear hst hother => congrArg Host.Outcome.next (State.discFlit_loses hmode hlink hgood hack hnear hst hother)⟩

end Sys2Proof.Machine

/-! PROOFS. Delivery, forwarding and dropping of messages (14 R478 to R484). -/
namespace Sys2Proof.Machine
open Reg

/-- The port past the taking of the message in front of a virtual channel, of which `rest` stays. -/
def State.takeMsg (s : State) (p vc : Nat) (rest : List (Nat × List Byte)) : State :=
  s.modPort p fun x => { x with rx := sset (fun _ => []) x.rx vc rest, stuck := sset (fun _ => none) x.stuck vc none }

/-- The flits that a forwarded message leaves in: its first body starts with the header word `w`. -/
def forwardFlits (p vc : Nat) (fl : List (Nat × List Byte)) (w : List Byte) : List TxFlit :=
  fl.zipIdx.map fun f => ⟨f.1.1 % 2 ^ 9, if f.2 = 0 then w ++ f.1.2.drop 8 else f.1.2, some (p, vc)⟩

/-- The first word of a message's header with one hop more. -/
def hopWord (bs : List Byte) : List Byte := toBytes (leBytes 8 (ofLeBytes (natsOf (bs.take 8)) + 2 ^ 53))

section
variable {s : State} {p vc : Nat} {fl rest : List (Nat × List Byte)} (hhead : headMsg (sget (fun _ => []) (s.oport p).rx vc) = some (fl, rest))
include hhead

section
variable (hown : (msgHdr (fl.flatMap (·.2))).dst = s.rd OCT_DID OCT_DID_DID)
include hown

theorem State.message_delivers (hvc : vc ≠ 3) :
    s.message p vc = ((s.takeMsg p vc rest).deliver p vc fl.length (fl.flatMap (·.2))).pumpAll := by
  simp [State.message, State.takeMsg, hhead, hown, hvc]

variable (hvc : vc = 3)
include hvc

theorem State.message_waits (hswitch : s.rd UPD_STAT UPD_STAT_PHASE = 5) : s.message p vc = s.pumpAll := by
  subst hvc
  simp [State.message, hhead, hown, hswitch]

theorem State.message_managed (hswitch : s.rd UPD_STAT UPD_STAT_PHASE ≠ 5) (hadmit : (s.admitMgmt p false).1 = true) : s.message p vc =
    (((((s.admitMgmt p false).2.emit (.mgmt p ((fl.flatMap (·.2)).take (16 + (msgHdr (fl.flatMap (·.2))).plen)))).takeMsg p vc rest).owe p vc
      fl.length).pumpAll) := by
  subst hvc
  simp [State.message, State.takeMsg, hhead, hown, hswitch, hadmit]

theorem State.message_limited (hswitch : s.rd UPD_STAT UPD_STAT_PHASE ≠ 5) (hadmit : (s.admitMgmt p false).1 = false) :
    s.message p vc = (((s.admitMgmt p false).2.takeMsg p vc rest).owe p vc fl.length).pumpAll := by
  subst hvc
  simp [State.message, State.takeMsg, hhead, hown, hswitch, hadmit]

end

section
variable (hother : (msgHdr (fl.flatMap (·.2))).dst ≠ s.rd OCT_DID OCT_DID_DID)
include hother

theorem State.message_hops (hvc : vc ≠ 3) (hhops : (msgHdr (fl.flatMap (·.2))).hops = 31) : s.message p vc =
    (((((s.count (OCT_FWDCNT p) OCT_FWDCNT_HOPDROP 1).takeMsg p vc rest).owe p vc fl.length).octErr p OCT_ERR_HOPS).pumpAll) := by
  simp [State.message, State.takeMsg, hhead, hother, hvc, hhops]

variable (hhops : (msgHdr (fl.flatMap (·.2))).hops ≠ 31)
include hhops

theorem State.message_no_route (hvc : vc ≠ 3) (hroute : s.routeMsg (msgHdr (fl.flatMap (·.2))) = none) : s.message p vc =
    ((((s.count (OCT_FWDCNT p) OCT_FWDCNT_NOROUTE 1).takeMsg p vc rest).owe p vc fl.length).pumpAll) := by
  simp [State.message, State.takeMsg, hhead, hother, hvc, hhops, hroute]

variable {o : Nat} (hroute : s.routeMsg (msgHdr (fl.flatMap (·.2))) = some o)
include hroute

theorem State.message_forwards (hvc : vc ≠ 3) (hcredit : sget (fun _ => 0) (s.oport o).credit vc ≠ 0)
    (hfree : sget (fun _ => []) (s.oport o).tx vc = []) : s.message p vc =
      ((s.takeMsg p vc rest).modPort o fun z =>
        { z with tx := sset (fun _ => []) z.tx vc (forwardFlits p vc fl (hopWord (fl.flatMap (·.2)))) }).pumpAll := by
  simp [State.message, State.takeMsg, forwardFlits, hopWord, hhead, hother, hvc, hhops, hroute, hcredit, hfree]

theorem State.message_stuck (hbusy : sget (fun _ => 0) (s.oport o).credit vc = 0 ∨ sget (fun _ => []) (s.oport o).tx vc ≠ []) : s.message p vc =
    (s.modPort p fun x => { x with
      stuck := sset (fun _ => none) x.stuck vc ((sget (fun _ => none) x.stuck vc).or (some s.gav.mono)) }).pumpAll := by
  simp only [State.message, hhead, beq_eq_false_iff_ne.mpr hother, Bool.not_false, if_true, if_neg hhops, hroute, if_pos hbusy]

end

/-- A transit message that has waited 10 ms is dropped. -/
theorem State.stuckDrop_drops {b : Nat} {u : State} (hstuck : sget (fun _ => none) (s.oport p).stuck vc = some b)
    (hu : u = s.passTo (b + 10000000)) : s.stuckDrop p vc =
      ((((u.takeMsg p vc rest).owe p vc fl.length).count (OCT_TXCNT p) OCT_TXCNT_STUCK 1).octErr p OCT_ERR_STUCK).pumpAll := by
  subst hu
  simp only [State.stuckDrop, hstuck, hhead, State.takeMsg]

end

theorem State.stuckDrop_none {s : State} {p vc : Nat} (h : sget (fun _ => none) (s.oport p).stuck vc = none) : s.stuckDrop p vc = s := by
  simp only [State.stuckDrop, h]

theorem exec_messageReceive (p : Fin 6) (vc : Fin 8) (s : State) : exec (.messageReceive p vc) s = .next (s.message p vc) := rfl

theorem exec_transitStuckDrop (p : Fin 6) (vc : Fin 8) (s : State) : exec (.transitStuckDrop p vc) s = .next (s.stuckDrop p vc) := rfl

/-- Settles O44: a message by its virtual channel, its destination and the route that it finds. -/
theorem messagesOfAPort : Obligations.MessagesOfAPort := by
  intro p vc fl rest s hhead bs h own take
  simp only [exec_messageReceive, exec_transitStuckDrop]
  exact ⟨fun hvc hown => congrArg Host.Outcome.next (State.message_delivers hhead hown hvc),
    fun hvc hother hhops => congrArg Host.Outcome.next (State.message_hops hhead hother hvc hhops),
    fun hvc hother hhops hroute => congrArg Host.Outcome.next (State.message_no_route hhead hother hhops hvc hroute),
    fun o hvc hother hhops hroute hcredit hfree => ⟨hopWord bs, forwardFlits p vc fl (hopWord bs), rfl, rfl,
      congrArg Host.Outcome.next (State.message_forwards hhead hother hhops hroute hvc hcredit hfree)⟩,
    fun o hother hhops hroute hbusy => congrArg Host.Outcome.next (State.message_stuck hhead hother hhops hroute hbusy),
    fun hvc hown hswitch => congrArg Host.Outcome.next (State.message_waits hhead hown hvc hswitch),
    fun hvc hown hswitch => ⟨fun hadmit => congrArg Host.Outcome.next (State.message_managed hhead hown hvc hswitch hadmit),
      fun hadmit => congrArg Host.Outcome.next (State.message_limited hhead hown hvc hswitch hadmit)⟩,
    fun hstuck => congrArg Host.Outcome.next (State.stuckDrop_none hstuck),
    fun b u hstuck hu => congrArg Host.Outcome.next (State.stuckDrop_drops hhead hstuck hu)⟩

end Sys2Proof.Machine

/-! PROOFS. Release, training, failed lanes and lost links of a port (14 R469, R476, R492 to R497). -/
namespace Sys2Proof.Machine
open Reg

section
variable {s u : State} {p : Fin 6} {k : Fin 8}

/-- An OCT port has one link. -/
theorem State.links_oct (hmode : s.portMode p = 0) : s.links p = 1 := by simp [State.links, hmode]

/-! Release and training, 14 R476 and R492. -/

theorem exec_release_steward : exec (.release .steward p) s = .next ((s.releasePort p).reply respOk []) := rfl

theorem exec_release_refused {r : Requester} (h : r ≠ .steward) : exec (.release r p) s = .next (s.reply errPerm []) :=
  congrArg Host.Outcome.next (if_neg h)

/-- A port when its OCT link has completed training at the instant `now`: a credit for each flit of the partner's buffers. -/
def OPort.trained (x : OPort) (sizes : Vector (BitVec 11) 8) (now : Nat) : OPort :=
  { OPort.reset with
    credit := (sizes.toList.zipIdx).foldl (fun m v => sset (fun _ => 0) m v.2 v.1.toNat) [], released := x.released, mgmt := x.mgmt,
    mgmtOut := x.mgmtOut, replays := x.replays, clock := x.clock, ackDue := now + 100, discDue := now, ptpDue := now }

theorem exec_linkUp_trains (sizes : Vector (BitVec 11) 8) (hmode : s.portMode p = 0) (hu : u = (s.dropHeld p).raiseLink p 0)
    (hrel : s.portReleased p = true) (hdown : s.linkUp p 0 = false) :
    exec (.linkUp p 0 sizes) s = .next ((u.modPort p fun x => x.trained sizes u.gav.mono).pumpAll) := by
  refine congrArg Host.Outcome.next ((if_pos (by simp [hrel, hdown, State.links_oct hmode])).trans ?_)
  simp only [hmode, if_true, Fin.val_zero, ← hu]
  rfl

theorem exec_linkUp_unreleased (l : Fin 8) (sizes : Vector (BitVec 11) 8) (hrel : s.portReleased p = false) :
    exec (.linkUp p l sizes) s = .next s := congrArg Host.Outcome.next (if_neg (by simp [hrel]))

/-! Lanes, 14 R493 and R494. -/

section
variable (hu : u = s.wr (OCT_LANE p k) OCT_LANE_LOCK 0) (hmode : u.portMode p = 0) (hlink : u.linkUp p 0 = true)
include hu hmode hlink

theorem exec_laneFailure_first (hwhole : u.flag (OCT_STAT p) OCT_STAT_DEGRADED = false) :
    exec (.laneFailure p k) s = .next (u.degrade p k true).pumpAll := by
  subst hu
  refine congrArg Host.Outcome.next ((if_neg (not_not_intro hmode)).trans ((if_neg (by simp [hlink])).trans (if_neg (by simp [hwhole]))))

theorem exec_laneFailure_second (hdegraded : u.flag (OCT_STAT p) OCT_STAT_DEGRADED = true)
    (hlane : u.rd (OCT_STAT p) OCT_STAT_DLANE ≠ k.val) : exec (.laneFailure p k) s = .next (u.dropLink p 0) := by
  subst hu
  exact congrArg Host.Outcome.next
    ((if_neg (not_not_intro hmode)).trans ((if_neg (by simp [hlink])).trans ((if_pos hdegraded).trans (if_neg hlane))))

end

theorem exec_laneRejoin_returns (hdegraded : s.flag (OCT_STAT p) OCT_STAT_DEGRADED = true) (hown : (s.oport p).laneOwn = true) :
    exec (.laneRejoin p) s = .next ((s.passTo (s.oport p).laneDue).rejoin p true).pumpAll :=
  congrArg Host.Outcome.next (if_pos (by simp [hdegraded, hown]))

theorem exec_laneRejoin_other (hown : (s.oport p).laneOwn = false) : exec (.laneRejoin p) s = .next s :=
  congrArg Host.Outcome.next (if_neg (by simp [hown]))

/-! Links, 14 R495. -/

theorem exec_linkDown_drops (hmode : s.portMode p = 0) (hlink : s.linkUp p 0 = true) : exec (.linkDown p 0) s =
    .next (((((((eachDo (s.linkLanes p 0) (fun k u => u.wr (OCT_LANE p k) OCT_LANE_ACTIVE 0) s).setLinkUp p 0 false).countLanes p).octErr p
      OCT_ERR_LINKDOWN).modPort p fun x => { x with downAt := sset (fun _ => 0) x.downAt 0 s.gav.mono }).wr (OCT_STAT p) OCT_STAT_DEGRADED 0).loseNeighbour
        p) :=
  congrArg Host.Outcome.next ((if_pos hlink).trans (if_pos hmode))

section
variable (hlink : s.linkUp p 0 = false)
include hlink

theorem exec_linkDown_down : exec (.linkDown p 0) s = .next s := congrArg Host.Outcome.next (if_neg (by simp [hlink]))

variable (hmode : s.portMode p = 0) (hrel : s.portReleased p = true)
include hmode hrel

theorem exec_linkRetrainDone_replays {f : RetryFlit} {rest : List RetryFlit} (hretry : ((s.raiseLink p 0).oport p).retry = f :: rest) :
    exec (.linkRetrainDone p 0 true) s = .next ((s.raiseLink p 0).replay p f.seq).pumpAll := by
  refine congrArg Host.Outcome.next ((if_neg (by simp [hlink, hrel])).trans ((if_pos rfl).trans ((if_pos hmode).trans ?_)))
  simp only [Fin.val_zero, hretry]

theorem exec_linkRetrainDone_fails : exec (.linkRetrainDone p 0 false) s =
    .next ((s.passTo (sget (fun _ => 0) (s.oport p).downAt 0 + 1000000000)).dropHeld p).pumpAll :=
  congrArg Host.Outcome.next ((if_neg (by simp [hlink, hrel])).trans ((if_neg (by decide)).trans (if_pos hmode)))

end

/-! The counters of a port, 14 R497. -/

/-- The counters that OCT_CNTCLR clears. -/
def octCounters (p : Nat) : List Nat :=
  [OCT_RETRY p, OCT_RXCNT p, OCT_RXCNT2 p, OCT_TXCNT p, OCT_FWDCNT p] ++ (List.range 8).map fun l => OCT_MACCNT p l

theorem exec_octCntclr (r : Requester) : exec (.octCntclr r p) s = .next (s.plat r fun s => (s.clearRegs (octCounters p)).reply respOk []) := rfl

end

/-- Settles O45: each command by the state of the port's link and lanes. -/
theorem lanesAndLinks : Obligations.LanesAndLinks := by
  intro p k sizes r s hmode
  refine ⟨⟨exec_release_steward, exec_release_refused⟩, fun u hu hrel hdown => exec_linkUp_trains sizes hmode hu hrel hdown,
    exec_linkUp_unreleased 0 sizes, fun u hu hmode hlink => ⟨exec_laneFailure_first hu hmode hlink, exec_laneFailure_second hu hmode hlink⟩,
    exec_laneRejoin_returns, exec_laneRejoin_other, exec_linkDown_drops hmode, fun hlink => ⟨exec_linkDown_down hlink,
      fun hrel => ⟨fun f rest => exec_linkRetrainDone_replays hlink hmode hrel, exec_linkRetrainDone_fails hlink hmode hrel⟩⟩,
    fun hr => ?_, fun hr => ?_⟩
  · rw [exec_octCntclr, State.plat_refused _ hr]
  · obtain ⟨t, ht, hanswer, hcleared, -⟩ := exec_clears s (octCounters p) ((exec_octCntclr r).trans (congrArg _ (State.plat_ok _ hr)))
    have hreg (o) (ho : o ∈ [OCT_RETRY p, OCT_RXCNT p, OCT_RXCNT2 p, OCT_TXCNT p, OCT_FWDCNT p]) : t.reg o = 0 :=
      hcleared o (List.mem_append_left _ ho)
    exact ⟨t, ht, hanswer, fun l hl => hcleared _ (List.mem_append_right _ (List.mem_map_of_mem (List.mem_range.mpr hl))),
      hreg _ (by simp), hreg _ (by simp), hreg _ (by simp), hreg _ (by simp), hreg _ (by simp)⟩

end Sys2Proof.Machine

/-! PROOFS. Ethernet frames, the clock unit's messages, and the transmission of descriptors (14 R484 to R491). -/
namespace Sys2Proof.Machine
open Reg

/-! Frames that arrive, 14 R484 to R487. -/

section
variable {s : State} {p l : Nat} {f : List Byte}

theorem State.ethFrame_down (h : s.portMode p = 0 ∨ s.linkUp p l = false) : s.ethFrame p l f = s := if_pos (by simpa using h)

section
variable (hmode : s.portMode p ≠ 0) (hlink : s.linkUp p l = true)
include hmode hlink

theorem State.ethFrame_off (hoff : s.flag (OCT_CTRL p) OCT_CTRL_MACEN = false) :
    s.ethFrame p l f = s.count (OCT_RXCNT2 p) OCT_RXCNT2_RXOFF 1 := by
  simp [State.ethFrame, hmode, hlink, hoff]

variable (hon : s.flag (OCT_CTRL p) OCT_CTRL_MACEN = true)
include hon

theorem State.ethFrame_bad (hmac : macOk f = false) : s.ethFrame p l f = s.count (OCT_MACCNT p l) OCT_MACCNT_RXBAD 1 := by
  simp [State.ethFrame, hmode, hlink, hon, hmac]

variable (hmac : macOk f = true)
include hmac

theorem State.ethFrame_pause (hety : (ethHdr f).ety = 0x8808) (hop : beNat (slice f (ethHdr f).body 2) = 1) :
    s.ethFrame p l f = s.count (OCT_MACCNT p l) OCT_MACCNT_PAUSE 1 := by
  simp [State.ethFrame, hmode, hlink, hon, hmac, hety, hop]

theorem State.ethFrame_pfc (hety : (ethHdr f).ety = 0x8808) (hop : beNat (slice f (ethHdr f).body 2) = 0x0101) :
    s.ethFrame p l f = s.pfcFrame p l f := by
  simp [State.ethFrame, hmode, hlink, hon, hmac, hety, hop]

variable (hety : (ethHdr f).ety ≠ 0x8808)
include hety

theorem State.ethFrame_ptp (hptp : s.ptpTaken p f = true) : s.ethFrame p l f = if l = 0 then s.ptpFrame p f else s := by
  simp [State.ethFrame, hmode, hlink, hon, hmac, hety, hptp]

variable (hptp : s.ptpTaken p f = false)
include hptp

theorem State.ethFrame_unclassified (hclass : s.classEth p l (f.take (f.length - 4)) = none) :
    s.ethFrame p l f = s.count (OCT_RXCNT p) OCT_RXCNT_NOCLASS 1 := by
  simp [State.ethFrame, hmode, hlink, hon, hmac, hety, hptp, hclass]

theorem State.ethFrame_classified {n : Nat} (hclass : s.classEth p l (f.take (f.length - 4)) = some n) :
    s.ethFrame p l f = s.ethClass p l n (f.take (f.length - 4)) := by
  simp [State.ethFrame, hmode, hlink, hon, hmac, hety, hptp, hclass]

end

/-- A frame that is no sampled value goes to the queue of its classifier entry. -/
theorem State.ethClass_queue {n : Nat} {g : List Byte} (h : s.rd (OCT_CLSA p n) OCT_CLSA_MATCH ≠ 1) : s.ethClass p l n g =
    s.classify ⟨p, n, ethKind (ethHdr g).ety, s.rd (OCT_CLSB p n) OCT_CLSB_QUEUE, s.ethBuffer g, 0, 0, l, ((ethHdr g).tci.getD 0) / 2 ^ 13, false⟩ := by
  simp [State.ethClass, h]

/-- A sampled value without security whose APDU cannot be read is counted. -/
theorem State.ethClass_bad_sv {n : Nat} {g : List Byte} (h : s.rd (OCT_CLSA p n) OCT_CLSA_MATCH = 1)
    (hlen : beNat (slice g ((ethHdr g).body + 4) 2) % 4096 = 0) (hrsv : beNat (slice g ((ethHdr g).body + 6) 2) = 0)
    (hapdu : svApdu (g.drop ((ethHdr g).body + 8)) = none) : s.ethClass p l n g = s.count (OCT_RXCNT p) OCT_RXCNT_SVBAD 1 := by
  simp [State.ethClass, h, hlen, hrsv, hapdu]

/-! Transmission, 14 R472 and R488. -/

section
variable {ch : Nat}

theorem State.transmit_idle (h : OCT_CHA_VALID.of (elemWord (s.elem 10 1 ch) 0) = 0 ∨ OCT_CHA_PORT.of (elemWord (s.elem 10 1 ch) 0) ≠ p ∨
    (s.queue (OCT_CHA_TXQ.of (elemWord (s.elem 10 1 ch) 0))).fault = true) (bad : Nat) : s.transmit p ch bad = s := if_pos h

variable (hvalid : OCT_CHA_VALID.of (elemWord (s.elem 10 1 ch) 0) = 1) (hport : OCT_CHA_PORT.of (elemWord (s.elem 10 1 ch) 0) = p)
  (hok : (s.queue (OCT_CHA_TXQ.of (elemWord (s.elem 10 1 ch) 0))).fault = false)
include hvalid hport hok

theorem State.transmit_empty (hring : (s.queue (OCT_CHA_TXQ.of (elemWord (s.elem 10 1 ch) 0))).ring = []) : s.transmit p ch 0 = s := by
  simp [State.transmit, hvalid, hport, hok, State.qSkip_zero, hring]

theorem State.transmit_sends {d : Word} {rest : List Word} {pool : Nat} {x : List Byte × State} {t : State}
    (hring : (s.queue (OCT_CHA_TXQ.of (elemWord (s.elem 10 1 ch) 0))).ring = d :: rest) (hpool : s.poolOf (dHandle d) = some pool)
    (hx : x = s.readBuffer (s.bufferPa pool (dHandle d)) (bits d.toNat 24 17) (OCT_CHA_TENANT.of (elemWord (s.elem 10 1 ch) 0)))
    (hsent : (if s.portMode p = 0 then
        x.2.sendOct p (elemWord (s.elem 10 1 ch) 0) (elemWord (s.elem 10 1 ch) 1) (s.qClass (OCT_CHA_TXQ.of (elemWord (s.elem 10 1 ch) 0))) x.1
      else x.2.sendEth p (elemWord (s.elem 10 1 ch) 0) (elemWord (s.elem 10 1 ch) 1) x.1) = some t) :
    s.transmit p ch 0 = ((t.setQueue (OCT_CHA_TXQ.of (elemWord (s.elem 10 1 ch) 0))
      { t.queue (OCT_CHA_TXQ.of (elemWord (s.elem 10 1 ch) 0)) with ring := rest }).freeBuffer (dHandle d)).qDequeued
        (OCT_CHA_TXQ.of (elemWord (s.elem 10 1 ch) 0)) := by
  subst hx
  simp [State.transmit, hvalid, hport, hok, State.qSkip_zero, hring, hpool, hsent]

end
end

/-! What the commands do. -/

section
variable {s : State} {p : Fin 6}

theorem exec_ethFrameReceive (l : Fin 8) (f : List Byte) : exec (.ethFrameReceive p l f) s = .next (s.ethFrame p l f) := rfl

theorem exec_portTransmit (ch : Fin 16384) (bad : Nat) : exec (.portTransmit p ch bad) s = .next (s.transmit p ch bad) := rfl

section
variable (hup : s.ethUp p 0 = true)
include hup

theorem exec_ptpFrameReceive_plain {f : List Byte} (hptp : s.ptpTaken p f = true) :
    exec (.ptpFrameReceive p f none) s = .next (s.ptpFrame p f) :=
  congrArg Host.Outcome.next (if_pos (by simp [hup, hptp]))

/-- The best master clock algorithm then decides the port's state. -/
theorem exec_ptpFrameReceive_decides {f : List Byte} (v : Fin 6) (hptp : s.ptpTaken p f = true) :
    exec (.ptpFrameReceive p f (some v)) s = .next ((s.ptpFrame p f).ptpState p v) :=
  congrArg Host.Outcome.next (if_pos (by simp [hup, hptp]))

/-- A port that is not a master sends a peer delay request alone. -/
theorem exec_ptpMessageSend_asks (hstate : s.rd (OCT_PTP p) OCT_PTP_STATE ≠ 2) : exec (.ptpMessageSend p) s =
    .next ((s.modClock p fun c =>
      { c with reqSeq := ((s.oport p).clock.reqSeq + 1) % 65536, reqAt := some s.gav.tai, respRx := none, respIn := none }).emit (.ptpMsg p 2 (((s.oport p).clock.reqSeq + 1) % 65536) 0)) := by
  refine congrArg Host.Outcome.next ((if_pos hup).trans ?_)
  simp only [if_neg hstate]

end
end

/-- Settles O46: a frame by what the MAC, the clock unit and the classifier make of it, a channel by its queue. -/
theorem framesAndTransmission : Obligations.FramesAndTransmission := by
  intro p l ch f st s g a b q
  simp only [exec_ethFrameReceive, exec_portTransmit]
  refine ⟨fun hdown => congrArg Host.Outcome.next (State.ethFrame_down hdown),
    fun hmode hlink => ⟨fun hoff => congrArg Host.Outcome.next (State.ethFrame_off hmode hlink hoff),
      fun hon hmac => congrArg Host.Outcome.next (State.ethFrame_bad hmode hlink hon hmac),
      fun hon hmac hety => ⟨fun hop => congrArg Host.Outcome.next (State.ethFrame_pause hmode hlink hon hmac hety hop),
        fun hop => congrArg Host.Outcome.next (State.ethFrame_pfc hmode hlink hon hmac hety hop)⟩,
      fun hon hmac hety hptp => ?_, fun hon hmac hety hptp => ⟨fun hclass => ?_, fun n hclass hmatch => ?_, fun n hclass hmatch hlen hrsv hapdu => ?_⟩⟩,
    fun hup => ⟨fun hptp => ⟨exec_ptpFrameReceive_plain hup hptp, ?_⟩, fun hstate => ⟨_, rfl, exec_ptpMessageSend_asks hup hstate⟩⟩,
    fun hidle => congrArg Host.Outcome.next (State.transmit_idle hidle 0),
    fun hvalid hport hok => ⟨fun hring => congrArg Host.Outcome.next (State.transmit_empty hvalid hport hok hring),
      fun d rest pool x t hring hpool hx hsent => congrArg Host.Outcome.next (State.transmit_sends hvalid hport hok hring hpool hx hsent)⟩⟩
  · rw [State.ethFrame_ptp hmode hlink hon hmac hety hptp]
    simp only [Fin.ext_iff, Fin.val_zero]
  · rw [State.ethFrame_unclassified hmode hlink hon hmac hety hptp hclass]
  · rw [State.ethFrame_classified hmode hlink hon hmac hety hptp hclass, State.ethClass_queue hmatch]
  · rw [State.ethFrame_classified hmode hlink hon hmac hety hptp hclass, State.ethClass_bad_sv hmatch hlen hrsv hapdu]
  · rintro v rfl
    exact exec_ptpFrameReceive_decides hup v hptp

end Sys2Proof.Machine

/-! PROOFS. Staging, checking, filling and discarding of a bitstream buffer (15 R508 to R512). -/
namespace Sys2Proof.Machine
open Reg

section
variable {s : State} {n : Nat}

/-! STAGE and DISCARD, 15 R512. -/

theorem State.stage_refused (h : s.stgState n = 1 ∨ s.stgState n = 4 ∨ s.stgState n = 5) : s.stage n = s.reply errTarget [] := if_pos h

theorem State.stage_begins {t : State} (h : ¬(s.stgState n = 1 ∨ s.stgState n = 4 ∨ s.stgState n = 5))
    (ht : t = (s.setStgCode n (rej 0)).setStg n 1) :
    s.stage n = ({ t with bsl := { t.bsl with stages := t.bsl.stages ++ [n] } } : State).reply respOk [] := by
  rw [State.stage, if_neg h, ← ht]

/-- The buffer of an armed COMMIT entry is not discarded. -/
theorem State.discard_armed (h : (s.commitEntry.any fun k => s.rd (GAV_TRIGB k) GAV_TRIGB_TARGET == n) = true) :
    s.discard n = s.reply errPerm [] := if_pos h

/-- The state without the shadow copies of a configuration. -/
def State.unshadowed (s : State) : State := { s with bsl := { s.bsl with shadow := [], shadowSeq := 0 } }

section
variable (hfree : (s.commitEntry.any fun k => s.rd (GAV_TRIGB k) GAV_TRIGB_TARGET == n) = false)
include hfree

theorem State.discard_checking (hst : s.stgState n = 1) : s.discard n = s.reply errTarget [] := by
  rw [State.discard, if_neg (by simp [hfree]), if_pos hst]

theorem State.discard_plain (h : ¬(s.stgState n = 1 ∨ s.stgState n = 4 ∨ s.stgState n = 5)) :
    s.discard n = ((s.setStgCode n (rej 0)).setStg n 0).reply respOk [] := by
  obtain ⟨h1, h4, h5⟩ : s.stgState n ≠ 1 ∧ s.stgState n ≠ 4 ∧ s.stgState n ≠ 5 := by simpa using h
  simp -implicitDefEqProofs [State.discard, hfree, h1, h4, h5]

theorem State.discard_shadowed {u : State} (hst : s.stgState n = 5) (hu : u = (s.unshadowed.setStgCode n (rej 0)).setStg n 0) :
    s.discard n = u.reply respOk [] := by
  simp -implicitDefEqProofs [State.discard, State.unshadowed, hfree, hst, hu]

/-- A buffer that leaves FILLING asserts source 912. -/
theorem State.discard_filling {u : State} (hst : s.stgState n = 4) (hu : u = (s.unshadowed.setStgCode n (rej 0)).setStg n 0) :
    s.discard n = ((u.assert 912).recordReg 912 unitLoader (BSL_STGSTAT n)).reply respOk [] := by
  simp -implicitDefEqProofs [State.discard, State.unshadowed, hfree, hst, hu]

end

/-! The ends of the checks and of a fill, 15 R508, R510 and R511. -/

theorem State.stageDone_none (h : s.bsl.stages = []) : s.stageDone = s := by
  simp only [State.stageDone, h]

section
variable {rest : List Nat} {x : List Byte × State} {t : State} (hfirst : s.bsl.stages = n :: rest) (hx : x = s.stgBytes n)
  (ht : t = ({ x.2 with bsl := { x.2.bsl with stages := rest } } : State).setReg (BSL_STGSEQ n) (BitVec.ofNat 64 (leAt x.1 24 8)))
include hfirst hx ht

theorem State.stageDone_rejects {e : Reject} (hcheck : t.checkStream x.1 (s.stgCap n) true false = .error e) :
    s.stageDone = ((t.rejectStg n e).assert 912).recordReg 912 unitLoader (BSL_STGSTAT n) := by
  simp only [State.stageDone, hfirst, ← hx, ← ht, hcheck]

theorem State.stageDone_ready {c : PStream} (hcheck : t.checkStream x.1 (s.stgCap n) true false = .ok c) :
    s.stageDone = ((t.setStg n 2).assert 912).recordReg 912 unitLoader (BSL_STGSTAT n) := by
  simp only [State.stageDone, hfirst, ← hx, ← ht, hcheck]

end

theorem State.fillDone_none (h : s.filling = none) : s.fillDone = s := by
  simp only [State.fillDone, h]

section
variable {x : List Byte × State} (hfill : s.filling = some n) (hx : x = s.stgBytes n)
include hfill hx

theorem State.fillDone_rejects {e : Reject} (hcheck : x.2.checkStream x.1 (s.stgCap n) true false = .error e) :
    s.fillDone = ((x.2.rejectStg n e).assert 912).recordReg 912 unitLoader (BSL_STGSTAT n) := by
  simp only [State.fillDone, hfill, ← hx, hcheck]

theorem State.fillDone_shadows {c : PStream} (hcheck : x.2.checkStream x.1 (s.stgCap n) true false = .ok c) : s.fillDone =
    (((({ x.2 with bsl := { x.2.bsl with shadow := c.recs, shadowSeq := c.seq } } : State).setStg n 5).assert 912).recordReg 912 unitLoader
      (BSL_STGSTAT n)) := by
  simp only [State.fillDone, hfill, ← hx, hcheck]

end
end

theorem exec_stage (r : Requester) (b : Fin 4) (s : State) : exec (.stage r b) s = .next (s.plat r fun s => s.stage b) := rfl

theorem exec_discard (r : Requester) (b : Fin 4) (s : State) : exec (.discard r b) s = .next (s.plat r fun s => s.discard b) := rfl

theorem exec_stageCheckDone (s : State) : exec .stageCheckDone s = .next s.stageDone := rfl

theorem exec_fillDone (s : State) : exec .fillDone s = .next s.fillDone := rfl

/-- Settles O47: a command by the buffer's state, the end of a check by what the check finds. -/
theorem bitstreamStaging : Obligations.BitstreamStaging := by
  intro r b s v
  simp only [exec_stage, exec_discard, exec_stageCheckDone, exec_fillDone]
  refine ⟨fun hr => ?_, fun hr => ?_, fun hnone => congrArg Host.Outcome.next (State.stageDone_none hnone),
    fun n rest x t hfirst hx ht => ⟨fun e hcheck => congrArg Host.Outcome.next (State.stageDone_rejects hfirst hx ht hcheck),
      fun c hcheck => congrArg Host.Outcome.next (State.stageDone_ready hfirst hx ht hcheck)⟩, fun hnone => congrArg Host.Outcome.next (State.fillDone_none hnone),
    fun n x hfill hx => ⟨fun e hcheck => congrArg Host.Outcome.next (State.fillDone_rejects hfill hx hcheck),
      fun c hcheck => congrArg Host.Outcome.next (State.fillDone_shadows hfill hx hcheck)⟩⟩
  · rw [State.plat_refused _ hr, State.plat_refused _ hr]
    exact ⟨rfl, rfl⟩
  · rw [State.plat_ok _ hr, State.plat_ok _ hr]
    exact ⟨fun hst => congrArg Host.Outcome.next (State.stage_refused hst), fun t h1 h4 h5 ht => congrArg Host.Outcome.next (State.stage_begins (by tauto) ht),
      fun harmed => congrArg Host.Outcome.next (State.discard_armed harmed), fun hfree => ⟨fun hst => congrArg Host.Outcome.next (State.discard_checking hfree hst),
        fun h1 h4 h5 => congrArg Host.Outcome.next (State.discard_plain hfree (by tauto)),
        fun u hu => ⟨fun hst => congrArg Host.Outcome.next (State.discard_shadowed hfree hst hu), fun hst => congrArg Host.Outcome.next (State.discard_filling hfree hst hu)⟩⟩⟩

end Sys2Proof.Machine

/-! PROOFS. What a Read Block of SMBus answers and what each JTAG instruction does (16 R532, 19 R589 and R590). -/
namespace Sys2Proof.Machine
open Reg

section
variable {s : State}

/-! SMBus, 19 R589: it answers from the release of power-on reset onward. -/

theorem State.smb_released (v : Nat) (h : s.boot.inReset = false) : s.smb v = s.reply respOk [⟨tagU64, BitVec.ofNat 64 v⟩] := by
  simp [State.smb, h]

theorem State.smb_inReset (v : Nat) (h : s.boot.inReset = true) : s.smb v = s := if_pos h

/-- A command that answers the number `v` does so out of reset only. -/
theorem answers_of_smb {i : Instr} {v : Nat} (h : exec i s = .next (s.smb v)) :
    (s.boot.inReset = false → exec i s = .next (s.reply respOk [⟨tagU64, BitVec.ofNat 64 v⟩])) ∧ (s.boot.inReset = true → exec i s = .next s) :=
  ⟨fun hr => h.trans (congrArg Host.Outcome.next (s.smb_released v hr)), fun hr => h.trans (congrArg Host.Outcome.next (s.smb_inReset v hr))⟩

/-! JTAG, 19 R590: an instruction that takes control of pins needs PORST_N low. -/

theorem State.pinInstr_inReset (j : JInstr) (h : s.boot.inReset = true) : s.pinInstr j = s.setJtag j := by simp [State.pinInstr, h]

theorem State.pinInstr_released (j : JInstr) (h : s.boot.inReset = false) : s.pinInstr j = s.setJtag .bypass := by simp [State.pinInstr, h]

/-- A command that shifts in a pin instruction acts as BYPASS out of reset. -/
theorem pinsOf_pinInstr {i : Instr} {j : JInstr} (h : exec i s = .next (s.pinInstr j)) :
    (s.boot.inReset = true → exec i s = .next (s.setJtag j)) ∧ (s.boot.inReset = false → exec i s = .next (s.setJtag .bypass)) :=
  ⟨fun hr => h.trans (congrArg Host.Outcome.next (s.pinInstr_inReset j hr)), fun hr => h.trans (congrArg Host.Outcome.next (s.pinInstr_released j hr))⟩

/-- DEBUG reaches an engine in OPEN_DEBUG alone, 16 R532. -/
theorem exec_debug (e : EngId) (halt : Bool) (s : State) :
    exec (.debug e halt) s = .next (if s.flag ID_PART ID_PART_SECMODE then (s.setJtag .debug).modEngine e fun y => { y with halted := halt }
      else s.setJtag .bypass) := rfl

end

/-- Settles O54: each Read Block answers its number, each pin instruction goes by the reset line, and DEBUG goes by SECMODE. -/
theorem sidebandInterfaces : Obligations.SidebandInterfaces := by
  intro x pins e halt s
  refine ⟨answers_of_smb rfl, answers_of_smb rfl, answers_of_smb rfl, answers_of_smb rfl, answers_of_smb rfl, answers_of_smb rfl,
    answers_of_smb rfl, rfl, rfl, ⟨_, rfl, rfl, rfl, rfl, rfl⟩, pinsOf_pinInstr rfl, pinsOf_pinInstr rfl, pinsOf_pinInstr rfl,
    pinsOf_pinInstr rfl, pinsOf_pinInstr rfl, fun hdebug => ?_, fun hfield => ?_⟩
  · exact (exec_debug e halt s).trans (congrArg Host.Outcome.next (if_pos hdebug))
  · exact (exec_debug e halt s).trans (congrArg Host.Outcome.next (if_neg (by simp [hfield])))

end Sys2Proof.Machine

/-! PROOFS. The outbound window (19 R588) and its base register. -/
namespace Sys2Proof.Machine
open Reg

section
variable {s : State} {r : Requester} {a : BitVec 48} {write : Bool} {data : List Byte} {host : Option Word}

/-! Accesses, 19 R588. -/

theorem exec_outboundAccess_below (ha : a.toNat < 0xF80000000000) :
    exec (.outboundAccess r a write data host) s = .next (s.reply errDecode []) :=
  congrArg Host.Outcome.next (if_pos ha)

theorem exec_outboundAccess_refused (ha : 0xF80000000000 ≤ a.toNat) (hr : s.outOk r = false) :
    exec (.outboundAccess r a write data host) s = .next (s.reply errPerm []) :=
  congrArg Host.Outcome.next ((if_neg (by omega)).trans (if_pos (by simp [hr])))

section
variable (ha : 0xF80000000000 ≤ a.toNat) (hr : s.outOk r = true)
include ha hr

theorem exec_outboundAccess_write :
    exec (.outboundAccess r a true data host) s = .next ((s.emit (.hostWrite (s.hostAddr a.toNat) data)).reply respOk []) :=
  congrArg Host.Outcome.next ((if_neg (by omega)).trans ((if_neg (by simp [hr])).trans (if_pos rfl)))

theorem exec_outboundAccess_read_error :
    exec (.outboundAccess r a false data none) s = .next ((s.emit (.hostRead (s.hostAddr a.toNat))).reply errTarget []) :=
  congrArg Host.Outcome.next ((if_neg (by omega)).trans ((if_neg (by simp [hr])).trans (if_neg (by simp))))

/-- A read that completes answers the word of host memory, with a tag that the spec leaves free. -/
theorem exec_outboundAccess_read (x : Word) :
    ∃ t : State, exec (.outboundAccess r a false data (some x)) s = .next t ∧ t.answer.resp = respOk ∧ t.answer.data.map (·.val) = [x] ∧
      t.outbox = s.outbox ++ [.hostRead (s.hostAddr a.toNat)] ∧ t.mem = s.mem ∧ t.regs = s.regs :=
  ⟨_, congrArg Host.Outcome.next ((if_neg (by omega)).trans ((if_neg (by simp [hr])).trans (if_neg (by simp)))),
    rfl, rfl, rfl, rfl, rfl⟩

end

/-! A register that is one RW field of 64 bits. -/

/-- A blend of all 64 bits takes the word written. -/
theorem blend_all (x y : Word) : blend x.toNat y.toNat (2 ^ 64 - 1) = y.toNat := by
  have hor : x.toNat ||| (2 ^ 64 - 1) = 2 ^ 64 - 1 := by
    simpa using (congrArg BitVec.toNat (BitVec.or_allOnes (x := x)))
  have hand : y.toNat &&& (2 ^ 64 - 1) = y.toNat := by
    rw [Nat.and_two_pow_sub_one_eq_mod, Nat.mod_eq_of_lt y.isLt]
  simp only [blend, hor, hand]
  omega

/-- The definition of HOST_OUTBASE in the register table. -/
def outbaseDef : RegDef := ⟨HOST_OUTBASE, 0, 1, 0, 1, [HOST_OUTBASE_ALL]⟩

theorem regAt_HOST_OUTBASE : regAt HOST_OUTBASE = some outbaseDef := by decide +kernel

theorem outbaseDef_mask_rw : outbaseDef.mask .rw = 2 ^ 64 - 1 := by decide

theorem outbaseDef_mask_w1c : outbaseDef.mask .w1c = 0 := by decide

/-- A write of all bits of HOST_OUTBASE leaves the word written. -/
theorem outbaseDef_merge (cur d : Word) : outbaseDef.merge cur.toNat d.toNat (2 ^ 64 - 1) = d.toNat := by
  simp only [RegDef.merge, outbaseDef_mask_rw, outbaseDef_mask_w1c, Nat.and_self, Nat.zero_and, blend_zero, blend_all]

/-- No unit acts on a write of HOST_OUTBASE: it goes by the access codes. -/
theorem State.wrReg_HOST_OUTBASE (q : Requester) (d m : Nat) :
    s.wrReg q outbaseDef HOST_OUTBASE d m = s.wrPlain outbaseDef HOST_OUTBASE d m := by
  have hgav (i v : Nat) : s.wrGav HOST_OUTBASE i v = none := rfl
  have heng (i v : Nat) : s.wrEng HOST_OUTBASE i v = none := by unfold State.wrEng; split <;> rfl
  have hslc (i v : Nat) : s.wrSlc q HOST_OUTBASE i v = none := by unfold State.wrSlc; split <;> rfl
  have hclu (i v : Nat) : s.wrClu q HOST_OUTBASE i v = none := by unfold State.wrClu; split <;> rfl
  have hic (i v : Nat) : s.wrIc q HOST_OUTBASE i v = none := rfl
  have hoct (i v : Nat) : s.wrOct q HOST_OUTBASE i v = none := rfl
  have hsec (i v : Nat) : s.wrSec q HOST_OUTBASE i v = none := rfl
  have hmisc (i v : Nat) : s.wrMisc q HOST_OUTBASE i v = none := rfl
  have hbase : outbaseDef.base = HOST_OUTBASE := rfl
  simp only [State.wrReg, hbase, hgav, heng, hslc, hclu, hic, hoct, hsec, hmisc, Option.orElse_none, ite_self]

/-- A 64-bit write of HOST_OUTBASE by the Steward. -/
theorem exec_registerWrite_HOST_OUTBASE (d : Word) :
    exec (.registerWrite .steward 0x210 .w64 d) s = .next ((s.setReg HOST_OUTBASE d).reply respOk []) := by
  have hw : s.platWrite .steward HOST_OUTBASE 8 d = s.wrReg .steward outbaseDef HOST_OUTBASE d.toNat (2 ^ 64 - 1) :=
    s.platWrite_register rfl rfl rfl regAt_HOST_OUTBASE
  have hp := s.wrPlain_eq outbaseDef HOST_OUTBASE d.toNat (2 ^ 64 - 1) (by decide) (by decide) (by decide)
  rw [outbaseDef_merge, BitVec.ofNat_toNat, BitVec.setWidth_eq] at hp
  rw [exec_registerWrite]
  exact congrArg Host.Outcome.next (hw.trans ((s.wrReg_HOST_OUTBASE _ _ _).trans hp))

end

/-- Settles O60: the window's accesses by direction and by what host memory answers, and HOST_OUTBASE as a plain register. -/
theorem outboundWindow : Obligations.OutboundWindow := by
  intro r a d x ho data s ha hr h
  obtain ⟨-, -, -, hout⟩ := State.reset_device_regs
  refine ⟨exec_outboundAccess_write ha hr, exec_outboundAccess_read_error ha hr, exec_outboundAccess_read ha hr x,
    hout, _, exec_registerWrite_HOST_OUTBASE d, rfl, ?_⟩
  rw [State.reg_reply]
  exact State.reg_setReg s HOST_OUTBASE d

end Sys2Proof.Machine

/-! PROOFS. Requests through the BARs, configuration, resets and the link of PCIe, the mailbox and the service link (19 R577, R581 to R588 and R600). -/
namespace Sys2Proof.Machine
open Reg

section
variable {s : State} {q : PciReq}

/-! Requests while PCIe does not answer, 17 R538. -/

theorem exec_pcieConfigRequest_notReady (c : CfgReq) (h : s.pciReady = false) :
    exec (.pcieConfigRequest c) s = .next (s.sendCompletion .retry false []) :=
  congrArg Host.Outcome.next (if_pos (by simp [h]))

theorem exec_pcieInboundRequest_notReady (h : s.pciReady = false) : exec (.pcieInboundRequest q) s = .next (s.pciRefuse q) :=
  congrArg Host.Outcome.next (if_pos (by simp [h]))

theorem State.pciRefuse_write (h : q.write = true) : s.pciRefuse q = s.posted .unsupported := if_pos h

theorem State.pciRefuse_read (h : q.write = false) : s.pciRefuse q = s.sendCompletion .unsupported false [] := if_neg (by simp [h])

/-! Inbound requests of the PF, 19 R584: BAR0 is the platform view, BAR2 the page of tenant 0, BAR4 memory. -/

section
variable (hready : s.pciReady = true) (hfn : q.fn = 0)
include hready hfn

theorem exec_pcieInboundRequest_pf :
    exec (.pcieInboundRequest q) s = .next (
      if q.bar = 0 ∧ q.off.toNat < 0x4000000 then
        if q.write then
          let u := s.platWrite .pf q.off.toNat q.data.length (wordOf (q.data.take 8))
          if u.answer.resp = errBusy then s else u.posted (pciOf u.answer.resp).1
        else
          let r := s.platRead .pf q.off.toNat q.len (.host q.len)
          r.2.regCompletion r.1 q.len
      else if q.bar = 2 ∧ q.off.toNat < 0x10000 then s.pciPage 0 ⟨some ctxPf, some 0, .host q.len⟩ q.off.toNat q
      else if q.bar = 4 ∧ q.off.toNat < 2 ^ 38 then
        s.pciMem 0 q.off.toNat q fun pa => if pa < 0x002D00000000 then .pa pa else .no .unsupported
      else s.pciRefuse q) := by
  have hf : q.fn.val = 0 := congrArg Fin.val hfn
  refine congrArg Host.Outcome.next ((if_neg (by simp [hready])).trans ?_)
  simp only [hf, if_true, Nat.add_zero]

theorem exec_pcieInboundRequest_pf_write {u : State} (hbar : q.bar = 0) (hoff : q.off.toNat < 0x4000000) (hw : q.write = true)
    (hu : u = s.platWrite .pf q.off.toNat q.data.length (wordOf (q.data.take 8))) :
    exec (.pcieInboundRequest q) s = .next (if u.answer.resp = errBusy then s else u.posted (pciOf u.answer.resp).1) := by
  rw [exec_pcieInboundRequest_pf hready hfn, if_pos ⟨hbar, hoff⟩, if_pos hw, hu]

theorem exec_pcieInboundRequest_pf_read (hbar : q.bar = 0) (hoff : q.off.toNat < 0x4000000) (hw : q.write = false) {u : State} {v : Word}
    (hr : s.platRead .pf q.off.toNat q.len (.host q.len) = (some (respOk, v), u)) :
    exec (.pcieInboundRequest q) s = .next (u.sendCompletion (pciOf respOk).1 (pciOf respOk).2 ((bytesOf v).take q.len)) := by
  rw [exec_pcieInboundRequest_pf hready hfn, if_pos ⟨hbar, hoff⟩, if_neg (by simp [hw]), hr]
  simp [State.regCompletion]

theorem exec_pcieInboundRequest_pf_page (hbar : q.bar = 2) (hoff : q.off.toNat < 0x10000) :
    exec (.pcieInboundRequest q) s = .next (s.pciPage 0 ⟨some ctxPf, some 0, .host q.len⟩ q.off.toNat q) := by
  rw [exec_pcieInboundRequest_pf hready hfn, if_neg (by simp [hbar]), if_pos ⟨hbar, hoff⟩]

theorem exec_pcieInboundRequest_pf_memory (hbar : q.bar = 4) (hoff : q.off.toNat < 2 ^ 38) :
    exec (.pcieInboundRequest q) s =
      .next (s.pciMem 0 q.off.toNat q fun pa => if pa < 0x002D00000000 then .pa pa else .no .unsupported) := by
  rw [exec_pcieInboundRequest_pf hready hfn, if_neg (by simp [hbar]), if_neg (by simp [hbar]), if_pos ⟨hbar, hoff⟩]

end

/-! Inbound requests of a VF: BAR0 is its tenant's page, BAR2 its tenant's addresses. -/

section
variable (hready : s.pciReady = true) (hfn : q.fn ≠ 0)
include hready hfn

theorem exec_pcieInboundRequest_vf_unbound (ht : s.vfTenant q.fn.val = none) : exec (.pcieInboundRequest q) s = .next (s.pciRefuse q) := by
  have hf : q.fn.val ≠ 0 := fun h => hfn (Fin.ext h)
  show execPcieInboundRequest q s = _
  simp [execPcieInboundRequest, hready, hf, ht]

theorem exec_pcieInboundRequest_vf_page {t : Nat} (ht : s.vfTenant q.fn.val = some t) (hbar : q.bar = 0) (hoff : q.off.toNat < 0x10000) :
    exec (.pcieInboundRequest q) s = .next (s.pciPage t ⟨some (ctxPf + q.fn.val), some q.fn.val, .host q.len⟩ q.off.toNat q) := by
  have hf : q.fn.val ≠ 0 := fun h => hfn (Fin.ext h)
  show execPcieInboundRequest q s = _
  simp [execPcieInboundRequest, hready, hf, ht, hbar, hoff]

theorem exec_pcieInboundRequest_vf_memory {t : Nat} (ht : s.vfTenant q.fn.val = some t) (hbar : q.bar = 2) (hoff : q.off.toNat < 2 ^ 46)
    (hpage : ∀ n, s.vfTo t q.write q.off.toNat ≠ .page n) :
    exec (.pcieInboundRequest q) s = .next (s.pciMem t q.off.toNat q (s.vfTo t q.write)) := by
  have hf : q.fn.val ≠ 0 := fun h => hfn (Fin.ext h)
  have hoff' : q.off.toNat < 70368744177664 := hoff
  show execPcieInboundRequest q s = _
  cases hto : s.vfTo t q.write q.off.toNat with
  | pa n => simp [execPcieInboundRequest, hready, hf, ht, hbar, hoff', hto]
  | page n => exact absurd hto (hpage n)
  | no st => simp [execPcieInboundRequest, hready, hf, ht, hbar, hoff', hto]

end

/-! Configuration, 17 R538. -/

/-- The word of register `r` in the configuration space of function `f`. -/
def State.cfgWord (s : State) (f : Fin 2049) (r : BitVec 10) : BitVec 32 :=
  sget (fun k => Config.pciConfig k) s.host.config (1024 * f.val + r.toNat)

/-- The state after a write of that word. -/
def State.setCfgWord (s : State) (f : Fin 2049) (r : BitVec 10) (w : BitVec 32) : State :=
  { s with host := { s.host with config := sset (fun k => Config.pciConfig k) s.host.config (1024 * f.val + r.toNat) w } }

theorem State.cfgWord_setCfgWord (f : Fin 2049) (r : BitVec 10) (w : BitVec 32) : (s.setCfgWord f r w).cfgWord f r = w := by
  simp [State.cfgWord, State.setCfgWord]

theorem exec_pcieConfigRequest_read (f : Fin 2049) (r : BitVec 10) (h : s.pciReady = true) : exec (.pcieConfigRequest (.read f r)) s =
    .next (s.sendCompletion .success false ((List.range 4).map fun i => (s.cfgWord f r).extractLsb' (8 * i) 8)) :=
  congrArg Host.Outcome.next (if_neg (by simp [h]))

theorem exec_pcieConfigRequest_write (f : Fin 2049) (r : BitVec 10) (w : BitVec 32) (h : s.pciReady = true) :
    exec (.pcieConfigRequest (.write f r w)) s = .next ((s.setCfgWord f r w).sendCompletion .success false []) :=
  congrArg Host.Outcome.next (if_neg (by simp [h]))

/-- A write of a configuration word answers, and a read after it answers the word written. -/
theorem exec_pcieConfigRequest_write_read (f : Fin 2049) (r : BitVec 10) (w : BitVec 32) (h : s.pciReady = true) :
    ∃ t u : State, exec (.pcieConfigRequest (.write f r w)) s = .next t ∧ exec (.pcieConfigRequest (.read f r)) t = .next u ∧
      u.outbox = t.outbox ++ [.completion .success false ((List.range 4).map fun i => w.extractLsb' (8 * i) 8)] := by
  have hready : ((s.setCfgWord f r w).sendCompletion .success false []).pciReady = true := h
  have hword : ((s.setCfgWord f r w).sendCompletion .success false []).cfgWord f r = w := s.cfgWord_setCfgWord f r w
  refine ⟨_, _, exec_pcieConfigRequest_write f r w h, exec_pcieConfigRequest_read f r hready, ?_⟩
  rw [hword]
  rfl

/-! Resets and the link, 19 R581, R583 and R586. -/

theorem exec_pcieReset_flr (f : Fin 2049) : exec (.pcieReset (.flr f)) s =
    .next (((eachDo (pciFns f) (fun n t => t.pciResetFn n) s).setErr HOST_ERR HOST_ERR_FLR 678).recordReg 678 unitSteward HOST_ERR) := rfl

theorem exec_pcieLinkUp_trains {speed width : Nat} {flit : Bool} (h : 4 ≤ speed ∧ speed ≤ 6 ∧ (speed ≠ 6 ∨ flit) ∧ (width = 4 ∨ width = 8 ∨ width = 16)) :
    exec (.pcieLinkUp speed width flit) s = .next ((((s.wr HOST_LINK HOST_LINK_SPEED speed).wr HOST_LINK HOST_LINK_WIDTH width).wr
      HOST_LINK HOST_LINK_FLIT (b2n flit)).setCond 676 false) :=
  congrArg Host.Outcome.next (if_pos h)

theorem exec_pcieLinkUp_stays {speed width : Nat} {flit : Bool}
    (h : ¬(4 ≤ speed ∧ speed ≤ 6 ∧ (speed ≠ 6 ∨ flit) ∧ (width = 4 ∨ width = 8 ∨ width = 16))) :
    exec (.pcieLinkUp speed width flit) s = .next s :=
  congrArg Host.Outcome.next (if_neg h)

/-! The mailbox, 19 R582. -/

theorem exec_mbxDoor (r : Requester) (d : Word) : exec (.mbxDoor r d) s = .next (s.plat r fun s => s.door d.toNat) := rfl

theorem State.door_switching (v : Nat) (h : s.rd UPD_STAT UPD_STAT_PHASE = 5) : s.door v = s.reply errBusy [] := if_pos h

theorem State.door_rings (v : Nat) (h : s.rd UPD_STAT UPD_STAT_PHASE ≠ 5) (hreq : s.flag MBX_DOOR MBX_DOOR_REQ = false) :
    s.door v = ((s.wr MBX_DOOR MBX_DOOR_REQ (bits v 0 1)).wr MBX_DOOR MBX_DOOR_REPLY (bits v 1 1)).reply respOk [] :=
  (if_neg h).trans (if_neg (by simp [hreq]))

theorem exec_mailboxReply_open (rep : List (Fin 512 × Word)) (h : s.flag MBX_DOOR MBX_DOOR_REQ = true) : exec (.mailboxReply rep) s =
    .next ((((eachDo rep (fun p t => t.setReg (MBX_REP p.1.val) p.2) s).wr MBX_DOOR MBX_DOOR_REQ 0).wr MBX_DOOR MBX_DOOR_REPLY 1).assert 680
      |>.recordReg 680 unitSteward MBX_DOOR) :=
  congrArg Host.Outcome.next (if_pos h)

theorem exec_mailboxReply_closed (rep : List (Fin 512 × Word)) (h : s.flag MBX_DOOR MBX_DOOR_REQ = false) :
    exec (.mailboxReply rep) s = .next s :=
  congrArg Host.Outcome.next (if_neg (by simp [h]))

/-! The service port's link, 19 R600. -/

theorem exec_svcLinkChange_lost (h : (s.src 679).cond = false) :
    exec (.svcLinkChange false) s = .next ((s.setCond 679 true).record 679 unitSteward 0 0 0) :=
  congrArg Host.Outcome.next ((if_neg (by simp)).trans (if_neg (by simp [h])))

end

/-- Settles O53: each kind of request by the branch of its command that answers it. -/
theorem hostInterface : Obligations.HostInterface := by
  intro q c f reg w speed width flit r a d data rep s o
  refine ⟨fun hready => ⟨exec_pcieConfigRequest_notReady c hready, fun hw => ?_, fun hw => ?_⟩, fun hready => ?_,
    exec_pcieReset_flr f, rfl, rfl, rfl, fun h4 h6 hflit hwidth => ?_, fun h => ?_, exec_outboundAccess_below, exec_outboundAccess_refused,
    fun hr => ?_, fun hr hphase => ?_, fun hr hphase hreq => ?_, exec_mailboxReply_open rep, exec_mailboxReply_closed rep, rfl, exec_svcLinkChange_lost⟩
  · rw [exec_pcieInboundRequest_notReady hready, s.pciRefuse_read hw]
  · rw [exec_pcieInboundRequest_notReady hready, s.pciRefuse_write hw]
  · refine ⟨fun hfn hbar hoff u hw hu => ⟨fun hbusy => ?_, fun hbusy => ?_⟩,
      fun hfn hbar hoff u v hw hr => exec_pcieInboundRequest_pf_read hready hfn hbar hoff hw hr,
      exec_pcieInboundRequest_pf_page hready, exec_pcieInboundRequest_pf_memory hready,
      fun t hfn ht hbar hoff hpage => exec_pcieInboundRequest_vf_memory hready hfn ht hbar hoff hpage,
      fun hfn ht => exec_pcieInboundRequest_vf_unbound hready hfn ht,
      fun t hfn ht hbar hoff => exec_pcieInboundRequest_vf_page hready hfn ht hbar hoff,
      exec_pcieConfigRequest_read f reg hready, exec_pcieConfigRequest_write_read f reg w hready⟩
    · rw [exec_pcieInboundRequest_pf_write hready hfn hbar hoff hw hu, if_neg hbusy]
    · rw [exec_pcieInboundRequest_pf_write hready hfn hbar hoff hw hu, if_pos hbusy]
  · refine exec_pcieLinkUp_trains ⟨h4, h6, ?_, hwidth⟩
    exact (Decidable.em (speed = 6)).elim (fun h => .inr (hflit h)) .inl
  · refine exec_pcieLinkUp_stays fun ⟨h4, h6, hflit, hwidth⟩ => ?_
    obtain hlow | hhigh | ⟨hspeed, hoff⟩ | hnone := h
    · omega
    · omega
    · simp [hspeed, hoff] at hflit
    · omega
  · rw [exec_mbxDoor, State.plat_refused _ hr]
  · rw [exec_mbxDoor, State.plat_ok _ hr, s.door_switching _ hphase]
  · rw [exec_mbxDoor, State.plat_ok _ hr, s.door_rings _ hphase hreq]

end Sys2Proof.Machine

/-! PROOFS. The start and the end of the key engine's operations (17 R546, R547 and R558). -/
namespace Sys2Proof.Machine
open Reg

section
variable {s : State}

/-! Start, 17 R547. -/

theorem State.keStart_eq (r : Requester) (w : Nat) : s.keStart r w =
    if r ≠ .steward then s.reply errPerm []
    else if s.flag KE_STAT KE_STAT_BUSY = true then s.reply errTarget []
    else (({ s with ke := { s.ke with cmd := w, began := s.gav.xclk } } : State).wr KE_STAT KE_STAT_BUSY 1).reply respOk [] := rfl

/-! End, 17 R546 and R547. -/

/-- The state in which the running operation's time has passed. -/
def State.keEndTime (s : State) : State :=
  let left := s.ke.began + 2 * s.keKclk - s.gav.xclk
  s.pass left left

/-- The operands of the running operation at KE_SRC. -/
def State.keOperands (s : State) (n : Nat) : Nat × List Byte × State := s.busBytes (s.rd KE_SRC KE_SRC_PA) n

/-- The code of the running operation and the state in which it ends. -/
def State.keOutcome (s : State) : Nat × State :=
  let op := bits s.ke.cmd 0 4
  let len := s.rd KE_LEN KE_LEN_LEN
  let r := s.keOperands (keOperand op len)
  if r.1 ≠ respOk then (6, r.2.2) else r.2.2.keRun op len r.2.1

theorem exec_keDone_idle (h : s.flag KE_STAT KE_STAT_BUSY = false) : exec .keDone s = .next s :=
  congrArg Host.Outcome.next (if_pos (by simp [h]))

/-- The end shows the code and the cycles, clears BUSY and raises source 917. -/
theorem exec_keDone_busy (h : s.flag KE_STAT KE_STAT_BUSY = true) : exec .keDone s =
    .next ((((s.keEndTime.keOutcome.2.wr KE_STAT KE_STAT_BUSY 0).wr KE_STAT KE_STAT_CODE s.keEndTime.keOutcome.1).wr KE_CYCLES KE_CYCLES_COUNT
      s.keEndTime.keKclk).setErr KE_STAT KE_STAT_DONE 917) :=
  congrArg Host.Outcome.next (if_neg (by simp [h]))

section
variable {op : Nat} (hop : bits s.ke.cmd 0 4 = op)
include hop

theorem State.keOutcome_read {b : List Byte} {t : State}
    (hr : s.keOperands (keOperand op (s.rd KE_LEN KE_LEN_LEN)) = (respOk, b, t)) :
    s.keOutcome = t.keRun op (s.rd KE_LEN KE_LEN_LEN) b := by
  simp [State.keOutcome, hop, hr]

/-- Operands that are not read give ERR_BUS and no result. -/
theorem State.keOutcome_failed {c : Nat} {b : List Byte} {t : State}
    (hr : s.keOperands (keOperand op (s.rd KE_LEN KE_LEN_LEN)) = (c, b, t)) (hc : c ≠ respOk) : s.keOutcome = (6, t) := by
  simp [State.keOutcome, hop, hr, hc]

theorem State.keKclk_of_op (hne : op ≠ 7) : s.keKclk = keCycles op (s.rd KE_LEN KE_LEN_LEN) := by
  simp [State.keKclk, hop, hne]

end

theorem State.keOutcome_random (hop : bits s.ke.cmd 0 4 = 9) : s.keOutcome = (0, (s.keRandom 32).2.kePut (s.keRandom 32).1) :=
  s.keOutcome_read hop rfl

end

/-- Settles O49: an operation starts by requester and BUSY; its end is read off the operation's outcome. -/
theorem keyEngineOperations : Obligations.KeyEngineOperations := by
  intro r k flag s starts left u done op len src
  have hstarts (i : Instr) (w : Nat) (h : exec i s = .next (s.keStart r w)) : starts i w := h.trans (congrArg Host.Outcome.next (s.keStart_eq r w))
  refine ⟨hstarts _ _ rfl, hstarts _ _ rfl, hstarts _ _ rfl, hstarts _ _ rfl, hstarts _ _ rfl, hstarts _ _ rfl, hstarts _ _ rfl,
    hstarts _ _ rfl, hstarts _ _ rfl, exec_keDone_idle, fun hbusy => ?_⟩
  have hdone (x : Nat × State) (hx : u.keOutcome = x) : done x := by
    have h := exec_keDone_busy hbusy
    rwa [show s.keEndTime = u from rfl, hx] at h
  refine ⟨fun b t hop hsrc => ⟨hdone _ (u.keOutcome_read hop hsrc), u.keKclk_of_op hop (by decide)⟩,
    fun c b t hop hsrc hc => hdone _ (u.keOutcome_failed hop hsrc hc),
    fun b t hop hsrc => ⟨hdone _ (u.keOutcome_read hop hsrc), u.keKclk_of_op hop (by decide)⟩,
    fun hop => ⟨hdone _ (u.keOutcome_random hop), u.keKclk_of_op hop (by decide)⟩⟩

end Sys2Proof.Machine

/-! PROOFS. What the event recorder writes, folds and counts (18 R570 to R573). -/
namespace Sys2Proof.Machine
open Reg

/-- The recorder's ring and its head stay: the copies to flash and to DRAM leave both alone. -/
structure KeepsRing (s t : State) : Prop where
  ring : t.mgd.ring = s.mgd.ring
  head : t.rd MGD_STAT MGD_STAT_HEAD = s.rd MGD_STAT MGD_STAT_HEAD

section
variable {s t u : State}

theorem KeepsRing.refl : KeepsRing s s := ⟨rfl, rfl⟩

theorem KeepsRing.trans (h : KeepsRing s t) (g : KeepsRing t u) : KeepsRing s u := ⟨g.ring.trans h.ring, g.head.trans h.head⟩

theorem KeepsRing.mrec (h : KeepsRing s t) (i : Nat) : t.mrec i = s.mrec i := by rw [State.mrec, State.mrec, h.ring]

/-- A loop of steps that each leave the ring and its head. -/
theorem KeepsRing.eachDo {β : Type} {f : β → State → State} (h : ∀ x t, KeepsRing t (f x t)) (xs : List β) : KeepsRing s (eachDo xs f s) := by
  induction xs generalizing s with
  | nil => exact .refl
  | cons x xs ih => exact (h x s).trans ih

theorem KeepsRing.ite {c : Prop} [Decidable c] (ht : KeepsRing s t) (hu : KeepsRing s u) : KeepsRing s (if c then t else u) := by
  split_ifs <;> assumption

end

section
variable (s : State)

theorem State.wr_keepsRing (off : Nat) (f : Fld) (v : Nat) (h : MGD_STAT ≠ off) : KeepsRing s (s.wr off f v) :=
  ⟨congrArg Marigold.ring (s.wr_mgd off f v), s.rd_wr_off off MGD_STAT f MGD_STAT_HEAD v h⟩

theorem State.wr_COUNT_keepsRing (v : Nat) : KeepsRing s (s.wr MGD_STAT MGD_STAT_COUNT v) :=
  ⟨congrArg Marigold.ring (s.wr_mgd _ _ v), s.rd_wr_ne MGD_STAT MGD_STAT_COUNT MGD_STAT_HEAD v (by decide) (by decide)⟩

/-- A change of the recorder's other parts. -/
theorem State.withMgd_keepsRing (m : Marigold) (h : m.ring = s.mgd.ring) : KeepsRing s { s with mgd := m } :=
  ⟨h, State.rd_congr rfl _ _⟩

theorem State.flashCopy_keepsRing (r : MRec) : KeepsRing s (s.flashCopy r) := by
  unfold State.flashCopy
  exact (s.wr_keepsRing MGD_FLASH MGD_FLASH_HEAD _ (by decide)).trans (State.withMgd_keepsRing _ _ rfl)

theorem State.dramCopy_keepsRing (r : MRec) : KeepsRing s (s.dramCopy r) := by
  unfold State.dramCopy
  extract_lets h _ _ t
  have ht : KeepsRing s t := (s.wr_keepsRing MGD_DRAM MGD_DRAM_HEAD h (by decide)).trans (State.withMgd_keepsRing _ _ rfl)
  exact .ite (ht.trans (t.wr_keepsRing MGD_DRAM MGD_DRAM_WRAPS _ (by decide))) ht

/-- The spill to DRAM, 18 R573. -/
theorem State.spill_keepsRing : KeepsRing s s.spill := by
  unfold State.spill
  extract_lets n h slots t
  have ht : KeepsRing s t := .eachDo (fun i u => u.dramCopy_keepsRing (u.mrec i)) slots
  clear_value t
  exact .ite ((ht.trans (t.wr_COUNT_keepsRing (n - 32))).trans (State.withMgd_keepsRing _ _ rfl)) .refl

end

section
variable {s : State} {x : MSub}

/-- The state with its submission buffer empty. -/
def State.unbuffered (s : State) : State := { s with mgd := { s.mgd with buffer := [] } }

/-- With nothing buffered, a single submission is written at once, 18 R571. -/
theorem State.submit_single (h : s.mgd.buffer = []) : s.submit [x] = s.unbuffered.writeRec x := by
  simp [State.submit, h, insUnit, State.unbuffered, eachDo]

/-- The record of a first submission, 18 R572. -/
def freshRecord (s : State) (x : MSub) : MRec :=
  ⟨x.code, x.sev, x.flags + (if s.mgd.lost then 4 else 0), x.unit, 1, x.tai, x.angle, x.p0, x.p1, x.tenant⟩

/-- The place after the head. -/
def State.nextHead (s : State) : Nat := (s.rd MGD_STAT MGD_STAT_HEAD + 1) % 8192

/-- The registers of a first submission: the head moves on and the ring holds one record more. -/
def State.moveHead (s : State) : State :=
  (s.wr MGD_STAT MGD_STAT_HEAD s.nextHead).wr MGD_STAT MGD_STAT_COUNT (s.rd MGD_STAT MGD_STAT_COUNT + 1)

/-- The state with the record of a first submission, before the spill to DRAM. -/
def State.putFresh (s : State) (x : MSub) : State :=
  { s.moveHead with mgd := { s.mgd with
      ring := sset (fun _ => MRec.zero) s.mgd.ring s.nextHead (freshRecord s x), lost := false,
      fold := (MFold.mk s.nextHead x.mono ::
        s.mgd.fold.filter fun f => !((s.mrec f.slot).code == x.code && (s.mrec f.slot).unit == x.unit)).take 256 } }

theorem State.rd_moveHead : s.moveHead.rd MGD_STAT MGD_STAT_HEAD = s.nextHead := by
  have hlt : s.nextHead < 2 ^ 13 := Nat.mod_lt _ (by decide)
  rw [State.moveHead, (State.wr_COUNT_keepsRing _ _).head, s.rd_wr MGD_STAT MGD_STAT_HEAD _ (by decide)]
  exact Nat.mod_eq_of_lt hlt

theorem State.putFresh_regs : (s.putFresh x).regs = s.moveHead.regs := by rw [State.putFresh]

theorem State.rd_putFresh : (s.putFresh x).rd MGD_STAT MGD_STAT_HEAD = s.nextHead := by
  rw [State.rd_congr s.putFresh_regs, s.rd_moveHead]

theorem State.mrec_putFresh : (s.putFresh x).mrec s.nextHead = freshRecord s x := sget_sset_same _ _ _ _

section
variable (hfold : s.foldOf x = none) (hflash : toFlash x.sev x.code = false) (hsev : x.sev < 5)
include hfold hflash hsev

/-- A submission without a fold-table entry, below CRITICAL and not of the flash ring, puts a record and may spill. -/
theorem State.writeRec_fresh : s.writeRec x = (s.putFresh x).spill := by
  unfold State.writeRec
  simp only [hfold, hflash, Bool.false_eq_true, if_false, if_neg (show ¬5 ≤ x.sev by omega), Nat.add_zero]
  rfl

/-- It writes the record after the head. -/
theorem State.writeRec_fresh_record :
    (s.writeRec x).mrec s.nextHead = freshRecord s x ∧ (s.writeRec x).rd MGD_STAT MGD_STAT_HEAD = s.nextHead := by
  have hspill := (s.putFresh x).spill_keepsRing
  rw [s.writeRec_fresh hfold hflash hsev]
  exact ⟨(hspill.mrec _).trans s.mrec_putFresh, hspill.head.trans s.rd_putFresh⟩

end

/-- A submission that folds counts REP of the record that it repeats, 18 R572. -/
theorem State.writeRec_fold {f : MFold} (hfold : s.foldOf x = some f) (hfolds : s.folds x f = true) :
    ((s.writeRec x).mrec f.slot).rep = satAdd 16 (s.mrec f.slot).rep 1 ∧
      (s.writeRec x).rd MGD_STAT MGD_STAT_HEAD = s.rd MGD_STAT MGD_STAT_HEAD := by
  unfold State.writeRec
  extract_lets rest head flags r t _ written flashed _ asserted fresh _
  clear_value fresh
  simp only [hfold, hfolds, if_true]
  split_ifs
  · refine ⟨?_, (State.flashCopy_keepsRing _ _).head.trans (State.rd_congr rfl _ _)⟩
    rw [(State.flashCopy_keepsRing _ _).mrec, State.mrec, sget_sset_same]
  · exact ⟨by rw [State.mrec, sget_sset_same], State.rd_congr rfl _ _⟩

theorem exec_marigoldSubmit (qs : List SubReq) : exec (.marigoldSubmit qs) s =
    .next (s.submit (qs.map fun q => s.msub q.code.toNat q.sev.val q.unit.toNat q.p0.toNat q.p1.toNat q.tenant.toNat)) := rfl

end

/-- Settles O52: a single submission with nothing buffered is one record, fresh or folded. -/
theorem eventRecorder : Obligations.EventRecorder := by
  intro q qs x s
  refine ⟨exec_marigoldSubmit qs, fun hx => ?_⟩
  have hsingle (hb : s.mgd.buffer = []) : exec (.marigoldSubmit [q]) s = .next (s.unbuffered.writeRec x) := by
    rw [exec_marigoldSubmit, List.map_singleton, ← hx, s.submit_single hb]
  refine ⟨exec_marigoldSubmit [], hsingle, fun h r hb hfold hflash hsev hh hr => ?_, fun f hb hfold hfolds => ?_⟩
  · obtain ⟨hrec, hhead⟩ := State.writeRec_fresh_record (s := s.unbuffered) hfold hflash hsev
    subst hh hr
    exact ⟨_, hsingle hb, hrec, hhead⟩
  · obtain ⟨hrep, hhead⟩ := State.writeRec_fold (s := s.unbuffered) hfold hfolds
    exact ⟨_, hsingle hb, hrep, hhead⟩

end Sys2Proof.Machine

/-! PROOFS. The ageing survey, the decision of a plan, the steps of ECLK and the junction temperature (18 R560 to R569, 19 R597 and R599). -/
namespace Sys2Proof.Machine
open Reg

section
variable {s : State}

/-! The survey, 18 R562 and R566. -/

theorem State.startSurvey_busy (h : s.flag MRG_STAT MRG_STAT_BUSY = true) :
    s.startSurvey = { s with mrg := { s.mrg with due := true } } := if_pos h

theorem State.startSurvey_idle {t : State} (h : s.flag MRG_STAT MRG_STAT_BUSY = false)
    (ht : t = ((s.wr MRG_STAT MRG_STAT_BUSY 1).wr MRG_STAT MRG_STAT_CLUSTER 0).setReg MRG_LASTTAI (BitVec.ofNat 64 s.gav.tai)) :
    s.startSurvey = { t with mrg := { t.mrg with due := false, started := s.gav.mono, read := 0 } } := by
  rw [State.startSurvey, if_neg (by simp [h]), ht]

theorem exec_surveyStart_early (h : s.gav.mono < s.mrg.started + 86400000000000) : exec .surveyStart s = .next s :=
  congrArg Host.Outcome.next (if_neg (by omega))

theorem exec_surveyStart_due (h : s.mrg.started + 86400000000000 ≤ s.gav.mono) : exec .surveyStart s = .next s.startSurvey :=
  congrArg Host.Outcome.next (if_pos h)

theorem exec_now (r : Requester) (s : State) : exec (.now r) s = .next (s.plat r fun s => s.startSurvey.reply respOk []) := rfl

/-! The decision of a plan, 18 R563 and R567. -/

section
variable {c : Fin 16} {raw : Vector (BitVec 16) 64}

theorem exec_planDecide_switching (h : s.rd UPD_STAT UPD_STAT_PHASE = 5) : exec (.planDecide c raw) s = .next s :=
  congrArg Host.Outcome.next (if_pos h)

/-- The survey has read cluster `c`. -/
theorem exec_planDecide_survey {t : State} (h : s.rd UPD_STAT UPD_STAT_PHASE ≠ 5) (hbusy : s.flag MRG_STAT MRG_STAT_BUSY = true)
    (hread : s.mrg.read = c.val)
    (ht : t = (s.decidePlan c (fun k => raw.toList.getD k 0) true).wr MRG_STAT MRG_STAT_CLUSTER (min 15 (c.val + 1))) :
    exec (.planDecide c raw) s = .next { t with mrg := { t.mrg with read := c.val + 1 } } := by
  rw [ht]
  exact congrArg Host.Outcome.next ((if_neg h).trans (if_pos ⟨hbusy, hread⟩))

/-- A swap has asked for the decision again. -/
theorem exec_planDecide_again (h : s.rd UPD_STAT UPD_STAT_PHASE ≠ 5) (hsurvey : ¬(s.flag MRG_STAT MRG_STAT_BUSY = true ∧ s.mrg.read = c.val))
    (hagain : sget (fun _ => false) s.mrg.again c = true) (hphase : ¬(1 ≤ s.hoPhase c ∧ s.hoPhase c ≤ 4)) :
    exec (.planDecide c raw) s = .next (s.decidePlan c (fun k => raw.toList.getD k 0) false) :=
  congrArg Host.Outcome.next ((if_neg h).trans ((if_neg hsurvey).trans (if_pos ⟨hagain, hphase⟩)))

end

/-! What the recorder leaves of the survey. -/

theorem State.mrg_of_sansRecord {t : State} (h : t.sansRecord = s.sansRecord) : t.mrg = s.mrg := (congrArg State.mrg h :)

theorem State.setCond_sansRecord (i : Nat) (b : Bool) : (s.setCond i b).sansRecord = s.sansRecord := by
  unfold State.setCond
  extract_lets x t
  have ht : t.sansRecord = s.sansRecord := rfl
  exact State.ite_sansRecord ((t.assert_sansRecord i).trans ht) ht

theorem State.recordReg_sansRecord (i unit off : Nat) : (s.recordReg i unit off).sansRecord = s.sansRecord := s.record_sansRecord _ _ _ _ _

theorem State.project_mrg (c : Nat) : (s.project c).mrg = s.mrg := by
  unfold State.project
  extract_lets ks base g0 life x
  have hx : x.2.mrg = s.mrg := by
    dsimp only [x]
    cases life <;> rfl
  exact (x.2.wr_mrg _ _ _).trans hx

theorem State.project_reg (c : Nat) : (s.project c).reg MRG_STAT = s.reg MRG_STAT := by
  unfold State.project
  extract_lets ks base g0 life x
  have hx : x.2.regs = s.regs := by
    dsimp only [x]
    cases life <;> rfl
  have hne : MRG_STAT ≠ MRG_CLU c := by simp only [MRG_STAT, MRG_CLU]; omega
  exact (x.2.reg_wr_ne _ _ _ _ hne).trans (State.reg_congr hx _)

theorem exec_surveyComplete_early {out : Vector (BitVec 16) 128} (h : ¬(s.flag MRG_STAT MRG_STAT_BUSY = true ∧ s.mrg.read = 16)) :
    exec (.surveyComplete out) s = .next s :=
  congrArg Host.Outcome.next (if_neg h)

/-- The survey with the delays `d` of the sensors outside the clusters read. -/
def State.readOuter (s : State) (d : Nat → Nat) : State :=
  { s.wr MRG_STAT MRG_STAT_BUSY 0 with mrg := { s.mrg with
      delay := (List.range 128).foldl (fun m k => sset (fun _ => 0) m (1024 + k) (d k)) s.mrg.delay } }

/-- Source 937 follows those sensors: `low` when one of them is below its guard, and `was` its condition so far. -/
def State.warnOuter (t : State) (was low : Bool) : State :=
  if low && !was then (t.setCond 937 true).recordReg 937 (unitMargin 0) MRG_STAT else t.setCond 937 low

/-- The end of a survey, before the one that fell due meanwhile. -/
def State.surveyEnd (s : State) (d : Nat → Nat) (low : Bool) : State :=
  (eachDo (List.range 16) (fun c t => t.project c) ((s.readOuter d).warnOuter (s.src 937).cond low)).assert 936

theorem exec_surveyComplete_ends {out : Vector (BitVec 16) 128} (h : s.flag MRG_STAT MRG_STAT_BUSY = true ∧ s.mrg.read = 16) :
    ∃ d low, ∀ u, u = s.surveyEnd d low → exec (.surveyComplete out) s = .next (if u.mrg.due then u.startSurvey else u) := by
  refine ⟨fun k => Config.sensorDelay (1024 + k) (out.toList.getD k 0) 750 % 2 ^ 16,
    (List.range 128).any fun k => Config.belowGuard (1024 + k) (Config.sensorDelay (1024 + k) (out.toList.getD k 0) 750 % 2 ^ 16), fun u hu => ?_⟩
  refine congrArg Host.Outcome.next ((if_pos h).trans ?_)
  extract_lets d low _ _ read warned ended
  have hended : ended = u := hu.symm
  rw [hended]

section
variable (d : Nat → Nat) (low : Bool)

theorem State.readOuter_regs : (s.readOuter d).regs = (s.wr MRG_STAT MRG_STAT_BUSY 0).regs := by
  rw [State.readOuter]

theorem State.warnOuter_sansRecord (was : Bool) : (s.warnOuter was low).sansRecord = s.sansRecord :=
  State.ite_sansRecord ((State.recordReg_sansRecord _ _ _).trans (State.setCond_sansRecord _ _)) (State.setCond_sansRecord _ _)

/-- The end of a survey keeps in mind the one that fell due meanwhile. -/
theorem State.surveyEnd_due : (s.surveyEnd d low).mrg.due = s.mrg.due := by
  have hprojects := eachDo_invariant State.mrg (fun c t => t.project_mrg c) (List.range 16)
  rw [State.surveyEnd, State.mrg_of_sansRecord (State.assert_sansRecord _ 936), hprojects, State.mrg_of_sansRecord (State.warnOuter_sansRecord _ _),
    State.readOuter]

/-- The end of a survey clears BUSY. -/
theorem State.surveyEnd_idle : (s.surveyEnd d low).rd MRG_STAT MRG_STAT_BUSY = 0 := by
  have hrecorder : MRG_STAT ∉ recorderRegs := by decide
  have hprojects := eachDo_invariant (State.reg · MRG_STAT) (fun c t => t.project_reg c) (List.range 16)
  have hclear : (s.surveyEnd d low).reg MRG_STAT = (s.wr MRG_STAT MRG_STAT_BUSY 0).reg MRG_STAT := by
    rw [State.surveyEnd, State.reg_of_sansRecord (State.assert_sansRecord _ 936) hrecorder, hprojects,
      State.reg_of_sansRecord (State.warnOuter_sansRecord _ _) hrecorder, State.reg_congr (s.readOuter_regs d)]
  have hrd := s.rd_wr MRG_STAT MRG_STAT_BUSY 0 (by decide)
  rw [State.rd] at hrd ⊢
  rw [hclear, hrd]
  exact Nat.zero_mod _

end

/-! Steps of ECLK, 18 R565. -/

section
variable {c : Fin 16} {u t : State} (hu : u = s.passTo (sget (fun _ => 0) s.mrg.stepAt c))
include hu

/-- A rail write that failed holds the plan, 19 R597. -/
theorem exec_eclkStep_nak (ht : t = { u with mrg := { u.mrg with avsFail := sset (fun _ => false) u.mrg.avsFail c true } }) :
    exec (.eclkStep c true) s = .next (((t.wr (MRG_CFL c) MRG_CFL_HELD 1).assert 684).recordReg 684 (unitMargin c) (MRG_CLU c)) := by
  rw [ht, hu]
  rfl

/-- A step with no plan held and nothing that holds it. -/
theorem exec_eclkStep_moves (hheld : sget (fun _ => none) u.mrg.held c = none) (havs : sget (fun _ => false) u.mrg.avsFail c = false)
    (hplan : u.planHeld c = false) (hhot : u.mrg.hot = false)
    (ht : t = { u with mrg := { u.mrg with eclk := sset (fun _ => 1500) u.mrg.eclk c (stepTo (u.eclkNow c) (u.rd (MRG_CLU c) MRG_CLU_ECLK)), stepAt := sset (fun _ => 0) u.mrg.stepAt c (u.gav.mono + 10000) } }) :
    exec (.eclkStep c false) s = .next (t.setDomain (c / 4)) := by
  show execEclkStep c false s = _
  unfold execEclkStep
  rw [ht, ← hu]
  simp [hheld, havs, hplan, hhot]

end

/-! Junction temperature, 19 R599. -/

theorem exec_tjAlert_again (h : (s.src 683).cond = true) : exec .tjAlert s = .next s := congrArg Host.Outcome.next (if_pos h)

theorem exec_tjAlert_first (h : (s.src 683).cond = false) :
    exec .tjAlert s = .next ((s.setCond 683 true).recordReg 683 unitSteward MRG_STAT) :=
  congrArg Host.Outcome.next (if_neg (by simp [h]))

theorem MRG_CFL_ne {m n : Nat} (h : m ≠ n) : MRG_CFL m ≠ MRG_CFL n := by simp only [MRG_CFL]; omega

/-- Every plan is held. -/
def State.holdPlans (s : State) : State := eachDo (List.range 16) (fun c t => t.wr (MRG_CFL c) MRG_CFL_HELD 1) s

theorem State.holdPlans_mrg : s.holdPlans.mrg = s.mrg := eachDo_invariant State.mrg (fun _ t => t.wr_mrg _ _ _) _ s

/-- A loop that sets HELD of some clusters leaves it set where it was, and sets theirs. -/
theorem held_eachDo (cs : List Nat) (s : State) (n : Nat) (h : n ∈ cs ∨ s.rd (MRG_CFL n) MRG_CFL_HELD = 1) :
    (eachDo cs (fun c t => t.wr (MRG_CFL c) MRG_CFL_HELD 1) s).rd (MRG_CFL n) MRG_CFL_HELD = 1 := by
  induction cs generalizing s with
  | nil => simpa [eachDo] using h
  | cons c cs ih =>
    refine ih _ ?_
    by_cases hn : n = c
    · exact .inr (hn ▸ s.rd_wr (MRG_CFL n) MRG_CFL_HELD 1 (by decide))
    · rw [s.rd_wr_off _ _ _ _ _ (MRG_CFL_ne hn)]
      simpa [hn] using h

theorem State.holdPlans_held {n : Nat} (h : n < 16) : s.holdPlans.rd (MRG_CFL n) MRG_CFL_HELD = 1 :=
  held_eachDo _ s n (.inl (List.mem_range.2 h))

/-- The junction is above its throttle point, or below it again. -/
def State.setHot (s : State) (b : Bool) : State := { s with mrg := { s.mrg with hot := b } }

theorem State.setHot_ic (b : Bool) : (s.setHot b).ic = s.ic := by rw [State.setHot]

/-- Conditions 683 and 685 hold, each recorded as it starts. -/
def State.alertHot (s : State) : State :=
  let t := if (s.src 683).cond then s else (s.setCond 683 true).recordReg 683 unitSteward MRG_STAT
  if (t.src 685).cond then t else (t.setCond 685 true).recordReg 685 unitSteward MRG_STAT

theorem exec_tjThrottle (s : State) : exec .tjThrottle s = .next ((s.alertHot.setHot true).holdPlans) := rfl

/-- Plans that nothing else holds are free. -/
def State.freePlans (s : State) : State :=
  eachDo (List.range 16) (fun c t =>
    if (sget (fun _ => none) t.mrg.held c).isNone && !sget (fun _ => false) t.mrg.avsFail c then t.wr (MRG_CFL c) MRG_CFL_HELD 0 else t) s

theorem exec_tjCool (s : State) : exec .tjCool s = .next ((((s.setCond 683 false).setCond 685 false).setHot false).freePlans) := rfl

theorem State.freePlans_mrg : s.freePlans.mrg = s.mrg :=
  eachDo_invariant State.mrg (fun _ t => by split_ifs <;> simp) _ s

theorem State.freePlans_ic : s.freePlans.ic = s.ic :=
  eachDo_invariant State.ic (fun _ t => by split_ifs <;> simp) _ s

/-- A condition that ends asserts nothing. -/
theorem State.setCond_false (i : Nat) : s.setCond i false = s.setSrc i { s.src i with cond := false } := rfl

theorem State.cond_setCond_false (i : Nat) : ((s.setCond i false).src i).cond = false := by rw [s.setCond_false, State.src_setSrc]

theorem State.cond_setCond_ne {i k : Nat} (h : k ≠ i) : ((s.setCond i false).src k).cond = (s.src k).cond := by
  rw [s.setCond_false, s.src_setSrc_ne _ h]

end

/-- Settles O51: each event by the branch of its command. -/
theorem marginsAndTemperature : Obligations.MarginsAndTemperature := by
  intro c r raw out s busy updating
  refine ⟨exec_surveyStart_early, fun hdue hbusy => ?_, fun t hdue hbusy ht => ?_, fun hr => ?_, fun hr => ?_, exec_planDecide_switching,
    fun t hupd hbusy hread ht => exec_planDecide_survey hupd hbusy hread ht, fun hupd hsurvey hagain hphase => ?_, fun hbusy hread => ?_, fun h => ?_,
    fun u t hu ht => exec_eclkStep_nak hu ht, fun u t hu hheld havs hplan hhot ht => exec_eclkStep_moves hu hheld havs hplan hhot ht,
    exec_tjAlert_again, exec_tjAlert_first, ⟨_, exec_tjThrottle s, ?_, fun n hn => State.holdPlans_held hn⟩, ⟨_, exec_tjCool s, ?_, ?_, ?_⟩, rfl⟩
  · rw [exec_surveyStart_due hdue, s.startSurvey_busy hbusy]
  · rw [exec_surveyStart_due hdue, s.startSurvey_idle hbusy ht]
  · rw [exec_now, State.plat_ok _ hr]
  · rw [exec_now, State.plat_refused _ hr]
  · refine exec_planDecide_again hupd ?_ hagain ?_
    · rintro ⟨hbusy, hread⟩
      exact hsurvey.elim (fun h => by simp [show busy = true from hbusy] at h) (· hread)
    · omega
  · obtain ⟨d, low, hends⟩ := exec_surveyComplete_ends (out := out) ⟨hbusy, hread⟩
    refine ⟨_, hends _ rfl, fun hdue => ?_⟩
    rw [if_neg (by simp [s.surveyEnd_due, hdue]), s.surveyEnd_idle]
  · refine exec_surveyComplete_early ?_
    rintro ⟨hbusy, hread⟩
    exact h.elim (fun h => by simp [show busy = true from hbusy] at h) (· hread)
  · rw [State.holdPlans_mrg, State.setHot]
  · rw [State.freePlans_mrg, State.setHot]
  · rw [State.src_congr State.freePlans_ic, State.src_congr (State.setHot_ic _), State.cond_setCond_ne (by decide), State.cond_setCond_false]
  · rw [State.src_congr State.freePlans_ic, State.src_congr (State.setHot_ic _), State.cond_setCond_false]

end Sys2Proof.Machine

/-! PROOFS. The commands of the update controller and the ends of its steps (17 R548 to R556). -/
namespace Sys2Proof.Machine
open Reg

section
variable {s : State} {r : Requester}

/-! PREPARE, 17 R548. -/

theorem exec_prepare (r : Requester) (v : BitVec 16) (s : State) : exec (.prepare r v) s = .next (s.plat r fun s => s.updPrepare v.toNat) := rfl

theorem State.updPrepare_accepts {v : Nat} (hv : v = s.runVer ∨ v = s.runVer + 1) (hmode : s.flag UPD_STAT UPD_STAT_MODE = false)
    (h1 : s.rd UPD_STAT UPD_STAT_PHASE ≠ 1) (h5 : s.rd UPD_STAT UPD_STAT_PHASE ≠ 5) : s.updPrepare v =
      (((s.wr UPD_STAT UPD_STAT_NEXTVER v).wr UPD_STAT UPD_STAT_RESULT 0).updPhase 1).reply respOk [] := by
  refine if_neg ?_
  rintro (⟨hne, hne'⟩ | hm | hp | hp)
  · exact hv.elim hne hne'
  · simp [hmode] at hm
  · exact h1 hp
  · exact h5 hp

theorem State.updPrepare_other_version {v : Nat} (h : v ≠ s.runVer) (h' : v ≠ s.runVer + 1) : s.updPrepare v = s.reply errTarget [] :=
  if_pos (.inl ⟨h, h'⟩)

/-! START, 17 R549 and 16 R530. -/

theorem exec_start (r : Requester) (s : State) : exec (.start r) s = .next (s.plat r State.updStart) := rfl

theorem State.updStart_secmode (h : s.rd UPD_BOOT UPD_BOOT_SECMODE = 1) : s.updStart = s.reply errPerm [] := if_pos h

theorem State.updStart_notReady (h : s.rd UPD_BOOT UPD_BOOT_SECMODE ≠ 1) (hphase : s.rd UPD_STAT UPD_STAT_PHASE ≠ 2) :
    s.updStart = s.reply errTarget [] :=
  (if_neg h).trans (if_pos (.inl hphase))

theorem State.updStart_starts (h : s.rd UPD_BOOT UPD_BOOT_SECMODE ≠ 1) (hphase : s.rd UPD_STAT UPD_STAT_PHASE = 2)
    (hconfig : s.flag BSL_STAT BSL_STAT_CONFIG = false) (hfit : s.versionsFit (s.rd UPD_STAT UPD_STAT_NEXTVER) = true) :
    s.updStart = (((s.wr UPD_STAT UPD_STAT_MODE 1).wr UPD_STAT UPD_STAT_SKIPMASK 0).updTurn 16).reply respOk [] := by
  refine (if_neg h).trans (if_neg ?_)
  rintro (hp | hc | hv)
  · exact hp hphase
  · simp [hconfig] at hc
  · simp [hfit] at hv

/-! STOP (log entry 66). -/

theorem exec_stop (r : Requester) (s : State) : exec (.stop r) s = .next (s.plat r State.updStopCmd) := rfl

theorem State.updStopCmd_switching (h : s.rd UPD_STAT UPD_STAT_PHASE = 5) : s.updStopCmd = s.reply errTarget [] := if_pos h

theorem State.updStopCmd_stops (h1 : 1 ≤ s.rd UPD_STAT UPD_STAT_PHASE) (h3 : s.rd UPD_STAT UPD_STAT_PHASE ≤ 3) :
    s.updStopCmd = (s.updStop 5).reply respOk [] :=
  (if_neg (by omega)).trans ((if_neg (by omega)).trans (if_pos ⟨h1, h3⟩))

theorem State.updStopCmd_idle (h : s.rd UPD_STAT UPD_STAT_PHASE = 0 ∨ s.rd UPD_STAT UPD_STAT_PHASE = 6 ∨ s.rd UPD_STAT UPD_STAT_PHASE = 7) :
    s.updStopCmd = s.reply respOk [] :=
  (if_neg (by omega)).trans ((if_neg (by omega)).trans (if_neg (by omega)))

/-! RAISE_MIN, 17 R554. -/

theorem exec_raiseMin (r : Requester) (s : State) : exec (.raiseMin r) s = .next (s.plat r State.updRaise) := rfl

theorem State.updRaise_updating (h : s.flag UPD_STAT UPD_STAT_MODE = true) : s.updRaise = s.reply errTarget [] := if_pos (.inl h)

/-- Where no update runs, every engine runs the version and a fuse row is free, the minimums rise to what runs. -/
theorem State.updRaise_raises {here : List Nat} {t : State} (hmode : s.flag UPD_STAT UPD_STAT_MODE = false)
    (hhere : here = (List.range 208).filter fun e => s.role e == 0 || s.role e == 1)
    (hver : ∀ e ∈ here, s.rd (UPD_ENGVER e) UPD_ENGVER_VERSION = s.runVer) (hrows : ∀ n ∈ s.boot.fuses.rows, n < 16)
    (ht : t = { s with boot := { s.boot with fuses := { s.boot.fuses with rows := s.boot.fuses.rows.map (· + 1) } } }) :
    s.updRaise = ((((t.wr UPD_MIN UPD_MIN_FWMIN s.runVer).wr UPD_MIN UPD_MIN_PATCHMIN
      (s.rd (ENG_UC_STAT (here.headD 0)) ENG_UC_STAT_PATCH_LEVEL)).setReg UPD_SEQMIN (s.reg BSL_SEQ)).showRows).reply respOk [] := by
  have hany : (here.any fun e => s.rd (UPD_ENGVER e) UPD_ENGVER_VERSION != s.runVer) = false := by
    simpa using hver
  have hfull : (s.boot.fuses.rows.any fun n => decide (16 ≤ n)) = false := by
    simpa using hrows
  rw [hhere] at hany
  rw [State.updRaise, if_neg (by simp [hmode, hany, hfull]), ht, hhere]

/-! REVOKE and its end, 17 R555. -/

theorem exec_revoke (r : Requester) (k : Fin 4) (s : State) : exec (.revoke r k) s = .next (s.plat r fun s => s.updRevoke k.val) := rfl

theorem State.updRevoke_begins (k : Nat)
    (h : s.rd UPD_STAT UPD_STAT_PHASE = 0 ∨ s.rd UPD_STAT UPD_STAT_PHASE = 6 ∨ s.rd UPD_STAT UPD_STAT_PHASE = 7)
    (hstate : s.rd UPD_REVSTAT UPD_REVSTAT_STATE ≠ 1) : s.updRevoke k =
      ((({ s with upd := { s.upd with revoking := some k } } : State).wr UPD_REVSTAT UPD_REVSTAT_STATE 1).wr UPD_REVSTAT
        UPD_REVSTAT_CODE 0).reply respOk [] :=
  if_neg fun hn => hn.elim (by omega) hstate

theorem State.updRevoke_updating (k : Nat) (h : 1 ≤ s.rd UPD_STAT UPD_STAT_PHASE ∧ s.rd UPD_STAT UPD_STAT_PHASE ≤ 5) :
    s.updRevoke k = s.reply errTarget [] :=
  if_pos (.inl (by omega))

theorem exec_revokeDone (s : State) : exec .revokeDone s = .next s.revokeDone := rfl

theorem State.revokeDone_none (h : s.upd.revoking = none) : s.revokeDone = s := by rw [State.revokeDone, h]

section
variable {n : Nat} {x : List Byte × State} {t : State} (h : s.upd.revoking = some n)
    (hx : x = s.readBytes true (s.rd UPD_REVSRC UPD_REVSRC_PA) 256 0) (ht : t = { x.2 with upd := { x.2.upd with revoking := none } })
include h hx ht

theorem State.revokeDone_passes (hc : s.revokeCheck n x.1 = 0) : s.revokeDone =
    (t.wr ID_FUSE ID_FUSE_REVOKED (setBits (t.rd ID_FUSE ID_FUSE_REVOKED) n 1 1)).wr UPD_REVSTAT UPD_REVSTAT_STATE 2 := by
  simp only [State.revokeDone, h, ← hx, hc, if_true, ht]

theorem State.revokeDone_fails {c : Nat} (hc : c = s.revokeCheck n x.1) (hne : c ≠ 0) : s.revokeDone =
    ((t.wr UPD_REVSTAT UPD_REVSTAT_STATE 3).wr UPD_REVSTAT UPD_REVSTAT_CODE c).updErr UPD_ERR_REVOKE := by
  simp only [State.revokeDone, h, ← hx, ← hc, if_neg hne, ht]

end

/-! The Steward's switch, 17 R551. -/

theorem exec_stewardFirmwareSwitch_elsewhere (h : s.rd UPD_STAT UPD_STAT_PHASE ≠ 5) : exec .stewardFirmwareSwitch s = .next s :=
  congrArg Host.Outcome.next (if_pos h)

theorem exec_stewardFirmwareSwitch_switches (h : s.rd UPD_STAT UPD_STAT_PHASE = 5) (hslots : s.upd.slots = []) : exec .stewardFirmwareSwitch s =
    .next (((s.wr UPD_STAT UPD_STAT_RUNVER (s.rd UPD_STAT UPD_STAT_NEXTVER)).wr UPD_STAT UPD_STAT_MODE 0).updPhase 6) := by
  refine congrArg Host.Outcome.next ((if_neg (by simp [h])).trans ?_)
  rw [hslots]
  rfl

/-! The end of the load of a spare, 17 R549. -/

section
variable {e : Nat} {u : State} (he : s.fitSpare (s.rd UPD_STAT UPD_STAT_CLUSTER) = some e) (hrole : s.role e = 7)
    (hu : u = (s.loadStore e).wr (UPD_ENGVER e) UPD_ENGVER_VERSION (s.rd UPD_STAT UPD_STAT_NEXTVER))
include he hrole hu

theorem exec_spareLoadDone_unfit (f : BitVec 24) (hf : f.toNat ≠ 2 ^ 24 - 1) :
    exec (.spareLoadDone f) s = .next (((u.selfTest e f).setRole e 1).retireEngine e 3) := by
  show execSpareLoadDone f s = _
  simp only [execSpareLoadDone, he, hrole, ← hu, if_pos hf, ne_eq, not_true_eq_false, if_false]

theorem exec_spareLoadDone_fit {w : State} (hw : w = (u.selfTest e 0xFFFFFF).setRole e 1) (hmode : w.flag UPD_STAT UPD_STAT_MODE = false) :
    exec (.spareLoadDone 0xFFFFFF) s = .next w := by
  have hall : (0xFFFFFF : BitVec 24).toNat = 2 ^ 24 - 1 := rfl
  show execSpareLoadDone 0xFFFFFF s = _
  simp only [execSpareLoadDone, he, hrole, ← hu, ne_eq, not_true_eq_false, if_false, ← hw, hmode, Bool.false_eq_true, false_and, hall]

end

end

end Sys2Proof.Machine

/-! PROOFS. The end of the update's preparation (17 R548). -/
namespace Sys2Proof.Machine
open Reg

section
variable {s : State}

/-! A change of PHASE: source 914 and a record leave the register as it is then. -/

theorem State.updPhase_stays {p : Nat} (h : s.rd UPD_STAT UPD_STAT_PHASE = p) : s.updPhase p = s := if_pos h

theorem State.updPhase_sansRecord {p : Nat} (h : s.rd UPD_STAT UPD_STAT_PHASE ≠ p) :
    (s.updPhase p).sansRecord = (s.wr UPD_STAT UPD_STAT_PHASE p).sansRecord := by
  rw [State.updPhase, if_neg h]
  exact (State.recordReg_sansRecord _ _ _).trans (State.assert_sansRecord _ 914)

theorem State.upd_of_sansRecord {t : State} (h : t.sansRecord = s.sansRecord) : t.upd = s.upd := (congrArg State.upd h :)

theorem State.rd_of_sansRecord {t : State} (h : t.sansRecord = s.sansRecord) {off : Nat} (hoff : off ∉ recorderRegs) (f : Fld) :
    t.rd off f = s.rd off f := by
  rw [State.rd, State.rd, State.reg_of_sansRecord h hoff]

theorem UPD_STAT_not_recorder : UPD_STAT ∉ recorderRegs := by decide

theorem State.updPhase_upd (p : Nat) : (s.updPhase p).upd = s.upd := by
  by_cases h : s.rd UPD_STAT UPD_STAT_PHASE = p
  · rw [State.updPhase_stays h]
  · exact (State.upd_of_sansRecord (State.updPhase_sansRecord h)).trans (s.wr_upd _ _ _)

theorem State.rd_updPhase {p : Nat} (hp : p < 8) : (s.updPhase p).rd UPD_STAT UPD_STAT_PHASE = p := by
  by_cases h : s.rd UPD_STAT UPD_STAT_PHASE = p
  · rw [State.updPhase_stays h, h]
  · rw [State.rd_of_sansRecord (State.updPhase_sansRecord h) UPD_STAT_not_recorder, s.rd_wr _ _ _ (by decide)]
    exact Nat.mod_eq_of_lt hp

theorem State.rd_RESULT_updPhase (p : Nat) : (s.updPhase p).rd UPD_STAT UPD_STAT_RESULT = s.rd UPD_STAT UPD_STAT_RESULT := by
  by_cases h : s.rd UPD_STAT UPD_STAT_PHASE = p
  · rw [State.updPhase_stays h]
  · rw [State.rd_of_sansRecord (State.updPhase_sansRecord h) UPD_STAT_not_recorder]
    exact s.rd_wr_ne _ _ _ _ (by decide) (by decide)

/-! Drailo in the firmware area, 17 R536. -/

theorem State.upd_of_rest {t : State} (h : t.rest = s.rest) : t.upd = s.upd := (congrArg State.upd h :)

theorem State.placeDrailo_upd (pl : List Byte) (ver : Nat) : (s.placeDrailo pl ver).upd = s.upd :=
  eachDo_invariant State.upd (fun _ t => State.upd_of_rest (t.cohPartial_rest _ _ _ _ _)) _ s

/-! PREPARE_DONE, 17 R548. -/

theorem exec_prepareDone (s : State) : exec .prepareDone s = .next s.prepareDone := rfl

theorem State.prepareDone_elsewhere (h : s.rd UPD_STAT UPD_STAT_PHASE ≠ 1) : s.prepareDone = s := if_pos h

/-- The state in which a preparation ends READY with `u`, Drailo of payload `pl` and version `v` in place. -/
def State.updReady (s : State) (u : Upd) (pl : List Byte) (v : Nat) : State :=
  ((({ s with upd := u } : State).placeDrailo pl v).wr UPD_STAT UPD_STAT_RESULT 0).updPhase 2

theorem State.updReady_upd (u : Upd) (pl : List Byte) (v : Nat) : (s.updReady u pl v).upd = u :=
  State.updPhase_upd 2 |>.trans ((State.wr_upd _ _ _ _).trans (State.placeDrailo_upd pl v))

theorem State.rd_PHASE_updReady (u : Upd) (pl : List Byte) (v : Nat) : (s.updReady u pl v).rd UPD_STAT UPD_STAT_PHASE = 2 :=
  State.rd_updPhase (by decide)

theorem State.rd_RESULT_updReady (u : Upd) (pl : List Byte) (v : Nat) : (s.updReady u pl v).rd UPD_STAT UPD_STAT_RESULT = 0 := by
  rw [State.updReady, State.rd_RESULT_updPhase, State.rd_wr _ _ _ _ (by decide)]
  exact Nat.zero_mod _

section
variable (h : s.rd UPD_STAT UPD_STAT_PHASE = 1)
include h

theorem State.prepareDone_without_firmware (hf : s.setSlot 1 = none) : s.prepareDone = s.updStop 1 := by
  rw [State.prepareDone, if_neg (by simp [h]), hf]

theorem State.prepareDone_without_patch {f : DirEnt} (hf : s.setSlot 1 = some f) (hp : s.setSlot 2 = none) : s.prepareDone = s.updStop 1 := by
  rw [State.prepareDone, if_neg (by simp [h]), hf, hp]

theorem State.prepareDone_without_bitstream {f p : DirEnt} (hf : s.setSlot 1 = some f) (hp : s.setSlot 2 = some p) (hb : s.setSlot 3 = none) :
    s.prepareDone = s.updStop 1 := by
  rw [State.prepareDone, if_neg (by simp [h]), hf, hp, hb]

section
variable {f p b : DirEnt} (hf : s.setSlot 1 = some f) (hp : s.setSlot 2 = some p) (hb : s.setSlot 3 = some b)
include hf hp hb

theorem State.prepareDone_bad_bitstream {e : Reject} (hx : s.checkBytes (s.imageIn b) (2 ^ 25) false = .error e) : s.prepareDone = s.updStop 1 := by
  rw [State.prepareDone, if_neg (by simp [h]), hf, hp, hb]
  dsimp only
  rw [hx]

section
variable {x : PStream} (hx : s.checkBytes (s.imageIn b) (2 ^ 25) false = .ok x)
include hx

/-- With all three images and a bitstream that parses, the first check that fails names the RESULT. -/
theorem State.prepareDone_checked : s.prepareDone = s.updStop 1 ∨ s.prepareDone = s.updStop 2 ∨ s.prepareDone = s.updStop 3 ∨
    (s.imageCheck 1 (s.imageIn f) = 0 ∧ s.imageCheck 2 (s.imageIn p) = 0 ∧ leAt (s.imageIn f) 20 2 = s.rd UPD_STAT UPD_STAT_NEXTVER ∧
      x.delta = false ∧ x.seq = (s.reg BSL_SEQ).toNat ∧
      ∃ u pl v, s.prepareDone = s.updReady u pl v ∧ u.slots = [f.slot, p.slot, b.slot]) := by
  rw [State.prepareDone, if_neg (by simp [h]), hf, hp, hb]
  dsimp only
  rw [hx]
  dsimp only
  split_ifs with himage hver hstream
  · exact .inl rfl
  · exact .inr (.inl rfl)
  · exact .inr (.inr (.inl rfl))
  · simp only [ne_eq, not_or, not_not] at himage hver hstream
    obtain ⟨hfw, hpatch⟩ := himage
    obtain ⟨hdelta, hseq, -⟩ := hstream
    exact .inr (.inr (.inr ⟨hfw, hpatch, hver, by simpa using hdelta, hseq, _, _, _, rfl, rfl⟩))

end

end

/-- The preparation ends READY with the three slots, or STOPPED with the RESULT of what failed. -/
theorem State.prepareDone_ends : ∃ t : State, s.prepareDone = t ∧ (t = s.updStop 1 ∨ t = s.updStop 2 ∨ t = s.updStop 3 ∨
    ∃ f p b x, s.setSlot 1 = some f ∧ s.setSlot 2 = some p ∧ s.setSlot 3 = some b ∧ s.checkBytes (s.imageIn b) (2 ^ 25) false = .ok x ∧
      s.imageCheck 1 (s.imageIn f) = 0 ∧ s.imageCheck 2 (s.imageIn p) = 0 ∧ leAt (s.imageIn f) 20 2 = s.rd UPD_STAT UPD_STAT_NEXTVER ∧
      x.delta = false ∧ x.seq = (s.reg BSL_SEQ).toNat ∧ t.upd.slots = [f.slot, p.slot, b.slot] ∧
      t.rd UPD_STAT UPD_STAT_PHASE = 2 ∧ t.rd UPD_STAT UPD_STAT_RESULT = 0) := by
  refine ⟨_, rfl, ?_⟩
  cases hf : s.setSlot 1 with
  | none => exact .inl (s.prepareDone_without_firmware h hf)
  | some f =>
    cases hp : s.setSlot 2 with
    | none => exact .inl (s.prepareDone_without_patch h hf hp)
    | some p =>
      cases hb : s.setSlot 3 with
      | none => exact .inl (s.prepareDone_without_bitstream h hf hp hb)
      | some b =>
        cases hx : s.checkBytes (s.imageIn b) (2 ^ 25) false with
        | error e => exact .inl (s.prepareDone_bad_bitstream h hf hp hb hx)
        | ok x =>
          obtain h1 | h2 | h3 | ⟨hfw, hpatch, hver, hdelta, hseq, u, pl, v, hu, hslots⟩ := s.prepareDone_checked h hf hp hb hx
          · exact .inl h1
          · exact .inr (.inl h2)
          · exact .inr (.inr (.inl h3))
          · rw [hu]
            exact .inr (.inr (.inr ⟨f, p, b, x, rfl, rfl, rfl, hx, hfw, hpatch, hver, hdelta, hseq, by rw [State.updReady_upd, hslots],
              s.rd_PHASE_updReady u pl v, s.rd_RESULT_updReady u pl v⟩))

end

end

/-- Settles O50: each command by what stands in its way, each end of a step by its outcome. -/
theorem updateController : Obligations.UpdateController := by
  intro r v k s phase mode
  refine ⟨fun hr => ?_, fun hr => ?_, fun h => ?_, fun h hf => ?_, fun h => ?_, fun h => ?_, fun n x t c hn hx hc ht => ⟨fun h0 => ?_, fun hne => ?_⟩,
    exec_stewardFirmwareSwitch_switches, exec_stewardFirmwareSwitch_elsewhere,
    fun e u he hrole hu => ⟨exec_spareLoadDone_unfit he hrole hu, fun w hw hmode => exec_spareLoadDone_fit he hrole hu hw hmode⟩⟩
  · simp only [exec_prepare, exec_start, exec_stop, exec_raiseMin, exec_revoke, State.plat_refused _ hr, and_self]
  · simp only [exec_prepare, exec_start, exec_stop, exec_raiseMin, exec_revoke, State.plat_ok _ hr]
    refine ⟨fun hv hmode h1 h5 => ?_, fun hv hv' => ?_, fun h => ?_, fun h hp => ?_, fun h hp hconfig hfit => ?_, fun h => ?_, fun h1 h3 => ?_,
      fun h => ?_, fun h => ?_, fun here t hmode hhere hver hrows ht => ?_, fun h hstate => ?_, fun h => ?_⟩
    · rw [s.updPrepare_accepts hv hmode h1 h5]
    · rw [s.updPrepare_other_version hv hv']
    · rw [s.updStart_secmode h]
    · rw [s.updStart_notReady h hp]
    · rw [s.updStart_starts h hp hconfig hfit]
    · rw [s.updStopCmd_switching h]
    · rw [s.updStopCmd_stops h1 h3]
    · rw [s.updStopCmd_idle h]
    · rw [s.updRaise_updating h]
    · rw [s.updRaise_raises hmode hhere hver hrows ht]
    · rw [s.updRevoke_begins k.val h hstate]
    · rw [s.updRevoke_updating k.val h]
  · rw [exec_prepareDone, s.prepareDone_elsewhere h]
  · rw [exec_prepareDone, s.prepareDone_without_firmware h hf]
  · obtain ⟨t, ht, hends⟩ := s.prepareDone_ends h
    exact ⟨t, (exec_prepareDone s).trans (congrArg Host.Outcome.next ht), hends⟩
  · rw [exec_revokeDone, s.revokeDone_none h]
  · rw [exec_revokeDone, s.revokeDone_passes hn hx ht (hc ▸ h0)]
  · rw [exec_revokeDone, s.revokeDone_fails hn hx ht hc hne]

end Sys2Proof.Machine

/-! PROOFS. Power-on, start-up and the requests of the service port (17 R534 to R545). -/
namespace Sys2Proof.Machine
open Reg

section
variable {s : State}

/-! Start-up, 17 R536 and R543. -/

/-- Without a firmware image that passes its checks the part stays in RECOVERY. -/
theorem State.boot2_recovery {u : State} (hu : u = s.wr UPD_BOOT UPD_BOOT_STEP 2)
    (hpick : (u.pickImage 1 fun img => u.imageCheck 1 img == 0).1 = none) :
    s.boot2 = (u.pickImage 1 fun img => u.imageCheck 1 img == 0).2.wr UPD_BOOT UPD_BOOT_STATE 2 := by
  rw [State.boot2]
  simp only [← hu, hpick]

/-! A request is performed once, 17 R545. -/

section
variable {seq : Nat} {f : State → State}

theorem State.svcOnce_inReset (h : s.boot.inReset = true) : s.svcOnce seq f = s := if_pos h

theorem State.svcOnce_repeated {r : SvcReply} (h : s.boot.inReset = false) (hr : (s.boot.replies.find? fun r => r.seq == seq) = some r) :
    s.svcOnce seq f = s.emit (.svc r) := by
  rw [State.svcOnce, if_neg (by simp [h]), hr]

theorem State.svcOnce_first (h : s.boot.inReset = false) (hr : (s.boot.replies.find? fun r => r.seq == seq) = none) :
    s.svcOnce seq f = f s := by
  rw [State.svcOnce, if_neg (by simp [h]), hr]

end

/-! What each request does when it is performed. -/

/-- OPEN, within its order of refusals. -/
def State.svcOpen (s : State) (q kind len : Nat) : State :=
  let early := match s.boot.upAt with | some a => decide (s.gav.mono < a + 10 ^ 10) | none => false
  if s.boot.session.isSome then s.svcReply 2 svcBusy q []
  else if kind = 0 ∨ 3 < kind then s.svcReply 2 svcBadOp q []
  else if early || decide (len > 2 ^ 25) || (match s.freeSlot kind with | some e => decide (e.size < len) | none => true) then
    s.svcReply 2 svcNoSlot q []
  else ({ s with boot := { s.boot with session := some (kind, len), image := [] } } : State).svcReply 2 svcOk q []

/-- DATA. -/
def State.svcData (s : State) (q off : Nat) (data : List Byte) : State :=
  match s.boot.session with
  | none => s.svcReply 3 svcNotOpen q []
  | some (_, len) =>
    if off + data.length > len then s.svcReply 3 svcBadOffset q []
    else
      let img := data.zipIdx.foldl (fun m p => sset (fun _ => (0 : Byte)) m (off + p.2) p.1) s.boot.image
      ({ s with boot := { s.boot with image := img } } : State).svcReply 3 svcOk q []

/-- CLOSE. -/
def State.svcClose (s : State) (q : Nat) : State :=
  match s.boot.session with
  | none => s.svcReply 4 svcNotOpen q []
  | some (kind, len) =>
    let img := (List.range len).map fun i => sget (fun _ => (0 : Byte)) s.boot.image i
    let v := s.svcVerdict kind img
    let slot := ((s.freeSlot kind).map (·.slot)).getD 0
    let t : State := { s with boot := { s.boot with session := none, image := [] } }
    let t := if v = 0 then t.storeImage kind img else t
    let t := (t.assert 916).recordReg 916 unitSteward UPD_BOOT
    if v = 0 then (t.svcReply 4 svcOk q []).svcResume kind slot
    else t.svcReply 4 svcRejected q (toBytes [v])

/-- INFO answers what the part is and runs. -/
def State.infoBytes (s : State) : List Byte :=
  let p := (s.reg ID_PART).toNat
  toBytes (leBytes 2 p ++ leBytes 1 (bits p 16 8) ++ leBytes 1 (bits p 24 1) ++ leBytes 2 s.runVer ++ leBytes 2 (s.reg UPD_BOOT).toNat)

theorem exec_svcInfo (seq : BitVec 16) (s : State) :
    exec (.svcInfo seq) s = .next (s.svcOnce seq.toNat fun s => s.svcReply 1 svcOk seq.toNat s.infoBytes) := rfl

theorem exec_svcOpen (seq : BitVec 16) (kind : Byte) (len : BitVec 32) (s : State) :
    exec (.svcOpen seq kind len) s = .next (s.svcOnce seq.toNat fun s => s.svcOpen seq.toNat kind.toNat len.toNat) := rfl

theorem exec_svcData (seq : BitVec 16) (off : BitVec 32) (data : List Byte) (s : State) :
    exec (.svcData seq off data) s = .next (s.svcOnce seq.toNat fun s => s.svcData seq.toNat off.toNat data) := rfl

theorem exec_svcClose (seq : BitVec 16) (s : State) : exec (.svcClose seq) s = .next (s.svcOnce seq.toNat fun s => s.svcClose seq.toNat) := rfl

theorem exec_svcStatus (seq : BitVec 16) (s : State) :
    exec (.svcStatus seq) s = .next (s.svcOnce seq.toNat fun s => s.svcReply 5 svcOk seq.toNat []) := rfl

/-! OPEN. -/

section
variable {q kind len : Nat}

theorem State.svcOpen_busy (h : s.boot.session.isSome = true) : s.svcOpen q kind len = s.svcReply 2 svcBusy q [] := if_pos h

theorem State.svcOpen_badKind (h : s.boot.session = none) (hkind : kind = 0 ∨ 3 < kind) : s.svcOpen q kind len = s.svcReply 2 svcBadOp q [] :=
  (if_neg (by simp [h])).trans (if_pos hkind)

/-- A session opens 10 s after start-up, for an image that fits a free slot of its KIND. -/
theorem State.svcOpen_opens {e : DirEnt} (h : s.boot.session = none) (h1 : 1 ≤ kind) (h3 : kind ≤ 3)
    (hup : ∀ u, s.boot.upAt = some u → u + 10 ^ 10 ≤ s.gav.mono) (hlen : len ≤ 2 ^ 25) (hslot : s.freeSlot kind = some e) (hsize : len ≤ e.size) :
    s.svcOpen q kind len = ({ s with boot := { s.boot with session := some (kind, len), image := [] } } : State).svcReply 2 svcOk q [] := by
  have hearly : (match s.boot.upAt with | some a => decide (s.gav.mono < a + 10 ^ 10) | none => false) = false := by
    cases hat : s.boot.upAt with
    | none => rfl
    | some u => exact decide_eq_false (Nat.not_lt.2 (hup u hat))
  have hlarge : decide (len > 2 ^ 25) = false := decide_eq_false (Nat.not_lt.2 hlen)
  have hsmall : decide (e.size < len) = false := decide_eq_false (Nat.not_lt.2 hsize)
  refine (if_neg (by simp [h])).trans ((if_neg (by omega)).trans (if_neg ?_))
  rw [hslot]
  simp only [hearly, hlarge, hsmall, Bool.or_false, Bool.false_eq_true, not_false_eq_true]

end

/-! DATA. -/

section
variable {q off : Nat} {data : List Byte}

theorem State.svcData_notOpen (h : s.boot.session = none) : s.svcData q off data = s.svcReply 3 svcNotOpen q [] := by
  rw [State.svcData, h]

section
variable {m n : Nat} (h : s.boot.session = some (m, n))
include h

theorem State.svcData_beyond (hn : n < off + data.length) : s.svcData q off data = s.svcReply 3 svcBadOffset q [] := by
  rw [State.svcData, h]
  exact if_pos hn

theorem State.svcData_takes (hn : off + data.length ≤ n) : s.svcData q off data =
    ({ s with boot := { s.boot with
        image := data.zipIdx.foldl (fun m p => sset (fun _ => (0 : Byte)) m (off + p.2) p.1) s.boot.image } } : State).svcReply 3 svcOk q [] := by
  rw [State.svcData, h]
  exact if_neg (Nat.not_lt.2 hn)

end

end

/-! CLOSE. -/

section
variable {q : Nat}

theorem State.svcClose_notOpen (h : s.boot.session = none) : s.svcClose q = s.svcReply 4 svcNotOpen q [] := by
  rw [State.svcClose, h]

/-- CLOSE stores the image that passes, and otherwise answers the check that it fails. -/
theorem State.svcClose_open {m n v : Nat} {img : List Byte} {t : State} (h : s.boot.session = some (m, n))
    (himg : img = (List.range n).map fun i => sget (fun _ => (0 : Byte)) s.boot.image i) (hv : v = s.svcVerdict m img)
    (ht : t = { s with boot := { s.boot with session := none, image := [] } }) : s.svcClose q =
      if v = 0 then ((((t.storeImage m img).assert 916).recordReg 916 unitSteward UPD_BOOT).svcReply 4 svcOk q []).svcResume m
        (((s.freeSlot m).map (·.slot)).getD 0)
      else ((t.assert 916).recordReg 916 unitSteward UPD_BOOT).svcReply 4 svcRejected q (toBytes [v]) := by
  rw [State.svcClose, h]
  dsimp only
  rw [← himg, ← hv, ← ht]
  by_cases h0 : v = 0
  · simp only [if_pos h0]
  · simp only [if_neg h0]

end

end

/-- Settles O48: reset and start-up by their definitions; each request by whether it is performed, and then by its own order of refusals. -/
theorem startUpAndServicePort : Obligations.StartUpAndServicePort := by
  intro bd seq kind len off data s q k
  refine ⟨rfl, ⟨_, rfl, rfl⟩, fun u hu hpick => ?_, fun hreset => ?_, fun r hup hr => ?_, fun hup hr => ?_⟩
  · exact congrArg Host.Outcome.next (State.boot2_recovery hu hpick)
  · simp only [exec_svcInfo, exec_svcOpen, exec_svcData, exec_svcClose, exec_svcStatus, State.svcOnce_inReset hreset, and_self]
  · simp only [exec_svcInfo, exec_svcOpen, exec_svcData, exec_svcClose, exec_svcStatus, State.svcOnce_repeated (seq := seq.toNat) hup hr, and_self]
  · simp only [exec_svcInfo, exec_svcOpen, exec_svcData, exec_svcClose, exec_svcStatus, State.svcOnce_first (seq := seq.toNat) hup hr]
    refine ⟨⟨_, rfl⟩, rfl, fun h => ?_, fun h hk => ?_, fun e h h1 h3 hat hlen hslot hsize => ?_, fun h => ⟨?_, ?_⟩,
      fun m n h => ⟨fun hn => ?_, fun hn => ?_, fun img v t himg hv ht => ?_⟩⟩
    · rw [s.svcOpen_busy h]
    · rw [s.svcOpen_badKind h hk]
    · rw [s.svcOpen_opens h h1 h3 hat hlen hslot hsize]
    · rw [s.svcData_notOpen h]
    · rw [s.svcClose_notOpen h]
    · rw [s.svcData_beyond h hn]
    · rw [s.svcData_takes h hn]
    · rw [s.svcClose_open h himg hv ht]

end Sys2Proof.Machine
